-- ==== Sys2Proof/Word.lean ====
section
/-! DEFINITION. The device's word (24 bits throughout, 00_scope.md "Words, numbers and addresses") and its byte. -/

namespace Sys2Proof

/-- A word of the device: host window, warden cores, macrocells, descriptors and mailboxes. Bit 0 is the least significant. -/
abbrev Word := BitVec 24

/-- A byte of DRAM, flash, Lark memory or a PCI Express access. -/
abbrev Byte := BitVec 8

/-- The 48-bit quantities of the device (epochs, fold time, accumulators): high word, low word. -/
abbrev Word48 := BitVec 48

end Sys2Proof
end

