-- ==== Sys2Proof/Syntax.lean ====
section
/-! DEFINITION. The commands of the device: one constructor per row of spec/opcode_table.json, with the operands that
the step's rule names. An operand is what the outside decides (who asks, which resource, what the sink, the DRAM device,
the neighbour or the debugger answers); what the device itself decides is computed by the command's meaning. -/

namespace Sys2Proof

/-- Display heads H0 to H7 (00_scope.md "Index names"). -/
abbrev Head := Fin 8
/-- Layer slots S0 to S7 of a head. -/
abbrev Slot := Fin 8
/-- Layer engines E00 to E65. -/
abbrev Eng := Fin 66
/-- Paddocks P0 to P15. -/
abbrev Pad := Fin 16
/-- Logical cell n = 8t + c of a paddock (R144). -/
abbrev Cell := Fin 384
/-- DRAM channels C0 to C3. -/
abbrev Chan := Fin 4
/-- Golmon links G0 to G3. -/
abbrev Link := Fin 4
/-- Warden cores W0 and W1. -/
abbrev Core := Fin 2
/-- Applet contexts; 0 is Caeruno itself. -/
abbrev Ctx := Fin 64
/-- Mailboxes MB0 to MB15. -/
abbrev Mbox := Fin 16
/-- Timers T0 to T15. -/
abbrev Tmr := Fin 16
/-- Pin banks B0 to B11. -/
abbrev Bank := Fin 12
/-- Pins 0 to 23 of a bank. -/
abbrev PinNo := Fin 24
/-- Regions of the on-chip memories (11_integrity_repair.md, "Regions, counters and logs"). -/
abbrev Region := Fin 91

/-- Who makes an access, a post or a write (R239, R240, R263, R382): a core in a context, the host (directly or through
a command), the Stile debug master, or a paddock through its ports. -/
inductive Requester where
  | core (k : Core) (c : Ctx)
  | host
  | debug
  | paddock (p : Pad)
deriving DecidableEq, Repr

/-- Who claims a mailbox (R254): CLAIMANT of MBCTL. -/
inductive Claimant where
  | host
  | core (k : Core)
  | debug
  | link (g : Link)
deriving DecidableEq, Repr

/-- Who asks the DRAM scheduler (R131): the table of classes. -/
inductive DramUser where
  | slot (h : Head) (n : Slot)
  | lark (v : Fin 256)
  | larkReturn (x : Fin 4)
  | port (p : Pad) (k : Fin 2)
  | core (k : Core) (c : Ctx := 0)
  | debug
  | host
  | copy (n : Fin 8)
  | inbound (g : Link)
  | loader
deriving DecidableEq, Repr

/-- What the DRAM device and its link return for one read (R137, R138, R292). -/
inductive ReadOutcome where
  | good
  | eccCorrected
  | eccUncorrectable
  | linkCorrected
  | linkRetried
  | linkFailed
  | parityFailed
deriving DecidableEq, Repr

/-- What the word code of an on-chip memory finds when a word is read (R274, R275, R278). -/
inductive MemErr where
  | clean
  | single (bit : Fin 30)
  | rebuilt
  | uncorrectable
deriving DecidableEq, Repr

/-- A warden core's access: an instruction fetch, a data read or a data write. -/
inductive Access where
  | fetch (a : Word)
  | rd (a : Word)
  | wr (a : Word) (v : Word)
deriving DecidableEq, Repr

/-- An access to a paddock window (R176); `peek` is the attribute of R178. -/
inductive PadAccess where
  | rd (off : BitVec 12) (peek : Bool)
  | wr (off : BitVec 12) (v : Word)
deriving DecidableEq, Repr

/-- A configuration upset: the bits `mask` of a word of a frame, the bits `check` of its check bits and the bits `crc` of the
frame's CRC have flipped (R184); `poison` says that the mask read which it asks for returns a poisoned unit (R214); `late`, that it
hits between the scrub of its frame and the write-back (R215). -/
structure Upset where
  pad : Pad
  frame : Fin 800
  word : Fin 96
  mask : Word
  poison : Bool
  check : BitVec 6 := 0
  crc : BitVec 32 := 0
  late : Bool := false
deriving DecidableEq, Repr

/-- What the sink answered to link training (R404): whether it succeeded, and DPDRIVE as left. -/
structure TrainOutcome where
  ok : Bool
  drive : Word
deriving DecidableEq, Repr

/-- A Golmon packet as received: header block, payload blocks, tail block (R336). -/
structure Packet where
  hdr : BitVec 64
  pay : List (BitVec 64)
  tail : BitVec 64
deriving DecidableEq, Repr

/-- The register that REGISTER_WRITE or RC_READ names: a warden word with its requester, a host-window register with the
size of the access, the MSI-X control word of the function's configuration space (R355, R363), or a Stile register. -/
inductive RegTarget where
  | warden (r : Requester) (a : Word)
  | bar0 (off : BitVec 12) (size : Nat)
  | msixCtl
  | stile (n : BitVec 7)
deriving DecidableEq, Repr

/-- What wakes the device (R368, R369). -/
inductive WakeSrc where
  | pin (i : Fin 4)
  | timer (t : Tmr)
  | perst
  | hostAccess
  | mailboxPost
  | event
deriving DecidableEq, Repr

/-- Cross-trigger sources (XTSRC). -/
inductive XtSource where
  | bp (k : Core)
  | mark
  | ue
deriving DecidableEq, Repr

/-- What training finds fitted: the capacity code (R129) and the data rate, 0 to 3 for 3,200, 4,267, 5,500 and 6,400 MT/s (R127). -/
structure Fitted where
  cap : Fin 5
  rate : Fin 4
deriving DecidableEq, Repr

/-- A drain of a channel's write queue, and how many errors of its data lines write link ECC corrects (R127, R133). -/
structure Draining where
  chan : Chan
  fixed : Nat
deriving DecidableEq, Repr

/-- The steps of spec/opcode_table.json, one constructor per row, in the table's order. -/
inductive Instr where

  /-- BEAM_ADVANCE (R14). A video-clock edge moves a head's beam on by one quad, and the new position reaches every SCLK consumer two SCLK cycles later. -/
  | beamAdvance (h : Head)
  /-- LINE_STROBE (R39). A head's beam reaches quad 0.0 of a line, and line k becomes due at beam line k − L. -/
  | lineStrobe (h : Head)
  /-- FRAME_STROBE (R32). A head's beam reaches line 0, quad 0.0. -/
  | frameStrobe (h : Head)
  /-- HBLANK_STROBE (R24). A head's beam reaches quad HACT.0 of a line, and the front porch begins. -/
  | hblankStrobe (h : Head)
  /-- VBLANK_STROBE (R113). A head's beam reaches line VACT, quad 0.0. -/
  | vblankStrobe (h : Head)
  /-- HSYNC_STROBE (R25). A head's beam reaches quad HSS.0 of a line, and horizontal sync is asserted. -/
  | hsyncStrobe (h : Head)
  /-- VSYNC_STROBE (R25). A head's beam reaches line VSS, quad HSS.0, and vertical sync is asserted. -/
  | vsyncStrobe (h : Head)
  /-- HEAD_START (R30). RUN written from 0 to 1 checks the raster parameters and either fails with CFGERR or starts the PLL, discarding queue entries outside the raster. -/
  | headStart (h : Head)
  /-- HEAD_STOP (R31). RUN written from 1 to 0 requests that the raster stop at the end of the current line. -/
  | headStop (h : Head)
  /-- PLL_LOCK (R30). The dot PLL locks, and the raster begins at line 0, quad 0.0, or at the locked position. -/
  | pllLock (h : Head)
  /-- RASTER_STOP (R31). The raster stops at the end of the line, the queue is flushed and EPOCHL and EPOCHH take the next epoch. -/
  | rasterStop (h : Head)
  /-- REFERENCE_TIMEOUT (R36). No reference arrives for two nominal frame periods, and SYNCLOCK falls. -/
  | referenceTimeout (h : Head)
  /-- GENLOCK_IN (R35). A rising edge on GENLOCK_IN gives a genlocked head its reference instant. -/
  | genlockIn
  /-- QP_POST (R43). A write to QP_W3 posts an entry, which is checked and then accepted or refused within 4 SCLK cycles. -/
  | qpPost (r : Requester) (v : Word)
  /-- QP_CANCEL (R44). A write to QP_CANCEL cancels the entry named by its handle. -/
  | qpCancel (r : Requester) (v : Word)
  /-- PADDOCK_POST (R170). A paddock posts an entry through PQW0 to PQW3 with PQCTL POST. -/
  | paddockPost (p : Pad)
  /-- PADDOCK_CANCEL (R170). A paddock cancels an entry through PQW0 with PQCTL CANCEL. -/
  | paddockCancel (p : Pad)
  /-- MARK (R42). A MARK action copies TARGET and VALUE to MARK0 and MARK1 and raises the beam-queue event. -/
  | mark (h : Head)
  /-- WRITE (R47). A WRITE action writes VALUE to a beam-writable warden address, completing 8 SCLK cycles after issue. -/
  | write (h : Head)
  /-- PALSWAP (R68). A PALSWAP action exchanges fields LPa and LPb of the head's palette map. -/
  | palswap (h : Head)
  /-- VOICE (R224). A VOICE action gives Lark a key-on, key-off or stop for its next sample period. -/
  | voice (h : Head)
  /-- TIMER (R326). A TIMER action starts, stops, or reloads and starts a timer. -/
  | timer (h : Head)
  /-- PIN (R309). A PIN action sets, clears or toggles an OUT bit of a pin that the requester owns. -/
  | pin (h : Head)
  /-- STROBE (R169). A STROBE action presents a strobe and VALUE on the named paddock's beam port. -/
  | strobe (h : Head)
  /-- SWAP (R207). A SWAP action starts a paddock swap: the paddock is frozen, hedges take over and taps go to bypass. -/
  | swap (h : Head)
  /-- SLOT_WRITE (R52). A write to SLOTn changes EN, ENG or BLEND, subject to the engine-binding checks. -/
  | slotWrite (r : Requester) (h : Head) (n : Slot) (v : Word)
  /-- CINV (R73). Writing 1 to CINV empties the engine's tile cache and map-row buffer at the next line latch. -/
  | cinv (r : Requester) (h : Head) (n : Slot)
  /-- NSLOT_WRITE (R51). A write to NSLOT of LAYCTL changes the number of slots that the head owns, or is ignored. -/
  | nslotWrite (r : Requester) (h : Head) (v : Word)
  /-- ENGINE_LINE_BEGIN (R39). An engine begins work on a latched line once the line is due and the previous line is finished or abandoned. -/
  | engineLineBegin (h : Head) (n : Slot)
  /-- OCCLUSION_DELIVERY (R99). The compositor delivers the line's occluded columns to the engines, which may then fetch. -/
  | occlusionDelivery (h : Head)
  /-- OBJECT_EVALUATION (R41). The object store scans, orders and generates slivers for a line once its render-aligned entries have completed. -/
  | objectEvaluation (h : Head)
  /-- LINE_DEADLINE (R101). A line's deadline arrives, and any late slot causes the line to be missed. -/
  | lineDeadline (h : Head)
  /-- COMPOSE_LINE (R100). The compositor composes the line once every enabled slot has finished, or at the deadline. -/
  | composeLine (h : Head)
  /-- TAP_TRANSFER (R105). The tap presents a composed quad to the paddock TLAT quads ahead of its time. -/
  | tapTransfer (h : Head)
  /-- TAP_RETURN (R106). A quad returned with RV replaces its quad when in time, or is discarded and counted in TAGERR. -/
  | tapReturn (p : Pad)
  /-- TAPCTL_WRITE (R104). A write to TAPCTL is checked and then waits for the next frame boundary, or is ignored. -/
  | tapctlWrite (r : Requester) (h : Head) (v : Word)
  /-- SIGNATURE_RECORD_WRITE (R113). The closed record, with its MAC when keyed, is written to the head's ring, and the signature event is raised. -/
  | signatureRecordWrite (h : Head)
  /-- OUTPUT_ENABLE (R115). OEN written from 0 to 1 checks the selected output and enables it, or fails with OUTERR. -/
  | outputEnable (h : Head)
  /-- OUTPUT_DISABLE (R121). OEN written to 0 disables the output and clears LANEFLT, which turns shut lane drivers back on. -/
  | outputDisable (h : Head)
  /-- LANE_SHORT (R121). A shorted DisplayPort lane is detected, and its driver is shut down with LANEFLT and SHORT set. -/
  | laneShort (h : Head) (l : Fin 4)
  /-- HPD_RISE (R122). DP_HPD rises, raising the output event. -/
  | hpdRise (h : Head) (lowUs : Nat)
  /-- UNPLUG (R122). DP_HPD low for 2 ms is an unplug: HPD reads 0, TRAINOK clears and UNPLUGS counts. -/
  | unplug (h : Head)
  /-- DRAM_TRAINING (R128). Caeruno trains the channels, chooses the channel set and sets DONE. -/
  | dramTraining (ok : BitVec 4) (cap : Fitted)
  /-- DRAM_READ_REQUEST (R131). A requester asks for a 32-byte unit in its class. -/
  | dramReadRequest (q : DramUser) (u : BitVec 30)
  /-- DRAM_READ_ISSUE (R132). A channel serves a pending read that holds a tag, in the order of its arbitration. -/
  | dramReadIssue (c : Chan)
  /-- DRAM_READ_COMPLETE (R137). Read data returns with ECC correction, retry or poison, and is delivered to the requester. -/
  | dramReadComplete (c : Chan) (o : ReadOutcome)
  /-- DRAM_WRITE_REQUEST (R133). A write enters the channel's write queue, or its writer waits. -/
  | dramWriteRequest (q : DramUser) (a : BitVec 35) (d : List Byte)
  /-- WRITE_QUEUE_DRAIN (R133). The write queue drains when it holds 48 entries or no read is pending. -/
  | writeQueueDrain (c : Draining)
  /-- REFRESH (R127). Per-bank refresh falls due at the rate that MR4 sets. -/
  | refresh (c : Chan) (sub : Bool) (mr4 : Fin 32)
  /-- DRCFG_WRITE (R139). A write to DRCFG sets NCH and CAP, and is ignored once DONE is 1. -/
  | drcfgWrite (r : Requester) (v : Word)
  /-- TAGRES_WRITE (R140). A write to TAGRES changes the tag reservations, or is refused. -/
  | tagresWrite (r : Requester) (v : Word)
  /-- SHARE_WRITE (R141). A write to SHARE changes the MINSHARE floors, or is refused. -/
  | shareWrite (r : Requester) (v : Word)
  /-- ECC_REGION_ENABLE (R136). A write setting EN of an inline-ECC region is checked and then accepted or ignored. -/
  | eccRegionEnable (r : Requester) (n : Fin 8) (v : Word)
  /-- HOLD (R151). A macrocell executes HOLD, leaving Q, QH and the flags unchanged. -/
  | hold (p : Pad) (n : Cell)
  /-- PASS (R151). A macrocell executes PASS. -/
  | pass (p : Pad) (n : Cell)
  /-- ADD (R151). A macrocell executes ADD. -/
  | add (p : Pad) (n : Cell)
  /-- SUB (R151). A macrocell executes SUB. -/
  | sub (p : Pad) (n : Cell)
  /-- LOGIC (R151). A macrocell executes LOGIC by truth table TT. -/
  | logic (p : Pad) (n : Cell)
  /-- CMP (R151). A macrocell executes CMP, setting its flags. -/
  | cmp (p : Pad) (n : Cell)
  /-- SHL (R151). A macrocell executes SHL. -/
  | shl (p : Pad) (n : Cell)
  /-- SHR (R151). A macrocell executes SHR. -/
  | shr (p : Pad) (n : Cell)
  /-- SAR (R151). A macrocell executes SAR. -/
  | sar (p : Pad) (n : Cell)
  /-- ROL (R151). A macrocell executes ROL. -/
  | rol (p : Pad) (n : Cell)
  /-- SELC (R151). A macrocell executes SELC. -/
  | selc (p : Pad) (n : Cell)
  /-- MINU (R151). A macrocell executes MINU. -/
  | minu (p : Pad) (n : Cell)
  /-- MAXU (R151). A macrocell executes MAXU. -/
  | maxu (p : Pad) (n : Cell)
  /-- MINS (R151). A macrocell executes MINS. -/
  | mins (p : Pad) (n : Cell)
  /-- MAXS (R151). A macrocell executes MAXS. -/
  | maxs (p : Pad) (n : Cell)
  /-- ADDSU (R151). A macrocell executes ADDSU. -/
  | addsu (p : Pad) (n : Cell)
  /-- ADDSS (R151). A macrocell executes ADDSS. -/
  | addss (p : Pad) (n : Cell)
  /-- SUBSU (R151). A macrocell executes SUBSU. -/
  | subsu (p : Pad) (n : Cell)
  /-- SUBSS (R151). A macrocell executes SUBSS. -/
  | subss (p : Pad) (n : Cell)
  /-- SATU (R151). A macrocell executes SATU. -/
  | satu (p : Pad) (n : Cell)
  /-- SATS (R151). A macrocell executes SATS. -/
  | sats (p : Pad) (n : Cell)
  /-- MULU (R151). A multiplier cell executes MULU. -/
  | mulu (p : Pad) (n : Cell)
  /-- MULS (R151). A multiplier cell executes MULS. -/
  | muls (p : Pad) (n : Cell)
  /-- MACU (R151). A multiplier cell executes MACU. -/
  | macu (p : Pad) (n : Cell)
  /-- MACS (R151). A multiplier cell executes MACS. -/
  | macs (p : Pad) (n : Cell)
  /-- GMUX (R157). A gang head selects one of its gang inputs. -/
  | gmux (p : Pad) (n : Cell)
  /-- CELL_RESET (R154). A cell whose SR sum term is 1 is reset to INIT, with QH and the flags at 0. -/
  | cellReset (p : Pad) (n : Cell)
  /-- CE_HOLD (R154). A cell whose CE sum term is 0 holds Q, QH and its flags. -/
  | ceHold (p : Pad) (n : Cell)
  /-- BLOCK_MEMORY_ACCESS (R165). A block memory port reads, or reads and writes, at its clock edge. -/
  | blockMemoryAccess (p : Pad) (m : Fin 96) (k : Fin 2) (e : MemErr)
  /-- MEMORY_PORT_REQUEST (R172). MCMD with GO makes a memory-port request, or is lost while BUSY. -/
  | memoryPortRequest (p : Pad) (k : Fin 2)
  /-- MEMORY_PORT_READ_DATA (R173). Read data is presented one word per cycle with RV, and RLAST marks the last word. -/
  | memoryPortReadData (p : Pad) (k : Fin 2)
  /-- MEMORY_PORT_WRITE_WORD (R174). The port takes a write word offered with MWV, and WDONE marks the last unit entering the write queue. -/
  | memoryPortWriteWord (p : Pad) (k : Fin 2)
  /-- WARDENS_BUS_ACCESS (R176). An access to a paddock window is presented to the design. -/
  | wardensBusAccess (r : Requester) (p : Pad) (acc : PadAccess)
  /-- WARDENS_BUS_ACK (R176). The design answers the access with ACK, and possibly ERR. -/
  | wardensBusAck (p : Pad)
  /-- WARDENS_BUS_TIMEOUT (R177). An access unanswered for 64 fabric cycles completes without the design, and WBTO counts it. -/
  | wardensBusTimeout (p : Pad)
  /-- SRST (R183). Writing 1 to SRST resets every cell of the paddock. -/
  | srst (r : Requester) (p : Pad)
  /-- CLKEN_WRITE (R160). A write to CLKEN gives or withholds the fabric clock. -/
  | clkenWrite (r : Requester) (p : Pad) (on : Bool)
  /-- PROBE_SELECT (R180). A write to PROBEn selects a source at the next fabric edge. -/
  | probeSelect (r : Requester) (p : Pad) (n : Fin 16) (v : Word)
  /-- LOAD (R207). ICPCTL GO with OP LOAD starts a swap of PAD from image IMG. -/
  | load (r : Requester) (p : Pad) (img : Fin 64)
  /-- REWRITE (R204). ICPCTL GO with OP REWRITE rewrites one frame of a running paddock from its image. -/
  | rewrite (r : Requester) (p : Pad) (f : BitVec 10)
  /-- READ (R199). ICPCTL GO with OP READ reads a frame into ICPBUF, or returns zeros with code 0xD when RBD is 1. -/
  | read (r : Requester) (p : Pad) (f : BitVec 10)
  /-- ICP_OPERATION_COMPLETE (R205). An ICP operation ends, and ICPSTAT takes its code. -/
  | icpOperationComplete
  /-- CONFIG_LOAD (R208). The loader, once the ICP is free, clears the paddock, applies spare columns and begins writing the run. -/
  | configLoad
  /-- PAD (R192). A PAD record is read and ignored. -/
  | pad
  /-- FRAMES (R192). A FRAMES record writes n frames from frame f. -/
  | frames
  /-- BMEM (R192). A BMEM record writes 1,024 words of a block memory. -/
  | bmem
  /-- END (R193). An END record ends the paddock's run, and the following words must be zero. -/
  | endRecord
  /-- LOAD_COMPLETE (R209). In cycle r the paddock runs its new design, with LDIMG and LDTIME set. -/
  | loadComplete
  /-- IMAGE_ENTRY_WRITE (R203). A write to an image table entry is accepted or ignored under the VALID rules. -/
  | imageEntryWrite (r : Requester) (e : Fin 64) (w : Fin 4) (v : Word)
  /-- GLEANER_ROUND (R213). Every 15 ms the Gleaner begins a round, votes its registers and scrubs the loaded paddocks. -/
  | gleanerRound (ups : List Upset)
  /-- HEARTBEAT_TIMEOUT (R218). A core that sees HBEAT unchanged for 30 ms resets the Gleaner. -/
  | heartbeatTimeout
  /-- GRST (R218). Writing 1 to GRST resets the Gleaner, which restarts at round 0. -/
  | grst (r : Requester)
  /-- SAMPLE_PERIOD (R224). A Lark sample period begins, applying the gathered key commands and voice words and mixing every voice. -/
  | samplePeriod
  /-- KEY_ON (R224). A VKEY write with OP key-on is gathered for the next sample period. -/
  | keyOn (r : Requester) (v : Fin 256)
  /-- KEY_OFF (R224). A VKEY write with OP key-off is gathered for the next sample period. -/
  | keyOff (r : Requester) (v : Fin 256)
  /-- VOICE_STOP (R224). A VKEY write with OP stop is gathered for the next sample period. -/
  | voiceStop (r : Requester) (v : Fin 256)
  /-- LARK_BLOCK (R235). At a block of 64 periods Lark reads return slots, and send blocks are copied to the rings. -/
  | larkBlock
  /-- LCTL_WRITE (R221). A write to LCTL enables or disables Lark; EN to 0 idles every voice. -/
  | lctlWrite (r : Requester) (v : Word)
  /-- LMDATA_ACCESS (R221). A read or write of LMDATA moves three bytes of Lark memory and advances ADDR by 3. -/
  | lmdataAccess (r : Requester) (w : Option Word)
  /-- WARDEN_ACCESS (R239). A core makes a read or write carrying its context number. -/
  | wardenAccess (k : Core) (c : Ctx) (acc : Access) (e : MemErr)
  /-- PEER_TAKEOVER (R242). A peer's PBEAT is unchanged for 10 ms, and the core resets it and takes over in SOLO. -/
  | peerTakeover (k : Core)
  /-- CORE_REJOIN (R242). A reset core restarts through the boot ROM and rejoins in DUPLEX. -/
  | coreRejoin (k : Core)
  /-- WATCHDOG_EXPIRY (R243). WDCNT reaches 0: the core is reset and the peer takes over. -/
  | watchdogExpiry (k : Core)
  /-- KICK (R244). The kick key sequence on WDKEY reloads WDCNT. -/
  | kick (k : Core)
  /-- WDCFG_UNLOCK (R244). The unlock sequence permits one write to WDCFG. -/
  | wdcfgUnlock (k : Core) (v : Word)
  /-- KEY_SEQUENCE_LAPSE (R244). A key sequence's 64-cycle window lapses, and BADKICK counts it. -/
  | keySequenceLapse (k : Core)
  /-- PEERRST (R242). A write to PEERRST resets the other core. -/
  | peerrst (k : Core)
  /-- BUDGET_EXHAUSTED (R246). A context that uses up its budget is preempted until the next window, and OVER counts it. -/
  | budgetExhausted (c : Ctx)
  /-- BUDGET_WINDOW (R246). A new 1 ms budget window begins. -/
  | budgetWindow
  /-- SERVICE_TRAP (R248). An applet calls Caeruno through the service trap. -/
  | serviceTrap (k : Core) (c : Ctx) (msg : List Word)
  /-- CLAIM (R254). CLAIM moves a FREE mailbox to CLAIMED and records the claimant. -/
  | claim (q : Claimant) (m : Mbox)
  /-- POST (R254). POST by the claimant moves the mailbox to POSTED. -/
  | post (q : Claimant) (m : Mbox)
  /-- RELEASE (R254). RELEASE by the claimant moves the mailbox to FREE. -/
  | release (q : Claimant) (m : Mbox)
  /-- CLAIM_EXPIRY (R255). A mailbox CLAIMED for 2^23 cycles without a POST returns to FREE. -/
  | claimExpiry (m : Mbox)
  /-- IDENT (R261). IDENT returns the identity, Caeruno version, SECFUSE and FAMIDR. -/
  | ident (m : Mbox)
  /-- STATUS (R261). STATUS returns the reason, roles, SET flags and uptime. -/
  | status (m : Mbox)
  /-- SEQSYNC (R259). SEQSYNC sets the mailbox's expected sequence. -/
  | seqsync (m : Mbox)
  /-- SETSTATE (R250). SETSTATE moves the device between READY, LIVE and MAINT. -/
  | setstate (m : Mbox)
  /-- RESET (R261). RESET answers and schedules a device reset 1 ms later. -/
  | reset (m : Mbox)
  /-- DEVICE_RESET_AFTER_RESPONSE (R372). 1 ms after the RESET response the device resets as by SYSRST_N. -/
  | deviceResetAfterResponse
  /-- FWPUT (R273). FWPUT writes Caeruno words into system SRAM in BOOT with NOFW. -/
  | fwput (m : Mbox)
  /-- FWBOOT (R273). FWBOOT verifies the written image and starts both cores on it, or completes CHECK. -/
  | fwboot (m : Mbox) (ok : Bool)
  /-- HEADCFG (R261). HEADCFG writes a head's timing, PLL, phase and HCTL fields except RUN. -/
  | headcfg (m : Mbox)
  /-- HEADRUN (R294). HEADRUN writes RUN and the epoch, and returns HSTAT. -/
  | headrun (m : Mbox)
  /-- CREG (R262). CREG writes a permitted control register and reads it back. -/
  | creg (m : Mbox)
  /-- DPTRAIN (R404). DPTRAIN trains the head's DisplayPort link. -/
  | dptrain (m : Mbox) (o : TrainOutcome)
  /-- AUX_READ (R261). AUX reads DPCD or I²C bytes over the AUX channel. -/
  | auxRead (m : Mbox) (d : List Byte)
  /-- AUX_WRITE (R261). AUX writes DPCD or I²C bytes over the AUX channel. -/
  | auxWrite (m : Mbox)
  /-- WREAD (R263). WREAD reads warden words with the host's rights. -/
  | wread (m : Mbox)
  /-- WWRITE (R263). WWRITE writes warden words with the host's rights. -/
  | wwrite (m : Mbox)
  /-- QPOST (R261). QPOST posts a beam action entry on a head's queue. -/
  | qpost (m : Mbox)
  /-- QCANCEL (R261). QCANCEL cancels a beam action entry by its handle. -/
  | qcancel (m : Mbox)
  /-- GRANT_ON (R264). GRANT with ON gives a right to a context or paddock. -/
  | grantOn (m : Mbox)
  /-- GRANT_OFF (R264). GRANT with ON clear withdraws a right. -/
  | grantOff (m : Mbox)
  /-- GRANTLIST (R261). GRANTLIST returns the grantees of a right. -/
  | grantlist (m : Mbox)
  /-- STAGE (R265). STAGE verifies a stream and fills image table entries. -/
  | stage (m : Mbox)
  /-- UNSTAGE (R265). UNSTAGE clears an image table entry not in use. -/
  | unstage (m : Mbox)
  /-- PLOAD (R265). An immediate PLOAD loads a paddock through the ICP. -/
  | pload (m : Mbox)
  /-- PLOAD_TIMED (R265). A timed PLOAD posts a NEXT SWAP at a beam position. -/
  | ploadTimed (m : Mbox)
  /-- GLEANREQ_REWRITE (R265). GLEANREQ rewrites one frame of a paddock. -/
  | gleanreqRewrite (m : Mbox)
  /-- GLEANREQ_RELOAD (R265). GLEANREQ reloads a paddock under its GLPOL. -/
  | gleanreqReload (m : Mbox)
  /-- BIND (R266). BIND writes a device binding record for a stream. -/
  | bind (m : Mbox)
  /-- ARBRAISE (R266). ARBRAISE raises ARBCNT to a staged stream's ARB. -/
  | arbraise (m : Mbox)
  /-- FAMKEY (R266). FAMKEY programs the family key and ID, and may lock them. -/
  | famkey (m : Mbox)
  /-- REVOKE (R266). REVOKE revokes a signing-key slot. -/
  | revoke (m : Mbox)
  /-- ATTKEY (R267). ATTKEY returns the attestation key wrapped for a slot's key holder. -/
  | attkey (m : Mbox) (de : BitVec 384)
  /-- FLASHINFO (R261). FLASHINFO returns the flash size, kind and clock. -/
  | flashinfo (m : Mbox)
  /-- FLASHWRITE (R268). FLASHWRITE writes or verifies a flash image and rewrites the directory. -/
  | flashwrite (m : Mbox) (ok : Bool)
  /-- FLASHBLK (R268). FLASHBLK writes a block of flash in host-assisted mode. -/
  | flashblk (m : Mbox)
  /-- FLASHDIR (R268). FLASHDIR writes a permitted directory field. -/
  | flashdir (m : Mbox)
  /-- FWSTAGE (R270). FWSTAGE verifies a Caeruno image in DRAM for relay. -/
  | fwstage (m : Mbox) (ok : Bool)
  /-- FWRELAY (R271). FWRELAY moves both cores to the staged Caeruno one at a time. -/
  | fwrelay (m : Mbox)
  /-- RELAY_TIMEOUT (R272). A core not ALIVE within 100 ms of its relay step is reset or left DOWN, and FWRELAY completes FAULT. -/
  | relayTimeout (k : Core)
  /-- SPLITGET (R405). SPLITGET reports the Function Split Table. -/
  | splitget (m : Mbox)
  /-- SPLITSET (R269). SPLITSET requests a mode for a function. -/
  | splitset (m : Mbox)
  /-- APPLOAD (R247). APPLOAD verifies and loads an applet into a context. -/
  | appload (m : Mbox)
  /-- APPCTL_START (R249). APPCTL starts a context. -/
  | appctlStart (m : Mbox)
  /-- APPCTL_STOP (R249). APPCTL stops a context. -/
  | appctlStop (m : Mbox)
  /-- APPCTL_UNLOAD (R249). APPCTL unloads a context, withdrawing its grants and clearing its pages. -/
  | appctlUnload (m : Mbox)
  /-- APPCTL_RESTART (R249). APPCTL restarts a context. -/
  | appctlRestart (m : Mbox)
  /-- APPSTAT (R249). APPSTAT returns a context's state and counts. -/
  | appstat (m : Mbox)
  /-- LEDGER (R297). LEDGER returns availability ledger words. -/
  | ledger (m : Mbox)
  /-- FORWARD_TIMEOUT (R348). A forwarded command with no MBRSP within 1 s completes FAULT. -/
  | forwardTimeout (m : Mbox)
  /-- PAGE_REBUILD (R275). The page code rebuilds an uncorrectable word within 300 SCLK cycles and writes it back. -/
  | pageRebuild (r : Region) (a : BitVec 22)
  /-- REMAP (R282). REMAP GO moves a word to a spare, or is refused with RMFULL. -/
  | remap (r : Region) (a : BitVec 22)
  /-- LOG_CLEAR (R279). Writing CLR clears a region's log and NLOG. -/
  | logClear (q : Requester) (r : Region)
  /-- CHECKER_TEST (R281). At start-up Caeruno tests every region's checkers with armed flips. -/
  | checkerTest (bad : List Region)
  /-- ROTATION (R285). Every INT × 10 ms a rotation begins, mirroring a live engine onto a stand-in. -/
  | rotation
  /-- SELF_TEST_COMPLETE (R286). An engine's 4 ms self-test ends and passes or marks the engine failed. -/
  | selfTestComplete (pass : Bool)
  /-- BANKCFG_WRITE (R299). A write to BANKCFG sets the bank level if the supply suits it. -/
  | bankcfgWrite (r : Requester) (b : Bank) (v : Word)
  /-- HOLDREL (R316). Writing HOLDREL releases the pad hold latches. -/
  | holdrel (r : Requester) (b : Bank)
  /-- PGOOD_FALL (R300). A bank supply leaves tolerance; the bank acts as off and SUPDROP counts it. -/
  | pgoodFall (b : Bank)
  /-- PGOOD_RISE (R300). A bank supply returns, and the bank resumes its LEVEL. -/
  | pgoodRise (b : Bank) (sup : Fin 6)
  /-- PINCFG_WRITE (R306). A PINCFG write changes a pin's function, with the pad held until the next bank-clock edge. -/
  | pincfgWrite (r : Requester) (b : Bank) (n : PinNo) (v : Word)
  /-- OUT_WRITE (R309). A write to OUT changes the bits of owned pins. -/
  | outWrite (r : Requester) (b : Bank) (v : Word)
  /-- OSET (R310). A write to OSET sets owned OUT bits. -/
  | oset (r : Requester) (b : Bank) (v : Word)
  /-- OCLR (R310). A write to OCLR clears owned OUT bits. -/
  | oclr (r : Requester) (b : Bank) (v : Word)
  /-- OTGL (R310). A write to OTGL inverts owned OUT bits. -/
  | otgl (r : Requester) (b : Bank) (v : Word)
  /-- PIN_INPUT (R312). A synchronised input edge or level sets IFLAG and raises the pin event or an applet interrupt. -/
  | pinInput (b : Bank) (n : PinNo) (lvl : Bool)
  /-- DEBOUNCE (R311). The debounced input takes a new level after DEBT ticks. -/
  | debounce (b : Bank) (n : PinNo)
  /-- CONTENTION (R313). Contention lasting 1 µs sets CONT and may switch the driver off. -/
  | contention (b : Bank) (n : PinNo)
  /-- OPEN_PROBE (R314). OPENCTL GO starts the open probe on the masked pins. -/
  | openProbe (r : Requester) (b : Bank)
  /-- OPEN_PROBE_DONE (R314). After both pull phases the probe sets OPEN and clears BUSY. -/
  | openProbeDone (b : Bank) (up down : Word)
  /-- TIMER_START (R326). A TGO start sets RUN, and the timer counts on from TCNT. -/
  | timerStart (r : Requester) (mask : BitVec 16)
  /-- TIMER_STOP (R326). A TGO stop clears RUN and holds the count. -/
  | timerStop (r : Requester) (mask : BitVec 16)
  /-- TIMER_RELOAD_AND_START (R326). A TGO reload and start loads PHASE, restarts the prescaler and sets RUN. -/
  | timerReloadAndStart (r : Requester) (mask : BitVec 16)
  /-- TICK (R323). The prescaler gives a tick, the count steps, and MATCH, WRAP and the output follow. -/
  | tick (t : Tmr)
  /-- CAPTURE (R325). A capture event copies the count into TCAP or the second stage. -/
  | capture (t : Tmr)
  /-- TCAP_READ (R325). A read of TCAP clears CAPV and moves the second stage in. -/
  | tcapRead (r : Requester) (t : Tmr)
  /-- TCNT_READ (R322). A read of a chained even TCNT loads the requester's shadow of the odd count. -/
  | tcntRead (r : Requester) (t : Tmr)
  /-- LOWRES_STEP (R328). A frozen or asleep KEEP timer advances by KSTEP at each 32.768 kHz edge. -/
  | lowresStep (t : Tmr)
  /-- LINK_ENABLE (R332). EN written 1 takes a link from DOWN into TRAIN. -/
  | linkEnable (r : Requester) (g : Link)
  /-- LINK_DISABLE (R335). EN written 0 takes a link DOWN. -/
  | linkDisable (r : Requester) (g : Link)
  /-- TS (R333). A TS block is received and lanes are mapped, widths chosen and UP or FAULT entered. -/
  | ts (g : Link) (l : Fin 4) (blk : BitVec 64)
  /-- ALIGN (R331). An ALIGN block is received, deskewing lanes and reporting RXGOOD. -/
  | align (g : Link) (l : Fin 4) (blk : BitVec 64)
  /-- ALIGN_SEND (R331). Every 16,384 blocks each lane sends ALIGN in the same slot. -/
  | alignSend (g : Link)
  /-- IDLE (R331). An IDLE control block is received. -/
  | idle (g : Link) (blk : BitVec 64)
  /-- LANE_LOCK_TIMEOUT (R333). A lane without lock 1 ms after TRAIN starts is bad. -/
  | laneLockTimeout (g : Link)
  /-- TRAIN_TIMEOUT (R335). TRAIN not reaching UP within 100 ms takes the link DOWN. -/
  | trainTimeout (g : Link)
  /-- TRAIN_RETRY (R335). A DOWN link with EN = 1 tries TRAIN again every 100 ms. -/
  | trainRetry (g : Link)
  /-- TX_SHORT (R334). A shorted transmit driver is shut down and the link retrains. -/
  | txShort (g : Link) (l : Fin 4)
  /-- SHORT_RETEST (R335). Once a second a shut driver is re-enabled for 10 µs, and SHORTED clears if no short is seen. -/
  | shortRetest (g : Link) (l : Fin 4) (short : Bool)
  /-- LANE_RECOVERY (R335). A lane reported good for 3 s makes the link retrain to grow its width. -/
  | laneRecovery (g : Link)
  /-- EPOCH (R345). An EPOCH packet from the PARENT link is accepted and forwarded. -/
  | epoch (g : Link) (pkt : Packet)
  /-- FOLD_FRAME_BOUNDARY (R345). The fold time reaches T, and the fold frame boundary of the new epoch falls. -/
  | foldFrameBoundary
  /-- EPOCH_TIMEOUT (R345). No EPOCH for two frame periods drops EPVALID, and EPLOSS counts it. -/
  | epochTimeout
  /-- TSYNC_REQUEST (R343). Once per millisecond a member sends a TSYNC request to its parent. -/
  | tsyncRequest
  /-- TSYNC (R343). A TSYNC request is answered, or a response slews the fold time. -/
  | tsync (g : Link) (pkt : Packet)
  /-- MBREQ (R347). A forwarded request takes the destination's lowest FREE mailbox and is executed there. -/
  | mbreq (g : Link) (pkt : Packet)
  /-- MBRSP (R348). A forwarded response completes the holding mailbox. -/
  | mbrsp (g : Link) (pkt : Packet)
  /-- CPYDATA (R351). Copy units are admitted to the inbound window and written, or refused. -/
  | cpydata (g : Link) (pkt : Packet)
  /-- CPYACK (R352). A copy acknowledgement advances CDONE or ends the copy with its CODE. -/
  | cpyack (g : Link) (pkt : Packet)
  /-- STRDATA (R353). Stream row units are written at the destination. -/
  | strdata (g : Link) (pkt : Packet)
  /-- ACK (R337). An acknowledgement frees the retry buffer, or a NAK makes the transmitter resend. -/
  | ack (g : Link) (pkt : Packet)
  /-- ACK_DUE (R337). An end sends ACKV at least once every 256 blocks. -/
  | ackDue (g : Link)
  /-- COPY_GO (R349). CCMD GO starts a copy. -/
  | copyGo (r : Requester) (n : Fin 8)
  /-- COPY_STOP (R352). CCMD STOP ends a copy or stream after the packets in flight. -/
  | copyStop (r : Requester) (n : Fin 8)
  /-- STREAM_ARM (R353). CCMD GO with STRM arms a layer stream. -/
  | streamArm (r : Requester) (n : Fin 8)
  /-- PRBS_TEST (R354). A non-zero PRBS takes the link into TEST. -/
  | prbsTest (r : Requester) (g : Link) (v : Fin 8)
  /-- PRBS_STOP (R354). PRBS written 0 returns the link to TRAIN. -/
  | prbsStop (r : Requester) (g : Link)
  /-- FTIMEL_READ (R342). A read of FTIMEL loads the requester's shadow of the fold time's high bits. -/
  | ftimelRead (r : Requester)
  /-- REGISTER_WRITE (R7). A write to a register with no row of its own takes effect or is ignored. -/
  | registerWrite (t : RegTarget) (v : BitVec 64)
  /-- RC_READ (R10). A read of an RC field returns it and then clears it. -/
  | rcRead (t : RegTarget)
  /-- EPOCHL_READ (R29). A read of EPOCHL loads the requester's shadow of epoch bits [47:24]. -/
  | epochlRead (r : Requester) (h : Head)
  /-- APERTURE_READ (R357). A host read through BAR2 reaches DRAM, Lark memory or a warden word. -/
  | apertureRead (off : BitVec 36) (len : Nat)
  /-- APERTURE_WRITE (R357). A host write through BAR2 is performed, or refused and counted in APFAULT. -/
  | apertureWrite (off : BitVec 36) (d : List Byte)
  /-- MSIX_MESSAGE (R363). A pending message request is sent once its masks clear, if the flag is still set. -/
  | msixMessage (n : Fin 64)
  /-- PCIE_PERST_N (R356). PCIE_PERST_N falls and resets the function, freeing host mailboxes. -/
  | pciePerstN
  /-- PWRCTL_RUN (R366). A PWRCTL request for Run. -/
  | pwrctlRun
  /-- PWRCTL_DIM (R366). A PWRCTL request for Dim. -/
  | pwrctlDim
  /-- PWRCTL_REST (R365). A PWRCTL request for Rest, checked and then accepted or refused. -/
  | pwrctlRest
  /-- PWRCTL_KEEP (R365). A PWRCTL request for Keep, checked and then accepted or refused. -/
  | pwrctlKeep
  /-- REST_ENTRY (R366). After commands in service complete, the device enters Rest. -/
  | restEntry
  /-- KEEP_ENTRY (R366). After the ledger is written, the other domains switch off and the device is in Keep. -/
  | keepEntry
  /-- WAKE (R368). A wake source returns the device from Rest or Keep. -/
  | wake (w : WakeSrc)
  /-- THERM_UPDATE (R406). Every 1 ms TEMP updates, and HOT sets on a crossing of ALERT. -/
  | thermUpdate (t : Byte)
  /-- THERMAL_TRIP (R370). TEMP at 125 °C for 1 ms enters Keep without Caeruno. -/
  | thermalTrip
  /-- POR_N (R372). POR_N resets the whole device, and its rise samples the straps. -/
  | porN (straps : BitVec 4)
  /-- SYSRST_N (R372). SYSRST_N resets everything except the always-on domain. -/
  | sysrstN
  /-- FUSE_LOAD (R198). Fuses are read three times by majority and the attestation key is derived. -/
  | fuseLoad (disagree : BitVec 12)
  /-- CAERUNO_BOOT (R373). The boot ROM verifies a Caeruno copy and starts both cores, or stays in BOOT with NOFW. -/
  | caerunoBoot (okA okB : Bool)
  /-- FABRIC_LOAD (R201). Caeruno loads the better flash image at start-up and enters READY or MAINT. -/
  | fabricLoad
  /-- LEDGER_TICK (R294). Each millisecond is tallied as counted, planned or unavailable. -/
  | ledgerTick
  /-- LEDGER_WRITE (R297). The ledger is written to flash every 10 minutes and at changes of state. -/
  | ledgerWrite
  /-- BYPASS (R374). The BYPASS instruction selects the 1-bit register. -/
  | bypass
  /-- IDCODE (R374). The IDCODE instruction selects the 32-bit identity. -/
  | idcode
  /-- SAMPLE_PRELOAD (R375). SAMPLE/PRELOAD samples or preloads the boundary register. -/
  | samplePreload (bits : List Bool)
  /-- EXTEST (R375). EXTEST drives the pins from the boundary register while SYSRST_N is low. -/
  | extest (bits : List Bool)
  /-- CLAMP (R375). CLAMP holds the pins while SYSRST_N is low. -/
  | clamp
  /-- DPACC (R376). A DPACC update makes one access to a Stile register. -/
  | dpacc (w : BitVec 32)
  /-- TWO_WIRE_TRANSACTION (R377). A two-wire transaction carries one access, with parity checked. -/
  | twoWireTransaction (w : BitVec 32) (par : Bool)
  /-- TWO_WIRE_RESET (R377). Fifty cycles with TMS at 1 reset the port. -/
  | twoWireReset
  /-- TRST_N (R381). TRST_N low resets the port and ends the session. -/
  | trstN
  /-- CHAL (R379). CHAL makes the key engine write a fresh nonce. -/
  | chal (nonce : BitVec 384)
  /-- VERIFY (R379). VERIFY starts checking the certificate and response. -/
  | verify
  /-- VERIFY_COMPLETE (R380). Verification ends, setting LEVEL or RESULT and FAILS. -/
  | verifyComplete
  /-- LOGOUT (R381). LOGOUT ends the session, resuming halted blocks. -/
  | logout
  /-- ABUFD_ACCESS (R379). An access to ABUFD reads or writes a buffer word and advances ADDR. -/
  | abufdAccess (w : Option Word)
  /-- BMDATA_ACCESS (R383). An access to BMDATA makes one debug-master access with the peek or consume attribute. -/
  | bmdataAccess (w : Option Word)
  /-- HALT (R389). HALT stops a core. -/
  | halt (k : Core)
  /-- RESUME (R388). RESUME releases every halted or frozen block. -/
  | resume
  /-- STEP (R389). STEP makes a halted core execute one instruction. -/
  | step (k : Core)
  /-- ABORT (R389). ABORT abandons a halted core's key sequence and claimed mailboxes. -/
  | abort (k : Core)
  /-- CONTEXT_HALT (R387). CTXHALT halt suspends a context. -/
  | contextHalt (c : Ctx)
  /-- CONTEXT_RESUME (R387). CTXHALT resume restores a context to scheduling. -/
  | contextResume (c : Ctx)
  /-- CONTEXT_STEP (R387). CTXHALT step executes one instruction of a context. -/
  | contextStep (c : Ctx)
  /-- FREEZE (R388). A write to FRZ or FRZPAD freezes the named blocks. -/
  | freeze (frz frzpad : Word)
  /-- CROSS_TRIGGER (R388). A trigger reaches the selected sinks by cycle t + 3. -/
  | crossTrigger (x : XtSource)
  /-- HEAD_FREEZE (R388). A frozen head stops at the end of its current line, and its frame carries SHORT. -/
  | headFreeze (h : Head)
  /-- TRACE_SYNC (R391). A sync packet is stored when the low 24 bits of the SCLK count wrap. -/
  | traceSync
  /-- TRDATA_READ (R391). A read of TRDATA removes the oldest trace word. -/
  | trdataRead
  /-- STIMULUS_WRITE (R392). A write to a stimulus port produces a stimulus packet. -/
  | stimulusWrite (r : Requester) (n : Fin 32) (v : Word)
  /-- VTOUTC_WRITE (R393). A core writes VTOUTC, setting OUTF or counting DROP. -/
  | vtoutcWrite (v : Word)
  /-- VTINC_READ (R393). A core reads VTINC, clearing INF. -/
  | vtincRead
  /-- VTIN_WRITE (R393). The debugger writes VTIN, setting INF or counting DROP. -/
  | vtinWrite (v : Word)
  /-- VTOUT_READ (R393). The debugger reads VTOUT, clearing OUTF. -/
  | vtoutRead
  /-- DOT_CLOCK_LOCK_LOSS (R220). A running head's dot PLL loses its lock, PLLLOCK falls, and a Lark line lock on that head drops LINELOCK, raises the Lark event and holds its last steered frequency. -/
  | dotClockLockLoss (h : Head)
  /-- CAERUNO_INTEGRITY_FAILURE (R250). A Caeruno integrity check fails on both cores, and the device enters SAFE with reason CAEFAIL. -/
  | caerunoIntegrityFailure
  /-- PCIE_PERST_N_RISE (R356). PCIE_PERST_N rises, releasing the PCI Express function from reset so that it answers configuration requests within 100 ms. -/
  | pciePerstNRise
  /-- BLOCK_LOCK (R333). A Golmon receive lane gains block lock after 64 consecutive valid sync headers. -/
  | blockLock (g : Link) (l : Fin 4)
  /-- PRBS_BIT_ERROR (R354). In TEST, a receive lane's PRBS checker, once synchronised within 64 bits, detects a bit error and counts it in PRBSCNT. -/
  | prbsBitError (g : Link) (l : Fin 4)
deriving DecidableEq, Repr

end Sys2Proof
end

