-- ==== Sys2Proof/Decode.lean ====
section
/-! DEFINITION. The command that a word spells by the bits of spec/opcode_table.json. The table gives no row of this
device any bits (every row is an operation or an event, not an encoding), so no word spells a command. -/

namespace Sys2Proof

/-- The command that an `nbits`-bit word w spells: none, since no row of the table has bits. -/
def decodeTableWord (_nbits _w : Nat) : Option Instr := none

end Sys2Proof
end

