-- ==== Sys2Proof/Config.lean ====
section
/-! DEFINITION. The values the spec leaves open, as constants without a body, and what an implementation fixes.
A free value is applied to a plain counter in State, which the step that uses it advances. -/

namespace Sys2Proof.Config

/-- A fresh value that nothing constrains; the argument is `State.freeCtr` (log entry 2). -/
opaque freeNat : Nat → Nat

/-- A fresh word that nothing constrains (log entry 2). -/
opaque freeWord : Nat → Word

/-- The eight SEC-DED check bits of eight aligned data bytes of an inline-ECC region. R135 names the code's class and
not its matrix (log entry 3). -/
opaque eccCheck : BitVec 64 → Byte

/-- What a register takes whose sink reads across a clock crossing, by SCLK cycle, paddock and sink: R162 lets it be wrong or
late (log entry 110). -/
opaque wireWord : Nat → Nat → Nat → Word

/-- State of a transmit lane's scrambler, and the number of blocks that the link has dealt, when a run of packets or ALIGN blocks is
handed to the lanes, by run and lane: R330 states no state to begin with, nor how many IDLE and TS blocks go before (log entry 137). -/
opaque scrambler : Nat → Nat → BitVec 58
opaque firstBlock : Nat → Nat

/-- The bit of a dot, RGB888 with DE, HSYNC and VSYNC above, that OpenLDI puts into a slot of a data pair: 18-bit mapping or not, pair,
slot. R123 names the mapping and does not give it (log entry 120). -/
opaque openLdi : Bool → Nat → Nat → Nat

/-- Size of the flash in KiB, its largest clock in MHz and its sector in bytes, as its SFDP parameters give them
(log entry 4). -/
opaque flashKiB : Nat
opaque flashMHz : Nat
opaque flashSector : Nat

end Sys2Proof.Config
end

