-- ==== Sys2Proof/Machine/State.lean ====
section
/-! DEFINITION. The state of the device: plain data, every piece of state the spec gives the block.
Registers and on-chip memories that a warden address names live in `ws`, one sparse map keyed by that address
(Machine/Regs.lean gives every register's fields, access types and reset values); host-window registers live in `hw`,
Stile registers in `stile`. What has no address of its own has a field of its own here. -/

namespace Sys2Proof.Machine

/-- No command of this device stops the machine: every row has an effect (NOTES.md, Stops). The interface asks for a
type; nothing raises its one value, so it is neither safe nor unsafe. -/
inductive Fault where
  | unraised
deriving DecidableEq, Repr

/-- Why a command has no meaning here. -/
inductive Refusal where
  /-- Raised by an arm of exec whose command has no meaning yet (safe: nothing is claimed of it). -/
  | notModelled (mnemonic : String)
deriving DecidableEq, Repr

/-- A sparse map of words: keys strictly rising, no entry equal to what an unlisted key reads as. -/
abbrev WMem := List (Nat × Word)

/-- A sparse map of bytes (DRAM, Lark memory, flash), in the same form. -/
abbrev BMem := List Host.Cell

/-- The device states of R250. -/
inductive DevState where
  | boot | ready | live | maint | safe
deriving DecidableEq, Repr

/-- The power states of 15_host_events_power.md. -/
inductive PowState where
  | run | dim | rest | keep
deriving DecidableEq, Repr

/-- How far start-up has come (R373). -/
inductive StartStep where
  | reset | fused | booted | trained | checked | up
deriving DecidableEq, Repr

/-- The fuse bank (R195 to R198, R288). It survives every reset. -/
structure Fuses where
  /-- Heads H4 to H7 and paddocks P8 to P15 are disabled: the part is a KZ2404. -/
  is2404 : Bool
  flock : Bool
  fklock : Bool
  rbd : Bool
  dbglvl : BitVec 2
  slotrev : BitVec 4
  arbcnt : BitVec 8
  famid : Word
  famk : List Byte
  drk : List Byte
  /-- SHA-384 digests of the four signing keys; `none` is an unprogrammed slot. -/
  slots : Vector (Option (BitVec 384)) 4
  /-- The field-repair bank, up to 256 words (R288). -/
  repair : List Word
  /-- GEN of GCFG. -/
  gen : Bool
deriving DecidableEq, Repr

/-- An entry of a beam action queue: handle index and generation (R44), the four words, and who posted it. -/
structure QEntry where
  idx : Nat
  gen : Nat
  w0 : Word
  w1 : Word
  w2 : Word
  w3 : Word
  req : Requester
deriving DecidableEq, Repr

/-- The post port of a core or of the debug master (w:0xC40400). -/
structure PostPort where
  head : Nat
  w0 : Word
  w1 : Word
  w2 : Word
  w3 : Word
  status : Word
deriving DecidableEq, Repr

/-- A resolved pixel: 8-bit components (R55). -/
structure Px where
  r : Nat
  g : Nat
  b : Nat
  a : Nat
deriving DecidableEq, Repr

/-- What is latched when a line becomes due (R53, R94): slot registers, descriptors, palette map, backdrop, COMPCTL,
the modes of R60 and whether the line belongs to a Dim frame (R366). -/
structure Latched where
  line : Nat
  slots : List Word
  desc : List (List Word)
  pmap : List Word
  backdrop : Word
  comp : Word
  nslot : Nat
  tileHost : Bool
  lpHost : Bool
  dim : Bool
deriving DecidableEq, Repr

/-- How far a slot's engine has come with a line. -/
inductive SlotPhase where
  | latched | begun | waiting | drawing | finished | late
deriving DecidableEq, Repr

/-- A pixel of a slot's line (R55, R56): its column, the units it still waits for, its format, PAL, SUB, I2BANK, TRANS0, KEYEN
and KEY, its stored value, its object's FADE, and its colour once it has been resolved (R69). -/
structure RawPx where
  col : Nat
  units : List Nat
  fmt : Nat
  pal : Nat
  sub : Nat
  bank : Nat
  trans0 : Bool
  keyen : Bool
  key : Nat
  val : Nat
  fade : Nat
  out : Option Px
deriving DecidableEq, Repr

/-- What enters an engine's cache once the units it still waits for have come: key and bytes (R72, R90). -/
structure Fill where
  key : Nat × Nat × Nat × Nat × Nat
  data : List Byte
  units : List Nat
deriving DecidableEq, Repr

/-- What the map-row buffer holds once the units it still waits for have come: (MAPBASE, MAPWL, row) and its entries (R72). -/
structure MapFill where
  key : Nat × Nat × Nat
  row : List (Nat × Word)
  units : List Nat
deriving DecidableEq, Repr

/-- An engine's work on a line: the engine, the units outstanding, whether one came poisoned, its pixels in drawing order, what
is to enter its cache and map-row buffer, and the SCLK cycles that its slivers take to draw (R91). -/
structure EngWork where
  eng : Nat
  units : List Nat
  poisoned : Bool
  raw : List RawPx
  fills : List Fill
  map : Option MapFill
  draw : Nat
deriving DecidableEq, Repr

/-- A slot's work on a line: its phase, whether its engine starts the line empty (R52, R73), the stand-in that latched the line
with it (R285), the engine's work, the quads that were left to the line when its data was complete, and the pixels. -/
structure SlotLine where
  phase : SlotPhase
  fresh : Bool
  standIn : Option Nat
  work : EngWork
  begun : Nat
  px : List Px
deriving DecidableEq, Repr

/-- A mirrored line (R285, R286): its slot, the serving engine's pixels once the line has been composed with them, and the
stand-in's work, its pixels and the quads that were left when its data was complete. -/
structure MirrorLine where
  line : Nat
  slot : Slot
  pmap : List Word
  own : Option (List Px)
  work : EngWork
  begun : Nat
  px : Option (List Px)
deriving DecidableEq, Repr

/-- An object plane as evaluation found it (R79). -/
structure Plane where
  slot : Nat
  ctl : Word
  pos : Word
  size : Word
  base : Word
  first : Nat
  count : Nat
  pmax : Nat
  pmin : Nat
  win : Word
deriving DecidableEq, Repr

/-- A kept sliver: its plane, its entry's words 0 to 6 and the source row (R80). -/
structure Sliver where
  plane : Plane
  words : List Word
  row : Nat
deriving DecidableEq, Repr

/-- The slivers of a line, in drawing order (R83, R84, R89). -/
structure EvalLine where
  line : Nat
  slivers : List Sliver
deriving DecidableEq, Repr

/-- A line between its latch and its composition. `occl` holds, per slot, the occluded column ranges once delivered;
`missed` says that the line's deadline found a slot unfinished, and the miss is counted. -/
structure LineWork where
  lat : Latched
  occl : Option (List (List (Nat × Nat)))
  slots : Vector SlotLine 8
  missed : Bool
deriving DecidableEq, Repr

/-- A signature record that has closed and is not yet written (R111). -/
structure SigRec where
  frame : Word
  flags : BitVec 16
  misses : Nat
  regmask : BitVec 16
  taplines : Nat
  fcrc : BitVec 32
  rcrc : List (BitVec 32)
  keyed : Bool
  /-- The cycle by which it is to be in the ring (R113), and whether its frame has ended. -/
  due : Nat
  ended : Bool
deriving DecidableEq, Repr

/-- The signature unit's running state for the frame in progress (R109, R110, R293). -/
structure SigAcc where
  isOpen : Bool
  frame : Word
  flags : BitVec 16
  misses : Nat
  taplines : Nat
  regmask : BitVec 16
  regions : List Word
  keyed : Bool
  fcrc : BitVec 32
  rcrc : List (BitVec 32)
  lineOut : BitVec 32
  lineSig : BitVec 32
deriving DecidableEq, Repr

/-- A tap setting: TEN, TPAD, TLAT (R104). -/
structure TapSet where
  en : Bool
  pad : Nat
  lat : Nat
deriving DecidableEq, Repr

/-- A head's run phase: stopped, waiting for its PLL, running, running its last line, frozen by the Stile. -/
inductive HeadPhase where
  | stopped | starting | running | stopping | frozen
deriving DecidableEq, Repr

/-- How the frame whose FRAME strobe is still to come begins: in the flow of the raster, at a start, a SNAP restart or a
release from a freeze (R30, R32, R37, R388). -/
inductive Begun where
  | flow | start | snap | release
deriving DecidableEq, Repr

/-- Counts over the lines of a frame that its VBLANK strobe publishes (SLFETCH in bytes, PEAKCAND, PEAKSL, LONGEV). -/
structure LineCounts where
  fetch : Vector Nat 8
  peakCand : Nat
  peakSl : Nat
  longEv : Nat
deriving DecidableEq, Repr

/-- Events of rendering and evaluation that a frame has raised: descriptor, tile body, drop, cut (R54, R62, R85, R86). -/
structure Raised where
  desc : Bool
  dec : Bool
  drop : Bool
  cut : Bool
deriving DecidableEq, Repr

/-- Counts of a head's frame in progress and of early lines of the next, and once-a-frame flags (R54, R62, R85, R86,
R103, R106). -/
structure FrameAcc where
  now : LineCounts
  ahead : LineCounts
  raised : Raised
  /-- By lines of the next frame that are worked on before its boundary. -/
  raisedAhead : Raised
  missRaised : Bool
  tapRaised : Bool
deriving DecidableEq, Repr

/-- A head: raster phase, executor, rendering, composition, tap, signature and lock state. Its registers are in `ws`. -/
structure HeadSt where
  phase : HeadPhase
  /-- The frame in progress began with no previous frame (R39); how the frame to come begins. -/
  first : Bool
  begun : Begun
  /-- Strobes already given at the present position: LINE, FRAME, HBLANK, VBLANK, HSYNC, VSYNC from bit 0. -/
  strobed : BitVec 6
  /-- The lead window in force (R40). -/
  lead : Nat
  /-- Backdrop in force at the start: lines 0 to L of a first frame leave as it (R39). -/
  startBack : Word
  /-- R294: configured by HEADRUN. -/
  configured : Bool
  queue : List QEntry
  /-- Uses of each entry index (R44), sparse, default 0. -/
  gens : List (Nat × Nat)
  dueBeam : List Nat
  dueRender : List Nat
  dueLate : List Nat
  lines : List LineWork
  evals : List EvalLine
  /-- Mirrored lines that are not compared yet. -/
  mirrors : List MirrorLine
  /-- Lines composed and not yet sent: the composed-line buffers. -/
  composed : List (Nat × List Word)
  /-- The last line that left the compositor in this frame, for PREV (R101, R102). -/
  lastLine : Option (List Word)
  sig : SigAcc
  closed : List SigRec
  fr : FrameAcc
  /-- Missed lines of the next frame whose deadline fell before its record opened (R100, R103). -/
  missAhead : Nat
  tap : TapSet
  /-- Settings waiting for the next frame boundary and for the one after it (R104). -/
  tapNext : Option TapSet
  tapThen : Option TapSet
  /-- Quads sent through the tap and not yet returned, oldest first: paddock and tag. -/
  tapSent : List (Nat × Word)
  /-- Quads returned in time; one that came too late is listed without dots. -/
  tapBack : List (Word × List Word)
  /-- Quads that left as composed and have not been returned yet (R106): a return of one is only late (log entry 118). -/
  tapOld : List (Nat × Word)
  tapLine : Bool
  /-- The LVDS output in use has lost a pin since its last enable (R306; log entry 121). -/
  lvdsLost : Bool
  /-- CINV written, to act at the next latch, per slot (R73). -/
  cinv : BitVec 8
  /-- Engine serving each slot as of its last latch (R52). -/
  engAt : Vector Nat 8
  lockGood : Nat
  /-- Quads since the reference of a genlocked head; `none`: no reference (R36). -/
  sinceRef : Option Nat
  /-- The SNAP restart of this acquisition is still due (R37). -/
  snapDue : Bool
  /-- Epoch taken from the master or the fold (R38, R346). -/
  epochSet : Bool
  /-- Steering of the dot clock in ppm (R34). -/
  steer : Int
  dimFrame : Bool
  dimLatch : Bool
  /-- The video stream runs (R116: it starts only at line 0, quad 0.0). -/
  streaming : Bool
  /-- The four dots of the last quad sent. -/
  dots : List Word
  /-- Unplanned causes of the frame in progress (bits as ledger words 6 to 11), and whether it has planned ones (R295). -/
  ledCause : BitVec 6
  ledPlanned : Bool
  /-- A line check has failed in the frame (R293). -/
  lineBad : Bool
  /-- The stop or restart under way followed a host command (R295). -/
  byHost : Bool
  /-- BLANK as of the line that leaves. -/
  blank : Bool
  /-- Fold epoch of the last fold frame boundary (R346). -/
  refEpoch : Option (BitVec 48)
  /-- Registers 0x00 to 0x08 and the epoch of a raster that ends its last line while RUN is already 0 (R28, R31). -/
  held : Vector Word 9
  heldEpoch : BitVec 48
deriving DecidableEq, Repr

/-- A layer engine: the stripes and object units its cache holds, most recently used first, its map-row buffer, halted. -/
structure EngSt where
  /-- Key (BASE, FMT, TSIZE, tile, stripe) of R72, or (address, 8, 0, 0, 0) for an object unit of R90; the bytes; the lines used. -/
  cache : List ((Nat × Nat × Nat × Nat × Nat) × List Byte)
  /-- Map row held: (MAPBASE, MAPWL, row) and the entries fetched, (column, entry). -/
  mapKey : Option (Nat × Nat × Nat)
  mapRow : List (Nat × Word)
  halted : Bool
deriving DecidableEq, Repr

/-- A DRAM read on its way: its requester, unit, class, deadline bucket, data as of its acceptance (R134), and whether it
fetches a check unit, holds a tag and has been issued. -/
structure DRead where
  user : DramUser
  unit : Nat
  /-- The line that a slot's read is for, or the serial number of a memory port's request. -/
  line : Nat
  cls : Nat
  deadline : Nat
  data : List Byte
  chk : Bool
  tag : Bool
  issued : Bool
  /-- The number of the tag it holds, the lowest free one when it took it (R131). -/
  no : Nat
  /-- The stand-in of a mirrored slot asked for it (R285). -/
  standIn : Bool
  /-- It is the read of a write of fewer than 8 aligned bytes (R135). -/
  merge : Bool
  /-- The cycle of its acceptance, by `DramCyc.no` (R134). -/
  cyc : Nat
deriving DecidableEq, Repr

/-- A write in a channel's queue; `merge` while the read that it must merge with has not come (R135); the cycle of its acceptance. -/
structure DWrite where
  user : DramUser
  cls : Nat
  addr : Nat
  data : List Byte
  merge : Bool
  cyc : Nat
deriving DecidableEq, Repr

/-- The SCLK cycle in which accesses to DRAM are being accepted: what tells it from others, who has made one, its serial number
(R134; log entry 101). -/
structure DramCyc where
  stamp : Nat × List Word
  makers : List DramUser
  no : Nat
deriving DecidableEq, Repr

/-- A read of the host or the debug master under way: its bytes, the units awaited, those that have come and whether poisoned. -/
structure DirectRead where
  user : DramUser
  off : Nat
  len : Nat
  wait : List Nat
  got : List (Nat × List Byte × Bool)
deriving DecidableEq, Repr

/-- A DRAM channel's scheduler state (R131 to R135). -/
structure ChanSt where
  reads : List DRead
  writes : List DWrite
  /-- Writers that wait because the queue is full (R133). -/
  waiting : List DWrite
  window : Nat
  got : Vector Nat 3
  /-- The 64 most recently used check units (R135). -/
  checks : List Nat
  /-- MR4 report of subchannels A and B, which sets their refresh rate (R127). -/
  refA : Nat
  refB : Nat
deriving DecidableEq, Repr

/-- A macrocell's registers (R148). -/
structure CellSt where
  q : Word
  qh : Word
  z : Bool
  n : Bool
  c : Bool
  v : Bool
deriving DecidableEq, Repr

/-- A memory-port request: direction, packing, first unit, units, refused by the window, words or units so far (R172 to R175). -/
structure MReq where
  serial : Nat
  wr : Bool
  pad : Bool
  unit : Nat
  n : Nat
  refused : Bool
  /-- Units read back: bytes and poison. -/
  back : List (Nat × List Byte × Bool)
  /-- Words presented (read) or taken (write). -/
  done : Nat
  /-- Words of the write unit being gathered. -/
  part : List Word
  /-- WDONE has been given for it (R174). -/
  told : Bool
deriving DecidableEq, Repr

/-- A paddock's access of the wardens' bus in progress (R176). -/
structure WbSt where
  req : Requester
  acc : PadAccess
deriving DecidableEq, Repr

/-- A paddock of the Sward. -/
structure PadSt where
  /-- Configuration frames, word 96·f + w (R184). -/
  cfg : WMem
  /-- Cells' registers. -/
  cells : Vector CellSt 384
  /-- What the cells present in the present fabric cycle (R145). -/
  pres : Vector CellSt 384
  /-- Cells that have acted in the present fabric cycle. -/
  acted : List Nat
  /-- Block memory contents: word 1024·m + a of 24-bit content words (R192). -/
  bm : WMem
  /-- Block memory writes of the present cycle: port, first bit, width, value (R165). -/
  nextBm : List (Nat × Nat × Nat × Nat)
  /-- Sources other than cells that present a register, by identifier (R155), and what they present from the next cycle. -/
  src : WMem
  nextSrc : List (Nat × Word)
  /-- A post under way at the beam port: cycles left to its result (R170). -/
  post : Option (Nat × Word)
  /-- Gate-out lane registers in the Common (R146). -/
  gout : WMem
  /-- Gate-in lanes: value of the last cycle before the hedge took over (R189). -/
  hold : WMem
  /-- Hedges of lanes sourced from this paddock present their safe values: as of the last fabric edge (R159, R207, R209). -/
  hedged : Bool
  /-- Status bits that its ports present, as of the last edge: BUSY and WFULL of each MST, bits 22, 21 and 2:0 of TSTS (R145). -/
  mst : Vector Word 2
  tsts : Word
  /-- The bits that its wire clocks select, by bit select: their values in the cycle before (R161). -/
  wprev : List (Nat × Bool)
  /-- PROBE0 to PROBE15 as of the last edge (R180). -/
  probeSel : Vector Word 16
  /-- A swap has begun, and the edge that ends its last cycle is still to come (R207). -/
  closing : Bool
  /-- SRST has been written: the cells take INIT at the next fabric edge (R183). -/
  srst : Bool
  ports : Vector (List MReq) 2
  /-- Memory-port requests made so far. -/
  serial : Nat
  wb : Option WbSt
  /-- Level and enable of its pins at its last clocked edge, bank by bank (R315). -/
  pout : Vector Word 12
  poe : Vector Word 12
  frozen : Bool
  /-- The next fabric edge is its last (R388). -/
  freezing : Bool
  /-- The swap in progress was planned (R295). -/
  planned : Bool
  /-- A timed reload posted for the Gleaner: head, entry index and generation (R216). -/
  repair : Option (Nat × Nat × Nat)
deriving DecidableEq, Repr

/-- What the ICP does (R204). -/
inductive IcpOp where
  | load | rewrite | read
deriving DecidableEq, Repr

/-- An ICP job. `begun`: the loader has cleared the paddock and reads the run; `words` are the plaintext words still to come,
`segs` the words left of each segment and whether its tag checks; `frames` the frames written; `ended`: END has been read;
`runs`: the paddock has started; `code`: its failure so far. -/
structure IcpJob where
  op : IcpOp
  pad : Nat
  img : Nat
  frame : Nat
  begun : Bool
  /-- It waited for another load, so its time is not that of R208 alone. -/
  waited : Bool
  words : List Word
  segs : List (Nat × Bool)
  total : Nat
  frames : List Nat
  ended : Bool
  runs : Bool
  code : Nat
  /-- The mailbox held in SERVICE until the job ends. -/
  mbox : Option Nat
  /-- Units of the staged image asked of the DRAM scheduler and still to come, and those that have: bytes and poison (R204). -/
  wait : List Nat
  got : List (Nat × List Byte × Bool)
deriving DecidableEq, Repr

/-- A slot of the key store (R202): key of the run's first segment, STREAMID, the stream's signing slot and ARB. -/
structure KeyEnt where
  key : List Byte
  streamId : List Byte
  sigslot : Nat
  arb : Nat
  segs : Nat
deriving DecidableEq, Repr

/-- A voice of Lark (R222 to R230). -/
structure VoiceSt where
  phase : Nat
  level : Nat
  /-- Position with 20 fraction bits. -/
  pos : Nat
  /-- Words 0 to 3 latched at key-on. -/
  w0 : Word
  w1 : Word
  w2 : Word
  w3 : Word
  /-- ADPCM predictor and step index, the number of samples decoded, the last two values, and the state saved at LSTART. -/
  pred : Int
  step : Nat
  decoded : Nat
  last : Int
  prev : Int
  savePred : Int
  saveStep : Nat
  saved : Bool
  low : Int
  band : Int
  /-- DRAM units asked for and not yet there; units there, with their bytes and poison (R228). -/
  asked : List Nat
  buf : List (Nat × List Byte × Bool)
  /-- The position has gone back to the loop, and the ADPCM decoder has yet to decode the rest of the pass (R228). -/
  looped : Bool
deriving DecidableEq, Repr

/-- A gathered key command (R224): voice and OP. -/
structure KeyCmd where
  voice : Nat
  op : Nat
deriving DecidableEq, Repr

/-- A return block being read: its bus and number, the units still to come, those there, and whether one came poisoned
(R235). -/
structure RetBlock where
  bus : Nat
  block : Nat
  wait : List Nat
  units : List (Nat × List Byte)
  bad : Bool
deriving DecidableEq, Repr

/-- Lark. -/
structure LarkSt where
  /-- Sample periods since EN became 1; LCOUNT and LBLOCK show it modulo 2^24. -/
  count : Nat
  voices : Vector VoiceSt 256
  keys : List KeyCmd
  /-- Send samples of the block in progress, per bus (R234). -/
  send : Vector (List Int) 4
  /-- Send blocks completed and to be copied: bus, block number, samples. -/
  done : List (Nat × Nat × List Int)
  /-- Return samples (L, R) of the block being played, per bus. -/
  ret : Vector (List (Int × Int)) 4
  /-- Return blocks being read for a later block. -/
  fetched : List RetBlock
  /-- The last block whose start has had its ring traffic done (R234, R235). -/
  blockAt : Nat
  /-- Channel samples formed in the last period and, before it, on the outputs (R232). -/
  formed : List Int
  out : List Int
  lockGood : Nat
  /-- The line lock's head runs locked and its target lies in range, as last seen (R220). -/
  seek : Bool
  frozen : Bool
deriving DecidableEq, Repr

/-- An open key sequence of a core (R244). -/
inductive KeySeq where
  | none | kick | unlock | unlocked
deriving DecidableEq, Repr

/-- A warden core beyond its register block. -/
structure CoreSt where
  seq : KeySeq
  /-- Own cycles since the sequence's first write. -/
  seqAge : Nat
  /-- Core runs the image that relay brings (R271). -/
  newImage : Bool
  /-- Cycles left in the watchdog's window, 2^24 at most; WDCNT shows them (R243). -/
  left : Nat
deriving DecidableEq, Repr

/-- An applet context (R246 to R249). -/
structure CtxSt where
  /-- 0 EMPTY, 1 LOADED, 2 RUNNING, 3 STOPPED, 4 FAULTED. -/
  st : Nat
  core : Core
  pages : List Nat
  budget : Nat
  entry : Nat
  restart : Nat
  /-- Where it runs next: at its start entry or its restart entry. -/
  atRestart : Bool
  preempted : Bool
  suspended : Bool
  overs : Nat
  faultAddr : Word
  faults : Nat
  /-- Applet interrupts delivered: lines of the warden interrupt controller (R364). -/
  irqs : List Nat
  /-- Response to its last service trap (R248). -/
  reply : List Word
deriving DecidableEq, Repr

/-- A grant (R264). -/
structure Grant where
  kind : Nat
  index : Nat
  /-- GRANTEE [6:0]. -/
  grantee : Nat
deriving DecidableEq, Repr

/-- A forwarded request held in a mailbox of its destination (R347): source unit and mailbox, original SEQ and UNIT. -/
structure Inbound where
  unit : Nat
  mbox : Nat
  seq : Word
  dest : Word
  link : Nat
deriving DecidableEq, Repr

/-- Why a mailbox stays in SERVICE. -/
inductive MbHold where
  | none
  | load
  | relay
  | forward (g : Link)
  /-- A WREAD or WWRITE waits for a paddock's window: the words done, and whether its access has been presented (R176, R263). -/
  | window (p : Pad) (done : List Word) (shown : Bool)
deriving DecidableEq, Repr

/-- A mailbox beyond MBCTL, MBSEQ and its buffer. -/
structure MboxSt where
  isSet : Bool
  lastReq : List Word
  lastRsp : List Word
  hold : MbHold
  inbound : Option Inbound
  /-- The host's function was reset while it was posted or in service (R356). -/
  orphan : Bool
  /-- The journal's entry of the command in service: whether its effect is committed (R241). -/
  journal : Option Bool
deriving DecidableEq, Repr

/-- One function of the Function Split Table (R15 to R18): host-assisted heads (bit 0 alone for a device-bound function),
heads of its pending change, heads whose next boundary is too near for it, the mode asked for, the reference head of a
device-bound change, and whether its boundary has passed. -/
structure SplitFn where
  mode : BitVec 8
  pend : BitVec 8
  skip : BitVec 8
  want : Bool
  ref : Option Nat
  passed : Bool
deriving DecidableEq, Repr

/-- A millisecond of the ledger whose overlapping frames have not all ended (R294): device in MAINT, LIVE or SAFE during it,
heads still open, causes met (bits as ledger words 6 to 11), and whether a frame was unavailable by planned causes only. -/
structure MsRec where
  maint : Bool
  live : Bool
  safe : Bool
  wait : BitVec 8
  /-- Frames that have ended with their record neither written nor late: head and FRAME (R295). -/
  recs : List (Nat × Word)
  cause : BitVec 6
  planned : Bool
deriving DecidableEq, Repr

/-- Caeruno: firmware state, contexts, grants, split table, repair records, ledger. -/
structure CaeSt where
  ctxs : Vector CtxSt 64
  grants : List Grant
  split : Vector SplitFn 8
  version : Word
  /-- Staged Caeruno image: DRAM address, bytes, version, ABI (R270). -/
  staged : Option (Nat × Nat × Word × Word)
  /-- Step of the relay in progress, 0 none (R271). -/
  relay : Nat
  relayRetried : Bool
  /-- Repair records in force (R288, R290). -/
  records : List Word
  recGen : Nat
  /-- The availability ledger's 64 words (R297), sparse. -/
  ledger : WMem
  /-- Milliseconds tallied but not yet decided, oldest first; the last is the one in progress. -/
  msOpen : List MsRec
  /-- Instants of core resets, in ms of uptime (R245). -/
  resets : List Nat
  uptime : Nat
  /-- Count and unavailable time run since a reset in LIVE (R296). -/
  wasLive : Bool
  /-- ABI word of the running image (R270). -/
  abi : Word
deriving DecidableEq, Repr

/-- A remap (R282): region, group of 4,096 words, spare, word. -/
structure Remap where
  region : Nat
  group : Nat
  spare : Nat
  word : Nat
deriving DecidableEq, Repr

/-- Bits of a stored word that are wrong (R281): region, address, data bits, check bits. -/
structure BadWord where
  region : Nat
  addr : Nat
  dmask : Word
  cmask : BitVec 6
deriving DecidableEq, Repr

/-- Self-repair beyond its registers (R274 to R291). -/
structure RepairSt where
  remaps : List Remap
  bad : List BadWord
  /-- One above the engine that a rotation tested last, 0 before the first (R285). -/
  lastTested : Nat
  rotHead : Nat
  rotSlot : Nat
  rotRetry : Bool
  /-- The engine under self-test. -/
  testing : Option Nat
  /-- Mirrored lines' pixels of live engine and stand-in are compared here. -/
  mirror : Bool
  /-- Region addresses that Caeruno is to remap: region, address (R282). -/
  due : List (Nat × Nat)
deriving DecidableEq, Repr

/-- A pin bank beyond its registers (R298 to R316). -/
structure BankSt where
  /-- Level at the pads from outside, after the synchronisers. -/
  sync : Word
  /-- Debounced inputs. -/
  deb : Word
  /-- Pad level, and whether the pad drives it. -/
  lvl : Word
  oe : Word
  /-- Enable that the pad's function gives, whether or not the level, open-drain or contention lets it drive (R306, R313). -/
  en : Word
  /-- Pulls applied, two bits a pin (R316). -/
  pull : BitVec 48
  /-- Signal level and PINCFG words in force since the last bank-clock edge (R298 to R300, R306). -/
  level : Nat
  cfg : Vector Word 24
  /-- Pins whose hold latch keeps level and enable until the next bank-clock edge, and the levels it holds (R306). -/
  heldNow : Word
  latch : Word
  /-- Pads held by their latches after Keep (R316): level, driving, enable, pulls. -/
  keepLvl : Word
  keepOe : Word
  keepEn : Word
  keepPull : BitVec 48
  /-- Drivers switched off by contention (R313). -/
  off : Word
  /-- Bank acts as level off because PGOOD fell (R300). -/
  dropped : Bool
  /-- Pins under the open probe, and what they hold in IN and as peripheral inputs (R314). -/
  probing : Word
  frozenIn : Word
  frozenSync : Word
deriving DecidableEq, Repr

/-- A timer beyond its registers (R320, R325, R328). -/
structure TimerSt where
  /-- Interval of the group, 0 to 255, and the dither generator. -/
  interval : Nat
  lfsr : BitVec 8
  /-- Source edges that the intervals since the prescaler's restart have taken (R320). -/
  seen : Nat
  cap2 : Word
  frac : Nat
  frozen : Bool
deriving DecidableEq, Repr

/-- A receive lane of a Golmon link (R333). -/
structure LaneSt where
  lock : Bool
  num : Option Nat
  bad : Bool
  synced : Bool
deriving DecidableEq, Repr

/-- A packet kept until it is acknowledged, with its resends (R337). -/
structure Unacked where
  pkt : Packet
  resent : Nat
deriving DecidableEq, Repr

/-- A Golmon link beyond its registers. -/
structure LinkSt where
  lanes : Vector LaneSt 4
  peerGood : BitVec 4
  peerRate : Nat
  peerLvl : Nat
  peerReady : Bool
  peerUnit : Word
  ready : Bool
  txSeq : Nat
  rxSeq : Nat
  /-- A packet has been received good since the link went DOWN last. -/
  gotAny : Bool
  /-- A packet has been discarded since the last good one (NAK sent once, R337). -/
  nakked : Bool
  nakDue : Bool
  ackDue : Bool
  retry : List Unacked
  /-- Packets waiting for the transmitter, oldest first. -/
  outq : List Packet
  /-- Packets handed to the lanes, oldest first (what the neighbour sees). -/
  sent : List Packet
  /-- The slot of ALIGN blocks: how many have been sent. -/
  aligns : Nat
  /-- Logical transmit lanes in use, lowest first (R333); the coded blocks of packets and ALIGN slots as they were dealt to them, oldest
  first (R330); four more for each run of them. -/
  txLanes : List Nat
  wire : List (Nat × BitVec 66)
  runs : Nat
deriving DecidableEq, Repr

/-- The fold time, epoch and TSYNC state (R343 to R346). -/
structure FoldSt where
  /-- Fold time in units of 62.5 ps, modulo 2^48, and the remainder of SCLK cycles mod 3; a member's rate adjustment in 2^-32 units a
  cycle, and the fraction of a unit that it has gathered (R343; log entry 62). -/
  time : Nat
  third : Nat
  rate : Int
  part : Int
  good : Nat
  epoch : BitVec 48
  at48 : BitVec 48
  has : Bool
  /-- Frame periods of EPHEAD since the last EPOCH accepted. -/
  lastT : Option (BitVec 48)
  t1 : Option (BitVec 48)
deriving DecidableEq, Repr

/-- A copy channel beyond its registers (R349 to R353). -/
structure CopySt where
  stream : Bool
  /-- Units of the copy or row asked for and sent, units that have come with their bytes and poison, the units of each packet
  not acknowledged, rows armed and unsent, STOP written. -/
  asked : Nat
  next : Nat
  got : List (Nat × List Byte × Bool)
  flight : List Nat
  rows : List Nat
  stop : Bool
deriving DecidableEq, Repr

/-- The PCI Express function (R355, R356, R363). -/
structure PcieSt where
  inReset : Bool
  msixOn : Bool
  funcMask : Bool
  /-- MSI-X table dwords, by index 4·vector + k, sparse with default 0 but 1 (masked) for vector control. -/
  table : List (Nat × BitVec 32)
  pending : BitVec 64
  /-- Vectors of the messages sent, oldest first. -/
  sent : List Nat
  /-- The last completion returned to the host: bytes and poison. -/
  rdata : List Byte
  rpoison : Bool
deriving DecidableEq, Repr

/-- Power, reset and temperature (R365 to R373, R406). -/
structure PowSt where
  st : PowState
  want : PowState
  /-- A request has been accepted and not yet carried out. -/
  busy : Bool
  clken : BitVec 16
  larkEn : Bool
  hot : Bool
  fresh : Bool
  thermKeep : Bool
  resetOutLow : Bool
  prsntLow : Bool
  straps : BitVec 4
  /-- Always-on seconds count, and the record of the last reset (R296). -/
  seconds : Nat
  wasLive : Bool
  resetSec : Nat
  /-- A RESET command has answered (R261). -/
  resetDue : Bool
  /-- SYSRST_N is held low: from a SYSRST_N reset to the fuse load. -/
  sysrstLow : Bool
  /-- The Keep in force is emulated (R390). -/
  emulated : Bool
deriving DecidableEq, Repr

/-- Scan instructions of the Stile (R374). -/
inductive ScanIr where
  | bypass | idcode | sample | extest | clamp | dpacc
deriving DecidableEq, Repr

/-- The Stile beyond its registers (R374 to R393). -/
structure StileSt where
  ir : ScanIr
  boundary : List Bool
  /-- Last acknowledgement and data of DPACC or the two-wire mode. -/
  ack : BitVec 3
  data : Word
  ctxmask : BitVec 64
  nonce : Bool
  /-- Authentication buffer words, sparse. -/
  abuf : WMem
  /-- A failure less than 1 s ago (R380 code 0x8): ms left. -/
  holdoff : Nat
  /-- CHAL or VERIFY was written within that second. -/
  early : Bool
  trace : List Word
  lost : Nat
  /-- Probe words as last captured by TRPRB0 to TRPRB3. -/
  probe : Vector Word 4
  trStopped : Bool
  /-- Ranges armed by LINK 0b10, bit 8·core + range. -/
  armed : BitVec 16
  haltHead : BitVec 8
  /-- A debug access that waits while a paddock holds another (R176). -/
  bmWait : Option (Pad × PadAccess)
  vtin : Word
  vtout : Word
deriving DecidableEq, Repr

/-- Who holds a read shadow (R29). -/
inductive ShadowOwner where
  | caeruno (k : Core)
  | ctx (c : Ctx)
  | command
  | debug
  | pad (p : Pad)
deriving DecidableEq, Repr

/-- A write that has landed in the present SCLK cycle (R50): its rank (0 a direct write, h + 1 the queue of head h), who made it,
its target, and the value it left. -/
structure CycWrite where
  rank : Nat
  who : Nat
  key : Nat
  value : Word
deriving DecidableEq, Repr

/-- The Gleaner's round in progress: the next frame to scrub, counted 12,800 × (0 for essential frames, 1 for the others) +
800 × paddock + frame; paddocks left out because their swap started; frames that a write-back could not finish, for the next
round; whether another round is due (R213, R215). -/
structure GlSt where
  run : Bool
  next : Nat
  skip : List Nat
  again : List (Nat × Nat)
  due : Bool
  /-- Flips that hit between the scrub of their frame and its write-back (R215). -/
  late : List Upset
deriving DecidableEq, Repr

/-- The state of the block. -/
structure State where
  /-- Commands waiting, first in, first out. -/
  pending : List Instr
  /-- The model's own: how many free values have been drawn (log entry 2). -/
  freeCtr : Nat
  /-- SCLK cycles (600 MHz) since reset (R12). -/
  sclk : Nat
  fuses : Fuses
  start : StartStep
  dev : DevState
  reason : BitVec 8
  ws : WMem
  hw : WMem
  stileRegs : WMem
  dram : BMem
  larkMem : BMem
  flash : BMem
  ports : Vector PostPort 3
  shadows : List ((ShadowOwner × Nat) × Word)
  heads : Vector HeadSt 8
  engines : Vector EngSt 66
  chans : Vector ChanSt 4
  clsBytes : Vector Nat 4
  pads : Vector PadSt 16
  icp : Option IcpJob
  icpQueue : List IcpJob
  keys : Vector (Option KeyEnt) 64
  /-- GCFG and GMODE in three copies (R218), round number, reference copy of the Gleaner program. -/
  gcfg : Vector Word 3
  gmode : Vector Word 3
  glRound : Nat
  glRef : WMem
  gl : GlSt
  /-- Flips of configuration words, of their check bits and of frame CRCs that have not been corrected (R214). A word's stored check
  bits are those of the word as written with the flips in `check`; a frame's stored CRC is the CRC-32C of the frame as written with
  those in `crc` (R184). -/
  upsets : List Upset
  lark : LarkSt
  cores : Vector CoreSt 2
  mboxes : Vector MboxSt 16
  /-- Mailboxes in the order of posting (R260). -/
  mbOrder : List Nat
  cae : CaeSt
  repair : RepairSt
  banks : Vector BankSt 12
  timers : Vector TimerSt 16
  links : Vector LinkSt 4
  fold : FoldSt
  copies : Vector CopySt 8
  pcie : PcieSt
  pow : PowSt
  stile : StileSt
  /-- What the last read on the interconnect returned to its requester, and whether the access faulted (R240). -/
  rdata : Word
  rfault : Bool
  /-- Writes of beam actions, and direct ones beside them, of one SCLK cycle, oldest first; and that cycle, known by its
  number and every head's position (R50; log entry 101). -/
  cyc : List CycWrite
  cycAt : Nat × List Word
  /-- BEAM, EPL and EPH of each head as of the last fabric edge, at 8 × (0, 1, 2) + head (R14, R167). -/
  beamAt : Vector Word 24
  /-- Probe signals PRB0 to PRB31 of the last three fabric cycles, newest first (R181). -/
  prb : List (BitVec 32)
  /-- DRAM's data rate as trained: 0 to 3 for 3,200, 4,267, 5,500 and 6,400 MT/s (R127). -/
  drate : Nat
  /-- Accesses to DRAM accepted in one SCLK cycle (R134), and reads of the host and the debug master under way (R137). -/
  dcyc : DramCyc
  dreads : List DirectRead
deriving DecidableEq, Repr

/-! ### After reset
The state right after POR_N: every register of a table at its Reset entry (R9; `ws`, `hw`, `stileRegs` list nothing),
queues empty, device in BOOT for POWERON (R250). What no table gives is named in log entries 1, 5, 6 and 7. -/

/-- No line counted. -/
def LineCounts.zero : LineCounts := { fetch := Vector.replicate 8 0, peakCand := 0, peakSl := 0, longEv := 0 }

/-- No event raised. -/
def Raised.none : Raised := { desc := false, dec := false, drop := false, cut := false }

/-- A stopped head. -/
def HeadSt.reset (h : Nat) : HeadSt :=
  { phase := .stopped, first := false, begun := .flow, strobed := 0, lead := 4, startBack := 0, configured := false, queue := [], gens := [],
    dueBeam := [], dueRender := [], dueLate := [], lines := [], evals := [], mirrors := [], composed := [], lastLine := none,
    sig := { isOpen := false, frame := 0, flags := 0, misses := 0, taplines := 0, regmask := 0, regions := [],
             keyed := true, fcrc := 0, rcrc := [], lineOut := 0, lineSig := 0 },
    closed := [],
    fr := { now := LineCounts.zero, ahead := LineCounts.zero, raised := Raised.none, raisedAhead := Raised.none,
            missRaised := false, tapRaised := false },
    missAhead := 0,
    tap := { en := false, pad := 0, lat := 0x10 }, tapNext := none, tapThen := none, tapSent := [], tapBack := [], tapOld := [], tapLine := false, lvdsLost := false,
    cinv := 0, engAt := #v[8 * h, 8 * h + 1, 8 * h + 2, 8 * h + 3, 8 * h + 4, 8 * h + 5, 8 * h + 6, 8 * h + 7],
    lockGood := 0, sinceRef := none, snapDue := false, epochSet := false, steer := 0, dimFrame := false,
    dimLatch := false, streaming := false, dots := [], ledCause := 0, ledPlanned := false, lineBad := false,
    byHost := false, blank := false, refEpoch := none, held := Vector.replicate 9 0, heldEpoch := 0 }

/-- An engine with an empty cache. -/
def EngSt.reset : EngSt := { cache := [], mapKey := none, mapRow := [], halted := false }

/-- An idle channel. -/
def ChanSt.reset : ChanSt :=
  { reads := [], writes := [], waiting := [], window := 0, got := #v[0, 0, 0], checks := [], refA := 0, refB := 0 }

/-- A cell at INIT of an unloaded paddock. -/
def CellSt.reset : CellSt := { q := 0, qh := 0, z := false, n := false, c := false, v := false }

/-- No round in progress. -/
def GlSt.idle : GlSt := { run := false, next := 0, skip := [], again := [], due := false, late := [] }

/-- An unloaded paddock: its gate lanes present their hedge values (R159). -/
def PadSt.reset : PadSt :=
  { cfg := [], cells := Vector.replicate 384 CellSt.reset, pres := Vector.replicate 384 CellSt.reset, acted := [],
    bm := [], nextBm := [], src := [], nextSrc := [], post := none, gout := [], hold := [], hedged := true,
    mst := #v[0, 0], tsts := 0, wprev := [], probeSel := Vector.replicate 16 0, closing := false, srst := false,
    ports := #v[[], []], serial := 0, wb := none, pout := Vector.replicate 12 0, poe := Vector.replicate 12 0, frozen := false,
    freezing := false, planned := false, repair := none }

/-- An idle voice. -/
def VoiceSt.reset : VoiceSt :=
  { phase := 0, level := 0, pos := 0, w0 := 0, w1 := 0, w2 := 0, w3 := 0, pred := 0, step := 0, decoded := 0, last := 0,
    prev := 0, savePred := 0, saveStep := 0, saved := false, low := 0, band := 0, asked := [], buf := [], looped := false }

/-- Lark disabled. -/
def LarkSt.reset : LarkSt :=
  { count := 0, voices := Vector.replicate 256 VoiceSt.reset, keys := [], send := #v[[], [], [], []], done := [],
    ret := #v[[], [], [], []], fetched := [], blockAt := 0, formed := List.replicate 16 0, out := List.replicate 16 0, lockGood := 0,
    seek := false, frozen := false }

/-- A core in reset: DOWN. -/
def CoreSt.reset : CoreSt := { seq := .none, seqAge := 0, newImage := false, left := 2 ^ 24 }

/-- An EMPTY context. -/
def CtxSt.reset : CtxSt :=
  { st := 0, core := 0, pages := [], budget := 0, entry := 0, restart := 0, atRestart := false, preempted := false,
    suspended := false, overs := 0, faultAddr := 0, faults := 0, irqs := [], reply := [] }

/-- A FREE mailbox with SET clear (R259). -/
def MboxSt.reset : MboxSt :=
  { isSet := false, lastReq := [], lastRsp := [], hold := .none, inbound := none, orphan := false, journal := none }

/-- A function in hardware mode (R15). -/
def SplitFn.reset : SplitFn := { mode := 0, pend := 0, skip := 0, want := false, ref := none, passed := false }

/-- Caeruno's tables, empty. -/
def CaeSt.reset : CaeSt :=
  { ctxs := Vector.replicate 64 CtxSt.reset, grants := [], split := Vector.replicate 8 SplitFn.reset, version := 0,
    staged := none, relay := 0, relayRetried := false, records := [], recGen := 0, ledger := [], msOpen := [],
    resets := [], uptime := 0, wasLive := false, abi := 0 }

/-- No remap, no wrong bit. -/
def RepairSt.reset : RepairSt :=
  { remaps := [], bad := [], lastTested := 0, rotHead := 0, rotSlot := 0, rotRetry := false, testing := none,
    mirror := false, due := [] }

/-- A bank with no level. -/
def BankSt.reset : BankSt :=
  { sync := 0, deb := 0, lvl := 0, oe := 0, en := 0, pull := 0, level := 0, cfg := Vector.replicate 24 0, heldNow := 0, latch := 0,
    keepLvl := 0, keepOe := 0, keepEn := 0, keepPull := 0, off := 0, dropped := false, probing := 0, frozenIn := 0, frozenSync := 0 }

/-- A stopped timer. -/
def TimerSt.reset : TimerSt := { interval := 0, lfsr := 1, seen := 0, cap2 := 0, frac := 0, frozen := false }

/-- A link DOWN. -/
def LinkSt.reset : LinkSt :=
  { lanes := Vector.replicate 4 { lock := false, num := none, bad := false, synced := false }, peerGood := 0,
    peerRate := 0, peerLvl := 0, peerReady := false, peerUnit := 0, ready := false, txSeq := 0, rxSeq := 0, gotAny := false,
    nakked := false, nakDue := false, ackDue := false, retry := [], outq := [], sent := [], aligns := 0, txLanes := [], wire := [], runs := 0 }

/-- Fold time 0, no epoch. -/
def FoldSt.reset : FoldSt :=
  { time := 0, third := 0, rate := 0, part := 0, good := 0, epoch := 0, at48 := 0, has := false, lastT := none, t1 := none }

/-- An idle copy channel. -/
def CopySt.reset : CopySt := { stream := false, asked := 0, next := 0, got := [], flight := [], rows := [], stop := false }

/-- The PCI Express function with MSI-X off. -/
def PcieSt.reset : PcieSt :=
  { inReset := false, msixOn := false, funcMask := false, table := [], pending := 0, sent := [], rdata := [],
    rpoison := false }

/-- Run, with RESET_OUT_N low. -/
def PowSt.reset : PowSt :=
  { st := .run, want := .run, busy := false, clken := 0, larkEn := false, hot := false, fresh := true,
    thermKeep := false, resetOutLow := true, prsntLow := false, straps := 0, seconds := 0, wasLive := false,
    resetSec := 0, resetDue := false, sysrstLow := false, emulated := false }

/-- No debug session. -/
def StileSt.reset : StileSt :=
  { ir := .idcode, boundary := [], ack := 0, data := 0, ctxmask := 0, nonce := false, abuf := [], holdoff := 0,
    early := false, trace := [], lost := 0, probe := #v[0, 0, 0, 0], trStopped := false, armed := 0, haltHead := 0, bmWait := none, vtin := 0, vtout := 0 }

/-- The fuse bank of a KZ2408 whose maker has set FLOCK and whose customer has programmed nothing (log entry 6). -/
def Fuses.reset : Fuses :=
  { is2404 := false, flock := true, fklock := false, rbd := false, dbglvl := 0, slotrev := 0, arbcnt := 0, famid := 0,
    famk := List.replicate 32 0, drk := List.replicate 32 0, slots := #v[none, none, none, none], repair := [],
    gen := true }

/-- A post port with nothing posted. -/
def PostPort.reset : PostPort := { head := 0, w0 := 0, w1 := 0, w2 := 0, w3 := 0, status := 0 }

/-- The device right after POR_N, before fuse load (R9, R250, R372, R373). -/
def State.reset : State :=
  { pending := [], freeCtr := 0, sclk := 0, fuses := Fuses.reset, start := .reset, dev := .boot, reason := 0, ws := [],
    hw := [], stileRegs := [], dram := [], larkMem := [], flash := [], ports := Vector.replicate 3 PostPort.reset,
    shadows := [],
    heads := #v[HeadSt.reset 0, HeadSt.reset 1, HeadSt.reset 2, HeadSt.reset 3, HeadSt.reset 4, HeadSt.reset 5,
      HeadSt.reset 6, HeadSt.reset 7],
    engines := Vector.replicate 66 EngSt.reset, chans := Vector.replicate 4 ChanSt.reset, clsBytes := #v[0, 0, 0, 0],
    pads := Vector.replicate 16 PadSt.reset, icp := none, icpQueue := [], keys := Vector.replicate 64 none,
    gcfg := Vector.replicate 3 0x800000, gmode := Vector.replicate 3 0, glRound := 0, glRef := [],
    gl := GlSt.idle, upsets := [], lark := LarkSt.reset,
    cores := Vector.replicate 2 CoreSt.reset, mboxes := Vector.replicate 16 MboxSt.reset, mbOrder := [],
    cae := CaeSt.reset, repair := RepairSt.reset, banks := Vector.replicate 12 BankSt.reset,
    timers := Vector.replicate 16 TimerSt.reset, links := Vector.ofFn fun g => { LinkSt.reset with runs := g.val }, fold := FoldSt.reset,
    copies := Vector.replicate 8 CopySt.reset, pcie := PcieSt.reset, pow := PowSt.reset, stile := StileSt.reset,
    rdata := 0, rfault := false, cyc := [], cycAt := (0, []), beamAt := Vector.replicate 24 0, prb := [0, 0, 0], drate := 0,
    dcyc := { stamp := (0, []), makers := [], no := 0 }, dreads := [] }

end Sys2Proof.Machine
end

