-- ==== Sys2Proof/Machine/Bits.lean ====
section
/-! DEFINITION. Bit fields, byte packing, two's complement, saturating counts and the sparse maps every memory of the
state is held in. -/

namespace Sys2Proof.Machine

/-- Bits [hi:lo] of a number (00_scope.md: a bit range is written [high:low]). -/
def nbits (n hi lo : Nat) : Nat := (n >>> lo) % 2 ^ (hi + 1 - lo)

/-- Bits [hi:lo] of a word, as a number. -/
def fld (w : Word) (hi lo : Nat) : Nat := nbits w.toNat hi lo

/-- Bit n of a word. -/
def bit (w : Word) (n : Nat) : Bool := w.getLsbD n

/-- A word from a number, modulo 2^24. -/
def wd (n : Nat) : Word := BitVec.ofNat 24 n

/-- The word with bits [hi:lo] replaced by the low bits of v. -/
def putFld (w : Word) (hi lo v : Nat) : Word :=
  (w &&& ~~~(wd ((2 ^ (hi + 1 - lo) - 1) <<< lo))) ||| wd ((v % 2 ^ (hi + 1 - lo)) <<< lo)

/-- The word with bit n set to b. -/
def putBit (w : Word) (n : Nat) (b : Bool) : Word := putFld w n n b.toNat

/-- 1 for true. -/
def b2n (b : Bool) : Nat := b.toNat

/-- Two's complement value of the low k bits of n. -/
def sext (k n : Nat) : Int := if n % 2 ^ k < 2 ^ (k - 1) then (n % 2 ^ k : Nat) else ((n % 2 ^ k : Nat) : Int) - ((2 ^ k : Nat) : Int)

/-- An integer modulo 2^k, as a number. -/
def umod (k : Nat) (i : Int) : Nat := (i % ((2 ^ k : Nat) : Int)).toNat

/-- An integer clamped to lo .. hi. -/
def clampI (lo hi i : Int) : Int := if i < lo then lo else if hi < i then hi else i

/-- Bytes of a number, least significant first. -/
def bytesLE : Nat → Nat → List Byte
  | 0, _ => []
  | k + 1, n => BitVec.ofNat 8 n :: bytesLE k (n / 256)

/-- The number that bytes give, least significant first. -/
def ofBytesLE : List Byte → Nat
  | [] => 0
  | b :: t => b.toNat + 256 * ofBytesLE t

/-- Bytes of a number, most significant first. -/
def bytesBE (k n : Nat) : List Byte := (bytesLE k n).reverse

/-- The number that bytes give, most significant first. -/
def ofBytesBE (l : List Byte) : Nat := ofBytesLE l.reverse

/-- Words stored three bytes each, least significant byte first. -/
def wordsOfBytes : List Byte → List Word
  | a :: b :: c :: t => wd (a.toNat + 256 * b.toNat + 65536 * c.toNat) :: wordsOfBytes t
  | [] => []
  | l => [wd (ofBytesLE l)]

/-- The three bytes of each word, least significant first. -/
def bytesOfWords : List Word → List Byte
  | [] => []
  | w :: t => bytesLE 3 w.toNat ++ bytesOfWords t

/-- ASCII bytes of a label. -/
def ascii (s : String) : List Byte := s.toList.map fun c => BitVec.ofNat 8 c.toNat

/-- The i-th element of a list, or a default. -/
def nth {α : Type} (d : α) (l : List α) (i : Nat) : α := l.getD i d

/-- A list with its i-th element replaced; unchanged beyond its end. -/
def setNth {α : Type} (l : List α) (i : Nat) (v : α) : List α := l.set i v

/-! Sparse maps: keys strictly rising, no entry equal to the default of its key. -/

/-- What key k reads as. -/
def spGet {α : Type} (d : Nat → α) : List (Nat × α) → Nat → α
  | [], k => d k
  | (a, v) :: t, k => if a = k then v else spGet d t k

/-- The entries below k. -/
def spLow {α : Type} (m : List (Nat × α)) (k : Nat) : List (Nat × α) := m.filter fun e => decide (e.1 < k)

/-- The entries above k. -/
def spHigh {α : Type} (m : List (Nat × α)) (k : Nat) : List (Nat × α) := m.filter fun e => decide (k < e.1)

/-- Write v at key k: the entry goes when v is the key's default. -/
def spSet {α : Type} [DecidableEq α] (d : Nat → α) (m : List (Nat × α)) (k : Nat) (v : α) : List (Nat × α) :=
  spLow m k ++ (if v = d k then spHigh m k else (k, v) :: spHigh m k)

/-- The canonical form. -/
abbrev spWf {α : Type} (d : Nat → α) (m : List (Nat × α)) : Prop :=
  m.Pairwise (fun a b => a.1 < b.1) ∧ ∀ e ∈ m, e.2 ≠ d e.1

/-- Read n keys from k upward. -/
def spRead {α : Type} (d : Nat → α) (m : List (Nat × α)) (k n : Nat) : List α :=
  (List.range n).map fun i => spGet d m (k + i)

/-- Write a list of values from key k upward. -/
def spWrite {α : Type} [DecidableEq α] (d : Nat → α) (m : List (Nat × α)) : Nat → List α → List (Nat × α)
  | _, [] => m
  | k, v :: t => spWrite d (spSet d m k v) (k + 1) t

/-- Forget every entry with a key in lo .. hi: those keys read as their default again. -/
def spClear {α : Type} (m : List (Nat × α)) (lo hi : Nat) : List (Nat × α) :=
  m.filter fun e => decide (e.1 < lo ∨ hi < e.1)

/-- Every key of a byte memory that nothing has written reads 0 (log entry 5). -/
def zeroB : Nat → Byte := fun _ => 0

/-- Every key of a zero-reset word memory reads 0. -/
def zeroW : Nat → Word := fun _ => 0

/-- A vector with the element at i replaced by f of it. -/
def vmod {α : Type} {n : Nat} (v : Vector α n) (i : Fin n) (f : α → α) : Vector α n := v.set i (f v[i])

end Sys2Proof.Machine
end

