-- ==== Sys2Proof/Machine/Crypto.lean ====
section
/-! DEFINITION. The checks and cryptography that the spec names by their standards: CRC-32C (R109), CRC-8 (R358),
SHA-256, SHA-384, HMAC, the KDF of R194, AES-256-GCM, RFC 3394 key wrap and ECDSA over P-384. -/

namespace Sys2Proof.Machine

/-- Round constants of SHA-256 (FIPS 180-4). -/
def sha256K : List (BitVec 32) :=
  [0x428a2f98, 0x71374491, 0xb5c0fbcf, 0xe9b5dba5, 0x3956c25b, 0x59f111f1, 0x923f82a4, 0xab1c5ed5] ++
  [0xd807aa98, 0x12835b01, 0x243185be, 0x550c7dc3, 0x72be5d74, 0x80deb1fe, 0x9bdc06a7, 0xc19bf174] ++
  [0xe49b69c1, 0xefbe4786, 0xfc19dc6, 0x240ca1cc, 0x2de92c6f, 0x4a7484aa, 0x5cb0a9dc, 0x76f988da] ++
  [0x983e5152, 0xa831c66d, 0xb00327c8, 0xbf597fc7, 0xc6e00bf3, 0xd5a79147, 0x6ca6351, 0x14292967] ++
  [0x27b70a85, 0x2e1b2138, 0x4d2c6dfc, 0x53380d13, 0x650a7354, 0x766a0abb, 0x81c2c92e, 0x92722c85] ++
  [0xa2bfe8a1, 0xa81a664b, 0xc24b8b70, 0xc76c51a3, 0xd192e819, 0xd6990624, 0xf40e3585, 0x106aa070] ++
  [0x19a4c116, 0x1e376c08, 0x2748774c, 0x34b0bcb5, 0x391c0cb3, 0x4ed8aa4a, 0x5b9cca4f, 0x682e6ff3] ++
  [0x748f82ee, 0x78a5636f, 0x84c87814, 0x8cc70208, 0x90befffa, 0xa4506ceb, 0xbef9a3f7, 0xc67178f2]

/-- Initial hash value of SHA-256. -/
def sha256H : List (BitVec 32) :=
  [0x6a09e667, 0xbb67ae85, 0x3c6ef372, 0xa54ff53a, 0x510e527f, 0x9b05688c, 0x1f83d9ab, 0x5be0cd19]

/-- Round constants of SHA-384 and SHA-512. -/
def sha512K : List (BitVec 64) :=
  [0x428a2f98d728ae22, 0x7137449123ef65cd, 0xb5c0fbcfec4d3b2f, 0xe9b5dba58189dbbc] ++
  [0x3956c25bf348b538, 0x59f111f1b605d019, 0x923f82a4af194f9b, 0xab1c5ed5da6d8118] ++
  [0xd807aa98a3030242, 0x12835b0145706fbe, 0x243185be4ee4b28c, 0x550c7dc3d5ffb4e2] ++
  [0x72be5d74f27b896f, 0x80deb1fe3b1696b1, 0x9bdc06a725c71235, 0xc19bf174cf692694] ++
  [0xe49b69c19ef14ad2, 0xefbe4786384f25e3, 0xfc19dc68b8cd5b5, 0x240ca1cc77ac9c65] ++
  [0x2de92c6f592b0275, 0x4a7484aa6ea6e483, 0x5cb0a9dcbd41fbd4, 0x76f988da831153b5] ++
  [0x983e5152ee66dfab, 0xa831c66d2db43210, 0xb00327c898fb213f, 0xbf597fc7beef0ee4] ++
  [0xc6e00bf33da88fc2, 0xd5a79147930aa725, 0x6ca6351e003826f, 0x142929670a0e6e70] ++
  [0x27b70a8546d22ffc, 0x2e1b21385c26c926, 0x4d2c6dfc5ac42aed, 0x53380d139d95b3df] ++
  [0x650a73548baf63de, 0x766a0abb3c77b2a8, 0x81c2c92e47edaee6, 0x92722c851482353b] ++
  [0xa2bfe8a14cf10364, 0xa81a664bbc423001, 0xc24b8b70d0f89791, 0xc76c51a30654be30] ++
  [0xd192e819d6ef5218, 0xd69906245565a910, 0xf40e35855771202a, 0x106aa07032bbd1b8] ++
  [0x19a4c116b8d2d0c8, 0x1e376c085141ab53, 0x2748774cdf8eeb99, 0x34b0bcb5e19b48a8] ++
  [0x391c0cb3c5c95a63, 0x4ed8aa4ae3418acb, 0x5b9cca4f7763e373, 0x682e6ff3d6b2b8a3] ++
  [0x748f82ee5defb2fc, 0x78a5636f43172f60, 0x84c87814a1f0ab72, 0x8cc702081a6439ec] ++
  [0x90befffa23631e28, 0xa4506cebde82bde9, 0xbef9a3f7b2c67915, 0xc67178f2e372532b] ++
  [0xca273eceea26619c, 0xd186b8c721c0c207, 0xeada7dd6cde0eb1e, 0xf57d4f7fee6ed178] ++
  [0x6f067aa72176fba, 0xa637dc5a2c898a6, 0x113f9804bef90dae, 0x1b710b35131c471b] ++
  [0x28db77f523047d84, 0x32caab7b40c72493, 0x3c9ebe0a15c9bebc, 0x431d67c49c100d4c] ++
  [0x4cc5d4becb3e42b6, 0x597f299cfc657e2a, 0x5fcb6fab3ad6faec, 0x6c44198c4a475817]

/-- Initial hash value of SHA-384. -/
def sha384H : List (BitVec 64) :=
  [0xcbbb9d5dc1059ed8, 0x629a292a367cd507, 0x9159015a3070dd17, 0x152fecd8f70e5939] ++
  [0x67332667ffc00b31, 0x8eb44a8768581511, 0xdb0c2e0d64f98fa7, 0x47b5481dbefa4fa4]

/-- The S-box of AES (FIPS 197). -/
def aesSbox : List Byte :=
  [0x63, 0x7c, 0x77, 0x7b, 0xf2, 0x6b, 0x6f, 0xc5, 0x30, 0x1, 0x67, 0x2b, 0xfe, 0xd7, 0xab, 0x76] ++
  [0xca, 0x82, 0xc9, 0x7d, 0xfa, 0x59, 0x47, 0xf0, 0xad, 0xd4, 0xa2, 0xaf, 0x9c, 0xa4, 0x72, 0xc0] ++
  [0xb7, 0xfd, 0x93, 0x26, 0x36, 0x3f, 0xf7, 0xcc, 0x34, 0xa5, 0xe5, 0xf1, 0x71, 0xd8, 0x31, 0x15] ++
  [0x4, 0xc7, 0x23, 0xc3, 0x18, 0x96, 0x5, 0x9a, 0x7, 0x12, 0x80, 0xe2, 0xeb, 0x27, 0xb2, 0x75] ++
  [0x9, 0x83, 0x2c, 0x1a, 0x1b, 0x6e, 0x5a, 0xa0, 0x52, 0x3b, 0xd6, 0xb3, 0x29, 0xe3, 0x2f, 0x84] ++
  [0x53, 0xd1, 0x0, 0xed, 0x20, 0xfc, 0xb1, 0x5b, 0x6a, 0xcb, 0xbe, 0x39, 0x4a, 0x4c, 0x58, 0xcf] ++
  [0xd0, 0xef, 0xaa, 0xfb, 0x43, 0x4d, 0x33, 0x85, 0x45, 0xf9, 0x2, 0x7f, 0x50, 0x3c, 0x9f, 0xa8] ++
  [0x51, 0xa3, 0x40, 0x8f, 0x92, 0x9d, 0x38, 0xf5, 0xbc, 0xb6, 0xda, 0x21, 0x10, 0xff, 0xf3, 0xd2] ++
  [0xcd, 0xc, 0x13, 0xec, 0x5f, 0x97, 0x44, 0x17, 0xc4, 0xa7, 0x7e, 0x3d, 0x64, 0x5d, 0x19, 0x73] ++
  [0x60, 0x81, 0x4f, 0xdc, 0x22, 0x2a, 0x90, 0x88, 0x46, 0xee, 0xb8, 0x14, 0xde, 0x5e, 0xb, 0xdb] ++
  [0xe0, 0x32, 0x3a, 0xa, 0x49, 0x6, 0x24, 0x5c, 0xc2, 0xd3, 0xac, 0x62, 0x91, 0x95, 0xe4, 0x79] ++
  [0xe7, 0xc8, 0x37, 0x6d, 0x8d, 0xd5, 0x4e, 0xa9, 0x6c, 0x56, 0xf4, 0xea, 0x65, 0x7a, 0xae, 0x8] ++
  [0xba, 0x78, 0x25, 0x2e, 0x1c, 0xa6, 0xb4, 0xc6, 0xe8, 0xdd, 0x74, 0x1f, 0x4b, 0xbd, 0x8b, 0x8a] ++
  [0x70, 0x3e, 0xb5, 0x66, 0x48, 0x3, 0xf6, 0xe, 0x61, 0x35, 0x57, 0xb9, 0x86, 0xc1, 0x1d, 0x9e] ++
  [0xe1, 0xf8, 0x98, 0x11, 0x69, 0xd9, 0x8e, 0x94, 0x9b, 0x1e, 0x87, 0xe9, 0xce, 0x55, 0x28, 0xdf] ++
  [0x8c, 0xa1, 0x89, 0xd, 0xbf, 0xe6, 0x42, 0x68, 0x41, 0x99, 0x2d, 0xf, 0xb0, 0x54, 0xbb, 0x16]
/-! ### CRCs (R109, R358) -/

/-- One bit of the reflected CRC-32C register. -/
def crc32cBit (c : BitVec 32) : BitVec 32 := if c.getLsbD 0 then (c >>> 1) ^^^ 0x82F63B78 else c >>> 1

/-- The register after k bits. -/
def crc32cBits : Nat → BitVec 32 → BitVec 32
  | 0, c => c
  | k + 1, c => crc32cBits k (crc32cBit c)

/-- The register after one byte. -/
def crc32cByte (c : BitVec 32) (b : Byte) : BitVec 32 := crc32cBits 8 (c ^^^ b.setWidth 32)

/-- The register before any byte. -/
def crc32cInit : BitVec 32 := 0xFFFFFFFF

/-- The register after a list of bytes. -/
def crc32cFeed (c : BitVec 32) (l : List Byte) : BitVec 32 := l.foldl crc32cByte c

/-- The check that a register stands for. -/
def crc32cEnd (c : BitVec 32) : BitVec 32 := c ^^^ 0xFFFFFFFF

/-- CRC-32C of a list of bytes (R109). -/
def crc32c (l : List Byte) : BitVec 32 := crc32cEnd (crc32cFeed crc32cInit l)

/-- One bit of the CRC-8 of R358, most significant first. -/
def crc8Bit (c : Byte) : Byte := if c.getLsbD 7 then (c <<< 1) ^^^ 0x2F else c <<< 1

/-- The register after k bits. -/
def crc8Bits : Nat → Byte → Byte
  | 0, c => c
  | k + 1, c => crc8Bits k (crc8Bit c)

/-- CRC-8 of R358: polynomial 0x2F, initial value 0xFF, no reflection, final XOR 0xFF. -/
def crc8 (l : List Byte) : Byte := (l.foldl (fun c b => crc8Bits 8 (c ^^^ b)) 0xFF) ^^^ 0xFF

/-- The check code of a word: CRC-8 over bits [23:16], [15:8] and [7:0], in that order. -/
def checkCode (w : Word) : Byte :=
  crc8 [BitVec.ofNat 8 (fld w 23 16), BitVec.ofNat 8 (fld w 15 8), BitVec.ofNat 8 (fld w 7 0)]

/-! ### SHA-256 and SHA-384 (FIPS 180-4) -/

/-- Words of a message block, most significant byte first. -/
def beWords (k : Nat) : Nat → List Byte → List Nat
  | 0, _ => []
  | n + 1, l => ofBytesBE (l.take k) :: beWords k n (l.drop k)

/-- Padding to a multiple of blk bytes with a length field of len bytes. -/
def shaPad (blk len : Nat) (m : List Byte) : List Byte :=
  let n := m.length
  m ++ [0x80] ++ List.replicate ((2 * blk - (n + 1 + len) % blk) % blk) 0 ++ bytesBE len (8 * n)

/-- Message schedule of SHA-256, extended word by word. -/
def sha256Sched : Nat → List (BitVec 32) → List (BitVec 32)
  | 0, w => w
  | k + 1, w =>
    let n := w.length
    let x := nth 0 w (n - 15)
    let y := nth 0 w (n - 2)
    let s0 := x.rotateRight 7 ^^^ x.rotateRight 18 ^^^ (x >>> 3)
    let s1 := y.rotateRight 17 ^^^ y.rotateRight 19 ^^^ (y >>> 10)
    sha256Sched k (w ++ [nth 0 w (n - 16) + s0 + nth 0 w (n - 7) + s1])

/-- One round of SHA-256 on the eight working variables. -/
def sha256Round (s : List (BitVec 32)) (kw : BitVec 32 × BitVec 32) : List (BitVec 32) :=
  match s with
  | [a, b, c, d, e, f, g, h] =>
    let t1 := h + (e.rotateRight 6 ^^^ e.rotateRight 11 ^^^ e.rotateRight 25) + ((e &&& f) ^^^ (~~~e &&& g)) + kw.1 + kw.2
    let t2 := (a.rotateRight 2 ^^^ a.rotateRight 13 ^^^ a.rotateRight 22) + ((a &&& b) ^^^ (a &&& c) ^^^ (b &&& c))
    [t1 + t2, a, b, c, d + t1, e, f, g]
  | l => l

/-- SHA-256 over n blocks. -/
def sha256Blocks : Nat → List (BitVec 32) → List Byte → List (BitVec 32)
  | 0, h, _ => h
  | n + 1, h, m =>
    let w := sha256Sched 48 ((beWords 4 16 (m.take 64)).map (BitVec.ofNat 32))
    let r := (List.zip sha256K w).foldl sha256Round h
    sha256Blocks n (List.zipWith (· + ·) h r) (m.drop 64)

/-- SHA-256 of a message, 32 bytes in digest order. -/
def sha256 (m : List Byte) : List Byte :=
  let p := shaPad 64 8 m
  (sha256Blocks (p.length / 64) sha256H p).flatMap fun w => bytesBE 4 w.toNat

/-- Message schedule of SHA-384. -/
def sha512Sched : Nat → List (BitVec 64) → List (BitVec 64)
  | 0, w => w
  | k + 1, w =>
    let n := w.length
    let x := nth 0 w (n - 15)
    let y := nth 0 w (n - 2)
    let s0 := x.rotateRight 1 ^^^ x.rotateRight 8 ^^^ (x >>> 7)
    let s1 := y.rotateRight 19 ^^^ y.rotateRight 61 ^^^ (y >>> 6)
    sha512Sched k (w ++ [nth 0 w (n - 16) + s0 + nth 0 w (n - 7) + s1])

/-- One round of SHA-384. -/
def sha512Round (s : List (BitVec 64)) (kw : BitVec 64 × BitVec 64) : List (BitVec 64) :=
  match s with
  | [a, b, c, d, e, f, g, h] =>
    let t1 := h + (e.rotateRight 14 ^^^ e.rotateRight 18 ^^^ e.rotateRight 41) + ((e &&& f) ^^^ (~~~e &&& g)) + kw.1 + kw.2
    let t2 := (a.rotateRight 28 ^^^ a.rotateRight 34 ^^^ a.rotateRight 39) + ((a &&& b) ^^^ (a &&& c) ^^^ (b &&& c))
    [t1 + t2, a, b, c, d + t1, e, f, g]
  | l => l

/-- SHA-384 over n blocks. -/
def sha512Blocks : Nat → List (BitVec 64) → List Byte → List (BitVec 64)
  | 0, h, _ => h
  | n + 1, h, m =>
    let w := sha512Sched 64 ((beWords 8 16 (m.take 128)).map (BitVec.ofNat 64))
    let r := (List.zip sha512K w).foldl sha512Round h
    sha512Blocks n (List.zipWith (· + ·) h r) (m.drop 128)

/-- SHA-384 of a message, 48 bytes in digest order. -/
def sha384 (m : List Byte) : List Byte :=
  let p := shaPad 128 16 m
  ((sha512Blocks (p.length / 128) sha384H p).flatMap fun w => bytesBE 8 w.toNat).take 48

/-! ### HMAC-SHA-256 (FIPS 198-1) and the KDF of R194 -/

/-- HMAC-SHA-256 of a message under a key. -/
def hmacSha256 (key m : List Byte) : List Byte :=
  let k0 := if key.length ≤ 64 then key else sha256 key
  let k := k0 ++ List.replicate (64 - k0.length) 0
  sha256 (k.map (· ^^^ 0x5C) ++ sha256 (k.map (· ^^^ 0x36) ++ m))

/-- kdf of R194. -/
def kdf (k : List Byte) (label : String) (ctx : List Byte) : List Byte :=
  hmacSha256 k (bytesBE 4 1 ++ ascii label ++ [0x00] ++ ctx ++ bytesBE 4 256)

/-! ### AES-256 (FIPS 197), key wrap (RFC 3394) and GCM -/

/-- The inverse S-box of AES. -/
def aesSboxInv : List Byte :=
  [0x52, 0x9, 0x6a, 0xd5, 0x30, 0x36, 0xa5, 0x38, 0xbf, 0x40, 0xa3, 0x9e, 0x81, 0xf3, 0xd7, 0xfb] ++
  [0x7c, 0xe3, 0x39, 0x82, 0x9b, 0x2f, 0xff, 0x87, 0x34, 0x8e, 0x43, 0x44, 0xc4, 0xde, 0xe9, 0xcb] ++
  [0x54, 0x7b, 0x94, 0x32, 0xa6, 0xc2, 0x23, 0x3d, 0xee, 0x4c, 0x95, 0xb, 0x42, 0xfa, 0xc3, 0x4e] ++
  [0x8, 0x2e, 0xa1, 0x66, 0x28, 0xd9, 0x24, 0xb2, 0x76, 0x5b, 0xa2, 0x49, 0x6d, 0x8b, 0xd1, 0x25] ++
  [0x72, 0xf8, 0xf6, 0x64, 0x86, 0x68, 0x98, 0x16, 0xd4, 0xa4, 0x5c, 0xcc, 0x5d, 0x65, 0xb6, 0x92] ++
  [0x6c, 0x70, 0x48, 0x50, 0xfd, 0xed, 0xb9, 0xda, 0x5e, 0x15, 0x46, 0x57, 0xa7, 0x8d, 0x9d, 0x84] ++
  [0x90, 0xd8, 0xab, 0x0, 0x8c, 0xbc, 0xd3, 0xa, 0xf7, 0xe4, 0x58, 0x5, 0xb8, 0xb3, 0x45, 0x6] ++
  [0xd0, 0x2c, 0x1e, 0x8f, 0xca, 0x3f, 0xf, 0x2, 0xc1, 0xaf, 0xbd, 0x3, 0x1, 0x13, 0x8a, 0x6b] ++
  [0x3a, 0x91, 0x11, 0x41, 0x4f, 0x67, 0xdc, 0xea, 0x97, 0xf2, 0xcf, 0xce, 0xf0, 0xb4, 0xe6, 0x73] ++
  [0x96, 0xac, 0x74, 0x22, 0xe7, 0xad, 0x35, 0x85, 0xe2, 0xf9, 0x37, 0xe8, 0x1c, 0x75, 0xdf, 0x6e] ++
  [0x47, 0xf1, 0x1a, 0x71, 0x1d, 0x29, 0xc5, 0x89, 0x6f, 0xb7, 0x62, 0xe, 0xaa, 0x18, 0xbe, 0x1b] ++
  [0xfc, 0x56, 0x3e, 0x4b, 0xc6, 0xd2, 0x79, 0x20, 0x9a, 0xdb, 0xc0, 0xfe, 0x78, 0xcd, 0x5a, 0xf4] ++
  [0x1f, 0xdd, 0xa8, 0x33, 0x88, 0x7, 0xc7, 0x31, 0xb1, 0x12, 0x10, 0x59, 0x27, 0x80, 0xec, 0x5f] ++
  [0x60, 0x51, 0x7f, 0xa9, 0x19, 0xb5, 0x4a, 0xd, 0x2d, 0xe5, 0x7a, 0x9f, 0x93, 0xc9, 0x9c, 0xef] ++
  [0xa0, 0xe0, 0x3b, 0x4d, 0xae, 0x2a, 0xf5, 0xb0, 0xc8, 0xeb, 0xbb, 0x3c, 0x83, 0x53, 0x99, 0x61] ++
  [0x17, 0x2b, 0x4, 0x7e, 0xba, 0x77, 0xd6, 0x26, 0xe1, 0x69, 0x14, 0x63, 0x55, 0x21, 0xc, 0x7d]

/-- The S-box as one number, the first byte lowest. -/
def sboxNum : Nat := ofBytesLE aesSbox

/-- The inverse S-box as one number. -/
def sboxInvNum : Nat := ofBytesLE aesSboxInv

/-- The S-box. -/
def sbox (b : Byte) : Byte := BitVec.ofNat 8 (sboxNum >>> (8 * b.toNat))

/-- The inverse S-box. -/
def sboxInv (b : Byte) : Byte := BitVec.ofNat 8 (sboxInvNum >>> (8 * b.toNat))

/-- Multiplication by x in the AES field. -/
def xtime (b : Byte) : Byte := if b.getLsbD 7 then (b <<< 1) ^^^ 0x1B else b <<< 1

/-- Multiplication by x of the four bytes of a column, the first byte most significant. -/
def xtimeW (w : BitVec 32) : BitVec 32 := ((w &&& 0x7F7F7F7F) <<< 1) ^^^ (((w >>> 7) &&& 0x01010101) * 0x1B)

/-- Exclusive-or of two byte lists. -/
def xorB (a b : List Byte) : List Byte := List.zipWith (· ^^^ ·) a b

/-- Key schedule of AES-256: words of four bytes, extended n times; rcon is the round constant in force. -/
def aesExpand : Nat → Byte → List (List Byte) → List (List Byte)
  | 0, _, w => w
  | n + 1, rc, w =>
    let i := w.length
    let t := nth [] w (i - 1)
    let t' := if i % 8 = 0 then xorB (t.rotateLeft.map sbox) [rc, 0, 0, 0] else if i % 8 = 4 then t.map sbox else t
    aesExpand n (if i % 8 = 0 then xtime rc else rc) (w ++ [xorB (nth [] w (i - 8)) t'])

/-- A list cut into pieces of k elements. -/
def chunks {α : Type} (k : Nat) : Nat → List α → List (List α)
  | 0, _ => []
  | n + 1, l => if l.isEmpty then [] else l.take k :: chunks k n (l.drop k)

/-- The 15 round keys of AES-256, 16 bytes each. -/
def aesKeys (key : List Byte) : List (List Byte) :=
  chunks 16 15 (aesExpand 52 1 (chunks 4 8 key)).flatten

/-- ShiftRows on a column-major state, by s places. -/
def shiftRows (s : Nat) (l : List Byte) : List Byte :=
  (List.range 16).map fun i => nth 0 l ((i % 4) + 4 * ((i / 4 + s * (i % 4)) % 4))

/-- A column of MixColumns: {02} of itself, {03} of the next byte, and the two others. -/
def mixCol (w : BitVec 32) : BitVec 32 :=
  let r := w.rotateLeft 8
  xtimeW (w ^^^ r) ^^^ r ^^^ w.rotateLeft 16 ^^^ w.rotateLeft 24

/-- A column of InvMixColumns: MixColumns after {04} of a byte and of the second next is added to it. -/
def unmixCol (w : BitVec 32) : BitVec 32 := mixCol (w ^^^ xtimeW (xtimeW (w ^^^ w.rotateLeft 16)))

/-- A function of columns applied to the four of a state. -/
def onCols (f : BitVec 32 → BitVec 32) (l : List Byte) : List Byte :=
  (chunks 4 4 l).flatMap fun c => bytesBE 4 (f (BitVec.ofNat 32 (ofBytesBE c))).toNat

/-- AES-256 encryption of a block under its round keys. -/
def aesEnc (ks : List (List Byte)) (b : List Byte) : List Byte :=
  let s0 := xorB b (nth [] ks 0)
  let s := (List.range 13).foldl (fun s r => xorB (onCols mixCol (shiftRows 1 (s.map sbox))) (nth [] ks (r + 1))) s0
  xorB (shiftRows 1 (s.map sbox)) (nth [] ks 14)

/-- AES-256 decryption of a block. -/
def aesDec (ks : List (List Byte)) (b : List Byte) : List Byte :=
  let s0 := (shiftRows 3 (xorB b (nth [] ks 14))).map sboxInv
  let s := (List.range 13).foldl (fun s r => (shiftRows 3 (onCols unmixCol (xorB s (nth [] ks (13 - r))))).map sboxInv) s0
  xorB s (nth [] ks 0)

/-- One step of RFC 3394 wrapping: register A and the blocks, step number t on block i. -/
def wrapStep (ks : List (List Byte)) (n : Nat) (st : List Byte × List (List Byte)) (t : Nat) : List Byte × List (List Byte) :=
  let i := t % n
  let b := aesEnc ks (st.1 ++ nth [] st.2 i)
  (xorB (b.take 8) (bytesBE 8 (t + 1)), setNth st.2 i (b.drop 8))

/-- RFC 3394 wrap of a key under a key-encryption key. -/
def keyWrap (kek key : List Byte) : List Byte :=
  let n := key.length / 8
  let r := (List.range (6 * n)).foldl (wrapStep (aesKeys kek) n) (List.replicate 8 0xA6, chunks 8 n key)
  r.1 ++ r.2.flatten

/-- One step of unwrapping. -/
def unwrapStep (ks : List (List Byte)) (n : Nat) (st : List Byte × List (List Byte)) (t : Nat) : List Byte × List (List Byte) :=
  let i := t % n
  let b := aesDec ks (xorB st.1 (bytesBE 8 (t + 1)) ++ nth [] st.2 i)
  (b.take 8, setNth st.2 i (b.drop 8))

/-- RFC 3394 unwrap; `none` on a bad integrity check. -/
def keyUnwrap (kek c : List Byte) : Option (List Byte) :=
  let n := c.length / 8 - 1
  let r := (List.range (6 * n)).reverse.foldl (unwrapStep (aesKeys kek) n) (c.take 8, chunks 8 n (c.drop 8))
  if r.1 = List.replicate 8 0xA6 then some r.2.flatten else none

/-- One bit of the GHASH product: accumulator, running multiple of H. -/
def gmulBit (x : BitVec 128) (st : BitVec 128 × BitVec 128) (i : Nat) : BitVec 128 × BitVec 128 :=
  (if x.getLsbD (127 - i) then st.1 ^^^ st.2 else st.1,
   if st.2.getLsbD 0 then (st.2 >>> 1) ^^^ (0xE1 <<< 120) else st.2 >>> 1)

/-- Product in the field of GHASH. -/
def gmul (x y : BitVec 128) : BitVec 128 := ((List.range 128).foldl (gmulBit x) (0, y)).1

/-- Bytes padded with zeros to whole blocks of 16. -/
def pad16 (l : List Byte) : List Byte := l ++ List.replicate ((16 - l.length % 16) % 16) 0

/-- GHASH of whole blocks. -/
def ghash (h : BitVec 128) (l : List Byte) : BitVec 128 :=
  (chunks 16 (l.length / 16) l).foldl (fun y b => gmul (y ^^^ BitVec.ofNat 128 (ofBytesBE b)) h) 0

/-- AES-256-GCM decryption: the plaintext, and whether the tag is good (R194). -/
def gcmDecrypt (key iv aad c tag : List Byte) : List Byte × Bool :=
  let ks := aesKeys key
  let h : BitVec 128 := BitVec.ofNat 128 (ofBytesBE (aesEnc ks (List.replicate 16 0)))
  let ctr := fun i : Nat => aesEnc ks (iv ++ bytesBE 4 i)
  let n := (c.length + 15) / 16
  let p := (chunks 16 n c).zipIdx.flatMap fun b => xorB b.1 (ctr (b.2 + 2))
  let s := ghash h (pad16 aad ++ pad16 c ++ bytesBE 8 (8 * aad.length) ++ bytesBE 8 (8 * c.length))
  (p, decide (xorB (bytesBE 16 s.toNat) (ctr 1) = tag))

/-! ### P-384 (FIPS 186-5, SP 800-186) -/

/-- The field prime. -/
def p384 : Nat := 2 ^ 384 - 2 ^ 128 - 2 ^ 96 + 2 ^ 32 - 1

/-- The order of the base point. -/
def n384 : Nat :=
  0xFFFFFFFFFFFFFFFFFFFFFFFFFFFFFFFFFFFFFFFFFFFFFFFFC7634D81F4372DDF581A0DB248B0A77AECEC196ACCC52973

/-- The coefficient b. -/
def b384 : Nat :=
  0xB3312FA7E23EE7E4988E056BE3F82D19181D9C6EFE8141120314088F5013875AC656398D8A2ED19D2A85C8EDD3EC2AEF

/-- The base point. -/
def g384 : Nat × Nat :=
  (0xAA87CA22BE8B05378EB1C71EF320AD746E1D3B628BA79B9859F741E082542A385502F25DBF55296C3A545E3872760AB7,
   0x3617DE4A96262C6F5D9E98BF9292DC29F8F41DBD289A147CE9DA3113B5F0B8C00A60B1CE1D7E819D7A431D7C90EA0E5F)

/-- Power modulo m, its exponent of 6 k bits taken six at a time. -/
def powMod (m b : Nat) : Nat → Nat → Nat
  | 0, _ => 1 % m
  | k + 1, e => powMod m b k (e / 64) ^ 64 % m * b ^ (e % 64) % m

/-- Inverse modulo a prime. -/
def invMod (m a : Nat) : Nat := powMod m (a % m) 64 (m - 2)

/-- A point of the curve; `none` is the point at infinity. -/
abbrev Pt := Option (Nat × Nat)

/-- Difference modulo p. -/
def subP (a b : Nat) : Nat := (a % p384 + p384 - b % p384) % p384

/-- Sum of two points. -/
def ptAdd (a b : Pt) : Pt :=
  match a, b with
  | none, q => q
  | q, none => q
  | some (x1, y1), some (x2, y2) =>
    if x1 = x2 ∧ (y1 + y2) % p384 = 0 then none
    else
      let l := if x1 = x2 then (3 * x1 * x1 + p384 - 3) * invMod p384 (2 * y1) % p384
               else subP y2 y1 * invMod p384 (subP x2 x1) % p384
      let x3 := subP (l * l) (x1 + x2)
      some (x3, subP (l * subP x1 x3) y1)

/-- Scalar multiple over k bits. -/
def ptMul : Nat → Nat → Pt → Pt
  | 0, _, _ => none
  | k + 1, e, q => let r := ptMul k (e / 2) (ptAdd q q); if e % 2 = 1 then ptAdd r q else r

/-- Whether (x, y) lies on the curve. -/
def onCurve (q : Nat × Nat) : Bool :=
  decide (q.1 < p384) && decide (q.2 < p384) &&
  decide (q.2 * q.2 % p384 = (q.1 * q.1 * q.1 + (p384 - 3) * q.1 + b384) % p384)

/-- A public key of 96 bytes, x then y. -/
def pubKey (l : List Byte) : Nat × Nat := (ofBytesBE (l.take 48), ofBytesBE ((l.drop 48).take 48))

/-- ECDSA with SHA-384 over a message, signature r then s (R191, R247, R379). -/
def ecdsaVerify (pk msg sig : List Byte) : Bool :=
  let q := pubKey pk
  let r := ofBytesBE (sig.take 48)
  let s := ofBytesBE ((sig.drop 48).take 48)
  if onCurve q && decide (1 ≤ r) && decide (r < n384) && decide (1 ≤ s) && decide (s < n384) then
    let w := invMod n384 s
    let e := ofBytesBE (sha384 msg)
    match ptAdd (ptMul 384 (e * w % n384) (some g384)) (ptMul 384 (r * w % n384) (some q)) with
    | none => false
    | some (x, _) => decide (x % n384 = r)
  else false

end Sys2Proof.Machine
end

