-- ==== Sys2Proof/Machine/Regs.lean ====
section
/-! DEFINITION. The warden address space (R238), every register's fields with access type and reset value, and the
generic read and write that the access types give (00_scope.md "Register tables and access types", R7, R8). -/

namespace Sys2Proof.Machine

/-- Access types of a register field. -/
inductive Acc where
  | rw | ro | wo | w1c | rc | rwl
deriving DecidableEq, Repr

/-- A field of a register: name, bits [hi:lo], access, reset value. Bits that no field names are Reserved (R8). -/
structure Field where
  name : String
  hi : Nat
  lo : Nat
  acc : Acc
  rst : Nat
deriving DecidableEq, Repr

/-- What a warden address names. -/
inductive Loc where
  | tcmOwn (i : Nat)
  | tcm (k : Nat) (i : Nat)
  | sramCae (i : Nat)
  | sramApp (i : Nat)
  | head (h off : Nat)
  | post (off : Nat)
  | desc (h s w : Nat)
  | objStat (h off : Nat)
  | sigRegion (h w : Nat)
  | ring (h i : Nat)
  | bank (b off : Nat)
  | bankConf
  | timer (t off : Nat)
  | tgo
  | dramReg (off : Nat)
  | chan (c off : Nat)
  | pad (p off : Nat)
  | prbsel (n : Nat)
  | gleaner (off : Nat)
  | glProg (i : Nat)
  | secfuse
  | famidr
  | icpctl
  | icpstat
  | icpbuf (i : Nat)
  | image (e w : Nat)
  | bp (k i : Nat)
  | stim (n : Nat)
  | vtoutc
  | vtinc
  | core (k off : Nat)
  | peerrst
  | mbctl (m : Nat)
  | mbseq (m : Nat)
  | mbbuf (m w : Nat)
  | palette (i : Nat)
  | link (g off : Nat)
  | fold (off : Nat)
  | copy (n w : Nat)
  | route (j m : Nat)
  | lark (off : Nat)
  | voice (v w : Nat)
  | region (r off : Nat)
  | rot (off : Nat)
  | objStore (i : Nat)
  | padWin (p off : Nat)
  | unmapped
deriving DecidableEq, Repr

/-! ### Addresses -/

/-- Register `off` of head h (02_beam_time.md, "Head registers"). -/
def aHead (h off : Nat) : Nat := 0xC40000 + 0x40 * h + off
/-- Word w of the descriptor of slot s of head h. -/
def aDesc (h s w : Nat) : Nat := 0xC41000 + 0x100 * h + 0x10 * s + w
/-- Object status register of head h. -/
def aObj (h off : Nat) : Nat := 0xC41800 + 0x10 * h + off
/-- Word w of the region block of head h (R110). -/
def aSigRegion (h w : Nat) : Nat := 0xC41C00 + 0x40 * h + w
/-- Word i of the signature ring of head h (R113). -/
def aRing (h i : Nat) : Nat := 0xC42000 + 0x200 * h + i
/-- Register `off` of bank b. -/
def aBank (b off : Nat) : Nat := 0xC50000 + 0x40 * b + off
/-- The input-conflict word (R307). -/
def aBankConf : Nat := 0xC50300
/-- Register `off` of timer t. -/
def aTimer (t off : Nat) : Nat := 0xC51000 + 0x10 * t + off
/-- The start word of the timers. -/
def aTgo : Nat := 0xC51100
/-- Register `off` of the DRAM scheduler. -/
def aDram (off : Nat) : Nat := 0xC60000 + off
/-- Register `off` of channel c. -/
def aChan (c off : Nat) : Nat := 0xC60100 + 0x40 * c + off
/-- Register `off` of paddock p. -/
def aPad (p off : Nat) : Nat := 0xC70000 + 0x40 * p + off
/-- PRBSEL of probe signal n (R181). -/
def aPrbsel (n : Nat) : Nat := 0xC70400 + n
/-- Gleaner register. -/
def aGl (off : Nat) : Nat := 0xC78000 + off
/-- Word i of the Gleaner program (R218). -/
def aGlProg (i : Nat) : Nat := 0xC79000 + i
def aSecfuse : Nat := 0xC7C000
def aFamidr : Nat := 0xC7C001
def aIcpctl : Nat := 0xC7C002
def aIcpstat : Nat := 0xC7C003
def aIcpbuf (i : Nat) : Nat := 0xC7C040 + i
/-- Word w of image table entry e (R202). -/
def aImage (e w : Nat) : Nat := 0xC7C100 + 4 * e + w
/-- Word i of core k's breakpoint ranges: 3·range + word. -/
def aBp (k i : Nat) : Nat := 0xC7D000 + 0x20 * k + i
/-- Register `off` of core k. -/
def aCore (k off : Nat) : Nat := 0xC7E000 + 0x10 * k + off
def aPeerrst : Nat := 0xC7E020
def aMbctl (m : Nat) : Nat := 0xC7E100 + m
def aMbseq (m : Nat) : Nat := 0xC7E120 + m
/-- Word w of the buffer of mailbox m. -/
def aMbbuf (m w : Nat) : Nat := 0xC7F000 + 0x80 * m + w
/-- Entry i of physical palette p of head h, word k (0 colour, 1 alpha). -/
def aPal (h p i k : Nat) : Nat := 0xC80000 + 0x2000 * h + 0x200 * p + 2 * i + k
/-- Register `off` of link g. -/
def aLink (g off : Nat) : Nat := 0xC90000 + 0x40 * g + off
/-- Fold register. -/
def aFold (off : Nat) : Nat := 0xC90100 + off
/-- Word w of copy channel n. -/
def aCopy (n w : Nat) : Nat := 0xC90200 + 8 * n + w
/-- Route table entry m of the level-(j+1) fold. -/
def aRoute (j m : Nat) : Nat := 0xC90400 + 0x40 * j + m
/-- Lark register. -/
def aLark (off : Nat) : Nat := 0xCA0000 + off
/-- Word w of voice v. -/
def aVoice (v w : Nat) : Nat := 0xCA1000 + 0x10 * v + w
/-- Register `off` of region r. -/
def aRegion (r off : Nat) : Nat := 0xCB0000 + 0x40 * r + off
/-- Rotation register. -/
def aRot (off : Nat) : Nat := 0xCB2000 + off
/-- Word w of object store entry n (R74). -/
def aObjStore (n w : Nat) : Nat := 0xD00000 + 8 * n + w
/-- Word `off` of the window of paddock p (R176). -/
def aPadWin (p off : Nat) : Nat := 0xE00000 + 0x1000 * p + off
/-- Word i of system SRAM. -/
def aSram (i : Nat) : Nat := 0x100000 + i

/-- What address a names (R238 and the owning chapters). -/
def locOf (a : Nat) : Loc :=
  if a < 0x040000 then .tcmOwn a
  else if a < 0x080000 then .unmapped
  else if a < 0x100000 then .tcm ((a - 0x080000) / 0x40000) (a % 0x40000)
  else if a < 0x140000 then .sramCae (a - 0x100000)
  else if a < 0x200000 then .sramApp (a - 0x140000)
  else if a < 0xC40000 then .unmapped
  else if a < 0xC40200 then .head ((a - 0xC40000) / 0x40) (a % 0x40)
  else if a < 0xC40400 then .unmapped
  else if a < 0xC40407 then .post (a - 0xC40400)
  else if a < 0xC41000 then .unmapped
  else if a < 0xC41800 then
    if a % 0x100 < 0x80 then .desc ((a - 0xC41000) / 0x100) (a % 0x100 / 0x10) (a % 0x10) else .unmapped
  else if a < 0xC41880 then .objStat ((a - 0xC41800) / 0x10) (a % 0x10)
  else if a < 0xC41C00 then .unmapped
  else if a < 0xC41E00 then .sigRegion ((a - 0xC41C00) / 0x40) (a % 0x40)
  else if a < 0xC42000 then .unmapped
  else if a < 0xC43000 then .ring ((a - 0xC42000) / 0x200) (a % 0x200)
  else if a < 0xC50000 then .unmapped
  else if a < 0xC50300 then
    if a % 0x40 ≤ 0x0B ∨ (0x10 ≤ a % 0x40 ∧ a % 0x40 < 0x28) then .bank ((a - 0xC50000) / 0x40) (a % 0x40) else .unmapped
  else if a = 0xC50300 then .bankConf
  else if a < 0xC51000 then .unmapped
  else if a < 0xC51100 then .timer ((a - 0xC51000) / 0x10) (a % 0x10)
  else if a = 0xC51100 then .tgo
  else if a < 0xC60000 then .unmapped
  else if a < 0xC60028 then
    if a % 0x100 < 5 ∨ (8 ≤ a % 0x100 ∧ a % 0x100 < 0xC) ∨ 0x10 ≤ a % 0x100 then .dramReg (a - 0xC60000) else .unmapped
  else if a < 0xC60100 then .unmapped
  else if a < 0xC60200 then
    if a % 0x40 < 3 ∨ (0x10 ≤ a % 0x40 ∧ a % 0x40 < 0x20) then .chan ((a - 0xC60100) / 0x40) (a % 0x40) else .unmapped
  else if a < 0xC70000 then .unmapped
  else if a < 0xC70400 then .pad ((a - 0xC70000) / 0x40) (a % 0x40)
  else if a < 0xC70420 then .prbsel (a - 0xC70400)
  else if a < 0xC78000 then .unmapped
  else if a < 0xC78030 then
    if a % 0x40 < 6 ∨ 0x10 ≤ a % 0x40 then .gleaner (a - 0xC78000) else .unmapped
  else if a < 0xC79000 then .unmapped
  else if a < 0xC7A010 then .glProg (a - 0xC79000)
  else if a < 0xC7C000 then .unmapped
  else if a = 0xC7C000 then .secfuse
  else if a = 0xC7C001 then .famidr
  else if a = 0xC7C002 then .icpctl
  else if a = 0xC7C003 then .icpstat
  else if a < 0xC7C040 then .unmapped
  else if a < 0xC7C0A0 then .icpbuf (a - 0xC7C040)
  else if a < 0xC7C100 then .unmapped
  else if a < 0xC7C200 then .image ((a - 0xC7C100) / 4) (a % 4)
  else if a < 0xC7D000 then .unmapped
  else if a < 0xC7D040 then
    if a % 0x20 < 24 then .bp ((a - 0xC7D000) / 0x20) (a % 0x20) else .unmapped
  else if a < 0xC7D100 then .unmapped
  else if a < 0xC7D120 then .stim (a - 0xC7D100)
  else if a = 0xC7D140 then .vtoutc
  else if a = 0xC7D141 then .vtinc
  else if a < 0xC7E000 then .unmapped
  else if a < 0xC7E020 then if a % 0x10 < 6 then .core ((a - 0xC7E000) / 0x10) (a % 0x10) else .unmapped
  else if a = 0xC7E020 then .peerrst
  else if a < 0xC7E100 then .unmapped
  else if a < 0xC7E110 then .mbctl (a - 0xC7E100)
  else if a < 0xC7E120 then .unmapped
  else if a < 0xC7E130 then .mbseq (a - 0xC7E120)
  else if a < 0xC7F000 then .unmapped
  else if a < 0xC7F800 then .mbbuf ((a - 0xC7F000) / 0x80) (a % 0x80)
  else if a < 0xC80000 then .unmapped
  else if a < 0xC90000 then .palette (a - 0xC80000)
  else if a < 0xC90100 then .link ((a - 0xC90000) / 0x40) (a % 0x40)
  else if a < 0xC9010A then .fold (a - 0xC90100)
  else if a < 0xC90200 then .unmapped
  else if a < 0xC90240 then .copy ((a - 0xC90200) / 8) (a % 8)
  else if a < 0xC90400 then .unmapped
  else if a < 0xC90500 then .route ((a - 0xC90400) / 0x40) (a % 0x40)
  else if a < 0xCA0000 then .unmapped
  else if a < 0xCA0046 then if a % 0x100 ≤ 0x0A ∨ 0x10 ≤ a % 0x100 then .lark (a - 0xCA0000) else .unmapped
  else if a < 0xCA1000 then .unmapped
  else if a < 0xCA2000 then .voice ((a - 0xCA1000) / 0x10) (a % 0x10)
  else if a < 0xCB0000 then .unmapped
  else if a < 0xCB16C0 then
    if a % 0x40 < 8 ∨ (0x10 ≤ a % 0x40 ∧ a % 0x40 < 0x30) then .region ((a - 0xCB0000) / 0x40) (a % 0x40) else .unmapped
  else if a < 0xCB2000 then .unmapped
  else if a < 0xCB2018 then
    if a % 0x40 < 0x0A ∧ a % 0x40 ≠ 3 ∧ a % 0x40 ≠ 7 ∨ 0x10 ≤ a % 0x40 then .rot (a - 0xCB2000) else .unmapped
  else if a < 0xD00000 then .unmapped
  else if a < 0xD20000 then .objStore (a - 0xD00000)
  else if a < 0xE00000 then .unmapped
  else if a < 0xE10000 then .padWin ((a - 0xE00000) / 0x1000) (a % 0x1000)
  else .unmapped

/-! ### Fields -/

/-- A whole-word read-write register with reset value r. -/
def wordRW (n : String) (r : Nat) : List Field := [⟨n, 23, 0, .rw, r⟩]
/-- A whole-word read-only register with reset value r. -/
def wordRO (n : String) (r : Nat) : List Field := [⟨n, 23, 0, .ro, r⟩]

/-- Head registers (chapters 02, 03, 05). -/
def headFields (h off : Nat) : List Field :=
  match off with
  | 0x00 => [⟨"RUN", 23, 23, .rw, 0⟩, ⟨"SNAP", 22, 22, .rw, 0⟩, ⟨"SYNCMODE", 21, 20, .rw, 0⟩, ⟨"MASTER", 19, 17, .rw, 0⟩,
      ⟨"GLSRC", 16, 16, .rw, 0⟩, ⟨"GLOUT", 15, 15, .rw, 0⟩, ⟨"LEAD", 14, 12, .rw, 3⟩, ⟨"HSPOL", 11, 11, .rw, 0⟩,
      ⟨"VSPOL", 10, 10, .rw, 0⟩]
  | 0x01 => [⟨"RUNNING", 23, 23, .ro, 0⟩, ⟨"PLLLOCK", 22, 22, .ro, 0⟩, ⟨"SYNCLOCK", 21, 21, .ro, 0⟩,
      ⟨"LEADPEND", 20, 20, .ro, 0⟩, ⟨"CFGERR", 19, 16, .ro, 0⟩]
  | 0x02 => [⟨"HTOTAL", 23, 12, .rw, 0⟩, ⟨"HACT", 11, 0, .rw, 0⟩]
  | 0x03 => [⟨"HSS", 23, 12, .rw, 0⟩, ⟨"HSW", 11, 0, .rw, 0⟩]
  | 0x04 => [⟨"VTOTAL", 23, 12, .rw, 0⟩, ⟨"VACT", 11, 0, .rw, 0⟩]
  | 0x05 => [⟨"VSS", 23, 12, .rw, 0⟩, ⟨"VSW", 11, 0, .rw, 0⟩]
  | 0x06 => [⟨"NINT", 23, 16, .rw, 0⟩, ⟨"PDIV", 15, 8, .rw, 0⟩]
  | 0x07 => wordRW "NFRAC" 0
  | 0x08 => [⟨"PLINE", 23, 12, .rw, 0⟩, ⟨"PQUAD", 11, 0, .rw, 0⟩]
  | 0x09 => wordRO "BEAM" 0
  | 0x0A => wordRW "EPOCH_LO" 0
  | 0x0B => wordRW "EPOCH_HI" 0
  | 0x0C => [⟨"USED", 10, 0, .ro, 0⟩]
  | 0x0D => [⟨"LATE", 23, 16, .rc, 0⟩, ⟨"DENIED", 15, 8, .rc, 0⟩, ⟨"FLUSHED", 7, 0, .rc, 0⟩]
  | 0x0E => wordRO "MWORD2" 0
  | 0x0F => wordRO "MWORD3" 0
  | 0x18 => [⟨"NSLOT", 23, 20, .rw, 8⟩]
  | 0x19 => wordRW "LP0-LP5" 0x543210
  | 0x1A => wordRW "LP6-LP11" 0xBA9876
  | 0x1B => [⟨"LP12-LP15", 15, 0, .rw, 0xFEDC⟩]
  | 0x1C => [⟨"BR", 23, 16, .rw, 0⟩, ⟨"BG", 15, 8, .rw, 0⟩, ⟨"BB", 7, 0, .rw, 0⟩]
  | 0x1D => [⟨"MISSPOL", 23, 22, .rw, 0⟩]
  | 0x1E => [⟨"TEN", 23, 23, .rw, 0⟩, ⟨"TPAD", 22, 19, .rw, 0⟩, ⟨"TLAT", 18, 9, .rw, 0x10⟩]
  | 0x1F => [⟨"LINES", 23, 12, .rc, 0⟩, ⟨"SLOTS", 7, 0, .ro, 0⟩]
  | 0x30 => [⟨"OEN", 23, 23, .rw, 0⟩, ⟨"OUTSEL", 22, 22, .rw, 0⟩, ⟨"BLANK", 21, 21, .rw, 0⟩]
  | 0x31 => [⟨"HPD", 23, 23, .ro, 0⟩, ⟨"LINKUP", 22, 22, .ro, 0⟩, ⟨"SHORT", 21, 21, .w1c, 0⟩, ⟨"LANEFLT", 20, 17, .ro, 0⟩,
      ⟨"OUTERR", 16, 13, .ro, 0⟩, ⟨"UNPLUGS", 7, 0, .rc, 0⟩]
  | 0x32 => [⟨"LANES", 23, 22, .rw, 2⟩, ⟨"RATE", 21, 20, .rw, 0⟩, ⟨"SSC", 19, 19, .rw, 0⟩, ⟨"BPC6", 18, 18, .rw, 0⟩,
      ⟨"PATTERN", 17, 14, .rw, 0⟩, ⟨"TRAINOK", 13, 13, .rw, 0⟩]
  | 0x33 => [⟨"BANK", 23, 20, .rw, 0⟩, ⟨"DUAL", 19, 19, .rw, 0⟩, ⟨"MAP18", 18, 18, .rw, 0⟩]
  | 0x34 => [⟨"REGEN", 15, 0, .rw, 0⟩]
  | 0x35 => [⟨"WIDX", 23, 21, .ro, 7⟩, ⟨"RIDX", 20, 18, .rw, 7⟩, ⟨"OVER", 7, 0, .rc, 0⟩]
  | 0x36 => [⟨"ACTIVE", 23, 23, .ro, 0⟩, ⟨"FORCED", 22, 22, .ro, 0⟩, ⟨"LATELINES", 15, 8, .rc, 0⟩, ⟨"TAGERR", 7, 0, .rc, 0⟩]
  | 0x37 => [⟨"SWING", 15, 8, .rw, 0⟩, ⟨"PREEMPH", 7, 0, .rw, 0⟩]
  | 0x38 => wordRW "DPCUST0" 0
  | 0x39 => wordRW "DPCUST1" 0
  | 0x3A => wordRW "DPCUST2" 0
  | 0x3B => [⟨"DPCUST3", 7, 0, .rw, 0⟩]
  | o =>
    if 0x10 ≤ o ∧ o ≤ 0x17 then
      [⟨"EN", 23, 23, .rw, 0⟩, ⟨"ENG", 22, 16, .rw, 8 * h + (o - 0x10)⟩, ⟨"CINV", 15, 15, .wo, 0⟩, ⟨"BLEND", 14, 4, .rw, 0⟩]
    else if 0x20 ≤ o ∧ o ≤ 0x27 then [⟨"DESCERR", 23, 16, .rc, 0⟩, ⟨"DECERR", 15, 8, .rc, 0⟩]
    else if 0x28 ≤ o ∧ o ≤ 0x2F then wordRO "FETCH" 0
    else []

/-- Object status registers (chapter 04). -/
def objFields : Nat → List Field
  | 0 => [⟨"DROPPED", 23, 0, .rc, 0⟩]
  | 1 => [⟨"CUT", 23, 12, .rc, 0⟩, ⟨"TRUNC", 11, 0, .rc, 0⟩]
  | 2 => [⟨"ENTERR", 23, 12, .rc, 0⟩]
  | 3 => [⟨"PEAKCAND", 23, 12, .ro, 0⟩, ⟨"PEAKSL", 10, 0, .ro, 0⟩]
  | 4 => [⟨"LONGEV", 12, 0, .ro, 0⟩]
  | _ => []

/-- Bank registers (chapter 12). -/
def bankFields (off : Nat) : List Field :=
  match off with
  | 0x00 => [⟨"LEVEL", 23, 20, .rw, 0⟩, ⟨"SUPPLY", 19, 17, .ro, 0⟩, ⟨"PGOOD", 16, 16, .ro, 0⟩, ⟨"TERM", 15, 15, .rw, 0⟩,
      ⟨"CONTOFF", 14, 14, .rw, 1⟩, ⟨"HELD", 13, 13, .ro, 0⟩, ⟨"HOLDREL", 12, 12, .wo, 0⟩, ⟨"DSCALE", 11, 10, .rw, 0⟩,
      ⟨"DEBT", 9, 2, .rw, 1⟩]
  | 0x01 => wordRW "OUT" 0
  | 0x02 => [⟨"SET", 23, 0, .wo, 0⟩]
  | 0x03 => [⟨"CLR", 23, 0, .wo, 0⟩]
  | 0x04 => [⟨"TGL", 23, 0, .wo, 0⟩]
  | 0x05 => wordRO "IN" 0
  | 0x06 => [⟨"FLAG", 23, 0, .w1c, 0⟩]
  | 0x07 => [⟨"CONT", 23, 0, .w1c, 0⟩]
  | 0x08 => [⟨"GO", 23, 23, .wo, 0⟩, ⟨"BUSY", 22, 22, .ro, 0⟩]
  | 0x09 => wordRW "MASK" 0
  | 0x0A => wordRO "OPEN" 0
  | 0x0B => [⟨"CONTCNT", 23, 16, .rc, 0⟩, ⟨"SUPDROP", 15, 8, .rc, 0⟩]
  | o =>
    if 0x10 ≤ o ∧ o < 0x28 then
      [⟨"OKIND", 23, 22, .ro, 0⟩, ⟨"OIDX", 21, 16, .ro, 0⟩, ⟨"FUNC", 15, 12, .rw, 0⟩, ⟨"SEL", 11, 7, .rw, 0⟩,
       ⟨"PULL", 6, 5, .rw, 0⟩, ⟨"OE", 4, 4, .rw, 0⟩, ⟨"IRQ", 3, 1, .rw, 0⟩, ⟨"DEB", 0, 0, .rw, 0⟩]
    else []

/-- Timer registers (chapter 13). CHAIN exists on odd timers only. -/
def timerFields (t off : Nat) : List Field :=
  match off with
  | 0 => [⟨"RUN", 23, 23, .rw, 0⟩, ⟨"SRC", 22, 20, .rw, 0⟩, ⟨"HSEL", 19, 17, .rw, 0⟩,
      ⟨"CHAIN", 16, 16, if t % 2 = 1 then .rw else .ro, 0⟩, ⟨"OMODE", 15, 14, .rw, 0⟩, ⟨"OINIT", 13, 13, .rw, 0⟩,
      ⟨"KEEP", 12, 12, .rw, 0⟩, ⟨"CAP", 11, 9, .rw, 0⟩, ⟨"MIE", 8, 8, .rw, 0⟩, ⟨"WIE", 7, 7, .rw, 0⟩, ⟨"CIE", 6, 6, .rw, 0⟩]
  | 1 => [⟨"PINT", 23, 12, .rw, 0⟩, ⟨"PFRAC", 11, 4, .rw, 0⟩, ⟨"DITH", 3, 3, .rw, 0⟩]
  | 2 => wordRW "COUNT" 0
  | 3 => wordRW "TOP" 0xFFFFFF
  | 4 => wordRW "CMP" 0xFFFFFF
  | 5 => wordRW "PHASE" 0
  | 6 => wordRO "CAP" 0
  | 7 => [⟨"MATCH", 23, 23, .w1c, 0⟩, ⟨"WRAP", 22, 22, .w1c, 0⟩, ⟨"OVR", 21, 21, .w1c, 0⟩, ⟨"CAPV", 20, 20, .ro, 0⟩,
      ⟨"CAP2", 19, 19, .ro, 0⟩, ⟨"OUT", 18, 18, .ro, 0⟩, ⟨"LOWRES", 17, 17, .ro, 0⟩]
  | 8 => [⟨"KINT", 23, 8, .rw, 1⟩, ⟨"KFRAC", 7, 0, .rw, 0⟩]
  | _ => []

/-- DRAM scheduler registers (chapter 06). -/
def dramFields (off : Nat) : List Field :=
  match off with
  | 0x00 => [⟨"NCH", 23, 22, .rw, 0⟩, ⟨"CAP", 21, 19, .rw, 0⟩]
  | 0x01 => [⟨"DONE", 23, 23, .ro, 0⟩, ⟨"TRAINED", 22, 19, .ro, 0⟩, ⟨"INUSE", 18, 15, .ro, 0⟩]
  | 0x02 => [⟨"RES1", 23, 18, .rw, 0x20⟩, ⟨"RES2", 17, 12, .rw, 2⟩, ⟨"RES3", 11, 6, .rw, 8⟩, ⟨"RES4", 5, 0, .rw, 2⟩]
  | 0x03 => [⟨"MIN2", 23, 16, .rw, 4⟩, ⟨"MIN3", 15, 8, .rw, 0⟩, ⟨"MIN4", 7, 0, .rw, 8⟩]
  | 0x04 => [⟨"SLACKMIN", 23, 12, .rw, 0x40⟩]
  | o =>
    if 8 ≤ o ∧ o ≤ 0xB then wordRO "CLSBYTES" 0
    else if 0x10 ≤ o ∧ o < 0x28 then
      match (o - 0x10) % 3 with
      | 0 => [⟨"ERBASE", 23, 9, .rw, 0⟩, ⟨"EN", 0, 0, .rw, 0⟩]
      | 1 => [⟨"ERLIM", 23, 9, .rw, 0⟩]
      | _ => [⟨"CHKBASE", 23, 6, .rw, 0⟩]
    else []

/-- DRAM channel registers. -/
def chanFields (off : Nat) : List Field :=
  match off with
  | 0 => [⟨"ECCCE", 23, 12, .rc, 0⟩, ⟨"LINKCE", 11, 0, .rc, 0⟩]
  | 1 => [⟨"UE", 23, 16, .rc, 0⟩, ⟨"OOR", 15, 8, .rc, 0⟩, ⟨"RETRY", 7, 0, .rc, 0⟩]
  | 2 => [⟨"PEAKTAG", 23, 15, .rc, 0⟩]
  | _ => [⟨"KIND", 23, 22, .ro, 0⟩, ⟨"SUB", 21, 21, .ro, 0⟩, ⟨"BANK", 20, 17, .ro, 0⟩, ⟨"ROW", 16, 0, .ro, 0⟩]

/-- Paddock registers (chapters 07 and 08). -/
def padFields (off : Nat) : List Field :=
  match off with
  | 0x00 => [⟨"CLKEN", 23, 23, .rw, 0⟩, ⟨"SRST", 22, 22, .wo, 0⟩]
  | 0x01 => [⟨"LOADED", 23, 23, .ro, 0⟩, ⟨"SWAP", 22, 22, .ro, 0⟩, ⟨"WIRE", 21, 21, .ro, 0⟩, ⟨"NWCLK", 15, 12, .ro, 0⟩]
  | 0x02 => [⟨"LOST", 23, 16, .rc, 0⟩, ⟨"WIN", 15, 8, .rc, 0⟩, ⟨"RERR", 7, 0, .rc, 0⟩]
  | 0x03 => [⟨"LOST", 23, 16, .rc, 0⟩, ⟨"WIN", 15, 8, .rc, 0⟩, ⟨"RERR", 7, 0, .rc, 0⟩]
  | 0x04 => [⟨"WBTO", 23, 16, .rc, 0⟩, ⟨"WBERR", 15, 8, .rc, 0⟩]
  | 0x06 => [⟨"BASE", 23, 9, .rw, 0⟩, ⟨"EN", 0, 0, .rw, 0⟩]
  | 0x07 => [⟨"LIM", 23, 9, .rw, 0⟩]
  | 0x08 => [⟨"BASE", 23, 9, .rw, 0⟩, ⟨"EN", 0, 0, .rw, 0⟩]
  | 0x09 => [⟨"LIM", 23, 9, .rw, 0⟩]
  | 0x0A => [⟨"CODE", 23, 20, .ro, 0⟩, ⟨"LDIMG", 19, 14, .ro, 0⟩, ⟨"FAILED", 13, 13, .ro, 0⟩, ⟨"SWREJ", 7, 0, .rc, 0⟩]
  | 0x0B => wordRO "CYCLES" 0
  | 0x0C => wordRO "ID" 0
  | 0x0D => [⟨"IMMED", 23, 23, .rw, 1⟩, ⟨"RHEAD", 22, 20, .rw, 0⟩, ⟨"RLINE", 11, 0, .rw, 0⟩]
  | 0x0E => [⟨"CORR", 23, 12, .rc, 0⟩, ⟨"UNC", 11, 0, .rc, 0⟩]
  | 0x20 => wordRO "ROWS0-3" 0
  | 0x21 => wordRO "ROWS4-7" 0
  | 0x22 => wordRO "ROWS8-11" 0
  | o => if 0x10 ≤ o ∧ o < 0x20 then [⟨"EN", 23, 23, .rw, 0⟩, ⟨"SRC", 10, 0, .rw, 0⟩] else []

/-- Gleaner registers (R218). -/
def glFields (off : Nat) : List Field :=
  match off with
  | 0 => [⟨"GEN", 23, 23, .ro, 0⟩]
  | 1 => [⟨"HOST", 23, 23, .rw, 0⟩]
  | 2 => [⟨"RUN", 23, 23, .ro, 0⟩, ⟨"ROUND", 22, 21, .ro, 0⟩, ⟨"PAD", 20, 17, .ro, 0⟩, ⟨"FRAME", 16, 7, .ro, 0⟩]
  | 3 => wordRO "COUNT" 0
  | 4 => [⟨"RST", 23, 23, .wo, 0⟩]
  | 5 => [⟨"LATE", 23, 16, .rc, 0⟩, ⟨"RESETS", 15, 8, .rc, 0⟩, ⟨"DISAGREE", 7, 0, .rc, 0⟩]
  | o =>
    if o % 2 = 0 then [⟨"PAD", 23, 20, .ro, 0⟩, ⟨"FRAME", 19, 10, .ro, 0⟩, ⟨"WORD", 9, 3, .ro, 0⟩, ⟨"ESS", 2, 2, .ro, 0⟩,
      ⟨"KIND", 1, 0, .ro, 0⟩]
    else [⟨"BIT", 23, 19, .ro, 0⟩, ⟨"PASS", 18, 0, .ro, 0⟩]

/-- Core registers (chapter 10). -/
def coreFields (off : Nat) : List Field :=
  match off with
  | 0 => [⟨"ROLE", 23, 22, .ro, 0⟩, ⟨"ALIVE", 21, 21, .ro, 0⟩, ⟨"HALTED", 20, 20, .ro, 0⟩]
  | 1 => [⟨"KEY", 23, 0, .wo, 0⟩]
  | 2 => [⟨"WDEN", 23, 23, .rwl, 1⟩, ⟨"WDEXP", 22, 19, .rwl, 0xE⟩]
  | 3 => wordRO "LEFT" 0xFFFFFF
  | 4 => wordRW "BEAT" 0
  | 5 => [⟨"WDFIRE", 23, 16, .rc, 0⟩, ⟨"BADKICK", 15, 8, .rc, 0⟩, ⟨"AFAULT", 7, 0, .rc, 0⟩]
  | _ => []

/-- Breakpoint words (chapter 16). -/
def bpFields (i : Nat) : List Field :=
  match i % 3 with
  | 0 => wordRW "LO" 0
  | 1 => wordRW "HI" 0
  | _ => [⟨"TYPE", 23, 22, .rw, 0⟩, ⟨"CMPD", 21, 21, .rw, 0⟩, ⟨"LINK", 20, 19, .rw, 0⟩, ⟨"CTXEN", 18, 18, .rw, 0⟩,
      ⟨"CTX", 17, 12, .rw, 0⟩, ⟨"ACTION", 11, 10, .rw, 0⟩, ⟨"HIT", 9, 9, .w1c, 0⟩]

/-- Link registers (chapter 14). -/
def linkFields (off : Nat) : List Field :=
  match off with
  | 0x00 => [⟨"EN", 23, 23, .rw, 0⟩, ⟨"RATE", 22, 21, .rw, 2⟩, ⟨"PRBS", 20, 18, .rw, 0⟩, ⟨"LVL", 17, 16, .rw, 0⟩]
  | 0x01 => [⟨"STATE", 23, 21, .ro, 0⟩, ⟨"TXW", 20, 19, .ro, 0⟩, ⟨"RXW", 18, 17, .ro, 0⟩, ⟨"RATEU", 16, 15, .ro, 0⟩,
      ⟨"INV", 14, 11, .ro, 0⟩, ⟨"REV", 10, 10, .ro, 0⟩, ⟨"SHORTED", 9, 6, .ro, 0⟩, ⟨"FCODE", 5, 2, .ro, 0⟩]
  | 0x02 => wordRO "UNIT" 0
  | 0x03 => [⟨"VALID", 23, 23, .ro, 0⟩, ⟨"LINK", 22, 21, .ro, 0⟩]
  | 0x04 => wordRO "LAT" 0
  | 0x05 => [⟨"CRCERR", 23, 16, .rc, 0⟩, ⟨"RESEND", 15, 8, .rc, 0⟩, ⟨"RETRAIN", 7, 0, .rc, 0⟩]
  | 0x06 => [⟨"DOWNS", 23, 16, .rc, 0⟩]
  | o => if 8 ≤ o ∧ o < 0xC then [⟨"ERR", 23, 0, .rc, 0⟩] else []

/-- Fold registers. -/
def foldFields (off : Nat) : List Field :=
  match off with
  | 0 => wordRW "UNIT" 0
  | 1 => [⟨"SET", 23, 23, .rw, 0⟩, ⟨"EPSRC", 22, 22, .rw, 0⟩, ⟨"EPHEAD", 21, 19, .rw, 0⟩]
  | 2 => [⟨"EPVALID", 23, 23, .ro, 0⟩, ⟨"EPLOCK", 22, 22, .ro, 0⟩, ⟨"PARENT", 21, 20, .ro, 0⟩]
  | 3 => wordRO "FTL" 0
  | 4 => wordRO "FTH" 0
  | 5 => wordRO "OFS" 0
  | 6 => [⟨"NOROUTE", 23, 16, .rc, 0⟩, ⟨"EPLOSS", 15, 8, .rc, 0⟩]
  | 8 => [⟨"BASE", 23, 9, .rw, 0⟩, ⟨"EN", 0, 0, .rw, 0⟩]
  | 9 => [⟨"LIM", 23, 9, .rw, 0⟩]
  | _ => []

/-- Copy channel words. -/
def copyFields (w : Nat) : List Field :=
  match w with
  | 0 => wordRW "SRC" 0
  | 1 => wordRW "DST" 0
  | 2 => wordRW "UNIT" 0
  | 3 => [⟨"GO", 23, 23, .wo, 0⟩, ⟨"STRM", 22, 22, .rw, 0⟩, ⟨"SHEAD", 21, 19, .rw, 0⟩, ⟨"STOP", 18, 18, .wo, 0⟩, ⟨"ADV", 11, 0, .rw, 0⟩]
  | 4 => wordRW "LEN" 0
  | 5 => [⟨"BUSY", 23, 23, .ro, 0⟩, ⟨"CODE", 22, 20, .ro, 0⟩, ⟨"LATE", 19, 8, .rc, 0⟩]
  | 6 => wordRO "DONE" 0
  | _ => []

/-- Lark registers (chapter 09). -/
def larkFields (off : Nat) : List Field :=
  match off with
  | 0x00 => [⟨"EN", 23, 23, .rw, 0⟩, ⟨"RATE", 22, 22, .rw, 0⟩, ⟨"LOCK", 21, 21, .rw, 0⟩, ⟨"LHEAD", 20, 18, .rw, 0⟩]
  | 0x01 => [⟨"PLLLOCK", 23, 23, .ro, 0⟩, ⟨"LINELOCK", 22, 22, .ro, 0⟩]
  | 0x02 => [⟨"NUM", 23, 12, .rw, 0x10⟩, ⟨"DEN", 11, 0, .rw, 0x2D⟩]
  | 0x03 => [⟨"VERR", 23, 16, .rc, 0⟩, ⟨"STARVE", 15, 8, .rc, 0⟩, ⟨"UNDER", 7, 0, .rc, 0⟩]
  | 0x04 => wordRW "BASE" 0
  | 0x05 => [⟨"ADDR", 19, 0, .rw, 0⟩]
  | 0x06 => wordRW "DATA" 0
  | 0x07 => [⟨"OP", 23, 22, .wo, 0⟩, ⟨"VOICE", 7, 0, .wo, 0⟩]
  | 0x08 => wordRO "PERIODS" 0
  | 0x09 => wordRO "BLOCK" 0
  | 0x0A => [⟨"RLAG", 23, 21, .rw, 4⟩]
  | o =>
    if 0x10 ≤ o ∧ o < 0x20 then [⟨"GAIN", 23, 16, .rw, 0x80⟩]
    else if 0x20 ≤ o ∧ o < 0x40 then
      match (o - 0x20) % 8 with
      | 0 => [⟨"RSRC", 23, 23, .rw, 0⟩, ⟨"RCHA", 22, 19, .rw, 0⟩, ⟨"RCHB", 18, 15, .rw, 1⟩, ⟨"RGAIN", 14, 7, .rw, 0⟩]
      | 1 => [⟨"FB", 23, 16, .rw, 0⟩, ⟨"DLEN", 15, 0, .rw, 1⟩]
      | 2 => [⟨"DBASE", 19, 0, .rw, 0⟩]
      | 3 => wordRW "SBASE" 0
      | 4 => wordRW "RBASE" 0
      | _ => []
    else if 0x40 ≤ o ∧ o < 0x44 then [⟨"EN", 23, 23, .rw, 0⟩, ⟨"SLOTS", 22, 21, .rw, 0⟩, ⟨"FIRSTCH", 20, 17, .rw, 0⟩]
    else if 0x44 ≤ o ∧ o < 0x46 then [⟨"EN", 23, 23, .rw, 0⟩, ⟨"FIRSTCH", 22, 19, .rw, 0⟩]
    else []

/-- Voice words (R222). -/
def voiceFields (w : Nat) : List Field :=
  match w with
  | 0 => [⟨"FMT", 23, 22, .rw, 0⟩, ⟨"SRC", 21, 21, .rw, 0⟩, ⟨"LOOP", 20, 19, .rw, 0⟩, ⟨"ENDEV", 18, 18, .rw, 0⟩,
      ⟨"CHA", 17, 14, .rw, 0⟩, ⟨"CHB", 13, 10, .rw, 1⟩]
  | 1 => wordRW "START" 0
  | 2 => wordRW "LEN" 0
  | 3 => wordRW "LSTART" 0
  | 4 => wordRW "PITCH" 0x100000
  | 5 => [⟨"GA", 23, 16, .rw, 0⟩, ⟨"GB", 15, 8, .rw, 0⟩]
  | 6 => [⟨"SEND3", 23, 18, .rw, 0⟩, ⟨"SEND2", 17, 12, .rw, 0⟩, ⟨"SEND1", 11, 6, .rw, 0⟩, ⟨"SEND0", 5, 0, .rw, 0⟩]
  | 7 => [⟨"AR", 23, 18, .rw, 0⟩, ⟨"DR", 17, 12, .rw, 0⟩, ⟨"SL", 11, 6, .rw, 0⟩, ⟨"RR", 5, 0, .rw, 0⟩]
  | 8 => [⟨"FMODE", 23, 22, .rw, 0⟩, ⟨"F", 21, 10, .rw, 0⟩, ⟨"Q", 9, 0, .rw, 0⟩]
  | 9 => [⟨"PHASE", 23, 21, .ro, 0⟩, ⟨"LEVEL", 15, 0, .ro, 0⟩]
  | 10 => wordRO "POS" 0
  | _ => []

/-- Region registers (R278 to R282). -/
def regionFields (off : Nat) : List Field :=
  match off with
  | 0 => [⟨"CE", 23, 12, .rc, 0⟩, ⟨"RB", 11, 0, .rc, 0⟩]
  | 1 => [⟨"UE", 23, 16, .rc, 0⟩, ⟨"LOST", 15, 8, .rc, 0⟩, ⟨"RMFULL", 7, 0, .rc, 0⟩]
  | 2 => [⟨"CLR", 23, 23, .wo, 0⟩, ⟨"NLOG", 4, 0, .ro, 0⟩]
  | 3 => [⟨"ARM", 23, 23, .rw, 0⟩, ⟨"ADDR", 21, 0, .rw, 0⟩]
  | 4 => wordRW "DMASK" 0
  | 5 => [⟨"CMASK", 5, 0, .rw, 0⟩]
  | 6 => [⟨"GO", 23, 23, .wo, 0⟩, ⟨"ADDR", 21, 0, .wo, 0⟩]
  | 7 => [⟨"USED", 23, 12, .ro, 0⟩, ⟨"FULLM", 11, 0, .ro, 0⟩]
  | o => if o % 2 = 0 then [⟨"KIND", 23, 22, .ro, 0⟩, ⟨"ADDR", 21, 0, .ro, 0⟩] else [⟨"BIT", 23, 19, .ro, 0⟩, ⟨"TIME", 18, 0, .ro, 0⟩]

/-- Rotation registers (R285 to R293). -/
def rotFields (off : Nat) : List Field :=
  match off with
  | 0 => [⟨"EN", 23, 23, .rw, 0⟩, ⟨"INT", 22, 13, .rw, 0x64⟩]
  | 1 => [⟨"STEP", 23, 21, .ro, 0⟩, ⟨"LIVE", 20, 14, .ro, 0⟩, ⟨"SPARE", 13, 7, .ro, 0⟩]
  | 2 => [⟨"MISMATCH", 23, 16, .rc, 0⟩, ⟨"ABORT", 15, 8, .rc, 0⟩, ⟨"BISTFAIL", 7, 0, .rc, 0⟩]
  | 4 => wordRO "FAIL0" 0
  | 5 => wordRO "FAIL1" 0
  | 6 => [⟨"FAIL2", 17, 0, .ro, 0⟩]
  | 8 => [⟨"DISAGREE", 23, 12, .ro, 0⟩]
  | 9 => [⟨"UNITS", 23, 12, .rc, 0⟩]
  | _ => [⟨"LINES", 23, 12, .rc, 0⟩]

/-- Descriptor words. A bit that is Reserved whatever KIND says reads as zero (R8); one that only the layout of some KIND reserves is
stored and read back: DESIGN CHOICE (log entry 109). -/
def descFields (w : Nat) : List Field :=
  match w with
  | 0 => [⟨"KIND-WRAP", 23, 5, .rw, 0⟩, ⟨"PAL", 3, 0, .rw, 0⟩]
  | 14 => [⟨"KEYEN", 23, 23, .rw, 0⟩, ⟨"I2BANK-KEY", 21, 0, .rw, 0⟩]
  | 15 => []
  | _ => wordRW "WORD" 0

/-- Words of an object store entry (R74). -/
def objEntryFields (w : Nat) : List Field :=
  match w with
  | 1 => [⟨"OX", 23, 10, .rw, 0⟩]
  | 2 => [⟨"OY", 23, 10, .rw, 0⟩]
  | 3 => [⟨"SW8-IBANK", 23, 8, .rw, 0⟩]
  | 5 => [⟨"KEYEN-TRANS0", 23, 22, .rw, 0⟩, ⟨"KEY", 15, 0, .rw, 0⟩]
  | 6 => [⟨"FADE", 23, 16, .rw, 0⟩]
  | _ => wordRW "WORD" 0

/-- The fields of what an address names. Memories are whole words; a palette's odd word holds alpha alone. -/
def fieldsOf : Loc → List Field
  | .head h off => headFields h off
  | .desc _ _ w => descFields w
  | .objStore i => objEntryFields (i % 8)
  | .objStat _ off => objFields off
  | .sigRegion _ w => if w < 0x20 then [⟨"LAST-FIRST", 23, 0, .rw, 0⟩] else []
  | .bank _ off => bankFields off
  | .bankConf => [⟨"CONFCNT", 23, 16, .rc, 0⟩, ⟨"TCONF", 15, 0, .ro, 0⟩]
  | .timer t off => timerFields t off
  | .tgo => [⟨"OP", 23, 22, .wo, 0⟩, ⟨"MASK", 15, 0, .wo, 0⟩]
  | .dramReg off => dramFields off
  | .chan _ off => chanFields off
  | .pad _ off => padFields off
  | .prbsel _ => [⟨"EN", 23, 23, .rw, 0⟩, ⟨"PAD", 22, 19, .rw, 0⟩, ⟨"MUX", 18, 15, .rw, 0⟩, ⟨"BIT", 4, 0, .rw, 0⟩]
  | .gleaner off => glFields off
  | .secfuse => [⟨"FLOCK", 23, 23, .ro, 0⟩, ⟨"FKLOCK", 22, 22, .ro, 0⟩, ⟨"RBD", 21, 21, .ro, 0⟩, ⟨"DBGLVL", 20, 19, .ro, 0⟩,
      ⟨"SLOTREV", 11, 8, .ro, 0⟩, ⟨"ARBCNT", 7, 0, .ro, 0⟩]
  | .famidr => wordRO "FAMID" 0
  | .icpctl => [⟨"GO", 23, 23, .wo, 0⟩, ⟨"OP", 22, 21, .wo, 0⟩, ⟨"IMG", 20, 15, .wo, 0⟩, ⟨"PAD", 14, 11, .wo, 0⟩, ⟨"FRAME", 9, 0, .wo, 0⟩]
  | .icpstat => [⟨"BUSY", 23, 23, .ro, 0⟩, ⟨"CODE", 19, 16, .ro, 0⟩]
  | .icpbuf _ => wordRO "ICPBUF" 0
  | .image _ w => if w = 0 then [⟨"VALID", 23, 23, .rw, 0⟩, ⟨"PAD", 22, 19, .rw, 0⟩, ⟨"NSEG", 18, 13, .rw, 0⟩, ⟨"SEG0", 12, 7, .rw, 0⟩]
      else wordRW "ADDR" 0
  | .bp _ i => bpFields i
  | .stim _ => [⟨"STIM", 23, 0, .wo, 0⟩]
  | .vtoutc => [⟨"DATA", 23, 0, .wo, 0⟩]
  | .vtinc => wordRO "DATA" 0
  | .core _ off => coreFields off
  | .peerrst => [⟨"W0", 23, 23, .wo, 0⟩, ⟨"W1", 22, 22, .wo, 0⟩]
  | .mbctl _ => [⟨"PHASE", 23, 21, .ro, 0⟩, ⟨"CLAIMANT", 20, 17, .ro, 0⟩, ⟨"CORE", 16, 16, .ro, 0⟩, ⟨"OP", 1, 0, .wo, 0⟩]
  | .mbseq _ => wordRO "EXP" 0
  | .palette i => if i % 2 = 0 then wordRW "RGB" 0 else [⟨"A", 7, 0, .rw, 0⟩]
  | .link _ off => linkFields off
  | .fold off => foldFields off
  | .copy _ w => copyFields w
  | .route _ _ => [⟨"RT", 2, 0, .rw, 7⟩]
  | .lark off => larkFields off
  | .voice _ w => voiceFields w
  | .region _ off => regionFields off
  | .rot off => rotFields off
  | .ring _ _ => wordRO "RECORD" 0
  | .post off =>
    match off with
    | 0 => [⟨"HEAD", 2, 0, .rw, 0⟩]
    | 5 => [⟨"CODE", 23, 21, .ro, 0⟩, ⟨"HANDLE", 20, 0, .ro, 0⟩]
    | 6 => [⟨"HANDLE", 20, 0, .wo, 0⟩]
    | _ => wordRW "WORD" 0
  | .unmapped => []
  | .glProg i =>
    if i < 0x1000 then (if i % 0x40 < 34 then wordRW "FLAGS" 0 else wordRO "Reserved" 0)
    else [⟨"LOADED", 23, 23, .rw, 0⟩, ⟨"ENTRY", 5, 0, .rw, 0⟩]
  | _ => wordRW "WORD" 0

/-! ### Masks and the generic accesses -/

/-- The bits of a field. -/
def Field.mask (f : Field) : Word := wd ((2 ^ (f.hi + 1 - f.lo) - 1) <<< f.lo)

/-- The bits of the fields whose access satisfies p. -/
def maskOf (p : Acc → Bool) (fs : List Field) : Word :=
  fs.foldl (fun m f => if p f.acc then m ||| f.mask else m) 0

/-- The reset value of a register. -/
def resetOf (fs : List Field) : Word := fs.foldl (fun m f => m ||| wd (f.rst <<< f.lo)) 0

/-- What a read returns: write-only and reserved bits read zero (R8). -/
def readView (fs : List Field) (w : Word) : Word := w &&& maskOf (fun a => a != .wo) fs

/-- What a write leaves: RW fields take the value, W1C bits written 1 clear, everything else keeps (R7, R8). -/
def writeView (fs : List Field) (old v : Word) : Word :=
  let m := maskOf (fun a => a == .rw) fs
  let c := maskOf (fun a => a == .w1c) fs
  ((old &&& ~~~m) ||| (v &&& m)) &&& ~~~(v &&& c)

/-- What a consuming read leaves: RC fields clear (R10). -/
def rcView (fs : List Field) (w : Word) : Word := w &&& ~~~(maskOf (fun a => a == .rc) fs)

/-- The reset value of a warden address. -/
def wsReset (a : Nat) : Word := resetOf (fieldsOf (locOf a))

/-- Host-window registers, by BAR0 offset (chapter 15). HWID, HWSTAT, MBHOSTm and SIGPTRh are views of other state. -/
def hwFields (off : Nat) : List Field :=
  match off with
  | 0x000 => wordRO "ID" 0
  | 0x004 => [⟨"CHKW", 23, 23, .rw, 0⟩]
  | 0x008 => [⟨"READY", 23, 23, .ro, 0⟩, ⟨"STATE", 22, 20, .ro, 0⟩, ⟨"REASON", 19, 12, .ro, 0⟩]
  | 0x00C => [⟨"BADWR", 23, 16, .rc, 0⟩, ⟨"APFAULT", 15, 8, .rc, 0⟩]
  | 0x010 => [⟨"TARGET", 23, 22, .rw, 0⟩]
  | 0x014 => [⟨"PSTATE", 23, 22, .ro, 0⟩, ⟨"BUSY", 21, 21, .ro, 0⟩, ⟨"REFUSE", 20, 18, .ro, 0⟩]
  | 0x018 => [⟨"PIN", 23, 20, .rw, 0⟩, ⟨"TIMER", 19, 4, .rw, 0⟩, ⟨"PERST", 3, 3, .rw, 0⟩]
  | 0x01C => [⟨"PIN", 23, 20, .w1c, 0⟩, ⟨"TIMER", 19, 4, .w1c, 0⟩, ⟨"PERST", 3, 3, .w1c, 0⟩, ⟨"HOST", 2, 2, .w1c, 0⟩]
  | 0x020 => [⟨"TEMP", 23, 16, .ro, 0⟩, ⟨"ALERT", 15, 8, .rw, 0xA9⟩, ⟨"HOT", 7, 7, .w1c, 0⟩]
  | 0x024 => [⟨"CAUSE", 23, 21, .ro, 0⟩, ⟨"WASLIVE", 20, 20, .ro, 0⟩]
  | 0x0A0 => [⟨"FLAG", 23, 0, .w1c, 0⟩]
  | 0x0A4 => [⟨"FLAG", 23, 0, .w1c, 0⟩]
  | 0x0A8 => [⟨"FLAG", 15, 0, .w1c, 0⟩]
  | 0x0AC => wordRW "MASK" 0xFFFFFF
  | 0x0B0 => wordRW "MASK" 0xFFFFFF
  | 0x0B4 => [⟨"MASK", 15, 0, .rw, 0xFFFF⟩]
  | 0x0B8 => [⟨"HC", 23, 0, .w1c, 0⟩]
  | 0x0BC => [⟨"HC", 7, 0, .w1c, 0⟩]
  | 0x0C0 => [⟨"PAD", 15, 0, .w1c, 0⟩]
  | 0x0C4 => [⟨"TIM", 15, 0, .w1c, 0⟩]
  | 0x0C8 => [⟨"BANK", 11, 0, .w1c, 0⟩]
  | 0x0CC => [⟨"CONF", 12, 12, .w1c, 0⟩, ⟨"BANK", 11, 0, .w1c, 0⟩]
  | 0x0D0 => [⟨"COPY", 11, 4, .w1c, 0⟩, ⟨"LINK", 3, 0, .w1c, 0⟩]
  | 0x134 => [⟨"E63", 7, 0, .rc, 0⟩]
  | o =>
    if 0x028 ≤ o ∧ o ≤ 0x034 then [⟨"BANK", 23, 20, .rw, 0⟩, ⟨"PIN", 19, 15, .rw, 0⟩, ⟨"EDGE", 14, 13, .rw, 0⟩]
    else if 0x0E0 ≤ o ∧ o < 0x134 then
      [⟨"E3n+2", 23, 16, .rc, 0⟩, ⟨"E3n+1", 15, 8, .rc, 0⟩, ⟨"E3n", 7, 0, .rc, 0⟩]
    else []

/-- The reset value of a host-window register. -/
def hwReset (off : Nat) : Word := resetOf (hwFields off)

/-- Stile registers, by number (chapter 16). -/
def stileFields (n : Nat) : List Field :=
  match n with
  | 0x00 => wordRO "ID" 0
  | 0x01 => [⟨"LEVEL", 23, 21, .ro, 0⟩, ⟨"BUSY", 20, 20, .ro, 0⟩, ⟨"RESULT", 19, 16, .ro, 0⟩, ⟨"FAILS", 15, 8, .rc, 0⟩,
      ⟨"LOGOUT", 2, 2, .wo, 0⟩, ⟨"VERIFY", 1, 1, .wo, 0⟩, ⟨"CHAL", 0, 0, .wo, 0⟩]
  | 0x02 => [⟨"ADDR", 7, 0, .rw, 0⟩]
  | 0x03 => wordRW "DATA" 0
  | 0x04 => wordRW "ADDR" 0
  | 0x05 => [⟨"ADDRH", 10, 0, .rw, 0⟩]
  | 0x06 => wordRW "DATA" 0
  | 0x07 => [⟨"SPACE", 23, 23, .rw, 0⟩, ⟨"CONSUME", 22, 22, .rw, 0⟩, ⟨"INC", 21, 21, .rw, 1⟩, ⟨"FAULT", 20, 20, .w1c, 0⟩,
      ⟨"BUSY", 19, 19, .ro, 0⟩]
  | 0x08 => [⟨"HALT-STEP-ABORT", 23, 17, .wo, 0⟩]
  | 0x09 => [⟨"UE", 3, 3, .rw, 0⟩, ⟨"MARK", 2, 2, .rw, 0⟩, ⟨"BP", 1, 0, .rw, 0⟩]
  | 0x0A => [⟨"W1,W0", 23, 22, .rw, 0⟩, ⟨"TIMERS", 21, 21, .rw, 0⟩, ⟨"LARK", 20, 20, .rw, 0⟩, ⟨"TRSTOP", 19, 19, .rw, 0⟩,
      ⟨"HEADS", 15, 8, .rw, 0⟩]
  | 0x0B => [⟨"PAD", 15, 0, .rw, 0⟩]
  | 0x0C => [⟨"W1,W0", 23, 22, .rw, 0⟩, ⟨"TIMERS", 21, 21, .rw, 0⟩, ⟨"LARK", 20, 20, .rw, 0⟩, ⟨"HEADS", 15, 8, .rw, 0⟩]
  | 0x0D => [⟨"PAD", 15, 0, .rw, 0⟩]
  | 0x0E => wordRO "STATE" 0
  | 0x0F => [⟨"PAD", 15, 0, .ro, 0⟩]
  | 0x10 => [⟨"OP", 23, 21, .wo, 0⟩, ⟨"CTX", 5, 0, .wo, 0⟩]
  | 0x11 => [⟨"EN", 23, 23, .rw, 0⟩, ⟨"RING", 22, 22, .rw, 0⟩, ⟨"STIM", 21, 21, .rw, 0⟩, ⟨"FRAMEV", 20, 20, .rw, 0⟩,
      ⟨"FHEADS", 15, 8, .rw, 0⟩]
  | 0x12 => [⟨"EN", 23, 23, .rw, 0⟩, ⟨"PAD", 22, 19, .rw, 0⟩, ⟨"MUX", 18, 15, .rw, 0⟩]
  | 0x13 => [⟨"EN", 23, 23, .rw, 0⟩, ⟨"PAD", 22, 19, .rw, 0⟩, ⟨"MUX", 18, 15, .rw, 0⟩]
  | 0x14 => [⟨"EN", 23, 23, .rw, 0⟩, ⟨"PAD", 22, 19, .rw, 0⟩, ⟨"MUX", 18, 15, .rw, 0⟩]
  | 0x15 => [⟨"EN", 23, 23, .rw, 0⟩, ⟨"PAD", 22, 19, .rw, 0⟩, ⟨"MUX", 18, 15, .rw, 0⟩]
  | 0x16 => [⟨"COUNT", 23, 9, .ro, 0⟩, ⟨"LOSTP", 8, 0, .rc, 0⟩]
  | 0x17 => wordRO "DATA" 0
  | 0x18 => [⟨"DATA", 23, 0, .wo, 0⟩]
  | 0x19 => wordRO "DATA" 0
  | 0x1A => [⟨"INF", 23, 23, .ro, 0⟩, ⟨"OUTF", 22, 22, .ro, 0⟩, ⟨"DROP", 7, 0, .rc, 0⟩]
  | _ => []

/-- The reset value of a Stile register. -/
def stileReset (n : Nat) : Word := resetOf (stileFields n)

end Sys2Proof.Machine
end

