-- ==== Sys2Proof/Machine/Ops.lean ====
section
/-! DEFINITION. The operations every family shares: reading and writing a register's fields, events and messages,
saturating counts, rights, grants and pin ownership, read shadows, DRAM bytes, free values. -/

namespace Sys2Proof.Machine

/-! ### Registers -/

/-- What warden word a holds. -/
def State.rd (s : State) (a : Nat) : Word := spGet wsReset s.ws a

/-- Warden word a takes v, whatever its access type: hardware's own write. -/
def State.wr (s : State) (a : Nat) (v : Word) : State := { s with ws := spSet wsReset s.ws a v }

/-- Bits [hi:lo] of warden word a. -/
def State.fget (s : State) (a hi lo : Nat) : Nat := fld (s.rd a) hi lo

/-- Bit n of warden word a. -/
def State.bget (s : State) (a n : Nat) : Bool := bit (s.rd a) n

/-- Bits [hi:lo] of warden word a take v. -/
def State.fset (s : State) (a hi lo v : Nat) : State := s.wr a (putFld (s.rd a) hi lo v)

/-- Bit n of warden word a takes b. -/
def State.bset (s : State) (a n : Nat) (b : Bool) : State := s.fset a n n b.toNat

/-- A word with its field [hi:lo] raised by one, held at its largest value (all counters of the device saturate). -/
def incFld (w : Word) (hi lo : Nat) : Word :=
  if fld w hi lo + 1 < 2 ^ (hi + 1 - lo) then putFld w hi lo (fld w hi lo + 1) else w

/-- One more in the counter [hi:lo] of warden word a. -/
def State.inc (s : State) (a hi lo : Nat) : State := s.wr a (incFld (s.rd a) hi lo)

/-- n more in a counter. -/
def State.incN (s : State) (a hi lo n : Nat) : State :=
  s.fset a hi lo (min (2 ^ (hi + 1 - lo) - 1) (s.fget a hi lo + n))

/-- A generic write: RW fields take v, W1C bits clear, the rest keeps (R7, R8). -/
def State.put (s : State) (a : Nat) (v : Word) : State := s.wr a (writeView (fieldsOf (locOf a)) (s.rd a) v)

/-- What a host-window register holds. -/
def State.hwRd (s : State) (off : Nat) : Word := spGet hwReset s.hw off

/-- A host-window register takes v. -/
def State.hwWr (s : State) (off : Nat) (v : Word) : State := { s with hw := spSet hwReset s.hw off v }

/-- What a Stile register holds. -/
def State.stRd (s : State) (n : Nat) : Word := spGet stileReset s.stileRegs n

/-- A Stile register takes v. -/
def State.stWr (s : State) (n : Nat) (v : Word) : State := { s with stileRegs := spSet stileReset s.stileRegs n v }

/-- The session level of the Stile (R378). -/
def State.level (s : State) : Nat := fld (s.stRd 0x01) 23 21

/-- Head h of the state, changed by f. -/
def State.modHead (s : State) (h : Head) (f : HeadSt → HeadSt) : State := { s with heads := vmod s.heads h f }

/-- Paddock p of the state, changed by f. -/
def State.modPad (s : State) (p : Pad) (f : PadSt → PadSt) : State := { s with pads := vmod s.pads p f }

/-! ### Free values -/

/-- Draw a free number (log entry 2): nothing constrains it, and the next draw is another. -/
def State.draw (s : State) : Nat × State := (Config.freeNat s.freeCtr, { s with freeCtr := s.freeCtr + 1 })

/-- Draw n free words. -/
def State.drawWords (s : State) (n : Nat) : List Word × State :=
  ((List.range n).map fun i => Config.freeWord (s.freeCtr + i), { s with freeCtr := s.freeCtr + n })

/-! ### Events (R361 to R363) -/

/-- Dword i of the MSI-X table; a vector is masked after reset. -/
def msixDefault (i : Nat) : BitVec 32 := if i % 4 = 3 then 1 else 0

/-- A message on vector n may be sent now: the masks of R363. -/
def State.msixOpen (s : State) (n : Nat) : Bool :=
  !s.pcie.inReset && s.pcie.msixOn && !s.pcie.funcMask && !(spGet msixDefault s.pcie.table (4 * n + 3)).getLsbD 0
    && !bit (s.hwRd (0x0AC + 4 * (n / 24))) (n % 24)

/-- Event flag En. -/
def State.evFlag (s : State) (n : Nat) : Bool := bit (s.hwRd (0x0A0 + 4 * (n / 24))) (n % 24)

/-- One message request on vector n: sent at once, or left pending (R363). -/
def State.msixRequest (s : State) (n : Nat) : State :=
  if s.msixOpen n then { s with pcie := { s.pcie with sent := s.pcie.sent ++ [n] } }
  else { s with pcie := { s.pcie with pending := s.pcie.pending ||| (1 <<< n) } }

/-- Event source En is raised: flag, count and, from a flag at 0, a message request (R361, R363). -/
def State.raise (s : State) (n : Nat) : State :=
  let off := 0x0A0 + 4 * (n / 24)
  let was := s.evFlag n
  let s1 := s.hwWr off (putBit (s.hwRd off) (n % 24) true)
  let c := 0x0E0 + 4 * (n / 3)
  let s2 := s1.hwWr c (incFld (s1.hwRd c) (8 * (n % 3) + 7) (8 * (n % 3)))
  if was then s2 else s2.msixRequest n

/-- t, reached from s within one SCLK cycle, counts source En raised at most once (R361). -/
def State.raisedOnce (s : State) (n : Nat) (t : State) : State :=
  let c := 0x0E0 + 4 * (n / 3)
  let hi := 8 * (n % 3) + 7
  let lo := 8 * (n % 3)
  let once := fld (incFld (s.hwRd c) hi lo) hi lo
  if fld (t.hwRd c) hi lo ≤ once then t else t.hwWr c (putFld (t.hwRd c) hi lo once)

/-- Bit b of a cause register is set, and its source raised. -/
def State.raiseCause (s : State) (off b n : Nat) : State := (s.hwWr off (putBit (s.hwRd off) b true)).raise n

/-- The signature event of head h. -/
def State.evSig (s : State) (h : Nat) : State := s.raise h
/-- The deadline event of head h. -/
def State.evDeadline (s : State) (h : Nat) : State := s.raise (8 + h)
/-- The output event of head h. -/
def State.evOutput (s : State) (h : Nat) : State := s.raise (16 + h)
/-- A head's sync (0), beam-queue (1), layer (2) or object (3) event, with its bit of HCAUSE. -/
def State.evHead (s : State) (h kind : Nat) : State :=
  s.raiseCause (if h < 6 then 0x0B8 else 0x0BC) (4 * (h % 6) + kind) (24 + h)
/-- The fabric event of paddock p. -/
def State.evFabric (s : State) (p : Nat) : State := s.raiseCause 0x0C0 p 32
def State.evConfig (s : State) : State := s.raise 33
def State.evDram (s : State) : State := s.raise 34
def State.evLark (s : State) : State := s.raise 35
def State.evWarden (s : State) : State := s.raise 36
def State.evIntegrity (s : State) : State := s.raise 37
/-- The pin event of bank b. -/
def State.evPin (s : State) (b : Nat) : State := s.raiseCause 0x0C8 b 38
/-- The pin-fault event, with bit b of PFCAUSE (12: input conflict). -/
def State.evPinFault (s : State) (b : Nat) : State := s.raiseCause 0x0CC b 39
/-- The timer event of timer t. -/
def State.evTimer (s : State) (t : Nat) : State := s.raiseCause 0x0C4 t 40
/-- The link event: link g at bit g, copy channel n at bit 4 + n of LNKCAUSE. -/
def State.evLink (s : State) (b : Nat) : State := s.raiseCause 0x0D0 b 41
def State.evFold (s : State) : State := s.raise 42
def State.evHost (s : State) : State := s.raise 43
def State.evPower (s : State) : State := s.raise 44
def State.evState (s : State) : State := s.raise 45
/-- The mailbox event of mailbox m. -/
def State.evMbox (s : State) (m : Nat) : State := s.raise (48 + m)

/-! ### Identity, device state -/

/-- The identity value of R1, stepping A1. -/
def State.identity (s : State) : Word := if s.fuses.is2404 then 0x240411 else 0x240811

/-- Head h is disabled by fuse (R2). -/
def State.headOff (s : State) (h : Nat) : Bool := s.fuses.is2404 && decide (4 ≤ h)

/-- Paddock p is disabled by fuse (R2). -/
def State.padOff (s : State) (p : Nat) : Bool := s.fuses.is2404 && decide (8 ≤ p)

/-- A paddock by number. -/
def State.pad (s : State) (p : Nat) : PadSt := if h : p < 16 then s.pads[p] else PadSt.reset

/-- LOADED of a paddock. -/
def State.loaded (s : State) (p : Nat) : Bool := s.bget (aPad p 1) 23

/-- A swap of a paddock has begun and not ended: SWAP, or its last edge is still to come (R207). -/
def State.swapping (s : State) (p : Nat) : Bool := s.bget (aPad p 1) 22 || (s.pad p).closing

/-- The code of a device state (R257). -/
def DevState.code : DevState → Nat
  | .boot => 0 | .ready => 1 | .live => 2 | .maint => 3 | .safe => 4

/-- A change of device state with its reason; the state event is raised (R250). -/
def State.toDev (s : State) (d : DevState) (reason : BitVec 8) : State :=
  let s1 : State := { s with dev := d, reason := reason }
  (s1.hwWr 0x008 (putFld (putFld (s1.hwRd 0x008) 22 20 d.code) 19 12 reason.toNat)).evState

/-- Core k runs Caeruno in DUPLEX or SOLO. -/
def State.coreServes (s : State) (k : Nat) : Bool :=
  s.bget (aCore k 0) 21 && (s.fget (aCore k 0) 23 22 == 1 || s.fget (aCore k 0) 23 22 == 2)

/-- The boot ROM serves the commands of BOOT (R273). -/
def State.romServes (s : State) : Bool := s.dev == .boot && s.reason == 1 && !s.bget (aCore 0 0) 21 && !s.bget (aCore 1 0) 21

/-- READY of HWSTAT: the boot ROM serves mailboxes, or Caeruno does once the checkers are tested (R373). -/
def State.hostReady (s : State) : Bool :=
  s.romServes || ((s.dev != .boot || s.start == .checked || s.start == .up) && (s.coreServes 0 || s.coreServes 1))

/-- Head h runs its raster. -/
def State.running (s : State) (h : Nat) : Bool := s.bget (aHead h 0x01) 23

/-- Some head is running. -/
def State.anyRunning (s : State) : Bool := (List.range 8).any fun h => s.running h

/-- The reference head of R16: the lowest-numbered head configured and running. -/
def State.refHead (s : State) : Option Nat :=
  (List.finRange 8).findSome? fun (h : Head) => if s.heads[h].configured && s.running h.val then some h.val else none

/-! ### Rights (R71, R223, R239, R263, R264, R318, R382) -/

/-- Grantee code g holds the grant. -/
def State.hasGrant (s : State) (g kind idx : Nat) : Bool :=
  s.cae.grants.any fun x => x.kind == kind && x.index == idx && x.grantee == g

/-- Contexts that the session's certificate names (R382). -/
def State.sessCtxs (s : State) : List Nat :=
  (List.range 64).filter fun c => c != 0 && s.stile.ctxmask.getLsbD c

/-- A requester holds the right of a GRANT kind over an index. -/
def State.right (s : State) (r : Requester) (kind idx : Nat) : Bool :=
  match r with
  | .core _ c => c.val == 0 || s.hasGrant c.val kind idx
  | .host => decide (kind ≤ 4)
  | .paddock p => s.hasGrant (64 + p.val) kind idx
  | .debug => decide (3 ≤ s.level) || (s.level == 2 && s.sessCtxs.any fun c => s.hasGrant c kind idx)

/-- Owner of a pin, OKIND and OIDX of its PINCFG (R299 to R305). Both pins of a pair hold the pair's one owner (R301). -/
def State.pinOwner (s : State) (b n : Nat) : Nat × Nat :=
  (s.fget (aBank b (0x10 + n)) 23 22, s.fget (aBank b (0x10 + n)) 21 16)

/-- A requester owns a pin (R309). -/
def State.ownsPin (s : State) (r : Requester) (b n : Nat) : Bool :=
  let o := s.pinOwner b n
  match r with
  | .core _ c => c.val == 0 || o == (1, c.val)
  | .host => o.1 == 0
  | .paddock p => o == (2, p.val)
  | .debug => decide (3 ≤ s.level) || (s.level == 2 && s.sessCtxs.any fun c => o == (1, c))

/-- The bits of a bank that a requester owns. -/
def State.ownMask (s : State) (r : Requester) (b : Nat) : Word :=
  (List.range 24).foldl (fun m n => if s.ownsPin r b n then m ||| wd (2 ^ n) else m) 0

/-- A context owns the page that word i of the applet part lies in (R238, R246). -/
def State.ownsPage (s : State) (r : Requester) (i : Nat) : Bool :=
  match r with
  | .core _ c => c.val == 0 || (s.cae.ctxs[c].pages.contains (i / 4096))
  | .host => false
  | .paddock _ => false
  | .debug => decide (3 ≤ s.level) ||
      (s.level == 2 && (List.finRange 64).any fun c => s.stile.ctxmask.getLsbD c && c.val != 0 && s.cae.ctxs[c].pages.contains (i / 4096))

/-- Head whose layer grant covers a register of a head, a descriptor, a palette, a region block or a ring (R71, R92). -/
def layerHead : Loc → Option Nat
  | .head h _ => some h
  | .desc h _ _ => some h
  | .objStat h _ => some h
  | .sigRegion h _ => some h
  | .ring h _ => some h
  | .palette i => some (i / 0x2000)
  | _ => none

/-- A grant, page or pin gives a requester other than Caeruno the address (R71, R76, R92, R176, R223, R248, R318, R382). -/
def State.granted (s : State) (r : Requester) : Loc → Bool
  | .sramApp i => s.ownsPage r i
  | .objStore i => s.right r 1 (i / 2048)
  | .voice v _ => s.right r 2 (v / 16)
  | .padWin p _ => s.right r 3 p
  | .timer t _ => s.right r 4 t
  | .tgo => (List.range 16).any fun t => s.right r 4 t
  | .bank b _ => s.ownMask r b != 0
  | .lark 0x07 => true
  | .post _ => true
  | .stim _ => true
  | l => match layerHead l with
    | some h => s.right r 0 h
    | none => false

/-- A range of R238 that only context 0 reaches. -/
def caeOnly : Loc → Bool
  | .tcmOwn _ => true
  | .tcm _ _ => true
  | .sramCae _ => true
  | _ => false

/-- A location exists, and its block is not disabled by fuse in a way that makes it unmapped. -/
def mapped : Loc → Bool
  | .unmapped => false
  | _ => true

/-- A requester may read a location (R92, R238, R240, R248, R263, R382). -/
def State.mayRead (s : State) (r : Requester) (l : Loc) : Bool :=
  mapped l && match r with
  | .core _ c => c.val == 0 || s.granted r l
  | .host => !caeOnly l
  | .paddock _ => s.granted r l
  | .debug =>
    match l with
    | .tcmOwn _ => false
    | .pad _ off => decide (3 ≤ s.level) || (decide (1 ≤ s.level) && decide (0x10 ≤ off ∧ off < 0x20))
    | .prbsel _ => decide (1 ≤ s.level)
    | .bp _ _ => decide (2 ≤ s.level)
    | l => decide (3 ≤ s.level) || s.granted r l

/-- Head registers that layer rights let a requester write (R71, R92): slots, LAYCTL, palette map, BACKDROP, COMPCTL,
TAPCTL, SIGCTL, SIGRING, and the read-only ones beside them, whose write changes nothing (R7). -/
def layerWritable (off : Nat) : Bool :=
  decide (0x0C ≤ off ∧ off ≤ 0x2F) || decide (0x34 ≤ off ∧ off ≤ 0x36)

/-- A requester other than Caeruno holds the owning chapter's right to write a location. -/
def State.writeRight (s : State) (r : Requester) : Loc → Bool
  | .post _ => r != .host
  | .stim _ => r != .host
  | .head h off => layerWritable off && s.right r 0 h
  | .ring _ _ => false
  | .objStat h _ => s.right r 0 h
  | .bank b off => if off = 0 then r == .host else if 0x10 ≤ off then s.ownsPin r b (off - 0x10) else r == .host || s.ownMask r b != 0
  | .link _ _ => r == .host
  | .fold _ => r == .host
  | .copy _ _ => r == .host
  | .route _ _ => r == .host
  | .sramApp i => s.ownsPage r i
  | l => s.granted r l

/-- What the debug master may write at level 3 that context 0 may write (R382). DESIGN CHOICE (log entry 122): R92 lets only Caeruno
write OUTCTL, DPCTL, LVDSCTL, DPDRIVE and DPCUST0 to DPCUST3, and R382 lets the session write what context 0 may: it may. -/
def debugL3 : Loc → Bool
  | .tcmOwn _ => false
  | .tcm _ _ => false
  | .sramCae _ => false
  | .core _ _ => false
  | .peerrst => false
  | .image _ _ => false
  | .icpctl => false
  | .gleaner _ => false
  | .glProg _ => false
  | .ring _ _ => false
  | _ => true

/-- A requester may write a location (R182, R203, R240, R263, R299, R303, R318, R339, R382). Read-only words accept the
write and ignore it (R7). -/
def State.mayWrite (s : State) (r : Requester) (l : Loc) : Bool :=
  mapped l && match r with
  | .core _ c => if c.val = 0 then (match l with | .ring _ _ => false | _ => true) else s.writeRight r l
  | .host => !caeOnly l && s.writeRight r l
  | .paddock _ => s.writeRight r l
  | .debug =>
    match l with
    | .pad _ off => decide (3 ≤ s.level) || (decide (1 ≤ s.level) && decide (0x10 ≤ off ∧ off < 0x20))
    | .prbsel _ => decide (1 ≤ s.level)
    | .bp _ _ => decide (2 ≤ s.level)
    | l => if 3 ≤ s.level then debugL3 l else s.writeRight r l

/-- A location that WRITE actions reach (R42, R70, R76, R92, R318 and the voice tables). -/
def beamWritable : Loc → Bool
  | .head _ off => decide (0x10 ≤ off ∧ off ≤ 0x17) || decide (0x19 ≤ off ∧ off ≤ 0x1C)
  | .desc _ _ _ => true
  | .palette _ => true
  | .objStore _ => true
  | .voice _ _ => true
  | .timer _ off => decide (3 ≤ off ∧ off ≤ 5)
  | _ => false

/-! ### Access faults (R240) -/

/-- The outcome of a faulting access at address a for its requester (R240, R384). A host access answers through `rfault`. -/
def State.accessFault (s : State) (r : Requester) (a : Nat) : State :=
  let s1 : State := { s with rdata := 0, rfault := true }
  match r with
  | .core k c =>
    if c.val = 0 then (s1.inc (aCore k 5) 7 0).evWarden
    else
      let s2 : State := { s1 with cae := { s1.cae with ctxs := vmod s1.cae.ctxs c fun x =>
        { x with st := 4, faultAddr := wd a, faults := x.faults + 1 } } }
      s2.evWarden
  | .debug => s1.stWr 0x07 (putBit (s1.stRd 0x07) 20 true)
  | .host => s1
  | .paddock _ => s1

/-- The block that a location belongs to is disabled by fuse (R2). -/
def State.locOff (s : State) : Loc → Bool
  | .head h _ => s.headOff h
  | .desc h _ _ => s.headOff h
  | .objStat h _ => s.headOff h
  | .sigRegion h _ => s.headOff h
  | .ring h _ => s.headOff h
  | .palette i => s.headOff (i / 0x2000)
  | .pad p _ => s.padOff p
  | .padWin p _ => s.padOff p
  | .region r _ => decide (r < 16) && s.padOff r
  | .rot off => decide (0x10 ≤ off) && s.headOff (off - 0x10)
  | _ => false

/-! ### Writes of one SCLK cycle (R50) -/

/-- What tells one SCLK cycle from another: its number, and where every head's beam stands (log entry 101). -/
def State.cycStamp (s : State) : Nat × List Word := (s.sclk, (List.range 8).map fun h => s.rd (aHead h 9))

/-- The writes that have landed in the present SCLK cycle. Targets that are no warden word have keys of their own: strobes 0x1000000, swaps
0x2000000, banks 0x3000000, timers 0x4000000, posts 0x5000000, claims 0x6000000, voices 0x7000000. -/
def State.cycNow (s : State) : List CycWrite := if s.cycAt = s.cycStamp then s.cyc else []

/-- Who makes a direct write, as the list of the cycle names it; the executors of the heads are 32 to 39. -/
def whoOf : Requester → Nat
  | .core k _ => k.val
  | .host => 2
  | .debug => 3
  | .paddock p => 4 + p.val

/-- Writes of one maker land together. Nobody makes two at different times in one cycle (R47): a later one of the same maker begins the
next cycle. -/
def State.cycNotes (s : State) (who : Nat) (es : List CycWrite) : State :=
  let l := if s.cycNow.any fun x => x.who == who then [] else s.cycNow
  { s with cyc := l ++ es, cycAt := s.cycStamp }

/-- A write lands. -/
def State.cycNote (s : State) (e : CycWrite) : State := s.cycNotes e.who [e]

/-- The writes of the present cycle to a target that are ordered after one of rank r by a maker who has made none in it yet,
in their order: the queues' by head number, after every direct one (R50). -/
def State.cycAfter (s : State) (who r key : Nat) : List CycWrite :=
  if s.cycNow.any fun x => x.who == who then []
  else (List.range 13).flatMap fun k => s.cycNow.filter fun x => decide (r < k) && x.rank == k && x.key == key

/-- Rank of what reaches OUT of a bank or RUN of a timer in one SCLK cycle: direct writes of W0, W1 and the debug master, then TGO (3),
then the actions of head h at 4 + h (R310, R326). The host's writes come with the debug master's. -/
def rankOf : Requester → Nat
  | .core k _ => k.val
  | _ => 2

/-- What the present cycle's actions on a target have begun has been undone. -/
def State.forgetCyc (s : State) (key : Nat) : State :=
  { s with cyc := s.cyc.map fun x => if x.key = key then { x with value := 0 } else x }

/-- A direct write to a beam-writable word a: queue writes of the same cycle to the same word are ordered after it, so what they
left stands (R50). -/
def State.directly (s : State) (r : Requester) (a : Nat) (v : Word) (put : State → Nat → Word → State) : State :=
  if s.cycNow.isEmpty || !beamWritable (locOf a) then put s a v
  else ((s.cycAfter (whoOf r) 0 a).foldl (fun t x => put t a x.value) (put s a v)).cycNote
    { rank := 0, who := whoOf r, key := a, value := v }

/-- A WRITE action of head h's queue to word a: the value of a higher-numbered head's queue stands (R50). -/
def State.byQueue (s : State) (h a : Nat) (v : Word) (put : State → Nat → Word → State) : State :=
  ((s.cycAfter (32 + h) (h + 1) a).foldl (fun t x => put t a x.value) (put s a v)).cycNote
    { rank := h + 1, who := 32 + h, key := a, value := v }

/-- A write by a requester to address a, whose effect is f: ignored for a block disabled by fuse (R2), an access fault
without rights (R71, R240). -/
def State.gated (s : State) (r : Requester) (a : Nat) (f : State → State) : State :=
  if s.locOff (locOf a) then s
  else if s.mayWrite r (locOf a) then f { s with rfault := false }
  else s.accessFault r a

/-! ### Shadows (R29, R322, R342) -/

/-- Who holds a requester's shadows. -/
def shadowOwner : Requester → ShadowOwner
  | .core k c => if c.val = 0 then .caeruno k else .ctx c
  | .host => .command
  | .debug => .debug
  | .paddock p => .pad p

/-- The shadow of a requester, by the address of the register that reads it. -/
def State.shadow (s : State) (r : Requester) (a : Nat) : Option Word :=
  (s.shadows.find? fun e => decide (e.1 = (shadowOwner r, a))).map (·.2)

/-- A shadow is loaded. -/
def State.setShadow (s : State) (r : Requester) (a : Nat) (v : Word) : State :=
  { s with shadows := ((shadowOwner r, a), v) :: s.shadows.filter fun e => decide (e.1 ≠ (shadowOwner r, a)) }

/-- The shadows of a host command end with it (R29). -/
def State.dropShadows (s : State) : State :=
  { s with shadows := s.shadows.filter fun e => decide (e.1.1 ≠ ShadowOwner.command) }

/-! ### DRAM (R129, R130, R135, R139) -/

/-- Channels in use. -/
def State.nch (s : State) : Nat :=
  match s.fget (aDram 0) 23 22 with
  | 1 => 2
  | 2 => 4
  | _ => 1

/-- The populated capacity in bytes: 0 until training is done with a channel in use (R139). -/
def State.dramCap (s : State) : Nat :=
  if s.bget (aDram 1) 23 && s.fget (aDram 1) 18 15 != 0 then s.nch * (2 ^ 29 <<< s.fget (aDram 0) 21 19) else 0

/-- The channel a byte address decodes to (R129). -/
def State.chanOf (s : State) (a : Nat) : Chan :=
  match s.fget (aDram 0) 23 22 with
  | 1 => ⟨nbits a 8 8, by unfold nbits; omega⟩
  | 2 => ⟨nbits a 9 8, by unfold nbits; omega⟩
  | _ => 0

/-- The subchannel of a byte address. -/
def subOf (a : Nat) : Nat := nbits a 5 5

/-- The byte address within the channel. -/
def State.chanAddr (s : State) (a : Nat) : Nat :=
  match s.fget (aDram 0) 23 22 with
  | 1 => (a >>> 9) <<< 8 ||| a % 256
  | 2 => (a >>> 10) <<< 8 ||| a % 256
  | _ => a

/-- Row, bank and subchannel of a byte address (R129), as an error-log entry holds them. -/
def State.dramRowBank (s : State) (a : Nat) : Nat × Nat × Nat :=
  let c := s.chanAddr a
  let b := (c >>> 6) <<< 5 ||| c % 32
  (b >>> 15, nbits b 14 11, subOf a)

/-- The units of 32 bytes that n bytes from a touch. -/
def unitsOf (a n : Nat) : List Nat := (List.range ((a + n + 31) / 32 - a / 32)).map fun i => a / 32 + i

/-- Out-of-range units are counted in OOR of their channels, and the DRAM event is raised once (R130). -/
def State.countOor (s : State) (us : List Nat) : State :=
  let bad := us.filter fun u => decide (s.dramCap ≤ 32 * u)
  if bad.isEmpty then s
  else (bad.foldl (fun (t : State) u => t.inc (aChan (s.chanOf (32 * u)).val 1) 15 8) s).evDram

/-- The bytes of DRAM as a read sees them: zero at and above the capacity (R130). -/
def State.dramBytes (s : State) (a n : Nat) : List Byte :=
  (List.range n).map fun i => if a + i < s.dramCap then spGet zeroB s.dram (a + i) else 0

/-- First byte, end and check base of an inline-ECC region, when enabled. -/
def State.eccRegion (s : State) (r : Nat) : Option (Nat × Nat × Nat) :=
  let w := s.rd (aDram (0x10 + 3 * r))
  if bit w 0 then
    some (fld w 23 9 * 2 ^ 20, (s.fget (aDram (0x11 + 3 * r)) 23 9 + 1) * 2 ^ 20, s.fget (aDram (0x12 + 3 * r)) 23 6 * 2 ^ 17)
  else none

/-- The check byte address and group base of byte a, when an enabled region covers it (R135). -/
def State.checkAddr (s : State) (a : Nat) : Option Nat :=
  (List.range 8).findSome? fun r => match s.eccRegion r with
    | some (lo, hi, chk) => if lo ≤ a ∧ a < hi then some (chk + (a - lo) / 8) else none
    | none => none

/-- The check bits of an aligned group of 8 bytes are formed anew (R135). -/
def State.formCheck (s : State) (g : Nat) : State :=
  match s.checkAddr (8 * g) with
  | none => s
  | some c =>
    { s with dram := spSet zeroB s.dram c (Config.eccCheck (BitVec.ofNat 64 (ofBytesLE (spRead zeroB s.dram (8 * g) 8)))) }

/-- The bytes below the capacity are stored, and the checks of the groups they touch formed (R130, R135). -/
def State.dramPut (s : State) (a : Nat) (d : List Byte) : State :=
  let d' := d.take (s.dramCap - a)
  let s1 : State := { s with dram := spWrite zeroB s.dram a d' }
  if d'.isEmpty then s1
  else (List.range ((a + d'.length + 7) / 8 - a / 8)).foldl (fun (t : State) i => t.formCheck (a / 8 + i)) s1

/-- Words of DRAM, three bytes each, from byte a. -/
def State.dramWords (s : State) (a n : Nat) : List Word := wordsOfBytes (s.dramBytes a (3 * n))

/-! ### Lark memory and flash -/

/-- n bytes of the 1 MiB of Lark memory from a, modulo its size. -/
def State.larkBytes (s : State) (a n : Nat) : List Byte :=
  (List.range n).map fun i => spGet zeroB s.larkMem ((a + i) % 2 ^ 20)

/-- Bytes written to Lark memory from a, modulo its size. -/
def State.larkPut (s : State) (a : Nat) (d : List Byte) : State :=
  { s with larkMem := (d.zipIdx).foldl (fun m e => spSet zeroB m ((a + e.2) % 2 ^ 20) e.1) s.larkMem }

/-! ### Error logs (R279) -/

/-- A log in registers: sixteen entries of k words from address base; a free entry's first word holds no KIND. A new
entry takes the next free place; with none free, entries 0 to 7 stay, 9 to 15 move down and it enters at 15. The answer
says whether an entry was moved out. -/
def State.logPut (s : State) (base k : Nat) (kind : Word) (e : List Word) : State × Bool :=
  let held := ((List.range 16).map fun i => spRead wsReset s.ws (base + k * i) k).filter fun x => nth 0 x 0 &&& kind != 0
  let l := if held.length < 16 then held ++ [e] else held.take 8 ++ held.drop 9 ++ [e]
  ({ s with ws := spWrite wsReset s.ws base l.flatten }, held.length == 16)

end Sys2Proof.Machine
end

