-- ==== Sys2Proof/Machine/Repair.lean ====
section
/-! DEFINITION. What every family shares of 11_integrity_repair.md: the ledger's words, repair records, the engine pool,
failed engines, region error counts and logs, checked reads and flipped writes, remaps. -/

namespace Sys2Proof.Machine

/-! ### Ledger words (R297) -/

/-- Ledger word i. -/
def State.ledger (s : State) (i : Nat) : Word := spGet zeroW s.cae.ledger i

/-- Ledger word i takes v. -/
def State.setLedger (s : State) (i : Nat) (v : Word) : State :=
  { s with cae := { s.cae with ledger := spSet zeroW s.cae.ledger i v } }

/-- Ledger word i rises by one, held at 0xFFFFFF. -/
def State.ledgerInc (s : State) (i : Nat) : State := s.setLedger i (incFld (s.ledger i) 23 0)

/-- The 48-bit count in words i and i + 1 rises by one. -/
def State.ledgerInc48 (s : State) (i : Nat) : State :=
  let n := (s.ledger i).toNat + 2 ^ 24 * (s.ledger (i + 1)).toNat + 1
  (s.setLedger i (wd n)).setLedger (i + 1) (wd (n >>> 24))

/-! ### The flash directory (R200, R268) -/

/-- n bytes of flash. -/
def State.flashBytes (s : State) (a n : Nat) : List Byte := spRead zeroB s.flash a n

/-- A directory at byte a holds its mark and a good CRC. -/
def State.dirGood (s : State) (a : Nat) : Bool :=
  s.flashBytes a 4 == ascii "KZFD" && ofBytesLE (s.flashBytes (a + 60) 4) == (crc32c (s.flashBytes a 60)).toNat

/-- The directory in force: the one at 0x0000, or its copy at 0x1000. -/
def State.dirBase (s : State) : Option Nat :=
  if s.dirGood 0 then some 0 else if s.dirGood 0x1000 then some 0x1000 else none

/-- A 4-byte field of the directory, 0 without one. -/
def State.dirField (s : State) (i : Nat) : Nat :=
  match s.dirBase with
  | some b => ofBytesLE (s.flashBytes (b + i) 4)
  | none => 0

/-- The directory's 64 bytes with some replaced, GEN raised by one and the CRC formed (R268). -/
def State.dirImage (s : State) (i : Nat) (d : List Byte) : List Byte :=
  let old := match s.dirBase with
    | some b => s.flashBytes b 60
    | none => ascii "KZFD" ++ List.replicate 56 0
  let b := old.take i ++ d ++ old.drop (i + d.length)
  let g := bytesLE 4 (ofBytesLE ((b.drop 56).take 4) + 1)
  let c := b.take 56 ++ g
  c ++ bytesLE 4 (crc32c c).toNat

/-- The directory is rewritten at 0x0000 and then its copy at 0x1000. -/
def State.dirWrite (s : State) (i : Nat) (d : List Byte) : State :=
  let img := s.dirImage i d
  { s with flash := spWrite zeroB (spWrite zeroB s.flash 0 img) 0x1000 img }

/-- Bytes of the ledger in flash: three to a word (log entry 37). -/
def State.ledgerImage (s : State) : List Byte := bytesOfWords ((List.range 64).map s.ledger)

/-- The ledger is written to the flash region that the directory names (R297). -/
def State.ledgerSave (s : State) : State :=
  if s.ledgerImage.length ≤ s.dirField 52 then { s with flash := spWrite zeroB s.flash (s.dirField 48) s.ledgerImage } else s

/-! ### Repair records (R288 to R291) -/

/-- Records from a run of words: a record of one word has 0 as its second. -/
def parseRecords : List Word → List (Word × Word)
  | [] => []
  | [w] => if fld w 23 20 = 1 ∨ fld w 23 20 = 2 then [(w, 0)] else []
  | w :: v :: t =>
    if fld w 23 20 = 1 ∨ fld w 23 20 = 2 then (w, 0) :: parseRecords (v :: t)
    else if 3 ≤ fld w 23 20 ∧ fld w 23 20 ≤ 6 then (w, v) :: parseRecords t
    else parseRecords (v :: t)

/-- The records in force: the union of the fuse records and the flash records (R290). -/
def State.records (s : State) : List (Word × Word) := parseRecords s.fuses.repair ++ parseRecords s.cae.records

/-- The record region as R289 lays it out. -/
def recordRegion (drk : List Byte) (ws : List Word) (gen : Nat) : List Byte :=
  let body := ascii "KZRR" ++ bytesLE 4 (parseRecords ws).length ++ bytesLE 4 gen ++ bytesOfWords ws
  body ++ hmacSha256 (kdf drk "KZ-REPAIR" []) body

/-- The flash region of the repair records is rewritten with GEN raised by one, when the directory names one that holds it. -/
def State.writeRecords (s : State) : State :=
  let g := s.cae.recGen + 1
  let img := recordRegion s.fuses.drk s.cae.records g
  let s1 : State := { s with cae := { s.cae with recGen := g } }
  if img.length ≤ s.dirField 44 then { s1 with flash := spWrite zeroB s.flash (s.dirField 40) img } else s1

/-- Fuse records are written only in READY, LIVE and MAINT (R291). -/
def fuseWritable : DevState → Bool
  | .ready => true | .live => true | .maint => true | _ => false

/-- Caeruno appends a record to flash and, for spare columns and failed engines, to the fuse bank while it has room (R291). -/
def State.appendRecord (s : State) (ws : List Word) (toFuse : Bool) : State :=
  let s1 : State := ({ s with cae := { s.cae with records := s.cae.records ++ ws } } : State).writeRecords
  if toFuse && fuseWritable s1.dev then
    if s1.fuses.repair.length + ws.length ≤ 256 then
      { s1 with fuses := { s1.fuses with repair := s1.fuses.repair ++ ws } }
    else s1.evIntegrity
  else s1

/-- Failed columns of a paddock's rows in the records in force (R206). -/
def State.failedCols (s : State) (p : Nat) : List (Nat × Nat) :=
  (s.records.filter fun r => decide (fld r.1 23 20 = 1 ∧ fld r.1 19 16 = p)).map fun r => (fld r.1 15 12, fld r.1 4 0)

/-! ### Engines (R52, R284, R286) -/

/-- Engine e is marked failed in ENGFAIL. -/
def State.engFailed (s : State) (e : Nat) : Bool := s.bget (aRot (4 + e / 24)) (e % 24)

/-- The ENG field of slot n of head h. -/
def State.engOf (s : State) (h n : Nat) : Nat := s.fget (aHead h (0x10 + n)) 22 16

/-- Slot n of head h has EN = 1. -/
def State.slotEn (s : State) (h n : Nat) : Bool := s.bget (aHead h (0x10 + n)) 23

/-- A slot other than (h, n) with EN = 1 names engine e, on any head and whatever its NSLOT (R52). -/
def State.engBoundElse (s : State) (h n e : Nat) : Bool :=
  (List.range 8).any fun g => (List.range 8).any fun m => !(g == h && m == n) && s.slotEn g m && s.engOf g m == e

/-- Some slot with EN = 1 names engine e. -/
def State.engBound (s : State) (e : Nat) : Bool :=
  (List.range 8).any fun g => (List.range 8).any fun m => s.slotEn g m && s.engOf g m == e

/-- The rotation's step (R285), 0 when idle. -/
def State.rotStep (s : State) : Nat := s.fget (aRot 1) 23 21

/-- Engine e takes part in a rotation. -/
def State.inRotation (s : State) (e : Nat) : Bool :=
  s.rotStep != 0 && (s.fget (aRot 1) 20 14 == e || s.fget (aRot 1) 13 7 == e)

/-- The idle pool (R284), lowest-numbered first. -/
def State.pool (s : State) : List Nat :=
  (List.range 66).filter fun e => !s.engBound e && !s.inRotation e && !s.engFailed e

/-- Engine e is marked failed in ENGFAIL, in the repair records and in the ledger, once (R286, R297). -/
def State.markFailed (s : State) (e : Nat) : State :=
  if s.engFailed e then s
  else ((s.bset (aRot (4 + e / 24)) (e % 24) true).appendRecord [wd (2 * 2 ^ 20 + e)] true).ledgerInc 14

/-! ### Region errors (R278, R279, R281, R283) -/

/-- The region and region address of what a warden address names, for the memories that have one. A core's own tightly
coupled memory is named through `tcm`. -/
def regionOf : Loc → Option (Nat × Nat)
  | .tcm k i => some (16 + k, i)
  | .sramCae i => some (18, i)
  | .sramApp i => some (18, 0x40000 + i)
  | .objStore i => some (20, i)
  | .palette i => some (21, i)
  | .glProg i => some (24, i)
  | .mbbuf m w => some (24, 0x2000 + 0x80 * m + w)
  | _ => none

/-- The warden address of a region's word, where it has one. -/
def regionAddr (r a : Nat) : Option Nat :=
  match r with
  | 16 => some (0x080000 + a)
  | 17 => some (0x0C0000 + a)
  | 18 => some (0x100000 + a)
  | 20 => some (0xD00000 + a)
  | 21 => some (0xC80000 + a)
  | 24 => if a < 0x2000 then some (0xC79000 + a) else some (0xC7F000 + (a - 0x2000))
  | _ => none

/-- An address stands in the log of its region. -/
def State.logHolds (s : State) (r addr : Nat) : Bool :=
  (List.range 16).any fun i =>
    let e := s.rd (aRegion r (0x10 + 2 * i))
    fld e 23 22 != 0 && fld e 21 0 == addr % 2 ^ 22

/-- Caeruno is to remap an address: it was rebuilt or found uncorrectable, or stands in the log for the second time (R282). -/
def State.remapNote (s : State) (r kind addr : Nat) (again : Bool) : State :=
  if (again || decide (2 ≤ kind)) && !s.repair.due.contains (r, addr) then
    { s with repair := { s.repair with due := s.repair.due ++ [(r, addr)] } }
  else s

/-- An error of kind 1 corrected, 2 rebuilt or 3 uncorrectable is counted and logged (R278, R279), and Caeruno takes note of it (R282). -/
def State.logError (s : State) (r kind addr bitNo : Nat) : State :=
  let s1 := match kind with
    | 1 => s.inc (aRegion r 0) 23 12
    | 2 => s.inc (aRegion r 0) 11 0
    | _ => (s.inc (aRegion r 1) 23 16).evIntegrity
  let (s2, lost) := s1.logPut (aRegion r 0x10) 2 0xC00000
    [wd (kind * 2 ^ 22 + addr % 2 ^ 22), wd (bitNo * 2 ^ 19 + s.pow.seconds % 2 ^ 19)]
  let s3 := if lost then s2.inc (aRegion r 1) 15 8 else s2
  (s3.fset (aRegion r 2) 4 0 (min 16 (s2.fget (aRegion r 2) 4 0 + 1))).remapNote r kind addr (s.logHolds r addr)

/-- The number of wrong bits of a stored word. -/
def BadWord.count (b : BadWord) : Nat :=
  ((List.range 24).filter fun i => b.dmask.getLsbD i).length + ((List.range 6).filter fun i => b.cmask.getLsbD i).length

/-- The place of a single wrong bit: 0 to 23 data, 24 to 29 check. -/
def BadWord.place (b : BadWord) : Nat :=
  ((List.range 24).find? fun i => b.dmask.getLsbD i).getD (24 + ((List.range 6).find? fun i => b.cmask.getLsbD i).getD 0)

/-- The wrong word recorded at a region address. -/
def State.badAt (s : State) (r a : Nat) : Option BadWord := s.repair.bad.find? fun b => b.region == r && b.addr == a

/-- A region address holds good bits again. -/
def State.healWord (s : State) (r a : Nat) : State :=
  { s with repair := { s.repair with bad := s.repair.bad.filter fun b => !(b.region == r && b.addr == a) } }

/-- Words of a page that the word code cannot correct (R275). -/
def State.erasures (s : State) (r page : Nat) : Nat :=
  (s.repair.bad.filter fun b => b.region == r && b.addr / 256 == page && decide (2 ≤ b.count)).length

/-- A word of a region is read: what its codes find (R274, R275, R278), counted and logged. The answer says whether it is
uncorrectable. -/
def State.readCheck (s : State) (r a : Nat) (e : MemErr) : State × Bool :=
  match e with
  | .single b => (s.logError r 1 a b.val, false)
  | .rebuilt => (s.logError r 2 a 31, false)
  | .uncorrectable => (s.logError r 3 a 31, true)
  | .clean =>
    match s.badAt r a with
    | none => (s, false)
    | some b =>
      if b.count ≤ 1 then (s.logError r 1 a b.place, false)
      else if s.erasures r (a / 256) ≤ 4 then ((s.healWord r a).logError r 2 a 31, false)
      else (s.logError r 3 a 31, true)

/-- A wrong word takes its place in a list by ascending region and address. -/
def insertBad (b : BadWord) : List BadWord → List BadWord
  | [] => [b]
  | x :: t => if b.region < x.region ∨ (b.region = x.region ∧ b.addr ≤ x.addr) then b :: x :: t else x :: insertBad b t

/-- The recorded wrong words that p selects, by ascending region and address: the order in which one step that finds several logs
them (R279). -/
def State.badIn (s : State) (p : BadWord → Bool) : List BadWord := (s.repair.bad.filter p).foldr insertBad []

/-- Wrong words are read through their codes. The answer says whether one is uncorrectable. -/
def State.readBad (s : State) (bad : List BadWord) : State × Bool :=
  bad.foldl (fun (acc : State × Bool) b =>
    let (t, lost) := acc.1.readCheck b.region b.addr .clean
    (t, acc.2 || lost)) (s, false)

/-- A word of a region is written: its bits are good, unless a flip is armed for it (R281). -/
def State.writeFlip (s : State) (r a : Nat) : State :=
  let s1 := s.healWord r a
  if s.bget (aRegion r 3) 23 && s.fget (aRegion r 3) 21 0 == a then
    let b : BadWord := { region := r, addr := a, dmask := s.rd (aRegion r 4), cmask := BitVec.ofNat 6 (s.fget (aRegion r 5) 5 0) }
    let s2 := s1.bset (aRegion r 3) 23 false
    if b.count = 0 then s2 else { s2 with repair := { s2.repair with bad := b :: s2.repair.bad } }
  else s1

/-- Region addresses, in region 24, of the tag store's word of tag n of channel c and of the link buffer's word of copy n; the layout is the
model's (log entry 135). -/
def tagWord (c n : Nat) : Nat := 0x3000 + 0x200 * c + n
def linkWord (n : Nat) : Nat := 0x4000 + n

/-- A word of region 24 is written and read as a unit passes: a flip armed for it takes effect, and its codes look at it (R281, R283). The
answer says whether it is uncorrectable. -/
def State.passWord (s : State) (a : Nat) : State × Bool := (s.writeFlip 24 a).readCheck 24 a .clean

/-! ### Remaps (R282) -/

/-- Remap entries in use in a group of 4,096 words. -/
def State.remapsIn (s : State) (r g : Nat) : Nat :=
  (s.repair.remaps.filter fun m => m.region == r && m.group == g).length

/-- Region address of word w of entry i of head h's queue (region 22; log entry 29). -/
def queueWord (h i w : Nat) : Nat := (h * 1024 + i) * 4 + w

/-- First region address of the composed-line buffer that line k of head h uses (region 23; log entry 29). -/
def lineBuf (h k : Nat) : Nat := 4096 * (8 * h + k % 8)

/-- Words of an engine's tile cache, 11 for each of its 4,096 lines of 32 bytes (R20, R274); its line buffer follows (log entry 135). -/
def cacheWords : Nat := 11 * 4096

/-- Word i of a queue entry reads as zero. -/
def QEntry.wordOff (e : QEntry) (i : Nat) : QEntry :=
  match i with
  | 0 => { e with w0 := 0 }
  | 1 => { e with w1 := 0 }
  | 2 => { e with w2 := 0 }
  | _ => { e with w3 := 0 }

/-- Bytes p to p + n − 1 of what a cache holds, in its order, read as zero. -/
def cacheOff (p n : Nat) : List ((Nat × Nat × Nat × Nat × Nat) × List Byte) → List ((Nat × Nat × Nat × Nat × Nat) × List Byte)
  | [] => []
  | e :: t =>
    if p < e.2.length then (e.1, e.2.take p ++ List.replicate (min n (e.2.length - p)) 0 ++ e.2.drop (p + n)) :: t
    else e :: cacheOff (p - e.2.length) n t

/-- Column x of the line that engine e draws reads as zero. -/
def HeadSt.pixelOff (v : HeadSt) (e x : Nat) : HeadSt :=
  { v with lines := v.lines.map fun w => { w with slots := w.slots.map fun (q : SlotLine) =>
    if q.work.eng = e then { q with px := q.px.zipIdx.map fun c => if c.2 = x then { r := 0, g := 0, b := 0, a := 0 } else c.1 } else q } }

/-- A word of a region loses its valid bit: it reads as zero (R277, R282). The tag stores and link buffers of region 24 hold nothing between
units. -/
def State.invalidate (s : State) (r a : Nat) : State :=
  match regionAddr r a with
  | some w => s.wr w 0
  | none =>
    if r = 19 then s.larkPut (3 * a) [0, 0, 0]
    else if r = 22 then
      s.modHead (Fin.ofNat 8 (a / 4096)) fun x =>
        { x with queue := x.queue.map fun (e : QEntry) => if e.idx = a / 4 % 1024 then e.wordOff (a % 4) else e }
    else if r = 23 then
      s.modHead (Fin.ofNat 8 (a / 32768)) fun x =>
        { x with composed := x.composed.map fun e => if e.1 % 8 = a / 4096 % 8 then (e.1, setNth e.2 (a % 4096) 0) else e }
    else if h : r < 16 then s.modPad ⟨r, h⟩ fun p => { p with bm := spSet zeroW p.bm a 0 }
    else if 25 ≤ r then
      if a < cacheWords then
        { s with engines := vmod s.engines (Fin.ofNat 66 (r - 25)) fun e =>
          { e with cache := cacheOff (32 * (a / 11) + 3 * (a % 11)) (min 3 (32 - 3 * (a % 11))) e.cache } }
      else { s with heads := s.heads.map fun v => v.pixelOff (r - 25) (a - cacheWords) }
    else s

/-- A write of REMAP.GO: the word moves to a free spare, or the request is refused. Caeruno has no more to do for it. -/
def State.remapWord (s0 : State) (r a : Nat) : State :=
  let undue := fun (t : State) => ({ t with repair := { t.repair with due := t.repair.due.filter fun e => e != (r, a) } } : State)
  let s := undue s0
  let g := a / 4096
  let used := s.remapsIn r g
  if 16 ≤ used then (s.inc (aRegion r 1) 7 0).evIntegrity
  else
    let (s1, lost) := s.readCheck r a .clean
    let s2 := undue (if lost then s1.invalidate r a else s1)
    let s3 := s2.healWord r a
    let s4 : State := { s3 with repair := { s3.repair with
      remaps := s3.repair.remaps ++ [{ region := r, group := g, spare := used, word := a % 4096 }] } }
    let all := s4.repair.remaps.filter fun m => m.region == r
    let full := (all.map (·.group)).eraseDups.filter fun x => decide (16 ≤ s4.remapsIn r x)
    let s5 := (s4.fset (aRegion r 7) 23 12 all.length).fset (aRegion r 7) 11 0 full.length
    (s5.appendRecord [wd (3 * 2 ^ 20 + r * 2 ^ 13 + g % 256), wd (used * 2 ^ 12 + a % 4096)] false).ledgerInc 15

/-- Caeruno remaps the oldest address that it is to remap: it runs, awake, and the checkers have been tested (R281, R282; log entry 99). -/
def State.remapDue (s : State) : State :=
  match s.repair.due with
  | [] => s
  | (r, a) :: _ =>
    if (s.start == .checked || s.start == .up) && (s.coreServes 0 || s.coreServes 1) then s.remapWord r a else s

end Sys2Proof.Machine
end

