-- ==== Sys2Proof/Machine/Beam.lean ====
section
/-! DEFINITION. Raster arithmetic of a head (02_beam_time.md), its start check, line deadlines, the tap setting of a line,
and the signature unit's accumulation and records (05_composition_output.md). -/

namespace Sys2Proof.Machine

/-- The full number of the frame of a record, from an epoch of its head read after it (R396). -/
def fullFrame (e : BitVec 48) (frame : Word) : BitVec 48 := e - (e.setWidth 24 - frame).setWidth 48

/-- Raster parameters, in quads and lines (R24). -/
structure Raster where
  htotal : Nat
  hact : Nat
  hss : Nat
  hsw : Nat
  vtotal : Nat
  vact : Nat
  vss : Nat
  vsw : Nat

/-- Register 0x00 to 0x08 of a head as its raster uses it: a raster that ends its last line keeps the values it ran with,
whatever is written once RUN is 0 (R28, R31). -/
def State.setup (s : State) (h off : Nat) : Word :=
  let x := s.heads[Fin.ofNat 8 h]
  if x.phase = .stopping then x.held[Fin.ofNat 9 off] else s.rd (aHead h off)

/-- The raster parameters a head's registers hold. -/
def State.raster (s : State) (h : Nat) : Raster :=
  let w := s.setup h
  { htotal := fld (w 2) 23 12, hact := fld (w 2) 11 0, hss := fld (w 3) 23 12, hsw := fld (w 3) 11 0
    vtotal := fld (w 4) 23 12, vact := fld (w 4) 11 0, vss := fld (w 5) 23 12, vsw := fld (w 5) 11 0 }

/-- The packed beam word (R5). -/
def packBeam (line quad : Nat) : Word := wd (line * 4096 + quad % 4096)

/-- Present line of a head. -/
def State.posLine (s : State) (h : Nat) : Nat := s.fget (aHead h 9) 23 12
/-- Present quad of a head. -/
def State.posQuad (s : State) (h : Nat) : Nat := s.fget (aHead h 9) 11 0
/-- The beam moves to a position. -/
def State.setPos (s : State) (h line quad : Nat) : State := s.wr (aHead h 9) (packBeam line quad)

/-- The epoch of a head (R6). -/
def State.epoch (s : State) (h : Nat) : BitVec 48 :=
  let x := s.heads[Fin.ofNat 8 h]
  if x.phase = .stopping then x.heldEpoch else s.rd (aHead h 0x0B) ++ s.rd (aHead h 0x0A)
/-- EPOCHL and EPOCHH take an epoch. -/
def State.setEpoch (s : State) (h : Nat) (e : BitVec 48) : State :=
  (s.wr (aHead h 0x0A) (e.setWidth 24)).wr (aHead h 0x0B) ((e >>> 24).setWidth 24)

/-- Quads of a frame. -/
def Raster.frame (r : Raster) : Nat := r.htotal * r.vtotal

/-- SYNCMODE. -/
def State.syncMode (s : State) (h : Nat) : Nat := fld (s.setup h 0) 21 20
/-- MASTER. -/
def State.masterOf (s : State) (h : Nat) : Nat := fld (s.setup h 0) 19 17

/-- The VCO multiplier in units of 2^-24 of 25 MHz. -/
def State.vcoX (s : State) (h : Nat) : Nat := fld (s.setup h 6) 23 16 * 2 ^ 24 + (s.setup h 7).toNat
/-- PDIV. -/
def State.pdiv (s : State) (h : Nat) : Nat := fld (s.setup h 6) 15 8

/-- NINT, PDIV, VCO and video clock lie within R13 and R27. -/
def State.pllOk (s : State) (h : Nat) : Bool :=
  let x := s.vcoX h
  let d := s.pdiv h
  let n := s.fget (aHead h 6) 23 16
  decide (80 ≤ n ∧ n ≤ 176 ∧ 1 ≤ d ∧ d ≤ 88 ∧ 80 * 2 ^ 24 ≤ x ∧ x ≤ 176 * 2 ^ 24
    ∧ 2 * d * 2 ^ 24 ≤ x ∧ 25 * x ≤ 2160 * d * 2 ^ 24)

/-- PHASE lies outside the raster it refers to, in a locked mode (CFGERR 0x8). -/
def State.phaseBad (s : State) (h : Nat) : Bool :=
  let r := s.raster (if s.syncMode h = 3 then h else s.masterOf h)
  s.syncMode h != 0 && decide (r.vtotal ≤ s.fget (aHead h 8) 23 12 ∨ r.htotal ≤ s.fget (aHead h 8) 11 0)

/-- The code of the lowest-numbered failure of a start (R26, R27, R30), 0 when every check passes. -/
def State.startCode (s : State) (h : Nat) : Nat :=
  let r := s.raster h
  let m := s.masterOf h
  let slave := s.syncMode h == 1 || s.syncMode h == 2
  if r.htotal < r.hact + 16 ∨ 4095 < r.htotal ∨ r.vtotal < r.vact + 3 ∨ r.vtotal < 16 ∨ 4095 < r.vtotal then 1
  else if r.hact < 1 ∨ 1024 < r.hact ∨ r.vact < 1 ∨ 4079 < r.vact then 2
  else if r.hss < r.hact + 1 ∨ r.htotal - 1 < r.hss + r.hsw ∨ r.hsw < 1 ∨ r.vss < r.vact + 1
    ∨ r.vtotal - 1 < r.vss + r.vsw ∨ r.vsw < 1 then 3
  else if !s.pllOk h then 4
  else if slave && (m == h || !s.running m || s.syncMode m == 1 || s.syncMode m == 2) then 5
  else if s.syncMode h == 1 && (r.htotal != (s.raster m).htotal || r.vtotal != (s.raster m).vtotal
    || s.fget (aHead h 6) 23 8 != s.fget (aHead m 6) 23 8 || s.rd (aHead h 7) != s.rd (aHead m 7)) then 6
  else if s.phaseBad h then 8
  else 0

/-- The lead window that LEAD holds. -/
def State.leadReg (s : State) (h : Nat) : Nat := s.fget (aHead h 0) 14 12 + 1

/-- LEADPEND follows LEAD and the window in force; a head whose raster has not begun adopts LEAD at once (R40). -/
def State.leadTrack (s : State) (h : Head) : State :=
  let l := s.leadReg h.val
  if s.heads[h].phase = .stopped ∨ s.heads[h].phase = .starting then (s.modHead h fun x => { x with lead := l }).bset (aHead h.val 1) 20 false
  else s.bset (aHead h.val 1) 20 (l != s.heads[h].lead)

/-- The line that becomes due at the present beam line (R39). -/
def State.dueLine (s : State) (h : Head) : Nat :=
  (s.posLine h.val + s.heads[h].lead) % max 1 (s.raster h.val).vtotal

/-- The tap setting that governs line k, the line being in this frame or the next (R104). -/
def State.tapFor (s : State) (h : Head) (k : Nat) : TapSet :=
  if s.posLine h.val ≤ k then s.heads[h].tap
  else s.heads[h].tapNext.getD s.heads[h].tap

/-- What the frame in which line k is displayed has raised, this frame or the next. -/
def State.raisedBy (s : State) (h : Head) (k : Nat) : Raised :=
  if s.posLine h.val ≤ k then s.heads[h].fr.raised else s.heads[h].fr.raisedAhead

/-- That frame takes what it has raised. -/
def State.setRaised (s : State) (h : Head) (k : Nat) (r : Raised) : State :=
  s.modHead h fun x =>
    { x with fr := if s.posLine h.val ≤ k then { x.fr with raised := r } else { x.fr with raisedAhead := r } }

/-- Line k belongs to a frame in Dim, in this frame or the next (R366). -/
def State.dimFor (s : State) (h : Head) (k : Nat) : Bool :=
  if s.posLine h.val ≤ k then s.heads[h].dimFrame else s.heads[h].dimLatch

/-- Quads from the present position to quad 0 of line k, at the latest one frame ahead. -/
def State.quadsTo (s : State) (h k : Nat) : Nat :=
  let r := s.raster h
  (k * r.htotal + r.frame - (s.posLine h * r.htotal + s.posQuad h)) % max 1 r.frame

/-- Quads from the present position to the next frame boundary of head h: a whole frame once its FRAME strobe has been given at
line 0, quad 0.0. -/
def State.quadsToFrame (s : State) (h : Head) : Nat :=
  if s.posLine h.val = 0 ∧ s.posQuad h.val = 0 ∧ s.heads[h].strobed.getLsbD 1 = true then (s.raster h.val).frame else s.quadsTo h.val 0

/-- D of R100 for line k. -/
def State.deadlineLead (s : State) (h : Head) (k : Nat) : Nat :=
  let t := s.tapFor h k
  if t.en then t.lat + 16 else 16

/-- SCLK cycles that a number of quads takes. -/
def State.quadCycles (s : State) (h q : Nat) : Nat := q * 192 * s.pdiv h * 2 ^ 24 / max 1 (s.vcoX h)

/-- The SCLK count at line k's deadline (R100). -/
def State.deadlineOf (s : State) (h : Head) (k : Nat) : Nat :=
  s.sclk + s.quadCycles h.val (s.quadsTo h.val k - s.deadlineLead h k)

/-- Line k's deadline has come: no more than D quads remain to it. -/
def State.deadlinePassed (s : State) (h : Head) (k : Nat) : Bool :=
  decide (s.quadsTo h.val k ≤ s.deadlineLead h k) || decide (s.posLine h.val = k)

/-! ### The signature unit -/

/-- The composed line k of a head: composed, or the backdrop of a start (R39). -/
def State.outLine (s : State) (h : Head) (k : Nat) : List Word :=
  match s.heads[h].composed.find? fun e => e.1 == k with
  | some e => e.2
  | none =>
    let c := if s.heads[h].first && decide (k ≤ s.heads[h].lead) then s.heads[h].startBack else s.rd (aHead h.val 0x1C)
    List.replicate (4 * (s.raster h.val).hact) c

/-- The output sends 6-bit components (R109). -/
def State.sixBit (s : State) (h : Nat) : Bool :=
  if s.bget (aHead h 0x30) 22 then s.bget (aHead h 0x33) 18 else s.bget (aHead h 0x32) 18

/-- The head's active dots leave as 0x000000: BLANK, or a frame in Dim (R109, R367). -/
def State.blanked (s : State) (h : Head) : Bool := s.heads[h].blank || s.heads[h].dimFrame

/-- A dot as the encoder sends it. -/
def State.sentDot (s : State) (h : Head) (w : Word) : Word :=
  if s.blanked h then 0 else if s.sixBit h.val then w &&& 0xFCFCFC else w

/-- The bytes of a dot in the order R, G, B. -/
def dotBytes (w : Word) : List Byte := bytesBE 3 w.toNat

/-- A dot at column x of line y lies in region i of the latched words (R110). -/
def inRegion (regions : List Word) (i x y : Nat) : Bool :=
  let a := nth 0 regions (2 * i)
  let b := nth 0 regions (2 * i + 1)
  decide (fld a 23 12 ≤ x ∧ x ≤ fld a 11 0 ∧ fld b 23 12 ≤ y ∧ y ≤ fld b 11 0)

/-- A region of a head's active raster covers no dot. -/
def emptyRegion (r : Raster) (regions : List Word) (i : Nat) : Bool :=
  let a := nth 0 regions (2 * i)
  let b := nth 0 regions (2 * i + 1)
  decide (fld a 11 0 < fld a 23 12 ∨ fld b 11 0 < fld b 23 12 ∨ 4 * r.hact ≤ fld a 23 12 ∨ r.vact ≤ fld b 23 12)

/-- A dot is folded into the frame check and every region that holds it (R109, R110). -/
def foldDot (x y : Nat) (g : SigAcc) (w : Word) : SigAcc :=
  let b := dotBytes w
  { g with fcrc := crc32cFeed g.fcrc b, lineOut := crc32cFeed g.lineOut b, lineSig := crc32cFeed g.lineSig b,
           rcrc := (g.rcrc.zipIdx).map fun e =>
             if g.regmask.getLsbD e.2 && inRegion g.regions e.2 x y then crc32cFeed e.1 b else e.1 }

/-- FLAGS bit n of the frame in progress is set. -/
def SigAcc.setFlag (g : SigAcc) (n : Nat) : SigAcc := { g with flags := g.flags ||| (1 <<< n) }

/-- FLAGS bit n of a head's frame in progress, while its record is open. -/
def State.sigFlag (s : State) (h : Head) (n : Nat) : State :=
  s.modHead h fun x => if x.sig.isOpen then { x with sig := x.sig.setFlag n } else x

/-- The record of a new frame opens: REGEN and region words are latched (R110), keying mode taken (R112). -/
def State.openRecord (s : State) (h : Head) (keyed firstFrame : Bool) : State :=
  s.modHead h fun x => { x with
    sig := { isOpen := true, frame := (s.epoch h.val).setWidth 24, flags := (if firstFrame then 0x100 else 0) ||| (if x.missAhead = 0 then 0 else 1),
             misses := x.missAhead,
             taplines := 0, regmask := (s.rd (aHead h.val 0x34)).setWidth 16,
             regions := spRead wsReset s.ws (aSigRegion h.val 0) 32, keyed := keyed, fcrc := crc32cInit,
             rcrc := List.replicate 16 crc32cInit, lineOut := crc32cInit, lineSig := crc32cInit }
    fr := { x.fr with raised := x.fr.raisedAhead, raisedAhead := Raised.none, missRaised := x.missAhead != 0, tapRaised := false }
    missAhead := 0
    lineBad := false }

/-- Causes of R295 in the bits of ledger words 6 to 11, unplanned ones, but for a record that is late; and whether a planned one applies. -/
def State.frameCauses (s : State) (h : Head) (flags : BitVec 16) (shortPlanned : Bool) : BitVec 6 × Bool :=
  let x := s.heads[h]
  let tapPlanned := match (List.finRange 16).find? fun (p : Pad) => p.val == x.tap.pad with
    | some p => s.pads[p].planned
    | none => false
  let c : BitVec 6 := (if flags.getLsbD 0 then 1 else 0) ||| (if x.lineBad then 4 else 0)
    ||| (if flags.getLsbD 1 || flags.getLsbD 5 then 8 else 0)
    ||| (if (flags.getLsbD 2 && !shortPlanned) || (flags.getLsbD 3 && !tapPlanned) then 16 else 0)
  (c, (flags.getLsbD 2 && shortPlanned) || (flags.getLsbD 3 && tapPlanned))

/-- The frame's record closes (R113); a SHORT frame's flags say so. -/
def State.closeRecord (s : State) (h : Head) (short planned : Bool) : State :=
  let x := s.heads[h]
  if !x.sig.isOpen then s
  else
    let g := if short then x.sig.setFlag 2 else x.sig
    let r := s.raster h.val
    let rec1 : SigRec :=
      { frame := g.frame, flags := g.flags, misses := g.misses, regmask := g.regmask
        taplines := g.taplines, fcrc := crc32cEnd g.fcrc
        rcrc := (g.rcrc.zipIdx).map fun e =>
        if g.regmask.getLsbD e.2 && !emptyRegion r g.regions e.2 then crc32cEnd e.1 else 0
        keyed := g.keyed, due := s.sclk + 1024, ended := false }
    let (c, p) := s.frameCauses h g.flags planned
    s.modHead h fun y =>
      { y with
        sig := { g with isOpen := false }
        closed := y.closed ++ [rec1]
        ledCause := y.ledCause ||| c
        ledPlanned := y.ledPlanned || p }

/-- A record has missed the time that R113 allows. -/
def State.recordLate (s : State) (r : SigRec) : Bool := decide (r.due < s.sclk)

/-- A millisecond that awaits a record does so no longer; a late one is a cause. -/
def MsRec.settle (m : MsRec) (k : Nat × Word) (late : Bool) : MsRec :=
  if m.recs.contains k then { m with recs := m.recs.filter (· != k), cause := m.cause ||| (if late then 2 else 0) } else m

/-- The record of an ended frame is awaited no longer; if it is late, the milliseconds that the frame overlapped take that cause (R295). -/
def State.recordSettled (s : State) (h : Head) (r : SigRec) : State :=
  { s with cae := { s.cae with msOpen := s.cae.msOpen.map fun m => m.settle (h.val, r.frame) (s.recordLate r) } }

/-- Late records of ended frames of a head are awaited no longer. -/
def State.recordsLate (s : State) (h : Head) : State :=
  (s.heads[h].closed.filter fun r => r.ended && s.recordLate r).foldl (fun (t : State) r => t.recordSettled h r) s

/-- The ledger learns that a head's frame has ended: every open millisecond that it overlapped takes its causes, and waits for the frame's
record if that is not written yet (R294, R295). -/
def State.endFrame (s : State) (h : Head) : State :=
  let x := s.heads[h]
  let open1 := x.closed.filter fun r => !r.ended
  let keys := (open1.filter fun r => !s.recordLate r).map fun r => (h.val, r.frame)
  let cause : BitVec 6 := x.ledCause ||| (if open1.any s.recordLate then 2 else 0)
  let f (m : MsRec) : MsRec :=
    if m.wait.getLsbD h.val then
      { m with
        wait := m.wait &&& ~~~((1 : BitVec 8) <<< h.val), recs := m.recs ++ keys, cause := m.cause ||| cause
        planned := m.planned || x.ledPlanned }
    else m
  ({ s with cae := { s.cae with msOpen := s.cae.msOpen.map f } } : State).modHead h fun y =>
    { y with ledCause := 0, ledPlanned := false, closed := y.closed.map fun r => { r with ended := true } }

/-- The millisecond in progress overlaps a head's new frame. -/
def State.beginFrame (s : State) (h : Head) : State :=
  if s.heads[h].configured then
    { s with cae := { s.cae with msOpen := match s.cae.msOpen.reverse with
      | m :: t => ({ m with wait := m.wait ||| ((1 : BitVec 8) <<< h.val) } :: t).reverse
      | [] => [] } }
  else s

/-- The 80 bytes of a record that MAC covers (R111). -/
def SigRec.head80 (r : SigRec) (h : Nat) (keyed : Bool) : List Byte :=
  bytesLE 3 r.frame.toNat ++ [BitVec.ofNat 8 h] ++ bytesLE 2 (r.flags ||| (if keyed then 16 else 0)).toNat
    ++ bytesLE 2 (min 65535 r.misses) ++ bytesLE 2 r.regmask.toNat ++ bytesLE 2 (min 65535 r.taplines)
    ++ bytesLE 4 r.fcrc.toNat ++ (r.rcrc.map fun c => bytesLE 4 c.toNat).flatten

/-- The device attestation key (R195). -/
def attestKey (drk : List Byte) : List Byte := kdf drk "KZ-ATTEST" []

/-- The 40 words of a record, with its MAC when keyed (R111, R112). -/
def SigRec.words (r : SigRec) (h : Nat) (drk : List Byte) : List Word :=
  let b := r.head80 h r.keyed
  wordsOfBytes (b ++ (if r.keyed then hmacSha256 (attestKey drk) b else List.replicate 32 0) ++ List.replicate 8 0)

/-- The oldest closed record is written to the ring, and the signature event raised (R113, R114). -/
def State.writeRecord (s : State) (h : Head) : State :=
  match s.heads[h].closed with
  | [] => s
  | r :: rest =>
    let a := aHead h.val 0x35
    let w := s.fget a 23 21
    let rd := s.fget a 20 18
    let full := (w + 8 - rd) % 8 == 7
    let s1 := if full then (s.fset a 20 18 ((rd + 1) % 8)).inc a 7 0 else s
    let n := (w + 1) % 8
    let s2 := s1.fset a 23 21 n
    let s3 : State := { s2 with ws := spWrite wsReset s2.ws (aRing h.val (0x40 * n)) (r.words h.val s.fuses.drk) }
    let s4 := s3.modHead h fun x =>
      { x with closed := rest, ledCause := if !r.ended && s.recordLate r then x.ledCause ||| 2 else x.ledCause }
    (if r.ended then s4.recordSettled h r else s4).evSig h.val

end Sys2Proof.Machine
end

