-- ==== Sys2Proof/Machine/Queue.lean ====
section
/-! DEFINITION. The beam action queue: posting, cancelling, lateness and due entries (R42 to R47, R403), and the post
ports. What an issued entry does is in Machine/Actions.lean. -/

namespace Sys2Proof.Machine

/-- TYPE of an entry. -/
def QEntry.type (e : QEntry) : Nat := fld e.w1 23 20
/-- The entry is render-aligned. -/
def QEntry.tb (e : QEntry) : Bool := bit e.w1 19
/-- FMODE. -/
def QEntry.fmode (e : QEntry) : Nat := fld e.w1 18 17
/-- LATE. -/
def QEntry.lateBit (e : QEntry) : Bool := bit e.w1 16
/-- FRAME. -/
def QEntry.frame (e : QEntry) : Nat := fld e.w1 15 0
/-- LINE. -/
def QEntry.line (e : QEntry) : Nat := fld e.w0 23 12
/-- QUAD. -/
def QEntry.quad (e : QEntry) : Nat := fld e.w0 11 0

/-- Type, operation code or an unused bit of TARGET or VALUE is refused, or TARGET names no resource (R42). -/
def badType (e : QEntry) : Bool :=
  let t := e.w2.toNat
  let v := e.w3.toNat
  match e.type with
  | 0 => false
  | 1 => false
  | 2 => decide (256 ≤ t) || v != 0
  | 3 => decide (256 ≤ t ∨ 3 ≤ v)
  | 4 => decide (16 ≤ t ∨ 3 ≤ v)
  | 5 => decide (4096 ≤ t ∨ nbits t 7 5 ≠ 0 ∨ 11 < nbits t 11 8 ∨ 23 < nbits t 4 0 ∨ 3 ≤ v)
  | 6 => decide (256 ≤ t)
  | 7 => decide (16 ≤ t ∨ 64 ≤ v)
  | _ => true

/-- BADPOS: the position lies outside the raster the registers hold, or the alignment or FMODE is not allowed. -/
def State.badPos (s : State) (h : Nat) (e : QEntry) : Bool :=
  let r := s.raster h
  decide (r.vtotal ≤ e.line ∨ r.htotal ≤ e.quad) || (e.tb && e.quad != 0) || (e.tb && !(e.type == 1 || e.type == 2))
    || e.fmode == 3

/-- The right of R403 that an entry of head h needs, held by its requester now. -/
def State.actionRight (s : State) (h : Nat) (e : QEntry) : Bool :=
  let r := e.req
  let t := e.w2.toNat
  let padTarget := fun p => !s.padOff p && (r == .paddock (Fin.ofNat 16 p) || s.right r 3 p)
  !s.headOff h && match e.type with
  | 0 => s.right r 0 h
  | 1 => beamWritable (locOf t) && !s.locOff (locOf t) && s.mayWrite r (locOf t)
  | 2 => s.right r 0 h
  | 3 => s.right r 2 (t / 16)
  | 4 => s.right r 4 t
  | 5 => s.ownsPin r (nbits t 11 8) (nbits t 4 0)
  | 6 => padTarget (nbits t 3 0)
  | 7 => padTarget (nbits t 3 0) && !(r == .debug && decide (3 ≤ s.level))
  | _ => false

/-- The beam line at which an entry's execution instant X falls. -/
def State.xLine (s : State) (h : Head) (e : QEntry) : Nat :=
  let v := (s.raster h.val).vtotal
  if e.tb then (e.line + v - (s.heads[h].lead + 1)) % max 1 v else e.line

/-- X of a render-aligned entry falls in the frame before the one it names. -/
def State.xBefore (s : State) (h : Head) (e : QEntry) : Bool := e.tb && decide (e.line ≤ s.heads[h].lead)

/-- An EPOCH entry's X lies in the frame in progress. -/
def State.xThisFrame (s : State) (h : Head) (e : QEntry) : Bool :=
  e.frame == ((s.epoch h.val).toNat + (if s.xBefore h e then 1 else 0)) % 65536

/-- X is the position (line, quad) of the frame in progress (R45). -/
def State.dueAt (s : State) (h : Head) (e : QEntry) (line quad : Nat) : Bool :=
  s.xLine h e == line && e.quad == quad && (e.fmode != 1 || s.xThisFrame h e)

/-- An EPOCH entry is late (R46): its frame is past, or X of the frame in progress has passed. X at the present position has
passed for an entry just posted, and not for one that waited for it. -/
def State.epochLate (s : State) (h : Head) (posted : Bool) (e : QEntry) : Bool :=
  let r := s.raster h.val
  let x := s.xLine h e * r.htotal + e.quad
  let b := s.posLine h.val * r.htotal + s.posQuad h.val
  e.fmode == 1 && (decide (32768 ≤ (e.frame + 65536 - (s.epoch h.val).toNat % 65536) % 65536) ||
    (s.xThisFrame h e && (decide (x < b) || (posted && x == b))) ||
    (s.xBefore h e && e.frame == (s.epoch h.val).toNat % 65536))

/-- QCOUNT follows the queue. -/
def State.setQueue (s : State) (h : Head) (q : List QEntry) : State :=
  (s.modHead h fun x => { x with queue := q }).fset (aHead h.val 0x0C) 10 0 q.length

/-- An entry leaves the queue and every due list. -/
def State.dropEntry (s : State) (h : Head) (idx : Nat) : State :=
  (s.setQueue h (s.heads[h].queue.filter fun e => e.idx != idx)).modHead h fun x =>
    { x with
      dueBeam := x.dueBeam.filter (· != idx)
      dueRender := x.dueRender.filter (· != idx)
      dueLate := x.dueLate.filter (· != idx) }

/-- One late execution is counted; LATE = 1 lets it issue at the first free cycle, LATE = 0 skips it (R46). -/
def State.lateOne (s : State) (h : Head) (e : QEntry) : State :=
  let s1 := s.inc (aHead h.val 0x0D) 23 16
  if e.lateBit then s1.modHead h fun x => { x with dueLate := x.dueLate ++ [e.idx] }
  else if e.fmode = 2 then s1 else s1.dropEntry h e.idx

/-- Entries found late are handled in post order, and the beam-queue event is raised once. -/
def State.lateAll (s : State) (h : Head) (es : List QEntry) : State :=
  if es.isEmpty then s else (es.foldl (fun (t : State) e => t.lateOne h e) s).evHead h.val 1

/-- EPOCH entries that have become late at a frame boundary, and are not already waiting to issue. -/
def State.sweepLate (s : State) (h : Head) : State :=
  let x := s.heads[h]
  s.lateAll h (x.queue.filter fun e => s.epochLate h false e && !x.dueBeam.contains e.idx && !x.dueRender.contains e.idx
    && !x.dueLate.contains e.idx)

/-- An entry posted while the raster moves may be late already. -/
def State.postLate (s : State) (h : Head) (e : QEntry) : State :=
  if s.running h.val && s.epochLate h true e then s.lateAll h [e] else s

/-- Entries are discarded and counted in FLUSHED (R30, R31). -/
def State.flush (s : State) (h : Head) (keep : QEntry → Bool) : State :=
  let gone := s.heads[h].queue.filter fun e => !keep e
  if gone.isEmpty then s
  else
    let s1 := (gone.foldl (fun (t : State) e => t.dropEntry h e.idx) s).incN (aHead h.val 0x0D) 7 0 gone.length
    s1.evHead h.val 1

/-- The lowest free entry index. -/
def freeIdx (q : List QEntry) : Nat := ((List.range 1024).find? fun i => !(q.any fun e => e.idx == i)).getD 0

/-- The code with which a post is refused, 0 when accepted (R43). -/
def State.postCode (s : State) (h : Head) (e : QEntry) : Nat :=
  let q := s.heads[h].queue
  if badType e then 3
  else if s.headOff h.val then 5
  else if s.badPos h.val e then 4
  else if !s.actionRight h.val e then 5
  else if 1024 ≤ q.length then 1
  else if e.tb && decide (256 ≤ (q.filter fun x => x.tb && x.line == e.line && x.fmode == e.fmode).length) then 2
  else 0

/-- The words of an entry are read for its execution: what their codes find (R283). -/
def State.entryCheck (s : State) (h : Head) (i : Nat) : State × Bool :=
  (List.range 4).foldl (fun (acc : State × Bool) w =>
    match acc.1.badAt 22 (queueWord h.val i w) with
    | none => acc
    | some _ =>
      let (t, lost) := acc.1.readCheck 22 (queueWord h.val i w) .clean
      (t, acc.2 || lost)) (s, false)

/-- A post: its QP_STATUS word and its effect (R43, R44). -/
def State.post (s : State) (r : Requester) (h : Head) (w0 w1 w2 w3 : Word) : State × Word :=
  let e0 : QEntry := { idx := 0, gen := 0, w0 := w0, w1 := w1, w2 := w2, w3 := w3, req := r }
  let code := s.postCode h e0
  if code ≠ 0 then ((if code = 1 then s.evHead h.val 1 else s), wd (code * 2 ^ 21))
  else
    let x := s.heads[h]
    let i := freeIdx x.queue
    let g := (spGet (fun _ => 0) x.gens i + 1) % 256
    let e : QEntry := { e0 with idx := i, gen := g }
    let s0 := (s.setQueue h (x.queue ++ [e])).modHead h fun y => { y with gens := spSet (fun _ => 0) y.gens i g }
    let s1 := (List.range 4).foldl (fun (t : State) w => t.writeFlip 22 (queueWord h.val i w)) s0
    (s1.postLate h e, wd (h.val * 2 ^ 18 + g * 2 ^ 10 + i))

/-- A cancel: its QP_STATUS word and its effect (R44). -/
def State.cancel (s : State) (r : Requester) (h : Head) (handle : Word) : State × Word :=
  match s.heads[h].queue.find? fun e => e.idx == fld handle 9 0 && e.gen == fld handle 17 10 with
  | none => (s, wd (7 * 2 ^ 21))
  | some e =>
    if fld handle 20 18 ≠ h.val then (s, wd (7 * 2 ^ 21))
    else if !s.actionRight h.val { e with req := r } then (s, wd (5 * 2 ^ 21))
    else (s.dropEntry h e.idx, wd (6 * 2 ^ 21))

/-! ### The post ports -/

/-- The post port of a requester: W0, W1 or the debug master. -/
def portOf : Requester → Option (Fin 3)
  | .core k _ => some ⟨k.val, by omega⟩
  | .debug => some 2
  | _ => none

/-- A port's head. -/
def PostPort.hd (p : PostPort) : Head := Fin.ofNat 8 p.head

/-- A write to a post port register (w:0xC40400). -/
def State.postPortPut (s : State) (r : Requester) (off : Nat) (v : Word) : State :=
  match portOf r with
  | none => s
  | some i =>
    let p := s.ports[i]
    let set := fun (t : State) (f : PostPort → PostPort) => { t with ports := vmod t.ports i f }
    match off with
    | 0 => set s fun q => { q with head := fld v 2 0 }
    | 1 => set s fun q => { q with w0 := v }
    | 2 => set s fun q => { q with w1 := v }
    | 3 => set s fun q => { q with w2 := v }
    | 4 =>
      let (s1, st) := s.post r p.hd p.w0 p.w1 p.w2 v
      set s1 fun q => { q with w3 := v, status := st }
    | 6 =>
      let (s1, st) := s.cancel r p.hd v
      set s1 fun q => { q with status := st }
    | _ => s

/-- A read of a post port register. -/
def State.postPortGet (s : State) (r : Requester) (off : Nat) : Word :=
  match portOf r with
  | none => 0
  | some i =>
    let p := s.ports[i]
    match off with
    | 0 => wd p.head
    | 1 => p.w0
    | 2 => p.w1
    | 3 => p.w2
    | 4 => p.w3
    | 5 => p.status
    | _ => 0

/-- QP_POST: a write of QP_W3 posts the entry that the requester's port holds (R43). -/
def execQpPost (r : Requester) (v : Word) (s : State) : Host.Outcome State Fault Refusal :=
  .next (s.postPortPut r 4 v)

/-- QP_CANCEL: a write of QP_CANCEL cancels the entry its handle names (R44). -/
def execQpCancel (r : Requester) (v : Word) (s : State) : Host.Outcome State Fault Refusal :=
  .next (s.postPortPut r 6 v)

end Sys2Proof.Machine
end

