-- ==== Sys2Proof/Machine/Output.lean ====
section
/-! DEFINITION. The tap's setting, the signature ring and the display outputs (05_composition_output.md, R104, R113 to
R126, R404). -/

namespace Sys2Proof.Machine

/-! ### Output checks -/

/-- Lanes that LANES selects; 0 for the invalid value. -/
def laneCount (code : Nat) : Nat :=
  match code with
  | 0 => 1 | 1 => 2 | 2 => 4 | _ => 0

/-- Lane rate in units of 10 Mb/s. -/
def laneRate (code : Nat) : Nat :=
  match code with
  | 0 => 162 | 1 => 270 | 2 => 540 | _ => 810

/-- The stream fits the link (R119): dot clock × bits per pixel ≤ lanes × rate × 0.8, × 0.995 with SSC. -/
def State.dpFits (s : State) (h : Nat) : Bool :=
  let c := s.rd (aHead h 0x32)
  let bpp := if bit c 18 then 18 else 24
  let k := if bit c 19 then 7960 else 8000
  decide (25 * s.vcoX h * bpp * 1000 ≤ laneCount (fld c 23 22) * laneRate (fld c 21 20) * k * (2 ^ 24 * 2 * s.pdiv h))

/-- The LVDS link clock lies within R125. -/
def State.lvdsClockOk (s : State) (h : Nat) : Bool :=
  let k := if s.bget (aHead h 0x33) 19 then 2 else 1
  let d := 2 ^ 24 * 2 * s.pdiv h
  decide (20 * k * d ≤ 25 * s.vcoX h ∧ 25 * s.vcoX h ≤ 135 * k * d ∧ 0 < d)

/-- The LVDS bank has the LVDS level and every pin of the link is assigned to the head (OUTERR 0x4). -/
def State.lvdsPinsOk (s : State) (h : Nat) : Bool :=
  let b := s.fget (aHead h 0x33) 23 20
  let n := if s.bget (aHead h 0x33) 19 then 24 else 12
  decide (b < 12) && s.fget (aBank b 0) 23 20 == 7 &&
    (List.range n).all fun i => s.fget (aBank b (0x10 + i)) 15 12 == 2 && s.fget (aBank b (0x10 + i)) 11 7 == h

/-- Another head's LVDS output with OEN = 1 names the same bank (OUTERR 0x5). -/
def State.lvdsClash (s : State) (h : Nat) : Bool :=
  (List.range 8).any fun g => g != h && s.bget (aHead g 0x30) 23 && s.bget (aHead g 0x30) 22
    && s.fget (aHead g 0x33) 23 20 == s.fget (aHead h 0x33) 23 20

/-- The lowest OUTERR code that applies to the selected output, 0 when every check passes (R115). -/
def State.outCode (s : State) (h : Nat) : Nat :=
  if s.bget (aHead h 0x30) 22 then
    if !s.lvdsClockOk h then 3 else if !s.lvdsPinsOk h then 4 else if s.lvdsClash h then 5 else 0
  else if s.fget (aHead h 0x32) 23 22 = 3 then 1
  else if !s.dpFits h then 2
  else 0

/-- LINKUP as R116 defines it. An LVDS output that has lost a pin since its last enable is down as under contention (R125, R306; log
entry 121). -/
def State.linkUp (s : State) (h : Nat) : Bool :=
  let o := s.rd (aHead h 0x30)
  let st := s.rd (aHead h 0x31)
  let c := s.rd (aHead h 0x32)
  bit o 23 && if bit o 22 then
      let b := s.fget (aHead h 0x33) 23 20
      let m := if s.bget (aHead h 0x33) 19 then 0xFFFFFF else 0x000FFF
      s.rd (aBank b 7) &&& m == 0 && !(if g : h < 8 then s.heads[h].lvdsLost else false)
    else bit st 23 && bit c 13 && fld c 17 14 == 0
      && (List.range (laneCount (fld c 23 22))).all fun l => !bit st (17 + l)

/-- LINKUP follows its definition; the video stream breaks off when it falls. -/
def State.linkTrack (s : State) (h : Head) : State :=
  let up := s.linkUp h.val
  (s.bset (aHead h.val 0x31) 22 up).modHead h fun x => { x with streaming := x.streaming && up }

/-- OEN goes to 0: LANEFLT clears (R121). -/
def State.outputOff (s : State) (h : Head) : State :=
  ((s.bset (aHead h.val 0x30) 23 false).fset (aHead h.val 0x31) 20 17 0).linkTrack h

/-- The check of R115, when OEN goes to 1 and at each start while it is 1. -/
def State.outputCheck (s : State) (h : Head) : State :=
  let c := s.outCode h.val
  let s1 := (s.fset (aHead h.val 0x31) 16 13 c).modHead h fun x => { x with lvdsLost := false }
  if c = 0 then s1.linkTrack h else (s1.outputOff h).evOutput h.val

/-- OEN goes from 0 to 1. -/
def State.outputOn (s : State) (h : Head) : State := (s.bset (aHead h.val 0x30) 23 true).outputCheck h

/-- A write of OUTCTL: OUTSEL is ignored while OEN is 1. -/
def State.outctlPut (s : State) (h : Head) (v : Word) : State :=
  let o := s.rd (aHead h.val 0x30)
  let s1 := s.bset (aHead h.val 0x30) 21 (bit v 21)
  let s2 := if bit o 23 then s1 else s1.bset (aHead h.val 0x30) 22 (bit v 22)
  if bit v 23 && !bit o 23 then s2.outputOn h else if !bit v 23 && bit o 23 then s2.outputOff h else s2.linkTrack h

/-- A write of DPCTL (R120): LANES, RATE, SSC and BPC6 keep while OEN is 1, PATTERN keeps on 0x9 to 0xF. -/
def State.dpctlPut (s : State) (h : Head) (v : Word) : State :=
  let a := aHead h.val 0x32
  let s1 := if s.bget (aHead h.val 0x30) 23 then s else s.fset a 23 18 (fld v 23 18)
  let s2 := if 8 < fld v 17 14 then s1 else s1.fset a 17 14 (fld v 17 14)
  (s2.bset a 13 (bit v 13)).linkTrack h

/-- A write of LVDSCTL, ignored while OEN is 1 (R124). -/
def State.lvdsctlPut (s : State) (h : Head) (v : Word) : State :=
  if s.bget (aHead h.val 0x30) 23 then s else (s.put (aHead h.val 0x33) v).linkTrack h

/-- A write of COMPCTL: MISSPOL keeps on 0b11 (R101). -/
def State.compctlPut (s : State) (h : Nat) (v : Word) : State :=
  if fld v 23 22 = 3 then s else s.put (aHead h 0x1D) v

/-- OUTPUT_ENABLE: OEN written from 0 to 1 (R115). -/
def execOutputEnable (h : Head) (s : State) : Host.Outcome State Fault Refusal :=
  if s.headOff h.val || s.bget (aHead h.val 0x30) 23 then .next s else .next (s.outputOn h)

/-- OUTPUT_DISABLE: OEN written to 0 (R121). -/
def execOutputDisable (h : Head) (s : State) : Host.Outcome State Fault Refusal :=
  if s.headOff h.val then .next s else .next (s.outputOff h)

/-- A driver drives its lane: OEN = 1, OUTSEL = 0, the lane is among those of LANES and not shut (R121). -/
def State.laneDriven (s : State) (h l : Nat) : Bool :=
  s.bget (aHead h 0x30) 23 && !s.bget (aHead h 0x30) 22 && decide (l < laneCount (s.fget (aHead h 0x32) 23 22))
    && !s.bget (aHead h 0x31) (17 + l)

/-- LANE_SHORT: a driving lane's pair is shorted (R121). A driver that does not drive detects nothing. -/
def execLaneShort (h : Head) (l : Fin 4) (s : State) : Host.Outcome State Fault Refusal :=
  if s.laneDriven h.val l.val then
    let s1 := ((s.bset (aHead h.val 0x31) (17 + l.val) true).bset (aHead h.val 0x31) 21 true).bset (aHead h.val 0x32) 13 false
    .next (((s1.linkTrack h).sigFlag h 5).evOutput h.val)
  else .next s

/-- HPD_RISE: DP_HPD rises after lowUs microseconds at 0 (R122): a rise after an unplug, an IRQ_HPD, or a pulse that is
ignored. -/
def execHpdRise (h : Head) (lowUs : Nat) (s : State) : Host.Outcome State Fault Refusal :=
  if s.headOff h.val then .next s
  else if !s.bget (aHead h.val 0x31) 23 then .next (((s.bset (aHead h.val 0x31) 23 true).linkTrack h).evOutput h.val)
  else if 250 ≤ lowUs ∧ lowUs < 2000 then .next (s.evOutput h.val)
  else .next s

/-- UNPLUG: DP_HPD has been low for 2 ms (R122). -/
def execUnplug (h : Head) (s : State) : Host.Outcome State Fault Refusal :=
  if s.bget (aHead h.val 0x31) 23 then
    let s1 := ((s.bset (aHead h.val 0x31) 23 false).bset (aHead h.val 0x32) 13 false).inc (aHead h.val 0x31) 7 0
    .next ((s1.linkTrack h).evOutput h.val)
  else .next s

/-! ### The tap setting (R104) -/

/-- Another head holds the tap port of paddock p, in force or waiting. -/
def State.tapHeld (s : State) (h : Head) (p : Nat) : Bool :=
  (List.finRange 8).any fun g => g != h && (([some s.heads[g].tap, s.heads[g].tapNext, s.heads[g].tapThen].any
    fun o => o.any fun t => t.en && t.pad == p))

/-- A setting comes into force: ACTIVE follows; the tap is in bypass while its paddock is being swapped, or as it was on
the same paddock (R107, R210). -/
def State.tapAdopt (s : State) (h : Head) (t : TapSet) : State :=
  let old := s.heads[h].tap
  let forced := t.en && (s.swapping t.pad || (s.bget (aHead h.val 0x36) 22 && old.en && old.pad == t.pad))
  ((s.modHead h fun x => { x with tap := t }).bset (aHead h.val 0x36) 23 t.en).bset
    (aHead h.val 0x36) 22 forced

/-- A setting that still waits when the head stops comes into force at once: DESIGN CHOICE (log entry 117). -/
def State.tapSettle (s : State) (h : Head) : State :=
  let x := s.heads[h]
  let s1 := s.modHead h fun y => { y with tapNext := none, tapThen := none }
  match x.tapThen.or x.tapNext with
  | some t => s1.tapAdopt h t
  | none => s1

/-- A tap setting reaches a running head's next boundary too late: fewer than TLAT + 16 quads remain, by the larger TLAT (R104). -/
def State.tapNear (s : State) (h : Head) (t : TapSet) : Bool :=
  s.running h.val && decide (s.quadsToFrame h < max t.lat (s.fget (aHead h.val 0x1E) 18 9) + 16)

/-- A write of TAPCTL. One that is accepted ends a bypass that no swap of the tapped paddock causes (R107, R210). -/
def State.tapctlPut (s : State) (h : Head) (v : Word) : State :=
  let t : TapSet := { en := bit v 23, pad := fld v 22 19, lat := fld v 18 9 }
  if t.lat < 4 || s.padOff t.pad || (t.en && s.tapHeld h t.pad) then s.evOutput h.val
  else
    let s1 := s.put (aHead h.val 0x1E) v
    let s2 := if s1.heads[h].tap.en && s1.swapping s1.heads[h].tap.pad then s1 else s1.bset (aHead h.val 0x36) 22 false
    if s2.heads[h].phase = .stopped then s2.tapAdopt h t
    else if s.tapNear h t then s2.modHead h fun x => { x with tapThen := some t }
    else s2.modHead h fun x => { x with tapNext := some t, tapThen := none }

/-- TAPCTL_WRITE: checked, then waiting for the next frame boundary, or ignored (R104). -/
def execTapctlWrite (r : Requester) (h : Head) (v : Word) (s : State) : Host.Outcome State Fault Refusal :=
  .next (s.gated r (aHead h.val 0x1E) fun t => t.tapctlPut h v)

/-! ### The signature ring -/

/-- SIGNATURE_RECORD_WRITE: the closed record, with its MAC when keyed, goes to the ring (R112 to R114). -/
def execSignatureRecordWrite (h : Head) (s : State) : Host.Outcome State Fault Refusal :=
  .next (s.writeRecord h)

end Sys2Proof.Machine
end

