-- ==== Sys2Proof/Machine/Pins.lean ====
section
/-! DEFINITION. Pins, I/O banks and the pin multiplexer (12_pins_io.md). -/

namespace Sys2Proof.Machine

/-- Bank b of the state, changed by f. -/
def State.modBank (s : State) (b : Bank) (f : BankSt → BankSt) : State := { s with banks := vmod s.banks b f }

/-- The level that the bank takes at its next bank-clock edge: LEVEL, or 0 while it acts as off (R299, R300). -/
def State.bankLevel (s : State) (b : Bank) : Nat := if s.banks[b].dropped then 0 else s.fget (aBank b.val 0) 23 20

/-- FUNC of a pin. -/
def State.pinFunc (s : State) (b n : Nat) : Nat := s.fget (aBank b (0x10 + n)) 15 12
/-- SEL of a pin. -/
def State.pinSel (s : State) (b n : Nat) : Nat := s.fget (aBank b (0x10 + n)) 11 7

/-- A bank is under a differential level (R301). -/
def BankSt.paired (x : BankSt) : Bool := x.level == 7 || x.level == 8

/-- The pin whose PINCFG governs pin n: the even one of a pair under LVDS and sub-LVDS (R301). -/
def State.govPin (s : State) (b : Bank) (n : Nat) : Nat := if s.banks[b].paired then n / 2 * 2 else n

/-- The PINCFG word in force that governs pin n (R298, R301, R306). -/
def State.pinNow (s : State) (b : Bank) (n : Nat) : Word := nth 0 s.banks[b].cfg.toList (s.govPin b n)

/-- Pin n feeds the input of timer t: FUNC 0x7 with its SEL, in force; the odd pin of a pair has no function of its own. -/
def State.feedsTimer (s : State) (b : Bank) (n t : Nat) : Bool :=
  s.govPin b n == n && fld (s.pinNow b n) 15 12 == 7 && fld (s.pinNow b n) 11 7 == t

/-- The head whose enabled LVDS output pin n carries, by the configuration in force (R123). -/
def State.lvdsOf (s : State) (b : Bank) (n : Nat) : Option Head :=
  let w := s.pinNow b n
  let h : Head := Fin.ofNat 8 (fld w 9 7)
  let c := s.rd (aHead h.val 0x33)
  if fld w 15 12 == 2 && s.bget (aHead h.val 0x30) 23 && s.bget (aHead h.val 0x30) 22 && fld c 23 20 == b.val
      && (bit c 19 || decide (n < 12)) then some h else none

/-- Level and enable that LVDS gives the pad of pin g (R123, R126): pair 5, A3 under MAP18, and every pair of a stopped output stand at
static logic 0; the serial level of the others is a view, `State.lvdsBits`, and the pad keeps the level it has. -/
def State.lvdsPad (s : State) (b : Bank) (g : Nat) : Bool × Bool :=
  match s.lvdsOf b g with
  | none => (bit s.banks[b].lvl g, false)
  | some h =>
    let j := g % 12 / 2
    let still := j == 5 || (j == 4 && s.bget (aHead h.val 0x33) 18) || !s.running h.val
    (if still then g % 2 == 1 else bit s.banks[b].lvl g, true)

/-- Level and enable that a pin's function gives its pad, by the configuration in force (R301, R309, R313, R315, R181). The serial levels
of audio and S/PDIF pins are views of Lark's ports: the pad keeps its level and is enabled. The odd pin of a pair is the complement. -/
def State.padDrive (s : State) (b : Bank) (n : Nat) : Bool × Bool :=
  let g := s.govPin b n
  let cfg := s.pinNow b n
  let (l, e) := match fld cfg 15 12 with
    | 0 => (s.bget (aBank b.val 1) g, s.bget (aBank b.val (0x10 + g)) 4)
    | 1 =>
      let p : Pad := Fin.ofNat 16 (fld cfg 21 16)
      (bit (s.pads[p].pout[b]) g, bit (s.pads[p].poe[b]) g)
    | 2 => s.lvdsPad b g
    | 5 => ((s.prb.getD 2 0).getLsbD (fld cfg 11 7), true)
    | 6 => (s.bget (aTimer (fld cfg 10 7) 7) 18, true)
    | 7 => (bit s.banks[b].lvl g, false)
    | _ => (bit s.banks[b].lvl g, true)
  (if g = n then l else !l, e)

/-- The pad drives the level its function gives: the bank is on, no contention has switched the driver off, and open-drain drives 0 only
(R299, R313). -/
def State.padOn (s : State) (b : Bank) (n : Nat) (d : Bool × Bool) : Bool :=
  d.2 && s.banks[b].level != 0 && !bit (s.banks[b].off) (s.govPin b n) && (s.banks[b].level != 9 || !d.1)

/-- The level at a pad: what it drives, or what is sensed there. -/
def BankSt.padLevel (x : BankSt) : Word := (x.lvl &&& x.oe) ||| (x.sync &&& ~~~x.oe)

/-- What peripherals and paddocks see at pin n: the synchronised input, 0 while the bank is off, held during an open probe (R299, R311,
R314). -/
def State.pinSense (s : State) (b : Bank) (n : Nat) : Bool :=
  let x := s.banks[b]
  x.level != 0 && if bit x.probing n then bit x.frozenSync n else bit x.sync n

/-- The mask of the pins that satisfy a test. -/
def pinMask (f : Nat → Bool) : Word := (List.range 24).foldl (fun m n => if f n then m ||| wd (2 ^ n) else m) 0

/-- What a bank's pins show their peripherals. -/
def State.pinsSensed (s : State) (b : Bank) : Word := pinMask (s.pinSense b)

/-- IN of a bank: the input that DEB selects, 0 while the bank is off, held during an open probe; a pair's both bits read its receiver
(R299, R301, R311, R314). -/
def State.pinIn (s : State) (b : Bank) : Word :=
  let x := s.banks[b]
  if x.level = 0 then 0
  else pinMask fun n =>
    let g := s.govPin b n
    if bit x.probing n then bit x.frozenIn n
    else if s.bget (aBank b.val (0x10 + g)) 0 then bit x.deb g else bit x.sync g

/-- IN as a requester reads it: contexts, paddocks and a debug session below level 3 see the pins they own. -/
def State.pinInFor (s : State) (r : Requester) (b : Bank) : Word :=
  match r with
  | .host => s.pinIn b
  | _ => s.pinIn b &&& s.ownMask r b.val

/-- An interrupt flag sets: the pin event for the host's pins, an applet interrupt for a context's, nothing for a
paddock's (R312). -/
def State.pinFlag (s : State) (b : Bank) (n : Nat) : State :=
  let o := s.pinOwner b.val n
  let was := s.bget (aBank b.val 6) n
  match o.1 with
  | 0 => if was then s else (s.bset (aBank b.val 6) n true).evPin b.val
  | 1 =>
    if was then s
    else
      let s1 := s.bset (aBank b.val 6) n true
      { s1 with cae := { s1.cae with ctxs := vmod s1.cae.ctxs (Fin.ofNat 64 o.2) fun c =>
        { c with irqs := c.irqs ++ [64 + b.val] } } }
  | _ => s

/-- The IRQ mode of a pin fires on a change of its selected input from `old` to `new`. -/
def irqFires (mode : Nat) (old new : Bool) : Bool :=
  match mode with
  | 1 => !old && new
  | 2 => old && !new
  | 3 => old != new
  | 4 => new
  | 5 => !new
  | _ => false

/-- The selected inputs of some pins have moved from what `old` shows to what IN shows now: edge and level flags set; a pair's on its even
pin, none under the open probe (R301, R312, R314). -/
def State.pinsMove (s : State) (b : Bank) (old : Word) (pins : List Nat) : State :=
  let new := s.pinIn b
  pins.foldl (fun (t : State) n =>
    let mode := s.fget (aBank b.val (0x10 + n)) 3 1
    if mode != 0 && s.govPin b n == n && !bit s.banks[b].probing n && irqFires mode (bit old n) (bit new n) then t.pinFlag b n else t) s

/-- Timers whose input two or more pins feed (R307). -/
def State.conflicts (s : State) : Word :=
  (List.range 16).foldl (fun (m : Word) t =>
    let n := ((List.finRange 12).map fun b => ((List.range 24).filter fun p => s.feedsTimer b p t).length).sum
    if 2 ≤ n then m ||| wd (2 ^ t) else m) 0

/-- TCONF follows the pin configuration; onsets are counted and raise the pin-fault event (R307). -/
def State.confTrack (s : State) : State :=
  let old := s.fget aBankConf 15 0
  let new := s.conflicts.toNat
  let onsets := ((List.range 16).filter fun t => Nat.testBit new t && !Nat.testBit old t).length
  let s1 := s.fset aBankConf 15 0 new
  if onsets = 0 then s1 else (s1.incN aBankConf 23 16 onsets).evPinFault 12

/-- A fault of a head's LVDS output (R125): SHORT is set, LINKUP clears, the output event is raised. -/
def State.lvdsFault (s : State) (h : Head) : State :=
  (((s.bset (aHead h.val 0x31) 21 true).sigFlag h 5).linkTrack h).evOutput h.val

/-- An LVDS output loses a pin: a fault as under contention, which lasts until the output is enabled again (R306; log entry 121). -/
def State.lvdsLose (s : State) (h : Head) : State := (s.modHead h fun x => { x with lvdsLost := true }).lvdsFault h

/-- LINKUP of every head's LVDS output on a bank follows its pins. -/
def State.bankLinks (s : State) (b : Nat) : State :=
  (List.finRange 8).foldl (fun (t : State) (h : Head) =>
    if t.bget (aHead h.val 0x30) 22 && t.fget (aHead h.val 0x33) 23 20 == b then t.linkTrack h else t) s

/-- A pin's owner or function has changed from `old`: its hold latch takes the level that the pad has, until the next bank-clock edge
(R306). -/
def State.pinChanged (s : State) (b : Bank) (n : Nat) (old : Word) : State :=
  if fld old 23 7 = fld (s.rd (aBank b.val (0x10 + n))) 23 7 ∨ bit s.banks[b].heldNow n then s
  else s.modBank b fun x => { x with heldNow := putBit x.heldNow n true, latch := putBit x.latch n (bit x.padLevel n) }

/-- Owners, functions and level come into force at a bank-clock edge (R298 to R301, R306, R307): a pair that forms takes its even pin's
owner; heads whose LVDS output loses a pin are faulted. -/
def State.pinsTake (s : State) (b : Bank) : State :=
  let x := s.banks[b]
  let lost := (List.range 24).map fun n => (n, s.lvdsOf b n)
  let s1 := s.modBank b fun y => { y with level := s.bankLevel b }
  let s2 := if !s1.banks[b].paired then s1
    else (List.range 12).foldl (fun (t : State) j =>
      t.fset (aBank b.val (0x11 + 2 * j)) 23 16 (t.fget (aBank b.val (0x10 + 2 * j)) 23 16)) s1
  let s3 := s2.modBank b fun y => { y with cfg := Vector.ofFn fun n => s2.rd (aBank b.val (0x10 + n.val)) }
  let s4 := if x.heldNow = 0 ∧ x.level = s.bankLevel b then s3 else s3.confTrack
  (List.finRange 8).foldl (fun (t : State) h =>
    if lost.any fun e => e.2 == some h && s4.lvdsOf b e.1 != some h then t.lvdsLose h else t) s4

/-- Pads take level, enable and pull from their functions; a GPIO pin that comes out of its hold latch keeps its level in OUT (R306,
R316). -/
def State.padsTake (s : State) (b : Bank) : State :=
  let x := s.banks[b]
  let keep := pinMask fun n => bit x.heldNow n && s.govPin b n == n && fld (s.pinNow b n) 15 12 == 0
  let s1 := s.wr (aBank b.val 1) ((s.rd (aBank b.val 1) &&& ~~~keep) ||| (x.latch &&& keep))
  let l := pinMask fun n => (s1.padDrive b n).1
  let e := pinMask fun n => (s1.padDrive b n).2
  let o := pinMask fun n => s1.padOn b n (bit l n, bit e n)
  let p := if x.level == 0 || x.paired then 0
    else BitVec.ofNat 48 (((List.range 24).map fun n => s1.fget (aBank b.val (0x10 + n)) 6 5 * 4 ^ n).sum)
  s1.modBank b fun y => { y with lvl := l, en := e, oe := o, pull := p }

/-- A bank-clock edge of a bank (R298, R306, R312, R316): the configuration comes into force, the pads follow it unless the latches of
Keep hold them, and the inputs' flags set. -/
def State.bankEdge (s : State) (b : Bank) : State :=
  let old := s.pinIn b
  let s1 := s.pinsTake b
  let s2 := if s.bget (aBank b.val 0) 13 then s1 else s1.padsTake b
  (s2.modBank b fun y => { y with heldNow := 0 }).pinsMove b old (List.range 24)

/-- A FUNC value and its SEL are defined (R302). -/
def selValid (func sel : Nat) : Bool :=
  match func with
  | 0 => sel == 0
  | 1 => sel == 0
  | 2 => decide (sel ≤ 7)
  | 3 => nbits sel 2 1 != 3 && nbits sel 0 0 == 0
  | 4 => decide (sel ≤ 1)
  | 5 => true
  | 6 => decide (sel ≤ 15)
  | 7 => decide (sel ≤ 15)
  | _ => false

/-- The writer may set this function on this pin (R303): a debug session as context 0 at level 3, and as its contexts below (R382). -/
def State.funcAllowed (s : State) (r : Requester) (func sel : Nat) : Bool :=
  let applet := func == 0 || ((func == 6 || func == 7) && s.right r 4 sel)
  match r with
  | .core _ c => c.val == 0 || applet
  | .host => func != 1
  | .debug => decide (3 ≤ s.level) || applet
  | .paddock _ => false

/-- A write of PINCFGn (R302 to R307). -/
def State.pincfgPut (s : State) (r : Requester) (b : Bank) (n : PinNo) (v : Word) : State :=
  let a := aBank b.val (0x10 + n.val)
  let old := s.rd a
  let func := fld v 15 12
  if !selValid func (fld v 11 7) || !s.funcAllowed r func (fld v 11 7) then s.accessFault r a
  else if func = 1 ∧ fld old 15 12 ≠ 1 then s
  else
    let v' := if 6 ≤ fld v 3 1 then putFld v 3 1 (fld old 3 1) else v
    (s.wr a (putFld v' 23 16 (fld old 23 16))).pinChanged b n.val old

/-- The pins that go with pin n: its pair under a differential level (R301). -/
def State.pairPins (s : State) (b : Bank) (n : Nat) : List Nat :=
  if s.banks[b].paired then [n / 2 * 2, n / 2 * 2 + 1] else [n]

/-- A pin passes to an owner (R305): FUNC and SEL as the grant sets them, OE the held enable, the rest kept. -/
def State.pinGive (s : State) (b : Bank) (n : Nat) (kind idx : Nat) : State :=
  (s.pairPins b n).foldl (fun (t : State) m =>
    let a := aBank b.val (0x10 + m)
    let old := t.rd a
    let w := putFld (putFld (putFld (putFld old 23 22 kind) 21 16 idx) 15 12 (if kind = 2 then 1 else 0)) 11 7 0
    (t.wr a (putBit w 4 (bit t.banks[b].en m))).pinChanged b m old) s

/-- SUPPLY codes that suit a LEVEL (R299). -/
def levelSuits (level supply : Nat) : Bool :=
  match level with
  | 0 => true
  | 6 => supply == 5
  | 7 => supply == 4 || supply == 5
  | 8 => supply == 3
  | 9 => decide (1 ≤ supply ∧ supply ≤ 5)
  | l => decide (1 ≤ l ∧ l ≤ 5) && l == supply

/-- HOLDREL: each pad leaves its latch at the next bank-clock edge (R316). -/
def State.holdRelease (s : State) (b : Bank) : State :=
  if s.bget (aBank b.val 0) 13 then
    (s.bset (aBank b.val 0) 13 false).modBank b fun x =>
      let y := { x with heldNow := 0xFFFFFF, lvl := x.keepLvl, oe := x.keepOe, en := x.keepEn, pull := x.keepPull }
      { y with latch := y.padLevel }
  else s

/-- A write of BANKCFG (R299, R316). -/
def State.bankcfgPut (s : State) (b : Bank) (v : Word) : State :=
  let a := aBank b.val 0
  let ok := levelSuits (fld v 23 20) (s.fget a 19 17)
  let s1 := ((s.bset a 15 (bit v 15)).bset a 14 (bit v 14)).fset a 11 2 (fld v 11 2)
  let s2 := if ok then s1.fset a 23 20 (fld v 23 20) else s1.evPinFault b.val
  (if bit v 12 then s2.holdRelease b else s2).bankLinks b.val

/-- A write of OUT (0), OSET (1), OCLR (2) or OTGL (3) by an owner of the bits of mask m (R309, R310). -/
def State.outOp (s : State) (b : Nat) (m : Word) (op : Nat) (v : Word) : State :=
  let o := s.rd (aBank b 1)
  s.wr (aBank b 1) (match op with
    | 0 => (o &&& ~~~m) ||| (v &&& m)
    | 1 => o ||| (v &&& m)
    | 2 => o &&& ~~~(v &&& m)
    | _ => o ^^^ (v &&& m))

/-- An operation on OUT among those of its SCLK cycle: those ordered after it stand, a level that they set as it is, a toggle applied to
what this one leaves (R310). -/
def State.outBy (s : State) (who rank b : Nat) (m : Word) (op : Nat) (v : Word) : State :=
  let key := 0x3000000 + 2 * b
  let fixed := (s.cycAfter who rank key).foldl (fun (w : Word) e => w ||| e.value) 0
  let turned := (s.cycAfter who rank (key + 1)).foldl (fun (w : Word) e => w ^^^ e.value) 0
  let o := s.rd (aBank b 1)
  let t := (s.wr (aBank b 1) (o ^^^ turned)).outOp b m op v
  let u := t.wr (aBank b 1) ((o &&& fixed) ||| ((t.rd (aBank b 1) ^^^ turned) &&& ~~~fixed))
  u.cycNotes who
    [{ rank := rank, who := who, key := key, value := if op = 0 then m else if op < 3 then v &&& m else 0 },
     { rank := rank, who := who, key := key + 1, value := if 3 ≤ op then v &&& m else 0 }]

/-- A requester's write of OUT, OSET, OCLR or OTGL. -/
def State.outDirect (s : State) (r : Requester) (b : Nat) (op : Nat) (v : Word) : State :=
  s.outBy (whoOf r) (rankOf r) b (s.ownMask r b) op v

/-- A write of IFLAG clears the bits written 1 of pins the writer owns. -/
def State.iflagPut (s : State) (r : Requester) (b : Nat) (v : Word) : State :=
  s.wr (aBank b 6) (s.rd (aBank b 6) &&& ~~~(v &&& s.ownMask r b))

/-- A write of CONT clears flags; a driver switched off comes back with its flag's clearing (R313). -/
def State.contPut (s : State) (b : Bank) (v : Word) : State :=
  ((s.put (aBank b.val 7) v).modBank b fun x => { x with off := x.off &&& ~~~v }).bankLinks b.val

/-- GO of OPENCTL: the probe starts on the masked pins that the writer owns and that are not driving (R314). -/
def State.probeGo (s : State) (r : Requester) (b : Bank) : State :=
  if s.bget (aBank b.val 8) 22 then s
  else
    let inp := s.pinIn b
    let m := s.rd (aBank b.val 9) &&& s.ownMask r b.val
    (s.bset (aBank b.val 8) 22 true).modBank b fun x => { x with probing := m &&& ~~~x.oe, frozenIn := inp, frozenSync := s.pinsSensed b }

/-- BANKCFG_WRITE (R299). -/
def execBankcfgWrite (r : Requester) (b : Bank) (v : Word) (s : State) : Host.Outcome State Fault Refusal :=
  .next (s.gated r (aBank b.val 0) fun t => t.bankcfgPut b v)

/-- HOLDREL (R316). -/
def execHoldrel (r : Requester) (b : Bank) (s : State) : Host.Outcome State Fault Refusal :=
  .next (s.gated r (aBank b.val 0) fun t => t.holdRelease b)

/-- PGOOD_FALL: the supply leaves tolerance (R300). -/
def execPgoodFall (b : Bank) (s : State) : Host.Outcome State Fault Refusal :=
  if s.bget (aBank b.val 0) 16 then
    let s1 := s.bset (aBank b.val 0) 16 false
    if s1.fget (aBank b.val 0) 23 20 = 0 then .next s1
    else .next (((s1.modBank b fun x => { x with dropped := true }).inc (aBank b.val 0x0B) 15 8).evPinFault b.val)
  else .next s

/-- PGOOD_RISE: the supply returns as sup, and the bank resumes its LEVEL (R300). -/
def execPgoodRise (b : Bank) (sup : Fin 6) (s : State) : Host.Outcome State Fault Refusal :=
  .next (((s.bset (aBank b.val 0) 16 true).fset (aBank b.val 0) 19 17 sup.val).modBank b fun x => { x with dropped := false })

/-- PINCFG_WRITE (R302 to R306). -/
def execPincfgWrite (r : Requester) (b : Bank) (n : PinNo) (v : Word) (s : State) : Host.Outcome State Fault Refusal :=
  .next (s.gated r (aBank b.val (0x10 + n.val)) fun t => t.pincfgPut r b n v)

/-- OUT_WRITE (R309). -/
def execOutWrite (r : Requester) (b : Bank) (v : Word) (s : State) : Host.Outcome State Fault Refusal :=
  .next (s.outDirect r b.val 0 v)

/-- OSET (R310). -/
def execOset (r : Requester) (b : Bank) (v : Word) (s : State) : Host.Outcome State Fault Refusal :=
  .next (s.outDirect r b.val 1 v)

/-- OCLR (R310). -/
def execOclr (r : Requester) (b : Bank) (v : Word) (s : State) : Host.Outcome State Fault Refusal :=
  .next (s.outDirect r b.val 2 v)

/-- OTGL (R310). -/
def execOtgl (r : Requester) (b : Bank) (v : Word) (s : State) : Host.Outcome State Fault Refusal :=
  .next (s.outDirect r b.val 3 v)

/-- PIN_INPUT: the synchronised input of a pin takes a level at a bank-clock edge (R298, R312); both bits of a differential pair read the
receiver (R301). -/
def execPinInput (b : Bank) (n : PinNo) (lvl : Bool) (s : State) : Host.Outcome State Fault Refusal :=
  let pins := s.pairPins b n.val
  let t := pins.foldl (fun (t : State) m => t.modBank b fun x => { x with sync := putBit x.sync m lvl }) s
  .next (t.pinsMove b (s.pinIn b) pins)

/-- DEBOUNCE: the debounced input takes the level the synchronised input has shown for DEBT ticks (R311, R312). -/
def execDebounce (b : Bank) (n : PinNo) (s : State) : Host.Outcome State Fault Refusal :=
  let t := s.modBank b fun x => { x with deb := putBit x.deb n.val (bit x.sync n.val) }
  .next (t.pinsMove b (s.pinIn b) [n.val])

/-- CONTENTION: the sensed level of a driving pad has differed from the driven level for 1 µs (R313); on an enabled LVDS output's pin it
faults the output (R125). -/
def execContention (b : Bank) (n : PinNo) (s : State) : Host.Outcome State Fault Refusal :=
  if bit s.banks[b].oe n.val then
    let g := s.govPin b n.val
    let s1 := ((s.bset (aBank b.val 7) g true).inc (aBank b.val 0x0B) 23 16).evPinFault b.val
    let s2 := if s1.bget (aBank b.val 0) 14 then
        s1.modBank b fun x =>
          { x with off := putBit x.off g true, oe := (s.pairPins b n.val).foldl (fun (w : Word) m => putBit w m false) x.oe }
      else s1
    match s.lvdsOf b g with
    | some h => .next (s2.lvdsFault h)
    | none => .next s2
  else .next s

/-- OPEN_PROBE: GO of OPENCTL (R314). -/
def execOpenProbe (r : Requester) (b : Bank) (s : State) : Host.Outcome State Fault Refusal :=
  .next (s.gated r (aBank b.val 8) fun t => t.probeGo r b)

/-- OPEN_PROBE_DONE: both samples are taken; OPEN is 1 where they were 1 then 0 (R314). -/
def execOpenProbeDone (b : Bank) (up down : Word) (s : State) : Host.Outcome State Fault Refusal :=
  if s.bget (aBank b.val 8) 22 then
    let t := ((s.wr (aBank b.val 0x0A) (s.banks[b].probing &&& up &&& ~~~down)).bset (aBank b.val 8) 22 false).modBank b
      fun x => { x with probing := 0 }
    .next (t.pinsMove b (s.pinIn b) ((List.range 24).filter fun n => bit s.banks[b].probing n))
  else .next s

end Sys2Proof.Machine
end

