-- ==== Sys2Proof/Machine/Dram.lean ====
section
/-! DEFINITION. The DRAM scheduler (06_dram_fetch.md): requests, tags and classes, the write queue, training, its
registers. Delivery of read data is in Machine/Deliver.lean. -/

namespace Sys2Proof.Machine

/-- The class of a requester (R131). -/
def dramClass : DramUser → Nat
  | .slot _ _ => 1
  | .lark _ => 2
  | .larkReturn _ => 2
  | .port _ _ => 3
  | _ => 4

/-- Channel c of the state, changed by f. -/
def State.modChan (s : State) (c : Chan) (f : ChanSt → ChanSt) : State := { s with chans := vmod s.chans c f }

/-! ### Tags (R131, R140) -/

/-- Tags reserved to a class. -/
def State.tagRes (s : State) (cls : Nat) : Nat := 8 * s.fget (aDram 2) (29 - 6 * cls) (24 - 6 * cls)

/-- Tags a class holds on a channel. -/
def held (l : List DRead) (cls : Nat) : Nat := (l.filter fun r => r.tag && r.cls == cls).length

/-- A class may take one more tag: from its reserve, or from the shared ones; 384 in all, whatever reserve the tags held were taken
under (R131, R140). -/
def State.tagFree (s : State) (l : List DRead) (cls : Nat) : Bool :=
  let shared := 384 - (s.tagRes 1 + s.tagRes 2 + s.tagRes 3 + s.tagRes 4)
  let used := ([1, 2, 3, 4].map fun c => held l c - s.tagRes c).sum
  decide ((l.filter (·.tag)).length < 384) && (decide (held l cls < s.tagRes cls) || decide (used < shared))

/-- The lowest number that no tag held has. -/
def freeTag (l : List DRead) : Nat := ((List.range 384).find? fun n => !l.any fun r => r.tag && r.no == n).getD 0

/-- The first waiting read of a class takes a tag when one is free for it. -/
def State.tagFirst (s : State) (cls : Nat) (l : List DRead) : List DRead :=
  match l.findIdx? fun r => !r.tag && r.cls == cls with
  | some i => if s.tagFree l cls then l.modify i fun r => { r with tag := true, no := freeTag l } else l
  | none => l

/-- Waiting reads take tags, class by class, in order of arrival. -/
def State.tagAll (s : State) (l : List DRead) : List DRead :=
  [1, 2, 3, 4].foldl (fun l cls => (List.range l.length).foldl (fun l _ => s.tagFirst cls l) l) l

/-- A channel's reads become l with tags given out; PEAKTAG follows. -/
def State.setReads (s : State) (c : Chan) (l : List DRead) : State :=
  let l' := s.tagAll l
  let n := (l'.filter (·.tag)).length
  let s1 := s.modChan c fun x => { x with reads := l' }
  s1.fset (aChan c.val 2) 23 15 (max (s1.fget (aChan c.val 2) 23 15) n)

/-- The bytes of a unit as a read accepted now sees them: the writes accepted before it are in (R134). -/
def State.unitNow (s : State) (u : Nat) : List Byte :=
  let q := (s.chans[s.chanOf (32 * u)].writes ++ s.chans[s.chanOf (32 * u)].waiting).filter fun w => w.addr / 32 == u
  let base := s.dramBytes (32 * u) 32
  q.foldl (fun (b : List Byte) w =>
    let o := w.addr % 32
    b.take o ++ w.data ++ b.drop (o + w.data.length)) base

/-- A check unit joins, or stays as, the most recently used of its channel's 64 (R135). -/
def ChanSt.keepCheck (x : ChanSt) (u : Nat) : ChanSt := { x with checks := (u :: x.checks.filter (· != u)).take 64 }

/-- An access of q to DRAM is accepted: in the present SCLK cycle, or in the next where q has made one in it already (R134; log entry
101). -/
def State.dramCycle (s : State) (q : DramUser) : State :=
  if s.dcyc.stamp = s.cycStamp ∧ ¬ s.dcyc.makers.contains q then { s with dcyc := { s.dcyc with makers := q :: s.dcyc.makers } }
  else { s with dcyc := { stamp := s.cycStamp, makers := [q], no := s.dcyc.no + 1 } }

/-- A read of one unit joins its channel with the check unit that an ECC region's read also needs (R131, R135). -/
def State.askUnit (s0 : State) (q : DramUser) (u deadline line : Nat) (standIn merge : Bool) : State :=
  let s := s0.dramCycle q
  let c := s.chanOf (32 * u)
  let rd : DRead := { user := q, unit := u, line := line, cls := dramClass q, deadline := deadline / 64, data := s.unitNow u,
                      chk := false, tag := false, issued := false, no := 0, standIn := standIn, merge := merge, cyc := s.dcyc.no }
  let s1 := s.setReads c (s.chans[c].reads ++ [rd])
  match s1.checkAddr (32 * u) with
  | none => s1
  | some a =>
    let cu := a / 32
    let d := s1.chanOf (32 * cu)
    if s1.chans[d].checks.contains cu then s1.modChan d fun x => x.keepCheck cu
    else s1.setReads d (s1.chans[d].reads ++ [{ rd with unit := cu, data := [], chk := true }])

/-- DRAM_READ_REQUEST of a unit in range; a unit beyond the capacity returns zero at once and is counted (R130). The answer
says whether data is still to come. -/
def State.dramAsk (s : State) (q : DramUser) (u deadline line : Nat) (standIn : Bool := false) : State × Bool :=
  if s.dramCap ≤ 32 * u then (s.countOor [u], false) else (s.askUnit q u deadline line standIn false, true)

/-! ### Serving (R132, R133, R143) -/

/-- A burst is served to a class: it counts in the channel's window of 256. -/
def ChanSt.burst (x : ChanSt) (cls : Nat) : ChanSt :=
  let g := if 2 ≤ cls ∧ cls ≤ 4 then x.got.setIfInBounds (cls - 2) (x.got.toArray.getD (cls - 2) 0 + 1) else x.got
  if x.window = 255 then { x with window := 0, got := #v[0, 0, 0] } else { x with window := x.window + 1, got := g }

/-- MINSHARE of a class. -/
def State.minShare (s : State) (cls : Nat) : Nat :=
  match cls with
  | 2 => s.fget (aDram 3) 23 16
  | 3 => s.fget (aDram 3) 15 8
  | 4 => s.fget (aDram 3) 7 0
  | _ => 0

/-- The head that a class-1 request belongs to. -/
def readHead (r : DRead) : Nat := match r.user with | .slot h _ => h.val | _ => 0

/-- Of two class-1 reads the first is served before the second: earlier bucket, then lower head. -/
def edfBefore (a b : DRead) : Bool :=
  decide (a.deadline < b.deadline) || (a.deadline == b.deadline && decide (readHead a < readHead b))

/-- The earliest-deadline read of a list, the first of equals. -/
def edf : List DRead → Option DRead
  | [] => none
  | r :: t => match edf t with
    | some q => if edfBefore q r then some q else some r
    | none => some r

/-- A pending read that may issue. -/
def DRead.ready (r : DRead) : Bool := r.tag && !r.issued

/-- Class-1 reads whose deadline lies within SLACKMIN of the present cycle. -/
def State.urgent (s : State) (l : List DRead) : List DRead :=
  l.filter fun r => r.ready && r.cls == 1 && decide (r.deadline * 64 ≤ s.sclk + 16 * s.fget (aDram 4) 23 12)

/-- Writes may drain now but for the reads of step 1: the queue holds 48 entries (R133), the first not waiting for the read it merges
with. -/
def ChanSt.drainDue (x : ChanSt) : Bool := decide (48 ≤ x.writes.length) && !(x.writes.head?.any (·.merge))

/-- The read that a channel serves next, by the four steps of R132; after step 1 a queue of 48 writes drains first (R133). R132 lets the
channel reorder requests to different banks within one step and bucket: it never does here, DESIGN CHOICE (log entry 124). Of several
classes below their floors the lowest goes first, DESIGN CHOICE (log entry 125). -/
def State.nextRead (s : State) (c : Chan) : Option DRead :=
  let x := s.chans[c]
  let l := x.reads.filter (·.ready)
  match edf (s.urgent l) with
  | some r => some r
  | none =>
    if x.drainDue then none
    else
    let short := fun cls => decide (x.got.toArray.getD (cls - 2) 0 < s.minShare cls)
    let floor := [2, 3, 4].findSome? fun cls => if short cls then l.find? (·.cls == cls) else none
    match floor with
    | some r => some r
    | none =>
      match edf (l.filter (·.cls == 1)) with
      | some r => some r
      | none => [2, 3, 4].findSome? fun cls => l.find? (·.cls == cls)

/-- A read that is issued goes behind those issued before it. -/
def markIssued (r : DRead) (l : List DRead) : List DRead := l.erase r ++ [{ r with issued := true }]

/-- Writers that waited enter the queue while it has room (R133). -/
def ChanSt.letIn (x : ChanSt) : ChanSt :=
  let n := 64 - x.writes.length
  { x with writes := x.writes ++ x.waiting.take n, waiting := x.waiting.drop n }

/-- The pieces of a write, one per unit. -/
def splitUnits : Nat → Nat → List Byte → List (Nat × List Byte)
  | 0, _, _ => []
  | _ + 1, _, [] => []
  | k + 1, a, d => (a, d.take (32 - a % 32)) :: splitUnits k (a + (32 - a % 32)) (d.drop (32 - a % 32))

/-- The place of a writer among those of one SCLK cycle: class 3 by paddock, then class 4, W0, W1, the debug master and the host
(R134), then inbound Golmon writes in link order (R350). Local copies, which no rule places, come first in class 4: DESIGN CHOICE (log
entry 127). -/
def writeRank : DramUser → Nat
  | .port p _ => p.val
  | .core k _ => 17 + k.val
  | .debug => 19
  | .host => 20
  | .inbound g => 21 + g.val
  | _ => 16

/-- A write joins others: before one to its unit that was accepted in the same cycle and stands after it in the order of R134. -/
def insertWrite (w : DWrite) : List DWrite → List DWrite
  | [] => [w]
  | x :: t =>
    if x.cyc = w.cyc ∧ x.addr / 32 = w.addr / 32 ∧ writeRank w.user < writeRank x.user then w :: x :: t else x :: insertWrite w t

/-- A write enters the queue, or waits while it is full (R133). -/
def ChanSt.takeWrite (x : ChanSt) (w : DWrite) : ChanSt :=
  let l := insertWrite w (x.writes ++ x.waiting)
  { x with writes := l.take 64, waiting := l.drop 64 }

/-- A write covers only a part of an aligned group of 8 bytes in an ECC region: it needs a read and a merge first (R135). -/
def State.mergeDue (s : State) (a n : Nat) : Bool := (a % 8 != 0 || (a + n) % 8 != 0) && (s.checkAddr a).isSome

/-- A piece of a write, within one unit, is accepted: reads of its unit accepted in the same cycle see it (R134). -/
def State.takePiece (s : State) (q : DramUser) (a : Nat) (d : List Byte) : State :=
  let m := s.mergeDue a d.length
  let s1 := if m then s.askUnit q (a / 32) 0 0 false true else s
  let c := s1.chanOf a
  let s2 := s1.modChan c fun x =>
    x.takeWrite { user := q, cls := dramClass q, addr := a, data := d, merge := m, cyc := s1.dcyc.no }
  let now := s2.unitNow (a / 32)
  s2.modChan c fun x => { x with reads := x.reads.map fun r =>
    if r.cyc = s1.dcyc.no ∧ r.unit = a / 32 ∧ !r.issued ∧ !r.chk then { r with data := now } else r }

/-- A write is accepted; pieces beyond the capacity are discarded and counted (R130, R133). -/
def State.queueWrite (s : State) (q : DramUser) (a : Nat) (d : List Byte) : State :=
  let ps := splitUnits (d.length + 1) a d
  let ok := ps.filter fun p => decide (p.1 < s.dramCap)
  let s1 := ok.foldl (fun (t : State) p => t.takePiece q p.1 p.2) (s.dramCycle q)
  s1.countOor ((ps.filter fun p => decide (s.dramCap ≤ p.1)).map fun p => p.1 / 32)

/-- A channel's write queue drains: its writes take effect in order, up to one that waits for the read it merges with, their bursts
counted, and waiting writers enter. -/
def State.drain (s : State) (c : Chan) : State :=
  let ws := s.chans[c].writes.takeWhile fun w => !w.merge
  let s1 := ws.foldl (fun (t : State) w => (t.dramPut w.addr w.data).modChan c fun x => x.burst w.cls) s
  s1.modChan c fun x => ({ x with writes := x.writes.drop ws.length } : ChanSt).letIn

/-! ### Registers -/

/-- A write of DRCFG: ignored once DONE is 1; 0b11 in NCH or an unlisted CAP leaves it unchanged (R139). -/
def State.drcfgPut (s : State) (v : Word) : State :=
  if s.bget (aDram 1) 23 || fld v 23 22 == 3 || decide (4 < fld v 21 19) then s else s.put (aDram 0) v

/-- A write of TAGRES: more than 48 units are refused; reads that wait take the tags that the change frees (R140). -/
def State.tagresPut (s : State) (v : Word) : State :=
  if 48 < fld v 23 18 + fld v 17 12 + fld v 11 6 + fld v 5 0 then s.evDram
  else (List.finRange 4).foldl (fun (t : State) c => t.setReads c t.chans[c].reads) (s.put (aDram 2) v)

/-- A write of SHARE: floors above 128 in sum are refused (R141). -/
def State.sharePut (s : State) (v : Word) : State :=
  if 128 < fld v 23 16 + fld v 15 8 + fld v 7 0 then s.evDram else s.put (aDram 3) v

/-- Ranges [a, b) and [c, d) overlap. -/
def overlaps (a b c d : Nat) : Bool := decide (a < d ∧ c < b)

/-- Enabling region r with its registers as they stand is refused (R136). -/
def State.eccBad (s : State) (r : Nat) : Bool :=
  let lo := s.fget (aDram (0x10 + 3 * r)) 23 9 * 2 ^ 20
  let lim := s.fget (aDram (0x11 + 3 * r)) 23 9 * 2 ^ 20
  let hi := lim + 2 ^ 20
  let chk := s.fget (aDram (0x12 + 3 * r)) 23 6 * 2 ^ 17
  let chkEnd := chk + (hi - lo) / 8
  decide (lim < lo) || overlaps chk chkEnd lo hi || decide (s.dramCap < hi) || decide (s.dramCap < chkEnd) ||
    (List.range 8).any fun q => q != r && match s.eccRegion q with
      | some (l, h, c) => overlaps chk chkEnd l h || overlaps chk chkEnd c (c + (h - l) / 8)
      | none => false

/-- A write of a word of ECC region r: base, limit and check base are ignored while EN is 1; setting EN is checked. -/
def State.eccPut (s : State) (r w : Nat) (v : Word) : State :=
  let en := s.bget (aDram (0x10 + 3 * r)) 0
  match w with
  | 0 =>
    if en then (if bit v 0 then s else s.bset (aDram (0x10 + 3 * r)) 0 false)
    else
      let s1 := s.fset (aDram (0x10 + 3 * r)) 23 9 (fld v 23 9)
      if bit v 0 then if s1.eccBad r then s.evDram else s1.bset (aDram (0x10 + 3 * r)) 0 true else s1
  | _ => if en then s else s.put (aDram (0x10 + 3 * r + w)) v

/-- A write of a scheduler register. -/
def State.dramRegPut (s : State) (off : Nat) (v : Word) : State :=
  match off with
  | 0 => s.drcfgPut v
  | 2 => s.tagresPut v
  | 3 => s.sharePut v
  | 4 => s.put (aDram 4) v
  | o => if 0x10 ≤ o ∧ o < 0x28 then s.eccPut ((o - 0x10) / 3) ((o - 0x10) % 3) v else s

/-! ### Training (R128, R142) -/

/-- The channel set in use, by the channels that trained: INUSE and NCH. -/
def chosenSet (ok : BitVec 4) : Nat × Nat :=
  if ok = 0xF then (0xF, 2) else if ok &&& 3 = 3 then (3, 1) else if ok &&& 1 = 1 then (1, 0) else (0, 0)

/-- DRSTAT, DRCFG as training leaves them (R128, R139). -/
def State.trained (s : State) (ok : BitVec 4) (cap : Nat) : State :=
  let (use, n) := chosenSet ok
  let s1 := s.wr (aDram 1) (wd (2 ^ 23 + ok.toNat * 2 ^ 19 + use * 2 ^ 15))
  if use = 0 then s1 else s1.wr (aDram 0) (wd (n * 2 ^ 22 + cap * 2 ^ 19))

/-- Rows marked for repair in the records and neither repaired nor unrepairable. -/
def State.markedRows (s : State) : List (Word × Word) :=
  let rs := s.records
  (rs.filter fun r => fld r.1 23 20 == 4 &&
    !(rs.any fun q => (fld q.1 23 20 == 5 || fld q.1 23 20 == 6) && fld q.1 19 13 == fld r.1 19 13 && q.2 == r.2)).eraseDups

/-- Post-package repair of the marked rows, at most one a bank; a bank whose repair is used reports further rows
unrepairable (R142). -/
def State.repairRows (s : State) : State :=
  s.markedRows.foldl (fun (t : State) r =>
    let used := t.records.any fun q => fld q.1 23 20 == 5 && fld q.1 19 13 == fld r.1 19 13
    t.appendRecord [putFld r.1 23 20 (if used then 6 else 5), r.2] false) s

/-- Every applet context stops on entry to SAFE (R251). -/
def State.stopApplets (s : State) : State :=
  { s with cae := { s.cae with ctxs := s.cae.ctxs.map fun c => if c.st = 2 then { c with st := 3 } else c } }

/-- Entry to SAFE with its reason (R250, R251); the ledger is written (R297). -/
def State.toSafe (s : State) (reason : BitVec 8) : State := (s.toDev .safe reason).stopApplets.ledgerSave

/-- DRAM_TRAINING: Caeruno trains the channels, of which `ok` trained with capacity `cap`, at one of the four data rates (R127, R128, R139,
R142). -/
def execDramTraining (ok : BitVec 4) (cap : Fitted) (s : State) : Host.Outcome State Fault Refusal :=
  if s.start ≠ .booted then .next s
  else
    let s1 : State := { (s.trained ok cap.cap.val).repairRows with start := .trained, drate := cap.rate.val }
    .next (if s1.fget (aDram 1) 18 15 = 0 then s1.toSafe 5 else s1)

/-- DRAM_READ_ISSUE: the channel serves one pending read that holds a tag (R132, R143). -/
def execDramReadIssue (c : Chan) (s : State) : Host.Outcome State Fault Refusal :=
  match s.nextRead c with
  | none => .next s
  | some r => .next (s.modChan c fun x => ({ x with reads := markIssued r x.reads } : ChanSt).burst r.cls)

/-- DRAM_WRITE_REQUEST (R133 to R135). -/
def execDramWriteRequest (q : DramUser) (a : BitVec 35) (d : List Byte) (s : State) : Host.Outcome State Fault Refusal :=
  .next (s.queueWrite q a.toNat d)

/-- Link ECC is on: the data rate lies above 3,200 MT/s (R127). -/
def State.linkEcc (s : State) : Bool := s.drate != 0

/-- WRITE_QUEUE_DRAIN: no urgent read pends, and the queue holds 48 entries or no read is pending (R133). Write link ECC corrects and
counts errors of the data lines (R127, R138). -/
def execWriteQueueDrain (c : Draining) (s : State) : Host.Outcome State Fault Refusal :=
  let pend := s.chans[c.chan].reads.filter fun r => !r.issued
  if (s.urgent pend).isEmpty && (decide (48 ≤ s.chans[c.chan].writes.length) || pend.isEmpty) then
    let t := s.drain c.chan
    .next (if s.linkEcc && c.fixed != 0 then t.incN (aChan c.chan.val 0) 11 0 c.fixed else t)
  else .next s

/-- REFRESH: a per-bank refresh falls due, and the channel refreshes on at the rate that the MR4 report sets (R127). -/
def execRefresh (c : Chan) (sub : Bool) (mr4 : Fin 32) (s : State) : Host.Outcome State Fault Refusal :=
  if Nat.testBit (s.fget (aDram 1) 18 15) c.val then
    .next (s.modChan c fun x => if sub then { x with refB := mr4.val } else { x with refA := mr4.val })
  else .next s

/-- DRCFG_WRITE (R139). -/
def execDrcfgWrite (r : Requester) (v : Word) (s : State) : Host.Outcome State Fault Refusal :=
  .next (s.gated r (aDram 0) fun t => t.drcfgPut v)

/-- TAGRES_WRITE (R140). -/
def execTagresWrite (r : Requester) (v : Word) (s : State) : Host.Outcome State Fault Refusal :=
  .next (s.gated r (aDram 2) fun t => t.tagresPut v)

/-- SHARE_WRITE (R141). -/
def execShareWrite (r : Requester) (v : Word) (s : State) : Host.Outcome State Fault Refusal :=
  .next (s.gated r (aDram 3) fun t => t.sharePut v)

/-- ECC_REGION_ENABLE: a write of the region's first word (R136). -/
def execEccRegionEnable (r : Requester) (n : Fin 8) (v : Word) (s : State) : Host.Outcome State Fault Refusal :=
  .next (s.gated r (aDram (0x10 + 3 * n.val)) fun t => t.eccPut n.val 0 v)

end Sys2Proof.Machine
end

