-- ==== Sys2Proof/Machine/Split.lean ====
section
/-! DEFINITION. The Function Split Table (R15 to R19, R269, R405). -/

namespace Sys2Proof.Machine

/-- Functions 0 object sorting, 1 tile decompression, 2 line programs and 4 signature keying are bound to each head. -/
def headBound (f : Nat) : Bool := f == 0 || f == 1 || f == 2 || f == 4

/-- A function changes at an instant of its own after the boundary: sound mixing, Gleaner policy (R16, R17). -/
def delayed (f : Nat) : Bool := f == 3 || f == 5

/-- Function f of the state, changed by g. -/
def State.modSplit (s : State) (f : Fin 8) (g : SplitFn → SplitFn) : State :=
  { s with cae := { s.cae with split := vmod s.cae.split f g } }

/-- Head-bound function f is in host-assisted mode on head h. -/
def State.hostMode (s : State) (f : Fin 8) (h : Nat) : Bool := s.cae.split[f].mode.getLsbD h

/-- A device-bound or Lark-bound function is in host-assisted mode. -/
def State.hostFn (s : State) (f : Fin 8) : Bool := s.cae.split[f].mode.getLsbD 0

/-- The pending change of a function takes effect on the heads of a mask. -/
def SplitFn.apply (x : SplitFn) (m : BitVec 8) : SplitFn :=
  { x with
    mode := if x.want then x.mode ||| (x.pend &&& m) else x.mode &&& ~~~(x.pend &&& m)
    pend := x.pend &&& ~~~m
    skip := x.skip &&& ~~~m }

/-- Head h reaches a frame boundary (R16). -/
def SplitFn.boundary (x : SplitFn) (f h : Nat) : SplitFn :=
  let b : BitVec 8 := 1 <<< h
  if headBound f then
    if x.pend &&& b = 0 then x
    else if x.skip &&& b ≠ 0 then { x with skip := x.skip &&& ~~~b }
    else x.apply b
  else if x.pend = 0 ∨ x.ref ≠ some h ∨ x.passed then x
  else if x.skip ≠ 0 then { x with skip := 0 }
  else if delayed f then { x with passed := true, ref := none }
  else { x.apply 0xFF with ref := none }

/-- Every function at a frame boundary of head h. -/
def State.splitBoundary (s : State) (h : Nat) : State :=
  (List.finRange 8).foldl (fun (t : State) f => t.modSplit f fun x => x.boundary f.val h) s

/-- Head h starts: head-bound changes pending for it take effect (R17, R18). -/
def State.splitStart (s : State) (h : Nat) : State :=
  (List.finRange 8).foldl (fun (t : State) f =>
    t.modSplit f fun x => if headBound f.val then x.apply (1 <<< h) else x) s

/-- The lowest-numbered running head. -/
def State.lowRunning (s : State) : Option Nat := (List.range 8).find? fun h => s.running h

/-- Head h has stopped: a device-bound change whose reference it was passes to the lowest running head, or takes effect
(R18). Call with RUNNING of h already 0. -/
def State.splitStop (s : State) (h : Nat) : State :=
  (List.finRange 8).foldl (fun (t : State) f => t.modSplit f fun x =>
    if headBound f.val then { x with skip := x.skip &&& ~~~((1 : BitVec 8) <<< h) }
    else if x.pend = 0 ∨ x.ref ≠ some h ∨ x.passed then x
    else match t.lowRunning with
      | some g => { x with ref := some g, skip := 0 }
      | none => if delayed f.val then { x with passed := true, ref := none, skip := 0 } else { x.apply 0xFF with ref := none }) s

/-- A change whose boundary has passed takes effect at its sample period or round. -/
def State.splitLate (s : State) (f : Fin 8) : State :=
  s.modSplit f fun x => if x.passed then { x.apply 0xFF with passed := false, ref := none } else x

/-- Heads of a mask that run. -/
def State.runMask (s : State) : BitVec 8 :=
  (List.range 8).foldl (fun m h => if s.running h then m ||| (1 <<< h) else m) 0

/-- Running heads within a line of their next boundary. -/
def State.nearMask (s : State) : BitVec 8 :=
  (List.finRange 8).foldl (fun m (h : Head) =>
    if s.running h.val && decide (s.quadsToFrame h < (s.raster h.val).htotal) then m ||| (1 <<< h.val) else m) 0

/-- The epoch of the frame that begins at head h's boundary for a change accepted now. -/
def State.boundaryEpoch (s : State) (h : Nat) : Word :=
  wd ((s.epoch h).toNat + (if s.nearMask.getLsbD h then 2 else 1))

/-- SPLITSET of function f for the heads of a mask (R16, R17, R269): the state, NOW and the epoch word. Where heads run and
none of them is configured, the lowest-numbered running head is the reference: DESIGN CHOICE (log entry 102). -/
def State.splitSet (s : State) (f : Fin 8) (mask : BitVec 8) (want : Bool) : State × Bool × Word :=
  let x := s.cae.split[f]
  if headBound f.val then
    let same := if want then x.mode &&& mask else ~~~x.mode &&& mask
    if same = mask ∧ x.pend = 0 then (s, true, 0)
    else
      let p := mask &&& ~~~same
      let t := s.modSplit f fun y => { y with pend := p, want := want, skip := p &&& s.nearMask, passed := false }
      match (List.range 8).find? fun h => mask.getLsbD h && s.running h with
      | none => (t, true, 0)
      | some h => (t, false, s.boundaryEpoch h)
  else if (x.mode.getLsbD 0 == want) && x.pend == 0 then (s, true, 0)
  else
    let p : BitVec 8 := if x.mode.getLsbD 0 = want then 0 else 1
    match (match s.refHead with | some h => some h | none => s.lowRunning) with
    | none =>
      let t := s.modSplit f fun y =>
        let z := { y with pend := p, want := want, skip := 0, passed := delayed f.val && p != 0, ref := none }
        if delayed f.val then z else z.apply 0xFF
      (t, true, 0)
    | some h =>
      (s.modSplit f fun y =>
        { y with
          pend := p, want := want, skip := if s.nearMask.getLsbD h then 1 else 0
          passed := false, ref := if p = 0 then none else some h },
       false, s.boundaryEpoch h)

/-- The words of SPLITGET (R405): modes, pending, and a word for each function. -/
def State.splitWords (s : State) : List Word :=
  let modes := (List.finRange 8).foldl (fun (m : Nat) f => if s.cae.split[f].mode = 0 then m else m + 2 ^ f.val) 0
  let pend := (List.finRange 8).foldl (fun (m : Nat) f => if s.cae.split[f].pend = 0 then m else m + 2 ^ f.val) 0
  wd modes :: wd pend :: (List.finRange 8).map fun f =>
    if headBound f.val then wd (s.cae.split[f].mode.toNat * 256 + s.cae.split[f].pend.toNat) else 0

end Sys2Proof.Machine
end

