-- ==== Sys2Proof/Machine/Layers.lean ====
section
/-! DEFINITION. Slots, engines and the latch of a line (03_layers_tiles.md, R51 to R54, R60, R73). -/

namespace Sys2Proof.Machine

/-! ### Latched state -/

/-- Slot register n as latched. -/
def Latched.slot (l : Latched) (n : Nat) : Word := nth 0 l.slots n
/-- Word w of slot n's descriptor as latched. -/
def Latched.word (l : Latched) (n w : Nat) : Word := nth 0 (nth [] l.desc n) w
/-- KIND of slot n's descriptor. -/
def Latched.kind (l : Latched) (n : Nat) : Nat := fld (l.word n 0) 23 22
/-- FMT. -/
def Latched.fmt (l : Latched) (n : Nat) : Nat := fld (l.word n 0) 21 19

/-- Bits per pixel of a format (R55). -/
def fmtBits (f : Nat) : Nat :=
  match f with
  | 0 => 2 | 1 => 4 | 2 => 8 | 3 => 16 | _ => 24

/-- A latched descriptor is invalid (R54, R78). KIND 0b00 never is. -/
def Latched.invalid (l : Latched) (n : Nat) : Bool :=
  let c := l.word n 0
  let w5 := l.word n 5
  match l.kind n with
  | 0 => false
  | 3 => decide (4096 < fld w5 12 0 ∨ 16384 < fld (l.word n 4) 23 10 + fld w5 12 0)
  | k =>
    let f := l.fmt n
    decide (6 ≤ f) || fld c 6 5 == 3
      || (k == 1 && (fld c 18 17 == 3 || decide (fld w5 23 20 < 5 ∨ 10 < fld w5 23 20 ∨ fld w5 19 16 < 5 ∨ 10 < fld w5 19 16)))
      || (bit c 16 && decide (f < 2) && !l.tileHost)
      || (k == 2 && decide ((l.word n 4).toNat % 32 ≠ 0 ∨ 8 * (l.word n 4).toNat < (fld w5 23 12 + 1) * fmtBits f))

/-- Slot n is enabled and lies below NSLOT (R51). -/
def Latched.on (l : Latched) (n : Nat) : Bool := decide (n < l.nslot) && bit (l.slot n) 23

/-- Slot n contributes to the line (R93). -/
def Latched.draws (l : Latched) (n : Nat) : Bool := l.on n && l.kind n != 0 && !l.invalid n

/-- What is latched for line k at this instant (R53, R60, R94). -/
def State.latchNow (s : State) (h : Head) (k : Nat) : Latched :=
  { line := k
    slots := spRead wsReset s.ws (aHead h.val 0x10) 8
    desc := (List.range 8).map fun n => spRead wsReset s.ws (aDesc h.val n 0) 16
    pmap := spRead wsReset s.ws (aHead h.val 0x19) 3
    backdrop := s.rd (aHead h.val 0x1C)
    comp := s.rd (aHead h.val 0x1D)
    nslot := s.fget (aHead h.val 0x18) 23 20
    tileHost := s.hostMode 1 h.val
    lpHost := s.hostMode 2 h.val
    dim := s.heads[h].dimLatch }

/-- An engine as CINV or a change of ENG leaves it: empty cache and map-row buffer (R52, R73). -/
def EngSt.emptied (e : EngSt) : EngSt := { e with cache := [], mapKey := none, mapRow := [] }

/-- Engine e of the state, changed by f. -/
def State.modEng (s : State) (e : Nat) (f : EngSt → EngSt) : State :=
  if h : e < 66 then { s with engines := vmod s.engines ⟨e, h⟩ f } else s

/-- The engine of number e. -/
def State.engAtNo (s : State) (e : Nat) : EngSt := if h : e < 66 then s.engines[e] else EngSt.reset

/-- A halted engine leaves its slot for the lowest-numbered engine of the pool (R286). -/
def State.replaceEngine (s : State) (h n : Nat) : State :=
  if s.slotEn h n && (s.engAtNo (s.engOf h n)).halted then
    match s.pool with
    | y :: _ => s.fset (aHead h (0x10 + n)) 22 16 y
    | [] => s
  else s

/-- The rotation mirrors slot n of head h now (R285). -/
def State.mirrored (s : State) (h n : Nat) : Bool :=
  s.repair.mirror && s.repair.rotHead == h && s.repair.rotSlot == n

/-- The engine that mirrors slot n of head h: of LIVE and SPARE the one that does not serve it (R285). -/
def State.mirrorEng (s : State) (h : Head) (n : Slot) : Nat :=
  if s.heads[h].engAt[n] = s.fget (aRot 1) 20 14 then s.fget (aRot 1) 13 7 else s.fget (aRot 1) 20 14

/-- The stand-in that latches a line with slot n's engine now. -/
def State.standIn (s : State) (h : Head) (n : Slot) : Option Nat := if s.mirrored h.val n.val then some (s.mirrorEng h n) else none

/-- Slot n's engine starts the line latched now with an empty cache and map-row buffer: it is new to the slot, or CINV was
written (R52, R73). -/
def State.startsEmpty (s : State) (h : Head) (n : Slot) : Bool :=
  (s.heads[h].engAt[n] != s.engOf h.val n.val && s.slotEn h.val n.val) || s.heads[h].cinv.getLsbD n.val

/-- Slot n of a head takes its engine at a latch: a new engine starts empty, CINV empties the engine and, while it is mirrored,
its stand-in. -/
def State.latchEngine (s0 : State) (h : Head) (n : Slot) : State :=
  let s := s0.replaceEngine h.val n.val
  let e := s.engOf h.val n.val
  let s1 := if s.startsEmpty h n then s.modEng e EngSt.emptied else s
  let s2 := match s.standIn h n with
    | some y => if s.heads[h].cinv.getLsbD n.val then s1.modEng y EngSt.emptied else s1
    | none => s1
  s2.modHead h fun x =>
    { x with
      engAt := if s.slotEn h.val n.val then x.engAt.set n.val e else x.engAt
      cinv := x.cinv &&& ~~~((1 : BitVec 8) <<< n.val) }

/-- Engine e without anything to do. -/
def EngWork.idle (e : Nat) : EngWork := { eng := e, units := [], poisoned := false, raw := [], fills := [], map := none, draw := 0 }

/-- The state of a slot's work at the latch, on the engine that latches it: a slot that draws nothing, one of a frame in Dim (R367) and one whose halted
engine finds no other (R287) have finished. -/
def slotAtLatch (l : Latched) (n eng : Nat) (fresh : Bool) (standIn : Option Nat) (halted : Bool) : SlotLine :=
  { phase := if l.draws n && !l.dim && !halted then .latched else .finished, fresh := fresh, standIn := standIn
    work := EngWork.idle eng, begun := 0, px := [] }

/-- Invalid descriptors of an active line are counted, the layer event raised on the first of each frame (R54). -/
def State.countDesc (s : State) (h : Head) (l : Latched) : State :=
  let bad := (List.range 8).filter fun n => l.on n && l.invalid n
  let s1 := bad.foldl (fun (t : State) n => t.inc (aHead h.val (0x20 + n)) 23 16) s
  let f := s.raisedBy h l.line
  if bad.isEmpty || f.desc then s1 else (s1.setRaised h l.line { f with desc := true }).evHead h.val 2

/-- The engines of a head latch line k (R39, R53). Lines in vertical blanking are rendered without any fetch and leave
nothing behind; slots of an object plane keep their slivers only as R79 says, which rendering checks. -/
def State.latchLine (s : State) (h : Head) (k : Nat) : State :=
  let s1 := (List.finRange 8).foldl (fun (t : State) n => t.latchEngine h n) s
  if k < (s.raster h.val).vact then
    let l := s1.latchNow h k
    let w : LineWork :=
      { lat := l, occl := none, missed := false
        slots := Vector.ofFn fun n => slotAtLatch l n.val (s1.engOf h.val n.val) ((s.replaceEngine h.val n.val).startsEmpty h n) (s.standIn h n)
          (s1.engAtNo (s1.engOf h.val n.val)).halted }
    (s1.modHead h fun x => { x with lines := x.lines ++ [w] }).countDesc h l
  else s1

/-! ### Slot registers -/

/-- A rotation under way on slot n of head h. -/
def State.rotOn (s : State) (h n : Nat) : Bool := s.rotStep != 0 && s.repair.rotHead == h && s.repair.rotSlot == n

/-- The rotation under way is abandoned (R287): whichever engine serves the slot keeps it. -/
def State.rotAbort (s : State) : State :=
  let s1 := (s.fset (aRot 1) 23 21 0).inc (aRot 2) 15 8
  { s1 with repair := { s1.repair with mirror := false, testing := none, rotRetry := false } }

/-- A write of ENG with this value is ignored (R52, R284, R287). -/
def State.engBad (s : State) (h n e : Nat) : Bool :=
  decide (65 < e) || s.engBoundElse h n e || (s.inRotation e && !(s.rotOn h n && s.engOf h n == e)) || (s.fuses.is2404 && decide (4 ≤ h)) || s.engFailed e

/-- A write of SLOTn (R52, R73, R95). One that changes ENG, or clears EN, of a slot under rotation abandons it (R287). -/
def State.slotPut (s0 : State) (h : Head) (n : Slot) (v : Word) : State :=
  let a := aHead h.val (0x10 + n.val)
  let s := if s0.rotOn h.val n.val && (fld v 22 16 != s0.engOf h.val n.val || !bit v 23) then s0.rotAbort else s0
  let bad := s.engBad h.val n.val (fld v 22 16)
  let s1 := s.fset a 14 4 (fld v 14 4)
  let s2 := if bad then s1 else s1.fset a 22 16 (fld v 22 16)
  let e := s2.engOf h.val n.val
  let refuse := bit v 23 && !s.slotEn h.val n.val && (s2.engBoundElse h.val n.val e || s2.inRotation e || s2.engFailed e)
  let s3 := s2.bset a 23 (bit v 23 && !refuse)
  let s4 := if bit v 15 then s3.modHead h fun x => { x with cinv := x.cinv ||| (1 <<< n.val) } else s3
  if bad || refuse then s4.evHead h.val 2 else s4

/-- A write of LAYCTL (R51). -/
def State.layctlPut (s : State) (h : Head) (v : Word) : State :=
  if s.bget (aHead h.val 0) 23 || decide (fld v 23 20 < 2 ∨ 8 < fld v 23 20) then s
  else
    let s1 := if s.rotStep != 0 && s.repair.rotHead == h.val && fld v 23 20 != s.fget (aHead h.val 0x18) 23 20 then s.rotAbort else s
    s1.put (aHead h.val 0x18) v

/-- PALSWAP of palettes a and b of a head (R68). -/
def State.palswap (s : State) (h a b : Nat) : State :=
  let adr := fun p => aHead h (0x19 + p / 6)
  let lo := fun p => 4 * (p % 6)
  let va := s.fget (adr a) (lo a + 3) (lo a)
  let vb := s.fget (adr b) (lo b + 3) (lo b)
  (s.fset (adr a) (lo a + 3) (lo a) vb).fset (adr b) (lo b + 3) (lo b) va

/-- SLOT_WRITE (R52). -/
def execSlotWrite (r : Requester) (h : Head) (n : Slot) (v : Word) (s : State) : Host.Outcome State Fault Refusal :=
  .next (s.gated r (aHead h.val (0x10 + n.val)) fun t => t.directly r (aHead h.val (0x10 + n.val)) v fun u _ w => u.slotPut h n w)

/-- CINV: 1 is written to CINV, the slot's other fields as they stand (R73). -/
def execCinv (r : Requester) (h : Head) (n : Slot) (s : State) : Host.Outcome State Fault Refusal :=
  .next (s.gated r (aHead h.val (0x10 + n.val)) fun t => t.modHead h fun x => { x with cinv := x.cinv ||| (1 <<< n.val) })

/-- NSLOT_WRITE (R51). -/
def execNslotWrite (r : Requester) (h : Head) (v : Word) (s : State) : Host.Outcome State Fault Refusal :=
  .next (s.gated r (aHead h.val 0x18) fun t => t.layctlPut h v)

end Sys2Proof.Machine
end

