-- ==== Sys2Proof/Machine/Objects.lean ====
section
/-! DEFINITION. Object evaluation (04_objects.md, R74 to R88): planes, candidates, order, limits. -/

namespace Sys2Proof.Machine

/-- Columns of a plane that lie within its width and the active raster (R80). -/
def planeCols (p : Plane) (hact : Nat) : Nat := min (fld p.size 23 12 + 1) (4 * hact - fld p.pos 23 12)

/-- Object planes of a head that are enabled and valid now, slot 7 down to slot 0, COUNT cut to 4,096 in sum (R78, R82).
The answer says whether a range was cut. -/
def State.planesNow (s : State) (h : Head) : List Plane × Bool :=
  let ns := s.fget (aHead h.val 0x18) 23 20
  (List.range 8).reverse.foldl (fun (acc : List Plane × Bool) n =>
    let d := fun w => s.rd (aDesc h.val n w)
    let count := fld (d 5) 12 0
    let first := fld (d 4) 23 10
    if n < ns && s.slotEn h.val n && fld (d 0) 23 22 == 3 && decide (count ≤ 4096 ∧ first + count ≤ 16384) then
      let left := 4096 - (acc.1.map (·.count)).sum
      let p : Plane :=
        { slot := n, ctl := d 0, pos := d 1, size := d 2, base := d 3, first := first, count := min count left
          pmax := fld (d 6) 23 20, pmin := fld (d 6) 19 16, win := d 12 }
      (acc.1 ++ [p], acc.2 || decide (left < count))
    else acc) ([], false)

/-- Displayed width of an object. -/
def objDW (w : List Word) : Nat := (fld (nth 0 w 3) 23 19 + 1) * (fld (nth 0 w 0) 9 5 + 1)
/-- Displayed height. -/
def objDH (w : List Word) : Nat := (fld (nth 0 w 3) 18 14 + 1) * (fld (nth 0 w 0) 4 0 + 1)
/-- Column of the left edge, signed. -/
def objX (w : List Word) : Int := sext 14 (fld (nth 0 w 1) 23 10)
/-- Line of the top edge, signed. -/
def objY (w : List Word) : Int := sext 14 (fld (nth 0 w 2) 23 10)

/-- An enabled entry is invalid (R75). -/
def objInvalid (w : List Word) : Bool := bit (nth 0 w 0) 23 && decide (6 ≤ fld (nth 0 w 0) 14 12)

/-- An entry of a plane is a candidate for line k (R80). -/
def isCandidate (p : Plane) (hact k : Nat) (w : List Word) : Bool :=
  let c := nth 0 w 0
  let ly : Int := (k : Int) - (fld p.pos 11 0 : Nat)
  let prio := fld c 22 19
  let cols : Int := (planeCols p hact : Nat)
  bit c 23 && decide (fld c 14 12 < 6) && decide (p.pmin ≤ prio ∧ prio ≤ p.pmax)
    && decide (0 ≤ ly ∧ ly ≤ (fld p.size 11 0 : Nat)) && decide (objY w ≤ ly ∧ ly ≤ objY w + (objDH w : Nat) - 1)
    && decide (0 < cols ∧ objX w ≤ cols - 1 ∧ 0 ≤ objX w + (objDW w : Nat) - 1)

/-- A candidate as a sliver with its source row (R80). -/
def toSliver (p : Plane) (k : Nat) (w : List Word) : Sliver :=
  let c := nth 0 w 0
  let r := ((k : Int) - (fld p.pos 11 0 : Nat) - objY w).toNat
  let sr := 8 * r / (fld c 4 0 + 1)
  { plane := p, words := w, row := if bit c 10 then 8 * (fld (nth 0 w 3) 18 14 + 1) - 1 - sr else sr }

/-- The entries of a plane's range with their words 0 to 6, in order of position; a skipped one is empty, and so not
enabled. -/
def State.planeEntries (s : State) (p : Plane) (skip : List Nat) : List (Nat × List Word) :=
  (List.range p.count).map fun i =>
    (p.first + i, if skip.contains (p.first + i) then [] else spRead wsReset s.ws (aObjStore (p.first + i) 0) 7)

/-- Candidates in the order of R83 (hardware mode: PRIO first) or R84 (plane and position only). -/
def orderCandidates (host : Bool) (l : List Sliver) : List Sliver :=
  if host then l
  else ((List.range 16).reverse.map fun q => l.filter fun x => fld (nth 0 x.words 0) 22 19 == q).flatten

/-- Bits of store words found wrong at the scan are corrected, rebuilt or reported; an entry with an uncorrectable word is
skipped (R278, R283). -/
def State.scanChecks (s : State) (ps : List Plane) : State × List Nat :=
  let hit := s.repair.bad.filter fun b => b.region == 20 && b.addr % 8 != 7 &&
    ps.any fun p => decide (p.first ≤ b.addr / 8 ∧ b.addr / 8 < p.first + p.count)
  (hit.foldr insertBad []).foldl (fun (acc : State × List Nat) b =>
    let (t, lost) := acc.1.readCheck 20 b.addr .clean
    (t, if lost then (b.addr / 8) :: acc.2 else acc.2)) (s, [])

/-- What line k's counts go to: the frame in progress, or the next frame while the present one is still counted. -/
def State.countLine (s : State) (h : Head) (k : Nat) (f : LineCounts → LineCounts) : State :=
  s.modHead h fun x =>
    if k < s.posLine h.val ∧ s.posLine h.val < (s.raster h.val).vact then
      { x with fr := { x.fr with ahead := f x.fr.ahead } }
    else { x with fr := { x.fr with now := f x.fr.now } }

/-- Evaluation of line k of a head, begun at the present position (R79 to R88). A line that is the first of its frame with a drop and
also its first cut line raises the object event once: DESIGN CHOICE (log entry 108). -/
def State.evaluate (s : State) (h : Head) (k : Nat) : State :=
  let r := s.raster h.val
  let (ps, cut) := s.planesNow h
  let (s0, skip) := s.scanChecks ps
  let budget := s.quadCycles h.val (r.htotal - s.posQuad h.val)
  let all := (ps.map fun p => (s.planeEntries p skip).map fun w => (p, w)).flatten
  let seen := all.take (16 * budget)
  let bad := ((seen.filter fun e => objInvalid e.2.2).map fun e => e.2.1).eraseDups.length
  let cands := (seen.filter fun e => isCandidate e.1 r.hact k e.2.2).map fun e => toSliver e.1 k e.2.2
  let kept := (orderCandidates (s.hostMode 0 h.val) cands).take 512
  let scan := (all.length + 15) / 16
  let made := kept.take (2 * (budget - scan))
  let isCut := decide (budget < scan + (kept.length + 1) / 2)
  let took := min budget (scan + (kept.length + 1) / 2)
  let drop := cands.length - 512
  let s1 := s0.modHead h fun x => { x with evals := (x.evals.filter fun e => e.line != k) ++ [{ line := k, slivers := made }] }
  let s2 := s1.countLine h k fun c =>
    { c with
      peakCand := max c.peakCand (min 4095 cands.length)
      peakSl := max c.peakSl made.length
      longEv := max c.longEv (min 8191 took) }
  let s3 := if cut then s2.inc (aObj h.val 1) 11 0 else s2
  let s4 := s3.incN (aObj h.val 2) 23 12 bad
  let s5 := if drop = 0 then s4 else (s4.incN (aObj h.val 0) 23 0 drop).sigFlag h 6
  let s6 := if isCut then s5.inc (aObj h.val 1) 23 12 else s5
  let f := s.raisedBy h k
  let up := (drop != 0 && !f.drop) || (isCut && !f.cut)
  let s7 := s6.setRaised h k { f with drop := f.drop || drop != 0, cut := f.cut || isCut }
  if up then s7.evHead h.val 3 else s7

/-- The line whose render-aligned entries and evaluation belong to the present beam line (R41, R47). -/
def State.evalLineNo (s : State) (h : Head) : Nat :=
  (s.posLine h.val + s.heads[h].lead + 1) % max 1 (s.raster h.val).vtotal

/-- OBJECT_EVALUATION: once the render-aligned entries of the beam line have issued, the store evaluates line b + L + 1 if it
is active and not yet evaluated; nothing before a frame has begun (R39, R41, R47). -/
def execObjectEvaluation (h : Head) (s : State) : Host.Outcome State Fault Refusal :=
  let k := s.evalLineNo h
  if s.running h.val && s.heads[h].begun == .flow && s.heads[h].dueRender.isEmpty && decide (k < (s.raster h.val).vact)
      && !(s.heads[h].evals.any fun e => e.line == k) then .next (s.evaluate h k)
  else .next s

end Sys2Proof.Machine
end

