-- ==== Sys2Proof/Machine/Render.lean ====
section
/-! DEFINITION. Rendering of a slot's line (R55 to R67, R72, R73, R81, R89, R90, R99): sources, palettes, caches, what is
fetched, what enters a cache, and what pixels come of it. The fetches of one line are asked in one instant, with the data of that
instant (log entry 20); a pixel is resolved once its units have come. -/

namespace Sys2Proof.Machine

/-- A transparent pixel. -/
def Px.clear : Px := { r := 0, g := 0, b := 0, a := 0 }

/-! ### Pixel values -/

/-- A component of k bits widened to 8 by repeating its high bits. -/
def widen5 (v : Nat) : Nat := v * 8 + v / 4
/-- The same for 6 bits. -/
def widen6 (v : Nat) : Nat := v * 4 + v / 16

/-- The stored value of b bits at bit offset o of bytes (R55). -/
def storedAt (d : List Byte) (o b : Nat) : Nat :=
  if b < 8 then ((nth 0 d (o / 8)).toNat >>> (o % 8)) % 2 ^ b
  else ofBytesLE ((d.drop (o / 8)).take (b / 8))

/-- The physical palette that the latched palette map gives a logical one (R68). -/
def physPal (pmap : List Word) (pal : Nat) : Nat := nbits (nth 0 pmap (pal / 6)).toNat (4 * (pal % 6) + 3) (4 * (pal % 6))

/-- A palette entry of head h through the latched palette map (R68, R69). -/
def State.palette (s : State) (h : Nat) (pmap : List Word) (pal i : Nat) : Px :=
  let c := s.rd (aPal h (physPal pmap pal) i 0)
  { r := fld c 23 16, g := fld c 15 8, b := fld c 7 0, a := s.fget (aPal h (physPal pmap pal) i 1) 7 0 }

/-- The palette index of an indexed pixel (R56). -/
def RawPx.index (c : RawPx) : Nat :=
  (if c.fmt = 0 then c.bank * 64 + c.sub * 4 + c.val else if c.fmt = 1 then c.sub * 16 + c.val else c.val) % 256

/-- A stored value resolved (R55, R56), its alpha scaled by its object's FADE (R89). -/
def State.resolve (s : State) (h : Nat) (pmap : List Word) (c : RawPx) : Px :=
  let v := c.val
  let p : Px := match c.fmt with
    | 3 => { r := widen5 (nbits v 15 11), g := widen6 (nbits v 10 5), b := widen5 (nbits v 4 0),
             a := if c.keyen && v == c.key then 0 else 255 }
    | 4 => { r := nbits v 23 16, g := nbits v 15 8, b := nbits v 7 0, a := 255 }
    | 5 => { r := widen6 (nbits v 17 12), g := widen6 (nbits v 11 6), b := widen6 (nbits v 5 0), a := widen6 (nbits v 23 18) }
    | _ =>
      let e := s.palette h pmap c.pal c.index
      if c.trans0 && v == 0 then { e with a := 0 } else e
  { p with a := p.a * (c.fade + 1) / 256 }

/-- Region addresses of the palette words that a pixel reads when it resolves. -/
def RawPx.palWords (c : RawPx) (h : Nat) (pmap : List Word) : List Nat :=
  if c.fmt < 3 then
    let a := aPal h (physPal pmap c.pal) c.index 0 - 0xC80000
    [a, a + 1]
  else []

/-! ### What a slot shows -/

/-- The window word shows column x (R64). -/
def winShows (ctl win : Word) (x : Nat) : Bool :=
  !bit ctl 12 || (decide (fld win 23 12 ≤ x ∧ x ≤ fld win 11 0) != bit ctl 11)

/-- Column x lies in a list of ranges. -/
def inSpans (l : List (Nat × Nat)) (x : Nat) : Bool := l.any fun e => decide (e.1 ≤ x ∧ x ≤ e.2)

/-- Line k lies within slot n's layer. -/
def Latched.inLines (l : Latched) (n : Nat) : Bool :=
  decide (fld (l.word n 1) 11 0 ≤ l.line ∧ l.line ≤ fld (l.word n 1) 11 0 + fld (l.word n 2) 11 0)

/-- First column and the column after the last of slot n's layer, within the active width. -/
def Latched.cols (l : Latched) (n hact : Nat) : Nat × Nat :=
  (fld (l.word n 1) 23 12, min (4 * hact) (fld (l.word n 1) 23 12 + fld (l.word n 2) 23 12 + 1))

/-- CERT of slot n is honoured on the line (R97). -/
def Latched.certified (l : Latched) (n : Nat) : Bool :=
  let c := l.word n 0
  let b := l.slot n
  l.on n && (l.kind n == 1 || l.kind n == 2) && bit c 14 && !bit c 15 && (fld c 6 5 == 0 || fld c 6 5 == 2)
    && (fld b 14 13 == 0 || fld b 14 13 == 3) && fld b 12 5 == 0 && l.inLines n && !l.invalid n && (!bit c 7 || l.lpHost)

/-- The certified span of slot n: at most two ranges of columns (R97). -/
def Latched.certSpans (l : Latched) (n hact : Nat) : List (Nat × Nat) :=
  if l.certified n then
    let (lo, hi) := l.cols n hact
    let c := l.word n 0
    let w0 := fld (l.word n 12) 23 12
    let w1 := fld (l.word n 12) 11 0
    let spans := if !bit c 12 then [(lo, hi)]
      else if !bit c 11 then [(max lo w0, min hi (w1 + 1))]
      else if w1 < w0 then [(lo, hi)]
      else [(lo, min hi w0), (max lo (w1 + 1), hi)]
    (spans.filter fun e => decide (e.1 < e.2)).map fun e => (e.1, e.2 - 1)
  else []

/-- The occluded columns of each slot: the certified spans of every higher one (R99). -/
def Latched.occlusion (l : Latched) (hact : Nat) : List (List (Nat × Nat)) :=
  (List.range 8).map fun n => (((List.range 8).filter fun m => decide (n < m)).map fun m => l.certSpans m hact).flatten

/-! ### Fetching -/

/-- A slot's line while it is gathered: its engine as it will be once all that is asked for has come, the engine as it stands
with what the line uses most recent, the units asked for in order, what they bring into the cache, faulty tile bodies. -/
structure Gather where
  eng : EngSt
  held : EngSt
  units : List Nat
  fills : List Fill
  map : Option MapFill
  bad : Nat

/-- A line of an engine of which nothing has been gathered. -/
def Gather.start (e : EngSt) : Gather := { eng := e, held := e, units := [], fills := [], map := none, bad := 0 }

/-- Units asked for, more. -/
def Gather.ask (g : Gather) (us : List Nat) : Gather := { g with units := g.units ++ us }

/-- Bytes as a fetch accepted now sees them. -/
def State.nowBytes (s : State) (a n : Nat) : List Byte :=
  (((unitsOf a n).map fun u => s.unitNow u).flatten.drop (a % 32)).take n

/-- Cache lines that a key takes: one for an object unit, the requested bytes of a stripe otherwise. -/
def keyLines (k : Nat × Nat × Nat × Nat × Nat) : Nat :=
  if k.2.1 = 8 then 1 else max 32 ((8 <<< k.2.2.1) * fmtBits k.2.1) / 32

/-- The entries that 4,096 lines hold, most recently used first. -/
def fitCache : Nat → List ((Nat × Nat × Nat × Nat × Nat) × List Byte) → List ((Nat × Nat × Nat × Nat × Nat) × List Byte)
  | _, [] => []
  | room, e :: t => if keyLines e.1 ≤ room then e :: fitCache (room - keyLines e.1) t else []

/-- An entry enters the cache, or becomes the most recently used. -/
def EngSt.cachePut (g : EngSt) (k : Nat × Nat × Nat × Nat × Nat) (d : List Byte) : EngSt :=
  { g with cache := fitCache 4096 ((k, d) :: g.cache.filter fun e => e.1 != k) }

/-- What the cache holds under a key. -/
def EngSt.cacheGet (g : EngSt) (k : Nat × Nat × Nat × Nat × Nat) : Option (List Byte) :=
  (g.cache.find? fun e => e.1 == k).map (·.2)

/-- An entry that the cache holds, or that the line has asked for, is used: its bytes, and the units that it waits for. -/
def Gather.use (g : Gather) (k : Nat × Nat × Nat × Nat × Nat) (d : List Byte) : Gather × List Byte × List Nat :=
  ({ g with
      eng := g.eng.cachePut k d
      held := if (g.held.cacheGet k).isSome then g.held.cachePut k d else g.held },
   d, ((g.fills.filter fun f => f.key == k).map (·.units)).flatten)

/-- Entries are fetched: their units are asked for, and they enter the cache when these have come. -/
def Gather.fetch (g : Gather) (us : List Nat) (es : List ((Nat × Nat × Nat × Nat × Nat) × List Byte)) : Gather :=
  { (g.ask us) with
    eng := es.foldl (fun (e : EngSt) x => e.cachePut x.1 x.2) g.eng
    fills := g.fills ++ es.map fun x => { key := x.1, data := x.2, units := us } }

/-- Codes of a compressed body (R58): stored values so far in reverse, bytes of body consumed, faulty. Runs on fuel. -/
def decodeBody (pb need : Nat) : Nat → List Byte → List Nat → Nat → List Nat × Nat × Bool
  | 0, _, acc, n => (acc, n, true)
  | _ + 1, [], acc, n => if acc.length = need then (acc, n, false) else (acc, n, true)
  | k + 1, c :: t, acc, n =>
    if acc.length = need then (acc, n, false)
    else
      let m := c.toNat % 128 + 1
      let left := need - acc.length
      if c.getLsbD 7 then
        if t.length < pb then (acc, n + 1 + t.length, true)
        else
          let acc' := List.replicate (min m left) (ofBytesLE (t.take pb)) ++ acc
          if left < m then (acc', n + 1 + pb, true) else decodeBody pb need k (t.drop pb) acc' (n + 1 + pb)
      else
        let have_ := min m (t.length / pb)
        let vals := (List.range (min have_ left)).map fun i => ofBytesLE ((t.drop (i * pb)).take pb)
        let acc' := vals.reverse ++ acc
        if have_ < m then (acc', n + 1 + t.length, true)
        else if left < m then (acc', n + 1 + m * pb, true)
        else decodeBody pb need k (t.drop (m * pb)) acc' (n + 1 + m * pb)

/-- A tile set as a slot's latched words name it. -/
structure TileSet where
  base : Nat
  fmt : Nat
  tsize : Nat
  comp : Bool

/-- Pixels on a tile's side. -/
def TileSet.ts (t : TileSet) : Nat := 8 <<< t.tsize
/-- Bytes of a stripe. -/
def TileSet.stripe (t : TileSet) : Nat := t.ts * fmtBits t.fmt
/-- Bytes of a tile. -/
def TileSet.bytes (t : TileSet) : Nat := t.ts * t.ts * fmtBits t.fmt / 8
/-- The cache key of a stripe (R72). -/
def TileSet.key (t : TileSet) (tile k : Nat) : Nat × Nat × Nat × Nat × Nat := (t.base, t.fmt, t.tsize, tile, k)

/-- A compressed tile is fetched, decoded and cached whole (R58). Of the stripes that it places at once the last is the most
recent, whichever the line needs: DESIGN CHOICE (log entry 105). -/
def State.fetchBody (s : State) (t : TileSet) (tile : Nat) (g : Gather) : Gather :=
  let ea := t.base * 2048 + 4 * tile
  let a := t.base * 2048 + ofBytesLE (s.nowBytes ea 4)
  let pb := fmtBits t.fmt / 8
  let need := t.ts * t.ts
  let (rev, used, faulty) := decodeBody pb need (2 * t.bytes + 1) (s.nowBytes a (2 * t.bytes)) [] 0
  let vals := rev.reverse ++ List.replicate (need - rev.length) 0
  let g1 := g.fetch (unitsOf ea 4 ++ unitsOf a used) ((List.range (t.ts / 8)).map fun k =>
    (t.key tile k, (((vals.drop (8 * t.ts * k)).take (8 * t.ts)).map fun v => bytesLE pb v).flatten))
  { g1 with bad := g1.bad + (if faulty then 1 else 0) }

/-- What the line has fetched under a key: its bytes, and the units that it waits for. -/
def Gather.got (g : Gather) (k : Nat × Nat × Nat × Nat × Nat) : List Byte × List Nat :=
  ((g.eng.cacheGet k).getD [], ((g.fills.filter fun f => f.key == k).map (·.units)).flatten)

/-- A stripe that the line needs: taken from the cache, or fetched (R57, R58, R72). -/
def State.needStripe (s : State) (t : TileSet) (tile k : Nat) (g : Gather) : Gather × List Byte × List Nat :=
  match g.eng.cacheGet (t.key tile k) with
  | some d => g.use (t.key tile k) d
  | none =>
    let a := t.base * 2048 + tile * t.bytes + k * t.stripe
    let g1 := if t.comp then s.fetchBody t tile g
      else g.fetch (unitsOf (a / 32 * 32) (max 32 t.stripe)) [(t.key tile k, s.nowBytes a t.stripe)]
    (g1, g1.got (t.key tile k))

/-- A line's map entries, by (row, column), through the map-row buffer, with the units that each waits for (R72). -/
def State.needMap (s : State) (mapBase mapWl : Nat) (need : List (Nat × Nat)) (g : Gather) :
    Gather × List ((Nat × Nat) × Word × List Nat) :=
  let rows := (need.map (·.1)).eraseDups
  let want := need.eraseDups
  let val := fun (e : Nat × Nat) => wd (ofBytesLE (s.nowBytes (mapBase * 2048 + 3 * (e.1 * 2 ^ mapWl + e.2)) 3))
  let held := fun (e : Nat × Nat) => if g.eng.mapKey = some (mapBase, mapWl, e.1) then
      (g.eng.mapRow.find? fun x => x.1 == e.2).map (·.2) else none
  let oneRow := rows.length == 1
  let allHeld := want.all fun e => (held e).isSome
  let fetched := if oneRow then (if allHeld then [] else want) else want.filter fun e => (held e).isNone
  let unitsAt := fun (e : Nat × Nat) => unitsOf (mapBase * 2048 + 3 * (e.1 * 2 ^ mapWl + e.2)) 3
  let got := want.map fun e => if fetched.contains e then (e, val e, unitsAt e) else (e, (held e).getD 0, [])
  let last := (need.getLast?.map (·.1)).getD 0
  let mine := got.filter fun e => e.1.1 == last
  let fill : MapFill := { key := (mapBase, mapWl, last), row := mine.map fun e => (e.1.2, e.2.1), units := (mine.map (·.2.2)).flatten }
  ({ (g.ask ((fetched.map unitsAt).flatten.eraseDups)) with map := if want.isEmpty || (oneRow && allHeld) then none else some fill }, got)

/-! ### Source coordinates (R61 to R63) -/

/-- WRAP of a coordinate against a source size; `none` is clipped. -/
def wrapTo (mode n c : Nat) : Option Nat :=
  match mode with
  | 1 => if n ≤ c then none else some c
  | 2 => if 32768 ≤ c then some 0 else if n ≤ c then some (n - 1) else some c
  | _ => some (c % max 1 n)

/-- A word of the per-line entry when its bit selects it, or the descriptor's own word. -/
def lpWord (entry : Option (List Word)) (sel : Bool) (i : Nat) (own : Word) : Word :=
  match entry with
  | some e => if sel then nth 0 e i else own
  | none => own

/-- Integer source coordinates of layer column lx, line ly, before WRAP. -/
def Latched.source (l : Latched) (n : Nat) (entry : Option (List Word)) (lx ly : Nat) : Nat × Nat :=
  let c := l.word n 0
  let on := entry.isSome
  let w0 := lpWord entry (bit c 10) 0 (l.word n 6)
  let w1 := lpWord entry (bit c 9) 1 (l.word n 7)
  if bit c 15 then
    let dux := sext 24 (lpWord entry (bit c 8) 2 (l.word n 8)).toNat
    let dvx := sext 24 (lpWord entry (bit c 8) 3 (l.word n 9)).toNat
    let duy := if on && bit c 10 then 0 else sext 24 (l.word n 10).toNat
    let dvy := if on && bit c 9 then 0 else sext 24 (l.word n 11).toNat
    (umod 32 ((w0.toNat * 256 : Nat) + (ly : Int) * duy + (lx : Int) * dux) / 65536,
     umod 32 ((w1.toNat * 256 : Nat) + (ly : Int) * dvy + (lx : Int) * dvx) / 65536)
  else
    ((fld w0 23 8 + lx) % 65536, if on && bit c 9 then fld w1 23 8 else (fld w1 23 8 + ly) % 65536)

/-- Source size of slot n (R63). -/
def Latched.srcSize (l : Latched) (n : Nat) : Nat × Nat :=
  let w5 := l.word n 5
  if l.kind n = 1 then
    let ts := 8 <<< fld (l.word n 0) 18 17
    (2 ^ fld w5 23 20 * ts, 2 ^ fld w5 19 16 * ts)
  else (fld w5 23 12 + 1, fld w5 11 0 + 1)

/-- Shown columns of a tile map or bitmap strip with their source coordinates, left to right. -/
def Latched.shown (l : Latched) (n hact : Nat) (occl : List (Nat × Nat)) (entry : Option (List Word)) :
    List (Nat × Nat × Nat) :=
  let (lo, hi) := l.cols n hact
  let c := l.word n 0
  let win := lpWord entry (bit c 7) 4 (l.word n 12)
  let ly := l.line - fld (l.word n 1) 11 0
  let (sw, sh) := l.srcSize n
  (List.range (hi - lo)).filterMap fun i =>
    let x := lo + i
    if winShows c win x && !inSpans occl x then
      let (u, v) := l.source n entry i ly
      match wrapTo (fld c 6 5) sw u, wrapTo (fld c 6 5) sh v with
      | some u', some v' => some (x, u', v')
      | _, _ => none
    else none

/-- The line's per-line entry, when it is fetched (R65, R66). -/
def State.perLine (s : State) (l : Latched) (n hact : Nat) (occl : List (Nat × Nat)) : Option (Nat × List Word) :=
  let c := l.word n 0
  let (lo, hi) := l.cols n hact
  let a := (l.word n 13).toNat * 2048 + 15 * (l.line - fld (l.word n 1) 11 0)
  if !l.lpHost && fld c 10 7 != 0 && (List.range (hi - lo)).any fun i => !inSpans occl (lo + i) then
    some (a, wordsOfBytes (s.nowBytes a 15))
  else none

/-- A tile map's line; its pixels wait for the units `wait` besides their own. -/
def State.drawTiles (s : State) (l : Latched) (n : Nat) (cols : List (Nat × Nat × Nat)) (wait : List Nat) (g : Gather) :
    Gather × List RawPx :=
  let c := l.word n 0
  let t : TileSet := { base := (l.word n 3).toNat, fmt := l.fmt n, tsize := fld c 18 17, comp := bit c 16 && !l.tileHost }
  let (g1, ents) := s.needMap (l.word n 4).toNat (fld (l.word n 5) 23 20) (cols.map fun e => (e.2.2 / t.ts, e.2.1 / t.ts)) g
  let place := cols.map fun e =>
    let (m, us) := ((ents.find? fun q => q.1 == (e.2.2 / t.ts, e.2.1 / t.ts)).map (·.2)).getD (0, [])
    let row := if bit m 15 then t.ts - 1 - e.2.2 % t.ts else e.2.2 % t.ts
    let col := if bit m 14 then t.ts - 1 - e.2.1 % t.ts else e.2.1 % t.ts
    (e.1, m, row, col, us)
  let keys := (place.map fun e => (fld e.2.1 13 0, e.2.2.1 / 8)).eraseDups
  let (g2, data) := keys.foldl (fun (acc : Gather × List ((Nat × Nat) × List Byte × List Nat)) k =>
    let (g', d) := s.needStripe t k.1 k.2 acc.1
    (g', acc.2 ++ [(k, d)])) (g1, [])
  let b := fmtBits t.fmt
  (g2, place.map fun e =>
    let (d, us) := ((data.find? fun q => q.1 == (fld e.2.1 13 0, e.2.2.1 / 8)).map (·.2)).getD ([], [])
    { col := e.1, units := wait ++ e.2.2.2.2 ++ us, fmt := t.fmt, pal := fld e.2.1 23 20, sub := fld e.2.1 19 16
      bank := fld (l.word n 14) 21 20, trans0 := bit c 13, keyen := bit (l.word n 14) 23, key := fld (l.word n 14) 15 0
      val := storedAt d ((e.2.2.1 % 8 * t.ts + e.2.2.2.1) * b) b, fade := 255, out := none })

/-- A bitmap strip's line: the units of the shown source pixels, uncached (R67). A unit that two shown spans need is asked for
once in the line: DESIGN CHOICE (log entry 106). -/
def State.drawBitmap (s : State) (l : Latched) (n : Nat) (cols : List (Nat × Nat × Nat)) (wait : List Nat) (g : Gather) :
    Gather × List RawPx :=
  let c := l.word n 0
  let b := fmtBits (l.fmt n)
  let adr := fun (e : Nat × Nat × Nat) => (l.word n 3).toNat * 2048 + e.2.2 * (l.word n 4).toNat + e.2.1 * b / 8
  let units := ((cols.map fun e => unitsOf (adr e) ((b + 7) / 8)).flatten).eraseDups
  (g.ask units, cols.map fun e =>
    { col := e.1, units := wait ++ unitsOf (adr e) ((b + 7) / 8), fmt := l.fmt n, pal := fld c 3 0, sub := fld (l.word n 14) 19 16
      bank := fld (l.word n 14) 21 20, trans0 := bit c 13, keyen := bit (l.word n 14) 23, key := fld (l.word n 14) 15 0
      val := storedAt (s.nowBytes (adr e) ((b + 7) / 8)) (e.2.1 * b % 8) b, fade := 255, out := none })

/-- Shown columns of a sliver inside its plane: head column and source column (R80, R90). -/
def Sliver.cols (v : Sliver) (hact : Nat) (occl : List (Nat × Nat)) : List (Nat × Nat) :=
  let c := nth 0 v.words 0
  let ox := objX v.words
  let sw := 8 * (fld (nth 0 v.words 3) 23 19 + 1)
  let lo := ox.toNat
  let hi := min (planeCols v.plane hact) (ox + (objDW v.words : Nat)).toNat
  (List.range (hi - lo)).filterMap fun i =>
    let lx := lo + i
    let x := fld v.plane.pos 23 12 + lx
    if winShows v.plane.ctl v.plane.win x && !inSpans occl x then
      let sc := 8 * ((lx : Int) - ox).toNat / (fld c 9 5 + 1)
      some (x, if bit c 11 then sw - 1 - sc else sc)
    else none

/-- A 32-byte unit of object data: taken from the cache, or fetched (R90). -/
def State.needUnit (s : State) (u : Nat) (g : Gather) : Gather × List Byte × List Nat :=
  let k := (u, 8, 0, 0, 0)
  match g.eng.cacheGet k with
  | some d => g.use k d
  | none =>
    let g1 := g.fetch [u] [(k, s.unitNow u)]
    (g1, g1.got k)

/-- One sliver's units and pixels (R81, R90). -/
def State.drawSliver (s : State) (hact : Nat) (occl : List (Nat × Nat)) (v : Sliver) (g : Gather) :
    Gather × List RawPx :=
  let c := nth 0 v.words 0
  let k := nth 0 v.words 5
  let f := fld c 14 12
  let b := fmtBits f
  let sw := 8 * (fld (nth 0 v.words 3) 23 19 + 1)
  let row := v.plane.base.toNat * 2048 + 32 * (nth 0 v.words 4).toNat + v.row * (sw * b / 8)
  let cols := v.cols hact occl
  let adr := fun sc => row + sc * b / 8
  let units := ((cols.map fun e => unitsOf (adr e.2) ((b + 7) / 8)).flatten).eraseDups
  let (g1, data) := units.foldl (fun (acc : Gather × List (Nat × List Byte × List Nat)) u =>
    let (g', d) := s.needUnit u acc.1
    (g', acc.2 ++ [(u, d)])) (g, [])
  let unit := fun u => ((data.find? fun e => e.1 == u).map (·.2)).getD ([], [])
  (g1, cols.map fun e =>
    let a := adr e.2
    let us := (unitsOf a ((b + 7) / 8)).map unit
    { col := e.1, units := (us.map (·.2)).flatten, fmt := f, pal := fld c 18 15, sub := fld (nth 0 v.words 3) 13 10
      bank := fld (nth 0 v.words 3) 9 8, trans0 := bit k 22, keyen := bit k 23, key := fld k 15 0
      val := storedAt ((us.map (·.1)).flatten.drop (a % 32)) (e.2 * b % 8) b, fade := fld (nth 0 v.words 6) 23 16, out := none })

/-- SCLK cycles in which the slivers of a plane are drawn, waits for data apart (R91). -/
def drawCycles (hact : Nat) (occl : List (Nat × Nat)) (vs : List Sliver) : Nat :=
  (vs.map fun v => 2 + ((v.cols hact occl).length + 15) / 16).sum

/-- An object plane's line, sliver by sliver in drawing order (R89). -/
def State.drawObjects (s : State) (hact : Nat) (occl : List (Nat × Nat)) (vs : List Sliver) (g : Gather) : Gather × List RawPx :=
  vs.foldl (fun (acc : Gather × List RawPx) v =>
    let (g', ps) := s.drawSliver hact occl v acc.1
    (g', acc.2 ++ ps)) (g, [])

/-- Slot n's line: what it asks for, its pixels in drawing order, and the cycles that drawing takes (R54, R61 to R67, R79, R89,
R91). -/
def State.drawSlot (s : State) (h : Head) (w : LineWork) (n : Nat) (occl : List (Nat × Nat)) (eng : EngSt) :
    Gather × List RawPx × Nat :=
  let l := w.lat
  let hact := (s.raster h.val).hact
  let g := Gather.start eng
  if l.kind n != 3 && !l.inLines n then (g, [], 0)
  else if l.kind n = 3 then
    let all := ((s.heads[h].evals.find? fun e => e.line == l.line).map (·.slivers)).getD []
    let vs := all.filter fun v => v.plane.slot == n
    let (g1, ps) := s.drawObjects hact occl vs g
    (g1, ps, drawCycles hact occl vs)
  else
    let e := s.perLine l n hact occl
    let wait := match e with
      | some q => unitsOf q.1 15
      | none => []
    let cols := l.shown n hact occl (e.map (·.2))
    let (g1, ps) := if l.kind n = 1 then s.drawTiles l n cols wait (g.ask wait) else s.drawBitmap l n cols wait (g.ask wait)
    (g1, ps, 0)

/-! ### A slot's work -/

/-- Line k's work of a head, changed by f. -/
def State.modLine (s : State) (h : Head) (k : Nat) (f : LineWork → LineWork) : State :=
  s.modHead h fun x => { x with lines := x.lines.map fun w => if w.lat.line = k then f w else w }

/-- Engine e writes and reads its memories (region 25 + e) as it works on a line: a flip armed for one of its words takes
effect, and words with wrong bits are found (R281, R283). The answer says whether one is uncorrectable. -/
def State.engineCheck (s : State) (e : Nat) : State × Bool :=
  let r := 25 + e
  let s1 := if s.bget (aRegion r 3) 23 then s.writeFlip r (s.fget (aRegion r 3) 21 0) else s
  s1.readBad (s1.badIn fun b => b.region == r)

/-- Units are asked for, in order, by a slot's engine or by the stand-in; the answer lists those still to come. -/
def State.askAll (s : State) (h : Head) (n : Slot) (us : List Nat) (deadline line : Nat) (standIn : Bool) : State × List Nat :=
  us.foldl (fun (acc : State × List Nat) u =>
    let (t, more) := acc.1.dramAsk (.slot h n) u deadline line standIn
    (t, if more then acc.2 ++ [u] else acc.2)) (s, [])

/-- Of what waits for units, only those still to come count. -/
def EngWork.waiting (w : EngWork) : EngWork :=
  let f := fun (us : List Nat) => us.filter fun u => w.units.contains u
  { w with
    raw := w.raw.map fun r => { r with units := f r.units }
    fills := w.fills.map fun x => { x with units := f x.units }
    map := w.map.map fun x => { x with units := f x.units } }

/-- A unit has come. A poisoned one leaves nothing behind: what needs it enters no cache (R73, R137). -/
def EngWork.arrive (w : EngWork) (u : Nat) (bad : Bool) : EngWork :=
  ({ w with
      units := w.units.erase u, poisoned := w.poisoned || bad
      fills := if bad then w.fills.filter fun x => !x.units.contains u else w.fills
      map := if bad then w.map.filter fun x => !x.units.contains u else w.map } : EngWork).waiting

/-- The pixels whose units have come are resolved with the palettes as they stand (R69); a palette word that its codes cannot
correct leaves the line poisoned (R283). -/
def State.resolveWork (s : State) (h : Head) (pmap : List Word) (w : EngWork) : State × EngWork :=
  let now := w.raw.filter fun r => r.units.isEmpty && r.out.isNone
  let words := (now.map fun r => r.palWords h.val pmap).flatten
  let (t, lost) := s.readBad (s.badIn fun b => b.region == 21 && words.contains b.addr)
  (t, { w with
    poisoned := w.poisoned || lost
    raw := w.raw.map fun r => if r.units.isEmpty && r.out.isNone then { r with out := some (t.resolve h.val pmap r) } else r })

/-- What has come whole enters the engine's cache and map-row buffer (R72, R90). -/
def State.fillCache (s : State) (w : EngWork) : State × EngWork :=
  let here := w.fills.filter fun x => x.units.isEmpty
  let s1 := s.modEng w.eng fun e => here.foldl (fun (e : EngSt) x => e.cachePut x.key x.data) e
  let w1 : EngWork := { w with fills := w.fills.filter fun x => !x.units.isEmpty }
  match w.map with
  | some m => if m.units.isEmpty then (s1.modEng w.eng fun e => { e with mapKey := some m.key, mapRow := m.row }, { w1 with map := none })
    else (s1, w1)
  | none => (s1, w1)

/-- An engine's work goes as far as its data has come. -/
def State.workOn (s : State) (h : Head) (pmap : List Word) (w : EngWork) : State × EngWork :=
  let (t, v) := s.resolveWork h pmap w
  t.fillCache v

/-- The pixels of a line, by column: each from the first that gives it an alpha other than 0 (R89). -/
def EngWork.line (w : EngWork) (hact : Nat) : List Px :=
  if w.raw.isEmpty then []
  else (List.range (4 * hact)).map fun x =>
    let mine := (w.raw.filter fun r => r.col == x).filterMap (·.out)
    ((mine.find? fun p => p.a != 0).orElse fun _ => mine.head?).getD Px.clear

/-- A slot's line as its engine's work leaves it: it waits, is late for a poisoned unit (R137), still draws, or has finished. -/
def State.slotAfter (s : State) (h : Head) (k : Nat) (x : SlotLine) (w : EngWork) : SlotLine :=
  if !w.units.isEmpty then { x with phase := .waiting, work := w }
  else if w.poisoned then { x with phase := .late, work := EngWork.idle w.eng, px := [] }
  else
    { x with
      phase := if w.draw = 0 then .finished else .drawing
      begun := s.quadsTo h.val k, work := { EngWork.idle w.eng with draw := w.draw }, px := w.line (s.raster h.val).hact }

/-- A line's slot n becomes x. -/
def State.setSlot (s : State) (h : Head) (k : Nat) (n : Slot) (x : SlotLine) : State :=
  s.modLine h k fun w => { w with slots := w.slots.set n.val x }

/-- A slot's pixels, column by column. -/
def fullLine (hact : Nat) (px : List Px) : List Px := (List.range (4 * hact)).map fun x => nth Px.clear px x

/-- A mirrored line as the stand-in's work leaves it. -/
def State.mirrorAfter (s : State) (h : Head) (m : MirrorLine) (w : EngWork) : MirrorLine :=
  if w.units.isEmpty && !w.poisoned then
    { m with
      begun := s.quadsTo h.val m.line, work := { EngWork.idle w.eng with draw := w.draw }
      px := some (fullLine (s.raster h.val).hact (w.line (s.raster h.val).hact)) }
  else { m with work := w }

/-- An engine gathers what line k of slot n needs and asks for it: the work that is left, and the count of faulty bodies. -/
def State.beginWork (s : State) (h : Head) (w : LineWork) (n : Slot) (eng : Nat) (standIn : Bool) : State × EngWork × Gather :=
  let k := w.lat.line
  let occl := nth [] (w.occl.getD []) n.val
  let e := s.engAtNo eng
  let (g, raw, draw) := s.drawSlot h w n.val occl (if w.slots[n].fresh && !standIn then e.emptied else e)
  let s1 := s.modEng eng fun x => { x with cache := g.held.cache, mapKey := g.held.mapKey, mapRow := g.held.mapRow }
  let (s2, wait) := s1.askAll h n g.units (s.deadlineOf h k) k standIn
  let work : EngWork := { eng := eng, units := wait, poisoned := false, raw := raw, fills := g.fills, map := g.map, draw := draw }
  let (s3, work1) := s2.workOn h w.lat.pmap work.waiting
  (s3, work1, g)

/-- The stand-in of a mirrored slot renders its own copy of a line, fetching for itself (R285). Its fetches do not count in
SLFETCH: DESIGN CHOICE (log entry 107). One that its own memories halt is marked failed, and mirrors no more (R283). -/
def State.mirrorSlot (s : State) (h : Head) (w : LineWork) (n : Slot) : State :=
  match w.slots[n].standIn with
  | none => s
  | some y =>
    let (s0, halt) := s.engineCheck y
    if halt then (s0.modEng y fun x => { x with halted := true }).markFailed y
    else
      let (s1, work, _) := s0.beginWork h w n y true
      let m : MirrorLine := { line := w.lat.line, slot := n, pmap := w.lat.pmap, own := none, work := work, begun := 0, px := none }
      s1.modHead h fun x => { x with mirrors := (x.mirrors.filter fun v => !(v.line == m.line && v.slot == n)) ++ [s1.mirrorAfter h m work] }

/-- The engine of slot n asks for what line k needs; data that no unit is to come for leaves the slot finished, or drawing. An
engine that its own memories halt leaves it late (R283). -/
def State.fetchSlot (s0 : State) (h : Head) (w : LineWork) (n : Slot) : State :=
  let k := w.lat.line
  let e := w.slots[n].work.eng
  let (s, halt) := s0.engineCheck e
  if halt then ((s.modEng e fun x => { x with halted := true }).markFailed e).setSlot h k n { w.slots[n] with phase := .late, px := [] }
  else
    let (s1, work, g) := s.beginWork h w n e false
    let s2 := s1.countLine h k fun c => { c with fetch := c.fetch.set n.val (c.fetch[n] + 32 * g.units.length) }
    let s3 := if g.bad = 0 then s2 else
      let t := s2.incN (aHead h.val (0x20 + n.val)) 15 8 g.bad
      let f := t.raisedBy h k
      if f.dec then t else (t.setRaised h k { f with dec := true }).evHead h.val 2
    (s3.setSlot h k n (s3.slotAfter h k w.slots[n] work)).mirrorSlot h w n

/-- Drawing that takes d cycles and began b quads before line k has ended. Its time is counted by the head's beam: DESIGN CHOICE
(log entry 91). -/
def State.drawnBy (s : State) (h : Head) (k b d : Nat) : Bool := decide (d ≤ s.quadCycles h.val (b - s.quadsTo h.val k))

/-- The slots of a head whose drawing has ended have finished their lines (R91, R100). -/
def State.drawn (s : State) (h : Head) : State :=
  let f := fun (k : Nat) (v : SlotLine) =>
    if v.phase = .drawing ∧ s.drawnBy h k v.begun v.work.draw = true then { v with phase := .finished } else v
  s.modHead h fun x => { x with lines := x.lines.map fun w => { w with slots := w.slots.map (f w.lat.line) } }

/-- The first line of a head on which slot n has not begun, when every earlier line of that slot is done with. -/
def nextLine (lines : List LineWork) (n : Slot) : Option LineWork :=
  match lines.find? fun w => !(w.slots[n].phase == .finished || w.slots[n].phase == .late) with
  | some w => if w.slots[n].phase = .latched then some w else none
  | none => none

/-- ENGINE_LINE_BEGIN: a slot's engine begins its next latched line, and fetches once occlusion has been delivered
(R39, R99). -/
def execEngineLineBegin (h : Head) (n : Slot) (s0 : State) : Host.Outcome State Fault Refusal :=
  let s := s0.drawn h
  match nextLine s.heads[h].lines n with
  | none => .next s
  | some w =>
    if (s.engAtNo w.slots[n].work.eng).halted then .next s
    else if w.occl.isSome then .next (s.fetchSlot h w n)
    else .next (s.setSlot h w.lat.line n { w.slots[n] with phase := .begun })

/-- OCCLUSION_DELIVERY: the occluded columns of the oldest line without them reach the engines, and those that have begun
the line fetch (R99). -/
def execOcclusionDelivery (h : Head) (s : State) : Host.Outcome State Fault Refusal :=
  match s.heads[h].lines.find? fun w => w.occl.isNone with
  | none => .next s
  | some w =>
    let w' : LineWork := { w with occl := some (w.lat.occlusion (s.raster h.val).hact) }
    let s1 := s.modLine h w.lat.line fun _ => w'
    .next ((List.finRange 8).foldl (fun (t : State) n =>
      if w.slots[n].phase = .begun then t.fetchSlot h w' n else t) s1)

end Sys2Proof.Machine
end

