-- ==== Sys2Proof/Machine/Compose.lean ====
section
/-! DEFINITION. Blending, the line deadline and composition (R93 to R103). -/

namespace Sys2Proof.Machine

/-- One component of one slot over the result so far (R96). -/
def blendComp (mode gtrans : Nat) (pmul : Bool) (a s d : Nat) : Nat :=
  let a1 := a * (256 - gtrans) / 256
  let s1 := s * (256 - gtrans) / 256
  match mode with
  | 0 => if pmul then min 255 (s1 + (d * (255 - a1) + 127) / 255) else (s * a1 + d * (255 - a1) + 127) / 255
  | 1 => if pmul then min 255 (d + s1) else min 255 (d + (s * a1 + 127) / 255)
  | 2 => (d * ((s * a1 + 255 * (255 - a1) + 127) / 255) + 127) / 255
  | _ => if a1 = 0 then d else if pmul then s1 else s

/-- A slot's pixel over the result so far; alpha 0 leaves it, a certified pixel is opaque in over mode (R93, R96, R98). -/
def blendPx (slot : Word) (cert : Bool) (p : Px) (d : Nat × Nat × Nat) : Nat × Nat × Nat :=
  let a := if cert then 255 else p.a
  let mode := if cert then 0 else fld slot 14 13
  let f := blendComp mode (fld slot 12 5) (bit slot 4) a
  if a = 0 then d else (f p.r d.1, f p.g d.2.1, f p.b d.2.2)

/-- A colour as a word, red in [23:16]. -/
def rgbWord (c : Nat × Nat × Nat) : Word := wd (c.1 * 65536 + c.2.1 * 256 + c.2.2)

/-- The composition of the slots that finished, each late slot transparent (R93, R101 HOLD). -/
def composePx (w : LineWork) (hact : Nat) : List Word :=
  let l := w.lat
  let b := (fld l.backdrop 23 16, fld l.backdrop 15 8, fld l.backdrop 7 0)
  let cert := (List.range 8).map fun n => l.certSpans n hact
  let occl := w.occl.getD []
  (List.range (4 * hact)).map fun x =>
    rgbWord ((List.finRange 8).foldl (fun d (n : Slot) =>
      let sl := w.slots[n]
      if l.draws n.val && sl.phase == .finished && !inSpans (nth [] occl n.val) x then
        blendPx (l.slot n.val) (inSpans (nth [] cert n.val) x) (nth Px.clear sl.px x) d
      else d) b)

/-- Every slot of a line has finished, or its deadline has come and found one that had not (R100). -/
def LineWork.ready (w : LineWork) : Bool := w.missed || w.slots.toList.all fun x => x.phase == .finished

/-- Late slots of a line, as a mask. -/
def LineWork.lateMask (w : LineWork) : Nat :=
  ((List.finRange 8).map fun (n : Slot) => if w.slots[n].phase = .late then 2 ^ n.val else 0).sum

/-- What line k leaves the compositor as (R101, R102). -/
def State.composedOf (s : State) (h : Head) (w : LineWork) : List Word :=
  let hact := (s.raster h.val).hact
  let back := List.replicate (4 * hact) w.lat.backdrop
  if !w.missed then composePx w hact
  else match fld w.lat.comp 23 22 with
    | 1 => back
    | 2 => composePx w hact
    | _ => if w.lat.line = 0 then back else s.heads[h].lastLine.getD back

/-- A missed line is counted in MISS and its frame's record, and the deadline event raised on the first of the frame
(R103). -/
def State.countMiss (s : State) (h : Head) (k mask : Nat) : State :=
  let x := s.heads[h]
  let s1 := (s.inc (aHead h.val 0x1F) 23 12).fset (aHead h.val 0x1F) 7 0 mask
  if x.sig.isOpen && decide (s.posLine h.val ≤ k) then
    let s2 := (s1.sigFlag h 0).modHead h fun y =>
      { y with sig := { y.sig with misses := y.sig.misses + 1 }, fr := { y.fr with missRaised := true } }
    if x.fr.missRaised then s2 else s2.evDeadline h.val
  else
    let s2 := s1.modHead h fun y => { y with missAhead := y.missAhead + 1 }
    if x.missAhead = 0 then s2.evDeadline h.val else s2

/-- Reads on their way for lines of a head that have been abandoned: what they bring is discarded (R101). -/
def State.orphanReads (s : State) (h : Head) (p : DRead → Bool) : State :=
  { s with chans := s.chans.map fun c => { c with reads := c.reads.map fun r =>
    match r.user with
    | .slot g _ => if g = h ∧ p r = true then { r with line := 4096 } else r
    | _ => r } }

/-- A line is missed: its unfinished slots are late, and their outstanding fetches bring nothing (R101). -/
def State.miss (s : State) (h : Head) (w : LineWork) : State :=
  let slots := w.slots.map fun x => if x.phase = .finished then x else { x with phase := .late, work := EngWork.idle x.work.eng, px := [] }
  let w' : LineWork := { w with slots := slots, missed := true }
  ((s.orphanReads h fun r => r.line == w.lat.line && !r.standIn).modLine h w.lat.line fun _ => w').countMiss h w.lat.line w'.lateMask

/-- The deadline of line k falls at or before its latch, and the line is missed whatever its slots do (R108). -/
def State.neverInTime (s : State) (h : Head) (k : Nat) : Bool :=
  decide (s.heads[h].lead * (s.raster h.val).htotal ≤ s.deadlineLead h k)

/-- A line's deadline: a line with an unfinished slot is missed (R100). -/
def State.deadline (s : State) (h : Head) (w : LineWork) : State := if w.ready then s else s.miss h w

/-- LINE_DEADLINE: the deadline of the oldest line not yet composed arrives (R100, R101, R103). -/
def execLineDeadline (h : Head) (s0 : State) : Host.Outcome State Fault Refusal :=
  let s := s0.drawn h
  match s.heads[h].lines with
  | [] => .next s
  | w :: _ => if s.deadlinePassed h w.lat.line then .next (s.deadline h w) else .next s

/-! ### The mirrored slot (R286) and the composed-line buffers (R283) -/

/-- A mirrored line differs: the step ends, and the mirroring engine is to be tested. -/
def State.mirrorMismatch (s : State) (h : Head) (n : Slot) : State :=
  let s1 := (s.inc (aRot 2) 23 16).evIntegrity
  { s1 with repair := { s1.repair with mirror := false, testing := some (s.mirrorEng h n) } }

/-- A mirrored line has both its outputs: the stand-in's data has come and its drawing has ended. -/
def State.mirrorDone (s : State) (h : Head) (m : MirrorLine) : Bool :=
  m.own.isSome && m.px.isSome && s.drawnBy h m.line m.begun m.work.draw

/-- The line's check of the stand-in's output against the serving engine's, once both are there; a line on which an engine was
late is not compared (R286). Equal checks are taken as equal pixels (log entry 28). -/
def State.mirrorCheck (s : State) (h : Head) : State :=
  let s1 := s.heads[h].mirrors.foldl (fun (t : State) m =>
    if s.mirrorDone h m && t.mirrored h.val m.slot.val && m.own != m.px then t.mirrorMismatch h m.slot else t) s
  s1.modHead h fun x => { x with mirrors := x.mirrors.filter fun m => !(s.mirrorDone h m || s.deadlinePassed h m.line) }

/-- A line leaves the serving engines: what a mirrored slot gave is kept for the comparison; a slot that was late has none. -/
def State.mirrorOwn (s : State) (h : Head) (w : LineWork) : State :=
  (s.modHead h fun x => { x with mirrors := x.mirrors.filterMap fun m =>
    if m.line ≠ w.lat.line then some m
    else if w.slots[m.slot].phase = .finished then some { m with own := some (fullLine (s.raster h.val).hact w.slots[m.slot].px) }
    else none }).mirrorCheck h

/-- The compositor writes n words of line k's buffer and reads them to the output: what their codes find (R281, R283). -/
def State.lineCheck (s : State) (h k n : Nat) : State × Bool :=
  let b := lineBuf h k
  let inB := fun a => decide (b ≤ a ∧ a < b + n)
  let s1 : State := { s with repair := { s.repair with bad := s.repair.bad.filter fun x => !(x.region == 23 && inB x.addr) } }
  let a := s1.fget (aRegion 23 3) 21 0
  let s2 := if s1.bget (aRegion 23 3) 23 && inB a then s1.writeFlip 23 a else s1
  s2.readBad (s2.badIn fun x => x.region == 23 && inB x.addr)

/-- The compositor composes a line, which leaves the engines and waits in a composed-line buffer. A buffer word that cannot
be read leaves the line missed, as the latched backdrop (R283). -/
def State.compose (s0 : State) (h : Head) (w : LineWork) : State :=
  let hact := (s0.raster h.val).hact
  let (s1, lost) := (s0.mirrorOwn h w).lineCheck h.val w.lat.line (4 * hact)
  let s := if lost && !w.missed && !w.lat.dim then s1.countMiss h w.lat.line 0 else s1
  let out := if lost then List.replicate (4 * hact) w.lat.backdrop else s.composedOf h w
  s.modHead h fun x =>
    { x with
      lines := x.lines.filter fun v => v.lat.line != w.lat.line
      evals := x.evals.filter fun e => e.line != w.lat.line
      composed := (x.composed.filter fun e => e.1 != w.lat.line) ++ [(w.lat.line, out)]
      lastLine := some out }

/-- COMPOSE_LINE: the oldest line is composed once every enabled slot has finished, or at its deadline (R100). -/
def execComposeLine (h : Head) (s0 : State) : Host.Outcome State Fault Refusal :=
  let s := s0.drawn h
  match s.heads[h].lines with
  | [] => .next s
  | w :: _ =>
    if w.ready then .next (s.compose h w)
    else if s.deadlinePassed h w.lat.line then
      let t := s.deadline h w
      match t.heads[h].lines with
      | v :: _ => .next (t.compose h v)
      | [] => .next t
    else .next s

end Sys2Proof.Machine
end

