-- ==== Sys2Proof/Machine/Flags.lean ====
section
/-! DEFINITION. Results and flags of the macrocell operations (R148 to R151). -/

namespace Sys2Proof.Machine

/-- What an operation works on: operands, carry input, shift amount, saturation width, truth table, the cell's registers. -/
structure Opnd where
  a : Word
  b : Word
  ci : Bool
  n : Nat
  m : Nat
  tt : BitVec 4
  old : CellSt

/-- Signed value of a word. -/
def sgn (w : Word) : Int := sext 24 w.toNat

/-- Q takes a result, with Z and N of it and the given C and V; QH keeps. -/
def CellSt.take (x : CellSt) (q : Word) (c v : Bool) : CellSt :=
  { x with q := q, z := q == 0, n := q.getLsbD 23, c := c, v := v }

/-- {QH, Q} takes a 48-bit result. -/
def CellSt.take48 (x : CellSt) (r : Nat) (c v : Bool) : CellSt :=
  { x with q := wd r, qh := wd (r >>> 24), z := r % 2 ^ 48 == 0, n := Nat.testBit r 47, c := c, v := v }

/-- {QH, Q} of a cell. -/
def CellSt.acc (x : CellSt) : Nat := x.qh.toNat * 2 ^ 24 + x.q.toNat

/-- A value lies outside 24-bit two's complement. -/
def over24 (i : Int) : Bool := decide (i < -8388608 ∨ 8388607 < i)
/-- A value lies outside 48-bit two's complement. -/
def over48 (i : Int) : Bool := decide (i < -140737488355328 ∨ 140737488355327 < i)

/-- A signed result clamped to lo .. hi, V telling whether it was. -/
def CellSt.clamped (x : CellSt) (lo hi i : Int) : CellSt :=
  x.take (wd (umod 24 (clampI lo hi i))) false (decide (i < lo ∨ hi < i))

/-- PASS. -/
def opPass (o : Opnd) : CellSt := o.old.take o.a false false
/-- ADD. -/
def opAdd (o : Opnd) : CellSt :=
  o.old.take (wd (o.a.toNat + o.b.toNat + b2n o.ci)) (decide (2 ^ 24 ≤ o.a.toNat + o.b.toNat + b2n o.ci))
    (over24 (sgn o.a + sgn o.b + (b2n o.ci : Nat)))
/-- SUB. -/
def opSub (o : Opnd) : CellSt :=
  o.old.take (wd (o.a.toNat + 2 ^ 25 - o.b.toNat - b2n o.ci)) (decide (o.a.toNat < o.b.toNat + b2n o.ci))
    (over24 (sgn o.a - sgn o.b - (b2n o.ci : Nat)))
/-- LOGIC: bit i is TT[2a[i] + b[i]]. -/
def opLogic (o : Opnd) : CellSt :=
  o.old.take (wd ((List.range 24).foldl (fun n i =>
    if o.tt.getLsbD (2 * b2n (bit o.a i) + b2n (bit o.b i)) then n + 2 ^ i else n) 0)) false false
/-- CMP: Q keeps. -/
def opCmp (o : Opnd) : CellSt :=
  { o.old with z := o.a == o.b, n := decide (sgn o.a < sgn o.b), c := decide (o.a < o.b), v := false }
/-- SHL. -/
def opShl (o : Opnd) : CellSt :=
  o.old.take (o.a <<< o.n) (decide (0 < o.n ∧ o.n ≤ 24) && bit o.a (24 - o.n)) false
/-- SHR. -/
def opShr (o : Opnd) : CellSt := o.old.take (o.a >>> o.n) (decide (0 < o.n) && bit o.a (o.n - 1)) false
/-- SAR: sign fill, so a place beyond bit 23 shifts out the sign. -/
def opSar (o : Opnd) : CellSt :=
  o.old.take (o.a.sshiftRight o.n) (decide (0 < o.n) && bit o.a (min 23 (o.n - 1))) false
/-- ROL, by n mod 24. -/
def opRol (o : Opnd) : CellSt := o.old.take (o.a.rotateLeft (o.n % 24)) false false
/-- SELC. -/
def opSelc (o : Opnd) : CellSt := o.old.take (if o.ci then o.a else o.b) false false
/-- MINU. -/
def opMinu (o : Opnd) : CellSt := o.old.take (if o.a < o.b then o.a else o.b) (decide (o.a < o.b)) false
/-- MAXU. -/
def opMaxu (o : Opnd) : CellSt := o.old.take (if o.a < o.b then o.b else o.a) (decide (o.a < o.b)) false
/-- MINS. -/
def opMins (o : Opnd) : CellSt := o.old.take (if sgn o.a < sgn o.b then o.a else o.b) (decide (sgn o.a < sgn o.b)) false
/-- MAXS. -/
def opMaxs (o : Opnd) : CellSt := o.old.take (if sgn o.a < sgn o.b then o.b else o.a) (decide (sgn o.a < sgn o.b)) false
/-- ADDSU. -/
def opAddsu (o : Opnd) : CellSt := o.old.clamped 0 0xFFFFFF (o.a.toNat + o.b.toNat : Nat)
/-- ADDSS. -/
def opAddss (o : Opnd) : CellSt := o.old.clamped (-8388608) 8388607 (sgn o.a + sgn o.b)
/-- SUBSU. -/
def opSubsu (o : Opnd) : CellSt := o.old.clamped 0 0xFFFFFF ((o.a.toNat : Int) - o.b.toNat)
/-- SUBSS. -/
def opSubss (o : Opnd) : CellSt := o.old.clamped (-8388608) 8388607 (sgn o.a - sgn o.b)
/-- SATU. -/
def opSatu (o : Opnd) : CellSt := o.old.clamped 0 ((2 ^ o.m - 1 : Nat)) (sgn o.a)
/-- SATS. -/
def opSats (o : Opnd) : CellSt := o.old.clamped (-((2 ^ (o.m - 1) : Nat) : Int)) ((2 ^ (o.m - 1) - 1 : Nat)) (sgn o.a)
/-- MULU. -/
def opMulu (o : Opnd) : CellSt := o.old.take48 (o.a.toNat * o.b.toNat) false false
/-- MULS. -/
def opMuls (o : Opnd) : CellSt := o.old.take48 (umod 48 (sgn o.a * sgn o.b)) false false
/-- MACU: C is the carry out of bit 47. -/
def opMacu (o : Opnd) : CellSt :=
  o.old.take48 ((o.old.acc + o.a.toNat * o.b.toNat) % 2 ^ 48) (decide (2 ^ 48 ≤ o.old.acc + o.a.toNat * o.b.toNat)) false
/-- MACS: V is signed overflow of the sum. -/
def opMacs (o : Opnd) : CellSt :=
  let r := sext 48 o.old.acc + sgn o.a * sgn o.b
  o.old.take48 (umod 48 r) false (over48 r)

/-- A cell at reset (R148). -/
def CellSt.atInit (init : Word) : CellSt := { q := init, qh := 0, z := false, n := false, c := false, v := false }

end Sys2Proof.Machine
end

