-- ==== Sys2Proof/Machine/Operands.lean ====
section
/-! DEFINITION. What a paddock's configuration selects (R149, R150, R153 to R158, R185 to R189): sources, sinks, literals,
product and sum terms, instruction slots, gangs. -/

namespace Sys2Proof.Machine

/-! ### Configuration words -/

/-- Word w of frame f of a paddock. -/
def PadSt.cw (x : PadSt) (f w : Nat) : Word := spGet zeroW x.cfg (96 * f + w)

/-- The frame with the instruction slots of cell n, and the first word of the cell in it. -/
def cellFrame (n : Nat) : Nat × Nat := (16 * (n / 8) + 14 + n % 8 / 4, 24 * (n % 4))

/-- Word i of cell n's 24. -/
def PadSt.cellWord (x : PadSt) (n i : Nat) : Word := x.cw (cellFrame n).1 ((cellFrame n).2 + i)

/-- INIT of cell n. -/
def PadSt.init (x : PadSt) (n : Nat) : Word := x.cellWord n 16

/-- GANG of tussock t. -/
def PadSt.gang (x : PadSt) (t : Nat) : Nat := fld (x.cw (16 * t + 11) 86) 1 0

/-- CKMODE of a clock select: 0 is the fabric clock, and so is 0b11, which only an upset makes (R186, R205). -/
def ckmodeOf (w : Word) : Nat := if fld w 17 16 = 3 then 0 else fld w 17 16

/-- CKMODE of tussock t. -/
def PadSt.ckmode (x : PadSt) (t : Nat) : Nat := ckmodeOf (x.cw (16 * t + 11) 87)

/-- Word i of block memory m's 24. -/
def PadSt.bmWord (x : PadSt) (m i : Nat) : Word := x.cw (768 + m / 4) (24 * (m % 4) + i)

/-- The word select of input Xi of cell n. -/
def PadSt.xsel (x : PadSt) (n i : Nat) : Nat :=
  let w := x.cellWord n (17 + i / 2)
  if i % 2 = 0 then fld w 10 0 else fld w 21 11

/-- The 16-bit select of literal i of tussock t. -/
def PadSt.litSel (x : PadSt) (t i : Nat) : Nat :=
  let m := i / 3
  nbits ((x.cw (16 * t + 11) (2 * m)).toNat + 2 ^ 24 * (x.cw (16 * t + 11) (2 * m + 1)).toNat) (16 * (i % 3) + 15) (16 * (i % 3))

/-- Cell n is a multiplier cell (R144). -/
def isMul (n : Nat) : Bool := n % 4 == 3

/-- Cells of a gang of tussock t, 1 without gangs. -/
def PadSt.gangSize (x : PadSt) (t : Nat) : Nat :=
  match x.gang t with
  | 0 => 1 | 1 => 2 | 2 => 4 | _ => 8

/-! ### Sources -/

/-- The paddock holds a design that no swap has frozen. -/
def State.holding (s : State) (p : Nat) : Bool := s.loaded p && !s.bget (aPad p 1) 22
/-- No clock runs: Keep, unless it is emulated (R364, R390). -/
def State.clocksOff (s : State) : Bool := s.pow.st == .keep && !s.pow.emulated
/-- The design runs: loaded, not frozen by a swap, clocked, not frozen by the Stile (R160, R163, R388). -/
def State.clocked (s : State) (p : Nat) : Bool :=
  s.holding p && s.bget (aPad p 0) 23 && !(s.pad p).frozen && !s.clocksOff

/-- What gate-in lane i of paddock p presents (R158, R159, R189). -/
def State.gateIn (s : State) (p i : Nat) : Word :=
  let x := s.pad p
  let r := x.cw 793 i
  if !bit r 23 then 0
  else if (s.pad (fld r 9 6)).hedged then
    match fld (x.cw 794 i) 1 0 with
    | 0 => spGet zeroW x.hold i
    | 1 => 0
    | 2 => 0xFFFFFF
    | _ => x.cw 795 i
  else spGet zeroW (s.pad (fld r 9 6)).gout (fld r 5 0)

/-- The head whose tap to paddock p is in force. -/
def State.tapHead (s : State) (p : Nat) : Option Head :=
  (List.finRange 8).find? fun h => s.heads[h].tap.en && s.heads[h].tap.pad == p && s.bget (aHead h.val 0x36) 23

/-- Words that carry a unit (R172). -/
def MReq.wpu (r : MReq) : Nat := if r.pad then 8 else 11

/-- The request lacks no data (R174). -/
def MReq.full (r : MReq) : Bool := r.done == r.n * r.wpu

/-- WFULL of a memory port: the write queue of the channel that its oldest write request lacking data needs is full, or has writers
waiting (R133, R174). -/
def State.portFull (s : State) (q : List MReq) : Bool :=
  match q.find? fun r => r.wr && !r.full with
  | some r =>
    let c := s.chans[s.chanOf (32 * (r.unit + r.done / r.wpu))]
    !r.refused && (!c.waiting.isEmpty || decide (64 ≤ c.writes.length))
  | none => false

/-- BUSY and WFULL of a memory port (R172, R174). -/
def State.portStatus (s : State) (q : List MReq) : Word := putBit (putBit 0 20 (decide (4 ≤ q.length))) 19 (s.portFull q)

/-- The tap port's status bits: FORCED, in force, the head's number (R171). -/
def State.tapStatus (s : State) (p : Nat) : Word :=
  match s.tapHead p with
  | some h => putBit (putBit (wd h.val) 21 true) 22 (s.bget (aHead h.val 0x36) 22)
  | none => 0

/-- BEAM, EPL and EPH of every head as they stand (R14, R167): those of a head disabled by fuse are 0. -/
def State.beamNow (s : State) : Vector Word 24 :=
  Vector.ofFn fun i => if s.headOff (i.val % 8) then 0 else s.rd (aHead (i.val % 8) (9 + i.val / 8))

/-- Flags of a cell as its source word holds them. -/
def CellSt.flagWord (c : CellSt) : Word := wd (b2n c.z + 2 * b2n c.n + 4 * b2n c.c + 8 * b2n c.v)

/-- Cell n as it presents itself. -/
def PadSt.presAt (x : PadSt) (n : Nat) : CellSt := if h : n < 384 then x.pres[n] else CellSt.reset

/-- Pins of a bank that paddock p owns, by the owners in force (R179, R298, R306). -/
def State.padPins (s : State) (p : Nat) (b : Bank) : Word :=
  pinMask fun n => fld (nth 0 s.banks[b].cfg.toList n) 23 16 == 128 + p

/-- What source id of paddock p presents in the present fabric cycle (R155). -/
def State.srcVal (s : State) (p id : Nat) : Word :=
  let x := s.pad p
  let held := spGet zeroW x.src id
  if id < 0x180 then (x.presAt id).q
  else if id < 0x1E0 then (x.presAt (8 * ((id - 0x180) / 2) + (if id % 2 = 0 then 3 else 7))).qh
  else if id < 0x200 then 0
  else if id < 0x380 then (x.presAt (id - 0x200)).flagWord
  else if id < 0x400 then 0
  else if id < 0x580 then held
  else if id < 0x5C0 then s.gateIn p (id - 0x580)
  else if id < 0x5D8 then nth 0 s.beamAt.toList (id - 0x5C0)
  else if id = 0x5E0 then held ||| x.tsts
  else if id = 0x5E9 then held ||| x.mst[0]
  else if id = 0x5EB then held ||| x.mst[1]
  else if id < 0x5F0 then held
  else if id < 0x5FC then
    let b : Bank := Fin.ofNat 12 (id - 0x5F0)
    s.pinsSensed b &&& s.padPins p b
  else if 0x600 ≤ id ∧ id < 0x660 then held
  else 0

/-- A bit sink by its select: identifier in [10:0], index in [15:11]; an index above 23 gives 0 (R156, R186). -/
def State.bitSink (s : State) (p sel : Nat) : Bool := bit (s.srcVal p (nbits sel 10 0)) (nbits sel 15 11)

/-- A source comes from a wire-clocked register (R161). -/
def PadSt.wireSrc (x : PadSt) (id : Nat) : Bool :=
  let bm := fun m k => ckmodeOf (x.bmWord m (1 + k)) != 0
  if id < 0x180 then x.ckmode (id / 8) != 0
  else if id < 0x1E0 then x.ckmode ((id - 0x180) / 2) != 0
  else if 0x200 ≤ id ∧ id < 0x380 then x.ckmode ((id - 0x200) / 8) != 0
  else if 0x400 ≤ id ∧ id < 0x580 then bm ((id - 0x400) / 4) (id % 4 / 2)
  else if 0x600 ≤ id ∧ id < 0x660 then bm (id - 0x600) 0 || bm (id - 0x600) 1
  else false

/-- What a register of the fabric clock outside cells and block memories takes from source id: a free value from a wire-clocked
source, where R145 does not hold (R162; log entry 110). -/
def State.sinkVal (s : State) (p sink id : Nat) : Word :=
  if (s.pad p).wireSrc id then Config.wireWord s.sclk p sink else s.srcVal p id

/-- A port or pin sink, word i of frame 796 (R185). -/
def State.portSink (s : State) (p i : Nat) : Word := s.sinkVal p (0x100 + i) (fld ((s.pad p).cw 796 i) 10 0)

/-- The bit sink MWV of memory port k. -/
def State.mwvSink (s : State) (p k : Nat) : Bool :=
  let w := (s.pad p).cw 796 (15 + 5 * k)
  bit (s.sinkVal p (0x10F + 5 * k) (fld w 10 0)) (fld w 15 11)

/-! ### Product terms (R153) -/

/-- Literal i of tussock t. -/
def State.literal (s : State) (p t i : Nat) : Bool := s.bitSink p ((s.pad p).litSel t i)

/-- The code with which product term j of a tussock takes literal i. -/
def PadSt.ptCode (x : PadSt) (t j i : Nat) : Nat :=
  let w := 11 * j + 2 * i / 24
  fld (x.cw (16 * t + w / 96) (w % 96)) (2 * i % 24 + 1) (2 * i % 24)

/-- Product term j. Code 0b11, which no load leaves and an upset can make, includes nothing (R205). -/
def State.prodTerm (s : State) (p t j : Nat) : Bool :=
  (List.range 128).all fun i =>
    match (s.pad p).ptCode t j i with
    | 1 => s.literal p t i
    | 2 => !s.literal p t i
    | _ => true

/-- Sum term k of cell n: SEL0, SEL1, SEL2, CE, SR for k = 0 to 4. -/
def State.sumTerm (s : State) (p n k : Nat) : Bool :=
  let x := s.pad p
  let f := 16 * (n / 8) + 12 + n % 8 / 4
  let w := 21 * (n % 4)
  let any := (List.range 96).any fun j => bit (x.cw f (w + 4 * k + j / 24)) (j % 24) && s.prodTerm p (n / 8) j
  any != bit (x.cw f (w + 20)) k

/-! ### The slot that runs -/

/-- The slot number that a cell's SEL terms choose (R154). -/
def State.slotNo (s : State) (p n : Nat) : Nat :=
  4 * b2n (s.sumTerm p n 2) + 2 * b2n (s.sumTerm p n 1) + b2n (s.sumTerm p n 0)

/-- Words A and B of the chosen slot. -/
def State.slotWords (s : State) (p n : Nat) : Word × Word :=
  let k := s.slotNo p n
  ((s.pad p).cellWord n (2 * k), (s.pad p).cellWord n (2 * k + 1))

/-- OP values of R151. -/
def opKnown (op : Nat) : Bool := decide (op ≤ 0x0E ∨ (0x10 ≤ op ∧ op ≤ 0x15) ∨ (0x18 ≤ op ∧ op ≤ 0x1B) ∨ op = 0x20)

/-- The operation that an OP value executes as in cell n (R152). -/
def PadSt.opRuns (x : PadSt) (n op : Nat) : Nat :=
  if !opKnown op then 0
  else if 0x18 ≤ op ∧ op ≤ 0x1B ∧ !isMul n then 0
  else if op = 0x20 ∧ (x.gang (n / 8) = 0 ∨ n % 8 % x.gangSize (n / 8) ≠ 0) then 0
  else op

/-- Operand by ASEL or BSEL (R149, R150). -/
def State.operand (s : State) (p n sel : Nat) (k : Word) : Word :=
  let x := s.pad p
  let c := x.presAt n
  match sel with
  | 4 => c.q
  | 5 => k
  | 6 => if isMul n then c.qh else 0
  | 7 => 0
  | i => s.srcVal p (x.xsel n i)

/-- What cell n of paddock p works on in its chosen slot. -/
def State.opnd (s : State) (p : Nat) (n : Cell) : Opnd :=
  let x := s.pad p
  let (wa, k) := s.slotWords p n.val
  let a := s.operand p n.val (fld wa 17 15) k
  let b := s.operand p n.val (fld wa 14 12) k
  let ci := match fld wa 11 10 with
    | 0 => false
    | 1 => true
    | 2 => x.pres[n].c
    | _ => s.bitSink p (x.cellWord n.val 19).toNat
  let sh := fld wa 9 5
  { a := a, b := b, ci := ci, n := if bit wa 4 then fld b 4 0 else sh, m := if 1 ≤ sh ∧ sh ≤ 24 then sh else 24
    tt := BitVec.ofNat 4 (fld wa 3 0), old := x.pres[n] }

/-- The gang input that GMUX in head cell n chooses by b (R157). -/
def State.gangInput (s : State) (p n : Nat) (b : Word) : Word :=
  let x := s.pad p
  let g := x.gangSize (n / 8)
  let j := fld b 4 0 % (4 * g)
  s.srcVal p (x.xsel (n + j / 4) (j % 4))

/-! ### Clock crossings (R161, R162) -/

/-- The distinct wire clocks of a configuration: bit select and edge (R161). -/
def PadSt.wireClocks (x : PadSt) : List (Nat × Nat) :=
  let ws := ((List.range 48).map fun t => x.cw (16 * t + 11) 87) ++
    ((List.range 96).map fun m => [x.bmWord m 1, x.bmWord m 2]).flatten
  ((ws.filter fun w => ckmodeOf w != 0).map fun w => (fld w 15 0, ckmodeOf w)).eraseDups

/-- The bits that the wire clocks of a paddock select, with what they carry in the present cycle. -/
def State.wireBits (s : State) (p : Nat) : List (Nat × Bool) :=
  let x := s.pad p
  if x.cfg.isEmpty then [] else (x.wireClocks.map fun c => (c.1, s.bitSink p c.1)).eraseDups

/-- A register with clock select w has an edge of its clock in the present cycle: the fabric clock's, or the rising or falling one of
its wire clock, against the cycle before (R161). -/
def State.clockEdge (s : State) (p : Nat) (w : Word) : Bool :=
  let now := s.bitSink p (fld w 15 0)
  let old := match (s.pad p).wprev.find? fun e => e.1 == fld w 15 0 with
    | some e => e.2
    | none => now
  match ckmodeOf w with
  | 0 => true
  | 1 => !old && now
  | _ => old && !now

/-- Cells whose inputs cell n reads: its own, and those of the gang that it heads (R157). -/
def PadSt.inputsOf (x : PadSt) (n : Nat) : List Nat :=
  if n % 8 % x.gangSize (n / 8) = 0 then (List.range (x.gangSize (n / 8))).map (n + ·) else [n]

/-- Cell n is wire-clocked, or one of its sinks, those of the gang it heads or its tussock's literals reads a wire-clocked source:
R145 does not hold for it. -/
def PadSt.unsure (x : PadSt) (n : Nat) : Bool :=
  x.ckmode (n / 8) != 0 || ((x.inputsOf n).any fun m => (List.range 4).any fun i => x.wireSrc (x.xsel m i))
    || x.wireSrc (fld (x.cellWord n 19) 10 0) || (List.range 128).any fun i => x.wireSrc (nbits (x.litSel (n / 8) i) 10 0)

/-- Port k of block memory m is wire-clocked, or one of its sinks reads a wire-clocked source: R145 does not hold for it. -/
def PadSt.unsureBm (x : PadSt) (m k : Nat) : Bool :=
  ckmodeOf (x.bmWord m (1 + k)) != 0 || (List.range 5).any fun i => x.wireSrc (fld (x.bmWord m (3 + 5 * k + i)) 10 0)

end Sys2Proof.Machine
end

