-- ==== Sys2Proof/Machine/Cells.lean ====
section
/-! DEFINITION. The fabric clock edge, macrocells and block memories (R145 to R154, R157, R164 to R166). -/

namespace Sys2Proof.Machine

/-! ### The fabric edge -/

/-- A source that is presented for one cycle only (R168 to R171, R173, R174, R176). -/
def oneCycle (id : Nat) : Bool :=
  decide ((0x5D8 ≤ id ∧ id ≤ 0x5DB) ∨ id = 0x5DD ∨ (0x5E0 ≤ id ∧ id ≤ 0x5E5) ∨ (0x5E8 ≤ id ∧ id ≤ 0x5ED))

/-- Bits [off + w − 1:off] of block memory contents take a value; they never cross a word but at width 48. -/
def bmPut (m : WMem) (off w v : Nat) : WMem :=
  if w ≤ 24 then
    let k := off / 24
    spSet zeroW m k (putFld (spGet zeroW m k) (off % 24 + w - 1) (off % 24) v)
  else spSet zeroW (spSet zeroW m (off / 24) (wd v)) (off / 24 + 1) (wd (v >>> 24))

/-- What a source is to present in the next cycle, as far as known. -/
def PadSt.coming (x : PadSt) (id : Nat) : Word :=
  match x.nextSrc.reverse.find? fun e => e.1 == id with
  | some e => e.2
  | none => if oneCycle id then 0 else spGet zeroW x.src id

/-- Sources at a fabric edge: what was presented for one cycle goes, what was to come is presented. -/
def PadSt.presentNext (x : PadSt) : PadSt :=
  let kept := x.src.filter fun e => !oneCycle e.1
  { x with src := x.nextSrc.foldl (fun m e => spSet zeroW m e.1 e.2) kept, nextSrc := [] }

/-- The beam port's post at a fabric edge: BPST[22] for two cycles, then the result with BPST[23] (R170). -/
def PadSt.postTick (x : PadSt) : PadSt :=
  match x.post with
  | some (3, w) => { x with nextSrc := x.nextSrc ++ [(0x5DD, 0x400000)], post := some (2, w) }
  | some (2, w) => { x with nextSrc := x.nextSrc ++ [(0x5DD, 0x400000)], post := some (1, w) }
  | some (_, w) => { x with nextSrc := x.nextSrc ++ [(0x5DC, w), (0x5DD, 0x800000)], post := none }
  | none => x

/-- A write request of port k has all its words, and none of its units waits to enter a write queue: WDONE is due (R174). -/
def State.writeEntered (s : State) (p : Pad) (k : Fin 2) (r : MReq) : Bool :=
  r.wr && r.full && !r.told && (r.refused || (List.finRange 4).all fun c =>
    !(s.chans[c].waiting.any fun w => w.user == .port p k && decide (r.unit ≤ w.addr / 32 ∧ w.addr / 32 < r.unit + r.n)))

/-- WDONE is given for the request with serial number n. -/
def MReq.tell (n : Nat) (r : MReq) : MReq := if r.serial = n then { r with told := true } else r

/-- Port k at a fabric edge: WDONE for one write request whose last unit has entered; a request leaves when those made before it have
left (R173, R174). -/
def State.portEdge (s : State) (p : Pad) (k : Fin 2) (x : PadSt) : PadSt :=
  let id := 0x5E9 + 2 * k.val
  let y := match x.ports[k].find? (s.writeEntered p k) with
    | some r => { x with
        nextSrc := x.nextSrc ++ [(id, x.coming id ||| 0x040000)]
        ports := vmod x.ports k fun q => q.map (MReq.tell r.serial) }
    | none => x
  let z := { y with ports := vmod y.ports k fun q => q.dropWhile (·.told) }
  { z with mst := z.mst.set k.val (s.portStatus z.ports[k]) }

/-- Every cell takes INIT (R148). -/
def PadSt.initCells (x : PadSt) : Vector CellSt 384 := Vector.ofFn fun n => CellSt.atInit (x.init n.val)

/-- What a paddock's registers take at the edge: cells, block memory, gate-out lanes, pads, sources (R145, R146, R165, R179) of a
clocked one; an unclocked one's hold, and nothing that its elements have done in the cycle lands (R160). -/
def State.padRegs (s : State) (p : Pad) (x : PadSt) : PadSt :=
  if s.clocked p.val then
    let gout := (List.range 64).foldl (fun m i => spSet zeroW m i (s.sinkVal p.val i (fld (x.cw 792 i) 10 0))) x.gout
    let order := (x.nextBm.filter fun e => e.1 == 0) ++ x.nextBm.filter fun e => e.1 != 0
    (s.portEdge p 1 (s.portEdge p 0 { x with
        pres := x.cells
        acted := []
        bm := order.foldl (fun m e => bmPut m e.2.1 e.2.2.1 e.2.2.2) x.bm
        nextBm := []
        gout := gout
        tsts := s.tapStatus p.val
        pout := Vector.ofFn fun b => s.portSink p.val (23 + b.val)
        poe := Vector.ofFn fun b => s.portSink p.val (35 + b.val) })).postTick.presentNext
  else { x with cells := x.pres, acted := [], nextBm := [], nextSrc := [], src := x.src.filter fun e => !oneCycle e.1 }

/-- What the gate-in lanes of paddock p keep at the edge: of a lane whose source has stopped in the cycle that ends, what the lane
presents in it (R189). -/
def State.lanesHold (s : State) (p : Pad) (x : PadSt) : WMem :=
  if x.cfg.isEmpty then x.hold
  else (List.range 64).foldl (fun m i =>
    let r := x.cw 793 i
    let q := fld r 9 6
    if bit r 23 && !s.holding q && !(s.pad q).hedged then spSet zeroW m i (s.gateIn p.val i) else m) x.hold

/-- A paddock at a fabric edge: its registers; SRST (R183); the hedges of its lanes, by whether its design ran in the cycle that ends
(R207, R209); wire clocks, probes, a Stile freeze (R161, R180, R388). -/
def State.padEdge (s : State) (p : Pad) (x : PadSt) : PadSt :=
  let y := s.padRegs p x
  let z := if x.srst then { y with cells := x.initCells, pres := x.initCells, srst := false } else y
  { z with
    hold := s.lanesHold p x
    hedged := !s.holding p.val
    wprev := s.wireBits p.val
    probeSel := Vector.ofFn fun n => s.rd (aPad p.val (0x10 + n.val))
    frozen := x.frozen || x.freezing
    freezing := false }

/-- The Gleaner program and its reference copy take a word (R218). -/
def State.glWrite (s : State) (i : Nat) (v : Word) : State :=
  { (s.wr (aGlProg i) v).writeFlip 24 i with glRef := spSet zeroW s.glRef i v }

/-- A swap freezes its paddock after the last edge: LOADED 0, SWAP 1, CLKEN 0, ports as R160 states, the Gleaner's pointer cleared
(R207, R218). -/
def State.swapFreeze (s : State) (p : Pad) : State :=
  let s1 := s.modPad p fun x =>
    { x with closing := false, ports := #v[[], []], post := none, mst := #v[0, 0], nextSrc := [], src := x.src.filter fun e => !oneCycle e.1 }
  let s2 := ((s1.bset (aPad p.val 1) 23 false).bset (aPad p.val 1) 22 true).bset (aPad p.val 0) 23 false
  s2.glWrite (0x1000 + p.val) (putBit (s2.rd (aGlProg (0x1000 + p.val))) 23 false)

/-- What probe multiplexer n of paddock p presents (R180). -/
def State.probeMux (s : State) (p n : Nat) : Word :=
  let v := nth 0 (s.pad p).probeSel.toList n
  if bit v 23 then s.srcVal p (fld v 10 0) else 0

/-- The source bits that the probe signals carry (R181). -/
def State.probeBits (s : State) : BitVec 32 :=
  BitVec.ofNat 32 (((List.range 32).map fun n =>
    let c := s.rd (aPrbsel n)
    if bit c 23 && bit (s.probeMux (fld c 22 19) (fld c 18 15)) (fld c 4 0) then 2 ^ n else 0).sum)

/-- A fabric-clock edge of the device: every paddock, the beam port's values, the probe signals, and the bank clock with it (R12, R145,
R167, R181, R298). -/
def State.fabricEdge (s : State) : State :=
  let s1 : State := { s with
    pads := Vector.ofFn fun p => s.padEdge p s.pads[p]
    beamAt := s.beamNow
    prb := (s.probeBits :: s.prb).take 3 }
  let s2 := (List.finRange 16).foldl (fun (t : State) p => if s.pads[p].closing then t.swapFreeze p else t) s1
  let s3 := (List.finRange 12).foldl (fun (t : State) b => t.bankEdge b) s2
  s2.raisedOnce 39 (s2.raisedOnce 38 s3)

/-- A source takes a value from the next cycle on. -/
def State.present (s : State) (p : Pad) (id : Nat) (v : Word) : State :=
  s.modPad p fun x => { x with nextSrc := x.nextSrc ++ [(id, v)] }

/-! ### Macrocells -/

/-- A cell's registers from the next cycle on. Where R145 does not hold they may be wrong or late: free values (R162). -/
def State.cellPut (s : State) (p : Pad) (n : Cell) (c : CellSt) : State :=
  let put := fun (t : State) (v : CellSt) => t.modPad p fun x => { x with cells := x.cells.set n.val v, acted := n.val :: x.acted }
  if s.pads[p].unsure n.val then
    let (ws, t) := s.drawWords 3
    let f := nth 0 ws 2
    put t { q := nth 0 ws 0, qh := if isMul n.val then nth 0 ws 1 else 0, z := bit f 0, n := bit f 1, c := bit f 2, v := bit f 3 }
  else put s c

/-- Cell n has an edge of its clock in the present cycle (R160, R161). -/
def State.cellClock (s : State) (p : Pad) (n : Cell) : Bool :=
  s.clocked p.val && s.clockEdge p.val (s.pads[p].cw (16 * (n.val / 8) + 11) 87)

/-- Cell n runs operation op in the present cycle: SR = 0, CE = 1, and the chosen slot's OP executes as op (R152, R154). -/
def State.cellRuns (s : State) (p : Pad) (n : Cell) (op : Nat) : Bool :=
  s.cellClock p n && !s.sumTerm p.val n.val 4 && s.sumTerm p.val n.val 3 &&
    s.pads[p].opRuns n.val (fld (s.slotWords p.val n.val).1 23 18) == op

/-! ### Block memories -/

/-- Address bits and width of an aspect (R164); a value that only an upset makes acts as 1K × 24 (R205). -/
def aspect : Nat → Nat × Nat
  | 0 => (9, 48)
  | 2 => (11, 12)
  | 3 => (12, 6)
  | 4 => (13, 3)
  | _ => (10, 24)

/-- Bits [off + w − 1:off], off within the word lo that hi follows. -/
def bmBits (lo hi : Word) (off w : Nat) : Nat := nbits (lo.toNat + 2 ^ 24 * hi.toNat) (off % 24 + w - 1) (off % 24)

/-- Bits [off + w − 1:off] of block memory contents. -/
def bmGet (m : WMem) (off w : Nat) : Nat := bmBits (spGet zeroW m (off / 24)) (spGet zeroW m (off / 24 + 1)) off w

/-- A block-memory word is read through its codes: an uncorrectable one is delivered as stored (R166), of which only recorded flips
are known. -/
def State.bmWordRead (s : State) (p : Pad) (a : Nat) (e : MemErr) : State × Word × Bool :=
  let w := spGet zeroW s.pads[p].bm a
  let (t, lost) := s.readCheck p.val a e
  if !lost then (t, w, false)
  else match s.badAt p.val a with
    | some b => (t, w ^^^ b.dmask, true)
    | none => let (f, u) := t.drawWords 1; (u, nth 0 f 0, true)

/-- What port k of block memory m presents after a read: its two sources, and its ERR bit of BMS (R164, R166). -/
def State.bmPresent (s : State) (p : Pad) (m : Fin 96) (k : Fin 2) (w : Nat) (lo hi : Word) (err : Bool) : State :=
  let id := 0x400 + 4 * m.val + 2 * k.val
  let bms := s.pads[p].coming (0x600 + m.val)
  ((s.present p id (if w < 24 then wd (lo.toNat % 2 ^ w) else lo)).present p (id + 1) (if w = 48 then hi else 0)).present
    p (0x600 + m.val) (putBit bms k.val err)

/-- Port k of block memory m at an edge of its clock with EN = 1 (R165, R166): the read of the location as it stood, and its write.
Where R145 does not hold for the port, what it reads and what it writes are free values (R162). -/
def State.bmAccess (s : State) (p : Pad) (m : Fin 96) (k : Fin 2) (e : MemErr) : State :=
  let x := s.pads[p]
  let (ab, w) := aspect (fld (x.bmWord m.val 0) 2 0)
  let sel := fun i => (x.bmWord m.val (3 + 5 * k.val + i)).toNat
  let word := fun i => s.srcVal p.val (nbits (sel i) 10 0)
  let off := 24576 * m.val + w * ((word 0).toNat % 2 ^ ab)
  let a := off / 24
  let (s1, w0, e0) := s.bmWordRead p a e
  let (s2, w1, e1) := if w = 48 then s1.bmWordRead p (a + 1) .clean else (s1, spGet zeroW x.bm (a + 1), false)
  let wire := x.unsureBm m.val k.val
  let (fr, s3) := if wire then s2.drawWords 4 else ([], s2)
  let v := if wire then (nth 0 fr 0).toNat + 2 ^ 24 * (nth 0 fr 1).toNat else bmBits w0 w1 off w
  let s4 := s3.bmPresent p m k w (wd v) (wd (v >>> 24)) (e0 || e1)
  let s5 := if e0 || e1 then s4.evFabric p.val else s4
  let data := if wire then (nth 0 fr 2).toNat + 2 ^ 24 * (nth 0 fr 3).toNat else (word 1).toNat + 2 ^ 24 * (word 2).toNat
  let s6 := if s.bitSink p.val (sel 4) then
      let t := s5.writeFlip p.val a
      (if w = 48 then t.writeFlip p.val (a + 1) else t).modPad p fun y => { y with nextBm := y.nextBm ++ [(k.val, off, w, data % 2 ^ w)] }
    else s5
  s6.modPad p fun y => { y with acted := (1000 + 2 * m.val + k.val) :: y.acted }

/-- Port k of block memory m has an edge of its clock in the present cycle, with EN = 1 (R160, R161, R165). -/
def State.bmRuns (s : State) (p : Pad) (m : Fin 96) (k : Fin 2) : Bool :=
  s.clocked p.val && s.clockEdge p.val (s.pads[p].bmWord m.val (1 + k.val)) &&
    s.bitSink p.val (s.pads[p].bmWord m.val (6 + 5 * k.val)).toNat

end Sys2Proof.Machine
end

