-- ==== Sys2Proof/Machine/Ports.lean ====
section
/-! DEFINITION. A paddock's ports: beam port, tap port, memory ports, wardens' bus, and its registers (R105, R106, R160,
R170 to R183). -/

namespace Sys2Proof.Machine

/-! ### Memory ports (R172 to R175) -/

/-- Sink i of memory port k: MCMD, MAL, MAH, MWD, MWV for i = 0 to 4. -/
def State.mpSink (s : State) (p : Pad) (k : Fin 2) (i : Nat) : Word := s.portSink p.val (11 + 5 * k.val + i)

/-- A request reaches a unit outside the port's window, or the window is shut (R175). -/
def State.outsideWindow (s : State) (p k u n : Nat) : Bool :=
  !s.bget (aPad p (6 + 2 * k)) 0 || decide (32 * u < s.fget (aPad p (6 + 2 * k)) 23 9 * 2 ^ 20
    ∨ (s.fget (aPad p (7 + 2 * k)) 23 9 + 1) * 2 ^ 20 < 32 * (u + n))

/-- Port k's requests of a paddock, changed by f. -/
def State.modPort (s : State) (p : Pad) (k : Fin 2) (f : List MReq → List MReq) : State :=
  s.modPad p fun x => { x with ports := vmod x.ports k f }

/-- The element has acted in this cycle. -/
def State.didAct (s : State) (p : Pad) (k : Nat) : State := s.modPad p fun x => { x with acted := k :: x.acted }

/-- A request with GO = 1, ignored and counted while the port presents BUSY (R172, R175). -/
def State.portRequest (s : State) (p : Pad) (k : Fin 2) : State :=
  let cmd := s.mpSink p k 0
  if bit s.pads[p].mst[k] 20 then (s.inc (aPad p.val (2 + k.val)) 23 16).evFabric p.val
  else
    let u := fld (s.mpSink p k 2) 5 0 * 2 ^ 24 + (s.mpSink p k 1).toNat
    let n := fld cmd 4 0 + 1
    let bad := s.outsideWindow p.val k.val u n
    let id := s.pads[p].serial
    let r : MReq := { serial := id, wr := bit cmd 22, pad := bit cmd 21, unit := u, n := n, refused := bad, back := [], done := 0, part := [], told := false }
    let s1 := (s.modPort p k fun q => q ++ [r]).modPad p fun x => { x with serial := id + 1 }
    if bad then (s1.inc (aPad p.val (2 + k.val)) 15 8).evFabric p.val
    else if r.wr then s1
    else (List.range n).foldl (fun (t : State) i =>
      let (t', more) := t.dramAsk (.port p k) (u + i) 0 id
      if more then t'
      else t'.modPort p k fun q => q.map fun y => if y.serial = id then { y with back := y.back ++ [(u + i, List.replicate 32 0, false)] } else y) s1

/-- Word j of a unit's 32 bytes (R172). -/
def unitWord (pad : Bool) (d : List Byte) (j : Nat) : Word :=
  if pad then wd (ofBytesLE ((d.drop (4 * j)).take 3)) else wd (ofBytesLE ((d.drop (3 * j)).take 3))

/-- The 32 bytes that a unit's words carry (R172). -/
def unitBytes (pad : Bool) (ws : List Word) : List Byte :=
  if pad then (ws.map fun w => bytesLE 4 w.toNat).flatten else (bytesOfWords ws).take 32

/-- The next word of the oldest request, when its unit has come: the word, poison, whether it is the last. -/
def MReq.nextWord (r : MReq) : Option (Word × Bool × Bool) :=
  if r.wr then none
  else
    let u := r.unit + r.done / r.wpu
    let last := r.done + 1 == r.n * r.wpu
    if r.refused then some (0, true, last)
    else match r.back.find? fun e => e.1 == u with
      | some (_, d, bad) => some (if bad then 0 else unitWord r.pad d (r.done % r.wpu), bad, last)
      | none => none

/-- One word of read data is presented (R173, R175). -/
def State.portData (s : State) (p : Pad) (k : Fin 2) : State :=
  match s.pads[p].ports[k] with
  | [] => s
  | r :: rest =>
    match r.nextWord with
    | none => s
    | some (w, err, last) =>
      let s1 := (s.present p (0x5E8 + 2 * k.val) w).present p (0x5E9 + 2 * k.val)
        (s.pads[p].coming (0x5E9 + 2 * k.val) ||| wd (2 ^ 23 + b2n err * 2 ^ 22 + b2n last * 2 ^ 21))
      let s2 := if err && !r.refused && r.done % r.wpu == 0 then s1.inc (aPad p.val (2 + k.val)) 7 0 else s1
      s2.modPort p k fun _ => if last then rest else { r with done := r.done + 1 } :: rest

/-- One word is taken for the oldest write request that lacks data (R174). -/
def State.portWrite (s : State) (p : Pad) (k : Fin 2) : State :=
  match s.pads[p].ports[k].find? fun r => r.wr && !r.full with
  | none => s
  | some r =>
    let ws := r.part ++ [s.mpSink p k 3]
    let whole := ws.length == r.wpu
    let u := r.unit + r.done / r.wpu
    let s1 := if whole && !r.refused then s.queueWrite (.port p k) (32 * u) (unitBytes r.pad ws) else s
    s1.modPort p k fun q => q.map fun y =>
      if y.serial = r.serial then { y with done := r.done + 1, part := if whole then [] else ws } else y

/-! ### The wardens' bus (R176 to R178) -/

/-- An access completes with data for its requester; the debug master's answer carries it (R376, R383). -/
def State.busDone (s : State) (r : Requester) (v : Word) : State :=
  let s1 : State := { s with rdata := v, rfault := false }
  match r with
  | .debug => { ((s1.stWr 0x06 v).stWr 0x07 (putBit (s1.stRd 0x07) 19 false)) with stile := { s1.stile with data := v } }
  | _ => s1

/-- The word offset of an access. -/
def padOffset : PadAccess → Nat
  | .rd o _ => o.toNat
  | .wr o _ => o.toNat

/-- An access to a paddock's window by a requester with rights: presented, or an access fault at once (R177). While the
paddock holds one, a second waits outside; the debug master's is kept with BMCTL.BUSY. -/
def State.busAccess (s : State) (r : Requester) (p : Pad) (a : PadAccess) : State :=
  if !s.clocked p.val then s.accessFault r (aPadWin p.val (padOffset a))
  else if s.pads[p].wb.isSome then
    match r with
    | .debug => { (s.stWr 0x07 (putBit (s.stRd 0x07) 19 true)) with stile := { s.stile with bmWait := some (p, a) } }
    | _ => s
  else
    let (wba, wbd) := match a with
      | .rd o pk => (wd (2 ^ 23 + b2n (pk && r == .debug) * 2 ^ 21 + o.toNat), (0 : Word))
      | .wr o v => (wd (2 ^ 22 + o.toNat), v)
    let s1 := ((s.present p 0x5EC wba).present p 0x5ED wbd).modPad p fun x => { x with wb := some { req := r, acc := a } }
    match r with
    | .debug => s1.stWr 0x07 (putBit (s1.stRd 0x07) 19 true)
    | _ => s1

/-- WARDENS_BUS_ACCESS (R176, R177). -/
def execWardensBusAccess (r : Requester) (p : Pad) (acc : PadAccess) (s : State) : Host.Outcome State Fault Refusal :=
  let a := aPadWin p.val (padOffset acc)
  let ok := match acc with
    | .rd _ _ => s.mayRead r (locOf a)
    | .wr _ _ => s.mayWrite r (locOf a)
  if s.padOff p.val then .next { s with rdata := 0, rfault := false }
  else if ok then .next (s.busAccess r p acc)
  else .next (s.accessFault r a)

/-- The access in progress ends: its requester, its offset, and whether it faulted. -/
structure BusEnd where
  req : Requester
  off : Nat
  fault : Bool
deriving DecidableEq, Repr

/-- WBK carries ACK, and ERR makes the access a fault (R176). -/
def State.busAck (s : State) (p : Pad) : State × Option BusEnd :=
  let k := s.portSink p.val 22
  match s.pads[p].wb with
  | none => (s, none)
  | some w =>
    if !s.clocked p.val || !bit k 23 then (s, none)
    else
      let s1 := s.modPad p fun x => { x with wb := none }
      let v := match w.acc with
        | .rd _ _ => s.portSink p.val 21
        | .wr _ _ => 0
      let e : BusEnd := { req := w.req, off := padOffset w.acc, fault := bit k 22 }
      if bit k 22 then
        (((s1.inc (aPad p.val 4) 15 8).busDone w.req 0).accessFault w.req (aPadWin p.val (padOffset w.acc)), some e)
      else (s1.busDone w.req v, some e)

/-- 64 fabric cycles have passed without an answer (R177). -/
def State.busTimeout (s : State) (p : Pad) : State × Option BusEnd :=
  match s.pads[p].wb with
  | none => (s, none)
  | some w =>
    let s1 := (s.modPad p fun x => { x with wb := none }).inc (aPad p.val 4) 23 16
    (((s1.busDone w.req 0).accessFault w.req (aPadWin p.val (padOffset w.acc))).evFabric p.val,
      some { req := w.req, off := padOffset w.acc, fault := true })

/-! ### The beam port (R170) -/

/-- PADDOCK_POST: PQCTL carries POST alone (R170). -/
def execPaddockPost (p : Pad) (s : State) : Host.Outcome State Fault Refusal :=
  let c := s.portSink p.val 4
  if s.clocked p.val && bit c 23 && !bit c 22 && s.pads[p].post.isNone then
    let (t, st) := s.post (.paddock p) (Fin.ofNat 8 (fld c 2 0)) (s.portSink p.val 0) (s.portSink p.val 1)
      (s.portSink p.val 2) (s.portSink p.val 3)
    .next (t.modPad p fun x => { x with post := some (3, st) })
  else .next s

/-- PADDOCK_CANCEL: PQCTL carries CANCEL alone (R170). -/
def execPaddockCancel (p : Pad) (s : State) : Host.Outcome State Fault Refusal :=
  let c := s.portSink p.val 4
  if s.clocked p.val && bit c 22 && !bit c 23 && s.pads[p].post.isNone then
    let (t, st) := s.cancel (.paddock p) (Fin.ofNat 8 (fld c 2 0)) (wd (fld (s.portSink p.val 0) 20 0))
    .next (t.modPad p fun x => { x with post := some (3, st) })
  else .next s

/-! ### The tap port (R105 to R107, R171) -/

/-- The position TLAT quads ahead of the present one. -/
def State.ahead (s : State) (h n : Nat) : Nat × Nat :=
  let r := s.raster h
  let t := (s.posLine h * r.htotal + s.posQuad h + n) % max 1 r.frame
  (t / max 1 r.htotal, t % max 1 r.htotal)

/-- The four dots of quad q of a line. -/
def quadOf (l : List Word) (q : Nat) : List Word := (l.drop (4 * q)).take 4

/-- The tap setting of the frame in progress or the next (R104), and the position it presents now: TLAT quads ahead, when
that lies in its own frame. -/
def State.tapTarget (s : State) (h : Head) (next : Bool) : Option (TapSet × Nat × Nat) :=
  let x := s.heads[h]
  let r := s.raster h.val
  let t := if next then x.tapNext.getD x.tap else x.tap
  let wraps := decide (r.frame ≤ s.posLine h.val * r.htotal + s.posQuad h.val + t.lat)
  let (k, q) := s.ahead h.val t.lat
  let plain := !next && x.first && decide (k ≤ x.lead)
  if t.en && wraps == next && !plain && decide (k < r.vact ∧ q < r.hact) then some (t, k, q) else none

/-- A head's tap presents the quad that lies TLAT quads ahead, of the frame in progress or of the next (R104, R105). The first
lines of a first frame leave as the backdrop and take no part (R39). A tap that a swap had forced to bypass rejoins at quad 0
of a line once the paddock runs again (R209). -/
def State.tapSend (s : State) (h : Head) (next : Bool) : State :=
  match s.tapTarget h next with
  | none => s
  | some (t, k, q) =>
  let x := s.heads[h]
  let tag := packBeam k q
  let s1 := if q = 0 && s.loaded t.pad && !s.swapping t.pad then s.bset (aHead h.val 0x36) 22 false else s
  if s.dimFor h k || s1.bget (aHead h.val 0x36) 22
      || (x.tapSent.any fun e => e.2 == tag) || (x.tapBack.any fun e => e.1 == tag) then s
  else
    let d := quadOf (s1.outLine h k) q
    let p : Pad := Fin.ofNat 16 t.pad
    let s2 := (((((s1.present p 0x5E0 0x800000).present p 0x5E1 tag).present p 0x5E2 (nth 0 d 0)).present p 0x5E3 (nth 0 d 1)).present
      p 0x5E4 (nth 0 d 2)).present p 0x5E5 (nth 0 d 3)
    s2.modHead h fun y => { y with tapSent := y.tapSent ++ [(t.pad, tag)], tapOld := y.tapOld.filter fun e => e.2 != tag }

/-- TAP_TRANSFER (R105, R107). -/
def execTapTransfer (h : Head) (s : State) : Host.Outcome State Fault Refusal :=
  if s.running h.val then .next ((s.tapSend h false).tapSend h true) else .next s

/-- The head whose tap uses paddock p in this frame or the next. -/
def State.tapOwner (s : State) (p : Nat) : Option Head :=
  (List.finRange 8).find? fun h =>
    [some s.heads[h].tap, s.heads[h].tapNext].any fun o => o.any fun t => t.en && t.pad == p

/-- A returned quad that is not the oldest one awaited: a quad that has left as composed is late, which was counted, and with it the
older ones are no longer awaited (DESIGN CHOICE, log entry 118); any other tag is wrong (R106). -/
def State.tapStray (s : State) (h : Head) (p : Pad) (tag : Word) : State :=
  if s.heads[h].tapOld.contains (p.val, tag) then
    s.modHead h fun x => { x with tapOld := ((x.tapOld.dropWhile fun e => e != (p.val, tag)).drop 1) }
  else s.inc (aHead h.val 0x36) 7 0

/-- A quad returned with RTAG and dots (R106): in time, too late, or with a wrong tag. -/
def State.tapTake (s : State) (h : Head) (p : Pad) (tag : Word) (d : List Word) : State :=
  match s.heads[h].tapSent.find? fun e => e.1 == p.val with
  | some e =>
    if e.2 = tag then
      let r := s.raster h.val
      let left := (fld tag 23 12 * r.htotal + fld tag 11 0 + r.frame - (s.posLine h.val * r.htotal + s.posQuad h.val)) % max 1 r.frame
      s.modHead h fun x => { x with tapSent := x.tapSent.erase e, tapBack := x.tapBack ++ [(tag, if 2 ≤ left then d else [])], tapOld := [] }
    else s.tapStray h p tag
  | none => s.tapStray h p tag

/-! ### Paddock registers (R160, R180 to R183) -/

/-- SRST: every cell takes INIT at the next fabric edge; the memory ports' requests are abandoned, and what they have put into write
queues completes (R183). -/
def State.padSrst (s : State) (p : Pad) : State := s.modPad p fun x => { x with srst := true, ports := #v[[], []] }

/-- CLKEN is given or withheld (R160). -/
def State.clkenPut (s : State) (p : Pad) (on : Bool) : State := s.bset (aPad p.val 0) 23 on

/-- A write of PCTL. -/
def State.pctlPut (s : State) (p : Pad) (v : Word) : State :=
  let s1 := if bit v 22 then s.padSrst p else s
  s1.clkenPut p (bit v 23)

/-- SRST (R183). -/
def execSrst (r : Requester) (p : Pad) (s : State) : Host.Outcome State Fault Refusal :=
  .next (s.gated r (aPad p.val 0) fun t => t.padSrst p)

/-- CLKEN_WRITE (R160). -/
def execClkenWrite (r : Requester) (p : Pad) (on : Bool) (s : State) : Host.Outcome State Fault Refusal :=
  .next (s.gated r (aPad p.val 0) fun t => t.clkenPut p on)

/-- PROBE_SELECT (R180). -/
def execProbeSelect (r : Requester) (p : Pad) (n : Fin 16) (v : Word) (s : State) : Host.Outcome State Fault Refusal :=
  .next (s.gated r (aPad p.val (0x10 + n.val)) fun t => t.put (aPad p.val (0x10 + n.val)) v)

end Sys2Proof.Machine
end

