-- ==== Sys2Proof/Machine/Loader.lean ====
section
/-! DEFINITION. Swaps, the Internal Configuration Port and the image table (08_paddocks_configuration.md, R192 to R211). -/

namespace Sys2Proof.Machine

/-! ### Checks of configuration contents (R205 code 0x4) -/

/-- Bits [23:n] of a word are 0. -/
def clearAbove (w : Word) (n : Nat) : Bool := w.toNat < 2 ^ n

/-- A clock select is good. -/
def clockGood (w : Word) : Bool := fld w 17 16 != 3 && clearAbove w 18

/-- Words i to 95 of a frame are 0. -/
def zeroFrom (f : List Word) (i : Nat) : Bool := (f.drop i).all (· == 0)

/-- Words of product-term frame j of a tussock are good: no literal code 0b11, bits [263:256] zero. -/
def ptFrameGood (j : Nat) (f : List Word) : Bool :=
  f.zipIdx.all fun e =>
    ((List.range 12).all fun i => nbits e.1.toNat (2 * i + 1) (2 * i) != 3) && ((96 * j + e.2) % 11 != 10 || clearAbove e.1 16)

/-- An OP value may stand in cell n, GMUX apart. -/
def opGood (n op : Nat) : Bool := opKnown op && !(decide (0x18 ≤ op ∧ op ≤ 0x1B) && !isMul n)

/-- Words of a cell frame are good, for cells from c0 of a tussock. -/
def cellFrameGood (c0 : Nat) (f : List Word) : Bool :=
  (List.range 4).all fun i =>
    let w := fun j => nth 0 f (24 * i + j)
    ((List.range 8).all fun k => opGood (c0 + i) (fld (w (2 * k)) 23 18)) && clearAbove (w 17) 22 && clearAbove (w 18) 22
      && clearAbove (w 19) 16 && ((List.range 4).all fun k => w (20 + k) == 0)

/-- Words of a block-memory frame are good. -/
def bmFrameGood (f : List Word) : Bool :=
  (List.range 4).all fun i =>
    let w := fun j => nth 0 f (24 * i + j)
    decide ((w 0).toNat ≤ 4) && clockGood (w 1) && clockGood (w 2)
      && ((List.range 2).all fun k => ((List.range 3).all fun j => clearAbove (w (3 + 5 * k + j)) 11)
        && clearAbove (w (6 + 5 * k)) 16 && clearAbove (w (7 + 5 * k)) 16) && ((List.range 11).all fun k => w (13 + k) == 0)

/-- Frame n with these 96 words is good by itself (R185 to R188). -/
def frameGood (n : Nat) (f : List Word) : Bool :=
  if n < 768 then
    let j := n % 16
    if j < 11 then ptFrameGood j f
    else if j = 11 then clearAbove (nth 0 f 85) 8 && clearAbove (nth 0 f 86) 2 && clockGood (nth 0 f 87) && zeroFrom f 88
    else if j < 14 then ((List.range 4).all fun c => clearAbove (nth 0 f (21 * c + 20)) 5) && zeroFrom f 84
    else cellFrameGood (if j = 14 then 0 else 4) f
  else if n < 792 then bmFrameGood f
  else if n = 792 then ((f.take 64).all fun w => clearAbove w 11) && zeroFrom f 64
  else if n = 793 then ((f.take 64).all fun w => nbits w.toNat 22 10 == 0) && zeroFrom f 64
  else if n = 794 then ((f.take 64).all fun w => clearAbove w 2) && zeroFrom f 64
  else if n = 795 then zeroFrom f 64
  else if n = 796 then
    (((f.take 47).zipIdx).all fun e => clearAbove e.1 (if e.2 = 15 ∨ e.2 = 20 then 16 else 11)) && zeroFrom f 47
  else if n = 797 then zeroFrom f 1
  else zeroFrom f 0

/-- A route of frame 793 names the paddock itself or a disabled one (code 0x5). -/
def State.routesBad (s : State) (p : Nat) (f : List Word) : Bool :=
  (f.take 64).any fun w => bit w 23 && (fld w 9 6 == p || s.padOff (fld w 9 6))

/-- A GMUX stands in a cell that does not head a gang. -/
def PadSt.gmuxBad (x : PadSt) : Bool :=
  (List.range 384).any fun n => (List.range 8).any fun k =>
    fld (x.cellWord n (2 * k)) 23 18 == 0x20 && (x.gang (n / 8) == 0 || n % 8 % x.gangSize (n / 8) != 0)

/-! ### Segments (R192, R194) -/

/-- 4 bytes, most significant first. -/
def be32 (n : Nat) : List Byte := bytesBE 4 n

/-- Segments i on of a run: plaintext words, and per segment its words and whether its tag checks. -/
def decryptSegs (seg : Nat → Nat → List Byte × Bool) (entry : Nat → List Byte) (sid : List Byte) (seg0 : Nat) :
    Nat → Nat → Nat → List Byte → List Word × List (Nat × Bool)
  | 0, _, _, _ => ([], [])
  | k + 1, i, off, key =>
    let e := entry i
    let len := ofBytesLE (e.take 4)
    let (c, whole) := seg off len
    let (p, ok) := gcmDecrypt key (List.replicate 8 0 ++ be32 (seg0 + i)) (sid ++ be32 (seg0 + i)) c ((e.drop 16).take 16)
    let (ws, ss) := decryptSegs seg entry sid seg0 k (i + 1) (off + len) (kdf key "KZSW-SEG" (sid ++ be32 (seg0 + i + 1)))
    (wordsOfBytes p ++ ws, (len / 3, ok && whole) :: ss)

/-- Bytes of DRAM, and whether none of their units came poisoned. -/
abbrev DramView := Nat → Nat → List Byte × Bool

/-- The plaintext of an image's run, as the loader sees DRAM (R202, R204). A segment of which a unit came poisoned fails as a bad tag
does (log entry 111). -/
def State.imageRunBy (s : State) (v : DramView) (img : Nat) : List Word × List (Nat × Bool) :=
  let w0 := s.rd (aImage img 0)
  let segA := (s.rd (aImage img 1)).toNat * 2048
  let entA := (s.rd (aImage img 2)).toNat * 2048
  match (s.keys[Fin.ofNat 64 img]) with
  | none => ([], [(0, false)])
  | some k => decryptSegs (fun off n => v (segA + off) n) (fun i => (v (entA + 32 * i) 32).1) k.streamId
      (fld w0 12 7) (fld w0 18 13 + 1) 0 0 k.key

/-- The plaintext of an image's run, from DRAM as it stands. -/
def State.imageRun (s : State) (img : Nat) : List Word × List (Nat × Bool) :=
  s.imageRunBy (fun a n => (s.nowBytes a n, true)) img

/-- The units that hold an image: the copies of its entries, and its segments, whose lengths no more than R192 allows count. -/
def State.imageUnits (s : State) (img : Nat) : List Nat :=
  let entA := (s.rd (aImage img 2)).toNat * 2048
  let n := s.fget (aImage img 0) 18 13 + 1
  let lens := (List.range n).map fun i => min 262143 (ofBytesLE (s.nowBytes (entA + 32 * i) 4))
  unitsOf entA (32 * n) ++ unitsOf ((s.rd (aImage img 1)).toNat * 2048) lens.sum

/-! ### Starting a swap (R207) -/

/-- Taps in force on paddock p go to bypass; quads already sent are not awaited (R107, R207). -/
def State.tapsBypass (s : State) (p : Nat) : State :=
  (List.finRange 8).foldl (fun (t : State) (h : Head) =>
    if t.heads[h].tap.en && t.heads[h].tap.pad == p then
      (t.modHead h fun x => { x with tapSent := [], tapBack := [], tapOld := [] }).bset (aHead h.val 0x36) 22 true
    else t) s

/-- BUSY of ICPSTAT. -/
def State.icpBusy (s : State) : Bool := s.icp.isSome

/-- Job in hand, changed by f. -/
def State.modJob (s : State) (f : IcpJob → IcpJob) : State := { s with icp := s.icp.map f }

/-- An image entry is VALID and for paddock p. -/
def State.imageFor (s : State) (img p : Nat) : Bool :=
  s.bget (aImage img 0) 23 && s.fget (aImage img 0) 22 19 == p

/-- The ICP asks the DRAM scheduler for the units of the image in hand, as class 4 (R131, R204). -/
def State.icpAsk (s : State) (img : Nat) : State :=
  (s.imageUnits img).foldl (fun (t : State) u =>
    let (t', more) := t.dramAsk .loader u 0 0
    t'.modJob fun j =>
      if more then { j with wait := j.wait ++ [u] } else { j with got := j.got ++ [(u, List.replicate 32 0, false)] }) s

/-- What the ICP has read for the job in hand. -/
def IcpJob.view (j : IcpJob) : DramView := fun a n =>
  ((List.range n).map fun i => match j.got.find? fun e => e.1 == (a + i) / 32 with
    | some e => nth 0 e.2.1 ((a + i) % 32)
    | none => 0,
   !(j.got.any fun e => e.2.2 && decide (a < 32 * e.1 + 32 ∧ 32 * e.1 < a + n)))

/-- The job that the ICP has just taken up begins to read, where it needs an image at once: a REWRITE, of a paddock with a loaded
design (R204). A load begins with CONFIG_LOAD. -/
def State.icpTake (s : State) : State :=
  match s.icp with
  | some j =>
    let img := s.fget (aPad j.pad 0x0A) 19 14
    if j.op = .rewrite && s.imageFor img j.pad && s.holding j.pad then (s.modJob fun x => { x with begun := true }).icpAsk img else s
  | none => s

/-- The ICP takes up the next load that waits. -/
def State.icpNext (s : State) : State :=
  match s.icpQueue with
  | j :: t => ({ s with icp := some j, icpQueue := t } : State).icpTake
  | [] => ({ s with icp := none } : State).bset aIcpstat 23 false

/-- A job for the ICP: at once, or after those that wait. -/
def State.icpAdd (s : State) (j : IcpJob) : State :=
  let t := match s.icp with
    | none => ({ s with icp := some j } : State).icpTake
    | some _ => { s with icpQueue := s.icpQueue ++ [{ j with waited := true }] }
  t.bset aIcpstat 23 true

/-- A new job. -/
def newJob (op : IcpOp) (p img f : Nat) (mbox : Option Nat) : IcpJob :=
  { op := op, pad := p, img := img, frame := f, begun := false, waited := false, words := [], segs := [], total := 0
    frames := [], ended := false, runs := false, code := 0, mbox := mbox, wait := [], got := [] }

/-- Repairs of the Gleaner that have not started are cancelled by a swap of the paddock (R216). -/
def State.repairsOff (s : State) (p : Pad) : State :=
  let s1 : State := { s with icpQueue := s.icpQueue.filter fun j => !(j.op == .rewrite && j.pad == p.val && j.mbox.isNone) }
  match s.pads[p].repair with
  | some (h, i, g) =>
    let hd : Head := Fin.ofNat 8 h
    if s.heads[hd].queue.any fun e => e.idx == i && e.gen == g then s1.dropEntry hd i else s1
  | none => s1

/-- The Gleaner leaves a paddock whose swap starts out of the rest of its round (R213). -/
def State.glSkip (s : State) (p : Nat) : State := if s.gl.run then { s with gl := { s.gl with skip := p :: s.gl.skip } } else s

/-- A swap of a paddock starts (R207): taps go to bypass, the freeze comes with the paddock's last fabric edge, the next one; its load
waits for the ICP. -/
def State.swapStart (s : State) (p : Pad) (img : Nat) (planned : Bool) (mbox : Option Nat) : State :=
  let s1 := (s.repairsOff p).modPad p fun x => { x with closing := true, planned := planned, repair := none }
  ((s1.glSkip p.val).tapsBypass p.val).icpAdd (newJob .load p.val img 0 mbox)

/-- A swap that has only just begun gives way to another of the same SCLK cycle (R211): its load leaves the ICP, and the taps that it
bypassed rejoin. -/
def State.swapUndo (s : State) (p : Pad) : State :=
  if !s.pads[p].closing then s
  else
    let mine := fun (j : IcpJob) => j.op == .load && j.pad == p.val && !j.begun
    let s1 : State := { s with icpQueue := s.icpQueue.filter fun j => !mine j }
    let s2 := match s1.icp with
      | some j => if mine j then s1.icpNext else s1
      | none => s1
    (List.finRange 8).foldl (fun (t : State) (h : Head) =>
      if t.heads[h].tap.en && t.heads[h].tap.pad == p.val then t.bset (aHead h.val 0x36) 22 false else t)
      (s2.modPad p fun x => { x with closing := false })

/-- A SWAP is discarded (R211). -/
def State.swapReject (s : State) (p : Pad) : State := (s.inc (aPad p.val 0x0A) 7 0).evConfig

/-- A SWAP action's swap (R207, R211). -/
def State.swapAction (s : State) (p : Pad) (img : Nat) (planned : Bool) (mbox : Option Nat) : State :=
  if s.swapping p.val || !s.imageFor img p.val then s.swapReject p else s.swapStart p img planned mbox

/-! ### The load (R204 to R208) -/

/-- The job fails with a code, if none has come before. -/
def IcpJob.fail (j : IcpJob) (c : Nat) : IcpJob := if j.code = 0 then { j with code := c } else j

/-- n words have been read: segments end, and a bad tag fails the job (code 0x2). -/
def useSegs : Nat → List (Nat × Bool) → List (Nat × Bool) × Bool
  | _, [] => ([], true)
  | n, (k, ok) :: t =>
    if n < k then ((k - n, ok) :: t, true)
    else
      let (r, good) := useSegs (n - k) t
      (r, ok && good)

/-- The job has read n words of its run. -/
def IcpJob.read (j : IcpJob) (n : Nat) : IcpJob :=
  let (ss, ok) := useSegs n j.segs
  let j1 := { j with words := j.words.drop n, segs := ss }
  if ok then j1 else j1.fail 2

/-- A paddock's configuration and block memories are cleared, and its registers with them (R208). -/
def PadSt.cleared (x : PadSt) : PadSt :=
  { x with
    cfg := [], bm := [], nextBm := [], cells := Vector.replicate 384 CellSt.reset, pres := Vector.replicate 384 CellSt.reset
    acted := [], src := [], nextSrc := [], gout := [], mst := #v[0, 0], tsts := 0, wprev := [], srst := false }

/-- Upsets of a paddock are gone with its contents. -/
def State.dropUpsets (s : State) (p : Nat) (f : Upset → Bool) : State :=
  { s with upsets := s.upsets.filter fun u => !(u.pad.val == p && f u) }

/-- DESIGNID shows word 0 of frame 797 (R211). -/
def State.designTrack (s : State) (p : Nat) : State := s.wr (aPad p 0x0C) ((s.pad p).cw 797 0)

/-- The loader clears a paddock: frames, block memories with what their codes held against them, upsets, wire clocks in use (R208,
R277). -/
def State.padClear (s : State) (p : Pad) : State :=
  let s1 := (s.modPad p PadSt.cleared).dropUpsets p.val fun _ => true
  let s2 : State := { s1 with repair := { s1.repair with bad := s1.repair.bad.filter fun b => b.region != p.val } }
  ((s2.bset (aPad p.val 1) 21 false).fset (aPad p.val 1) 15 12 0).designTrack p.val

/-- The spare-column map that the records give paddock p: a failed column per row; `none` when a row has two (R206). -/
def State.spareMap (s : State) (p : Nat) : Option (List (Option Nat)) :=
  let cols := s.failedCols p
  let row := fun r => ((cols.filter fun e => e.1 == r).map (·.2)).eraseDups
  if (List.range 12).any fun r => decide (2 ≤ (row r).length) then none
  else some ((List.range 12).map fun r => (row r).head?)

/-- RPMAP0 to RPMAP2 of a map. -/
def rpmapWord (m : List (Option Nat)) (i : Nat) : Word :=
  wd ((List.range 4).map fun k => (match nth none m (4 * i + k) with
    | some c => (32 + c) * 2 ^ (6 * k)
    | none => 0)).sum

/-- The run of the load in hand, as the loader sees DRAM, is there to be written. -/
def State.loadRead (s : State) (v : DramView) : State :=
  s.modJob fun x =>
    let (ws, ss) := s.imageRunBy v x.img
    { x with words := ws, segs := ss, total := ws.length }

/-- The loader clears the paddock of the load in hand and applies its spare columns; `read` then has the run read, unless the load
has failed (R205, R206, R208). -/
def State.loadClear (s : State) (j : IcpJob) (read : State → State) : State :=
  let s1 := (s.padClear (Fin.ofNat 16 j.pad)).modJob fun x => { x with begun := true }
  if !s1.imageFor j.img j.pad then s1.modJob fun x => x.fail 1
  else
    match s1.spareMap j.pad with
    | none => (s1.bset (aPad j.pad 0x0A) 13 true).modJob fun x => x.fail 8
    | some m =>
      read ((List.range 3).foldl (fun (t : State) i => t.wr (aPad j.pad (0x20 + i)) (rpmapWord m i)) (s1.bset (aPad j.pad 0x0A) 13 false))

/-- Every unit that the job in hand has asked for has come: a load's run is there (R204). -/
def State.icpHas (s : State) : State :=
  match s.icp with
  | some j => if j.op = .load && j.wait.isEmpty then s.loadRead j.view else s
  | none => s

/-- The loader begins the load in hand: it asks the scheduler for the run's units (R204). -/
def State.loadBegin (s : State) (j : IcpJob) : State := s.loadClear j fun t => (t.icpAsk j.img).icpHas

/-- A unit of the image in hand has come (R204). -/
def State.loaderUnit (s : State) (u : Nat) (d : List Byte) (bad : Bool) : State :=
  match s.icp with
  | some j =>
    if j.wait.contains u then
      let t := s.modJob fun x => { x with wait := x.wait.erase u, got := x.got ++ [(u, d, bad)] }
      if j.wait = [u] then t.icpHas else t
    else s
  | none => s

/-- The load in hand that still reads records. -/
def State.loading (s : State) : Option IcpJob :=
  match s.icp with
  | some j => if j.op = .load && j.begun && j.wait.isEmpty && !j.ended && j.code == 0 then some j else none
  | none => none

/-- PAD: a PAD record is read and ignored (R192). -/
def execPad (s : State) : Host.Outcome State Fault Refusal :=
  match s.loading with
  | some j => match j.words with
    | w :: _ => if fld w 23 20 = 0 then .next (s.modJob fun x => if fld w 19 0 = 0 then x.read 1 else x.fail 3) else .next s
    | [] => .next s
  | none => .next s

/-- One frame is written, its check bits and CRC with it (R184). -/
def State.writeFrame (s : State) (p f : Nat) (ws : List Word) : State :=
  let t := (s.modPad (Fin.ofNat 16 p) fun x => { x with cfg := spWrite zeroW x.cfg (96 * f) ws }).dropUpsets p fun u => u.frame.val == f
  if f = 797 then t.designTrack p else t

/-- A FRAMES record of n frames from f (R192, R205). -/
def State.framesRecord (s : State) (j : IcpJob) (f n : Nat) : State :=
  let fs := (List.range n).map (f + ·)
  let body := j.words.drop 1
  if n = 0 ∨ 800 < f + n ∨ fs.any fun i => j.frames.contains i then s.modJob fun x => x.fail 3
  else if body.length < 96 * n then s.modJob fun x => (x.read (1 + body.length)).fail 7
  else
    let s1 := (List.range n).foldl (fun (t : State) i => t.writeFrame j.pad (f + i) ((body.drop (96 * i)).take 96)) s
    let bad4 := (List.range n).any fun i => !frameGood (f + i) ((body.drop (96 * i)).take 96)
    let bad5 := decide (f ≤ 793 ∧ 793 < f + n) && s.routesBad j.pad ((body.drop (96 * (793 - f))).take 96)
    s1.modJob fun x =>
      let y := { x.read (1 + 96 * n) with frames := x.frames ++ fs }
      if bad4 then y.fail 4 else if bad5 then y.fail 5 else y

/-- FRAMES (R192). -/
def execFrames (s : State) : Host.Outcome State Fault Refusal :=
  match s.loading with
  | some j => match j.words with
    | w :: _ => if fld w 23 20 = 1 then .next (s.framesRecord j (fld w 19 10) (fld w 9 0)) else .next s
    | [] => .next s
  | none => .next s

/-- Words of a block memory from content word a are written, with new check bits (R276, R281). -/
def State.writeBmem (s : State) (p : Pad) (a : Nat) (ws : List Word) : State :=
  let t := s.modPad p fun x => { x with bm := spWrite zeroW x.bm a ws }
  (List.range ws.length).foldl (fun (u : State) i => u.writeFlip p.val (a + i)) t

/-- BMEM: 1,024 words of a block memory are written (R192). -/
def execBmem (s : State) : Host.Outcome State Fault Refusal :=
  match s.loading with
  | some j => match j.words with
    | w :: body =>
      if fld w 23 20 ≠ 2 then .next s
      else if 95 < fld w 19 0 then .next (s.modJob fun x => x.fail 3)
      else if body.length < 1024 then .next (s.modJob fun x => (x.read (1 + body.length)).fail 7)
      else
        .next ((s.writeBmem (Fin.ofNat 16 j.pad) (1024 * fld w 6 0) (body.take 1024)).modJob fun x => x.read 1025)
    | [] => .next s
  | none => .next s

/-- END: the run ends, and the words after it must be zero (R193, R205). -/
def execEndRecord (s : State) : Host.Outcome State Fault Refusal :=
  match s.loading with
  | some j => match j.words with
    | w :: rest =>
      if fld w 23 20 ≠ 3 then .next s
      else if fld w 19 0 ≠ 0 then .next (s.modJob fun x => x.fail 3)
      else
        let c := s.pads[Fin.ofNat 16 j.pad]
        .next (s.modJob fun x =>
          let y := { x.read (1 + rest.length) with ended := true }
          if rest.any (· != 0) then x.fail 7
          else if c.gmuxBad then y.fail 4
          else if 8 < c.wireClocks.length then y.fail 6
          else y)
    | [] => .next s
  | none => .next s

/-- The paddock runs its new design in cycle r (R148, R209). Its hedges hold through that cycle: they follow at its edge. -/
def State.loadRuns (s : State) (j : IcpJob) : State :=
  let p : Pad := Fin.ofNat 16 j.pad
  let x := s.pads[p]
  let (extra, s0) := if j.waited then s.draw else (0, s)
  let n := x.wireClocks.length
  let sA := s0.modPad p fun y => { y with cells := x.initCells, pres := x.initCells, acted := [], hold := [] }
  let s1 := sA.modPad p fun y => { y with wprev := sA.wireBits j.pad }
  let s2 := s1.wr (aPad j.pad 1) (putFld (putBit (putBit (s1.rd (aPad j.pad 1)) 23 true) 21 (n != 0)) 15 12 n)
  let s3 := (s2.bset (aPad j.pad 1) 22 false).bset (aPad j.pad 0) 23 true
  let s4 := (s3.fset (aPad j.pad 0x0A) 19 14 j.img).wr (aPad j.pad 0x0B) (wd (j.total + 304 + extra))
  let s5 := (s4.designTrack j.pad).glWrite (0x1000 + j.pad) (wd (2 ^ 23 + j.img))
  s5.modJob fun y => { y with runs := true }

/-- LOAD_COMPLETE (R209). -/
def execLoadComplete (s : State) : Host.Outcome State Fault Refusal :=
  match s.icp with
  | some j => if j.op = .load && j.ended && j.code == 0 && !j.runs then .next (s.loadRuns j) else .next s
  | none => .next s

/-! ### REWRITE and READ (R199, R204) -/

/-- Where a run holds frame f: the offset of its words (R192). -/
def findFrame (f : Nat) : Nat → List Word → Nat → Option Nat
  | 0, _, _ => none
  | _ + 1, [], _ => none
  | k + 1, w :: t, off =>
    match fld w 23 20 with
    | 0 => findFrame f k t (off + 1)
    | 1 =>
      if fld w 19 10 ≤ f ∧ f < fld w 19 10 + fld w 9 0 then some (off + 1 + 96 * (f - fld w 19 10))
      else findFrame f k (t.drop (96 * fld w 9 0)) (off + 1 + 96 * fld w 9 0)
    | 2 => findFrame f k (t.drop 1024) (off + 1025)
    | _ => none

/-- Every segment that holds words off to off + n − 1 has a good tag. -/
def segsGood (off n : Nat) : Nat → List (Nat × Bool) → Bool
  | _, [] => true
  | at_, (k, ok) :: t => (ok || decide (at_ + k ≤ off ∨ off + n ≤ at_)) && segsGood off n (at_ + k) t

/-- One frame of a running paddock is rewritten from its loaded image, as the ICP has read it: the new state, and the code (R204,
R205). -/
def State.rewriteFrame (s : State) (j : IcpJob) : State × Nat :=
  let p := j.pad
  let f := j.frame
  let img := s.fget (aPad p 0x0A) 19 14
  if !j.begun || !s.imageFor img p || !s.holding p then (s, 1)
  else
    let (ws, ss) := s.imageRunBy j.view img
    let (d, ok) := match findFrame f (ws.length + 1) ws 0 with
      | some o => ((ws.drop o).take 96, segsGood o 96 0 ss)
      | none => (List.replicate 96 0, ss.all (·.2))
    if ok then (s.writeFrame p f d, 0) else (s, 2)

/-- ICPBUF after a READ of frame f (R199). -/
def State.readFrame (s : State) (p f : Nat) : State × Nat :=
  if s.fuses.rbd then ({ s with ws := spWrite wsReset s.ws (aIcpbuf 0) (List.replicate 96 0) }, 0xD)
  else ({ s with ws := spWrite wsReset s.ws (aIcpbuf 0) (spRead zeroW (s.pad p).cfg (96 * f) 96) }, 0)

/-! ### The end of an operation (R205, R210) -/

/-- A load that can go no further: an unknown record, or a run without END. -/
def IcpJob.stuck (j : IcpJob) : IcpJob :=
  if j.op != .load || !j.begun || !j.wait.isEmpty || j.code != 0 || j.ended then j
  else match j.words with
    | [] => j.fail 7
    | w :: _ => if 3 < fld w 23 20 then j.fail 3 else j

/-- A failed load leaves the paddock cleared and unloaded (R210). -/
def State.loadFailed (s : State) (j : IcpJob) : State := (s.padClear (Fin.ofNat 16 j.pad)).bset (aPad j.pad 1) 22 false

/-- The job in hand ends with a code: ICPSTAT, and LDSTAT for a load; the configuration event (R205). -/
def State.icpFinish (s : State) (j : IcpJob) (code : Nat) : State :=
  let s1 := s.fset aIcpstat 19 16 code
  let s2 := if j.op = .load then s1.fset (aPad j.pad 0x0A) 23 20 code else s1
  let s3 := if j.op = .load && code != 0 then s2.loadFailed j else s2
  let s4 := if code = 0 then s3 else s3.evConfig
  s4.icpNext

/-- What the end of the job in hand makes of the state: the state, and the job with its code if it ends. -/
def State.icpEnd (s : State) : State × Option IcpJob :=
  match s.icp with
  | none => (s, none)
  | some j0 =>
    let j := j0.stuck
    match j.op with
    | .load => if j.runs || j.code != 0 then (s.icpFinish j j.code, some j) else (s, none)
    | .rewrite =>
      if !j.wait.isEmpty then (s, none)
      else
        let (t, c) := s.rewriteFrame j
        (t.icpFinish j c, some { j with code := c })
    | .read =>
      let (t, c) := s.readFrame j.pad j.frame
      (t.icpFinish j c, some { j with code := c })

/-! ### ICPCTL and the image table -/

/-- GO of ICPCTL (R204): ignored while BUSY, and on a part whose lock is open (R394). -/
def State.icpGo (s : State) (op : IcpOp) (p img f : Nat) : State :=
  if s.bget aIcpstat 23 || s.padOff p || !s.fuses.flock then s
  else match op with
    | .load => s.swapStart (Fin.ofNat 16 p) img (s.dev == .maint) none
    | o => s.icpAdd (newJob o p img f none)

/-- A write of ICPCTL. -/
def State.icpctlPut (s : State) (v : Word) : State :=
  if !bit v 23 then s
  else match fld v 22 21 with
    | 0 => s.icpGo .load (fld v 14 11) (fld v 20 15) 0
    | 1 => s.icpGo .rewrite (fld v 14 11) 0 (fld v 9 0)
    | 2 => s.icpGo .read (fld v 14 11) 0 (fld v 9 0)
    | _ => s

/-- LDIMG of a paddock that holds a loaded design, or a job in hand or waiting, names entry e (R203). -/
def State.imageUsed (s : State) (e : Nat) : Bool :=
  ((List.range 16).any fun p => s.loaded p && s.fget (aPad p 0x0A) 19 14 == e) ||
    (s.icp.toList ++ s.icpQueue).any fun j => j.op == .load && j.img == e

/-- A write of a word of image table entry e (R203). -/
def State.imagePut (s : State) (e : Fin 64) (w : Nat) (v : Word) : State :=
  let valid := s.bget (aImage e.val 0) 23
  if w ≠ 0 then if valid then s else s.put (aImage e.val w) v
  else if bit v 23 && !valid then if s.keys[e].isSome then s.put (aImage e.val 0) v else s
  else if !bit v 23 && valid then
    if s.imageUsed e.val then s else { (s.put (aImage e.val 0) v) with keys := s.keys.set e.val none }
  else s.put (aImage e.val 0) v

/-- LOAD: GO with OP LOAD (R204, R207). -/
def execLoad (r : Requester) (p : Pad) (img : Fin 64) (s : State) : Host.Outcome State Fault Refusal :=
  .next (s.gated r aIcpctl fun t => t.icpGo .load p.val img.val 0)

/-- REWRITE: GO with OP REWRITE (R204). -/
def execRewrite (r : Requester) (p : Pad) (f : BitVec 10) (s : State) : Host.Outcome State Fault Refusal :=
  .next (s.gated r aIcpctl fun t => t.icpGo .rewrite p.val 0 f.toNat)

/-- READ: GO with OP READ (R199, R204). -/
def execRead (r : Requester) (p : Pad) (f : BitVec 10) (s : State) : Host.Outcome State Fault Refusal :=
  .next (s.gated r aIcpctl fun t => t.icpGo .read p.val 0 f.toNat)

/-- IMAGE_ENTRY_WRITE (R203). -/
def execImageEntryWrite (r : Requester) (e : Fin 64) (w : Fin 4) (v : Word) (s : State) : Host.Outcome State Fault Refusal :=
  .next (s.gated r (aImage e.val w.val) fun t => t.imagePut e w.val v)

end Sys2Proof.Machine
end

