-- ==== Sys2Proof/Machine/Gleaner.lean ====
section
/-! DEFINITION. The Gleaner: rounds, scrubs, policy, its own protection (R212 to R218, R291). -/

namespace Sys2Proof.Machine

/-- Bitwise majority of three copies. -/
def majority (v : Vector Word 3) : Word := (v[0] &&& v[1]) ||| (v[0] &&& v[2]) ||| (v[1] &&& v[2])

/-- Bits that the vote overrules. -/
def overruled (v : Vector Word 3) : Nat :=
  let m := majority v
  ([v[0] ^^^ m, v[1] ^^^ m, v[2] ^^^ m].map fun w => ((List.range 24).filter fun i => bit w i).length).sum

/-- GCFG as the fuse gives it. -/
def State.gcfgFuse (s : State) : Word := putBit 0 23 s.fuses.gen

/-- Words 0 to 33 of the program slot that paddock p follows flag frame f essential (R212, R218). -/
def State.flagged (s : State) (p f : Nat) : Bool :=
  let e := s.fget (aGlProg (0x1000 + p)) 5 0
  s.bget (aGlProg (0x40 * e + f / 24)) (f % 24)

/-- Mask word w of essential frame f of paddock p, from DRAM at MAPADDR (R212, R214). -/
def State.maskWord (s : State) (p f w : Nat) : Word :=
  let e := s.fget (aGlProg (0x1000 + p)) 5 0
  let n := ((List.range f).filter fun g => s.flagged p g).length
  wd (ofBytesLE (s.nowBytes ((s.rd (aImage e 3)).toNat * 2048 + 3 * (96 * n + w)) 3))

/-- An upset is essential (R214): its frame is flagged and a faulty bit set in the mask, or the mask read is poisoned. -/
def State.essential (s : State) (u : Upset) : Bool :=
  s.flagged u.pad.val u.frame.val && (u.poison || (u.mask &&& s.maskWord u.pad.val u.frame.val u.word.val) != 0)

/-- Wrong bits of the word that an upset hits, its check bits with it (R184). -/
def upsetBits (u : Upset) : Nat :=
  ((List.range 24).filter fun i => bit u.mask i).length + ((List.range 6).filter fun i => u.check.getLsbD i).length
/-- Its lowest wrong bit: 0 to 23 data, 24 to 29 check (log entry 112). -/
def upsetBit (u : Upset) : Nat :=
  ((List.range 24).find? fun i => bit u.mask i).getD (24 + ((List.range 6).find? fun i => u.check.getLsbD i).getD 7)

/-- Two upsets hit the same word. -/
def sameWord (u v : Upset) : Bool := u.pad == v.pad && u.frame == v.frame && u.word == v.word

/-- An upset joins those outstanding: flips of one word combine, and cancel where they meet. -/
def mergeUpset (l : List Upset) (u : Upset) : List Upset :=
  let (m, c, r) := match l.find? fun x => sameWord x u with
    | some x => (x.mask ^^^ u.mask, x.check ^^^ u.check, x.crc ^^^ u.crc)
    | none => (u.mask, u.check, u.crc)
  let rest := l.filter fun y => !sameWord y u
  if m = 0 ∧ c = 0 ∧ r = 0 then rest else rest ++ [{ u with mask := m, check := c, crc := r, late := false }]

/-- A configuration word takes an upset's flips. -/
def State.flipConfig (s : State) (u : Upset) : State :=
  let t := s.modPad u.pad fun x =>
    let k := 96 * u.frame.val + u.word.val
    { x with cfg := spSet zeroW x.cfg k (spGet zeroW x.cfg k ^^^ u.mask) }
  if u.frame.val = 797 ∧ u.word.val = 0 then t.designTrack u.pad.val else t

/-- Upsets hit. -/
def State.strike (s : State) (ups : List Upset) : State :=
  ups.foldl (fun (t : State) u => { (t.flipConfig u) with upsets := mergeUpset t.upsets u }) s

/-- The Gleaner log shows one bit of one word upset in three different passes (R291). -/
def State.threePasses (s : State) (u : Upset) : Bool :=
  let es := (List.range 16).map fun n => (s.rd (aGl (0x10 + 2 * n)), s.rd (aGl (0x11 + 2 * n)))
  let same := es.filter fun e => fld e.1 1 0 != 0 && fld e.1 23 20 == u.pad.val && fld e.1 19 10 == u.frame.val
    && fld e.1 9 3 == u.word.val && fld e.2 23 19 == upsetBit u
  decide (3 ≤ ((same.map fun e => fld e.2 18 0).eraseDups).length)

/-- Caeruno records a spare column for a cell frame whose bit has failed in three passes (R291). -/
def State.spareRecord (s : State) (u : Upset) : State :=
  let f := u.frame.val
  let t := f / 16
  if f < 768 ∧ 14 ≤ f % 16 ∧ s.threePasses u then
    let col := 8 * (t % 4) + 4 * (f % 2) + u.word.val / 24
    let rec1 := wd (2 ^ 20 + u.pad.val * 2 ^ 16 + t / 4 * 2 ^ 12 + col)
    if s.records.any fun r => r.1 == rec1 then s else (s.appendRecord [rec1] true)
  else s

/-- An upset is logged with its kind (R214, R218). -/
def State.glLog (s : State) (u : Upset) (ess : Bool) (kind : Nat) : State :=
  let b := if upsetBits u = 1 then upsetBit u else 31
  let (t, _) := s.logPut (aGl 0x10) 2 3
    [wd (u.pad.val * 2 ^ 20 + u.frame.val * 2 ^ 10 + u.word.val * 8 + b2n ess * 4 + kind),
     wd (b * 2 ^ 19 + fld (s.rd (aGl 3)) 20 2)]
  t.spareRecord u

/-- Caeruno's repair of an essential uncorrectable frame: a reload at once, or a timed one (R216). -/
def State.glReload (s : State) (p : Pad) : State :=
  let a := aPad p.val 0x0D
  let img := s.fget (aPad p.val 0x0A) 19 14
  let h : Head := Fin.ofNat 8 (s.fget a 22 20)
  if s.bget a 23 || !s.running h.val then s.swapAction p img false none
  else
    let (t, st) := s.post (.core 0 0) h (wd (s.fget a 11 0 * 4096)) 0x700000 (wd p.val) (wd img)
    if fld st 23 21 = 0 then t.modPad p fun x => { x with repair := some (h.val, fld st 9 0, fld st 17 10) } else t

/-- The upsets of one frame. -/
def inFrame (p : Pad) (f : Nat) (u : Upset) : Bool := u.pad == p && u.frame.val == f

/-- The outcome of scrubbing one frame that has outstanding upsets (R214, R216, R217). Flips that hit before the write-back change the
word that it re-reads: it does not write such a word, and the next round scrubs the frame again (R215). -/
def State.scrubFrame (s : State) (host : Bool) (p : Pad) (f : Nat) : State :=
  let us := s.upsets.filter (inFrame p f)
  let bad := us.filter fun u => upsetBits u != 0
  let crc := us.foldl (fun (m : BitVec 32) u => m ^^^ u.crc) 0
  let lates := s.gl.late.filter (inFrame p f)
  let ess := bad.map fun u => (u, s.essential u)
  let anyEss := ess.any (·.2)
  let corr := crc == 0 && bad.all fun u => upsetBits u == 1
  let s1 := ess.foldl (fun (t : State) e => t.glLog e.1 e.2 (if corr then 1 else 2)) s
  let s2 := match bad, us with
    | [], u :: _ => s1.glLog { u with word := 0, mask := 0, check := 0 } false 3
    | _, _ => s1
  let again := s2.gl.again.filter (· != (p.val, f))
  let s3 := ({ s2 with gl := { s2.gl with again := again, late := s2.gl.late.filter fun u => !inFrame p f u } } : State).strike lates
  if us.isEmpty then s3
  else if corr then
    let (left, back) := bad.partition fun u => lates.any (sameWord u)
    let s4 := back.foldl (fun (t : State) u => t.flipConfig u) s3
    let s5 : State := { s4 with
      upsets := s4.upsets.filter fun u => !(inFrame p f u && back.any (sameWord u))
      gl := { s4.gl with again := if left.isEmpty then s4.gl.again else (p.val, f) :: s4.gl.again } }
    let s6 := s5.incN (aPad p.val 0x0E) 23 12 back.length
    if host || anyEss then s6.evConfig else s6
  else
    let s4 := s3.inc (aPad p.val 0x0E) 11 0
    if host then s4.evConfig
    else if anyEss then s4.evConfig.glReload p
    else s4.icpAdd (newJob .rewrite p.val 0 f none)

/-- Where a frame stands in a round (R213): essential frames of all paddocks first, then a quarter of the others, and those that the
last round could not finish (R215). -/
def State.roundPlace (s : State) (p f : Nat) : Option Nat :=
  if !s.loaded p || s.swapping p || s.gl.skip.contains p then none
  else if s.flagged p f then some (800 * p + f)
  else if f % 4 = s.glRound % 4 ∨ s.gl.again.contains (p, f) then some (12800 + 800 * p + f)
  else none

/-- The next frame of the round that has anything to be found in it; every other is clean. -/
def State.roundNext (s : State) : Option Nat :=
  ((s.upsets ++ s.gl.late).filterMap fun u => (s.roundPlace u.pad.val u.frame.val).filter fun k => decide (s.gl.next ≤ k)).foldl
    (fun m k => some (min k (m.getD k))) none

/-- The Gleaner is reset: fuses are read again and a new pass begins at round 0; RESETS counts it (R218). -/
def State.glReset (s : State) : State :=
  (({ s with glRound := 0, gcfg := Vector.replicate 3 s.gcfgFuse, gl := GlSt.idle } : State).inc (aGl 5) 15 8).wr (aGl 2) 0

/-- The Gleaner program is rewritten from its reference copy. -/
def State.glRestore (s : State) : State :=
  let ref := (List.range 0x1010).map fun i => spGet zeroW s.glRef i
  (List.range 0x1010).foldl (fun (t : State) i => t.writeFlip 24 i) { s with ws := spWrite wsReset s.ws (aGlProg 0) ref }

/-- Caeruno compares the Gleaner program with its reference copy and rewrites it on a mismatch (R218). An uncorrectable word of it
has it rewritten and the Gleaner reset (R283). -/
def State.glProgram (s : State) : State :=
  let (t, lost) := s.readBad (s.badIn fun b => b.region == 24 && decide (b.addr < 0x1010))
  if lost then t.glRestore.glReset
  else
    let now := (List.range 0x1010).map fun i => t.rd (aGlProg i)
    let ref := (List.range 0x1010).map fun i => spGet zeroW t.glRef i
    if crc32c (bytesOfWords now) = crc32c (bytesOfWords ref) then t else t.glRestore.evConfig

/-- A round begins: the votes, GCFG and GMODE, the program (R213, R218). -/
def State.roundBegin (s : State) : State :=
  let d := overruled s.gcfg + overruled s.gmode
  let s0 := ({ s with gcfg := Vector.replicate 3 s.gcfgFuse } : State).incN (aGl 5) 7 0 d
  let s1 := s0.splitLate 5
  let s2 : State := { s1 with gmode := Vector.replicate 3 (putBit 0 23 (s1.hostFn 5)) }
  let s3 := s2.glProgram
  { s3 with gl := { s3.gl with run := true, next := 0, skip := [] } }

/-- A round ends: its number and HBEAT count it; flips that came late to a frame it did not scrub stand (R213). -/
def State.roundEnd (s : State) : State :=
  let s1 := s.strike s.gl.late
  let s2 : State := { s1 with glRound := s1.glRound + 1, gl := { s1.gl with run := false, next := 0, skip := [], late := [] } }
  (s2.wr (aGl 3) (s2.rd (aGl 3) + 1)).wr (aGl 2) (wd (s2.glRound % 4 * 2 ^ 21))

/-- A round that waits shows where: RUN, PAD and FRAME of GSTAT (R218). -/
def State.roundWaits (s : State) : State :=
  let k := (s.roundNext.getD s.gl.next) % 12800
  s.wr (aGl 2) (wd (2 ^ 23 + s.glRound % 4 * 2 ^ 21 + k / 800 * 2 ^ 17 + k % 800 * 2 ^ 7))

/-- The round in progress goes on, frame by frame; it waits while the ICP holds the configuration memory (R211, R213). -/
def State.roundGo : Nat → State → State
  | 0, s => s.roundEnd
  | n + 1, s =>
    if s.icpBusy then s.roundWaits
    else match s.roundNext with
      | none => s.roundEnd
      | some k =>
        let t := s.scrubFrame (bit (majority s.gmode) 23) (Fin.ofNat 16 (k % 12800 / 800)) (k % 800)
        roundGo n { t with gl := { t.gl with next := k + 1 } }

/-- The round in progress goes on as far as it can, and the next with it if it has come due meanwhile (R213). -/
def State.roundRun (s : State) : State :=
  let fuel := fun (t : State) => t.upsets.length + t.gl.late.length + 1
  let t := s.roundGo (fuel s)
  if t.gl.run || !t.gl.due then t
  else
    let u := ({ t with gl := { t.gl with due := false } } : State).roundBegin
    u.roundGo (fuel u)

/-- A round in progress goes on when the ICP is free again. -/
def State.glResume (s : State) : State := if s.gl.run && !s.icpBusy then s.roundRun else s

/-- GLEANER_ROUND: a round comes due; `ups` are the flips that have hit since the last (R213 to R218). One that comes due while
another runs is counted in LATE and begins when that ends. -/
def State.glRoundGo (s : State) (ups : List Upset) : State :=
  let live := ups.filter fun u => s.loaded u.pad.val && !s.swapping u.pad.val
  let hit := fun (t : State) =>
    let (later, now) := live.partition (·.late)
    let u := t.strike now
    ({ u with gl := { u.gl with late := u.gl.late ++ later } } : State)
  if s.gl.run then
    let t := (hit s).inc (aGl 5) 23 16
    { t with gl := { t.gl with due := true } }
  else (hit s.roundBegin).roundRun

/-- GLEANER_ROUND (R213): the Gleaner runs while the voted GCFG says so. -/
def execGleanerRound (ups : List Upset) (s : State) : Host.Outcome State Fault Refusal :=
  if s.fuses.gen then .next (s.glRoundGo ups) else .next s

/-- HEARTBEAT_TIMEOUT: a core has seen HBEAT unchanged for 30 ms, resets the Gleaner and raises the event (R218). -/
def execHeartbeatTimeout (s : State) : Host.Outcome State Fault Refusal :=
  .next s.glReset.evConfig

/-- GRST: 1 is written to RST (R218). -/
def execGrst (r : Requester) (s : State) : Host.Outcome State Fault Refusal :=
  .next (s.gated r (aGl 4) fun t => t.glReset)

end Sys2Proof.Machine
end

