-- ==== Sys2Proof/Machine/Lark.lean ====
section
/-! DEFINITION. Lark, the sound engine (09_lark_sound.md, R219 to R235): key commands, playback, envelope, filter, mixing,
effect rings, line lock, its registers. A result that R230 to R232 round and do not say how is the floor plus a free bit
(log entry 10). -/

namespace Sys2Proof.Machine

/-- Voice v of the state, changed by f. -/
def State.modVoice (s : State) (v : Fin 256) (f : VoiceSt → VoiceSt) : State :=
  { s with lark := { s.lark with voices := vmod s.lark.voices v f } }

/-- Lark runs. -/
def State.larkOn (s : State) : Bool := s.bget (aLark 0) 23

/-! ### Numbers -/

/-- i / d, the floor or one more where it is not whole: which one is free. -/
def State.roundDiv (s : State) (i d : Int) : Int × State :=
  if i % d = 0 then (i / d, s)
  else
    let (n, t) := s.draw
    (i / d + ((n % 2 : Nat) : Int), t)

/-- Saturation to 24 bits signed. -/
def sat24 (i : Int) : Int := clampI (-8388608) 8388607 i

/-- Saturation of the filter's state: 24 integer bits and 12 fraction bits (R230). -/
def sat36 (i : Int) : Int := clampI (-34359738368) 34359738367 i

/-- The largest x of 25 bits whose fourth power does not exceed n. -/
def root4 (n : Nat) : Nat :=
  (List.range 25).foldl (fun x i => if (x + 2 ^ (24 - i)) ^ 4 ≤ n then x + 2 ^ (24 - i) else x) 0

/-- d(r) of R229, for rate 0 or 1 of RATE. -/
def envStep (rate r : Nat) : Nat :=
  let c := if rate = 0 then 24 else 48
  max 1 ((root4 (2 ^ 100 / (c ^ 4 * 2 ^ (r - 1))) + 1) / 2)

/-- The IMA ADPCM step table (log entry 11). -/
def imaSteps : List Nat :=
  [7, 8, 9, 10, 11, 12, 13, 14, 16, 17, 19, 21, 23, 25, 28, 31, 34, 37, 41, 45, 50, 55, 60, 66, 73, 80, 88, 97, 107, 118] ++
  [130, 143, 157, 173, 190, 209, 230, 253, 279, 307, 337, 371, 408, 449, 494, 544, 598, 658, 724, 796, 876, 963, 1060, 1166] ++
  [1282, 1411, 1552, 1707, 1878, 2066, 2272, 2499, 2749, 3024, 3327, 3660, 4026, 4428, 4871, 5358, 5894, 6484, 7132, 7845] ++
  [8630, 9493, 10442, 11487, 12635, 13899, 15289, 16818, 18500, 20350, 22385, 24623, 27086, 29794, 32767]

/-- The change of the step index that a nibble makes. -/
def imaIndex (n : Nat) : Int := if n % 8 < 4 then -1 else 2 * ((n % 8 : Nat) : Int) - 6

/-- One IMA ADPCM nibble: predictor and step index after it (R227). -/
def imaStep (pred : Int) (idx n : Nat) : Int × Nat :=
  let st := nth 0 imaSteps idx
  let d : Nat := st / 8 + (if n.testBit 2 then st else 0) + (if n.testBit 1 then st / 2 else 0) + (if n.testBit 0 then st / 4 else 0)
  (clampI (-32768) 32767 (if n.testBit 3 then pred - d else pred + d), (clampI 0 88 ((idx : Int) + imaIndex n)).toNat)

/-! ### Samples (R227, R228) -/

/-- FMT of a voice. -/
def VoiceSt.fmt (x : VoiceSt) : Nat := fld x.w0 23 22
/-- SRC: the DRAM sample window. -/
def VoiceSt.inDram (x : VoiceSt) : Bool := bit x.w0 21
/-- The voice loops. -/
def VoiceSt.loops (x : VoiceSt) : Bool := fld x.w0 20 19 == 1
/-- LEN. -/
def VoiceSt.len (x : VoiceSt) : Nat := x.w2.toNat
/-- LSTART. -/
def VoiceSt.lstart (x : VoiceSt) : Nat := x.w3.toNat

/-- First byte and number of bytes of sample i, within the source. -/
def VoiceSt.sampleAt (x : VoiceSt) (i : Nat) : Nat × Nat :=
  match x.fmt with
  | 3 => (x.w1.toNat + i / 2, 1)
  | f => (x.w1.toNat + (f + 1) * i, f + 1)

/-- Bytes of samples 0 to LEN − 1 run past the source (R226). -/
def VoiceSt.runsPast (x : VoiceSt) : Bool :=
  let (a, n) := x.sampleAt (x.len - 1)
  decide ((if x.inDram then 2 ^ 24 else 2 ^ 20) < a + n)

/-- First byte of the DRAM sample window. -/
def State.larkWindow (s : State) : Nat := (s.rd (aLark 4)).toNat * 2048

/-- The sample after index k in the voice's order of play; one-shot voices run on past LEN. -/
def VoiceSt.wrapIdx (x : VoiceSt) (k : Nat) : Nat :=
  if x.loops && decide (x.len ≤ k) then x.lstart + (k - x.lstart) % (x.len - x.lstart) else k

/-- What a byte of a voice's source holds: its value, or that it has not arrived (some false) or is poisoned or
uncorrectable (some true). -/
inductive SrcByte where
  | value (b : Byte)
  | missing
  | poisoned
deriving DecidableEq, Repr

/-- Words of Lark memory (region 19) that n bytes from a touch (log entry 12). -/
def larkWords (a n : Nat) : List Nat := ((List.range n).map fun i => (a + i) % 2 ^ 20 / 3).eraseDups

/-- Bytes are stored in Lark memory; a flip armed for one of their words takes effect (R281). -/
def State.larkStore (s : State) (a : Nat) (d : List Byte) : State :=
  (larkWords a d.length).foldl (fun (t : State) w => t.writeFlip 19 w) (s.larkPut a d)

/-- n bytes of Lark memory are read through its codes: whether a word was uncorrectable (R274, R283). -/
def State.larkLoad (s : State) (a n : Nat) : List Byte × Bool × State :=
  let (t, lost) := (larkWords a n).foldl (fun (x : State × Bool) w =>
    let (u, b) := x.1.readCheck 19 w .clean
    (u, x.2 || b)) (s, false)
  (s.larkBytes a n, lost, t)

/-- Byte a of a DRAM voice's source. -/
def State.voiceByte (s : State) (x : VoiceSt) (a : Nat) : SrcByte :=
  let d := s.larkWindow + a
  match x.buf.find? fun e => e.1 == d / 32 with
  | some (_, l, bad) => if bad then .poisoned else .value (nth 0 l (d % 32))
  | none => .missing

/-- The bytes of sample i are read: they, whether one is missing, whether one is poisoned. Lark memory is read through its codes, and a word
that they cannot correct is played as poisoned (R274, R283). -/
def State.sampleBytes (s : State) (x : VoiceSt) (i : Nat) : List Byte × Bool × Bool × State :=
  let (a, n) := x.sampleAt i
  if x.inDram then
    let l := (List.range n).map fun k => s.voiceByte x (a + k)
    (l.map fun b => match b with | .value v => v | _ => 0, l.contains .missing, l.contains .poisoned, s)
  else
    let (d, lost, t) := s.larkLoad a n
    (d, false, lost, t)

/-- A sample that has not arrived plays as zero and is counted (R228). -/
def State.countStarve (s : State) (missing : Bool) : State := if missing then s.inc (aLark 3) 15 8 else s

/-- A PCM sample, widened to 24 bits. -/
def State.pcmSample (s : State) (x : VoiceSt) (i : Nat) : Int × State :=
  let (l, miss, bad, s1) := s.sampleBytes x i
  let t := s1.countStarve miss
  if miss || bad then (0, t)
  else (sext (8 * l.length) (ofBytesLE l) * 2 ^ (24 - 8 * l.length), t)

/-- An ADPCM voice decodes its next sample. Where its byte is missing or poisoned it plays zero, and what the decoder then
holds is free. -/
def State.imaNext (s : State) (x : VoiceSt) : VoiceSt × State :=
  let i := x.decoded
  let x0 := if i = x.lstart ∧ ¬ x.saved then { x with savePred := x.pred, saveStep := x.step, saved := true } else x
  let (l, miss, bad, s1) := s.sampleBytes x i
  let t := s1.countStarve miss
  if miss || bad then
    let (n, t1) := t.draw
    let (p, k) := imaStep x.pred x.step (n % 16)
    ({ x0 with pred := p, step := k, decoded := i + 1, prev := x.last, last := 0 }, t1)
  else
    let n := (nth 0 l 0).toNat / (if i % 2 = 0 then 1 else 16) % 16
    let (p, k) := imaStep x.pred x.step n
    ({ x0 with pred := p, step := k, decoded := i + 1, prev := x.last, last := p * 256 }, t)

/-- Decode until sample n − 1 has been decoded, or LEN is reached. -/
def State.imaRun : Nat → State → VoiceSt → Nat → VoiceSt × State
  | 0, s, x, _ => (x, s)
  | k + 1, s, x, n =>
    if x.decoded < min n x.len then
      let (y, t) := s.imaNext x
      State.imaRun k t y n
    else (x, s)

/-- An ADPCM voice that has gone back to its loop decodes the samples left of the pass and restores its saved state (R228). -/
def State.imaLoop (s : State) (x : VoiceSt) : VoiceSt × State :=
  if x.looped then
    let (y, t) := State.imaRun (x.len - x.decoded) s x x.len
    ({ y with looped := false, decoded := y.lstart, pred := y.savePred, step := y.saveStep }, t)
  else (x, s)

/-- Samples floor(p) and floor(p) + 1 of a voice, as interpolation reads them. -/
def State.samplePair (s : State) (x : VoiceSt) : Int × Int × VoiceSt × State :=
  let i := x.pos / 2 ^ 20
  if x.fmt = 3 then
    let (x0, s0) := s.imaLoop x
    let (y, t) := State.imaRun (i + 2 - x0.decoded) s0 x0 (i + 2)
    if y.decoded = i + 2 then (y.prev, y.last, y, t)
    else if x.loops then
      let (z, u) := t.imaNext { y with decoded := y.lstart, pred := y.savePred, step := y.saveStep }
      (y.last, z.last, y, u)
    else (y.last, 0, y, t)
  else
    let (a, t) := s.pcmSample x i
    if x.len ≤ i + 1 ∧ ¬ x.loops then (a, 0, x, t)
    else
      let (b, u) := t.pcmSample x (x.wrapIdx (i + 1))
      (a, b, x, u)

/-- p advances by PITCH; at LEN a looping voice goes back. The answer says whether a one-shot voice has reached its end. -/
def VoiceSt.advance (x : VoiceSt) (pitch : Nat) : VoiceSt × Bool :=
  let p := x.pos + pitch
  if p / 2 ^ 20 < x.len then ({ x with pos := p }, false)
  else if x.loops then
    let l := x.lstart * 2 ^ 20
    ({ x with pos := l + (p - l) % ((x.len - x.lstart) * 2 ^ 20), looped := true }, false)
  else ({ x with pos := p }, true)

/-- Samples that a voice reads in the coming period and the next two, in order: an ADPCM voice reads from the first it has not decoded. -/
def VoiceSt.ahead (x : VoiceSt) (pitch : Nat) : List Nat :=
  let i := x.pos / 2 ^ 20
  let top := (x.pos + 2 * pitch) / 2 ^ 20 + 2
  let run := fun (a : Nat) => (List.range (top - a)).map fun k => x.wrapIdx (a + k)
  let all := if x.fmt ≠ 3 then run i
    else if x.looped then ((List.range (x.len - x.decoded)).map fun k => x.decoded + k) ++ run x.lstart
    else run (min i x.decoded)
  (if x.fmt = 3 ∧ x.loops ∧ x.len ≤ top then all ++ [x.lstart] else all).filter fun k => decide (k < x.len)

/-- Units of those samples of a DRAM voice. -/
def State.voiceUnits (s : State) (x : VoiceSt) (pitch : Nat) : List Nat :=
  if !x.inDram then []
  else
    let idx := x.ahead pitch
    ((idx.map fun k => let (a, b) := x.sampleAt k; unitsOf (s.larkWindow + a) b).flatten).eraseDups

/-- A voice asks for units it has neither asked for nor received; units beyond the capacity are there at once (R130). -/
def State.voiceAsk (s : State) (v : Fin 256) (us : List Nat) : State :=
  let x := s.lark.voices[v]
  (us.filter fun u => !x.asked.contains u && !x.buf.any fun e => e.1 == u).foldl (fun (t : State) u =>
    let (t', more) := t.dramAsk (.lark v) u 0 0
    t'.modVoice v fun y =>
      if more then { y with asked := y.asked ++ [u] } else { y with buf := y.buf ++ [(u, List.replicate 32 0, false)] }) s

/-! ### Key commands (R224, R226) -/

/-- Voice words 0 to 3 as they stand, latched. -/
def State.voiceLatch (s : State) (v : Fin 256) (x : VoiceSt) : VoiceSt :=
  { x with w0 := s.rd (aVoice v 0), w1 := s.rd (aVoice v 1), w2 := s.rd (aVoice v 2), w3 := s.rd (aVoice v 3) }

/-- A key-on of a voice with these words is refused (R226). -/
def keyRefused (x : VoiceSt) (pitch : Nat) : Bool :=
  x.len == 0 || decide (2 ≤ fld x.w0 20 19) || (x.loops && decide (x.len ≤ x.lstart)) || pitch == 0 || x.runsPast

/-- PITCH of voice v. -/
def State.pitch (s : State) (v : Fin 256) : Nat := (s.rd (aVoice v 4)).toNat

/-- One key command takes effect at the start of a period. -/
def State.keyApply (s : State) (k : KeyCmd) : State :=
  let v : Fin 256 := Fin.ofNat 256 k.voice
  match k.op with
  | 0 =>
    let x := s.voiceLatch v s.lark.voices[v]
    if keyRefused x (s.pitch v) then (s.inc (aLark 3) 23 16).evLark
    else s.modVoice v fun _ =>
      { x with
        phase := 1, level := if x.phase = 0 then 0 else x.level, pos := 0, pred := 0, step := 0, decoded := 0
        last := 0, prev := 0, savePred := 0, saveStep := 0, saved := false, looped := false, low := 0, band := 0 }
  | 1 => s.modVoice v fun x => if 1 ≤ x.phase ∧ x.phase ≤ 3 then { x with phase := 4 } else x
  | 2 => s.modVoice v fun x => { x with phase := 0, level := 0 }
  | _ => s

/-- A key command is gathered for the next sample period, ahead of the last `back` gathered. A DRAM voice's first units are asked for now
(R228). -/
def State.keyGather (s : State) (v : Fin 256) (op : Nat) (back : Nat := 0) : State :=
  if 3 ≤ op then s
  else
    let n := s.lark.keys.length - back
    let s1 : State := { s with lark := { s.lark with keys := s.lark.keys.take n ++ [{ voice := v.val, op := op }] ++ s.lark.keys.drop n } }
    let x := s1.voiceLatch v { s1.lark.voices[v] with pos := 0, decoded := 0, looped := false }
    if op = 0 && s1.larkOn && !keyRefused x (s1.pitch v) then s1.voiceAsk v (s1.voiceUnits x (s1.pitch v)) else s1

/-- A key command of one SCLK cycle goes ahead of those that R50 orders after it (R224). -/
def State.keyBy (s : State) (who rank : Nat) (v : Fin 256) (op : Nat) : State :=
  let key := 0x7000000
  let e : CycWrite := { rank := rank, who := who, key := if op < 3 then key else key + 1, value := 0 }
  (s.keyGather v op (s.cycAfter who rank key).length).cycNote e

/-- A write of VKEY: the writer needs rights over the voice (R223). -/
def State.vkeyPut (s : State) (r : Requester) (v : Word) : State :=
  let n := fld v 7 0
  if !s.right r 2 (n / 16) then s.accessFault r (aLark 7)
  else if s.cycNow.isEmpty then s.keyGather (Fin.ofNat 256 n) (fld v 23 22)
  else s.keyBy (whoOf r) 0 (Fin.ofNat 256 n) (fld v 23 22)

/-! ### Envelope and filter (R229, R230) -/

/-- The level after one period, and the phase. -/
def VoiceSt.envelope (x : VoiceSt) (rate : Nat) (w7 : Word) : VoiceSt :=
  let sl := fld w7 11 6 * 2 ^ 18
  match x.phase with
  | 1 =>
    let n := if fld w7 23 18 = 0 then 0xFFFFFF else min 0xFFFFFF (x.level + envStep rate (fld w7 23 18))
    if n = 0xFFFFFF then { x with level := n, phase := 2 } else { x with level := n }
  | 2 =>
    let n := if fld w7 17 12 = 0 then sl else max sl (x.level - envStep rate (fld w7 17 12))
    if x.level ≤ sl then { x with phase := 3 } else if n = sl then { x with level := n, phase := 3 } else { x with level := n }
  | 4 =>
    let n := if fld w7 5 0 = 0 then 0 else x.level - envStep rate (fld w7 5 0)
    if n = 0 then { x with level := 0, phase := 0 } else { x with level := n }
  | _ => x

/-- The filter's period on the sample x, in units of 2^-12: y in units of 2^-21, and the state after it. -/
def State.filter (s : State) (v : VoiceSt) (w8 : Word) (x : Int) : Int × VoiceSt × State :=
  let f : Int := (fld w8 21 10 : Nat)
  let q : Int := (fld w8 9 0 : Nat)
  let (d1, s1) := s.roundDiv (f * v.band) 4096
  let low := sat36 (v.low + d1)
  let high := x * 512 - low * 512 - q * v.band
  let (d2, s2) := s1.roundDiv (f * high) 2097152
  let band := sat36 (v.band + d2)
  let y := match fld w8 23 22 with
    | 0 => x * 512
    | 1 => low * 512
    | 2 => high
    | _ => band * 512
  (y, { v with low := low, band := band }, s2)

/-! ### One period -/

/-- Sums of a period: channels in units of 2^-44, sends in units of 2^-42. -/
structure MixSum where
  ch : List Int
  send : List Int
deriving DecidableEq, Repr

/-- A term joins entry i of a list of sums. -/
def addAt (l : List Int) (i : Nat) (d : Int) : List Int := setNth l i (nth 0 l i + d)

/-- Voice v plays one period (R227 to R231). -/
def State.voicePeriod (s : State) (v : Fin 256) (m : MixSum) : MixSum × State :=
  let x0 := s.lark.voices[v]
  if x0.phase = 0 then (m, if x0.buf.isEmpty then s else s.modVoice v fun z => { z with buf := [] })
  else
    let pitch := s.pitch v
    let (a, b, x1, s1) := s.samplePair x0
    let fr : Int := ((x0.pos / 2 ^ 8 % 4096 : Nat) : Int)
    let (y, x2, s2) := s1.filter x1 (s1.rd (aVoice v 8)) (a * (4096 - fr) + b * fr)
    let w := y * ((x0.level / 256 : Nat) : Int)
    let g := s.rd (aVoice v 5)
    let sn := s.rd (aVoice v 6)
    let ch := addAt (addAt m.ch (fld x0.w0 17 14) (w * (fld g 23 16 : Nat))) (fld x0.w0 13 10) (w * (fld g 15 8 : Nat))
    let send := (List.range 4).map fun i => nth 0 m.send i + w * (fld sn (6 * i + 5) (6 * i) : Nat)
    let (x3, done) := x2.advance pitch
    let x4 := x3.envelope (s.fget (aLark 0) 22 22) (s.rd (aVoice v 7))
    let x5 := if done then { x4 with phase := 0, level := 0 } else x4
    let s3 := s2.modVoice v fun _ => x5
    let s4 := if done && bit x0.w0 18 then s3.evLark else s3
    let need := if x5.phase = 0 then [] else s4.voiceUnits x5 pitch
    let s5 := s4.modVoice v fun z => { z with buf := z.buf.filter fun e => need.contains e.1 }
    ({ ch := ch, send := send }, s5.voiceAsk v need)

/-- Bus x returns from its ring (R233). -/
def State.ringBus (s : State) (x : Nat) : Bool := s.hostFn 3 || s.bget (aLark (0x20 + 8 * x)) 23

/-- What bus x returns in period n, L and R, and the delay line's next sample is stored (R233). A sample of the line in a word that its codes
cannot correct is zero (R274, R283). -/
def State.busReturn (s : State) (x : Fin 4) (n : Nat) (send : Int) : (Int × Int) × State :=
  if s.ringBus x.val then (nth (0, 0) s.lark.ret[x] (n % 64), s)
  else
    let d := max 1 (s.fget (aLark (0x21 + 8 * x.val)) 15 0)
    let a := s.fget (aLark (0x22 + 8 * x.val)) 19 0 + 3 * (n % d)
    let (d3, lost, t) := s.larkLoad a 3
    let y := if lost then 0 else sext 24 (ofBytesLE d3)
    let v := sat24 (send + y * (s.fget (aLark (0x21 + 8 * x.val)) 23 16 : Nat) / 256)
    ((y, y), t.larkStore a (bytesLE 3 (umod 24 v)))

/-- Bytes of a return slot from its units: 13 units of 32 bytes. -/
def ringBytes (us : List (Nat × List Byte)) (first : Nat) : List Byte :=
  ((List.range 13).map fun i => ((us.find? fun e => e.1 == first + i).map (·.2)).getD (List.replicate 32 0)).flatten

/-- The 64 sample pairs of a return slot. -/
def ringSamples (d : List Byte) : List (Int × Int) :=
  (List.range 64).map fun i =>
    (sext 24 (ofBytesLE ((d.drop (32 + 6 * i)).take 3)), sext 24 (ofBytesLE ((d.drop (35 + 6 * i)).take 3)))

/-- First byte of slot n mod 8 of bus x's return ring (R234). -/
def State.returnSlot (s : State) (x n : Nat) : Nat := (s.rd (aLark (0x24 + 8 * x))).toNat * 2048 + 512 * (n % 8)

/-- The block to play on bus x becomes its return, or silence that UNDER counts (R235). -/
def State.adoptReturn (s : State) (x : Fin 4) (b : Nat) : State :=
  let lag := s.fget (aLark 0x0A) 23 21
  let put := fun (t : State) (l : List (Int × Int)) =>
    { t with lark := { t.lark with
      ret := vmod t.lark.ret x fun _ => l
      fetched := t.lark.fetched.filter fun e => !(e.bus == x.val && decide (e.block + lag ≤ b)) } }
  if !s.ringBus x.val || decide (b < lag) then
    { s with lark := { s.lark with ret := vmod s.lark.ret x fun _ => [] } }
  else match s.lark.fetched.find? fun e => e.bus == x.val && e.block == b - lag && e.wait.isEmpty && !e.bad with
    | some e =>
      let d := ringBytes e.units (s.returnSlot x.val e.block / 32)
      if ofBytesLE (d.take 3) = e.block % 2 ^ 24 then put s (ringSamples d) else ((put s []).inc (aLark 3) 7 0).evLark
    | none => ((put s []).inc (aLark 3) 7 0).evLark

/-- The target of R220, from the head's line rate as it is steered, lies within 1,000 ppm of the nominal fs, and the head runs with its dot
clock locked. -/
def State.lockable (s : State) : Bool :=
  let h := s.fget (aLark 0) 20 18
  let fs := if s.bget (aLark 0) 22 then 96000 else 48000
  let ppm := (1000000 + s.heads[Fin.ofNat 8 h].steer).toNat
  let num := s.fget (aLark 2) 23 12 * 25 * s.vcoX h * ppm
  let den := s.fget (aLark 2) 11 0 * 8 * s.pdiv h * 2 ^ 24 * (s.raster h).htotal * fs
  s.running h && s.bget (aHead h 1) 22 && decide (num * 1000 ≤ den * 1001 ∧ den * 999 ≤ num * 1000)

/-- The line lock is lost, or its head cannot be locked to: LINELOCK is 0 and the Lark event is raised (R220). -/
def State.lineUnlock (s : State) : State :=
  (({ s with lark := { s.lark with lockGood := 0, seek := false } } : State).bset (aLark 1) 22 false).evLark

/-- The line lock seeks its head from now on, or finds it out of range (R220). -/
def State.lineSeek (s : State) : State :=
  if s.lockable then { s with lark := { s.lark with seek := true } } else s.lineUnlock

/-- One period of the line lock (R220): out of range it is lost; after 256 periods in range LINELOCK is set. The phase error of a lock in
range is taken to stay within bounds (log entry 59). -/
def State.lockPeriod (s : State) : State :=
  if !s.bget (aLark 0) 21 then s
  else if s.lockable then
    let n := min 256 (s.lark.lockGood + 1)
    let s1 : State := { s with lark := { s.lark with lockGood := n, seek := true } }
    if n = 256 then s1.bset (aLark 1) 22 true else s1
  else if s.lark.seek then s.lineUnlock else s

/-- Lark's line lock follows head h. -/
def State.lineHead (s : State) (h : Nat) : Bool := s.larkOn && s.bget (aLark 0) 21 && s.fget (aLark 0) 20 18 == h

/-- Head h has stopped or its dot clock has lost lock (R220). -/
def State.larkUnlock (s : State) (h : Nat) : State := if s.lineHead h then s.lineUnlock else s

/-- Head h runs again: the line lock resumes, or its target is out of range (R220). -/
def State.larkResume (s : State) (h : Nat) : State := if s.lineHead h then s.lineSeek else s

/-- A sample period (R224 to R235). -/
def State.period (s : State) : State :=
  let n := s.lark.count
  let s0 : State := { s with lark := { s.lark with out := s.lark.formed, keys := [] } }
  let s1 := s.lark.keys.foldl (fun (t : State) k => t.keyApply k) (s0.splitLate 3)
  let s2 := if n % 64 = 0 then
      (List.finRange 4).foldl (fun (t : State) x => t.adoptReturn x (n / 64)) s1
    else s1
  let (m, s3) := (List.finRange 256).foldl (fun (a : MixSum × State) v => a.2.voicePeriod v a.1)
    ({ ch := List.replicate 16 0, send := List.replicate 4 0 }, s2)
  let (sends, s4) := m.send.foldl (fun (a : List Int × State) x =>
    let (y, t) := a.2.roundDiv x (2 ^ 42)
    (a.1 ++ [sat24 y], t)) (([] : List Int), s3)
  let (ch, s5) := (List.finRange 4).foldl (fun (a : List Int × State) x =>
    let (lr, t) := a.2.busReturn x n (nth 0 sends x.val)
    let c := s.rd (aLark (0x20 + 8 * x.val))
    let g : Int := (fld c 14 7 * 2 ^ 37 : Nat)
    (addAt (addAt a.1 (fld c 22 19) (lr.1 * g)) (fld c 18 15) (lr.2 * g), t)) (m.ch, s4)
  let (out, s6) := (List.range 16).foldl (fun (a : List Int × State) c =>
    let (y, t) := a.2.roundDiv (nth 0 ch c * (s.fget (aLark (0x10 + c)) 23 16 : Nat)) (2 ^ 51)
    (a.1 ++ [sat24 y], t)) (([] : List Int), s5)
  let send := Vector.ofFn fun (x : Fin 4) => s6.lark.send[x] ++ [nth 0 sends x.val]
  let whole := n % 64 == 63
  let done := if whole then (List.finRange 4).map fun x => (x.val, n / 64, send[x]) else []
  let s7 : State := { s6 with lark := { s6.lark with
    count := n + 1, formed := out, send := if whole then #v[[], [], [], []] else send
    done := s6.lark.done ++ done.filter fun e => s6.ringBus e.1 } }
  let s8 := (s7.wr (aLark 8) (wd (n + 1))).wr (aLark 9) (wd ((n + 1) / 64))
  s8.lockPeriod

/-- SAMPLE_PERIOD (R224 to R235): Lark runs and is not frozen (R388). -/
def execSamplePeriod (s : State) : Host.Outcome State Fault Refusal :=
  if s.larkOn && !s.lark.frozen then .next s.period else .next s

/-- KEY_ON: a write of VKEY (R223, R224). -/
def execKeyOn (r : Requester) (v : Fin 256) (s : State) : Host.Outcome State Fault Refusal :=
  .next (s.vkeyPut r (wd v.val))

/-- KEY_OFF (R223, R224). -/
def execKeyOff (r : Requester) (v : Fin 256) (s : State) : Host.Outcome State Fault Refusal :=
  .next (s.vkeyPut r (wd (2 ^ 22 + v.val)))

/-- VOICE_STOP (R223, R224). -/
def execVoiceStop (r : Requester) (v : Fin 256) (s : State) : Host.Outcome State Fault Refusal :=
  .next (s.vkeyPut r (wd (2 ^ 23 + v.val)))

/-- Caeruno copies the completed send blocks to their rings (R234). -/
def State.copySends (s : State) : State :=
  let s1 := s.lark.done.foldl (fun (t : State) e =>
    let a := (t.rd (aLark (0x23 + 8 * e.1))).toNat * 2048 + 256 * (e.2.1 % 8)
    t.queueWrite (.core 0 0) a (bytesLE 3 e.2.1 ++ List.replicate 29 0 ++ (e.2.2.map fun v => bytesLE 3 (umod 24 v)).flatten)) s
  { s1 with lark := { s1.lark with done := [] } }

/-- Bus x asks for the return slot of block n (R235). -/
def State.askReturn (s : State) (x : Fin 4) (n : Nat) : State :=
  let us := unitsOf (s.returnSlot x.val n) 416
  let (t, wait, got) := us.foldl (fun (a : State × List Nat × List (Nat × List Byte)) u =>
    let (t, more) := a.1.dramAsk (.larkReturn x) u 0 n
    if more then (t, a.2.1 ++ [u], a.2.2) else (t, a.2.1, a.2.2 ++ [(u, List.replicate 32 0)])) (s, [], [])
  { t with lark := { t.lark with fetched := (t.lark.fetched.filter fun e => !(e.bus == x.val && e.block == n)) ++
    [{ bus := x.val, block := n, wait := wait, units := got, bad := false }] } }

/-- LARK_BLOCK: the ring traffic of the block in progress, once (R234, R235). -/
def execLarkBlock (s : State) : Host.Outcome State Fault Refusal :=
  let b := s.lark.count / 64
  if !s.larkOn || s.lark.blockAt == b then .next s
  else
    let lag := s.fget (aLark 0x0A) 23 21
    let s1 : State := { s.copySends with lark := { s.copySends.lark with blockAt := b } }
    .next ((List.finRange 4).foldl (fun (t : State) x =>
      if t.ringBus x.val && decide (lag ≤ b + 1) then t.askReturn x (b + 1 - lag) else t) s1)

/-! ### Outputs (R236, R237) -/

/-- Slots of an enabled port: 2, 4 or 8. -/
def slotCount (code : Nat) : Nat := 2 ^ (code + 1)

/-- A slot of 32 BCLKs: one zero bit, the 24 bits of the sample, 7 zero bits (R236). -/
def slotWord (v : Int) : BitVec 32 := BitVec.ofNat 32 (umod 24 v * 2 ^ 7)

/-- The slots that I2S/TDM port i sends in the period in progress, slot 0 first; none while it is disabled (R236). -/
def State.portSlots (s : State) (i : Nat) : List (BitVec 32) :=
  let c := s.rd (aLark (0x40 + i))
  if bit c 23 then (List.range (slotCount (fld c 22 21))).map fun k => slotWord (nth 0 s.lark.out ((fld c 20 17 + k) % 16)) else []

/-- What a port's pins carry in half a BCLK cycle: BCLK, the frame sync and the data. -/
structure PortWire where
  bclk : Bool
  sync : Bool
  data : Bool
deriving DecidableEq, Repr

/-- BCLK cycles in a second: 32 × slots × fs (R236). -/
def State.bclkRate (s : State) (i : Nat) : Nat :=
  32 * slotCount (s.fget (aLark (0x40 + i)) 22 21) * if s.bget (aLark 0) 22 then 96000 else 48000

/-- The frame sync in BCLK k of a period: in I2S mode low for slot 0 and high for slot 1, in TDM mode high for the last BCLK before slot 0
(R236). -/
def portSync (code k : Nat) : Bool := if code = 0 then decide (32 ≤ k) else k + 1 == 32 * slotCount code

/-- Half-cycle j of BCLK in the period in progress on port i; a BCLK cycle begins with the falling edge, where data and sync change (R236).
Nothing is driven while the port is disabled. A view: no command of the table divides a period (log entry 51). -/
def State.portWire (s : State) (i j : Nat) : Option PortWire :=
  match (s.portSlots i)[j / 64]? with
  | some w => some { bclk := j % 2 == 1, sync := portSync (s.fget (aLark (0x40 + i)) 22 21) (j / 2), data := w.getMsbD (j / 2 % 32) }
  | none => none

/-- The samples of subframes A and B that S/PDIF output j sends in the period in progress (R237). -/
def State.spdifPair (s : State) (j : Nat) : Option (Int × Int) :=
  let c := s.rd (aLark (0x44 + j))
  if bit c 23 then some (nth 0 s.lark.out (fld c 22 19), nth 0 s.lark.out ((fld c 22 19 + 1) % 16)) else none

/-- Bit n of a channel status block: consumer and linear PCM, the code of fs, 24-bit words; all others 0 (R237; places and codes of IEC
60958-3: PRESUMED, log entry 129). -/
def chanStatus (rate96 : Bool) (n : Nat) : Bool := n == 25 || (rate96 && n == 27) || n == 32 || n == 33 || n == 35

/-- A subframe's 28 bits after its preamble: the sample LSB first, validity 0, user 0, channel status, even parity (R237; log entry 129). -/
def subframeBits (v : Int) (c : Bool) : List Bool :=
  let l := ((List.range 24).map fun i => (umod 24 v).testBit i) ++ [false, false, c]
  l ++ [l.foldl xor false]

/-- Biphase-mark cells of bits, from the level before them: each bit begins with a change, and a one has another in its middle (R237). -/
def biphase : Bool → List Bool → List Bool
  | _, [] => []
  | l, b :: t => (!l) :: (l == b) :: biphase (l == b) t

/-- The cells of a subframe that follows level l: preamble B at a block's start, M or W else, and the coded bits (log entry 129). -/
def subframeCells (l : Bool) (block a : Bool) (v : Int) (c : Bool) : List Bool :=
  let p := if block then [true, true, true, false, true, false, false, false]
    else if a then [true, true, true, false, false, false, true, false] else [true, true, true, false, false, true, false, false]
  let q := p.map fun b => b != l
  q ++ biphase l (subframeBits v c)

/-- The 128 biphase-mark cells that S/PDIF output j sends in the period in progress, at 128 × fs; a block is 192 periods from EN (R237;
log entry 129). Nothing is sent while it is disabled. A view, as State.portWire is. -/
def State.spdifCells (s : State) (j : Nat) : List Bool :=
  match s.spdifPair j with
  | none => []
  | some (a, b) =>
    let n := (s.lark.count + 191) % 192
    let c := chanStatus (s.bget (aLark 0) 22) n
    subframeCells false (n == 0) true a c ++ subframeCells false false false b c

/-! ### Registers -/

/-- Lark stops: voices idle, outputs zero. -/
def State.larkStop (s : State) : State :=
  { s with lark := { s.lark with
    voices := s.lark.voices.map fun v => { v with phase := 0, level := 0, asked := [], buf := [] }
    formed := List.replicate 16 0, out := List.replicate 16 0, send := #v[[], [], [], []], done := []
    ret := #v[[], [], [], []], fetched := [], lockGood := 0, seek := false, blockAt := 0 } }

/-- A write of LCTL (R220, R221). -/
def State.lctlPut (s : State) (v : Word) : State :=
  let on := s.larkOn
  if on && bit v 23 then s
  else if on then ((s.bset (aLark 0) 23 false).larkStop).wr (aLark 1) 0
  else
    let s1 := s.put (aLark 0) v
    if bit v 23 then
      let s2 := (((({ s1 with lark := { s1.lark with count := 0 } } : State).wr (aLark 8) 0).wr (aLark 9) 0).wr (aLark 1) 0x800000)
      if bit v 21 then s2.lineSeek else s2
    else s1

/-- LMDATA is read: three bytes, whether a word of them was uncorrectable, and ADDR advances unless the read is a peek. -/
def State.lmRead (s : State) (peek : Bool) : Word × Bool × State :=
  let a := s.fget (aLark 5) 19 0
  let (d, lost, t) := s.larkLoad a 3
  (wd (ofBytesLE d), lost, if peek then t else t.fset (aLark 5) 19 0 (a + 3))

/-- LMDATA is written. -/
def State.lmWrite (s : State) (v : Word) : State :=
  let a := s.fget (aLark 5) 19 0
  (s.larkStore a (bytesLE 3 v.toNat)).fset (aLark 5) 19 0 (a + 3)

/-- A write of a Lark register. -/
def State.larkRegPut (s : State) (r : Requester) (off : Nat) (v : Word) : State :=
  match off with
  | 0 => s.lctlPut v
  | 2 => if s.larkOn || fld v 23 12 == 0 || fld v 11 0 == 0 then s else s.put (aLark 2) v
  | 6 => s.lmWrite v
  | 7 => s.vkeyPut r v
  | 0x0A => if fld v 23 21 < 4 then s else s.put (aLark 0x0A) v
  | o => if 0x40 ≤ o ∧ o < 0x44 ∧ fld v 22 21 = 3 then s else s.put (aLark o) v

/-- VSTAT and VPOS of a voice (R222). -/
def State.voiceView (s : State) (v : Fin 256) (w : Nat) : Word :=
  let x := s.lark.voices[v]
  match w with
  | 9 => wd (x.phase * 2 ^ 21 + x.level / 256)
  | 10 => wd (x.pos / 2 ^ 20)
  | _ => s.rd (aVoice v w)

/-- LCTL_WRITE (R220, R221). -/
def execLctlWrite (r : Requester) (v : Word) (s : State) : Host.Outcome State Fault Refusal :=
  .next (s.gated r (aLark 0) fun t => t.lctlPut v)

/-- LMDATA_ACCESS: a write of w, or a read. -/
def execLmdataAccess (r : Requester) (w : Option Word) (s : State) : Host.Outcome State Fault Refusal :=
  match w with
  | some v => .next (s.gated r (aLark 6) fun t => t.lmWrite v)
  | none =>
    if s.mayRead r (locOf (aLark 6)) then
      let (v, lost, t) := s.lmRead false
      .next (if lost then t.accessFault r (aLark 6) else { t with rdata := v, rfault := false })
    else .next (s.accessFault r (aLark 6))

end Sys2Proof.Machine
end

