-- ==== Sys2Proof/Machine/Timers.lean ====
section
/-! DEFINITION. Timers and counters (13_timers.md, R318 to R328). -/

namespace Sys2Proof.Machine

/-- Timer t of the state, changed by f. -/
def State.modTmr (s : State) (t : Tmr) (f : TimerSt → TimerSt) : State := { s with timers := vmod s.timers t f }

/-- The timer above t, its odd partner when t is even. -/
def upper (t : Tmr) : Tmr := Fin.ofNat 16 (t.val / 2 * 2 + 1)
/-- The even timer of t's pair. -/
def lower (t : Tmr) : Tmr := Fin.ofNat 16 (t.val / 2 * 2)

/-- RUN. -/
def State.tRun (s : State) (t : Tmr) : Bool := s.bget (aTimer t.val 0) 23
/-- Timer t is the odd half of a chained pair (R322). -/
def State.chainedOdd (s : State) (t : Tmr) : Bool := t.val % 2 == 1 && s.bget (aTimer t.val 0) 16
/-- Timer t is the even half of a chained pair. -/
def State.chainedEven (s : State) (t : Tmr) : Bool := t.val % 2 == 0 && s.bget (aTimer (upper t).val 0) 16
/-- The timer that operations naming t act on (R322). -/
def State.tAct (s : State) (t : Tmr) : Tmr := if s.chainedOdd t then lower t else t

/-- TCNT, TTOP, TCMP, TPHASE. -/
def State.tCnt (s : State) (t : Tmr) : Nat := (s.rd (aTimer t.val 2)).toNat
def State.tTop (s : State) (t : Tmr) : Nat := (s.rd (aTimer t.val 3)).toNat
def State.tCmp (s : State) (t : Tmr) : Nat := (s.rd (aTimer t.val 4)).toNat

/-- OMODE. -/
def State.omode (s : State) (t : Tmr) : Nat := s.fget (aTimer t.val 0) 15 14

/-- The device is asleep (R328). -/
def State.asleep (s : State) : Bool := s.pow.st == .rest || s.pow.st == .keep

/-- Timer t is frozen or asleep. -/
def State.tHeld (s : State) (t : Tmr) : Bool := s.asleep || s.timers[t].frozen

/-! ### Prescaler (R320) -/

/-- The next state of the dither generator (log entry 13). -/
def lfsrNext (x : BitVec 8) : BitVec 8 := if x.getLsbD 7 then (x <<< 1) ^^^ 0x71 else x <<< 1

/-- P(i) of the interval that a timer is in. -/
def TimerSt.ditherP (x : TimerSt) : Nat := if x.interval = 0 then 0 else x.lfsr.toNat

/-- Source edges of the interval that timer t is in. -/
def State.edges (s : State) (t : Tmr) : Nat :=
  let w := s.rd (aTimer t.val 1)
  let x := s.timers[t]
  let fr := fld w 11 4
  let long := if bit w 3 then decide (x.ditherP < fr)
    else decide (x.interval * fr / 256 < (x.interval + 1) * fr / 256)
  fld w 23 12 + 1 + b2n long

/-- An interval of n source edges is over, and the next of the group of 256 begins: the generator, seeded at the group's start, advances
once per interval. -/
def TimerSt.nextInterval (n : Nat) (x : TimerSt) : TimerSt :=
  let y := { x with seen := x.seen + n }
  if x.interval = 255 then { y with interval := 0, lfsr := 1 }
  else { y with interval := x.interval + 1, lfsr := lfsrNext x.lfsr }

/-- The prescaler restarts at interval 0. -/
def TimerSt.restart (x : TimerSt) : TimerSt := { x with interval := 0, lfsr := 1, seen := 0 }

/-! ### Flags (R319) -/

/-- Contexts that hold the grant of timer t. -/
def State.tCtxs (s : State) (t : Nat) : List Nat :=
  ((s.cae.grants.filter fun g => g.kind == 4 && g.index == t && decide (g.grantee < 64)).map (·.grantee)).eraseDups

/-- A flag of timer t with its enable at 1: the timer event, or an applet interrupt on line 76 + t to the contexts that hold
its rights (R319, R364). -/
def State.tIrq (s : State) (t : Tmr) (enable : Bool) : State :=
  if !enable then s
  else match s.tCtxs t.val with
    | [] => s.evTimer t.val
    | cs => cs.foldl (fun (u : State) c =>
        { u with cae := { u.cae with ctxs := vmod u.cae.ctxs (Fin.ofNat 64 c) fun x => { x with irqs := x.irqs ++ [76 + t.val] } } }) s

/-- MATCH is set. -/
def State.tMatch (s : State) (t : Tmr) : State := (s.bset (aTimer t.val 7) 23 true).tIrq t (s.bget (aTimer t.val 0) 8)
/-- WRAP is set. -/
def State.tWrap (s : State) (t : Tmr) : State := (s.bset (aTimer t.val 7) 22 true).tIrq t (s.bget (aTimer t.val 0) 7)
/-- The output takes a level. -/
def State.tOut (s : State) (t : Tmr) (b : Bool) : State := s.bset (aTimer t.val 7) 18 b

/-! ### A tick (R323, R324) -/

/-- The count after one tick, and whether it wrapped. -/
def State.stepped (s : State) (t : Tmr) : Nat × Bool :=
  if s.tCnt t < s.tTop t then (s.tCnt t + 1, false) else (0, true)

/-- Flags and output of a timer where it has matched or wrapped; `own` tells that the timer itself has ticked, which ends a pulse. -/
def State.tickOut (s : State) (t : Tmr) (m w own : Bool) : State :=
  let s1 := if w then s.tWrap t else s
  let s2 := if m then s1.tMatch t else s1
  match s2.omode t with
  | 0 => if m then s2.tOut t (!s2.bget (aTimer t.val 7) 18) else s2
  | 1 => if m then s2.tOut t false else if w then s2.tOut t true else s2
  | 2 => if m then s2.tOut t true else if own then s2.tOut t false else s2
  | _ => s2.tOut t (s2.bget (aTimer t.val 0) 13)

/-- A tick of timer t, with the odd half of a chained pair (R322, R323). -/
def State.tickOne (s : State) (t : Tmr) : State :=
  let (n, w) := s.stepped t
  let s1 := s.wr (aTimer t.val 2) (wd n)
  if s.chainedEven t then
    let u := upper t
    let (k, w2) := if w then s1.stepped u else (s1.tCnt u, false)
    let s2 := s1.wr (aTimer u.val 2) (wd k)
    let s3 := s2.tickOut t (n == s2.tCmp t) w true
    s.raisedOnce 40 (s3.tickOut u (n == s3.tCmp t && k == s3.tCmp u) w2 w)
  else s.raisedOnce 40 (s1.tickOut t (n == s1.tCmp t) w true)

/-- The pin input of timer t can change: one pin feeds it, whose bank is on and whose input no open probe holds (R299, R307, R314, R321). -/
def State.pinFeeds (s : State) (t : Tmr) : Bool :=
  !s.bget aBankConf t.val && (List.finRange 12).any fun b => s.banks[b].level != 0 &&
    (List.range 24).any fun n => s.feedsTimer b n t.val && !bit s.banks[b].probing n

/-- Source of timer t gives edges now: the LINE strobe needs its head running, the pin input a pin (R321). -/
def State.srcLive (s : State) (t : Tmr) : Bool :=
  match s.fget (aTimer t.val 0) 22 20 with
  | 3 => s.pinFeeds t
  | 4 => s.running (s.fget (aTimer t.val 0) 19 17)
  | _ => true

/-- The event that CAP of timer t selects can occur now (R321, R325). -/
def State.capLive (s : State) (t : Tmr) : Bool :=
  match s.fget (aTimer t.val 0) 11 9 with
  | 0 => false
  | 4 => s.running (s.fget (aTimer t.val 0) 19 17)
  | _ => s.pinFeeds t

/-- TICK: the last source edge of the interval, which State.edges counts, has come (R320, R323; log entry 123). -/
def execTick (t : Tmr) (s : State) : Host.Outcome State Fault Refusal :=
  if s.tRun t && !s.tHeld t && !s.chainedOdd t && s.srcLive t then
    .next ((s.tickOne t).modTmr t (TimerSt.nextInterval (s.edges t)))
  else .next s

/-! ### Starting and stopping (R322, R326) -/

/-- A reload: TCNT takes PHASE, the prescaler restarts, the output is as R324 says. -/
def State.reloadOne (s : State) (t : Tmr) : State :=
  let p := s.rd (aTimer t.val 5)
  let out := if s.omode t = 1 then decide (p.toNat < s.tCmp t) else s.bget (aTimer t.val 0) 13
  ((s.wr (aTimer t.val 2) p).modTmr t TimerSt.restart).tOut t out

/-- Operation op on timer t: 0 start, 1 stop, 2 reload and start. The halves of a pair go together. -/
def State.timerOp (s : State) (t0 : Tmr) (op : Nat) : State :=
  let t := s.tAct t0
  match op with
  | 0 => s.bset (aTimer t.val 0) 23 true
  | 1 => s.bset (aTimer t.val 0) 23 false
  | 2 =>
    let s1 := s.reloadOne t
    (if s.chainedEven t then s1.reloadOne (upper t) else s1).bset (aTimer t.val 0) 23 true
  | _ => s

/-- LOWRES of timer t follows: running with KEEP, frozen or asleep. On leaving, the prescaler restarts (R328). -/
def State.lowresAt (s : State) (t : Tmr) : State :=
  let a := s.tAct t
  let on := s.tRun a && s.tHeld a && s.bget (aTimer a.val 0) 12
  let was := s.bget (aTimer t.val 7) 17
  let u := s.bset (aTimer t.val 7) 17 on
  if was && !on then u.modTmr t TimerSt.restart
  else if on && !was then u.modTmr t fun x => { x with frac := 0 } else u

/-- LOWRES of every timer follows. -/
def State.lowresTrack (s : State) : State := (List.finRange 16).foldl State.lowresAt s

/-- An operation on timers among those of its SCLK cycle: RUN stays as one ordered after it left it (R326). -/
def State.timerBy (s : State) (who rank : Nat) (ts : List Tmr) (op : Nat) : State :=
  let key := fun (u : State) t => 0x4000000 + (u.tAct t).val
  let one := fun (u : State) t =>
    let v := u.timerOp t op
    if (s.cycAfter who rank (key u t)).isEmpty then v else v.bset (aTimer (u.tAct t).val 0) 23 (u.tRun (u.tAct t))
  let acted := (List.finRange 16).filter fun u => ts.any fun t => s.tAct t == s.tAct u
  (acted.foldl State.lowresAt (ts.foldl one s)).cycNotes who (ts.map fun t => { rank := rank, who := who, key := key s t, value := wd op })

/-- A write of TGO (R318, R326, R327): each timer of MASK that the writer has rights over; the others are access faults. -/
def State.tgoPut (s : State) (r : Requester) (v : Word) : State :=
  if fld v 23 22 = 3 then s
  else
    let ts := (List.finRange 16).filter fun t => bit v t.val
    let s1 := s.timerBy (whoOf r) 3 (ts.filter fun t => s.right r 4 t.val) (fld v 23 22)
    if ts.all fun t => s.right r 4 t.val then s1 else s1.accessFault r aTgo

/-- TIMER_START: TGO with OP start (R326). -/
def execTimerStart (r : Requester) (mask : BitVec 16) (s : State) : Host.Outcome State Fault Refusal :=
  .next (s.tgoPut r (wd mask.toNat))

/-- TIMER_STOP (R326). -/
def execTimerStop (r : Requester) (mask : BitVec 16) (s : State) : Host.Outcome State Fault Refusal :=
  .next (s.tgoPut r (wd (2 ^ 22 + mask.toNat)))

/-- TIMER_RELOAD_AND_START (R326). -/
def execTimerReloadAndStart (r : Requester) (mask : BitVec 16) (s : State) : Host.Outcome State Fault Refusal :=
  .next (s.tgoPut r (wd (2 ^ 23 + mask.toNat)))

/-! ### Capture (R325) -/

/-- CAPV rises. -/
def State.capRise (s : State) (t : Tmr) : State := (s.bset (aTimer t.val 7) 20 true).tIrq t (s.bget (aTimer t.val 0) 6)

/-- A capture event. -/
def State.captureOne (s : State) (t : Tmr) : State :=
  let st := s.rd (aTimer t.val 7)
  let c := s.rd (aTimer t.val 2)
  if !bit st 20 then (s.wr (aTimer t.val 6) c).capRise t
  else
    let s1 := s.modTmr t fun x => { x with cap2 := c }
    if bit st 19 then (s1.bset (aTimer t.val 7) 21 true).tIrq t (s.bget (aTimer t.val 0) 6)
    else s1.bset (aTimer t.val 7) 19 true

/-- CAPTURE: the event that CAP selects (R325). A frozen or sleeping timer holds its count, which is what it captures (R328). -/
def execCapture (t : Tmr) (s : State) : Host.Outcome State Fault Refusal :=
  if s.capLive t then .next (s.captureOne t) else .next s

/-- A read of TCAP: the value; CAPV clears, and a full second stage moves in. -/
def State.tcapTake (s : State) (t : Tmr) : Word × State :=
  let v := s.rd (aTimer t.val 6)
  let s1 := s.bset (aTimer t.val 7) 20 false
  if s.bget (aTimer t.val 7) 19 then
    (v, ((s1.wr (aTimer t.val 6) s.timers[t].cap2).bset (aTimer t.val 7) 19 false).capRise t)
  else (v, s1)

/-- TCAP_READ (R325). -/
def execTcapRead (r : Requester) (t : Tmr) (s : State) : Host.Outcome State Fault Refusal :=
  if s.mayRead r (locOf (aTimer t.val 6)) then
    let (v, u) := s.tcapTake t
    .next { u with rdata := v, rfault := false }
  else .next (s.accessFault r (aTimer t.val 6))

/-- A read of TCNT: an even timer of a chained pair loads the shadow of the odd count, which a read of the odd one returns
(R322). -/
def State.tcntTake (s : State) (r : Requester) (t : Tmr) : Word × State :=
  let v := s.rd (aTimer t.val 2)
  if s.chainedEven t then (v, s.setShadow r (aTimer (upper t).val 2) (s.rd (aTimer (upper t).val 2)))
  else if s.chainedOdd t then ((s.shadow r (aTimer t.val 2)).getD v, s)
  else (v, s)

/-- TCNT_READ (R322). -/
def execTcntRead (r : Requester) (t : Tmr) (s : State) : Host.Outcome State Fault Refusal :=
  if s.mayRead r (locOf (aTimer t.val 2)) then
    let (v, u) := s.tcntTake r t
    .next { u with rdata := v, rfault := false }
  else .next (s.accessFault r (aTimer t.val 2))

/-! ### Low resolution (R328) -/

/-- A count advances by n, modulo TOP + 1: the new count, whether it passed over CMP before it wrapped and after, and whether it passed
over TOP. -/
def passOver (cnt top cmp n : Nat) : Nat × Bool × Bool × Bool :=
  let m := top + 1
  let e := cnt + n
  (e % m, decide (cmp ≤ top ∧ cnt < cmp ∧ cmp ≤ e), decide (cmp ≤ top ∧ cmp + m ≤ e), decide (top < e))

/-- One 32.768 kHz edge of a timer that counts at low resolution. A chained pair's odd half ticks at each WRAP, and matches where the even
one passes over its CMP while the odd count is at its own. -/
def State.lowresOne (s : State) (t : Tmr) : State :=
  let k := s.rd (aTimer t.val 8)
  let fr := s.timers[t].frac + fld k 7 0
  let n := fld k 23 8 + fr / 256
  let (c, m1, m2, w) := passOver (s.tCnt t) (s.tTop t) (s.tCmp t) n
  let s1 := (s.wr (aTimer t.val 2) (wd c)).modTmr t fun x => { x with frac := fr % 256 }
  let s2 := s1.tickOut t (m1 || m2) w true
  if s.chainedEven t then
    let u := upper t
    let k := s2.tCnt u
    let (d, w2) := if w then s2.stepped u else (k, false)
    s.raisedOnce 40 ((s2.wr (aTimer u.val 2) (wd d)).tickOut u ((m1 && k == s2.tCmp u) || (m2 && d == s2.tCmp u)) w2 w)
  else s.raisedOnce 40 s2

/-- LOWRES_STEP (R328). -/
def execLowresStep (t : Tmr) (s : State) : Host.Outcome State Fault Refusal :=
  if s.tRun t && s.tHeld t && s.bget (aTimer t.val 0) 12 && !s.chainedOdd t then .next (s.lowresOne t) else .next s

/-! ### Registers (R319) -/

/-- A write of TCTL. RUN of a chained odd timer is its own and has no effect (R322). An operation on RUN that the SCLK cycle orders after
the write stands (R326). -/
def State.tctlPut (s : State) (r : Requester) (t : Tmr) (v : Word) : State :=
  let a := aTimer t.val 0
  if 4 < fld v 22 20 ∨ 4 < fld v 11 9 then s
  else
    let old := s.rd a
    let v1 := if bit old 23 then putFld v 22 16 (fld old 22 16) else v
    let v2 := putBit v1 23 (bit old 23)
    let s1 := s.put a v2
    let s2 := if s1.omode t = 3 then s1.tOut t (bit v2 13) else s1
    let key := 0x4000000 + t.val
    let run := if (s.cycAfter (whoOf r) (rankOf r) key).isEmpty then bit v 23 else bit old 23
    (s2.bset a 23 run).lowresTrack.cycNote { rank := rankOf r, who := whoOf r, key := key, value := wd (b2n (bit v 23)) }

/-- A write of a timer's register. -/
def State.timerRegPut (s : State) (r : Requester) (t : Tmr) (off : Nat) (v : Word) : State :=
  match off with
  | 0 => s.tctlPut r t v
  | 1 => if s.tRun t then s else s.put (aTimer t.val 1) v
  | 2 => if s.tRun (s.tAct t) then s else s.put (aTimer t.val 2) v
  | o => s.put (aTimer t.val o) v

end Sys2Proof.Machine
end

