-- ==== Sys2Proof/Machine/Links.lean ====
section
/-! DEFINITION. Unit addresses, routes and the packets that a Golmon link sends (14_golmon_folds.md, R336 to R342). -/

namespace Sys2Proof.Machine

/-- Link g of the state, changed by f. -/
def State.modLink (s : State) (g : Link) (f : LinkSt → LinkSt) : State := { s with links := vmod s.links g f }

/-- STATE of LKSTAT: 0 DOWN, 1 TRAIN, 2 UP, 3 TEST, 4 FAULT. -/
def State.linkState (s : State) (g : Link) : Nat := s.fget (aLink g.val 1) 23 21
/-- The link is UP. -/
def State.isUp (s : State) (g : Link) : Bool := s.linkState g == 2
/-- The link carries or holds packets: UP, or in training. -/
def State.linkAlive (s : State) (g : Link) : Bool := s.linkState g == 1 || s.linkState g == 2

/-- FOLDUNIT. -/
def State.unit (s : State) : Word := s.rd (aFold 0)
/-- SET of FOLDCTL. -/
def State.foldSet (s : State) : Bool := s.bget (aFold 1) 23

/-! ### Routes (R340 to R342) -/

/-- Hop j of a unit address. -/
def hop (u j : Nat) : Nat := nbits u (6 * j + 5) (6 * j)

/-- The highest hop in which two units differ. -/
def topHop (d u : Nat) : Option Nat := [3, 2, 1, 0].find? fun j => hop d j != hop u j

/-- A route table entry: a link, 4 for this device, 7 for unreachable. -/
def State.routeEntry (s : State) (j m : Nat) : Nat :=
  let r := s.fget (aRoute j m) 2 0
  if r ≤ 4 then r else 7

/-- route(d, u) of R341, to a depth of k. -/
def State.routeFrom (s : State) (d : Nat) : Nat → Nat → Nat
  | 0, _ => 7
  | k + 1, u =>
    match topHop d u with
    | none => 4
    | some j => if d % 2 ^ (6 * j) = 0 then s.routeEntry j (hop u j) else s.routeFrom d k (d / 2 ^ (6 * j) * 2 ^ (6 * j))

/-- The link for a packet to unit u: 0 to 3, 4 for this device, 7 when unreachable. -/
def State.route (s : State) (u : Word) : Nat := s.routeFrom s.unit.toNat 5 u.toNat

/-- PARENT of FOLDSTAT: the link on the route to the top root. -/
def State.parent (s : State) : Nat := s.route 0

/-- The link that a route names. -/
def routeLink (r : Nat) : Option Link := if h : r < 4 then some ⟨r, h⟩ else none

/-! ### Packets (R336) -/

/-- Bits [hi:lo] of a block. -/
def blk (b : BitVec 64) (hi lo : Nat) : Nat := nbits b.toNat hi lo

/-- TYPE, LEN, SEQ, DEST, AUX of a packet. -/
def pktType (p : Packet) : Nat := blk p.hdr 63 60
def pktLen (p : Packet) : Nat := blk p.hdr 59 54
def pktSeq (p : Packet) : Nat := blk p.hdr 53 42
def pktDest (p : Packet) : Word := wd (blk p.hdr 41 18)
def pktAux (p : Packet) : Nat := blk p.hdr 17 0

/-- A packet without its SEQ and tail. -/
def mkPacket (type : Nat) (dest : Word) (aux : Nat) (pay : List (BitVec 64)) : Packet :=
  { hdr := BitVec.ofNat 64 (type * 2 ^ 60 + pay.length * 2 ^ 54 + dest.toNat * 2 ^ 18 + aux % 2 ^ 18), pay := pay, tail := 0 }

/-- CRC of a packet: header, payload and tail bits [31:0], each block least significant byte first. -/
def pktCrc (p : Packet) : BitVec 32 :=
  crc32c (bytesLE 8 p.hdr.toNat ++ (p.pay.map fun b => bytesLE 8 b.toNat).flatten ++ bytesLE 4 (p.tail.toNat % 2 ^ 32))

/-- A packet with its sequence number. -/
def withSeq (p : Packet) (q : Nat) : Packet :=
  { p with hdr := BitVec.ofNat 64 (p.hdr.toNat - pktSeq p * 2 ^ 42 + q % 4096 * 2 ^ 42) }

/-- A packet with the tail that the transmitter gives it now. -/
def LinkSt.seal (x : LinkSt) (p : Packet) : Packet :=
  let low := (x.rxSeq + 4095) % 4096 * 2 ^ 20 + b2n x.gotAny * 2 ^ 19 + b2n x.nakDue * 2 ^ 18
  let q := { p with tail := BitVec.ofNat 64 low }
  { q with tail := BitVec.ofNat 64 ((pktCrc q).toNat * 2 ^ 32 + low) }

/-! ### Coding of the lanes (R330, R331) -/

/-- The state of a scrambler x^58 + x^39 + 1 after a scrambled bit: bit 0 is the last one. -/
def scrShift (sc : BitVec 58) (b : Bool) : BitVec 58 := (sc <<< 1) ||| (if b then 1 else 0)

/-- What the bits 39 and 58 places back add to a bit. -/
def scrTap (sc : BitVec 58) : Bool := sc.getLsbD 38 != sc.getLsbD 57

/-- A payload through a lane's self-synchronous scrambler, least significant bit first. -/
def scramble (sc : BitVec 58) (p : BitVec 64) : BitVec 58 × BitVec 64 :=
  (List.range 64).foldl (fun a i =>
    let b := p.getLsbD i != scrTap a.1
    (scrShift a.1 b, if b then a.2 ||| (1 <<< i) else a.2)) (sc, 0)

/-- A received payload through the descrambler, which shifts in the bits as they come. -/
def descramble (sc : BitVec 58) (p : BitVec 64) : BitVec 58 × BitVec 64 :=
  (List.range 64).foldl (fun a i =>
    (scrShift a.1 (p.getLsbD i), if p.getLsbD i != scrTap a.1 then a.2 ||| (1 <<< i) else a.2)) (sc, 0)

/-- A 66-bit block, the bit that travels first lowest: the sync header 0b10 of a control block or 0b01 of a data block, and the payload
(log entry 137). -/
def block66 (ctl : Bool) (p : BitVec 64) : BitVec 66 := p.setWidth 66 <<< 2 ||| (if ctl then 2 else 1)

/-- Blocks dealt from the i-th on to the lanes ls in turn, each through its lane's scrambler. -/
def codeBlocks (ls : List Nat) : Nat → (Nat → BitVec 58) → List (Bool × BitVec 64) → List (Nat × BitVec 66)
  | _, _, [] => []
  | i, sc, (c, p) :: t =>
    let l := nth 0 ls (i % ls.length)
    let (st, y) := scramble (sc l) p
    (l, block66 c y) :: codeBlocks ls (i + 1) (fun k => if k = l then st else sc k) t

/-- The blocks of a packet, all of them data blocks. -/
def packetBlocks (p : Packet) : List (Bool × BitVec 64) := (p.hdr :: (p.pay ++ [p.tail])).map fun b => (false, b)

/-- Packets are dealt to the lanes in use. -/
def LinkSt.carry (x : LinkSt) (ps : List Packet) : LinkSt :=
  { x with
    wire := x.wire ++ codeBlocks x.txLanes (Config.firstBlock x.runs) (Config.scrambler x.runs) (ps.map packetBlocks).flatten
    runs := x.runs + 4 }

/-- Payload of an IDLE block. -/
def idlePayload : BitVec 64 := 0x1E

/-- Payload of the ALIGN block of a logical lane, with RXGOOD. -/
def alignPayload (lane : Nat) (good : BitVec 4) : BitVec 64 := BitVec.ofNat 64 (0x78 + lane * 2 ^ 8 + good.toNat * 2 ^ 16)

/-- Every lane in use sends ALIGN in one block slot. -/
def LinkSt.carryAlign (x : LinkSt) (good : BitVec 4) : LinkSt :=
  { x with
    wire := x.wire ++ x.txLanes.map fun l => (l, block66 true (scramble (Config.scrambler x.runs l) (alignPayload l good)).2)
    runs := x.runs + 4
    aligns := x.aligns + 1 }

/-- Payload of the TS block that link g sends on a logical lane, with RXGOOD (R332): the lanes not in use of an UP link carry it too
(R335). -/
def State.tsPayload (s : State) (g : Link) (lane : Nat) (good : BitVec 4) : BitVec 64 :=
  BitVec.ofNat 64 (0x4B + (lane + g.val * 4 + s.fget (aLink g.val 0) 22 21 * 16) * 2 ^ 8 +
    (good.toNat + b2n s.links[g].ready * 16) * 2 ^ 16 + (if s.foldSet then s.unit.toNat else 0) * 2 ^ 24 +
    s.fget (aLink g.val 0) 17 16 * 2 ^ 48)

/-- Precedence of a packet type at a transmitter (R338). -/
def precedence (t : Nat) : Nat :=
  match t with
  | 8 => 1 | 1 => 2 | 2 => 2 | 6 => 3 | 3 => 4 | 4 => 4 | 7 => 5 | _ => 6

/-- The copy channel that a data packet names. -/
def pktChan (p : Packet) : Nat := match p.pay with | b :: _ => blk b 39 37 | [] => 0

/-- How far a data packet's channel is from its turn, 0 for other packets. -/
def LinkSt.turn (x : LinkSt) (p : Packet) : Nat :=
  if pktType p = 5 ∨ pktType p = 7 then
    match x.sent.reverse.find? fun q => pktType q == pktType p with
    | some q => (pktChan p + 7 - pktChan q) % 8
    | none => 0
  else 0

/-- The place of the waiting packet that goes next: precedence, turn among copy channels, age. -/
def LinkSt.pick (x : LinkSt) : Option Nat :=
  let best := (x.outq.map fun p => 8 * precedence (pktType p) + x.turn p).min?
  match best with
  | some b => x.outq.findIdx? fun p => 8 * precedence (pktType p) + x.turn p == b
  | none => none

/-- One waiting packet starts while the retry buffer has room (R337). -/
def LinkSt.startOne (x : LinkSt) : LinkSt :=
  if 256 ≤ x.retry.length then x
  else match x.pick with
    | none => x
    | some i => match x.outq[i]? with
      | none => x
      | some p =>
        let q := x.seal (withSeq p x.txSeq)
        { x.carry [q] with
          outq := x.outq.eraseIdx i, sent := x.sent ++ [q], retry := x.retry ++ [{ pkt := q, resent := 0 }]
          txSeq := (x.txSeq + 1) % 4096, nakDue := false, ackDue := false }

/-- The transmitter of an UP link sends what waits. -/
def State.pump (s : State) (g : Link) : State :=
  if s.isUp g then s.modLink g fun x => (List.range x.outq.length).foldl (fun y _ => y.startOne) x else s

/-- A packet is given to link g: sent, held while the link trains, discarded otherwise. -/
def State.linkSend (s : State) (g : Link) (p : Packet) : State :=
  if s.linkAlive g then (s.modLink g fun x => { x with outq := x.outq ++ [p] }).pump g else s

/-- Words packed 24 bits each into blocks, least significant first. -/
def wordBlocks (ws : List Word) : List (BitVec 64) :=
  let b := bytesOfWords ws
  (chunks 8 (b.length / 8 + 1) b).filterMap fun c => if c.isEmpty then none else some (BitVec.ofNat 64 (ofBytesLE c))

/-- The words that blocks carry. -/
def blockWords (bs : List (BitVec 64)) : List Word := wordsOfBytes (bs.map fun b => bytesLE 8 b.toNat).flatten

/-- Block 0 of MBREQ and MBRSP: source unit and mailbox. -/
def sourceBlock (u : Word) (m : Nat) : BitVec 64 := BitVec.ofNat 64 (u.toNat * 2 ^ 40 + m * 2 ^ 36)

/-- MBRSP to the unit and mailbox that a request came from (R338, R347). -/
def mbrspPacket (u : Word) (m : Nat) (ws : List Word) : Packet := mkPacket 4 u 0 (sourceBlock u m :: wordBlocks ws)

/-- CPYACK of n units with a code to the channel that sent them (R338). -/
def cpyackPacket (own dest : Word) (chan code n : Nat) : Packet :=
  mkPacket 6 dest 0 [BitVec.ofNat 64 (own.toNat * 2 ^ 40 + chan * 2 ^ 37 + code * 2 ^ 34 + n)]

/-- A packet that this device makes goes out on the route to its destination, if there is one. -/
def State.sendTo (s : State) (dest : Word) (p : Packet) : State :=
  match routeLink (s.route dest) with
  | some g => s.linkSend g p
  | none => s

end Sys2Proof.Machine
end

