-- ==== Sys2Proof/Machine/Mailbox.lean ====
section
/-! DEFINITION. Mailboxes: claim, post, release, expiry, sequence numbers, completion, forwarding (10_wardens_mailbox.md,
R252 to R260; R347, R348). What each command does is in Machine/Serve.lean and Machine/Streams.lean. -/

namespace Sys2Proof.Machine

/-- Mailbox m of the state, changed by f. -/
def State.modMbox (s : State) (m : Mbox) (f : MboxSt → MboxSt) : State := { s with mboxes := vmod s.mboxes m f }

/-- PHASE of MBCTL: 0 FREE, 1 CLAIMED, 2 POSTED, 3 SERVICE, 4 DONE. -/
def State.mbPhase (s : State) (m : Mbox) : Nat := s.fget (aMbctl m.val) 23 21
/-- CLAIMANT. -/
def State.mbClaimant (s : State) (m : Mbox) : Nat := s.fget (aMbctl m.val) 20 17

/-- The code of a claimant. -/
def claimCode : Claimant → Nat
  | .host => 1
  | .core k => 2 + k.val
  | .debug => 4
  | .link g => 8 + g.val

/-- A claimant may operate MBCTL now: the host while READY is 1 (R360), the debug master at level 3 (R382). -/
def State.mayClaim (s : State) : Claimant → Bool
  | .host => s.hostReady
  | .debug => decide (3 ≤ s.level)
  | _ => true

/-- The mailbox goes to FREE. -/
def State.mbFree (s : State) (m : Mbox) : State :=
  ((s.fset (aMbctl m.val) 23 17 0).modMbox m fun x => { x with hold := .none, inbound := none, orphan := false })

/-- A claimant as a maker of the writes of one SCLK cycle. -/
def claimWho : Claimant → Nat
  | .host => whoOf .host
  | .core k => whoOf (.core k 0)
  | .debug => whoOf .debug
  | .link g => 48 + g.val

/-- The order of CLAIMs made in one cycle: host, W0, W1, debug master, G0 to G3 (R255). -/
def claimRank : Claimant → Nat
  | .host => 0
  | .core k => 1 + k.val
  | .debug => 3
  | .link g => 4 + g.val

/-- CLAIMs of mailbox m in the present cycle, as the list of the cycle holds them: rank, and the claimant's code. -/
def claimKey (m : Mbox) : Nat := 0x6000000 + m.val
/-- POSTs in the present cycle: the mailbox. -/
def postKey : Nat := 0x5000000

/-- Mailbox m is CLAIMED by code c. -/
def State.claimSet (s : State) (m : Mbox) (c : Nat) : State := (s.fset (aMbctl m.val) 23 21 1).fset (aMbctl m.val) 20 17 c

/-- The mailbox was claimed in the present cycle by one whose CLAIM R255 orders after q's. -/
def State.claimYields (s : State) (q : Claimant) (m : Mbox) : Bool :=
  s.mbPhase m == 1 && !(s.cycNow.any fun x => x.who == (claimWho q)) &&
    s.cycNow.any fun x => x.key == claimKey m && decide (claimRank q < x.rank) && x.value == wd (s.mbClaimant m)

/-- CLAIM (R254): from FREE, or ahead of a later one of the same cycle (R255). -/
def State.mbClaim (s : State) (q : Claimant) (m : Mbox) : State :=
  if s.mayClaim q then
    (if s.mbPhase m = 0 || s.claimYields q m then s.claimSet m (claimCode q) else s).cycNote
      { rank := claimRank q, who := claimWho q, key := claimKey m, value := wd (claimCode q) }
  else s

/-- The order of posting with mailbox m posted now: last, but for higher-numbered ones of the same cycle (R260). -/
def State.postOrder (s : State) (q : Claimant) (m : Mbox) : List Nat :=
  let back := if s.cycNow.any fun x => x.who == (claimWho q) then 0
    else (s.cycNow.filter fun x => x.key == postKey && decide (m.val < x.value.toNat) && s.mbOrder.contains x.value.toNat).length
  let n := s.mbOrder.length - back
  s.mbOrder.take n ++ [m.val] ++ s.mbOrder.drop n

/-- POST (R254, R260). -/
def State.mbPost (s : State) (q : Claimant) (m : Mbox) : State :=
  if s.mayClaim q && s.mbClaimant m == (claimCode q) && (s.mbPhase m == 1 || s.mbPhase m == 4) then
    ({ (s.fset (aMbctl m.val) 23 21 2) with mbOrder := s.postOrder q m } : State).cycNote
      { rank := 0, who := claimWho q, key := postKey, value := wd m.val }
  else s

/-- RELEASE (R254). -/
def State.mbRelease (s : State) (q : Claimant) (m : Mbox) : State :=
  if s.mayClaim q && s.mbClaimant m == (claimCode q) && (s.mbPhase m == 1 || s.mbPhase m == 4) then s.mbFree m else s

/-- A write of MBCTL's OP by a claimant. -/
def State.mbctlPut (s : State) (q : Claimant) (m : Mbox) (v : Word) : State :=
  match fld v 1 0 with
  | 1 => s.mbClaim q m
  | 2 => s.mbPost q m
  | 3 => s.mbRelease q m
  | _ => s

/-- CLAIM (R254). -/
def execClaim (q : Claimant) (m : Mbox) (s : State) : Host.Outcome State Fault Refusal := .next (s.mbClaim q m)

/-- POST (R254). -/
def execPost (q : Claimant) (m : Mbox) (s : State) : Host.Outcome State Fault Refusal := .next (s.mbPost q m)

/-- RELEASE (R254). -/
def execRelease (q : Claimant) (m : Mbox) (s : State) : Host.Outcome State Fault Refusal := .next (s.mbRelease q m)

/-- Core k is halted by the Stile. -/
def State.halted (s : State) (k : Core) : Bool := s.bget (aCore k.val 0) 20

/-- The claimant is a core that is halted, whose cycles do not count (R255, R389). -/
def State.claimantHalted (s : State) (m : Mbox) : Bool :=
  (s.mbClaimant m == 2 && s.halted 0) || (s.mbClaimant m == 3 && s.halted 1)

/-- The first of the CLAIMs that the present cycle has turned away, by the order of R255, now succeeds. -/
def State.claimFirst (s : State) (m : Mbox) : State :=
  match ((List.range 8).flatMap fun k => s.cycNow.filter fun x => x.key == claimKey m && x.rank == k) with
  | x :: _ => s.claimSet m x.value.toNat
  | [] => s

/-- CLAIM_EXPIRY: a mailbox CLAIMED for 2^23 cycles returns to FREE, ahead of the CLAIMs of the same cycle (R255). -/
def execClaimExpiry (m : Mbox) (s : State) : Host.Outcome State Fault Refusal :=
  if s.mbPhase m = 1 && !s.claimantHalted m then .next (((s.mbFree m).evMbox m.val).claimFirst m) else .next s

/-! ### Buffers -/

/-- Word i of the request of mailbox m. -/
def State.reqWord (s : State) (m : Mbox) (i : Nat) : Word := s.rd (aMbbuf m.val i)

/-- A write of word w of mailbox m's buffer is allowed: of the request by its claimant, of the response by Caeruno (R254). -/
def State.mbufOk (s : State) (q : Option Claimant) (m : Mbox) (w : Nat) : Bool :=
  match q with
  | some c =>
    if w < 0x40 then s.mbClaimant m == (claimCode c) && (s.mbPhase m == 1 || s.mbPhase m == 4)
    else match c with
      | .core _ => true
      | _ => false
  | none => false

/-- Word w of the buffer of mailbox m takes a value. -/
def State.mbufPut (s : State) (m : Mbox) (w : Nat) (v : Word) : State :=
  (s.wr (aMbbuf m.val w) v).writeFlip 24 (0x2000 + 0x80 * m.val + w)

/-- The response buffer takes words. -/
def State.putResponse (s : State) (m : Mbox) (ws : List Word) : State :=
  (ws.zipIdx).foldl (fun (t : State) e => t.mbufPut m (0x40 + e.2) e.1) s

/-! ### Completion (R254, R257, R347, R356) -/

/-- Word 0 of a response. -/
def State.rspHead (s : State) (cmd code n : Nat) : Word := wd (cmd * 2 ^ 16 + code * 2 ^ 12 + s.dev.code * 2 ^ 9 + n)

/-- CMD and NARG of mailbox m's request. -/
def State.reqCmd (s : State) (m : Mbox) : Nat := fld (s.reqWord m 0) 23 16
def State.reqNarg (s : State) (m : Mbox) : Nat := fld (s.reqWord m 0) 13 8
/-- The arguments. -/
def State.reqArgs (s : State) (m : Mbox) : List Word := (List.range (s.reqNarg m)).map fun i => s.reqWord m (3 + i)

/-- The response is there: DONE with the mailbox event, FREE for a mailbox whose host has gone, or the reply on the link
that a forwarded request came from. -/
def State.mbDeliver (s : State) (m : Mbox) (ws : List Word) : State :=
  let s1 := (s.putResponse m ws).modMbox m fun x => { x with hold := .none, journal := none }
  match s.mboxes[m].inbound with
  | some i =>
    let back := setNth (setNth ws 1 i.seq) 2 i.dest
    (s1.mbFree m).sendTo (wd i.unit) (mbrspPacket (wd i.unit) i.mbox back)
  | none => (if s.mboxes[m].orphan then s1.mbFree m else s1.fset (aMbctl m.val) 23 21 4).evMbox m.val

/-- The command of mailbox m completes with a code and results; a completion but SEQ is kept for delivery again (R259). -/
def State.mbFinish (s : State) (m : Mbox) (code : Nat) (res : List Word) : State :=
  let ws := [s.rspHead (s.reqCmd m) code res.length, s.reqWord m 1, s.reqWord m 2] ++ res
  let s1 := if code = 5 then s else s.modMbox m fun x => { x with lastRsp := ws }
  s1.mbDeliver m ws

/-- A forwarded command completes with the words that came back (R348). -/
def State.mbFinishRaw (s : State) (m : Mbox) (ws : List Word) : State :=
  (s.modMbox m fun x => { x with lastRsp := ws }).mbDeliver m ws

/-! ### Taking a command into service (R252, R259, R260) -/

/-- The words that a request consists of, but SEQ. -/
def State.reqKey (s : State) (m : Mbox) : List Word := s.reqWord m 0 :: s.reqWord m 2 :: s.reqArgs m

/-- What R259 makes of a request: accepted, the stored response again, or SEQ. -/
inductive SeqCheck where
  | accept | again | refuse
deriving DecidableEq, Repr

/-- The table of R259. -/
def State.seqCheck (s : State) (m : Mbox) : SeqCheck :=
  let x := s.mboxes[m]
  let e := s.rd (aMbseq m.val)
  let q := s.reqWord m 1
  if s.reqCmd m = 3 || !x.isSet then .accept
  else if q = e then .accept
  else if q = e - 1 && x.lastReq == s.reqKey m then .again
  else .refuse

/-- An accepted request: SET, EXP and the copy of the request. -/
def State.seqAccept (s : State) (m : Mbox) : State :=
  (s.wr (aMbseq m.val) (s.reqWord m 1 + 1)).modMbox m fun x => { x with isSet := true, lastReq := s.reqKey m }

/-- ROLE and ALIVE of a core. -/
def State.role (s : State) (k : Core) : Nat := s.fget (aCore k.val 0) 23 22
def State.alive (s : State) (k : Core) : Bool := s.bget (aCore k.val 0) 21

/-- Core k serves a command now, which forwarded ones do not count as, nor a FWRELAY under way, during which the mailboxes are served
(R260, R271, R347; log entry 134). -/
def State.coreBusy (s : State) (k : Core) : Bool :=
  (List.finRange 16).any fun m => s.mbPhase m == 3 && s.bget (aMbctl m.val) 16 == (k.val == 1) && match s.mboxes[m].hold with
    | .forward _ => false
    | .relay => false
    | _ => true

/-- Cores that can take a command: alive, in DUPLEX or SOLO, not halted, not busy, and not W1 about to leave for a relay (R241, R271). -/
def State.servers (s : State) : List Core :=
  (List.finRange 2).filter fun k =>
    s.alive k && (s.role k == 1 || s.role k == 2) && !s.halted k && !s.coreBusy k && !(s.cae.relay == 1 && k == 1)

/-- The journal marks the effect of the command in service in mailbox m as committed (R241). -/
def State.journalCommit (s : State) (m : Mbox) : State := s.modMbox m fun x => { x with journal := some true }

/-- Mailbox m goes into service, with an entry in the journal (R241): on the one core that can take it, on either of two (which is free), or
in the boot ROM. -/
def State.toService (s : State) (m : Mbox) : State :=
  let s0 : State := { s with mbOrder := s.mbOrder.filter (· != m.val) }
  let (core, s1) := match s.servers with
    | [k] => (k.val, s0)
    | [] => (0, s0)
    | _ => let (n, t) := s0.draw; (n % 2, t)
  ((s1.fset (aMbctl m.val) 23 21 3).bset (aMbctl m.val) 16 (core == 1)).modMbox m fun x => { x with journal := some false }

/-- A word of the request buffer is uncorrectable (R283). -/
def State.reqLost (s : State) (m : Mbox) : State × Bool :=
  (List.range 64).foldl (fun (a : State × Bool) i =>
    match a.1.badAt 24 (0x2000 + 0x80 * m.val + i) with
    | none => a
    | some _ =>
      let (t, b) := a.1.readCheck 24 (0x2000 + 0x80 * m.val + i) .clean
      (t, a.2 || b)) (s, false)

/-- The codes of R261. -/
def knownCmd (c : Nat) : Bool :=
  ([0x01, 0x02, 0x03, 0x04, 0x05, 0x06, 0x07, 0x10, 0x11, 0x12, 0x13, 0x14, 0x20, 0x21, 0x22, 0x23, 0x30, 0x31] ++
   [0x40, 0x41, 0x42, 0x43, 0x44, 0x45, 0x46, 0x47, 0x48, 0x50, 0x51, 0x52, 0x53, 0x58, 0x59, 0x60, 0x61, 0x70, 0x71, 0x72, 0x78]).contains c

/-- The mailbox that is served next: the oldest posted, while something can serve it and the cores do not doze (R260, R366). -/
def State.nextMbox (s : State) : Option Nat :=
  if s.asleep || !s.hostReady || (s.servers.isEmpty && !s.romServes) then none else s.mbOrder.head?

/-- A request for another unit (R347): its MBREQ leaves, or it completes at once. -/
def State.forward (s : State) (m : Mbox) : State :=
  let u := s.reqWord m 2
  if !s.foldSet then s.mbFinish m 2 []
  else match routeLink (s.route u) with
    | none => s.mbFinish m 2 []
    | some g =>
      if !s.linkAlive g then s.mbFinish m 7 [2]
      else
        let p := mkPacket 3 u 0 (sourceBlock s.unit m.val :: wordBlocks (s.reqWord m 0 :: s.reqWord m 1 :: u :: s.reqArgs m))
        (s.modMbox m fun x => { x with hold := .forward g }).linkSend g p

/-- What a command's meaning answers: the state, CODE and results; or the mailbox stays in SERVICE. -/
inductive Served where
  | done (s : State) (code : Nat) (res : List Word)
  | held (s : State)

/-- A command with its NARG range, its states and its meaning goes through the checks of R252. -/
def State.checked (s : State) (m : Mbox) (known : Bool) (lo hi : Nat) (legal : State → Bool) (f : State → Served) : State :=
  let n := s.reqNarg m
  if !known || decide (n < lo ∨ hi < n) then s.mbFinish m 2 []
  else if !legal s then s.mbFinish m 8 []
  else match f s with
    | .done t c r => t.dropShadows.mbFinish m c r
    | .held t => t

/-- A step that serves mailbox m, when it is the next and its request is `mine`. A request whose code is unknown is served
by any such step, and completes ARG. -/
def State.serve (s : State) (m : Mbox) (mine : Nat → Word → Bool) (lo hi : Nat) (legal : State → Bool)
    (f : List Word → State → Served) : State :=
  let c := s.reqCmd m
  if s.nextMbox ≠ some m.val || s.mbPhase m ≠ 2 || !(mine c (s.reqWord m 3) || !knownCmd c) then s
  else
    let s1 := s.toService m
    let (s2, lost) := s1.reqLost m
    if lost then s2.mbFinish m 7 []
    else match s2.seqCheck m with
      | .again => s2.mbDeliver m s2.mboxes[m].lastRsp
      | .refuse => s2.mbFinish m 5 [s2.rd (aMbseq m.val)]
      | .accept =>
        let s3 := s2.seqAccept m
        let u := s3.reqWord m 2
        if u ≠ 0 ∧ u ≠ s3.unit then s3.forward m
        else s3.checked m (knownCmd c) lo hi legal fun t => f (t.reqArgs m) t

/-- FORWARD_TIMEOUT: no MBRSP within 1 s (R348). -/
def execForwardTimeout (m : Mbox) (s : State) : Host.Outcome State Fault Refusal :=
  match s.mboxes[m].hold with
  | .forward _ => .next (s.mbFinish m 7 [2])
  | _ => .next s

end Sys2Proof.Machine
end

