-- ==== Sys2Proof/Machine/Golmon.lean ====
section
/-! DEFINITION. Golmon links: training, reception, fold epoch, mailbox forwarding, copies, layer streams, test patterns
(14_golmon_folds.md, R329 to R354). -/

namespace Sys2Proof.Machine

/-! ### Copies and layer streams (R349 to R353) -/

/-- Copy channel n of the state, changed by f. -/
def State.modCopy (s : State) (n : Fin 8) (f : CopySt → CopySt) : State := { s with copies := vmod s.copies n f }

/-- BUSY of CSTAT. -/
def State.copyBusy (s : State) (n : Fin 8) : Bool := s.bget (aCopy n.val 5) 23

/-- Units per copy or row. -/
def State.copyLen (s : State) (n : Fin 8) : Nat := (s.rd (aCopy n.val 4)).toNat + 1

/-- Units from the channel's source and destination to those of the row at hand. -/
def State.copyRow (s : State) (n : Fin 8) : Nat :=
  if s.copies[n].stream then (s.copies[n].rows.head?.getD 0) * s.copyLen n else 0

/-- The channel's destination is this device (R349). -/
def State.copyLocal (s : State) (n : Fin 8) : Bool :=
  s.rd (aCopy n.val 2) == 0 || s.rd (aCopy n.val 2) == s.unit

/-- A copy or stream ends with a code; any but OK raises the link event (R352). -/
def State.copyEnd (s : State) (n : Fin 8) (code : Nat) : State :=
  let s1 := ((s.bset (aCopy n.val 5) 23 false).fset (aCopy n.val 5) 22 20 code).modCopy n fun _ => CopySt.reset
  if code = 0 then s1 else s1.evLink (4 + n.val)

/-- Units are acknowledged. -/
def State.copyAcked (s : State) (n : Fin 8) (k : Nat) : State := s.incN (aCopy n.val 6) 23 0 k

/-- A channel with work may read: it is busy, not stopping, and a stream has a row. -/
def State.copyActive (s : State) (n : Fin 8) : Bool :=
  s.copyBusy n && !s.copies[n].stop && (!s.copies[n].stream || !s.copies[n].rows.isEmpty)

/-- One more source unit is asked for in class 4; at most 512 units are between asking and acknowledgement. -/
def State.copyAskOne (s : State) (n : Fin 8) : State :=
  let x := s.copies[n]
  if !s.copyActive n || decide (s.copyLen n ≤ x.asked) || decide (512 ≤ x.asked - x.next + x.flight.sum) then s
  else
    let u := (s.rd (aCopy n.val 0)).toNat * 64 + s.copyRow n + x.asked
    let s1 := s.modCopy n fun y => { y with asked := y.asked + 1 }
    let (s2, more) := s1.dramAsk (.copy n) u 0 0
    if more then s2 else s2.modCopy n fun y => { y with got := y.got ++ [(u, List.replicate 32 0, false)] }

/-- The units from the next one on that have come, at most k. -/
def gotRun (got : List (Nat × List Byte × Bool)) : Nat → Nat → List (List Byte × Bool)
  | 0, _ => []
  | k + 1, u => match got.find? fun e => e.1 == u with
    | some (_, d, bad) => (d, bad) :: (if bad then [] else gotRun got k (u + 1))
    | none => []

/-- The copy or the row at hand has been sent whole. -/
def State.copySent (s : State) (n : Fin 8) : State :=
  let x := s.copies[n]
  if x.next < s.copyLen n then s
  else if x.stream then s.modCopy n fun y => { y with rows := y.rows.drop 1, asked := 0, next := 0, got := [] }
  else if x.flight.isEmpty then s.copyEnd n 0
  else s

/-- Units data of a copy go to the destination: written here, or sent in one packet (R349, R350, R353). -/
def State.copyPut (s : State) (n : Fin 8) (data : List (List Byte)) : State :=
  let x := s.copies[n]
  let du := (s.rd (aCopy n.val 1)).toNat * 64 + s.copyRow n + x.next
  let k := data.length
  let s1 := s.modCopy n fun y => { y with next := y.next + k }
  if s.copyLocal n then ((s1.queueWrite (.copy n) (32 * du) data.flatten).copyAcked n k).copySent n
  else
    let b0 := BitVec.ofNat 64 (s.unit.toNat * 2 ^ 40 + n.val * 2 ^ 37 + du % 2 ^ 30)
    let body := data.flatten
    let bs := (chunks 8 (body.length / 8) body).map fun c => BitVec.ofNat 64 (ofBytesLE c)
    let u := s.rd (aCopy n.val 2)
    let s2 := (s1.modCopy n fun y => { y with flight := y.flight ++ [k] }).sendTo u (mkPacket (if x.stream then 7 else 5) u 0 (b0 :: bs))
    s2.copySent n

/-- One packet's worth is sent when its units have come: 8, or the last of the copy or row. A poisoned unit is not sent and
ends the copy (R352). -/
def State.copyOne (s : State) (n : Fin 8) : State :=
  let x := s.copies[n]
  let want := min 8 (s.copyLen n - x.next)
  if !s.copyActive n || want == 0 || decide (64 ≤ x.flight.length) then s
  else
    let u := (s.rd (aCopy n.val 0)).toNat * 64 + s.copyRow n + x.next
    let run := gotRun x.got want u
    let good := (run.filter fun e => !e.2).map (·.1)
    if good.length = want then s.copyPut n good
    else if run.any (·.2) then (if good.isEmpty then s else s.copyPut n good).copyEnd n 1
    else s

/-- The channel asks and sends as far as it can. -/
def State.copyPump (s : State) (n : Fin 8) : State :=
  let s1 := (List.range 520).foldl (fun (t : State) _ => t.copyAskOne n) s
  (List.range 65).foldl (fun (t : State) _ => t.copyOne n) s1

/-- A source unit has come for a channel. -/
def State.copyUnit (s : State) (n : Fin 8) (u : Nat) (d : List Byte) (bad : Bool) : State :=
  if s.copyBusy n then (s.modCopy n fun y => { y with got := y.got ++ [(u, d, bad)] }).copyPump n else s

/-- GO of CCMD: a copy starts, or a stream is armed (R349, R353). -/
def State.copyStart (s : State) (n : Fin 8) (stream : Bool) : State :=
  if s.copyBusy n then s
  else
    let s1 := ((s.bset (aCopy n.val 5) 23 true).fset (aCopy n.val 5) 22 20 0).wr (aCopy n.val 6) 0
    let s2 := s1.modCopy n fun _ => { CopySt.reset with stream := stream }
    let live := s.copyLocal n || (s.foldSet && match routeLink (s.route (s.rd (aCopy n.val 2))) with
      | some g => s.linkAlive g
      | none => false)
    if !live then s2.copyEnd n 3 else if stream then s2 else s2.copyPump n

/-- STOP of CCMD (R352): the copy or stream ends after the packets in flight. -/
def State.copyHalt (s : State) (n : Fin 8) : State :=
  if !s.copyBusy n then s
  else if s.copies[n].flight.isEmpty then s.copyEnd n 4
  else s.modCopy n fun y => { y with stop := true }

/-- A write of CCMD. -/
def State.ccmdPut (s : State) (n : Fin 8) (v : Word) : State :=
  let s1 := s.put (aCopy n.val 3) v
  let s2 := if bit v 18 then s1.copyHalt n else s1
  if bit v 23 then s2.copyStart n (bit v 22) else s2

/-- A LINE strobe of head h at beam line b: each stream that h paces takes its row (R353). -/
def State.streamStrobe (s : State) (h : Head) (b : Nat) : State :=
  (List.finRange 8).foldl (fun (t : State) n =>
    let c := t.rd (aCopy n.val 3)
    let r := s.raster h.val
    let row := (b + fld c 11 0) % max 1 r.vtotal
    if !(t.copyBusy n && t.copies[n].stream) || t.copies[n].stop || fld c 21 19 != h.val || decide (r.vact ≤ row) then t
    else if 2 ≤ t.copies[n].rows.length then t.inc (aCopy n.val 5) 19 8
    else (t.modCopy n fun y => { y with rows := y.rows ++ [row] }).copyPump n) s

/-- A stop of head h ends the streams it paces (R353). -/
def State.streamStop (s : State) (h : Head) : State :=
  (List.finRange 8).foldl (fun (t : State) n =>
    if t.copyBusy n && t.copies[n].stream && t.fget (aCopy n.val 3) 21 19 == h.val then t.copyEnd n 0 else t) s

/-- A write of CCMD with GO 1, STOP 0 and STRM as given, the channel's other fields as they stand. -/
def State.ccmdGo (s : State) (n : Fin 8) (strm : Bool) : State :=
  s.ccmdPut n (putBit (putBit (putBit (s.rd (aCopy n.val 3)) 23 true) 22 strm) 18 false)

/-- COPY_GO (R349): GO with STRM 0. -/
def execCopyGo (r : Requester) (n : Fin 8) (s : State) : Host.Outcome State Fault Refusal :=
  .next (s.gated r (aCopy n.val 3) fun t => t.ccmdGo n false)

/-- COPY_STOP (R352). -/
def execCopyStop (r : Requester) (n : Fin 8) (s : State) : Host.Outcome State Fault Refusal :=
  .next (s.gated r (aCopy n.val 3) fun t => t.copyHalt n)

/-- STREAM_ARM (R353): GO with STRM 1. -/
def execStreamArm (r : Requester) (n : Fin 8) (s : State) : Host.Outcome State Fault Refusal :=
  .next (s.gated r (aCopy n.val 3) fun t => t.ccmdGo n true)

/-! ### Fold epoch state (R343, R345) -/

/-- This device is the top root of a fold. -/
def State.topRoot (s : State) : Bool := s.foldSet && s.unit == 0

/-- The PARENT link is UP. -/
def State.parentUp (s : State) : Bool :=
  match routeLink s.parent with
  | some g => s.isUp g
  | none => false

/-- EPLOCK and EPVALID follow; a fall of EPVALID is counted and raises the fold event (R343, R345). -/
def State.foldTrack (s : State) : State :=
  let s1 := if s.bget (aFold 2) 22 && (s.topRoot || !s.foldSet || !s.parentUp) then
      ({ s with fold := { s.fold with good := 0 } } : State).bset (aFold 2) 22 false
    else s
  let v := s1.foldSet && (s1.topRoot || s1.bget (aFold 2) 22) && s1.fold.has
  let was := s1.bget (aFold 2) 23
  let s2 := s1.bset (aFold 2) 23 v
  if was && !v then (s2.inc (aFold 6) 15 8).evFold else s2

/-! ### Link states (R332 to R335) -/

/-- Code of a width: 0, or 1, 2, 3 for 1, 2, 4 lanes: the largest not above n. -/
def widthCode (n : Nat) : Nat := if 4 ≤ n then 3 else if 2 ≤ n then 2 else if 1 ≤ n then 1 else 0

/-- Bits set in a nibble. -/
def count4 (m : BitVec 4) : Nat := ((List.range 4).filter fun i => m.getLsbD i).length

/-- Logical receive lanes that are good: RXGOOD as this end reports it. -/
def LinkSt.rxGood (x : LinkSt) : BitVec 4 :=
  x.lanes.toList.foldl (fun m l => match l.num with
    | some n => if l.lock && !l.bad then m ||| (1 <<< n) else m
    | none => m) 0

/-- Every lane is known to be good or bad. -/
def LinkSt.decided (x : LinkSt) : Bool := x.lanes.toList.all fun l => l.bad || (l.lock && l.num.isSome)

/-- A link changes state; NBRINFO.VALID follows. -/
def State.linkSet (s : State) (g : Link) (st : Nat) : State :=
  (s.fset (aLink g.val 1) 23 21 st).bset (aLink g.val 3) 23 (st == 2)

/-- A link enters TRAIN: widths, rate, inversions and order unknown again. No link starts while the lock is open (R394). -/
def State.linkTrain (s : State) (g : Link) : State :=
  if !s.fuses.flock then s
  else
  let s1 := ((s.linkSet g 1).fset (aLink g.val 1) 20 10 0).fset (aLink g.val 1) 5 2 0
  (s1.modLink g fun x =>
    { x with
      lanes := Vector.replicate 4 { lock := false, num := none, bad := false, synced := false }
      peerGood := 0, peerReady := false, ready := false }).foldTrack

/-- A link retrains, keeping its retry buffer and held packets (R335). -/
def State.linkRetrain (s : State) (g : Link) : State := (s.inc (aLink g.val 5) 7 0).linkTrain g

/-- What going DOWN does beyond the link: mailboxes, forwarded commands, copies (R255, R335, R348, R352). -/
def State.linkLost (s : State) (g : Link) : State :=
  s.raisedOnce 41 <|
  let s1 := (List.finRange 16).foldl (fun (t : State) m =>
    if t.mbPhase m != 0 && t.mbClaimant m == 8 + g.val then
      { (t.mbFree m) with mbOrder := t.mbOrder.filter (· != m.val) }
    else match t.mboxes[m].hold with
      | .forward l => if l = g then t.mbFinish m 7 [2] else t
      | _ => t) s
  (List.finRange 8).foldl (fun (t : State) n =>
    if t.copyBusy n && !t.copyLocal n && t.route (t.rd (aCopy n.val 2)) == g.val then t.copyEnd n 3 else t) s1

/-- Packets and lanes of a link that leaves service are discarded. -/
def State.linkClear (s : State) (g : Link) : State :=
  s.modLink g fun x => { LinkSt.reset with sent := x.sent, aligns := x.aligns, wire := x.wire, runs := x.runs }

/-- A link goes DOWN (R335). -/
def State.linkDown (s : State) (g : Link) : State :=
  let s1 := ((s.linkSet g 0).fset (aLink g.val 1) 20 17 0).inc (aLink g.val 6) 23 16
  s.raisedOnce 41 ((((s1.linkClear g).linkLost g).foldTrack).evLink g.val)

/-- FAULT with its reason (R333). -/
def State.linkFault (s : State) (g : Link) (code : Nat) : State :=
  (((s.linkSet g 4).fset (aLink g.val 1) 5 2 code).foldTrack).evLink g.val

/-- The lanes of a direction: as many as the width allows, the lowest-numbered good ones (R333). -/
def lanesOf (good : BitVec 4) : List Nat :=
  ((List.range 4).filter fun l => good.getLsbD l).take (nth 0 [0, 1, 2, 4] (widthCode (count4 good)))

/-- UP: widths, lanes, rate, and traffic resumes. -/
def State.linkUpNow (s : State) (g : Link) : State :=
  let x := s.links[g]
  let rate := min (s.fget (aLink g.val 0) 22 21) x.peerRate
  let s1 := (((s.linkSet g 2).fset (aLink g.val 1) 20 19 (widthCode (count4 x.peerGood))).fset (aLink g.val 1) 18 17
    (widthCode (count4 x.rxGood))).fset (aLink g.val 1) 16 15 rate
  (((s1.modLink g fun y => { y with txLanes := lanesOf x.peerGood }).pump g).foldTrack).evLink g.val

/-- The neighbour's unit address is this device's own while both take part in a fold. A neighbour that reports 0 is taken to
take no part (log entry 14). -/
def State.unitClash (s : State) (g : Link) : Bool :=
  s.foldSet && s.unit != 0 && s.links[g].peerUnit == s.unit

/-- A training link whose lanes are decided sends READY, and is UP or in FAULT once the neighbour has too (R333). -/
def State.linkDecide (s : State) (g : Link) : State :=
  let x := s.links[g]
  if s.linkState g ≠ 1 || !x.decided then s
  else
    let s1 := s.modLink g fun y => { y with ready := true }
    if x.rxGood = 0 then s1.linkFault g 3
    else if !x.peerReady then s1
    else if s1.unitClash g then s1.linkFault g 1
    else if x.peerLvl ≠ s1.fget (aLink g.val 0) 17 16 then s1.linkFault g 2
    else if x.peerGood = 0 then s1.linkFault g 3
    else s1.linkUpNow g

/-- Byte i of a block. -/
def blkByte (b : BitVec 64) (i : Nat) : Nat := blk b (8 * i + 7) (8 * i)

/-- A lane takes its logical number: a duplicate of another lane's is bad (R333). -/
def LinkSt.number (x : LinkSt) (l : Fin 4) (n : Nat) : LinkSt :=
  let dup := (List.finRange 4).any fun k => k != l && x.lanes[k].num == some n && !x.lanes[k].bad
  { x with lanes := vmod x.lanes l fun y => { y with num := some n, bad := y.bad || dup } }

/-- REV: every numbered lane carries logical lane 3 − n. -/
def LinkSt.reversed (x : LinkSt) : Bool :=
  (List.finRange 4).all (fun l => match x.lanes[l].num with | some n => n == 3 - l.val | none => true) &&
    (List.finRange 4).any fun l => x.lanes[l].num.isSome

/-- TS: a training block on receive lane l (R332, R333). A lane found inverted stays so until the next training. In UP, an excluded lane is numbered and nothing is decided. -/
def State.tsBlock (s : State) (g : Link) (l : Fin 4) (b0 : BitVec 64) : State :=
  let inv := blkByte b0 0 == 0xB4
  let b := if inv then ~~~b0 else b0
  if !s.linkAlive g || !s.links[g].lanes[l].lock || s.links[g].lanes[l].bad || blkByte b 0 != 0x4B then s
  else
    let s1 := s.modLink g fun x => x.number l (blk b 9 8)
    if s.linkState g ≠ 1 then s1
    else
      let s2 := s1.modLink g fun x =>
        { x with
          peerGood := BitVec.ofNat 4 (blk b 19 16), peerReady := blk b 20 20 == 1, peerRate := blk b 13 12
          peerUnit := wd (blk b 47 24), peerLvl := blk b 49 48 }
      let s3 := (if inv then s2.bset (aLink g.val 1) (11 + l.val) true else s2).bset (aLink g.val 1) 10 s2.links[g].reversed
      let s4 := (s3.wr (aLink g.val 2) (wd (blk b 47 24))).fset (aLink g.val 3) 22 21 (blk b 11 10)
      s4.linkDecide g

/-- TS (R332, R333). -/
def execTs (g : Link) (l : Fin 4) (blk : BitVec 64) (s : State) : Host.Outcome State Fault Refusal :=
  .next (s.tsBlock g l blk)

/-- ALIGN: an ALIGN block deskews its lane and reports RXGOOD (R331, R335). -/
def execAlign (g : Link) (l : Fin 4) (blk : BitVec 64) (s : State) : Host.Outcome State Fault Refusal :=
  if s.isUp g && blkByte blk 0 == 0x78 && s.links[g].lanes[l].num == some (nbits blk.toNat 9 8) then
    .next (s.modLink g fun x =>
      { x with peerGood := BitVec.ofNat 4 (nbits blk.toNat 19 16), lanes := vmod x.lanes l fun y => { y with synced := true } })
  else .next s

/-- ALIGN_SEND: every lane sends ALIGN in one block slot (R331). -/
def execAlignSend (g : Link) (s : State) : Host.Outcome State Fault Refusal :=
  if s.isUp g then .next (s.modLink g fun x => x.carryAlign x.rxGood) else .next s

/-- IDLE: an IDLE block carries nothing (R331). -/
def execIdle (_g : Link) (_blk : BitVec 64) (s : State) : Host.Outcome State Fault Refusal := .next s

/-- BLOCK_LOCK (R333). -/
def execBlockLock (g : Link) (l : Fin 4) (s : State) : Host.Outcome State Fault Refusal :=
  if s.linkAlive g then .next (s.modLink g fun x => { x with lanes := vmod x.lanes l fun y => { y with lock := true } })
  else .next s

/-- LANE_LOCK_TIMEOUT: lanes without lock 1 ms after TRAIN started are bad (R333). -/
def execLaneLockTimeout (g : Link) (s : State) : Host.Outcome State Fault Refusal :=
  if s.linkState g = 1 then
    .next ((s.modLink g fun x => { x with lanes := x.lanes.map fun l => if l.lock then l else { l with bad := true } }).linkDecide g)
  else .next s

/-- TRAIN_TIMEOUT: TRAIN has not reached UP within 100 ms (R335). -/
def execTrainTimeout (g : Link) (s : State) : Host.Outcome State Fault Refusal :=
  if s.linkState g = 1 then .next (s.linkDown g) else .next s

/-- TRAIN_RETRY: a DOWN link with EN = 1 tries again (R335). -/
def execTrainRetry (g : Link) (s : State) : Host.Outcome State Fault Refusal :=
  if s.linkState g = 0 && s.bget (aLink g.val 0) 23 then .next (s.linkTrain g) else .next s

/-- TX_SHORT: a transmit driver is shut down, and the link retrains (R334). -/
def execTxShort (g : Link) (l : Fin 4) (s : State) : Host.Outcome State Fault Refusal :=
  if s.linkState g = 0 || s.bget (aLink g.val 1) (6 + l.val) then .next s
  else
    let s1 := s.bset (aLink g.val 1) (6 + l.val) true
    .next (if s.linkAlive g then s1.linkRetrain g else s1)

/-- SHORT_RETEST: a shut driver has been enabled for 10 µs (R335). -/
def execShortRetest (g : Link) (l : Fin 4) (short : Bool) (s : State) : Host.Outcome State Fault Refusal :=
  if short then .next s else .next (s.bset (aLink g.val 1) (6 + l.val) false)

/-- LANE_RECOVERY: an excluded lane has been good for 3 s, and the link retrains (R335). -/
def execLaneRecovery (g : Link) (s : State) : Host.Outcome State Fault Refusal :=
  let x := s.links[g]
  if s.isUp g && (decide (s.fget (aLink g.val 1) 18 17 < widthCode (count4 x.rxGood)) ||
      decide (s.fget (aLink g.val 1) 20 19 < widthCode (count4 x.peerGood))) then .next (s.linkRetrain g)
  else .next s

/-! ### Link registers (R339, R354) -/

/-- The two taps of a test pattern, and whether O.150 inverts its output: all but PRBS7 (log entry 137). -/
def prbsTaps (k : Nat) : Nat × Nat × Bool :=
  match k with
  | 1 => (7, 6, false)
  | 2 => (15, 14, true)
  | 3 => (23, 18, true)
  | _ => (31, 28, true)

/-- The bit that a lane in TEST sends after the bits `past`, newest first (R354). -/
def prbsNext (k : Nat) (past : List Bool) : Bool :=
  let (a, b, inv) := prbsTaps k
  (nth false past (a - 1) != nth false past (b - 1)) != inv

/-- A checker that is in step counts the bit as an error: PRBS_BIT_ERROR comes (R354). -/
def prbsWrong (k : Nat) (past : List Bool) (b : Bool) : Bool := b != prbsNext k past

/-- A non-zero PRBS takes the link into TEST, with the effects of going DOWN (R354). -/
def State.prbsOn (s : State) (g : Link) (k : Nat) : State :=
  let s1 := s.fset (aLink g.val 0) 20 18 k
  if s.linkState g = 0 ∨ s.linkState g = 2 then
    ((((s1.linkSet g 3).fset (aLink g.val 1) 20 17 0).linkClear g).linkLost g).foldTrack
  else s1

/-- PRBS 0 returns the link to TRAIN, or to DOWN with EN 0 (log entry 15). -/
def State.prbsOff (s : State) (g : Link) : State :=
  let s1 := s.fset (aLink g.val 0) 20 18 0
  if s.linkState g ≠ 3 then s1 else if s.bget (aLink g.val 0) 23 then s1.linkTrain g else s1.linkDown g

/-- PRBS is written: values above 0b100 leave it. -/
def State.prbsPut (s : State) (g : Link) (k : Nat) : State :=
  if 4 < k then s else if k = 0 then s.prbsOff g else s.prbsOn g k

/-- EN is written. -/
def State.linkEnPut (s : State) (g : Link) (on : Bool) : State :=
  let was := s.bget (aLink g.val 0) 23
  let s1 := s.bset (aLink g.val 0) 23 on
  if on && !was then (if s.linkState g = 0 then s1.linkTrain g else s1)
  else if !on && was && s.linkState g != 0 && s.linkState g != 3 then s1.linkDown g
  else s1

/-- A write of LKCTL: RATE and LVL keep while EN is 1, RATE on 0b11 (R339). -/
def State.lkctlPut (s : State) (g : Link) (v : Word) : State :=
  let a := aLink g.val 0
  let s1 := if s.bget a 23 then s else (if fld v 22 21 = 3 then s else s.fset a 22 21 (fld v 22 21)).fset a 17 16 (fld v 17 16)
  let s2 := s1.linkEnPut g (bit v 23)
  if fld v 20 18 = s.fget a 20 18 then s2 else s2.prbsPut g (fld v 20 18)

/-- LINK_ENABLE: EN written 1 (R332). -/
def execLinkEnable (r : Requester) (g : Link) (s : State) : Host.Outcome State Fault Refusal :=
  .next (s.gated r (aLink g.val 0) fun t => t.linkEnPut g true)

/-- LINK_DISABLE: EN written 0 (R335). -/
def execLinkDisable (r : Requester) (g : Link) (s : State) : Host.Outcome State Fault Refusal :=
  .next (s.gated r (aLink g.val 0) fun t => t.linkEnPut g false)

/-- PRBS_TEST: a non-zero PRBS (R354). -/
def execPrbsTest (r : Requester) (g : Link) (v : Fin 8) (s : State) : Host.Outcome State Fault Refusal :=
  if v.val = 0 then .next s else .next (s.gated r (aLink g.val 0) fun t => t.prbsPut g v.val)

/-- PRBS_STOP: PRBS written 0 (R354). -/
def execPrbsStop (r : Requester) (g : Link) (s : State) : Host.Outcome State Fault Refusal :=
  .next (s.gated r (aLink g.val 0) fun t => t.prbsPut g 0)

/-- PRBS_BIT_ERROR: a checker counts a bit error (R354). -/
def execPrbsBitError (g : Link) (l : Fin 4) (s : State) : Host.Outcome State Fault Refusal :=
  if s.linkState g = 3 then .next (s.inc (aLink g.val (8 + l.val)) 23 0) else .next s

/-! ### Reception (R337, R338) -/

/-- A packet's LEN lies in its type's range. -/
def lenOk (p : Packet) : Bool :=
  let n := pktLen p
  match pktType p with
  | 1 => n == 2
  | 2 => n == 1 || n == 3
  | 3 => decide (1 ≤ n ∧ n ≤ 25)
  | 4 => decide (1 ≤ n ∧ n ≤ 25)
  | 5 => decide (5 ≤ n ∧ n ≤ 33)
  | 6 => n == 1
  | 7 => decide (5 ≤ n ∧ n ≤ 33)
  | 8 => n == 0
  | _ => false

/-- The packets that an ACKSEQ acknowledges leave the retry buffer. -/
def LinkSt.acked (x : LinkSt) (q : Nat) : LinkSt :=
  match x.retry.findIdx? fun u => pktSeq u.pkt == q with
  | some i => { x with retry := x.retry.drop (i + 1) }
  | none => x

/-- Every packet still in the retry buffer is sent again. -/
def LinkSt.resend (x : LinkSt) : LinkSt :=
  let again := x.retry.map fun u => { pkt := x.seal u.pkt, resent := u.resent + 1 }
  { x.carry (again.map (·.pkt)) with retry := again, sent := x.sent ++ again.map (·.pkt) }

/-- The tail of a good packet: acknowledgement, and a NAK's resends, of which eight of one packet make the link retrain. -/
def State.tailIn (s : State) (g : Link) (p : Packet) : State :=
  let s1 := if blk p.tail 19 19 = 1 then s.modLink g fun x => x.acked (blk p.tail 31 20) else s
  let s2 := if blk p.tail 18 18 = 1 then
      (s1.modLink g fun x => x.resend).incN (aLink g.val 5) 15 8 s1.links[g].retry.length
    else s1
  let s3 := s2.pump g
  if s3.links[g].retry.any fun u => decide (8 ≤ u.resent) then
    (s3.modLink g fun x => { x with retry := x.retry.map fun u => { u with resent := 0 } }).linkRetrain g
  else s3

/-- A packet at the receiver (R337): discarded and counted when its CRC fails or its SEQ is not the one expected. The answer
says whether it is good. -/
def State.linkReceive (s : State) (g : Link) (p : Packet) : State × Bool :=
  let x := s.links[g]
  if p.pay.length = pktLen p ∧ (pktCrc p).toNat = blk p.tail 63 32 ∧ pktSeq p = x.rxSeq then
    let s1 := s.modLink g fun y => { y with rxSeq := (y.rxSeq + 1) % 4096, gotAny := true, nakked := false, ackDue := true }
    (s1.tailIn g p, true)
  else
    ((s.inc (aLink g.val 5) 23 16).modLink g fun y => { y with nakDue := y.nakDue || !y.nakked, nakked := true }, false)

/-- A packet that cannot be routed, or is no packet of R338, is counted. -/
def State.noRoute (s : State) : State := s.inc (aFold 6) 23 16

/-- A packet that a command says has come on link g, of type t: what is no packet of R338 is discarded; a good one is handled
by f (R338). -/
def State.packetIn (s : State) (g : Link) (p : Packet) (t : Nat) (f : State → State) : State :=
  let odd := !lenOk p
  if !s.isUp g || (!odd && pktType p != t) then s
  else
    let (s1, ok) := s.linkReceive g p
    if !ok then s1 else if odd then s1.noRoute else f s1

/-- A packet for DEST: handled here, forwarded, or discarded and answered (R338, R340). -/
def State.deliver (s : State) (p : Packet) (here : State → State) (lost : State → State) : State :=
  if !s.foldSet then lost s.noRoute
  else match s.route (pktDest p) with
    | 4 => here s
    | r => match routeLink r with
      | some l => s.linkSend l { p with tail := 0 }
      | none => lost s.noRoute

/-- Block i of a payload. -/
def payBlk (p : Packet) (i : Nat) : BitVec 64 := nth 0 p.pay i
/-- The unit that block 0 names as the source. -/
def payUnit (p : Packet) : Word := wd (blk (payBlk p 0) 63 40)

/-! ### Fold time and epoch (R343 to R345) -/

/-- EPOCH is sent on every UP link but one. -/
def State.sendEpoch (s : State) (but : Option Link) (e t : BitVec 48) : State :=
  (List.finRange 4).foldl (fun (u : State) g =>
    if u.isUp g && but != some g then u.linkSend g (mkPacket 1 0 0 [e.setWidth 64, t.setWidth 64]) else u) s

/-- A packet that only a fold takes part in: with SET 0 it is discarded and counted (R340). -/
def State.inFold (s : State) (f : State → State) : State := if s.foldSet then f s else s.noRoute

/-- EPOCH from the PARENT link is accepted and forwarded (R345). -/
def State.epochIn (s : State) (g : Link) (p : Packet) : State :=
  if !s.foldSet || s.topRoot || s.parent != g.val then s
  else
    let e := (payBlk p 0).setWidth 48
    let t := (payBlk p 1).setWidth 48
    let s1 : State := { s with fold := { s.fold with epoch := e, at48 := t, has := true } }
    (s1.foldTrack).sendEpoch (some g) e t

/-- EPOCH (R345). -/
def execEpoch (g : Link) (pkt : Packet) (s : State) : Host.Outcome State Fault Refusal :=
  .next (s.packetIn g pkt 1 fun t => t.inFold fun u => u.epochIn g pkt)

/-- A FRAME strobe of EPHEAD at the top root, beginning epoch e (R345). -/
def State.epochSource (s : State) (h : Head) (e : BitVec 48) : State :=
  if !s.topRoot || !s.bget (aFold 1) 22 || s.fget (aFold 1) 21 19 != h.val then s
  else if s.syncMode h.val = 3 && s.bget (aHead h.val 0) 16 then s.evFold
  else
    let now := BitVec.ofNat 48 s.fold.time
    let s1 : State := { s with fold := { s.fold with lastT := some now } }
    match s.fold.lastT with
    | none => s1
    | some old =>
      let t := now + (now - old)
      let s2 : State := { s1 with fold := { s1.fold with epoch := e + 1, at48 := t, has := true } }
      (s2.foldTrack).sendEpoch none (e + 1) t

/-- EPOCH_TIMEOUT: two frame periods of EPHEAD without an EPOCH (R345). -/
def execEpochTimeout (s : State) : Host.Outcome State Fault Refusal :=
  .next ({ s with fold := { s.fold with has := false, lastT := none } } : State).foldTrack

/-- TSYNC_REQUEST: a member asks its parent (R343). -/
def execTsyncRequest (s : State) : Host.Outcome State Fault Refusal :=
  if !s.foldSet || s.topRoot then .next s
  else match routeLink s.parent with
    | none => .next s
    | some g =>
      if s.isUp g then
        let t := BitVec.ofNat 48 s.fold.time
        .next (({ s with fold := { s.fold with t1 := some t } } : State).linkSend g (mkPacket 2 0 0 [t.setWidth 64]))
      else .next s

/-- a − b over the nearer half range of 48 bits. -/
def diff48 (a b : Nat) : Int := sext 48 ((a % 2 ^ 48 + 2 ^ 48 - b % 2 ^ 48) % 2 ^ 48)

/-- A TSYNC answer from the parent (R343). A half unit of 62.5 ps is dropped toward the lower value (log entry 16); the rate adjustment
is a free value (log entry 62). -/
def State.tsyncAnswer (s : State) (g : Link) (p : Packet) : State :=
  match s.fold.t1 with
  | none => s
  | some t1 =>
    if (payBlk p 0).setWidth 48 ≠ t1 ∨ s.parent ≠ g.val then s
    else
      let t2 := (payBlk p 1).toNat % 2 ^ 48
      let t3 := (payBlk p 2).toNat % 2 ^ 48
      let t4 := s.fold.time
      let off := (diff48 t2 t1.toNat - diff48 t4 t3) / 2
      let lat := (diff48 t4 t1.toNat - diff48 t3 t2) / 2
      let good := if off.natAbs ≤ 16 then min 16 (s.fold.good + 1) else 0
      let (n, sd) := s.draw
      let s1 : State := { sd with fold := { s.fold with
        t1 := none, good := good, time := umod 48 ((t4 : Int) + clampI (-16) 16 off), rate := sext 32 n } }
      let s2 := (s1.wr (aFold 5) (wd (umod 24 (clampI (-8388608) 8388607 off)))).wr (aLink g.val 4) (wd (clampI 0 0xFFFFFF lat).toNat)
      let lock := if 64 < off.natAbs then false else s.bget (aFold 2) 22 || good == 16
      (s2.bset (aFold 2) 22 lock).foldTrack

/-- TSYNC: a request is answered, an answer disciplines the count (R343). -/
def State.tsyncIn (s : State) (g : Link) (p : Packet) : State :=
  if pktAux p % 2 = 0 then
    let now := BitVec.ofNat 64 s.fold.time
    s.linkSend g (mkPacket 2 0 1 [payBlk p 0, now, now])
  else s.tsyncAnswer g p

/-- TSYNC (R343). -/
def execTsync (g : Link) (pkt : Packet) (s : State) : Host.Outcome State Fault Refusal :=
  .next (s.packetIn g pkt 2 fun t => t.inFold fun u => u.tsyncIn g pkt)

/-! ### Mailbox forwarding (R347, R348) -/

/-- The words of a request or response packet, from its own length field. -/
def pktWords (p : Packet) (n : Word → Nat) : List Word :=
  let ws := blockWords (p.pay.drop 1)
  ws.take (3 + n (nth 0 ws 0))

/-- A forwarded request arrives at its destination: the lowest FREE mailbox takes it, or it is answered BUSY (R347, R348). -/
def State.mbreqHere (s : State) (g : Link) (p : Packet) : State :=
  let ws := pktWords p fun w => fld w 13 8
  let src := payUnit p
  let sm := blk (payBlk p 0) 39 36
  match (List.finRange 16).find? fun m => s.mbPhase m == 0 with
  | none => s.sendTo src (mbrspPacket src sm [s.rspHead (fld (nth 0 ws 0) 23 16) 1 0, nth 0 ws 1, nth 0 ws 2])
  | some m =>
    let s1 := (s.mbClaim (.link g) m).modMbox m fun x =>
      { x with inbound := some { unit := src.toNat, mbox := sm, seq := nth 0 ws 1, dest := nth 0 ws 2, link := g.val } }
    let body := setNth (setNth ws 1 (s1.rd (aMbseq m.val))) 2 0
    ((body.zipIdx).foldl (fun (t : State) e => t.mbufPut m e.2 e.1) s1).mbPost (.link g) m

/-- MBREQ (R347). -/
def execMbreq (g : Link) (pkt : Packet) (s : State) : Host.Outcome State Fault Refusal :=
  .next (s.packetIn g pkt 3 fun t =>
    t.deliver pkt (fun u => u.mbreqHere g pkt) fun u =>
      let ws := pktWords pkt fun w => fld w 13 8
      u.sendTo (payUnit pkt) (mbrspPacket (payUnit pkt) (blk (payBlk pkt 0) 39 36)
        [u.rspHead (fld (nth 0 ws 0) 23 16) 7 1, nth 0 ws 1, nth 0 ws 2, 0]))

/-- A response arrives at the device that holds the mailbox (R348). -/
def State.mbrspHere (s : State) (p : Packet) : State :=
  let ws := pktWords p fun w => fld w 5 0
  let m : Mbox := Fin.ofNat 16 (blk (payBlk p 0) 39 36)
  match s.mboxes[m].hold with
  | .forward _ => if nth 0 ws 1 = s.reqWord m 1 then s.mbFinishRaw m ws else s
  | _ => s

/-- MBRSP (R348). -/
def execMbrsp (g : Link) (pkt : Packet) (s : State) : Host.Outcome State Fault Refusal :=
  .next (s.packetIn g pkt 4 fun t => t.deliver pkt (fun u => u.mbrspHere pkt) fun u => u)

/-! ### Inbound copies (R350 to R353) -/

/-- Units of a data packet. -/
def pktUnits (p : Packet) : Nat := (pktLen p - 1) / 4

/-- Every unit of the packet lies in the inbound window (R351). -/
def State.inWindow (s : State) (u n : Nat) : Bool :=
  s.bget (aFold 8) 0 && decide (s.fget (aFold 8) 23 9 * 2 ^ 20 ≤ 32 * u ∧ 32 * (u + n) ≤ (s.fget (aFold 9) 23 9 + 1) * 2 ^ 20)

/-- A data packet at its destination: written and acknowledged, or refused. -/
def State.dataHere (s : State) (g : Link) (p : Packet) : State :=
  let u := blk (payBlk p 0) 29 0
  let n := pktUnits p
  let src := payUnit p
  let ack := fun (t : State) code => t.sendTo src (cpyackPacket t.unit src (pktChan p) code n)
  if s.inWindow u n then
    ack (s.queueWrite (.inbound g) (32 * u) (((p.pay.drop 1).take (4 * n)).map fun b => bytesLE 8 b.toNat).flatten) 0
  else ack s 2

/-- A data packet that cannot be routed is answered LINK (R340, R352). -/
def State.dataLost (s : State) (p : Packet) : State :=
  s.sendTo (payUnit p) (cpyackPacket s.unit (payUnit p) (pktChan p) 3 (pktUnits p))

/-- CPYDATA (R350, R351). -/
def execCpydata (g : Link) (pkt : Packet) (s : State) : Host.Outcome State Fault Refusal :=
  .next (s.packetIn g pkt 5 fun t => t.deliver pkt (fun u => u.dataHere g pkt) fun u => u.dataLost pkt)

/-- STRDATA: as CPYDATA (R353). -/
def execStrdata (g : Link) (pkt : Packet) (s : State) : Host.Outcome State Fault Refusal :=
  .next (s.packetIn g pkt 7 fun t => t.deliver pkt (fun u => u.dataHere g pkt) fun u => u.dataLost pkt)

/-- An acknowledgement reaches its channel (R352). -/
def State.cpyackHere (s : State) (p : Packet) : State :=
  let n : Fin 8 := Fin.ofNat 8 (blk (payBlk p 0) 39 37)
  let code := blk (payBlk p 0) 36 34
  if !s.copyBusy n || s.copies[n].flight.isEmpty then s
  else if code ≠ 0 then s.copyEnd n code
  else
    let s1 := (s.copyAcked n (blk (payBlk p 0) 3 0)).modCopy n fun y => { y with flight := y.flight.drop 1 }
    if s1.copies[n].stop && s1.copies[n].flight.isEmpty then s1.copyEnd n 4 else (s1.copyPump n).copySent n

/-- CPYACK (R352). -/
def execCpyack (g : Link) (pkt : Packet) (s : State) : Host.Outcome State Fault Refusal :=
  .next (s.packetIn g pkt 6 fun t => t.deliver pkt (fun u => u.cpyackHere pkt) fun u => u)

/-- ACK: the packet is its tail (R337). -/
def execAck (g : Link) (pkt : Packet) (s : State) : Host.Outcome State Fault Refusal :=
  .next (s.packetIn g pkt 8 fun t => t)

/-- ACK_DUE: an end that owes an acknowledgement or a NAK sends it in an ACK packet (R337). -/
def execAckDue (g : Link) (s : State) : Host.Outcome State Fault Refusal :=
  if s.isUp g then .next (s.linkSend g (mkPacket 8 0 0 [])) else .next s

/-! ### Fold registers (R342) -/

/-- A write of a fold register: FOLDUNIT keeps while SET is 1. -/
def State.foldPut (s : State) (off : Nat) (v : Word) : State :=
  match off with
  | 0 => if s.foldSet then s else s.put (aFold 0) v
  | 1 => (s.put (aFold 1) v).foldTrack
  | o => s.put (aFold o) v

/-- FTIMEL is read: the requester's shadow takes the fold time's bits [47:24]. -/
def State.ftimelTake (s : State) (r : Requester) : Word × State :=
  (wd s.fold.time, s.setShadow r (aFold 4) (wd (s.fold.time / 2 ^ 24)))

/-- FTIMEL_READ (R342). -/
def execFtimelRead (r : Requester) (s : State) : Host.Outcome State Fault Refusal :=
  if s.mayRead r (locOf (aFold 3)) then
    let (v, t) := s.ftimelTake r
    .next { t with rdata := v, rfault := false }
  else .next (s.accessFault r (aFold 3))

end Sys2Proof.Machine
end

