-- ==== Sys2Proof/Machine/Deliver.lean ====
section
/-! DEFINITION. Completion of DRAM reads: error correction, counts and logs, delivery to each requester (R135 to R138,
R142, R292). -/

namespace Sys2Proof.Machine

/-- A unit as the scheduler delivers it: what is counted, and whether it is poisoned. -/
structure Checked where
  eccCe : Bool
  linkCe : Bool
  retry : Bool
  ue : Bool
  parity : Bool
  event : Bool
deriving DecidableEq, Repr

/-- Nothing wrong with a unit. -/
def Checked.clean : Checked := { eccCe := false, linkCe := false, retry := false, ue := false, parity := false, event := false }

/-- What an outcome means for a unit: outside ECC regions DRAM errors go undetected, and so do the link's without link ECC (R127, R137,
R138, R292). -/
def checkOutcome (o : ReadOutcome) (inEcc link : Bool) : Checked :=
  match o with
  | .good => Checked.clean
  | .eccCorrected => { Checked.clean with eccCe := inEcc }
  | .eccUncorrectable => { Checked.clean with ue := inEcc, event := inEcc }
  | .linkCorrected => { Checked.clean with linkCe := link }
  | .linkRetried => { Checked.clean with retry := link }
  | .linkFailed => { Checked.clean with retry := link, ue := link, event := link }
  | .parityFailed => { Checked.clean with parity := true }

/-- The unit is delivered poisoned. -/
def Checked.poison (c : Checked) : Bool := c.ue || c.parity

/-- A row that three entries of its channel's log name is marked for repair, once (R142, R280, R291). -/
def State.markRow (s : State) (c : Chan) (entry : Word) : State :=
  let same := (List.range 16).filter fun n =>
    let e := s.rd (aChan c.val (0x10 + n))
    fld e 23 22 != 0 && fld e 21 0 == fld entry 21 0
  let w0 := wd (4 * 2 ^ 20 + c.val * 2 ^ 18 + fld entry 21 17 * 2 ^ 13)
  let w1 := wd (fld entry 16 0)
  if 3 ≤ same.length ∧ ¬ (s.records.any fun r => r.1 == w0 && r.2 == w1) then s.appendRecord [w0, w1] false else s

/-- An entry joins the channel's log (R279, R280). -/
def State.chanLog (s : State) (c : Chan) (kind u : Nat) : State :=
  let (row, bank, sub) := s.dramRowBank (32 * u)
  let e := wd (kind * 2 ^ 22 + sub * 2 ^ 21 + bank * 2 ^ 17 + row % 2 ^ 17)
  ((s.logPut (aChan c.val 0x10) 1 0xC00000 [e]).1).markRow c e

/-- Counts, logs and the event of a unit's check (R137, R138, R292). -/
def State.countCheck (s : State) (c : Chan) (u : Nat) (k : Checked) : State :=
  let s1 := if k.eccCe then (s.inc (aChan c.val 0) 23 12).chanLog c 1 u else s
  let s2 := if k.linkCe then s1.inc (aChan c.val 0) 11 0 else s1
  let s3 := if k.retry then s2.inc (aChan c.val 1) 7 0 else s2
  let s4 := if k.ue then (s3.inc (aChan c.val 1) 23 16).chanLog c 2 u else s3
  let s5 := if k.parity then s4.inc (aRot 9) 23 12 else s4
  if k.event then s5.evDram else s5

/-- A unit of a slot's line has come for its engine, or for the stand-in that mirrors it. A poisoned one leaves the slot late
(R137) and nothing of it in a cache (R73). One for a line that has been abandoned is discarded (R101). -/
def State.slotUnit (s : State) (h : Head) (n : Slot) (line u : Nat) (bad standIn : Bool) : State :=
  if standIn then
    match s.heads[h].mirrors.find? fun m => m.line == line && m.slot == n with
    | none => s
    | some m =>
      if m.work.units.contains u then
        let (t, work) := s.workOn h m.pmap (m.work.arrive u bad)
        (t.modHead h fun x => { x with mirrors := x.mirrors.map fun v =>
          if v.line = line ∧ v.slot = n then t.mirrorAfter h v work else v }).mirrorCheck h
      else s
  else
    match s.heads[h].lines.find? fun w => w.lat.line == line with
    | none => s
    | some w =>
      if w.slots[n].phase = .waiting ∧ w.slots[n].work.units.contains u then
        let (t, work) := s.workOn h w.lat.pmap (w.slots[n].work.arrive u bad)
        t.setSlot h line n (t.slotAfter h line w.slots[n] work)
      else s

/-- A unit of a voice's samples has come. -/
def State.voiceUnit (s : State) (v : Fin 256) (u : Nat) (d : List Byte) (bad : Bool) : State :=
  s.modVoice v fun x =>
    if x.asked.contains u then { x with asked := x.asked.erase u, buf := x.buf ++ [(u, d, bad)] } else x

/-- A unit of a return block has come. -/
def State.returnUnit (s : State) (x : Fin 4) (block u : Nat) (d : List Byte) (bad : Bool) : State :=
  { s with lark := { s.lark with fetched := s.lark.fetched.map fun e =>
    if e.bus = x.val ∧ e.block = block ∧ e.wait.contains u then
      { e with wait := e.wait.erase u, units := e.units ++ [(u, d)], bad := e.bad || bad }
    else e } }

/-- A unit of a memory port's request has come. One that comes while the paddock is not clocked or is frozen is discarded, and its request with it
(R160, R388). -/
def State.portUnit (s : State) (p : Pad) (k : Fin 2) (serial u : Nat) (d : List Byte) (bad : Bool) : State :=
  if s.clocked p.val then
    s.modPort p k fun q => q.map fun r => if r.serial = serial then { r with back := r.back ++ [(u, d, bad)] } else r
  else s.modPort p k fun q => q.filter fun r => r.serial != serial

/-- A direct read has all its units: the host's completes, with EP set where one is poisoned; the debug master's data is there, or its
access has faulted (R137, R357, R384). -/
def State.directEnd (s : State) (x : DirectRead) : State :=
  let us := unitsOf x.off x.len
  let get := fun u => (x.got.find? fun e => e.1 == u).map (·.2)
  let d := ((us.map fun u => match get u with | some (b, _) => b | none => []).flatten.drop (x.off % 32)).take x.len
  let bad := us.any fun u => match get u with | some (_, p) => p | none => false
  match x.user with
  | .debug => if bad then (s.busDone .debug 0).accessFault .debug x.off else s.busDone .debug (wd (ofBytesLE d))
  | _ => { s with pcie := { s.pcie with rdata := d, rpoison := bad } }

/-- A read of n bytes from a by the host or the debug master: its units are asked for in class 4; those beyond the capacity are zero at
once (R130, R131). It is over, or it waits. -/
def State.directRead (s : State) (q : DramUser) (a n : Nat) : State :=
  let r := (unitsOf a n).foldl (fun (e : State × DirectRead) u =>
    let (t, more) := e.1.dramAsk q u 0 0
    (t, if more then { e.2 with wait := e.2.wait ++ [u] } else { e.2 with got := e.2.got ++ [(u, List.replicate 32 0, false)] }))
    (s, { user := q, off := a, len := n, wait := [], got := [] })
  let t := s.raisedOnce 34 r.1
  if r.2.wait.isEmpty then t.directEnd r.2 else { t with dreads := t.dreads ++ [r.2] }

/-- A unit of a direct read has come: the oldest that waits for it takes it. -/
def State.directUnit (s : State) (q : DramUser) (u : Nat) (d : List Byte) (bad : Bool) : State :=
  match s.dreads.find? fun x => x.user == q && x.wait.contains u with
  | none => match q with
    | .debug => if bad then s.accessFault .debug (32 * u) else s.stWr 0x06 (wd (ofBytesLE (d.take 3)))
    | _ => { s with pcie := { s.pcie with rdata := d, rpoison := bad } }
  | some x =>
    let y : DirectRead := { x with wait := x.wait.erase u, got := x.got ++ [(u, d, bad)] }
    if y.wait.isEmpty then ({ s with dreads := s.dreads.erase x } : State).directEnd y
    else { s with dreads := s.dreads.map fun z => if z = x then y else z }

/-- Delivery to the requester (R137). -/
def State.handOver (s : State) (r : DRead) (bad : Bool) : State :=
  let w := wd (ofBytesLE (r.data.take 3))
  match r.user with
  | .slot h n => s.slotUnit h n r.line r.unit bad r.standIn
  | .lark v => s.voiceUnit v r.unit r.data bad
  | .larkReturn x => s.returnUnit x r.line r.unit r.data bad
  | .port p k => s.portUnit p k r.line r.unit r.data bad
  | .core k c => if bad then s.accessFault (.core k c) (32 * r.unit) else { s with rdata := w, rfault := false }
  | .debug => s.directUnit .debug r.unit r.data bad
  | .host => s.directUnit .host r.unit r.data bad
  | .copy n =>
    let (t, lost) := s.passWord (linkWord n)
    t.copyUnit n r.unit r.data (bad || lost)
  | .inbound _ => s
  | .loader => s.loaderUnit r.unit r.data bad

/-- The first entry of a list that satisfies p, changed by f. -/
def modFirst {α : Type} (p : α → Bool) (f : α → α) : List α → List α
  | [] => []
  | x :: t => if p x then f x :: t else x :: modFirst p f t

/-- The read that a write merges with has come: the write may drain (R135). A poisoned one is counted as any other, and the write goes on:
DESIGN CHOICE (log entry 128). -/
def ChanSt.merged (x : ChanSt) (r : DRead) : ChanSt :=
  let mine := fun (w : DWrite) => w.merge && w.user == r.user && w.addr / 32 == r.unit
  let l := modFirst mine (fun w => { w with merge := false }) (x.writes ++ x.waiting)
  { x with writes := l.take x.writes.length, waiting := l.drop x.writes.length }

/-- The read that completes: it leaves its channel, its tag is free, its check is counted, and it is delivered; poisoned too where its tag's
word is uncorrectable (R283). -/
def State.complete (s : State) (c : Chan) (r : DRead) (o : ReadOutcome) : State :=
  let s1 := s.setReads c (s.chans[c].reads.erase r)
  let k := checkOutcome o (s.checkAddr (32 * r.unit)).isSome s.linkEcc
  let s2 := s1.countCheck c r.unit k
  if r.chk then s2.modChan c fun x => x.keepCheck r.unit
  else
    let i := Fin.ofNat 4 (r.cls - 1)
    let s3 : State := { s2 with clsBytes := vmod s2.clsBytes i fun n => n + 32 }
    let (s4, lost) := s3.passWord (tagWord c.val r.no)
    if r.merge then s4.modChan c fun x => x.merged r else s4.handOver r (k.poison || lost)

/-- DRAM_READ_REQUEST (R130, R131, R135). A class-1 request carries the deadline of the line that its slot works on. A unit beyond the
capacity is delivered at once, zero with good checks. -/
def execDramReadRequest (q : DramUser) (u : BitVec 30) (s : State) : Host.Outcome State Fault Refusal :=
  let (dl, k) := match q with
    | .slot h n => match (s.heads[h].lines.find? fun w => w.slots[n].phase == .begun || w.slots[n].phase == .waiting).or s.heads[h].lines.head? with
      | some w => (s.deadlineOf h w.lat.line, w.lat.line)
      | none => (s.sclk, 0)
    | _ => (0, 0)
  let (t, more) := s.dramAsk q u.toNat dl k
  if more then .next t
  else .next (t.handOver { user := q, unit := u.toNat, line := k, cls := dramClass q, deadline := 0, data := List.replicate 32 0, chk := false, tag := false, issued := false, no := 0, standIn := false, merge := false, cyc := 0 } false)

/-- DRAM_READ_COMPLETE: the read issued first on the channel returns (R131, R137, R138). -/
def execDramReadComplete (c : Chan) (o : ReadOutcome) (s : State) : Host.Outcome State Fault Refusal :=
  match s.chans[c].reads.find? (·.issued) with
  | none => .next s
  | some r => .next (s.complete c r o)

end Sys2Proof.Machine
end

