-- ==== Sys2Proof/Machine/Wardens.lean ====
section
/-! DEFINITION. The duplex pair, watchdogs and key sequences, applet budgets, relay steps (10_wardens_mailbox.md, R241 to
R246, R271, R272). -/

namespace Sys2Proof.Machine

/-- The other core. -/
def peer (k : Core) : Core := 1 - k

/-- Core k of the state, changed by f. -/
def State.modCore (s : State) (k : Core) (f : CoreSt → CoreSt) : State := { s with cores := vmod s.cores k f }

/-- ROLE of a core. -/
def State.setRole (s : State) (k : Core) (r : Nat) : State := s.fset (aCore k.val 0) 23 22 r
/-- ALIVE of a core. -/
def State.setAlive (s : State) (k : Core) (b : Bool) : State := s.bset (aCore k.val 0) 21 b

/-! ### The watchdog's count (R243) -/

/-- Cycles of a full window of core k's watchdog. -/
def State.windowCycles (s : State) (k : Core) : Nat :=
  let e := s.fget (aCore k.val 2) 22 19
  2 ^ ((if e = 15 then 14 else e) + 10)

/-- WDCNT as it shows a number of cycles: it saturates. -/
def wdcnt (n : Nat) : Word := wd (min 0xFFFFFF n)

/-- The full window of core k's watchdog, as WDCNT holds it. -/
def State.window (s : State) (k : Core) : Word := wdcnt (s.windowCycles k)

/-- n cycles are left in core k's window. -/
def State.setLeft (s : State) (k : Core) (n : Nat) : State := (s.modCore k fun x => { x with left := n }).wr (aCore k.val 3) (wdcnt n)

/-- The window of core k is full again. -/
def State.reload (s : State) (k : Core) : State := s.setLeft k (s.windowCycles k)

/-! ### Resets and takeover (R242, R245) -/

/-- A reset of a core by watchdog or PEERRST is noted; the third within 60 s takes the device to SAFE (R245). -/
def State.noteReset (s : State) : State :=
  let recent := (s.cae.resets.filter fun t => decide (s.cae.uptime < t + 60000)) ++ [s.cae.uptime]
  let s1 : State := { s with cae := { s.cae with resets := recent } }
  if 3 ≤ recent.length ∧ s.dev ≠ .boot then s1.toSafe 6 else s1

/-- Core k is reset as by PEERRST: DOWN until it rejoins. -/
def State.coreReset (s : State) (k : Core) : State :=
  (((s.setRole k 0).setAlive k false).modCore k fun x => { x with seq := .none, seqAge := 0 }).noteReset

/-- Contexts of core j pass to core k, at their RESTART entry when the core was lost. -/
def State.moveCtxs (s : State) (j k : Core) (lost : Bool) : State :=
  { s with cae := { s.cae with ctxs := s.cae.ctxs.map fun c =>
    if c.st ≠ 0 ∧ c.core = j then { c with core := k, atRestart := c.atRestart || (lost && c.st == 2) } else c } }

/-- Mailboxes that core j had in service complete FAULT, with what the journal shows (R242). Forwarded ones occupy no core. -/
def State.faultServed (s : State) (j : Core) : State :=
  (List.finRange 16).foldl (fun (t : State) m =>
    if t.mbPhase m = 3 ∧ t.bget (aMbctl m.val) 16 = (j.val == 1) then
      match t.mboxes[m].hold with
      | .forward _ => t
      | _ => t.mbFinish m 7 [wd (b2n (t.mboxes[m].journal == some true))]
    else t) s

/-- Core j leaves for RELAY and core k carries its contexts, the relay's mailbox and what j has in service (R271). -/
def State.relayMove (s : State) (j k : Core) (step : Nat) : State :=
  let s1 := ((s.setRole k 2).setRole j 3).moveCtxs j k false
  let s2 := (s1.setAlive j false).modCore j fun x => { x with seq := .none, seqAge := 0 }
  let s3 := (List.finRange 16).foldl (fun (t : State) m =>
    if t.mbPhase m = 3 then t.bset (aMbctl m.val) 16 (k.val == 1) else t) s2
  { s3 with cae := { s3.cae with relay := step } }

/-- The mailbox whose FWRELAY is under way. -/
def State.relayMbox (s : State) : Option Mbox := (List.finRange 16).find? fun m => s.mbPhase m == 3 && s.mboxes[m].hold == .relay

/-- FWRELAY ends with a code and results. -/
def State.relayEnd (s : State) (code : Nat) (res : List Word) : State :=
  let s1 : State := { s with cae := { s.cae with relay := 0, relayRetried := false } }
  match s.relayMbox with
  | some m => s1.mbFinish m code res
  | none => s1

/-- Step 1 of a relay ends once W1 has finished its command in service (R271). A core lost by then ends the relay, and FWRELAY completes
FAULT: DESIGN CHOICE (log entry 139). -/
def State.relayStep (s : State) : State :=
  if s.cae.relay ≠ 1 then s
  else if !(s.alive 0 && s.alive 1) then s.relayEnd 7 []
  else if s.coreBusy 1 then s else s.relayMove 1 0 2

/-- Core k takes over from its peer: steps 2 to 4 of R242; the ledger counts it (R297). -/
def State.takeOver (s : State) (k : Core) : State :=
  (((((s.setRole k 2).evWarden).moveCtxs (peer k) k true).faultServed (peer k)).ledgerInc 13).relayStep

/-- Core k can act: alive and not halted. -/
def State.coreActs (s : State) (k : Core) : Bool := s.alive k && !s.halted k

/-- PEER_TAKEOVER: core k has seen its peer's PBEAT unchanged for 10 ms, the peer not being halted (R242). -/
def execPeerTakeover (k : Core) (s : State) : Host.Outcome State Fault Refusal :=
  if s.coreActs k && s.role k == 1 && !s.halted (peer k) then .next ((s.coreReset (peer k)).takeOver k) else .next s

/-- The watchdog of core k acts: WDFIRE, the reset, the event, and the peer takes over (R243). -/
def State.watchdogFire (s : State) (k : Core) : State :=
  let s1 := (((s.setLeft k 0).inc (aCore k.val 5) 23 16).coreReset k).evWarden
  if s1.coreActs (peer k) then s1.takeOver (peer k) else s1

/-- WATCHDOG_EXPIRY: WDCNT of core k has reached 0 (R243). A halted core's watchdog does not count (R389). -/
def execWatchdogExpiry (k : Core) (s : State) : Host.Outcome State Fault Refusal :=
  if s.alive k && !s.halted k && s.bget (aCore k.val 2) 23 then .next (s.watchdogFire k) else .next s

/-- PEERRST: core k writes the other core's bit (R242). -/
def execPeerrst (k : Core) (s : State) : Host.Outcome State Fault Refusal :=
  if s.coreActs k then .next (s.coreReset (peer k)) else .next s

/-! ### Key sequences (R244) -/

/-- The sequence of core k ends, with or without a broken one counted. -/
def State.seqEnd (s : State) (k : Core) (bad : Bool) : State :=
  let s1 := s.modCore k fun x => { x with seq := .none, seqAge := 0 }
  if bad then s1.inc (aCore k.val 5) 15 8 else s1

/-- A sequence opens. -/
def State.seqOpen (s : State) (k : Core) (q : KeySeq) : State := s.modCore k fun x => { x with seq := q, seqAge := 0 }

/-- Core k writes WDKEY. -/
def State.wdkeyPut (s : State) (k : Core) (v : Word) : State :=
  match s.cores[k].seq with
  | .kick => if v = 0xA5A5A5 then (s.reload k).seqEnd k false else s.seqEnd k true
  | .unlock => s.seqEnd k true
  | _ => if v = 0x5A5A5A then s.seqOpen k .kick else if v = 0x3C3C3C then s.seqOpen k .unlock else s.seqEnd k true

/-- Core k writes WDCFG: it takes effect after the unlocking write alone. -/
def State.wdcfgPut (s : State) (k : Core) (v : Word) : State :=
  match s.cores[k].seq with
  | .unlock => (s.fset (aCore k.val 2) 23 19 (fld v 23 19)).seqEnd k false
  | .kick => s.seqEnd k true
  | _ => s

/-- KICK: both writes of a kick (R244). -/
def execKick (k : Core) (s : State) : Host.Outcome State Fault Refusal :=
  if s.coreActs k then .next ((s.wdkeyPut k 0x5A5A5A).wdkeyPut k 0xA5A5A5) else .next s

/-- WDCFG_UNLOCK: the unlocking write and the write of WDCFG (R244). -/
def execWdcfgUnlock (k : Core) (v : Word) (s : State) : Host.Outcome State Fault Refusal :=
  if s.coreActs k then .next ((s.wdkeyPut k 0x3C3C3C).wdcfgPut k v) else .next s

/-- A sequence is open on core k. -/
def State.seqIsOpen (s : State) (k : Core) : Bool := s.cores[k].seq == .kick || s.cores[k].seq == .unlock

/-- KEY_SEQUENCE_LAPSE: 64 cycles of core k have passed since the first write (R244). -/
def execKeySequenceLapse (k : Core) (s : State) : Host.Outcome State Fault Refusal :=
  if s.seqIsOpen k && !s.halted k then .next (s.seqEnd k true) else .next s

/-! ### Budgets (R246) -/

/-- Context c of the state, changed by f. -/
def State.modCtx (s : State) (c : Ctx) (f : CtxSt → CtxSt) : State := { s with cae := { s.cae with ctxs := vmod s.cae.ctxs c f } }

/-- BUDGET_EXHAUSTED (R246). -/
def execBudgetExhausted (c : Ctx) (s : State) : Host.Outcome State Fault Refusal :=
  if c.val ≠ 0 ∧ s.cae.ctxs[c].st = 2 ∧ ¬ s.cae.ctxs[c].preempted ∧ ¬ s.cae.ctxs[c].suspended then
    .next (s.modCtx c fun x => { x with preempted := true, overs := min 0xFFFFFF (x.overs + 1) })
  else .next s

/-- BUDGET_WINDOW: a new window of 1 ms (R246). -/
def execBudgetWindow (s : State) : Host.Outcome State Fault Refusal :=
  .next { s with cae := { s.cae with ctxs := s.cae.ctxs.map fun c => { c with preempted := false } } }

/-! ### Restart and relay (R242, R271, R272) -/

/-- The staged image is the one that runs. -/
def State.runStaged (s : State) : State := match s.cae.staged with
  | some x => { s with cae := { s.cae with version := x.2.2.1, abi := x.2.2.2 } }
  | none => s

/-- Core k runs Caeruno again: both cores are in DUPLEX, or it is alone. -/
def State.coreUp (s : State) (k : Core) : State :=
  let s1 := (s.setAlive k true).reload k
  if s1.alive (peer k) then (s1.setRole k 1).setRole (peer k) 1 else s1.setRole k 2

/-- RELAY_TIMEOUT: core k is not ALIVE within 100 ms of its relay step (R272). -/
def execRelayTimeout (k : Core) (s : State) : Host.Outcome State Fault Refusal :=
  if s.cae.relay = 2 ∧ k = 1 then
    .next (((s.coreReset 1).modCore 1 fun x => { x with newImage := false }).relayEnd 7 [])
  else if s.cae.relay = 5 ∧ k = 0 then
    if s.cae.relayRetried then
      .next ((s.setRole 0 0).runStaged.relayEnd 7 [])
    else .next { s with cae := { s.cae with relayRetried := true } }
  else .next s

end Sys2Proof.Machine
end

