-- ==== Sys2Proof/Machine/Trace.lean ====
section
/-! DEFINITION. The trace buffer (16_debug_test.md, "Trace and stimulus", R391). -/

namespace Sys2Proof.Machine

/-- Packets are stored: EN of TRCTL, an open session of level 1 or above, no trigger that stopped trace (R381, R388). -/
def State.tracing (s : State) : Bool := bit (s.stRd 0x11) 23 && decide (1 ≤ s.level) && !s.stile.trStopped

/-- The three words of a packet. -/
def State.tracePacket (s : State) (kind src ctx : Nat) (data : Word) : List Word :=
  [wd (kind * 2 ^ 20 + src % 256 * 2 ^ 12 + ctx % 64 * 2 ^ 6), wd s.sclk, data]

/-- Words that the buffer holds. -/
def traceCap : Nat := 16384

/-- Oldest packets leave, one a turn, until n words fit. -/
def makeRoom : Nat → Nat → List Word → List Word
  | 0, _, l => l
  | k + 1, n, l => if l.length + n ≤ traceCap then l else makeRoom k n (l.drop (if l.length % 3 = 0 then 3 else l.length % 3))

/-- A packet is lost and counted. -/
def State.traceLose (s : State) : State :=
  let s1 : State := { s with stile := { s.stile with lost := s.stile.lost + 1 } }
  s1.stWr 0x16 (incFld (s1.stRd 0x16) 8 0)

/-- A packet is produced: stored, behind an overflow packet when some were lost, or lost itself (R391). -/
def State.tracePut (s : State) (kind src ctx : Nat) (data : Word) : State :=
  if !s.tracing then s
  else
    let ovf := if s.stile.lost = 0 then [] else s.tracePacket 0xF 0 0 (wd s.stile.lost)
    let new := ovf ++ s.tracePacket kind src ctx data
    let room := if bit (s.stRd 0x11) 22 then makeRoom 6 new.length s.stile.trace else s.stile.trace
    if room.length + new.length ≤ traceCap then { s with stile := { s.stile with trace := room ++ new, lost := 0 } }
    else s.traceLose

/-- A frame packet, when FRAMEV is on and the head is named in FHEADS. -/
def State.traceFrame (s : State) (h : Nat) : State :=
  if bit (s.stRd 0x11) 20 && bit (s.stRd 0x11) (8 + h) then s.tracePut 3 h 0 (s.rd (aHead h 0x0A)) else s

/-- The probe word that TRPRBi captures (R180). -/
def State.probeWord (s : State) (i : Nat) : Word :=
  let c := s.stRd (0x12 + i)
  s.probeMux (fld c 22 19) (fld c 18 15)

/-- Packets that one SCLK cycle produces, in the order of R391, each given as kind, source, context and data: the buffer takes the first,
and the others are lost. -/
def State.traceOne (s : State) : List (Nat × Nat × Nat × Word) → State
  | [] => s
  | (k, r, c, d) :: rest => rest.foldl (fun (t : State) _ => if t.tracing then t.traceLose else t) (s.tracePut k r c d)

/-- Probe packets of a fabric edge: one for each captured word that has changed, in TRPRB order. -/
def State.probePackets (s : State) : List (Nat × Nat × Nat × Word) :=
  (List.finRange 4).filterMap fun i =>
    let c := s.stRd (0x12 + i.val)
    if bit c 23 && s.probeWord i.val != s.stile.probe[i] then some (2, 16 * fld c 22 19 + fld c 18 15, 0, s.probeWord i.val) else none

/-- A fabric edge: the probe words are captured, and what has changed makes packets. -/
def State.traceProbes (s : State) : State :=
  ({ s with stile := { s.stile with probe := Vector.ofFn fun i => s.probeWord i.val } } : State).traceOne s.probePackets

/-- TRACE_SYNC: the low 24 bits of the SCLK count wrap (R391). -/
def execTraceSync (s : State) : Host.Outcome State Fault Refusal := .next (s.tracePut 0xE 0 0 (wd (s.sclk >>> 24)))

end Sys2Proof.Machine
end

