-- ==== Sys2Proof/Machine/Strobes.lean ====
section
/-! DEFINITION. The beam: a head's start, stop and lock, its strobes, what leaves at each quad, and what happens at each line
and frame (02_beam_time.md R24 to R41, R47; 05_composition_output.md R106, R109 to R116; R285, R293, R366, R388). -/

namespace Sys2Proof.Machine

/-! ### Power state of the heads (R366) -/

/-- The code of a power state in PSTATE. -/
def PowState.code : PowState → Nat
  | .run => 0 | .dim => 1 | .rest => 2 | .keep => 3

/-- PSTATE changes, and event E44 is raised (R366). -/
def State.setPower (s : State) (p : PowState) : State :=
  let s1 : State := { s with pow := { s.pow with st := p, want := p, busy := false } }
  (s1.hwWr 0x014 (putBit (putFld (s1.hwRd 0x014) 23 22 p.code) 21 false)).evPower

/-- A change between Run and Dim is done once every running head has begun its first changed frame (R366). -/
def State.powTrack (s : State) : State :=
  let dim := s.pow.want == .dim
  if s.pow.busy && (dim || s.pow.want == .run)
      && (List.finRange 8).all fun h => !s.running h.val || s.heads[h].dimFrame == dim then s.setPower s.pow.want
  else s

/-- The Dim that a request in hand or in force asks for. -/
def State.wantDim (s : State) : Bool := s.pow.want == .dim

/-! ### Begin and end of a raster (R30, R31, R37, R39, R388) -/

/-- A raster begins at a position, with no previous frame: its queue lists, lines and tap are empty, its first lines leave as
the backdrop in force now (R39). -/
def State.rasterBegin (s : State) (h : Head) (kind : Begun) (line quad : Nat) : State :=
  let s1 := ((s.orphanReads h fun _ => true).setPos h.val line quad).modHead h fun x =>
    { x with
      phase := .running, begun := kind, first := false, strobed := 0, startBack := s.rd (aHead h.val 0x1C)
      lines := [], evals := [], mirrors := [], composed := [], lastLine := none
      fr := (HeadSt.reset h.val).fr, missAhead := 0, tapSent := [], tapBack := [], tapOld := [], tapLine := false
      dimFrame := s.wantDim, dimLatch := s.wantDim, streaming := false, blank := s.bget (aHead h.val 0x30) 21 }
  s1.bset (aHead h.val 1) 23 true

/-- The beam line in progress ends: its render-aligned entries that have not issued are late (R46). -/
def State.lateRender (s : State) (h : Head) : State :=
  let x := s.heads[h]
  (s.modHead h fun y => { y with dueRender := [] }).lateAll h (x.queue.filter fun e => x.dueRender.contains e.idx)

/-- A frame in progress is cut short: its record closes SHORT and the ledger learns of its end (R113, R294). -/
def State.cutFrame (s : State) (h : Head) (planned : Bool) : State := (s.closeRecord h true planned).endFrame h

/-- An exact slave of head h runs. -/
def State.exactSlave (s : State) (h g : Head) : Bool := g != h && s.running g.val && s.syncMode g.val == 1 && s.masterOf g.val == h.val

/-- A stopped head's dot PLL runs on only for its exact slaves (R33). -/
def State.pllTrack (s : State) (h : Head) : State :=
  if s.heads[h].phase = .stopped && !(List.finRange 8).any fun g => s.exactSlave h g then s.bset (aHead h.val 1) 22 false else s

/-- The raster of head h ends: what a stop and a freeze share (R31, R126, R388). -/
def State.rasterEnd (s : State) (h : Head) (phase : HeadPhase) (planned : Bool) : State :=
  let s1 := ((s.cutFrame h planned).orphanReads h fun _ => true).modHead h fun x =>
    { x with
      phase := phase, begun := .flow, first := false, lines := [], evals := [], mirrors := []
      composed := [], lastLine := none, tapSent := [], tapBack := [], tapOld := [], tapLine := false, lockGood := 0, sinceRef := none
      snapDue := false, epochSet := false, streaming := false, dimFrame := s.wantDim, dimLatch := s.wantDim }
  let s2 := (s1.bset (aHead h.val 1) 23 false).bset (aHead h.val 1) 21 false
  (((s2.splitStop h.val).streamStop h).larkUnlock h.val).powTrack

/-- The raster stops for good: the queue is flushed, and EPOCHL and EPOCHH take the epoch that a later start gives its first
frame (R31, R33). -/
def State.stopNow (s : State) (h : Head) (begun : Bool) : State :=
  let s1 := if begun then s.rasterEnd h .stopped s.heads[h].byHost else s.modHead h fun x => { x with phase := .stopped }
  let s2 := s1.flush h fun _ => false
  let s3 := if begun then s2.setEpoch h.val (s.epoch h.val + 1) else s2
  let s4 := ((s3.modHead h fun x => { x with dueLate := [], byHost := false }).leadTrack h).tapSettle h
  let s5 := s4.pllTrack h
  if s.syncMode h.val = 1 then s5.pllTrack (Fin.ofNat 8 (s.masterOf h.val)) else s5

/-- RUN goes from 0 to 1 (R2, R30, R394). -/
def State.headStart (s : State) (h : Head) (byHost : Bool) : State :=
  if s.headOff h.val || !s.fuses.flock || s.bget (aHead h.val 0) 23 || s.heads[h].phase != .stopped then s
  else
    let code := s.startCode h.val
    let s1 := s.fset (aHead h.val 1) 19 16 code
    if code ≠ 0 then s1.evHead h.val 0
    else
      let r := s1.raster h.val
      let s2 := (s1.bset (aHead h.val 0) 23 true).modHead h fun x => { x with phase := .starting, byHost := byHost }
      s2.flush h fun e => decide (e.line < r.vtotal ∧ e.quad < r.htotal)

/-- RUN goes from 1 to 0 (R31, R287). -/
def State.headStop (s : State) (h : Head) (byHost : Bool) : State :=
  if !s.bget (aHead h.val 0) 23 then s
  else
    let s1 := if s.rotStep != 0 && s.repair.rotHead == h.val then s.rotAbort else s
    let s2 := (s1.bset (aHead h.val 0) 23 false).modHead h fun x => { x with byHost := byHost }
    match s2.heads[h].phase with
    | .starting => s2.stopNow h false
    | .frozen => s2.stopNow h true
    | .running => s2.modHead h fun x =>
      { x with phase := .stopping, held := Vector.ofFn fun n => s.rd (aHead h.val n.val), heldEpoch := s.epoch h.val }
    | _ => s2

/-- HEAD_START: RUN is written from 0 to 1 (R30). -/
def execHeadStart (h : Head) (s : State) : Host.Outcome State Fault Refusal := .next (s.headStart h false)

/-- HEAD_STOP: RUN is written from 1 to 0 (R31). -/
def execHeadStop (h : Head) (s : State) : Host.Outcome State Fault Refusal := .next (s.headStop h false)

/-- The position at which an exact slave stands now (R33). -/
def State.slavePos (s : State) (h : Head) : Nat × Nat :=
  let m := s.masterOf h.val
  let r := s.raster m
  let f := max 1 r.frame
  let t := (s.posLine m * r.htotal + s.posQuad m + 2 * f - (s.fget (aHead h.val 8) 23 12 * r.htotal + s.fget (aHead h.val 8) 11 0)) % f
  (t / max 1 r.htotal, t % max 1 r.htotal)

/-- An acquisition of head h that begins now is to begin with a restart at the reference: SNAP = 1 in a mode that seeks its lock
(R37). -/
def State.snapFirst (s : State) (h : Head) : Bool := s.bget (aHead h.val 0) 22 && (s.syncMode h.val == 2 || s.syncMode h.val == 3)

/-- The raster begins after lock (R30, R33, R37, R115). -/
def State.rasterGo (s : State) (h : Head) : State :=
  let exact := s.syncMode h.val == 1
  let p := if exact && s.running (s.masterOf h.val) then s.slavePos h else (0, 0)
  let s1 := ((s.bset (aHead h.val 1) 22 true).bset (aHead h.val 1) 21 exact).rasterBegin h .start p.1 p.2
  let s2 := s1.modHead h fun x =>
    { x with
      lead := s.leadReg h.val, lockGood := 0, sinceRef := none, steer := 0, epochSet := false
      snapDue := s.snapFirst h }
  let s3 := ((s2.bset (aHead h.val 1) 20 false).splitStart h.val).larkResume h.val
  if s3.bget (aHead h.val 0x30) 23 then s3.outputCheck h else s3

/-- PLL_LOCK: the dot PLL of a starting head locks and its raster begins; the PLL of a running head locks again (R27, R30). -/
def execPllLock (h : Head) (s : State) : Host.Outcome State Fault Refusal :=
  if s.heads[h].phase = .starting then .next (s.rasterGo h)
  else if s.running h.val then .next (s.bset (aHead h.val 1) 22 true)
  else .next s

/-- The beam stands on the last quad of a line. -/
def State.lineEnd (s : State) (h : Head) : Bool := s.posQuad h.val + 1 == (s.raster h.val).htotal

/-- RASTER_STOP: the raster of a stopping head reaches the end of its line (R31). -/
def execRasterStop (h : Head) (s : State) : Host.Outcome State Fault Refusal :=
  if s.heads[h].phase = .stopping && s.lineEnd h then .next (s.stopNow h true) else .next s

/-- HEAD_FREEZE: a head that the Stile freezes reaches the end of its line (R388). -/
def execHeadFreeze (h : Head) (s : State) : Host.Outcome State Fault Refusal :=
  if s.heads[h].phase = .running && s.stile.haltHead.getLsbD h.val && s.lineEnd h then .next ((s.lateRender h).rasterEnd h .frozen false)
  else .next s

/-- A frozen head is released: it starts a new frame at line 0, quad 0.0, and seeks its lock as at a start (R37, R39, R388). An
exact slave too begins at line 0, quad 0.0, wherever its master stands, with SYNCLOCK 1: DESIGN CHOICE (log entry 103). -/
def State.headRelease (s : State) (h : Head) : State :=
  if s.heads[h].phase = .frozen then
    let t := (s.rasterBegin h .release 0 0).modHead h fun x => { x with snapDue := s.snapFirst h }
    ((t.bset (aHead h.val 1) 21 (t.syncMode h.val == 1)).splitStart h.val).larkResume h.val
  else s

/-- DOT_CLOCK_LOCK_LOSS (R220). -/
def execDotClockLockLoss (h : Head) (s : State) : Host.Outcome State Fault Refusal :=
  if s.running h.val then .next ((s.bset (aHead h.val 1) 22 false).larkUnlock h.val) else .next s

/-! ### References and lock (R34 to R38, R346) -/

/-- A head restarts at line 0, quad 0.0 at its reference (R37): the frame in progress, and its line, end short. -/
def State.snapRestart (s : State) (h : Head) : State :=
  (((s.lateRender h).cutFrame h s.heads[h].byHost).rasterBegin h .snap 0 0).modHead h fun x => { x with snapDue := false, lockGood := 0, byHost := false }

/-- A reference arrives for a genlocked head. -/
def State.refArrive (s : State) (h : Head) : State :=
  let s1 := s.modHead h fun x => { x with sinceRef := some 0 }
  if s1.heads[h].snapDue then s1.snapRestart h else s1

/-- Head h is genlocked to the given source: 0 the pin, 1 the fold. -/
def State.genlocked (s : State) (h : Head) (fold : Bool) : Bool :=
  s.running h.val && s.syncMode h.val == 3 && s.bget (aHead h.val 0) 16 == fold

/-- GENLOCK_IN: a rising edge of the pin (R35, R37). -/
def execGenlockIn (s : State) : Host.Outcome State Fault Refusal :=
  .next ((List.finRange 8).foldl (fun (t : State) h => if t.genlocked h false then t.refArrive h else t) s)

/-- The fold time has reached T of the fold's next frame boundary, which has not yet been taken. -/
def State.foldDue (s : State) : Bool :=
  s.fold.has && decide ((s.fold.time + 2 ^ 48 - s.fold.at48.toNat) % 2 ^ 48 < 2 ^ 47) && s.heads[(0 : Head)].refEpoch != some s.fold.epoch

/-- FOLD_FRAME_BOUNDARY: the fold frame boundary of the new epoch falls, and is the reference of heads genlocked to the fold
while EPVALID is 1 (R345, R346). -/
def execFoldFrameBoundary (s : State) : Host.Outcome State Fault Refusal :=
  if s.foldDue then
    .next ((List.finRange 8).foldl (fun (t : State) h =>
      let u := t.modHead h fun x => { x with refEpoch := some t.fold.epoch }
      if u.bget (aFold 2) 23 && u.genlocked h true then u.refArrive h else u) s)
  else .next s

/-- The signed distance t − p in a frame of f quads. -/
def phaseError (t p f : Nat) : Int :=
  let d := (t + f - p % max 1 f) % max 1 f
  if 2 * d ≤ f then (d : Int) else (d : Int) - (f : Int)

/-- The error of head h's frame boundary now, in quads of its reference's raster; `none` without a reference (R34 to R36). -/
def State.lockError (s : State) (h : Head) : Option Int :=
  let own := s.raster h.val
  let m := s.masterOf h.val
  match s.syncMode h.val with
  | 2 =>
    let r := s.raster m
    if s.running m then
      some (phaseError (s.posLine m * r.htotal + s.posQuad m) (s.fget (aHead h.val 8) 23 12 * r.htotal + s.fget (aHead h.val 8) 11 0) r.frame)
    else none
  | 3 => s.heads[h].sinceRef.bind fun n =>
    if 2 * own.frame ≤ n then none
    else some (phaseError n (s.fget (aHead h.val 8) 23 12 * own.htotal + s.fget (aHead h.val 8) 11 0) own.frame)
  | _ => none

/-- The lock of a head falls: LOCKLOST, and a SNAP restart is due again (R36, R37). -/
def State.lockLost (s : State) (h : Head) : State :=
  ((s.bset (aHead h.val 1) 21 false).modHead h fun x => { x with lockGood := 0, snapDue := s.bget (aHead h.val 0) 22 }).sigFlag h 7

/-- The steering of a frame: the spec bounds it and gives no law, so its step is free (R34; log entry 30). -/
def State.steerStep (s : State) (h : Head) : State :=
  let (n, t) := s.draw
  t.modHead h fun x => { x with steer := clampI (-1000) 1000 (x.steer + ((n % 101 : Nat) : Int) - 50) }

/-- The nominal frame periods of a frame slave and its master agree within 1,000 ppm (R34): a frame takes frame · 2 · PDIV · 4 /
VCO. A genlocked head has no nominal period to agree with. -/
def State.periodsAgree (s : State) (h : Head) : Bool :=
  let m := s.masterOf h.val
  let a := (s.raster h.val).frame * s.pdiv h.val * s.vcoX m
  let b := (s.raster m).frame * s.pdiv m * s.vcoX h.val
  s.syncMode h.val != 2 || decide (1000 * ((a : Int) - (b : Int)).natAbs ≤ b)

/-- The lock is tracked at a frame boundary (R34, R36). A boundary without a reference is none of eight consecutive good ones. -/
def State.lockTrack (s : State) (h : Head) : State :=
  match s.lockError h with
  | none => s.modHead h fun x => { x with lockGood := 0 }
  | some e =>
    let s1 := s.steerStep h
    let good := decide (e.natAbs ≤ 1) && s.periodsAgree h
    let n := if good then min 8 (s1.heads[h].lockGood + 1) else 0
    let s2 := s1.modHead h fun x => { x with lockGood := n }
    if n = 8 then s2.bset (aHead h.val 1) 21 true
    else if 16 < e.natAbs && s2.bget (aHead h.val 1) 21 then (s2.lockLost h).evHead h.val 0
    else s2

/-- REFERENCE_TIMEOUT: no reference for two nominal frame periods (R36). -/
def execReferenceTimeout (h : Head) (s : State) : Host.Outcome State Fault Refusal :=
  let locked := s.syncMode h.val == 2 || s.syncMode h.val == 3
  if s.running h.val && locked && (s.lockError h).isNone then
    let s1 := s.modHead h fun x => { x with sinceRef := none, lockGood := 0 }
    .next (if s1.bget (aHead h.val 1) 21 then s1.lockLost h else s1)
  else .next s

/-! ### The frame boundary -/

/-- The epoch of the frame that head m is in now, its boundary counted when the beam stands on it (R38). -/
def State.epochNow (s : State) (m : Head) : BitVec 48 :=
  let x := s.heads[m]
  if s.posLine m.val = 0 && s.posQuad m.val == 0 && !x.strobed.getLsbD 1 && x.begun != .start then s.epoch m.val + 1 else s.epoch m.val

/-- This boundary is the first at which a frame slave is locked. -/
def State.firstLock (s : State) (h : Head) : Bool :=
  match s.lockError h with
  | some e => decide (e.natAbs ≤ 1) && s.periodsAgree h && decide (7 ≤ s.heads[h].lockGood)
  | none => false

/-- The epoch of the master's frame that begins with a frame slave's, or in which the slave's frame begins (R38). With a zero
offset the two frames begin together, even where the lock's error lets the slave's boundary come a quad before the master's. -/
def State.masterEpoch (s : State) (h : Head) : BitVec 48 :=
  let m : Head := Fin.ofNat 8 (s.masterOf h.val)
  let early := match s.lockError h with
    | some e => decide (e < 0)
    | none => false
  if s.rd (aHead h.val 8) = 0 && early then s.epoch m.val + 1 else s.epochNow m

/-- The epoch that the frame beginning now takes from its master or the fold (R38, R346); `none`: its own count. -/
def State.epochTaken (s : State) (h : Head) : Option (BitVec 48) :=
  let x := s.heads[h]
  match s.syncMode h.val with
  | 1 => if x.epochSet then none else some (s.epochNow (Fin.ofNat 8 (s.masterOf h.val)))
  | 2 => if !x.epochSet && s.firstLock h then some (s.masterEpoch h) else none
  | 3 =>
    let near := match s.lockError h with
      | some e => decide (e.natAbs ≤ 1) || s.bget (aHead h.val 1) 21
      | none => false
    if s.bget (aHead h.val 0) 16 && s.bget (aFold 2) 23 && near then x.refEpoch else none
  | _ => none

/-- The epoch of a frame that begins: R32, R38, R346, R388. -/
def State.epochBegin (s : State) (h : Head) : State :=
  let s1 := if s.heads[h].begun = .start then s else s.setEpoch h.val (s.epoch h.val + 1)
  match s.epochTaken h with
  | some e => (s1.setEpoch h.val e).modHead h fun x => { x with epochSet := true }
  | none => s1

/-- A waiting tap setting at a frame boundary (R104). -/
def State.tapBoundary (s : State) (h : Head) : State :=
  let x := s.heads[h]
  let s1 := s.modHead h fun y => { y with tapNext := y.tapThen, tapThen := none }
  match x.tapNext with
  | some t => s1.tapAdopt h t
  | none => s1

/-- CLSBYTES1 to CLSBYTES4 at the reference head's FRAME strobe (R21). -/
def State.classBytes (s : State) (h : Head) : State :=
  if s.refHead = some h.val then
    let t := (List.finRange 4).foldl (fun (t : State) i => t.wr (aDram (8 + i.val)) (wd (min 0xFFFFFF (s.clsBytes[i] / 1024)))) s
    { t with clsBytes := #v[0, 0, 0, 0] }
  else s

/-- The slot under rotation takes engine e, whose cache is warm; lines that the other engine has latched and not begun are the new
one's, which latched them with it (R285). -/
def State.rotTake (s : State) (h : Head) (e : Nat) : State :=
  let n : Slot := Fin.ofNat 8 s.repair.rotSlot
  let f := fun (x : SlotLine) => if x.phase = .latched ∨ x.phase = .begun then { x with work := EngWork.idle e, fresh := false, standIn := none } else x
  let s1 := (s.fset (aHead h.val (0x10 + n.val)) 22 16 e).modHead h fun x =>
    { x with engAt := x.engAt.set n.val e, lines := x.lines.map fun w => { w with slots := w.slots.set n.val (f w.slots[n]) } }
  { s1 with repair := { s1.repair with mirror := false, rotRetry := false } }

/-- Mirroring begins: the stand-in starts with an empty cache (R285). -/
def State.mirrorBegin (s : State) (h : Head) : State :=
  let s1 := s.modEng (s.mirrorEng h (Fin.ofNat 8 s.repair.rotSlot)) EngSt.emptied
  { s1 with repair := { s1.repair with mirror := true } }

/-- The rotation's step at a frame boundary of its head (R285, R286): mirroring begins, or engines change hands. -/
def State.rotBoundary (s : State) (h : Head) : State :=
  let x := s.fget (aRot 1) 20 14
  let y := s.fget (aRot 1) 13 7
  let test := fun (t : State) (e : Nat) => ({ t with repair := { t.repair with testing := some e } } : State).fset (aRot 1) 23 21 3
  if s.rotStep = 0 ∨ s.repair.rotHead ≠ h.val ∨ s.repair.testing.isSome then s
  else match s.rotStep with
    | 1 => if s.repair.mirror then test (s.rotTake h y) x else s.mirrorBegin h
    | 2 => if s.engFailed x then test (s.rotTake h y) x else test (s.rotTake h x) y
    | 4 => if s.repair.mirror then (s.rotTake h x).fset (aRot 1) 23 21 0 else s.mirrorBegin h
    | _ => s

/-- The six strobes of a head (R168): its bit is presented to every paddock, and is not given twice at one position. -/
def State.beamStrobe (s : State) (h : Head) (b : Nat) : State :=
  let id := 0x5D8 + h.val / 4
  let s1 := (List.finRange 16).foldl (fun (t : State) p =>
    t.present p id (t.pads[p].coming id ||| wd (2 ^ (6 * (h.val % 4) + b)))) s
  s1.modHead h fun x => { x with strobed := x.strobed ||| (1 <<< b) }

/-- A strobe of head h may be given at this position: it has not been. -/
def State.strobeFree (s : State) (h : Head) (b : Nat) : Bool := s.running h.val && !s.heads[h].strobed.getLsbD b

/-- Beam-aligned entries whose X is the present position become due, in post order (R45, R47). -/
def State.markBeam (s : State) (h : Head) : State :=
  let x := s.heads[h]
  let due := x.queue.filter fun e => !e.tb && s.dueAt h e (s.posLine h.val) (s.posQuad h.val) && !x.dueBeam.contains e.idx
  s.modHead h fun y => { y with dueBeam := y.dueBeam ++ due.map (·.idx) }

/-- A frame begins (R16, R32, R36, R38, R104, R110, R112, R116, R285, R345, R366). -/
def State.frameBegin (s : State) (h : Head) : State :=
  let kind := s.heads[h].begun
  let s1 := (s.epochBegin h).splitBoundary h.val
  let s2 := (s1.endFrame h).modHead h fun x =>
    { x with
      first := kind != .flow, begun := .flow, dimFrame := if kind == .flow then x.dimLatch else s.wantDim
      dimLatch := if kind == .flow then x.dimLatch else s.wantDim, streaming := s.bget (aHead h.val 0x31) 22 }
  let s3 := (((s2.beginFrame h).openRecord h (!s2.hostMode 4 h.val) (kind == .start || kind == .release)).tapBoundary h).lockTrack h
  let s4 := (((s3.classBytes h).epochSource h (s3.epoch h.val)).rotBoundary h).powTrack
  ((((s4.beamStrobe h 1).sweepLate h).markBeam h).traceFrame h.val)

/-- FRAME_STROBE: the beam reaches line 0, quad 0.0 (R32). -/
def execFrameStrobe (h : Head) (s : State) : Host.Outcome State Fault Refusal :=
  if s.strobeFree h 1 && s.posLine h.val == 0 && s.posQuad h.val == 0 then .next (s.frameBegin h) else .next s

/-! ### The line boundary -/

/-- Evaluation of line k has not ended at its latch: the rest of its slivers is dropped (R86). -/
def State.evalCut (s : State) (h : Head) (k : Nat) : State :=
  if k < (s.raster h.val).vact && !(s.heads[h].evals.any fun e => e.line == k) && !(s.planesNow h).1.isEmpty then
    let s1 := s.inc (aObj h.val 1) 23 12
    let s2 := s1.modHead h fun x => { x with evals := x.evals ++ [{ line := k, slivers := [] }] }
    let f := s.raisedBy h k
    if f.cut then s2 else (s2.setRaised h k { f with cut := true }).evHead h.val 3
  else s

/-- Line k of the frames in work has been latched: engines work on it, or it is composed. -/
def State.latched (s : State) (h : Head) (k : Nat) : Bool :=
  (s.heads[h].lines.any fun w => w.lat.line == k) || s.heads[h].composed.any fun e => e.1 == k

/-- Line k is latched by the head's engines, unless it is already (R39, R53, R86, R366). -/
def State.latchDue (s : State) (h : Head) (k : Nat) : State :=
  if s.latched h k then s
  else
    let s1 := if k = 0 then s.modHead h fun x => { x with dimLatch := s.wantDim } else s
    let s2 := (s1.evalCut h k).latchLine h k
    match s2.heads[h].lines.find? fun w => w.lat.line == k with
    | some w => if s2.neverInTime h k && !w.lat.dim then s2.miss h w else s2
    | none => s2

/-- Line 0 becomes due: a pending lead window comes into force, and lines that are due under it at once are evaluated and
latched (R40). -/
def State.leadAdopt (s : State) (h : Head) : State :=
  let old := s.heads[h].lead
  let new := s.leadReg h.val
  let s1 := (s.modHead h fun x => { x with lead := new }).leadTrack h
  (List.range (new - old)).foldl (fun (t : State) i =>
    (if i + 1 < (s.raster h.val).vact then t.evaluate h (i + 1) else t).latchDue h (i + 1)) s1

/-- The line that becomes due at this beam line is latched (R39, R40); none before a frame has begun, and none of lines 0 to L
of a first frame. -/
def State.latchNext (s : State) (h : Head) : State :=
  let x := s.heads[h]
  if x.begun ≠ .flow ∨ (x.first && s.posLine h.val == 0) then s
  else
    let k := s.dueLine h
    let s1 := s.latchDue h k
    if k = 0 && !s.latched h 0 then s1.leadAdopt h else s1

/-- Render-aligned entries for line b + L + 1 become due at beam line b (R47). Where the window in force has changed, an X that
the change lets the beam meet twice is met twice, and one that it lets the beam pass by is not met in that frame: DESIGN
CHOICE (log entry 104). -/
def State.markRender (s : State) (h : Head) : State :=
  let x := s.heads[h]
  let due := x.queue.filter fun e => e.tb && s.dueAt h e (s.posLine h.val) 0 && !x.dueRender.contains e.idx
  if x.begun ≠ .flow then s else s.modHead h fun y => { y with dueRender := y.dueRender ++ due.map (·.idx) }

/-- LINE_STROBE: the beam reaches quad 0.0 of a line (R39, R47, R353). At line 0 the frame boundary comes first. -/
def execLineStrobe (h : Head) (s : State) : Host.Outcome State Fault Refusal :=
  if s.strobeFree h 0 && s.posQuad h.val == 0 then
    let s1 := if s.posLine h.val = 0 && s.strobeFree h 1 then s.frameBegin h else s
    .next ((((s1.beamStrobe h 0).latchNext h).markRender h).streamStrobe h (s1.posLine h.val))
  else .next s

/-- HBLANK_STROBE: quad HACT of a line (R24, R168). -/
def execHblankStrobe (h : Head) (s : State) : Host.Outcome State Fault Refusal :=
  if s.strobeFree h 2 && s.posQuad h.val == (s.raster h.val).hact then .next (s.beamStrobe h 2) else .next s

/-- HSYNC_STROBE: quad HSS of a line (R25, R168). -/
def execHsyncStrobe (h : Head) (s : State) : Host.Outcome State Fault Refusal :=
  if s.strobeFree h 4 && s.posQuad h.val == (s.raster h.val).hss then .next (s.beamStrobe h 4) else .next s

/-- VSYNC_STROBE: line VSS, quad HSS (R25, R168). -/
def execVsyncStrobe (h : Head) (s : State) : Host.Outcome State Fault Refusal :=
  let r := s.raster h.val
  if s.strobeFree h 5 && s.posQuad h.val == r.hss && s.posLine h.val == r.vss then .next (s.beamStrobe h 5) else .next s

/-- The per-frame status registers take the counts of the frame's lines (R69, R88). -/
def State.frameCounts (s : State) (h : Head) : State :=
  let c := s.heads[h].fr.now
  let s1 := (List.finRange 8).foldl (fun (t : State) n =>
    t.wr (aHead h.val (0x28 + n.val)) (wd (min 0xFFFFFF (c.fetch[n] / 64)))) s
  let s2 := (s1.fset (aObj h.val 3) 23 12 (min 4095 c.peakCand)).fset (aObj h.val 3) 10 0 c.peakSl
  (s2.fset (aObj h.val 4) 12 0 (min 8191 c.longEv)).modHead h fun x => { x with fr := { x.fr with now := x.fr.ahead, ahead := LineCounts.zero } }

/-- VBLANK_STROBE: line VACT, quad 0.0: the frame's record closes (R113). -/
def execVblankStrobe (h : Head) (s : State) : Host.Outcome State Fault Refusal :=
  if s.strobeFree h 3 && s.posQuad h.val == 0 && s.posLine h.val == (s.raster h.val).vact then
    .next ((s.closeRecord h false false).frameCounts h |>.beamStrobe h 3)
  else .next s

/-! ### What leaves at each quad -/

/-- A quad of an active line had no replacement in time (R106). -/
def State.tapLate (s : State) (h : Head) : State :=
  let x := s.heads[h]
  if x.tapLine then s
  else
    let s1 := (s.inc (aHead h.val 0x36) 15 8).modHead h fun y =>
      { y with
        tapLine := true
        sig := if y.sig.isOpen then { y.sig with taplines := y.sig.taplines + 1 } else y.sig
        fr := { y.fr with tapRaised := true } }
    if x.fr.tapRaised then s1 else s1.evDeadline h.val

/-- The dots of active quad (k, q) after the tap (R106, R107). -/
def State.tapped (s : State) (h : Head) (k q : Nat) : List Word × State :=
  let x := s.heads[h]
  let own := quadOf (s.outLine h k) q
  let tag := packBeam k q
  if !x.tap.en || x.dimFrame then (own, s)
  else if s.bget (aHead h.val 0x36) 22 then (own, s.sigFlag h 3)
  else
    let s1 := s.modHead h fun y =>
      { y with
        tapSent := y.tapSent.filter fun e => e.2 != tag
        tapOld := y.tapOld ++ y.tapSent.filter fun e => e.2 == tag
        tapBack := y.tapBack.filter fun e => e.1 != tag }
    match x.tapBack.find? fun e => e.1 == tag with
    | some (_, []) => (own, s1.tapLate h)
    | some (_, d) => (d, s1)
    | none => if x.tapSent.any fun e => e.2 == tag then (own, s1.tapLate h) else (own, s1)

/-- The output stage's check of a line and the signature unit's differ (R293). -/
def State.lineMismatch (s : State) (h : Head) : State :=
  ((s.inc (aRot (0x10 + h.val)) 23 12).evIntegrity).modHead h fun x => { x with lineBad := true }

/-- The active quad at the present position leaves: tap, blanking, signature, flags (R106, R109, R110, R116, R293). -/
def State.sendQuad (s : State) (h : Head) : State :=
  let k := s.posLine h.val
  let q := s.posQuad h.val
  let r := s.raster h.val
  if r.vact ≤ k ∨ r.hact ≤ q then s
  else
    let (own, s1) := s.tapped h k q
    let out := own.map fun w => s1.sentDot h w
    let s2 := s1.modHead h fun x =>
      let g0 := if q = 0 then { x.sig with lineOut := crc32cInit, lineSig := crc32cInit } else x.sig
      let g1 := if x.sig.isOpen then (out.zipIdx).foldl (fun g e => foldDot (4 * q + e.2) k g e.1) g0 else g0
      { x with sig := g1, dots := out }
    let s3 := if s2.bget (aHead h.val 0x31) 22 then s2 else s2.sigFlag h 1
    let s4 := if s3.blanked h then s3.sigFlag h 9 else s3
    if q + 1 = r.hact && s4.heads[h].sig.lineOut != s4.heads[h].sig.lineSig then s4.lineMismatch h else s4

/-- The line that the beam leaves is over: entries for it that have not issued are late (R46), and it is forgotten. -/
def State.leaveLine (s : State) (h : Head) : State :=
  let k := s.posLine h.val
  (s.lateRender h).modHead h fun y =>
    { y with
      tapLine := false, lines := y.lines.filter fun w => w.lat.line != k
      evals := y.evals.filter fun e => e.line != k, composed := y.composed.filter fun e => e.1 != k }

/-- A line that the beam enters with its slots unfinished has met its deadline: it is composed now (R100, R101). -/
def State.enterLine (s : State) (h : Head) (k : Nat) : State :=
  let s1 := ((s.drawn h).mirrorCheck h).modHead h fun x => { x with blank := s.bget (aHead h.val 0x30) 21 }
  match s1.heads[h].lines.find? fun w => w.lat.line == k with
  | none => s1
  | some w =>
    let s2 := s1.deadline h w
    match s2.heads[h].lines.find? fun v => v.lat.line == k with
    | some v => s2.compose h v
    | none => s2

/-- The beam of a running head moves on by one quad (R14). -/
def State.advance (s : State) (h : Head) : State :=
  let r := s.raster h.val
  let k := s.posLine h.val
  let q := s.posQuad h.val
  let s1 := (s.sendQuad h).modHead h fun x => { x with strobed := 0, sinceRef := x.sinceRef.map (· + 1) }
  if q + 1 < r.htotal then (s1.setPos h.val k (q + 1)).markBeam h
  else
    let k' := if k + 1 < r.vtotal then k + 1 else 0
    let s2 := ((s1.leaveLine h).setPos h.val k' 0).enterLine h k'
    if k' = 0 then s2 else s2.markBeam h

/-- The beam may not move: its raster stops or freezes at the end of this line. -/
def State.beamHeld (s : State) (h : Head) : Bool :=
  s.lineEnd h && (s.heads[h].phase == .stopping || s.stile.haltHead.getLsbD h.val)

/-- Heads h, and its exact slaves with it, move on (R33). -/
def State.advanceAll (s : State) (h : Head) : State :=
  (List.finRange 8).foldl (fun (t : State) g =>
    if (g == h || s.exactSlave h g) && !t.beamHeld g then t.advance g else t) s

/-- Frame slaves of head h whose SNAP restart is due restart as the master reaches PLINE:PQUAD (R37). -/
def State.snapFollow (s : State) (h : Head) : State :=
  (List.finRange 8).foldl (fun (t : State) g =>
    if g != h && t.running g.val && t.syncMode g.val == 2 && t.masterOf g.val == h.val && t.heads[g].snapDue
        && t.rd (aHead g.val 8) == t.rd (aHead h.val 9) then t.snapRestart g else t) s

/-- A head that follows its master quad by quad (R33). -/
def State.followsExactly (s : State) (h : Head) : Bool := s.syncMode h.val == 1 && s.running (s.masterOf h.val) && s.masterOf h.val != h.val

/-- BEAM_ADVANCE: a video-clock edge (R14). An exact slave moves with its master's edge. -/
def execBeamAdvance (h : Head) (s : State) : Host.Outcome State Fault Refusal :=
  if !s.running h.val || s.followsExactly h || s.beamHeld h then .next s
  else .next ((s.advanceAll h).snapFollow h)

/-! ### What the outputs carry now (views of the state) -/

/-- Horizontal sync is asserted at a position (R24, R25). -/
def Raster.hsyncAt (r : Raster) (q : Nat) : Bool := decide (r.hss ≤ q ∧ q < r.hss + r.hsw)

/-- Vertical sync is asserted at a position: from line VSS, quad HSS to line VSS + VSW, quad HSS (R25). -/
def Raster.vsyncAt (r : Raster) (k q : Nat) : Bool :=
  let t := k * r.htotal + q
  decide (r.vss * r.htotal + r.hss ≤ t ∧ t < (r.vss + r.vsw) * r.htotal + r.hss)

/-- Level of a running head's horizontal sync, by HSPOL. -/
def State.hsyncLevel (s : State) (h : Nat) : Bool := (s.raster h).hsyncAt (s.posQuad h) != s.bget (aHead h 0) 11

/-- Level of a running head's vertical sync, by VSPOL. -/
def State.vsyncLevel (s : State) (h : Nat) : Bool := (s.raster h).vsyncAt (s.posLine h) (s.posQuad h) != s.bget (aHead h 0) 10

/-- Main stream attributes of a head (R118): Htotal, Hstart, HSW, Hwidth, Vtotal, Vstart, VSW, Vheight, Nvid, HSP, VSP, and
bits per component. -/
def State.mainStream (s : State) (h : Nat) : List Nat :=
  let r := s.raster h
  [4 * r.htotal, 4 * (r.htotal - r.hss), 4 * r.hsw, 4 * r.hact, r.vtotal, r.vtotal - r.vss, r.vsw, r.vact, 32768,
   b2n (s.bget (aHead h 0) 11), b2n (s.bget (aHead h 0) 10), if s.bget (aHead h 0x32) 18 then 6 else 8]

/-- An enabled DisplayPort link sends the idle pattern: PATTERN asks for the video stream, and no video streams (R116, R120, R126). -/
def State.dpIdle (s : State) (h : Head) : Bool :=
  s.bget (aHead h.val 0x30) 23 && !s.bget (aHead h.val 0x30) 22 && s.fget (aHead h.val 0x32) 17 14 == 0 && !s.heads[h].streaming

/-- What a DisplayPort transmitter sends (R120): nothing, the video stream, the idle pattern, training pattern set n, PRBS7, the 80-bit
custom pattern with bit 0 first, CP2520 pattern 1, the symbol error measurement pattern. -/
inductive DpSends where
  | off
  | video
  | idle
  | tps (n : Nat)
  | prbs7
  | custom (pattern : BitVec 80)
  | cp2520
  | symbolErrors
deriving DecidableEq, Repr

/-- The 80-bit custom pattern of DPCUST0 to DPCUST3. -/
def State.dpCustom (s : State) (h : Nat) : BitVec 80 :=
  BitVec.ofNat 80 (((List.range 4).map fun i => (s.rd (aHead h (0x38 + i))).toNat * 2 ^ (24 * i)).sum)

/-- What head h's DisplayPort transmitter sends now (R120, R126). -/
def State.dpSends (s : State) (h : Head) : DpSends :=
  if !s.bget (aHead h.val 0x30) 23 || s.bget (aHead h.val 0x30) 22 then .off
  else match s.fget (aHead h.val 0x32) 17 14 with
    | 0 => if s.heads[h].streaming then .video else .idle
    | 5 => .prbs7
    | 6 => .custom (s.dpCustom h.val)
    | 7 => .cp2520
    | 8 => .symbolErrors
    | n => .tps n

/-- Swing and pre-emphasis level that lane l uses: pre-emphasis 3 − swing where the two levels of DPDRIVE sum to more than 3 (R120). -/
def State.laneDrive (s : State) (h l : Nat) : Nat × Nat :=
  let w := s.rd (aHead h 0x37)
  let swing := fld w (2 * l + 9) (2 * l + 8)
  (swing, min (fld w (2 * l + 1) (2 * l)) (3 - swing))

/-- The clock pair of an enabled LVDS output runs (R126). -/
def State.lvdsClock (s : State) (h : Nat) : Bool := s.bget (aHead h 0x30) 23 && s.bget (aHead h 0x30) 22 && s.running h

/-- The 27 bits of a dot on an LVDS link: RGB888 in [23:0], DE, HSYNC, VSYNC above. -/
def State.lvdsDot (s : State) (h : Head) (i : Nat) : BitVec 27 :=
  let r := s.raster h.val
  let de := decide (s.posLine h.val < r.vact ∧ s.posQuad h.val < r.hact)
  let d := if de then (nth 0 s.heads[h].dots i).toNat else 0
  BitVec.ofNat 27 (d + 2 ^ 24 * b2n de + 2 ^ 25 * b2n (s.hsyncLevel h.val) + 2 ^ 26 * b2n (s.vsyncLevel h.val))

/-- The seven bits that data pair j of link n sends for each dot of the present quad: every dot on a single link, the even columns on
link 0 and the odd ones on link 1 of a dual link (R123). The places of OpenLDI's mapping are the standard's (log entry 120). -/
def State.lvdsBits (s : State) (h : Head) (n j : Nat) : List (List Bool) :=
  let c := s.rd (aHead h.val 0x33)
  let dots := if bit c 19 then [n, n + 2] else [0, 1, 2, 3]
  if j = 5 ∨ (j = 4 ∧ bit c 18) ∨ !s.lvdsClock h.val then dots.map fun _ => List.replicate 7 false
  else dots.map fun i => (List.range 7).map fun k => (s.lvdsDot h i).getLsbD (Config.openLdi (bit c 18) j k)

/-- The head whose frame pulse drives GENLOCK_OUT (GLOUT of HCTL). -/
def State.genlockHead (s : State) : Option Nat := (List.range 8).find? fun h => s.bget (aHead h 0) 15

end Sys2Proof.Machine
end

