-- ==== Sys2Proof/Machine/Bus.lean ====
section
/-! DEFINITION. One read or write of a warden word by a requester (R7 to R10, R238 to R240): rights, the codes of the
on-chip memories, and the effect that each register's own chapter gives. The commands that name one register call the
same operations. -/

namespace Sys2Proof.Machine

/-- SECFUSE (08_paddocks_configuration.md). -/
def State.secfuse (s : State) : Word :=
  let f := s.fuses
  wd (b2n f.flock * 2 ^ 23 + b2n f.fklock * 2 ^ 22 + b2n f.rbd * 2 ^ 21 + f.dbglvl.toNat * 2 ^ 19 + f.slotrev.toNat * 2 ^ 8
    + f.arbcnt.toNat)

/-- A read returns v. -/
def State.answer (s : State) (v : Word) : State := { s with rdata := v, rfault := false }

/-- The address that an access of a requester names, a core's own tightly coupled memory being also at its second
address (R238). -/
def ownAddr (r : Requester) (a : Nat) : Nat :=
  match r, locOf a with
  | .core k _, .tcmOwn i => 0x080000 + 0x40000 * k.val + i
  | _, _ => a

/-! ### Reads -/

/-- A register's fields; RC fields clear unless the read peeks (R10, R383). -/
def State.regRead (s : State) (a : Nat) (peek : Bool) : State :=
  let fs := fieldsOf (locOf a)
  let v := readView fs (s.rd a)
  if peek then s.answer v else (s.wr a (rcView fs (s.rd a))).answer v

/-- EPOCHL or EPOCHH of head h is read (R29). -/
def State.epochRead (s : State) (r : Requester) (h : Nat) (high peek : Bool) : State :=
  let a := aHead h 0x0B
  if high then s.answer ((s.shadow r a).getD (s.rd a))
  else
    let t := s.answer (s.rd (aHead h 0x0A))
    if peek then t else t.setShadow r a (s.rd a)

/-- What the codes of a memory find, before its word is returned (R274, R275, R283). -/
def State.memRead (s : State) (r : Requester) (a region idx : Nat) (e : MemErr) : State :=
  let (t, lost) := s.readCheck region idx e
  if lost then t.accessFault r a else t.answer (readView (fieldsOf (locOf a)) (t.rd a))

/-- What a requester with rights reads at an address. -/
def State.locRead (s : State) (r : Requester) (a : Nat) (peek : Bool) (e : MemErr) : State :=
  match locOf a with
  | .head h 0x0A => s.epochRead r h false peek
  | .head h 0x0B => s.epochRead r h true peek
  | .post off => s.answer (s.postPortGet r off)
  | .bank b 5 => s.answer (s.pinInFor r (Fin.ofNat 12 b))
  | .timer t 2 =>
    if peek then s.answer ((s.tcntTake r (Fin.ofNat 16 t)).1)
    else
      let (v, u) := s.tcntTake r (Fin.ofNat 16 t)
      u.answer v
  | .timer t 6 =>
    if peek then s.answer (s.rd a)
    else
      let (v, u) := s.tcapTake (Fin.ofNat 16 t)
      u.answer v
  | .gleaner 0 => s.answer (majority s.gcfg)
  | .gleaner 1 => s.answer (majority s.gmode)
  | .secfuse => s.answer s.secfuse
  | .famidr => s.answer s.fuses.famid
  | .fold 3 =>
    let (v, u) := s.ftimelTake r
    if peek then s.answer v else u.answer v
  | .fold 4 => s.answer ((s.shadow r (aFold 4)).getD (wd (s.fold.time / 2 ^ 24)))
  | .lark 6 =>
    let (v, lost, u) := s.lmRead peek
    if lost then u.accessFault r a else u.answer v
  | .voice v w => s.answer (readView (voiceFields w) (s.voiceView (Fin.ofNat 256 v) w))
  | .vtinc =>
    let t := s.answer s.stile.vtin
    if peek then t else t.stWr 0x1A (putBit (t.stRd 0x1A) 23 false)
  | .padWin p off => s.busAccess r (Fin.ofNat 16 p) (.rd (BitVec.ofNat 12 off) peek)
  | l => match regionOf l with
    | some (g, i) => s.memRead r a g i e
    | none => s.regRead a peek

/-- A read of warden word a: 0 for a block disabled by fuse (R2), an access fault without rights or at an unmapped
address (R240). -/
def State.busRead (s : State) (r : Requester) (a0 : Nat) (peek : Bool) (e : MemErr) : State :=
  let a := ownAddr r a0
  if s.locOff (locOf a) then s.answer 0
  else if s.mayRead r (locOf a0) then s.locRead r a peek e
  else s.accessFault r a0

/-! ### Writes -/

/-- HCTL is written (R28, R30, R31, R40). -/
def State.hctlPut (s : State) (r : Requester) (h : Head) (v : Word) : State :=
  let a := aHead h.val 0
  let host := r == .host
  if s.bget a 23 then
    let s1 := ((s.fset a 14 12 (fld v 14 12)).bset a 15 (bit v 15)).leadTrack h
    if bit v 23 then s1 else s1.headStop h host
  else
    let s1 := (s.put a (putBit v 23 false)).leadTrack h
    if bit v 23 then s1.headStart h host else s1

/-- A head register is written: R28 for the raster, the checks of chapters 03 and 05 for the rest. -/
def State.headRegPut (s : State) (r : Requester) (h : Head) (off : Nat) (v : Word) : State :=
  let a := aHead h.val off
  if off = 0 then s.hctlPut r h v
  else if (2 ≤ off ∧ off ≤ 7) ∨ off = 0x0A ∨ off = 0x0B then if s.bget (aHead h.val 0) 23 then s else s.put a v
  else if 0x10 ≤ off ∧ off ≤ 0x17 then s.slotPut h (Fin.ofNat 8 (off - 0x10)) v
  else match off with
  | 0x18 => s.layctlPut h v
  | 0x1D => s.compctlPut h.val v
  | 0x1E => s.tapctlPut h v
  | 0x30 => s.outctlPut h v
  | 0x32 => s.dpctlPut h v
  | 0x33 => s.lvdsctlPut h v
  | _ => s.put a v

/-- A core's block is written: only by context 0 of that core, or by nobody (10_wardens_mailbox.md, "The duplex pair"). -/
def State.coreRegPut (s : State) (r : Requester) (k : Core) (off : Nat) (v : Word) : State :=
  match r with
  | .core j c =>
    if j = k ∧ c.val = 0 then
      match off with
      | 1 => s.wdkeyPut k v
      | 2 => s.wdcfgPut k v
      | o => s.put (aCore k.val o) v
    else s
  | _ => s

/-- PEERRST is written by a core: the other core's bit resets it (R242). -/
def State.peerrstPut (s : State) (r : Requester) (v : Word) : State :=
  match r with
  | .core k _ => if bit v (if k.val = 0 then 22 else 23) then s.coreReset (peer k) else s
  | _ => s

/-- A breakpoint word is written. At level 2 an active range must be qualified by a context of the session (R386), and
LINK 0b11 leaves the field. -/
def State.bpPut (s : State) (k i : Nat) (v : Word) : State :=
  let a := aBp k i
  if i % 3 ≠ 2 then s.put a v
  else if s.level = 2 && fld v 23 22 != 0 && !(bit v 18 && s.stile.ctxmask.getLsbD (fld v 17 12)) then s
  else
    let v1 := if fld v 20 19 = 3 then putFld v 20 19 (s.fget a 20 19) else v
    s.put a v1

/-- A stimulus port is written (R392). -/
def State.stimPut (s : State) (r : Requester) (n : Nat) (v : Word) : State :=
  if bit (s.stRd 0x11) 21 then
    s.tracePut 1 n (match r with | .core _ c => c.val | _ => 0) v
  else s

/-- VTOUTC is written (R393): one more word is dropped while the last is unread. -/
def State.vtoutcPut (s : State) (v : Word) : State :=
  let w := s.stRd 0x1A
  if bit w 22 then s.stWr 0x1A (incFld w 7 0)
  else { (s.stWr 0x1A (putBit w 22 true)) with stile := { s.stile with vtout := v } }

/-- Who operates a mailbox as this requester (R254). -/
def claimantOf : Requester → Option Claimant
  | .core k c => if c.val = 0 then some (.core k) else none
  | .host => some .host
  | .debug => some .debug
  | .paddock _ => none

/-- A word of a mailbox buffer is written, by its claimant alone (R254). -/
def State.mbbufPut (s : State) (r : Requester) (m : Mbox) (w : Nat) (v : Word) : State :=
  if s.mbufOk (claimantOf r) m w then s.mbufPut m w v else s.accessFault r (aMbbuf m.val w)

/-- A region's log is cleared (R279). -/
def State.logClear (s : State) (r : Nat) : State :=
  (List.range 32).foldl (fun (t : State) i => t.wr (aRegion r (0x10 + i)) 0) (s.fset (aRegion r 2) 4 0 0)

/-- A region block is written (R279, R281, R282). -/
def State.regionPut (s : State) (r off : Nat) (v : Word) : State :=
  match off with
  | 2 => if bit v 23 then s.logClear r else s
  | 6 => if bit v 23 then s.remapWord r (fld v 21 0) else s
  | o => s.put (aRegion r o) v

/-- A bank register is written (R299 to R314). -/
def State.bankRegPut (s : State) (r : Requester) (b : Bank) (off : Nat) (v : Word) : State :=
  match off with
  | 0 => s.bankcfgPut b v
  | 1 => s.outDirect r b.val 0 v
  | 2 => s.outDirect r b.val 1 v
  | 3 => s.outDirect r b.val 2 v
  | 4 => s.outDirect r b.val 3 v
  | 6 => s.iflagPut r b.val v
  | 7 => s.contPut b v
  | 8 => if bit v 23 then s.probeGo r b else s
  | o => if 0x10 ≤ o then s.pincfgPut r b (Fin.ofNat 24 (o - 0x10)) v else s.put (aBank b.val o) v

/-- GMODE is written: all three copies take it (R218). -/
def State.gmodePut (s : State) (v : Word) : State :=
  { s with gmode := Vector.replicate 3 (writeView (glFields 1) (majority s.gmode) v) }

/-- A memory word that the wardens address is written, with any flip armed for it (R281). -/
def State.memPut (s : State) (a region idx : Nat) (v : Word) : State := (s.put a v).writeFlip region idx

/-- The effect of a write by a requester with rights. -/
def State.locWrite (s : State) (r : Requester) (a : Nat) (v : Word) : State :=
  match locOf a with
  | .head h off => s.headRegPut r (Fin.ofNat 8 h) off v
  | .post off => s.postPortPut r off v
  | .bank b off => s.bankRegPut r (Fin.ofNat 12 b) off v
  | .timer t off => s.timerRegPut r (Fin.ofNat 16 t) off v
  | .tgo => s.tgoPut r v
  | .dramReg off => s.dramRegPut off v
  | .pad p 0 => s.pctlPut (Fin.ofNat 16 p) v
  | .gleaner 1 => s.gmodePut v
  | .gleaner 4 => if bit v 23 then s.glReset else s
  | .glProg i => s.glWrite i v
  | .icpctl => s.icpctlPut v
  | .image e w => s.imagePut (Fin.ofNat 64 e) w v
  | .bp k i => s.bpPut k i v
  | .stim n => s.stimPut r n v
  | .vtoutc => s.vtoutcPut v
  | .core k off => s.coreRegPut r (Fin.ofNat 2 k) off v
  | .peerrst => s.peerrstPut r v
  | .mbctl m => match claimantOf r with
    | some q => s.mbctlPut q (Fin.ofNat 16 m) v
    | none => s
  | .link g 0 => s.lkctlPut (Fin.ofNat 4 g) v
  | .fold off => s.foldPut off v
  | .copy n 3 => s.ccmdPut (Fin.ofNat 8 n) v
  | .lark off => s.larkRegPut r off v
  | .region g off => s.regionPut g off v
  | .padWin p off => s.busAccess r (Fin.ofNat 16 p) (.wr (BitVec.ofNat 12 off) v)
  | l => match regionOf l with
    | some (g, i) => s.memPut a g i v
    | none => s.put a v

/-- A write of warden word a. A mailbox buffer takes its claimant's writes alone; MBCTL ignores an applet context (R254);
without rights, or at an unmapped address, the write is an access fault and nothing changes (R240). -/
def State.busWrite (s : State) (r : Requester) (a0 : Nat) (v : Word) : State :=
  let a := ownAddr r a0
  let go : State := { s with rfault := false }
  match locOf a with
  | .mbbuf m w =>
    if r == .host || s.mayWrite r (.mbbuf m w) then go.mbbufPut r (Fin.ofNat 16 m) w v else s.accessFault r a0
  | .mbctl m => match r with
    | .core _ c => if c.val = 0 then go.locWrite r a v else go
    | _ => if s.mayWrite r (.mbctl m) then go.locWrite r a v else s.accessFault r a0
  | l =>
    if s.locOff l then go
    else if s.mayWrite r (locOf a0) then go.directly r a v fun t b w => t.locWrite r b w
    else s.accessFault r a0

/-! ### The commands that name one register -/

/-- EPOCHL_READ (R29). -/
def execEpochlRead (r : Requester) (h : Head) (s : State) : Host.Outcome State Fault Refusal :=
  .next (s.busRead r (aHead h.val 0x0A) false .clean)

/-- LOG_CLEAR (R279). -/
def execLogClear (q : Requester) (r : Region) (s : State) : Host.Outcome State Fault Refusal :=
  .next (s.busWrite q (aRegion r.val 2) 0x800000)

/-- STIMULUS_WRITE (R392). -/
def execStimulusWrite (r : Requester) (n : Fin 32) (v : Word) (s : State) : Host.Outcome State Fault Refusal :=
  .next (s.busWrite r (0xC7D100 + n.val) v)

/-- VTOUTC_WRITE, by Caeruno (R393). -/
def execVtoutcWrite (v : Word) (s : State) : Host.Outcome State Fault Refusal := .next (s.vtoutcPut v)

/-- VTINC_READ, by Caeruno (R393). -/
def execVtincRead (s : State) : Host.Outcome State Fault Refusal :=
  .next ((s.answer s.stile.vtin).stWr 0x1A (putBit (s.stRd 0x1A) 23 false))

end Sys2Proof.Machine
end

