-- ==== Sys2Proof/Machine/Actions.lean ====
section
/-! DEFINITION. The executor of a head: the entry that issues next, its checks and the effect of each action type (R42,
R47, R49, R283). -/

namespace Sys2Proof.Machine

/-- The entry that issues next (R47): beam-aligned ones, then render-aligned ones, then late ones in post order. -/
def State.nextDue (s : State) (h : Head) : Option QEntry :=
  let x := s.heads[h]
  let get := fun i => x.queue.find? fun e => e.idx == i
  match x.dueBeam.filterMap get with
  | e :: _ => some e
  | [] => match x.dueRender.filterMap get with
    | e :: _ => some e
    | [] => x.queue.find? fun e => x.dueLate.contains e.idx

/-- An execution of an entry is taken from the due lists; a NEXT or EPOCH entry leaves the queue (R45). -/
def State.takeDue (s : State) (h : Head) (e : QEntry) : State :=
  if e.fmode ≠ 2 then s.dropEntry h e.idx
  else s.modHead h fun x =>
    if x.dueBeam.contains e.idx then { x with dueBeam := x.dueBeam.erase e.idx }
    else if x.dueRender.contains e.idx then { x with dueRender := x.dueRender.erase e.idx }
    else { x with dueLate := x.dueLate.erase e.idx }

/-- The entry that issues next, when it is of type t: an uncorrectable one is discarded (R283), one whose requester has
lost its right is discarded and counted (R49), and any other has effect f. -/
def State.issue (s : State) (h : Head) (t : Nat) (f : State → QEntry → State) : State :=
  match s.nextDue h with
  | none => s
  | some e =>
    if e.type ≠ t then s
    else
      let (s1, lost) := s.entryCheck h e.idx
      if lost then (s1.dropEntry h e.idx).evHead h.val 1
      else if !s1.actionRight h.val e then ((s1.dropEntry h e.idx).inc (aHead h.val 0x0D) 15 8).evHead h.val 1
      else f (s1.takeDue h e) e

/-- MARK: TARGET to MARK0, VALUE to MARK1, and the beam-queue event (R42). -/
def execMark (h : Head) (s : State) : Host.Outcome State Fault Refusal :=
  .next (s.issue h 0 fun t e => ((t.wr (aHead h.val 0x0E) e.w2).wr (aHead h.val 0x0F) e.w3).evHead h.val 1)

/-- WRITE: VALUE to the target address, with the effect that a write of that register has (R42, R47), ordered among the writes
of its SCLK cycle by R50. -/
def execWrite (h : Head) (s : State) : Host.Outcome State Fault Refusal :=
  .next (s.issue h 1 fun t e => t.byQueue h.val e.w2.toNat e.w3 fun u a v => u.locWrite e.req a v)

/-- PALSWAP: palettes a and b of the head are exchanged (R68). -/
def execPalswap (h : Head) (s : State) : Host.Outcome State Fault Refusal :=
  .next (s.issue h 2 fun t e => t.palswap h.val (fld e.w2 7 4) (fld e.w2 3 0))

/-- VOICE: a key command for Lark's next sample period (R224). -/
def execVoice (h : Head) (s : State) : Host.Outcome State Fault Refusal :=
  .next (s.issue h 3 fun t e => t.keyBy (32 + h.val) (h.val + 1) (Fin.ofNat 256 (fld e.w2 7 0)) (fld e.w3 1 0))

/-- TIMER: start, stop, or reload and start (R326). -/
def execTimer (h : Head) (s : State) : Host.Outcome State Fault Refusal :=
  .next (s.issue h 4 fun t e => t.timerBy (32 + h.val) (4 + h.val) [Fin.ofNat 16 (fld e.w2 3 0)] (fld e.w3 1 0))

/-- PIN: the pin's OUT bit is set, cleared or toggled (R309). -/
def execPin (h : Head) (s : State) : Host.Outcome State Fault Refusal :=
  .next (s.issue h 5 fun t e =>
    let m := wd (2 ^ fld e.w2 4 0)
    t.outBy (32 + h.val) (4 + h.val) (fld e.w2 11 8) m (fld e.w3 1 0 + 1) m)

/-- STROBE: ASTB and AVAL of the named paddock carry the strobe, and the head and VALUE of the last to issue, which among actions of
one SCLK cycle is the higher-numbered head's (R169). -/
def execStrobe (h : Head) (s : State) : Host.Outcome State Fault Refusal :=
  .next (s.issue h 6 fun t e =>
    let p : Pad := Fin.ofNat 16 (fld e.w2 3 0)
    let m := fld (t.pads[p].coming 0x5DA ||| wd (2 ^ fld e.w2 7 4)) 15 0
    let own : CycWrite := { rank := h.val + 1, who := 32 + h.val, key := 0x1000000 + p.val, value := e.w3 }
    let last := (t.cycAfter own.who own.rank own.key).getLast?.getD own
    ((t.present p 0x5DA (wd (m + (last.rank - 1) * 2 ^ 16))).present p 0x5DB last.value).cycNote own)

/-- SWAP: a paddock swap starts (R207), planned unless it is the Gleaner's own timed reload (R295). Of several that name the paddock in
one SCLK cycle the last in the order of R50 is carried out: one that comes before another's is discarded, and one that comes after takes
that one's place, which is then discarded (R211). -/
def execSwap (h : Head) (s : State) : Host.Outcome State Fault Refusal :=
  .next (s.issue h 7 fun t e =>
    let p : Pad := Fin.ofNat 16 (fld e.w2 3 0)
    let planned := t.pads[p].repair != some (h.val, e.idx, e.gen)
    let key := 0x2000000 + p.val
    let later := !(t.cycAfter (32 + h.val) (h.val + 1) key).isEmpty
    let begun := !(t.cycNow.any fun x => x.who == 32 + h.val) && t.cycNow.any fun x => x.key == key && x.value == 1
    let u := if begun && !later then ((t.swapUndo p).swapReject p).forgetCyc key else t
    let v := if later then u.swapReject p else u.swapAction p (fld e.w3 5 0) planned none
    v.cycNote { rank := h.val + 1, who := 32 + h.val, key := key, value := wd (b2n (v.pads[p].closing && !u.pads[p].closing)) })

end Sys2Proof.Machine
end

