-- ==== Sys2Proof/Machine/Serve.lean ====
section
/-! DEFINITION. The mailbox commands of R261 that name identity, states, heads, outputs, warden words, posts and grants:
NARG ranges and states of every command, and the meaning of these. -/

namespace Sys2Proof.Machine

/-! ### The command table (R261, R273) -/

/-- Lowest and highest NARG of a command. -/
def cmdArgs : Nat → Nat × Nat
  | 0x04 => (1, 1)
  | 0x06 => (1, 59)
  | 0x07 => (1, 1)
  | 0x10 => (9, 9)
  | 0x11 => (3, 3)
  | 0x12 => (2, 2)
  | 0x13 => (1, 1)
  | 0x14 => (8, 8)
  | 0x20 => (2, 2)
  | 0x21 => (2, 59)
  | 0x22 => (5, 5)
  | 0x23 => (2, 2)
  | 0x30 => (1, 1)
  | 0x31 => (1, 1)
  | 0x40 => (4, 4)
  | 0x41 => (1, 1)
  | 0x42 => (2, 2)
  | 0x43 => (3, 3)
  | 0x44 => (2, 2)
  | 0x45 => (1, 1)
  | 0x46 => (13, 13)
  | 0x47 => (2, 2)
  | 0x48 => (37, 37)
  | 0x51 => (4, 4)
  | 0x52 => (2, 49)
  | 0x53 => (3, 3)
  | 0x58 => (2, 2)
  | 0x61 => (1, 1)
  | 0x70 => (3, 3)
  | 0x71 => (2, 2)
  | 0x72 => (1, 1)
  | 0x78 => (1, 1)
  | _ => (0, 0)

/-- A command's code is legal in the present state. CREG's ranges have states of their own (R262). -/
def State.cmdLegal (s : State) (c : Nat) : Bool :=
  if c = 0x06 ∨ c = 0x07 then s.romServes
  else if [0x01, 0x02, 0x03, 0x05, 0x50, 0x60, 0x72, 0x78].contains c then true
  else if [0x11, 0x20, 0x31, 0x43].contains c then s.dev != .boot
  else if [0x44, 0x45, 0x46, 0x47, 0x51, 0x52, 0x53].contains c then s.dev == .maint
  else s.dev != .boot && s.dev != .safe

/-- A step that serves mailbox m with command c, when word 3 of the request fits the row. -/
def State.command (s : State) (m : Mbox) (c : Nat) (sel : Word → Bool) (f : List Word → State → Served) : State :=
  s.serve m (fun k w => k == c && sel w) (cmdArgs c).1 (cmdArgs c).2 (fun t => t.cmdLegal c) f

/-- Every request of the command. -/
def anyReq : Word → Bool := fun _ => true

/-- Argument i. -/
def argAt (a : List Word) (i : Nat) : Word := nth 0 a i

/-- The core that serves mailbox m. -/
def State.server (s : State) (m : Mbox) : Core := if s.bget (aMbctl m.val) 16 then 1 else 0

/-- Caeruno acting for mailbox m. -/
def State.caeruno (s : State) (m : Mbox) : Requester := .core (s.server m) 0

/-! ### Identity and states (R250, R257, R261) -/

/-- The results of IDENT. -/
def State.identWords (s : State) : List Word := [s.identity, s.cae.version, s.secfuse, s.fuses.famid]

/-- IDENT. -/
def execIdent (m : Mbox) (s : State) : Host.Outcome State Fault Refusal :=
  .next (s.command m 0x01 anyReq fun _ t => .done t 0 t.identWords)

/-- SET of mailboxes lo to lo + n − 1, from bit 0. -/
def State.setFlags (s : State) (lo n : Nat) : Nat :=
  ((List.finRange 16).filter fun m => decide (lo ≤ m.val ∧ m.val < lo + n) && s.mboxes[m].isSet).foldl
    (fun k m => k + 2 ^ (m.val - lo)) 0

/-- The results of STATUS. -/
def State.statusWords (s : State) : List Word :=
  [wd (s.reason.toNat * 2 ^ 16 + s.role 0 * 2 ^ 14 + s.role 1 * 2 ^ 12 + s.setFlags 0 12), wd (s.setFlags 12 4),
   wd s.cae.uptime, wd (s.cae.uptime >>> 24)]

/-- STATUS. -/
def execStatus (m : Mbox) (s : State) : Host.Outcome State Fault Refusal :=
  .next (s.command m 0x02 anyReq fun _ t => .done t 0 t.statusWords)

/-- SEQSYNC: its acceptance has set EXP (R259). -/
def execSeqsync (m : Mbox) (s : State) : Host.Outcome State Fault Refusal :=
  .next (s.command m 0x03 anyReq fun _ t => .done t 0 [])

/-- A device state is entered: the ledger is written, and Caeruno enables rotation testing on entry to READY (R250, R287, R297). -/
def State.enterDev (s : State) (d : DevState) (reason : BitVec 8) : State :=
  let t := (s.toDev d reason).ledgerSave
  if d = .ready then t.bset (aRot 0) 23 true else t

/-- The transitions that SETSTATE makes (R250). -/
def State.target (s : State) (n : Nat) : Option DevState :=
  match s.dev, n with
  | .ready, 2 => if s.anyRunning then some .live else none
  | .live, 1 => some .ready
  | .ready, 3 => some .maint
  | .live, 3 => some .maint
  | .maint, 1 => some .ready
  | _, _ => none

/-- SETSTATE. -/
def execSetstate (m : Mbox) (s : State) : Host.Outcome State Fault Refusal :=
  .next (s.command m 0x04 anyReq fun a t =>
    match t.target (fld (argAt a 0) 2 0) with
    | some d => .done (t.enterDev d 3) 0 []
    | none => .done t 2 [])

/-- RESET: answered now; the device resets 1 ms later, and SET of every mailbox is clear (R259, R261). -/
def execReset (m : Mbox) (s : State) : Host.Outcome State Fault Refusal :=
  .next (s.command m 0x05 anyReq fun _ t =>
    .done { t with pow := { t.pow with resetDue := true }, mboxes := t.mboxes.map fun x => { x with isSet := false } } 0 [])

/-! ### Heads and outputs (R28, R30, R261, R262, R294, R404) -/

/-- A head argument names a head that is there (R2). -/
def State.badHead (s : State) (h : Nat) : Bool := decide (8 ≤ h) || s.headOff h

/-- A register as a command's response returns it: with the peek attribute (R261). -/
def State.peekReg (s : State) (a : Nat) : Word := readView (fieldsOf (locOf a)) (s.rd a)

/-- HEADCFG: timing, PLL and phase, then every field of HCTL but RUN. -/
def execHeadcfg (m : Mbox) (s : State) : Host.Outcome State Fault Refusal :=
  .next (s.command m 0x10 anyReq fun a t =>
    let h : Head := Fin.ofNat 8 (argAt a 0).toNat
    let r := t.caeruno m
    if t.badHead (argAt a 0).toNat then .done t 2 []
    else
      let u := (List.range 7).foldl (fun (x : State) i => x.headRegPut r h (2 + i) (argAt a (1 + i))) t
      .done (u.hctlPut r h (putBit (argAt a 8) 23 (u.bget (aHead h.val 0) 23))) 0 [])

/-- HEADRUN: the epoch, then RUN; a start that passes its checks makes the head configured (R294). -/
def execHeadrun (m : Mbox) (s : State) : Host.Outcome State Fault Refusal :=
  .next (s.command m 0x11 anyReq fun a t =>
    let h : Head := Fin.ofNat 8 (fld (argAt a 0) 2 0)
    let run := bit (argAt a 0) 23
    if t.badHead h.val then .done t 2 []
    else
      let was := t.bget (aHead h.val 0) 23
      let r := t.caeruno m
      let t1 := (t.headRegPut r h 0x0A (argAt a 1)).headRegPut r h 0x0B (argAt a 2)
      let t2 := if run && !was then t1.headStart h true else if !run && was then t1.headStop h true else t1
      let t3 := t2.modHead h fun x =>
        { x with configured := if run && !was then t2.bget (aHead h.val 0) 23 else x.configured && run }
      .done t3 0 [t3.peekReg (aHead h.val 1)])

/-- The ranges that CREG writes, with the states of each (R262). -/
def cregStates : Loc → Option (DevState → Bool)
  | .head _ off =>
    if (0x30 ≤ off ∧ off ≤ 0x33) ∨ (0x37 ≤ off ∧ off ≤ 0x3B) then some fun d => d != .boot && d != .safe else none
  | .dramReg off =>
    if 2 ≤ off ∧ off ≤ 4 then some fun d => d != .boot && d != .safe
    else if 0x10 ≤ off then some fun d => d == .ready || d == .maint else none
  | .pad _ off =>
    if off = 0 ∨ (6 ≤ off ∧ off ≤ 9) ∨ off = 0x0D ∨ (0x10 ≤ off ∧ off ≤ 0x1F) then some fun d => d != .boot && d != .safe
    else none
  | .prbsel _ => some fun d => d != .boot && d != .safe
  | .lark off =>
    if off ≤ 4 ∨ off = 0x0A ∨ 0x10 ≤ off then some fun d => d != .boot && d != .safe else none
  | _ => none

/-- CREG: a permitted register is written with Caeruno's rights and read back with the peek attribute (R262). -/
def execCreg (m : Mbox) (s : State) : Host.Outcome State Fault Refusal :=
  .next (s.command m 0x12 anyReq fun a t =>
    let l := locOf (argAt a 0).toNat
    match cregStates l with
    | none => if t.dev = .boot ∨ t.dev = .safe then .done t 8 [] else .done t 3 []
    | some ok =>
      if !ok t.dev then .done t 8 []
      else if t.locOff l then .done t 2 []
      else
        let u := t.busWrite (t.caeruno m) (argAt a 0).toNat (argAt a 1)
        let v := u.busRead (t.caeruno m) (argAt a 0).toNat true .clean
        .done v 0 [v.rdata])

/-- DPTRAIN may train: the output enabled on DisplayPort, a sink, and no shut lane among those selected (R404). -/
def State.trainable (s : State) (h : Head) : Bool :=
  let o := s.rd (aHead h.val 0x30)
  let st := s.rd (aHead h.val 0x31)
  bit o 23 && !bit o 22 && bit st 23 && (List.range (laneCount (s.fget (aHead h.val 0x32) 23 22))).all fun l => !bit st (17 + l)

/-- DPTRAIN: PATTERN returns to 0, DPDRIVE holds the last levels, and TRAINOK says whether the sink trained (R404). -/
def execDptrain (m : Mbox) (o : TrainOutcome) (s : State) : Host.Outcome State Fault Refusal :=
  .next (s.command m 0x13 anyReq fun a t =>
    let h : Head := Fin.ofNat 8 (argAt a 0).toNat
    if t.badHead (argAt a 0).toNat || !t.trainable h then .done t 2 []
    else
      let t1 := (t.bset (aHead h.val 0x32) 13 false).linkTrack h
      let t2 := (t1.fset (aHead h.val 0x32) 17 14 0).put (aHead h.val 0x37) o.drive
      let t3 := (t2.bset (aHead h.val 0x32) 13 o.ok).linkTrack h
      .done t3 (if o.ok then 0 else 4) [t3.peekReg (aHead h.val 0x32), t3.peekReg (aHead h.val 0x37)])

/-- AUX reads: the bytes that the sink returned, packed; what no byte fills is free (log entry 31). -/
def execAuxRead (m : Mbox) (d : List Byte) (s : State) : Host.Outcome State Fault Refusal :=
  .next (s.command m 0x14 (fun w => !bit w 23) fun a t =>
    if t.badHead (fld (argAt a 1) 23 21) then .done t 2 []
    else
      let got := d.take (fld (argAt a 1) 3 0 + 1)
      let (fill, u) := t.drawWords 6
      .done u 0 (wordsOfBytes (got ++ (bytesOfWords fill).drop got.length)))

/-- AUX writes: the bytes leave for the sink, and the six words of the response carry nothing stated (log entry 31). -/
def execAuxWrite (m : Mbox) (s : State) : Host.Outcome State Fault Refusal :=
  .next (s.command m 0x14 (fun w => bit w 23) fun a t =>
    if t.badHead (fld (argAt a 1) 23 21) then .done t 2 []
    else
      let (fill, u) := t.drawWords 6
      .done u 0 fill)

/-! ### Warden words (R263) -/

/-- A paddock window's word is reached now, or must wait for the paddock (R176, R177). -/
def State.windowOf (s : State) (a : Nat) : Option Pad :=
  match locOf a with
  | .padWin p _ => if s.padOff p || !s.clocked p then none else some (Fin.ofNat 16 p)
  | _ => none

/-- WREAD goes on from the words done; it waits at a paddock's window until the design answers. -/
def State.wreadGo (s : State) (m : Mbox) (base : Nat) : Nat → List Word → Served
  | 0, done => .done s 0 done
  | k + 1, done =>
    let a := (base + done.length) % 2 ^ 24
    match s.windowOf a with
    | some p =>
      let idle := s.pads[p].wb.isNone
      let t := if idle then s.busAccess .host p (.rd (BitVec.ofNat 12 a) false) else s
      .held (t.modMbox m fun x => { x with hold := .window p done idle })
    | none =>
      let t := s.busRead .host a false .clean
      if t.rfault then .done t 7 [wd done.length] else t.wreadGo m base k (done ++ [t.rdata])

/-- WWRITE goes on from the words done. -/
def State.wwriteGo (s : State) (m : Mbox) (base : Nat) : List Word → List Word → Served
  | [], _ => .done s 0 []
  | v :: rest, done =>
    let a := (base + done.length) % 2 ^ 24
    match s.windowOf a with
    | some p =>
      let idle := s.pads[p].wb.isNone
      let t := if idle then s.busAccess .host p (.wr (BitVec.ofNat 12 a) v) else s
      .held (t.modMbox m fun x => { x with hold := .window p done idle })
    | none =>
      let t := s.busWrite .host a v
      if t.rfault then .done t 7 [wd done.length] else t.wwriteGo m base rest (done ++ [v])

/-- Addresses base to base + n − 1, modulo 2^24. -/
def addrRun (base n : Nat) : List Nat := (List.range n).map fun i => (base + i) % 2 ^ 24

/-- WREAD. -/
def execWread (m : Mbox) (s : State) : Host.Outcome State Fault Refusal :=
  .next (s.command m 0x20 anyReq fun a t =>
    let base := (argAt a 0).toNat
    let n := (argAt a 1).toNat
    if n < 1 ∨ 58 < n then .done t 2 []
    else if (addrRun base n).any fun x => caeOnly (locOf x) then .done t 3 []
    else t.wreadGo m base n [])

/-- WWRITE. -/
def execWwrite (m : Mbox) (s : State) : Host.Outcome State Fault Refusal :=
  .next (s.command m 0x21 anyReq fun a t =>
    if (addrRun (argAt a 0).toNat (a.length - 1)).any fun x => caeOnly (locOf x) then .done t 3 []
    else t.wwriteGo m (argAt a 0).toNat (a.drop 1) [])

/-- The command that waits at the window of paddock p goes on: with what the access returned, or with FAULT (R263). -/
def State.windowDone (s : State) (m : Mbox) (done : List Word) (fault : Bool) : State :=
  let a := s.reqArgs m
  let base := (argAt a 0).toNat
  let r : Served :=
    if fault then .done s 7 [wd done.length]
    else if s.reqCmd m = 0x20 then s.wreadGo m base ((argAt a 1).toNat - done.length - 1) (done ++ [s.rdata])
    else s.wwriteGo m base (a.drop (done.length + 2)) (done ++ [0])
  match r with
  | .done t c ws => t.dropShadows.mbFinish m c ws
  | .held t => t

/-- A command whose turn at the window of paddock p has come presents its access. -/
def State.windowTurn (s : State) (m : Mbox) (done : List Word) : State :=
  let a := s.reqArgs m
  let base := (argAt a 0).toNat
  let r : Served :=
    if s.reqCmd m = 0x20 then s.wreadGo m base ((argAt a 1).toNat - done.length) done
    else s.wwriteGo m base (a.drop (done.length + 1)) done
  match r with
  | .done t c ws => t.dropShadows.mbFinish m c ws
  | .held t => t

/-- The mailboxes that wait at the window of paddock p, with the words done and whether their access has been shown. -/
def State.windowWaits (s : State) (p : Pad) : List (Mbox × List Word × Bool) :=
  (List.finRange 16).filterMap fun m => match s.mboxes[m].hold with
    | .window q done shown => if q = p ∧ s.mbPhase m = 3 then some (m, done, shown) else none
    | _ => none

/-- The debug master's waiting access at the window of paddock p is presented. -/
def State.debugTurn (s : State) (p : Pad) : State :=
  match s.stile.bmWait with
  | some (q, a) =>
    if q = p then ({ s with stile := { s.stile with bmWait := none } } : State).busAccess .debug p a else s
  | none => s

/-- The end of a window access reaches the command it was for, and the next command in turn. -/
def State.windowNext (s : State) (p : Pad) (e : Option BusEnd) : State :=
  match e with
  | none => s
  | some x =>
    let s1 := if x.req ≠ .host then s
      else match (s.windowWaits p).find? fun w => w.2.2 with
        | some (m, done, _) => s.windowDone m done x.fault
        | none => s
    if s1.pads[p].wb.isSome then s1
    else match (s1.windowWaits p).find? fun w => !w.2.2 with
      | some (m, done, _) => s1.windowTurn m done
      | none => s1.debugTurn p

/-- WARDENS_BUS_ACK (R176). -/
def execWardensBusAck (p : Pad) (s : State) : Host.Outcome State Fault Refusal :=
  let (t, e) := s.busAck p
  .next (t.windowNext p e).relayStep

/-- WARDENS_BUS_TIMEOUT (R177). -/
def execWardensBusTimeout (p : Pad) (s : State) : Host.Outcome State Fault Refusal :=
  let (t, e) := s.busTimeout p
  .next (t.windowNext p e).relayStep

/-! ### Beam action entries (R2, R43, R261) -/

/-- An entry names a head or paddock disabled by fuse (R2). -/
def State.namesOff (s : State) (w1 w2 : Word) : Bool :=
  match fld w1 23 20 with
  | 1 => s.locOff (locOf w2.toNat)
  | 6 => s.padOff (fld w2 3 0)
  | 7 => s.padOff (fld w2 3 0)
  | _ => false

/-- A core's post port holds what was posted through it. -/
def State.portTake (s : State) (k : Core) (h : Nat) (ws : List Word) (status : Word) : State :=
  { s with ports := vmod s.ports ⟨k.val, by omega⟩ fun q =>
    match ws with
    | [a, b, c, d] => { head := h, w0 := a, w1 := b, w2 := c, w3 := d, status := status }
    | _ => { q with head := h, status := status } }

/-- A post made for a requester on core k's port: arguments head and words 0 to 3. -/
def State.qpostCmd (s : State) (r : Requester) (k : Core) (a : List Word) : Served :=
  let h : Head := Fin.ofNat 8 (fld (argAt a 0) 2 0)
  if s.headOff h.val || s.namesOff (argAt a 2) (argAt a 3) then .done s 2 []
  else
    let (t, st) := s.post r h (argAt a 1) (argAt a 2) (argAt a 3) (argAt a 4)
    .done (t.portTake k h.val [argAt a 1, argAt a 2, argAt a 3, argAt a 4] st) 0 [st]

/-- A cancel made for a requester on core k's port: arguments head and handle. -/
def State.qcancelCmd (s : State) (r : Requester) (k : Core) (a : List Word) : Served :=
  let h : Head := Fin.ofNat 8 (fld (argAt a 0) 2 0)
  if s.headOff h.val || s.headOff (fld (argAt a 1) 20 18) then .done s 2 []
  else
    let (t, st) := s.cancel r h (argAt a 1)
    .done (t.portTake k h.val [] st) 0 [st]

/-- QPOST. -/
def execQpost (m : Mbox) (s : State) : Host.Outcome State Fault Refusal :=
  .next (s.command m 0x22 anyReq fun a t => t.qpostCmd .host (t.server m) a)

/-- QCANCEL. -/
def execQcancel (m : Mbox) (s : State) : Host.Outcome State Fault Refusal :=
  .next (s.command m 0x23 anyReq fun a t => t.qcancelCmd .host (t.server m) a)

/-! ### Grants (R264, R304, R305) -/

/-- INDEX values of a KIND. -/
def kindSize : Nat → Nat
  | 0 => 8
  | 1 => 64
  | 2 => 16
  | 3 => 16
  | 4 => 16
  | 5 => 288
  | _ => 0

/-- KIND and INDEX name a resource that is there. -/
def State.badKind (s : State) (kind idx : Nat) : Bool :=
  decide (kindSize kind ≤ idx) || (kind == 0 && s.headOff idx) || (kind == 3 && s.padOff idx)

/-- GRANTEE names nobody who may hold a right. -/
def State.badGrantee (s : State) (g : Nat) : Bool :=
  g == 0 || (decide (64 ≤ g) && (nbits g 5 4 != 0 || s.padOff (nbits g 3 0)))

/-- A right is withdrawn; a pin returns to the host. -/
def State.ungrant (s : State) (x : Grant) : State :=
  let t : State := { s with cae := { s.cae with grants := s.cae.grants.filter fun y => decide (y ≠ x) } }
  if x.kind = 5 then t.pinGive (Fin.ofNat 12 (x.index / 24)) (x.index % 24) 0 0 else t

/-- A right is given; a pin has one grantee, and a pair one (R301). -/
def State.grant (s : State) (x : Grant) : State :=
  let pins := (s.pairPins (Fin.ofNat 12 (x.index / 24)) (x.index % 24)).map (x.index / 24 * 24 + ·)
  let keep := s.cae.grants.filter fun y => !(x.kind == 5 && y.kind == 5 && pins.contains y.index)
  let t : State := { s with cae := { s.cae with grants := keep ++ [x] } }
  if x.kind = 5 then
    t.pinGive (Fin.ofNat 12 (x.index / 24)) (x.index % 24) (if x.grantee < 64 then 1 else 2) (x.grantee % 64)
  else t

/-- The right that GRANT's word names. -/
def grantOf (w : Word) : Grant := { kind := fld w 22 20, index := fld w 19 8, grantee := fld w 6 0 }

/-- GRANT after its state check. -/
def State.grantCmd (s : State) (on : Bool) (x : Grant) : Served :=
  let b := x.index / 24
  let n := x.index % 24
  let func := s.pinFunc b (s.govPin (Fin.ofNat 12 b) n)
  let held := s.cae.grants.contains x
  if s.badKind x.kind x.index || s.badGrantee x.grantee then .done s 2 []
  else if x.kind = 5 && on && decide (2 ≤ func ∧ func ≤ 5) then .done s 2 []
  else if x.kind = 5 && (s.pinOwner b n).1 == 3 then .done s 3 []
  else if on == held then .done s 0 [wd s.cae.grants.length]
  else
    let t := if on then s.grant x else s.ungrant x
    if 512 < t.cae.grants.length then .done s 6 [] else .done t 0 [wd t.cae.grants.length]

/-- GRANT with ON. -/
def execGrantOn (m : Mbox) (s : State) : Host.Outcome State Fault Refusal :=
  .next (s.command m 0x30 (fun w => bit w 23) fun a t => t.grantCmd true (grantOf (argAt a 0)))

/-- GRANT with ON clear. -/
def execGrantOff (m : Mbox) (s : State) : Host.Outcome State Fault Refusal :=
  .next (s.command m 0x30 (fun w => !bit w 23) fun a t => t.grantCmd false (grantOf (argAt a 0)))

/-- GRANTLIST: the count, and up to 60 grantees in the order of their grants (log entry 32). -/
def execGrantlist (m : Mbox) (s : State) : Host.Outcome State Fault Refusal :=
  .next (s.command m 0x31 anyReq fun a t =>
    let x := grantOf (argAt a 0)
    if t.badKind x.kind x.index then .done t 2 []
    else
      let g := (t.cae.grants.filter fun y => y.kind == x.kind && y.index == x.index).map fun y => wd y.grantee
      .done t 0 (wd g.length :: g.take 60))

end Sys2Proof.Machine
end

