-- ==== Sys2Proof/Machine/Streams.lean ====
section
/-! DEFINITION. Configuration streams and the commands about them: staging, loads, the Gleaner's requests, binding
records, keys and fuses (R190 to R204, R212, R265 to R267). -/

namespace Sys2Proof.Machine

/-! ### The header (R190, R191) -/

/-- A stream as its header describes it. `segs` gives the length and the paddock of each segment. -/
structure Stream where
  hdr : List Byte
  kind : Nat
  keysrc : Nat
  target : Word
  arb : Nat
  version : Nat
  padmask : Nat
  nseg : Nat
  sigslot : Nat
  family : Word
  sid : List Byte
  wkey : List Byte
  mapdig : List Byte
  pubkey : List Byte
  segs : List (Nat × Nat)
deriving DecidableEq, Repr

/-- n bytes of a list from i, zeros beyond its end. -/
def slice (l : List Byte) (i n : Nat) : List Byte := (List.range n).map fun k => nth 0 l (i + k)

/-- The header at the start of what `g` reads: offset and length to bytes. -/
def readStream (g : Nat → Nat → List Byte) : Stream :=
  let n := (nth 0 (g 18 1) 0).toNat
  let h := g 0 (320 + 32 * n)
  let num := fun i k => ofBytesLE (slice h i k)
  { hdr := h, kind := num 6 1, keysrc := num 7 1, target := wd (num 8 3), arb := num 11 1, version := num 12 4
    padmask := num 16 2, nseg := n, sigslot := num 19 1, family := wd (num 20 3), sid := slice h 24 16
    wkey := slice h 40 40, mapdig := slice h 80 48, pubkey := slice h 128 96
    segs := (List.range n).map fun i => (num (224 + 32 * i) 4, num (228 + 32 * i) 1) }

/-- Header entry i. -/
def Stream.entry (x : Stream) (i : Nat) : List Byte := slice x.hdr (224 + 32 * i) 32

/-- Bytes of the header and the segments. -/
def Stream.size (x : Stream) : Nat := 320 + 32 * x.nseg + (x.segs.map (·.1)).sum

/-- The paddocks of PADMASK, ascending. -/
def Stream.pads (x : Stream) : List Nat := (List.range 16).filter fun p => x.padmask.testBit p

/-- Paddock numbers do not fall. -/
def ascending : List Nat → Bool
  | a :: b :: t => decide (a ≤ b) && ascending (b :: t)
  | _ => true

/-- MAGIC, FORMAT, TARGET, PADMASK, the entries and the stream's bytes are in order (R191, R192). -/
def State.streamFits (s : State) (x : Stream) (bytes : Nat) : Bool :=
  x.hdr.take 4 == ascii "KZSW" && ofBytesLE (slice x.hdr 4 2) == 1 && fld x.target 23 4 == fld s.identity 23 4
    && decide (fld x.target 3 0 ≤ fld s.identity 3 0) && x.padmask != 0 && !(x.pads.any fun p => s.padOff p)
    && decide (1 ≤ x.nseg ∧ x.nseg ≤ 64) && (x.segs.all fun e => decide (3 ≤ e.1 ∧ e.1 ≤ 262143) && e.1 % 3 == 0 && x.pads.contains e.2)
    && ascending (x.segs.map (·.2)) && (x.pads.all fun p => x.segs.any fun e => e.2 == p) && decide (x.size ≤ bytes)

/-- A public key is that of a signing-key fuse slot, programmed and not revoked (R191, R196). -/
def State.slotHolds (s : State) (n : Nat) (pub : List Byte) : Bool :=
  if h : n < 4 then
    !s.fuses.slotrev.getLsbD n && s.fuses.slots[n] == some (BitVec.ofNat 384 (ofBytesBE (sha384 pub)))
  else false

/-- The slot and rollback checks of a stream (R191). -/
def State.streamKeyed (s : State) (x : Stream) : Bool :=
  s.slotHolds x.sigslot x.pubkey && decide (s.fuses.arbcnt.toNat ≤ x.arb)

/-- The signature verifies (R191). -/
def Stream.signed (x : Stream) : Bool :=
  ecdsaVerify x.pubkey (x.hdr.take (224 + 32 * x.nseg)) (x.hdr.drop (224 + 32 * x.nseg))

/-- A header passes R191. -/
def State.streamValid (s : State) (x : Stream) (bytes : Nat) : Bool :=
  s.streamFits x bytes && s.streamKeyed x && x.signed

/-- K0 of a stream: from its binding record, or from WKEY (R193, R194). -/
def State.streamKey (s : State) (x : Stream) (g : Nat → Nat → List Byte) (bytes : Nat) : Option (List Byte) :=
  let b := if x.size + 48 ≤ bytes then g x.size 48 else []
  if b.take 4 = ascii "KZBD" then keyUnwrap (kdf s.fuses.drk "KZSW-KEK-DEV" x.sid) ((b.drop 4).take 40)
  else if x.keysrc = 1 ∧ x.family = s.fuses.famid ∧ s.fuses.famid ≠ 0 then
    keyUnwrap (kdf s.fuses.famk "KZSW-KEK-FAM" (bytesBE 3 x.family.toNat)) x.wkey
  else none

/-- The key of segment i + n, from that of segment i (R194). -/
def keyChain (sid : List Byte) (i : Nat) : Nat → List Byte → List Byte
  | 0, k => k
  | n + 1, k => keyChain sid (i + 1) n (kdf k "KZSW-SEG" (sid ++ be32 (i + 1)))

/-- Every segment's tag checks (R194). -/
def Stream.tagsGood (x : Stream) (k0 : List Byte) (g : Nat → Nat → List Byte) : Bool :=
  (decryptSegs (fun off n => (g (320 + 32 * x.nseg + off) n, true)) x.entry x.sid 0 x.nseg 0 0 k0).2.all (·.2)

/-! ### Staging (R202, R212, R265) -/

/-- Free entries of the image table, lowest first. -/
def State.freeImages (s : State) : List Nat := (List.range 64).filter fun e => !s.bget (aImage e 0) 23

/-- Bits set in the flag words of a map. -/
def flagCount (ws : List Word) : Nat := ((List.range 800).filter fun f => bit (nth 0 ws (f / 24)) (f % 24)).length

/-- The words of the map that belong to each of n paddocks. -/
def mapParts : Nat → List Word → List (List Word)
  | 0, _ => []
  | n + 1, ws =>
    let k := 34 + 96 * flagCount (ws.take 34)
    ws.take k :: mapParts n (ws.drop k)

/-- Bytes rounded up to units of 2 KiB. -/
def areaUnits (n : Nat) : Nat := (n + 2047) / 2048

/-- What staging stores for one paddock: segments, their header entries, mask words. -/
structure StagePart where
  pad : Nat
  seg0 : Nat
  nseg : Nat
  seg : List Byte
  entries : List Byte
  flags : List Word
  masks : List Byte
deriving DecidableEq, Repr

/-- Units of 2 KiB that a part takes. -/
def StagePart.units (x : StagePart) : Nat := areaUnits x.seg.length + areaUnits x.entries.length + areaUnits x.masks.length

/-- The parts of a stream. -/
def Stream.parts (x : Stream) (g : Nat → Nat → List Byte) (map : List Word) : List StagePart :=
  (x.pads.zip (mapParts x.pads.length map)).map fun e =>
    let seg0 := (x.segs.takeWhile fun q => q.2 != e.1).length
    let mine := x.segs.filter fun q => q.2 == e.1
    let off := ((x.segs.take seg0).map (·.1)).sum
    { pad := e.1, seg0 := seg0, nseg := mine.length, seg := g (320 + 32 * x.nseg + off) (mine.map (·.1)).sum
      entries := ((List.range mine.length).map fun i => x.entry (seg0 + i)).flatten
      flags := e.2.take 34, masks := bytesOfWords (e.2.drop 34) }

/-- One part is placed at unit u of 2 KiB and in image entry e; VALID is set last (R202). -/
def State.stagePart (s : State) (q : DramUser) (x : Stream) (k0 : List Byte) (p : StagePart) (u : Nat) (e : Fin 64) : State :=
  let ue := u + areaUnits p.seg.length
  let um := ue + areaUnits p.entries.length
  let t := ((s.queueWrite q (2048 * u) p.seg).queueWrite q (2048 * ue) p.entries).queueWrite q (2048 * um) p.masks
  let key : KeyEnt := { key := keyChain x.sid 0 p.seg0 k0, streamId := x.sid, sigslot := x.sigslot, arb := x.arb, segs := p.nseg }
  let t1 : State := { t with keys := t.keys.set e (some key) }
  let t2 := (List.range 64).foldl (fun (y : State) i => y.glWrite (0x40 * e.val + i) (nth 0 p.flags i)) t1
  let t3 := ((t2.wr (aImage e.val 1) (wd u)).wr (aImage e.val 2) (wd ue)).wr (aImage e.val 3) (wd um)
  t3.wr (aImage e.val 0) (wd (2 ^ 23 + p.pad * 2 ^ 19 + (p.nseg - 1) * 2 ^ 13 + p.seg0 * 2 ^ 7))

/-- Parts are placed one after the other from unit u in the entries given. -/
def State.stageParts (s : State) (q : DramUser) (x : Stream) (k0 : List Byte) : List StagePart → List Nat → Nat → State
  | p :: ps, e :: es, u => (s.stagePart q x k0 p u (Fin.ofNat 64 e)).stageParts q x k0 ps es (u + p.units)
  | _, _, _ => s

/-- Where Caeruno stages: an area of its choice that holds every part (log entry 33). -/
def State.stageBase (s : State) (units : Nat) : Nat × State :=
  let (n, t) := s.draw
  (n % (s.dramCap / 2048 - units + 1), t)

/-- Entry numbers, four to a word. -/
def packEntries (es : List Nat) : List Word :=
  (List.range 4).map fun i => wd (((es.drop (4 * i)).take 4).zipIdx.map fun e => e.1 * 2 ^ (6 * e.2)).sum

/-- A stream that has passed every check is staged: the entries it takes, in paddock order. -/
def State.stageGo (s : State) (q : DramUser) (x : Stream) (g : Nat → Nat → List Byte) (k0 : List Byte) (map : List Word) : State × List Nat :=
  let ps := x.parts g map
  let es := s.freeImages.take ps.length
  let (u, t) := s.stageBase (ps.map StagePart.units).sum
  (t.stageParts q x k0 ps es u, es)

/-- Bytes of DRAM from the address that an argument gives as bits [34:11]. -/
def State.dramAt (s : State) (w : Word) (off n : Nat) : List Byte := s.nowBytes (2048 * w.toNat + off) n

/-- Caeruno on core k as a user of DRAM. -/
def State.caeUser (s : State) (m : Mbox) : DramUser := .core (s.server m) 0

/-- Caeruno reads n bytes of DRAM from the address an argument gives: class-4 reads, those beyond the capacity counted (R130, R141). -/
def State.caeRead (s : State) (w : Word) (n : Nat) : State :=
  let us := unitsOf (2048 * w.toNat) n
  let k := (us.filter fun u => decide (32 * u < s.dramCap)).length
  let t := s.countOor us
  { t with clsBytes := vmod t.clsBytes 3 fun b => b + 32 * k }

/-- STAGE (R265). -/
def execStage (m : Mbox) (s : State) : Host.Outcome State Fault Refusal :=
  .next (s.command m 0x40 anyReq fun a t0 =>
    let t := (t0.caeRead (argAt a 0) (argAt a 1).toNat).caeRead (argAt a 2) (3 * (argAt a 3).toNat)
    let g := t.dramAt (argAt a 0)
    let x := readStream g
    let bytes := (argAt a 1).toNat
    let map := wordsOfBytes (t.dramAt (argAt a 2) 0 (3 * (argAt a 3).toNat))
    let room := decide (((x.parts g map).map StagePart.units).sum ≤ t.dramCap / 2048)
    if !t.streamFits x bytes then .done t 2 []
    else if !t.streamKeyed x then .done t 3 []
    else if t.freeImages.length < x.pads.length || !room then .done t 6 []
    else
      match t.streamKey x g bytes with
      | none => .done t 4 []
      | some k0 =>
        if !x.signed || sha384 (bytesOfWords map) != x.mapdig then .done t 4 []
        else
          let (u, es) := t.stageGo (t.caeUser m) x g k0 map
          .done u 0 (wd x.padmask :: packEntries es))

/-- An argument that names an image entry out of range or not VALID. -/
def State.badImage (s : State) (w : Word) : Bool := decide (64 ≤ w.toNat) || !s.bget (aImage w.toNat 0) 23

/-- UNSTAGE (R203, R265). -/
def execUnstage (m : Mbox) (s : State) : Host.Outcome State Fault Refusal :=
  .next (s.command m 0x41 anyReq fun a t =>
    let e : Fin 64 := Fin.ofNat 64 (argAt a 0).toNat
    if t.badImage (argAt a 0) then .done t 2 []
    else if t.imageUsed e.val then .done t 1 []
    else .done (t.imagePut e 0 (putBit (t.rd (aImage e.val 0)) 23 false)) 0 [])

/-! ### Loads and the Gleaner's requests (R216, R217, R265) -/

/-- The command of mailbox m waits for its ICP job, which goes on without the cores: its effect is committed (R241; log entry 17). -/
def State.heldLoad (s : State) (m : Mbox) : State := (s.modMbox m fun x => { x with hold := .load }).journalCommit m

/-- PLOAD, immediate: held until the load ends. -/
def execPload (m : Mbox) (s : State) : Host.Outcome State Fault Refusal :=
  .next (s.command m 0x42 (fun w => !bit w 23) fun a t =>
    let p : Pad := Fin.ofNat 16 (fld (argAt a 0) 19 16)
    let e := fld (argAt a 0) 5 0
    if t.padOff p.val || !t.imageFor e p.val then .done t 2 []
    else if t.bget aIcpstat 23 then .done t 1 []
    else .held ((t.swapStart p e true (some m.val)).heldLoad m))

/-- PLOAD, timed: a beam-aligned NEXT SWAP. -/
def execPloadTimed (m : Mbox) (s : State) : Host.Outcome State Fault Refusal :=
  .next (s.command m 0x42 (fun w => bit w 23) fun a t =>
    let h : Head := Fin.ofNat 8 (fld (argAt a 0) 22 20)
    let p := fld (argAt a 0) 19 16
    let e := fld (argAt a 0) 5 0
    if t.headOff h.val || t.padOff p || !t.imageFor e p then .done t 2 []
    else
      let (u, st) := t.post .host h (argAt a 1) 0x700000 (wd p) (wd e)
      .done u (if fld st 23 21 = 0 then 0 else 2) [st])

/-- GLEANREQ, rewrite: held until the ICP has written the frame. -/
def execGleanreqRewrite (m : Mbox) (s : State) : Host.Outcome State Fault Refusal :=
  .next (s.command m 0x43 (fun w => fld w 23 22 != 1) fun a t =>
    let p := fld (argAt a 1) 19 16
    let f := fld (argAt a 2) 9 0
    if fld (argAt a 0) 23 22 ≠ 0 ∨ t.padOff p ∨ !t.loaded p ∨ 799 < f then .done t 2 []
    else if t.bget aIcpstat 23 then .done t 1 []
    else .held ((t.icpAdd (newJob .rewrite p 0 f (some m.val))).heldLoad m))

/-- GLEANREQ, reload: at once and held until the load ends, or posted for the line of GLPOL. -/
def execGleanreqReload (m : Mbox) (s : State) : Host.Outcome State Fault Refusal :=
  .next (s.command m 0x43 (fun w => fld w 23 22 == 1) fun a t =>
    let p : Pad := Fin.ofNat 16 (fld (argAt a 1) 19 16)
    let pol := t.rd (aPad p.val 0x0D)
    let img := t.fget (aPad p.val 0x0A) 19 14
    let h : Head := Fin.ofNat 8 (fld pol 22 20)
    if t.padOff p.val || !t.loaded p.val then .done t 2 []
    else if bit pol 23 || !t.running h.val then
      if t.bget aIcpstat 23 then .done t 1 []
      else .held ((t.swapStart p img false (some m.val)).heldLoad m)
    else
      let (u, st) := t.post (t.caeruno m) h (wd (fld pol 11 0 * 4096)) 0x700000 (wd p.val) (wd img)
      .done u (if fld st 23 21 = 0 then 0 else 2) [u.peekReg aIcpstat])

/-- The command that waited for an ICP job completes: LDSTAT of a PLOAD, ICPSTAT of a GLEANREQ, CHECK unless the job
ended with code 0x0 (R265). -/
def State.icpDone (s : State) (j : IcpJob) : State :=
  match j.mbox with
  | none => s
  | some n =>
    let m : Mbox := Fin.ofNat 16 n
    if s.mbPhase m = 3 ∧ s.mboxes[m].hold = .load then
      let a := if s.reqCmd m = 0x42 then aPad j.pad 0x0A else aIcpstat
      s.mbFinish m (if j.code = 0 then 0 else 4) [s.peekReg a]
    else s

/-- ICP_OPERATION_COMPLETE (R205, R265). -/
def execIcpOperationComplete (s : State) : Host.Outcome State Fault Refusal :=
  let (t, e) := s.icpEnd
  match e with
  | some j => .next (t.icpDone j).glResume.relayStep
  | none => .next t

/-! ### Binding, rollback, family key, revocation (R193 to R197, R266) -/

/-- BIND: a stream that passes R191 and R194 gets its binding record. -/
def execBind (m : Mbox) (s : State) : Host.Outcome State Fault Refusal :=
  .next (s.command m 0x44 anyReq fun a t0 =>
    let g := t0.dramAt (argAt a 0)
    let x := readStream g
    let t := t0.caeRead (argAt a 0) (if t0.streamFits x x.size then x.size + 48 else 320)
    if !t.streamFits x x.size then .done t 2 []
    else if !t.streamKeyed x then .done t 3 []
    else
      match t.streamKey x g (x.size + 48) with
      | none => .done t 4 []
      | some k0 =>
        if !x.signed || !x.tagsGood k0 g then .done t 4 []
        else
          let rec0 := ascii "KZBD" ++ keyWrap (kdf t.fuses.drk "KZSW-KEK-DEV" x.sid) k0 ++ List.replicate 4 0
          .done (t.queueWrite (t.caeUser m) (2048 * (argAt a 1).toNat) rec0) 0 [])

/-- ARBCNT rises to n at least (R196, R197). -/
def Fuses.raiseArb (f : Fuses) (n : Nat) : Fuses := { f with arbcnt := BitVec.ofNat 8 (max f.arbcnt.toNat (min n 255)) }

/-- ARBRAISE. -/
def execArbraise (m : Mbox) (s : State) : Host.Outcome State Fault Refusal :=
  .next (s.command m 0x45 anyReq fun a t =>
    match t.badImage (argAt a 0), t.keys[Fin.ofNat 64 (argAt a 0).toNat] with
    | false, some k =>
      let u : State := { t with fuses := t.fuses.raiseArb k.arb }
      .done u 0 [u.secfuse]
    | _, _ => .done t 2 [])

/-- Fuse bits of a byte string are only set further (R196). -/
def orBytes (a b : List Byte) : List Byte := a.zipIdx.map fun (e : Byte × Nat) => e.1 ||| nth 0 b e.2

/-- FAMK and FAMID take their bits, and FKLOCK is set if asked (R195, R266). -/
def Fuses.setFamily (f : Fuses) (id : Word) (key : List Byte) (lock : Bool) : Fuses :=
  { f with famid := f.famid ||| id, famk := orBytes f.famk key, fklock := f.fklock || lock }

/-- FAMKEY. -/
def execFamkey (m : Mbox) (s : State) : Host.Outcome State Fault Refusal :=
  .next (s.command m 0x46 anyReq fun a t =>
    if argAt a 0 = 0 then .done t 2 []
    else if t.fuses.fklock then .done t 3 []
    else
      let key := (bytesOfWords ((a.drop 2).take 11)).take 32
      let u : State := { t with fuses := t.fuses.setFamily (argAt a 0) key (bit (argAt a 1) 0) }
      .done u 0 [u.fuses.famid])

/-- A signing-key slot is revoked (R196). -/
def Fuses.revoke (f : Fuses) (n : Nat) : Fuses := { f with slotrev := f.slotrev ||| (1 <<< n) }

/-- REVOKE. -/
def execRevoke (m : Mbox) (s : State) : Host.Outcome State Fault Refusal :=
  .next (s.command m 0x47 anyReq fun a t =>
    let n := (argAt a 0).toNat
    match t.badImage (argAt a 1), t.keys[Fin.ofNat 64 (argAt a 1).toNat] with
    | false, some k =>
      if 4 ≤ n then .done t 2 []
      else if k.sigslot = n || t.fuses.slotrev.getLsbD k.sigslot then .done t 3 []
      else
        let u : State := { t with fuses := t.fuses.revoke n }
        .done u 0 [u.secfuse]
    | _, _ => .done t 2 [])

/-- The private key of an ephemeral pair, in range. -/
def ephemeral (de : BitVec 384) : Nat := de.toNat % (n384 - 1) + 1

/-- Coordinates of a point, 48 bytes each. -/
def pointBytes : Pt → List Byte
  | some (x, y) => bytesBE 48 x ++ bytesBE 48 y
  | none => List.replicate 96 0

/-- The ephemeral key and the wrapped attestation key (R267). -/
def State.attestOut (s : State) (de : BitVec 384) (q : Nat × Nat) (nonce : List Byte) : List Word :=
  let z := (pointBytes (ptMul 384 (ephemeral de) (some q))).take 48
  let kek := kdf z "KZ-ATTEST-WRAP" (nonce ++ bytesBE 3 s.identity.toNat)
  wordsOfBytes (pointBytes (ptMul 384 (ephemeral de) (some g384))) ++ wordsOfBytes (keyWrap kek (attestKey s.fuses.drk))

/-- ATTKEY: `de` is the random private key of the new pair. -/
def execAttkey (m : Mbox) (de : BitVec 384) (s : State) : Host.Outcome State Fault Refusal :=
  .next (s.command m 0x48 anyReq fun a t =>
    let pub := bytesOfWords ((a.drop 5).take 32)
    if 4 ≤ (argAt a 0).toNat || !onCurve (pubKey pub) then .done t 2 []
    else if !t.slotHolds (argAt a 0).toNat pub then .done t 3 []
    else .done t 0 (t.attestOut de (pubKey pub) (bytesOfWords ((a.drop 1).take 4))))

end Sys2Proof.Machine
end

