-- ==== Sys2Proof/Machine/Integrity.lean ====
section
/-! DEFINITION. Self-repair's own steps: page rebuilds, remaps, checker tests, rotation testing, and the repair records
as start-up applies them (11_integrity_repair.md, R274 to R291). -/

namespace Sys2Proof.Machine

/-! ### Rebuilds and remaps (R275, R282) -/

/-- PAGE_REBUILD: a word that the word code cannot correct is rebuilt and written back, or found uncorrectable. -/
def execPageRebuild (r : Region) (a : BitVec 22) (s : State) : Host.Outcome State Fault Refusal :=
  match s.badAt r.val a.toNat with
  | some b => if 2 ≤ b.count then .next (s.readCheck r.val a.toNat .clean).1 else .next s
  | none => .next s

/-- REMAP: 1 is written to GO of the region's REMAP. -/
def execRemap (r : Region) (a : BitVec 22) (s : State) : Host.Outcome State Fault Refusal := .next (s.remapWord r.val a.toNat)

/-! ### Records at start-up (R289, R290) -/

/-- Words that n records take. -/
def recordLen : Nat → List Word → Nat
  | 0, _ => 0
  | _ + 1, [] => 0
  | n + 1, w :: t => if 3 ≤ fld w 23 20 ∧ fld w 23 20 ≤ 6 then 2 + recordLen n (t.drop 1) else 1 + recordLen n t

/-- The records of the flash region are taken, or ignored with the integrity event when its HMAC fails (R289). -/
def State.loadRecords (s : State) : State :=
  let d := s.flashBytes (s.dirField 40) (s.dirField 44)
  if d.isEmpty then s
  else
    let ws := wordsOfBytes (d.drop 12)
    let k := recordLen (ofBytesLE (slice d 4 4)) ws
    let body := d.take (12 + 3 * k)
    if d.take 4 = ascii "KZRR" ∧ slice d (12 + 3 * k) 32 = hmacSha256 (kdf s.fuses.drk "KZ-REPAIR" []) body then
      { s with cae := { s.cae with records := ws.take k, recGen := ofBytesLE (slice d 8 4) } }
    else s.evIntegrity

/-- USED and FULLM of region r, from the remaps in force (R282). -/
def State.rmStat (s : State) (r : Nat) : State :=
  let all := s.repair.remaps.filter fun m => m.region == r
  let full := (all.map (·.group)).eraseDups.filter fun g => decide (16 ≤ s.remapsIn r g)
  (s.fset (aRegion r 7) 23 12 all.length).fset (aRegion r 7) 11 0 full.length

/-- Remaps are applied again from the records (R282, R290). -/
def State.loadRemaps (s : State) : State :=
  let ms := (s.records.filter fun r => fld r.1 23 20 == 3).map fun r =>
    ({ region := fld r.1 19 13, group := fld r.1 7 0, spare := fld r.2 15 12, word := fld r.2 11 0 } : Remap)
  (List.range 91).foldl State.rmStat { s with repair := { s.repair with remaps := ms } }

/-- Failed engines of the records are marked in ENGFAIL (R290), whose bits above engine 65 read 0. -/
def State.markFailedEngines (s : State) : State :=
  (s.records.filter fun r => fld r.1 23 20 == 2 && decide (fld r.1 6 0 < 66)).foldl (fun (t : State) r =>
    t.bset (aRot (4 + fld r.1 6 0 / 24)) (fld r.1 6 0 % 24) true) s

/-- A slot whose home engine has failed moves to an engine of the pool, of Caeruno's choice (R284; log entry 35). -/
def State.rehome (s : State) (h n : Nat) : State :=
  if s.engOf h n ≠ 8 * h + n ∨ !s.engFailed (8 * h + n) ∨ s.pool.isEmpty then s
  else
    let (k, t) := s.draw
    t.fset (aHead h (0x10 + n)) 22 16 (nth 0 s.pool (k % s.pool.length))

/-- Every slot of every head, as `rehome` says. -/
def State.rehomeAll (s : State) : State :=
  (List.range 8).foldl (fun (t : State) h => (List.range 8).foldl (fun (u : State) n => u.rehome h n) t) s

/-! ### Checker tests (R281) -/

/-- BISTFAIL counts a failed test of engine e, which is marked failed (R286). -/
def State.bistFail (s : State) (e : Nat) : State := (s.markFailed e).inc (aRot 2) 7 0

/-- A checker of region r has failed. -/
def State.checkerBad (s : State) (r : Nat) : State := if 25 ≤ r then s.bistFail (r - 25) else s.evIntegrity

/-- The counters and the log of region r are clear, and Caeruno remaps no word it tested (R281). -/
def State.regionClear (s : State) (r : Nat) : State :=
  { s with
    ws := spClear s.ws (aRegion r 0) (aRegion r 5) |> fun m => spClear m (aRegion r 0x10) (aRegion r 0x2F)
    repair := { s.repair with due := s.repair.due.filter fun e => e.1 != r } }

/-- CHECKER_TEST: at start-up, before READY; `bad` are the regions whose checkers did not report their flips. -/
def execCheckerTest (bad : List Region) (s : State) : Host.Outcome State Fault Refusal :=
  if s.start ≠ .trained then .next s
  else
    let s1 := bad.foldl (fun (t : State) r => t.checkerBad r.val) s
    let s2 := (List.range 91).foldl State.regionClear s1
    .next { s2.markFailedEngines.rehomeAll with start := .checked }

/-! ### Rotation testing (R284 to R287) -/

/-- Slots of running heads in use, with their engines: engine, head, slot. -/
def State.liveEngines (s : State) : List (Nat × Nat × Nat) :=
  ((List.range 8).map fun h => ((List.range 8).filter fun n =>
    s.running h && decide (n < s.fget (aHead h 0x18) 23 20) && s.slotEn h n).map fun n => (s.engOf h n, h, n)).flatten

/-- The lowest-numbered of some engines. -/
def lowest : List (Nat × Nat × Nat) → Option (Nat × Nat × Nat)
  | [] => none
  | e :: t => match lowest t with
    | none => some e
    | some x => if x.1 < e.1 then some x else some e

/-- The engine that is tested next: the lowest-numbered after the last one tested, then from the lowest. -/
def State.rotNext (s : State) : Option (Nat × Nat × Nat) :=
  match lowest (s.liveEngines.filter fun e => decide (s.repair.lastTested ≤ e.1)) with
  | some e => some e
  | none => lowest s.liveEngines

/-- ROTATION: the interval has passed. -/
def execRotation (s : State) : Host.Outcome State Fault Refusal :=
  if !s.bget (aRot 0) 23 || s.rotStep != 0 then .next s
  else match s.rotNext, s.pool with
    | some (x, h, n), y :: _ =>
      .next { (s.wr (aRot 1) (wd (2 ^ 21 + x * 2 ^ 14 + y * 2 ^ 7))) with
        repair := { s.repair with
          lastTested := x + 1, rotHead := h, rotSlot := n, rotRetry := false, testing := none, mirror := false } }
    | _, _ => .next s

/-- The rotation goes on at a step. -/
def State.rotGo (s : State) (step : Nat) (retry : Bool) : State :=
  { (s.fset (aRot 1) 23 21 step) with repair := { s.repair with testing := none, mirror := false, rotRetry := retry } }

/-- Of LIVE and SPARE, the engine other than e. -/
def State.rotOther (s : State) (e : Nat) : Nat := if s.fget (aRot 1) 20 14 = e then s.fget (aRot 1) 13 7 else s.fget (aRot 1) 20 14

/-- SELF_TEST_COMPLETE: the self-test of step 3, or that of a mirroring engine whose lines differed (R285, R286). -/
def execSelfTestComplete (pass : Bool) (s : State) : Host.Outcome State Fault Refusal :=
  match s.repair.testing with
  | none => .next s
  | some e =>
    if !pass then .next ((s.bistFail e).rotGo 0 false)
    else if s.rotStep = 3 then .next (s.rotGo (if s.engFailed e then 0 else 4) false)
    else if s.repair.rotRetry then .next ((s.markFailed (s.rotOther e)).rotGo 2 false)
    else .next (s.rotGo s.rotStep true)

end Sys2Proof.Machine
end

