-- ==== Sys2Proof/Machine/Ledger.lean ====
section
/-! DEFINITION. The availability ledger (11_integrity_repair.md, R294 to R297): the tally of milliseconds, its buckets,
its flash region. -/

namespace Sys2Proof.Machine

/-- Seconds of a bucket: 30 days of always-on time (R297). -/
def bucketSecs : Nat := 2592000

/-- The current bucket. -/
def State.bucket (s : State) : Nat := (s.ledger 17).toNat % 12

/-- A millisecond is counted; a thousand make a counted second of the bucket. -/
def State.msCounted (s : State) : State :=
  let t := s.ledgerInc48 0
  if ((t.ledger 0).toNat + 2 ^ 24 * (t.ledger 1).toNat) % 1000 = 0 then t.ledgerInc (18 + 2 * t.bucket) else t

/-- A counted millisecond is unavailable, for causes given as bits of words 6 to 11. -/
def State.msUnavailable (s : State) (cause : BitVec 6) : State :=
  let t := (s.ledgerInc48 2).ledgerInc (19 + 2 * s.bucket)
  (List.range 6).foldl (fun (u : State) i => if cause.getLsbD i then u.ledgerInc (6 + i) else u) t

/-- A millisecond of a reset from LIVE: counted and unavailable (R296). -/
def State.msLost (s : State) : State := s.msCounted.msUnavailable 32

/-- Planned, for a millisecond all of whose frames have ended (R294). -/
def MsRec.isPlanned (m : MsRec) : Bool := m.maint || (m.planned && m.cause == 0)

/-- A millisecond all of whose frames have ended is decided (R294). -/
def State.msDecide (s : State) (m : MsRec) : State :=
  if m.isPlanned then s.ledgerInc48 4
  else if m.live || m.safe then
    let t := s.msCounted
    if m.safe || m.cause != 0 then t.msUnavailable (if m.safe then m.cause ||| 32 else m.cause) else t
  else s

/-- Configured heads with a frame in progress. -/
def State.openFrames (s : State) : BitVec 8 :=
  (List.finRange 8).foldl (fun m h => if s.heads[h].configured && s.running h.val then m ||| (1 <<< h.val) else m) 0

/-- A millisecond begins. -/
def State.msNew (s : State) : MsRec :=
  { maint := s.dev == .maint, live := s.dev == .live, safe := s.dev == .safe, wait := s.openFrames, recs := [], cause := 0, planned := false }

/-- The millisecond in progress ends, in the state the device is in now. -/
def State.msEnd (s : State) : List MsRec :=
  match s.cae.msOpen.reverse with
  | [] => []
  | m :: t => ({ m with maint := m.maint || s.dev == .maint, live := m.live || s.dev == .live, safe := m.safe || s.dev == .safe } :: t).reverse

/-- A millisecond's frames have all ended and no record of them is awaited. -/
def MsRec.settled (m : MsRec) : Bool := m.wait == 0 && m.recs.isEmpty

/-- A millisecond is tallied: records that are late are awaited no longer, the one in progress ends, those that are settled are decided,
another begins. -/
def State.msTally (s0 : State) : State :=
  let s := (List.finRange 8).foldl State.recordsLate s0
  let l := s.msEnd
  let t := (l.filter MsRec.settled).foldl State.msDecide s
  { t with cae := { t.cae with msOpen := (l.filter fun m => !m.settled) ++ [s.msNew] } }

/-- A second of always-on time passes; a bucket ends after 30 days (log entry 38). -/
def State.secondTick (s : State) : State :=
  let t : State := { s with pow := { s.pow with seconds := s.pow.seconds + 1 } }
  if t.pow.seconds % bucketSecs = 0 then
    let b := (t.bucket + 1) % 12
    ((t.setLedger 17 (wd b)).setLedger (18 + 2 * b) 0).setLedger (19 + 2 * b) 0
  else t

/-- Caeruno keeps the ledger: it runs, or has run since the reset. -/
def State.tallies (s : State) : Bool := s.start != .reset && s.start != .fused

/-- LEDGER_TICK: a millisecond of the 25 MHz reference. Nothing runs in Keep but what is emulated (R390). -/
def execLedgerTick (s : State) : Host.Outcome State Fault Refusal :=
  if s.pow.st = .keep ∧ !s.pow.emulated then .next s
  else
    let n := s.cae.uptime + 1
    let s1 : State := { s with cae := { s.cae with uptime := n }, stile := { s.stile with holdoff := s.stile.holdoff - 1 } }
    let s2 := if n % 1000 = 0 then s1.secondTick else s1
    if !s2.tallies then .next s2
    else if s2.cae.wasLive && s2.dev != .live then .next s2.msLost
    else .next ({ s2 with cae := { s2.cae with wasLive := false } } : State).msTally

/-- LEDGER_WRITE (R297). -/
def execLedgerWrite (s : State) : Host.Outcome State Fault Refusal := if s.tallies then .next s.ledgerSave else .next s

/-- Milliseconds from the reset to now, of which the always-on domain knows whole seconds while the device slept (R296). -/
def State.sinceReset (s : State) : Nat :=
  if fld (s.hwRd 0x024) 23 21 = 4 then 1000 * (s.pow.seconds - s.pow.resetSec) else s.cae.uptime

/-- Caeruno starts: it reads the ledger from flash, counts an unplanned reset and the time since a reset from LIVE, and
notes the fuse bits that disagreed (R296, R297). -/
def State.ledgerLoad (s : State) : State :=
  let l : WMem := if 192 ≤ s.dirField 52 then spWrite zeroW [] 0 (wordsOfBytes (s.flashBytes (s.dirField 48) 192)) else []
  let t : State := { s with cae := { s.cae with ledger := l } }
  let cause := fld (t.hwRd 0x024) 23 21
  let t1 := if cause = 1 ∨ cause = 4 then t.ledgerInc 12 else t
  let t2 := t1.setLedger 16 (wd (t1.fget (aRot 8) 23 12))
  let t3 := if t2.cae.wasLive then (List.range t2.sinceReset).foldl (fun (u : State) _ => u.msLost) t2 else t2
  { t3 with cae := { t3.cae with msOpen := [t3.msNew] } }

end Sys2Proof.Machine
end

