-- ==== Sys2Proof/Machine/Images.lean ====
section
/-! DEFINITION. The mailbox commands for flash, Caeruno's images, the Function Split Table, applets and the ledger
(R246 to R249, R261, R268 to R273, R297), and the service trap. -/

namespace Sys2Proof.Machine

/-! ### Flash (R200, R268, R317) -/

/-- Flash size in bytes; the straps may say that there is none (R317). -/
def State.flashSize (s : State) : Nat := if nbits s.pow.straps.toNat 1 0 = 2 then 0 else 1024 * Config.flashKiB

/-- FLASHINFO. -/
def execFlashinfo (m : Mbox) (s : State) : Host.Outcome State Fault Refusal :=
  .next (s.command m 0x50 anyReq fun _ t =>
    .done t 0 [wd (t.flashSize / 1024), if nbits t.pow.straps.toNat 1 0 = 1 then 1 else 0, wd Config.flashMHz])

/-- Bytes of a sector. -/
def sectorBytes : Nat := max 1 Config.flashSector

/-- The sectors that n bytes from a touch are erased (log entry 4). -/
def State.flashErase (s : State) (a n : Nat) : State :=
  let lo := a / sectorBytes
  let hi := (a + n + sectorBytes - 1) / sectorBytes
  { s with flash := spWrite zeroB s.flash (lo * sectorBytes) (List.replicate ((hi - lo) * sectorBytes) 0xFF) }

/-- Bytes are written to flash. -/
def State.flashPut (s : State) (a : Nat) (d : List Byte) : State := { s with flash := spWrite zeroB s.flash a d }

/-- Byte offset of a target's entry in the directory: images A and B, Caeruno A and B. -/
def dirEntry (target : Nat) : Nat := if target < 2 then 4 + 8 * target else 20 + 8 * (target - 2)

/-- A target's partner of the same kind. -/
def dirOther (target : Nat) : Nat := if target % 2 = 0 then target + 1 else target - 1

/-- A flash region is unfit: outside the flash, in the directory's bytes, or in the other image's region (R268). -/
def State.badRegion (s : State) (target off n : Nat) : Bool :=
  let o := dirEntry (dirOther target)
  let lo := s.dirField o
  let len := s.dirField (o + 4)
  decide (s.flashSize < off + n) || decide (off < 0x2000) || (decide (0 < len) && overlaps off (off + n) lo (lo + len))

/-- The region written verifies: R191 for an image; for Caeruno the answer of Ovzia's signature check is `ok`. -/
def State.flashVerified (s : State) (target off n : Nat) (ok : Bool) : Bool :=
  if target < 2 then s.streamValid (readStream fun i k => s.flashBytes (off + i) k) n else ok

/-- FLASHWRITE. -/
def execFlashwrite (m : Mbox) (ok : Bool) (s : State) : Host.Outcome State Fault Refusal :=
  .next (s.command m 0x51 anyReq fun a t =>
    let target := fld (argAt a 0) 1 0
    let n := (argAt a 2).toNat
    let off := (argAt a 3).toNat
    if t.badRegion target off n then .done t 2 []
    else
      let u := if t.hostFn 6 then t else ((t.caeRead (argAt a 1) n).flashErase off n).flashPut off (t.dramAt (argAt a 1) 0 n)
      if u.flashVerified target off n ok then .done (u.dirWrite (dirEntry target) (bytesLE 4 off ++ bytesLE 4 n)) 0 []
      else .done u 4 [])

/-- FLASHBLK: host-assisted mode only. -/
def execFlashblk (m : Mbox) (s : State) : Host.Outcome State Fault Refusal :=
  .next (s.command m 0x52 anyReq fun a t =>
    let off := (argAt a 0).toNat
    let d := bytesOfWords (a.drop 1)
    if !t.hostFn 6 || decide (off < 0x2000) || decide (t.flashSize < off + d.length) then .done t 2 []
    else
      let u := if off % sectorBytes = 0 then t.flashErase off 1 else t
      .done (u.flashPut off d) 0 [])

/-- FLASHDIR: byte 36, or the fields at 40, 44, 48 and 52. -/
def execFlashdir (m : Mbox) (s : State) : Host.Outcome State Fault Refusal :=
  .next (s.command m 0x53 anyReq fun a t =>
    let o := (argAt a 0).toNat
    let v := (argAt a 1).toNat + 2 ^ 24 * fld (argAt a 2) 7 0
    if o = 36 then if v < 2 then .done (t.dirWrite 36 (bytesLE 1 v)) 0 [] else .done t 2 []
    else if o = 40 ∨ o = 44 ∨ o = 48 ∨ o = 52 then .done (t.dirWrite o (bytesLE 4 v)) 0 []
    else .done t 2 [])

/-! ### Caeruno's images (R270, R271, R273) -/

/-- Flash offset of Caeruno copy i, when the directory names one. -/
def State.caeCopy (s : State) (i : Nat) : Option Nat := if s.dirField (24 + 8 * i) = 0 then none else some (s.dirField (20 + 8 * i))

/-- The Caeruno copy that the boot ROM starts: the one that directory byte 36 names if it verifies, else the other. -/
def State.bootCopy (s : State) (okA okB : Bool) : Option Nat :=
  let ok := fun i => if i = 0 then okA else okB
  let first := s.dirField 36 % 256
  let try1 := if ok first then s.caeCopy first else none
  match try1 with
  | some o => some o
  | none => if ok (1 - first) then s.caeCopy (1 - first) else none

/-- Caeruno runs on both cores, from an image of this version and ABI; it reads the repair records and
the ledger and applies the remaps. -/
def State.caerunoRuns (s : State) (version abi : Word) : State :=
  let t := (((s.coreUp 0).coreUp 1).loadRecords).loadRemaps.ledgerLoad
  { t with start := .booted, cae := { t.cae with version := version, abi := abi } }

/-- FWPUT. -/
def execFwput (m : Mbox) (s : State) : Host.Outcome State Fault Refusal :=
  .next (s.command m 0x06 anyReq fun a t =>
    let o := (argAt a 0).toNat
    if 2 ^ 20 < o + (a.length - 1) then .done t 2 []
    else .done ((a.drop 1).zipIdx.foldl (fun (u : State) e => (u.wr (aSram (o + e.2)) e.1).writeFlip 18 (o + e.2)) t) 0 [])

/-- FWBOOT: `ok` is the answer of Ovzia's signature check of the image written; an open lock fails it (R394). -/
def execFwboot (m : Mbox) (ok : Bool) (s : State) : Host.Outcome State Fault Refusal :=
  .next (s.command m 0x07 anyReq fun a t =>
    let n := (argAt a 0).toNat
    if n < 80 ∨ 2 ^ 20 < n then .done t 2 []
    else if ok && t.fuses.flock then .done (t.caerunoRuns (t.rd (aSram 6)) (t.rd (aSram 2))) 0 []
    else .done t 4 [])

/-- The words of an image in DRAM that starts at the address an argument names. -/
def State.imageWords (s : State) (w : Word) (n : Nat) : List Word := wordsOfBytes (s.dramAt w 0 (3 * n))

/-- A Caeruno header is in order for an image of n bytes (R247, R270). -/
def caerunoFits (h : List Word) (n : Nat) : Bool := argAt h 0 == 0x435A4B && decide (3 * (80 + (argAt h 1).toNat) ≤ n)

/-- FWSTAGE: `ok` is the answer of Ovzia's signature check. -/
def execFwstage (m : Mbox) (ok : Bool) (s : State) : Host.Outcome State Fault Refusal :=
  .next (s.command m 0x58 anyReq fun a t0 =>
    let h := t0.imageWords (argAt a 0) 80
    let n := (argAt a 1).toNat
    let t := t0.caeRead (argAt a 0) (max 240 n)
    if !caerunoFits h n || fld (argAt h 2) 23 16 != fld t.cae.abi 23 16 then .done t 2 []
    else if !ok then .done t 4 []
    else
      let u : State := { t with cae := { t.cae with staged := some (2048 * (argAt a 0).toNat, n, argAt h 6, argAt h 2) } }
      .done u 0 [argAt h 6, argAt h 2])

/-- FWRELAY: step 1 ends once W1 has finished its command in service; the response comes when both cores run the new image. -/
def execFwrelay (m : Mbox) (s : State) : Host.Outcome State Fault Refusal :=
  .next (s.command m 0x59 anyReq fun _ t =>
    if t.cae.staged.isNone then .done t 2 []
    else if t.cae.relay ≠ 0 ∨ !t.alive 0 ∨ !t.alive 1 ∨ t.role 0 ≠ 1 ∨ t.role 1 ≠ 1 then .done t 1 []
    else
      let u := t.modMbox m fun x => { x with hold := .relay }
      .held ({ u with cae := { u.cae with relay := 1 } } : State).relayStep)

/-- The staged image still stands in DRAM as FWSTAGE took it (R271). -/
def State.stagedStands (s : State) : Bool :=
  match s.cae.staged with
  | some (a, n, _, abi) =>
    let h := wordsOfBytes (s.nowBytes a 240)
    caerunoFits h n && argAt h 2 == abi
  | none => false

/-- The boot ROM finds an image of Caeruno to verify: a copy that the directory names, or the one that FWPUT has written (R242, R273, R394). -/
def State.bootable (s : State) : Bool :=
  s.fuses.flock && ((s.flashSize != 0 && (s.bootCopy true true).isSome) || caerunoFits ((List.range 2).map fun i => s.rd (aSram i)) (3 * 2 ^ 18))

/-- CORE_REJOIN: a reset core restarts through the boot ROM, which verifies Caeruno again, or a core of a relay loads, verifies and starts the
staged image (R242, R271). The command stands for a good answer of Ovzia's signature check (log entry 131); with no image to verify the
core stays DOWN. -/
def execCoreRejoin (k : Core) (s : State) : Host.Outcome State Fault Refusal :=
  if s.dev = .boot ∨ s.alive k then .next s
  else if s.cae.relay = 2 ∧ k = 1 then
    if s.stagedStands then .next (((s.coreUp 1).modCore 1 fun x => { x with newImage := true }).relayMove 0 1 5) else .next s
  else if s.cae.relay = 5 ∧ k = 0 then
    if s.stagedStands then
      let s1 := (s.coreUp 0).modCore 0 fun x => { x with newImage := true }
      let s2 := s1.runStaged
      .next (s2.relayEnd 0 [s2.cae.version])
    else .next s
  else if s.bootable then .next ((s.coreUp k).modCore k fun x => { x with newImage := false })
  else .next s

/-! ### Function Split Table (R269, R405) -/

/-- SPLITGET. -/
def execSplitget (m : Mbox) (s : State) : Host.Outcome State Fault Refusal :=
  .next (s.command m 0x60 anyReq fun _ t => .done t 0 t.splitWords)

/-- A mask names at least one configured head. -/
def State.namesConfigured (s : State) (mask : Nat) : Bool :=
  (List.finRange 8).any fun h => mask.testBit h.val && s.heads[h].configured

/-- SPLITSET. -/
def execSplitset (m : Mbox) (s : State) : Host.Outcome State Fault Refusal :=
  .next (s.command m 0x61 anyReq fun a t =>
    let f : Fin 8 := Fin.ofNat 8 (fld (argAt a 0) 2 0)
    let mask := fld (argAt a 0) 23 16
    if headBound f.val && ((List.range 8).any (fun h => mask.testBit h && t.headOff h) || !t.namesConfigured mask) then .done t 2 []
    else
      let (u, now, ep) := t.splitSet f (BitVec.ofNat 8 mask) (bit (argAt a 0) 3)
      .done u 0 [wd (b2n now * 2 ^ 23), ep])

/-! ### Applets (R246 to R249) -/

/-- An argument names a context from 1 to 63. -/
def ctxNamed (n : Nat) : Bool := decide (1 ≤ n ∧ n ≤ 63)

/-- The header of an applet of n bytes is in range (R246, R247). -/
def appletFits (h : List Word) (n : Nat) : Bool :=
  let lenw := (argAt h 1).toNat
  let pages := fld (argAt h 2) 23 16
  let budget := fld (argAt h 2) 15 0
  argAt h 0 == 0x415A4B && decide (1 ≤ pages ∧ pages ≤ 192) && decide (1 ≤ budget ∧ budget ≤ 400)
    && decide (lenw ≤ pages * 4096) && decide ((argAt h 3).toNat < lenw ∧ (argAt h 4).toNat < lenw)
    && decide ((argAt h 5).toNat < 4) && ((List.range 9).all fun i => argAt h (7 + i) == 0) && decide (3 * (80 + lenw) ≤ n)

/-- Pages that no context holds, lowest first. -/
def State.freePages (s : State) : List Nat := (List.range 192).filter fun p => !(s.cae.ctxs.toList.any fun c => c.pages.contains p)

/-- Sum of BUDGET over the loaded applets. -/
def State.budgets (s : State) : Nat := (s.cae.ctxs.toList.map fun c => if c.st = 0 then 0 else c.budget).sum

/-- The word of the applet part of system SRAM that word i of a context's pages is. -/
def pageWord (pages : List Nat) (i : Nat) : Nat := 4096 * nth 0 pages (i / 4096) + i % 4096

/-- An applet's body is placed in its pages. -/
def State.placeBody (s : State) (pages : List Nat) (body : List Word) : State :=
  body.zipIdx.foldl (fun (t : State) e =>
    let i := 0x40000 + pageWord pages e.2
    (t.wr (aSram i) e.1).writeFlip 18 i) s

/-- The core that a context is assigned to: the one that runs alone, or either of two (R241). -/
def State.coreFor (s : State) : Core × State :=
  if s.alive 0 && s.alive 1 then
    let (n, t) := s.draw
    (Fin.ofNat 2 n, t)
  else (if s.alive 1 then 1 else 0, s)

/-- APPLOAD. -/
def execAppload (m : Mbox) (s : State) : Host.Outcome State Fault Refusal :=
  .next (s.command m 0x70 anyReq fun a t0 =>
    let c : Ctx := Fin.ofNat 64 (argAt a 0).toNat
    let h := t0.imageWords (argAt a 1) 80
    let t := t0.caeRead (argAt a 1) (if appletFits h (argAt a 2).toNat then (argAt a 2).toNat else 240)
    let lenw := (argAt h 1).toNat
    let body := (t.imageWords (argAt a 1) (80 + lenw)).drop 80
    let pages := t.freePages.take (fld (argAt h 2) 23 16)
    if !ctxNamed (argAt a 0).toNat || !appletFits h (argAt a 2).toNat then .done t 2 []
    else if !t.slotHolds (argAt h 5).toNat (bytesOfWords ((h.drop 16).take 32)) then .done t 3 []
    else if t.cae.ctxs[c].st ≠ 0 ∨ pages.length < fld (argAt h 2) 23 16 ∨ 400 < t.budgets + fld (argAt h 2) 15 0 then .done t 6 []
    else if !ecdsaVerify (bytesOfWords ((h.drop 16).take 32)) (bytesOfWords (h.take 48 ++ body)) (bytesOfWords (h.drop 48)) then
      .done t 4 []
    else
      let (k, u) := (t.placeBody pages body).coreFor
      .done (u.modCtx c fun _ =>
        { CtxSt.reset with
          st := 1, core := k, pages := pages, budget := fld (argAt h 2) 15 0
          entry := (argAt h 3).toNat, restart := (argAt h 4).toNat }) 0 [])

/-- APPCTL on the context named by its argument: a context that holds no applet completes ARG (log entry 34). -/
def State.appctl (s : State) (m : Mbox) (op : Nat) (f : Ctx → State → Served) : State :=
  s.command m 0x71 (fun w => fld w 23 22 == op) fun a t =>
    let n := fld (argAt a 1) 5 0
    if !ctxNamed n || t.cae.ctxs[Fin.ofNat 64 n].st == 0 then .done t 2 [] else f (Fin.ofNat 64 n) t

/-- A context runs from its start entry or its restart entry. -/
def State.ctxRun (s : State) (c : Ctx) (again : Bool) : State :=
  s.modCtx c fun x => { x with st := 2, atRestart := again, preempted := false }

/-- APPCTL start: a context that already runs goes on. -/
def execAppctlStart (m : Mbox) (s : State) : Host.Outcome State Fault Refusal :=
  .next (s.appctl m 0 fun c t => .done (if t.cae.ctxs[c].st = 2 then t else t.ctxRun c false) 0 [2])

/-- APPCTL stop: of a context that runs or is stopped. -/
def execAppctlStop (m : Mbox) (s : State) : Host.Outcome State Fault Refusal :=
  .next (s.appctl m 1 fun c t =>
    if t.cae.ctxs[c].st = 2 ∨ t.cae.ctxs[c].st = 3 then .done (t.modCtx c fun x => { x with st := 3 }) 0 [3] else .done t 2 [])

/-- A context's grants are withdrawn and its pages cleared to zero (R249). -/
def State.ctxClear (s : State) (c : Ctx) : State :=
  let t := (s.cae.grants.filter fun x => x.grantee == c.val).foldl (fun (u : State) x => u.ungrant x) s
  (t.cae.ctxs[c].pages).foldl (fun (u : State) p =>
    { u with
      ws := spClear u.ws (aSram (0x40000 + 4096 * p)) (aSram (0x40000 + 4096 * p + 4095))
      repair := { u.repair with bad := u.repair.bad.filter fun b =>
        !(b.region == 18 && decide (0x40000 + 4096 * p ≤ b.addr ∧ b.addr < 0x40000 + 4096 * (p + 1))) } }) t

/-- APPCTL unload. -/
def execAppctlUnload (m : Mbox) (s : State) : Host.Outcome State Fault Refusal :=
  .next (s.appctl m 2 fun c t => .done ((t.ctxClear c).modCtx c fun _ => CtxSt.reset) 0 [0])

/-- APPCTL restart: at the restart entry. -/
def execAppctlRestart (m : Mbox) (s : State) : Host.Outcome State Fault Refusal :=
  .next (s.appctl m 3 fun c t => .done (t.ctxRun c true) 0 [2])

/-- The results of APPSTAT. -/
def State.appWords (s : State) (c : Ctx) : List Word :=
  let x := s.cae.ctxs[c]
  [wd x.st, x.faultAddr, wd x.overs, wd x.faults]

/-- APPSTAT. -/
def execAppstat (m : Mbox) (s : State) : Host.Outcome State Fault Refusal :=
  .next (s.command m 0x72 anyReq fun a t =>
    if !ctxNamed (argAt a 0).toNat then .done t 2 [] else .done t 0 (t.appWords (Fin.ofNat 64 (argAt a 0).toNat)))

/-! ### Ledger (R297) -/

/-- LEDGER: words from the index on, as many as a response holds. -/
def execLedger (m : Mbox) (s : State) : Host.Outcome State Fault Refusal :=
  .next (s.command m 0x78 anyReq fun a t =>
    let i := (argAt a 0).toNat
    if 64 ≤ i then .done t 2 [] else .done t 0 ((List.range (min 61 (64 - i))).map fun j => t.ledger (i + j)))

/-! ### The service trap (R248) -/

/-- What Caeruno answers a context: CODE and results. -/
def State.trapServe (s : State) (k : Core) (c : Ctx) (cmd : Nat) (a : List Word) : Served :=
  if !knownCmd cmd || decide (a.length < (cmdArgs cmd).1 ∨ (cmdArgs cmd).2 < a.length) then .done s 2 []
  else if !s.cmdLegal cmd then .done s 8 []
  else match cmd with
    | 0x01 => .done s 0 s.identWords
    | 0x02 => .done s 0 s.statusWords
    | 0x22 => s.qpostCmd (.core k c) k a
    | 0x23 => s.qcancelCmd (.core k c) k a
    | 0x60 => .done s 0 s.splitWords
    | 0x72 =>
      if !ctxNamed (argAt a 0).toNat then .done s 2 []
      else if (argAt a 0).toNat = c.val then .done s 0 (s.appWords c)
      else .done s 3 []
    | _ => .done s 3 []

/-- A context runs now on core k. -/
def State.ctxActs (s : State) (k : Core) (c : Ctx) : Bool :=
  let x := s.cae.ctxs[c]
  c.val != 0 && x.st == 2 && x.core == k && !x.preempted && !x.suspended && s.coreActs k

/-- SERVICE_TRAP: the reply has the form of a mailbox response; no sequence number is checked. A request for another unit completes ARG
while SET is 0 and AUTH in a fold (R347). -/
def execServiceTrap (k : Core) (c : Ctx) (msg : List Word) (s : State) : Host.Outcome State Fault Refusal :=
  if !s.ctxActs k c then .next s
  else
    let w := nth 0 msg 0
    let a := (List.range (fld w 13 8)).map fun i => nth 0 msg (3 + i)
    let u := nth 0 msg 2
    match (if u ≠ 0 ∧ u ≠ s.unit then Served.done s (if s.foldSet then 3 else 2) [] else s.trapServe k c (fld w 23 16) a) with
    | .done t code res =>
      .next (t.modCtx c fun x => { x with reply := [t.rspHead (fld w 23 16) code res.length, nth 0 msg 1, nth 0 msg 2] ++ res })
    | .held t => .next t

end Sys2Proof.Machine
end

