-- ==== Sys2Proof/Machine/Power.lean ====
section
/-! DEFINITION. Power states, resets, temperature and start-up (15_host_events_power.md, R356, R364 to R373, R406; R198,
R201, R296, R316, R390, R394). -/

namespace Sys2Proof.Machine

/-! ### Resets (R9, R277, R369, R372, R381) -/

/-- The words at an address are held in the always-on domain: the timers' registers. -/
def aonWord (a : Nat) : Bool := match locOf a with
  | .timer _ _ => true
  | _ => false

/-- A host-window register is held in the always-on domain. -/
def aonHost (off : Nat) : Bool := off == 0x018 || off == 0x01C || off == 0x024 || decide (0x028 ≤ off ∧ off ≤ 0x034)

/-- The word at an address is of an on-chip memory whose valid bits a reset without loss of power leaves (R277). -/
def memWord (a : Nat) : Bool := (regionOf (locOf a)).isSome

/-- A breakpoint range's word: the cores' debug logic, which an emulated Keep leaves up (R390). -/
def bpWord (a : Nat) : Bool := match locOf a with
  | .bp _ _ => true
  | _ => false

/-- A bank after a reset: what stands at its pads, its supply, and the hold of Keep. -/
def BankSt.after (x : BankSt) : BankSt :=
  { BankSt.reset with sync := x.sync, keepLvl := x.keepLvl, keepOe := x.keepOe, keepEn := x.keepEn, keepPull := x.keepPull }

/-- SUPPLY, PGOOD and HELD of every bank, which no reset changes: the supply's state and the hold latches'. -/
def State.bankKeep (s : State) (held : Bool) (t : State) : State :=
  (List.finRange 12).foldl (fun (u : State) b =>
    let a := aBank b.val 0
    let v := (u.bset a 16 (s.bget a 16)).fset a 19 17 (s.fget a 19 17)
    if held && s.bget a 13 then
      (v.bset a 13 true).modBank b fun x => { x with lvl := x.keepLvl, oe := x.keepOe, en := x.keepEn, pull := x.keepPull }
    else v) t

/-- What a reset keeps: power lost to the memories, the always-on domain kept, the debug session kept. -/
structure Scope where
  powerLost : Bool
  aon : Bool
  session : Bool
deriving DecidableEq, Repr

/-- A reset (R372): fuses, flash, what waits to be done, the strapping and the pads' levels stand; the rest is as after
POR_N, but for what the scope keeps. -/
def State.resetDevice (s : State) (k : Scope) : State :=
  let b := State.reset
  let keepW := fun (e : Nat × Word) => (k.aon && aonWord e.1) || (!k.powerLost && memWord e.1) || (k.session && bpWord e.1)
  let t : State :=
    { b with
      pending := s.pending, freeCtr := s.freeCtr, fuses := s.fuses, flash := s.flash
      ws := s.ws.filter keepW
      hw := if k.aon then s.hw.filter fun e => aonHost e.1 else []
      dram := if k.powerLost then [] else s.dram
      larkMem := if k.powerLost then [] else s.larkMem
      timers := if k.aon then s.timers else b.timers
      banks := s.banks.map BankSt.after
      repair := { b.repair with bad := if k.powerLost then [] else s.repair.bad.filter fun x => decide (16 ≤ x.region ∧ x.region ≤ 24) }
      pcie := { b.pcie with inReset := s.pcie.inReset }
      stile := if k.session then s.stile else { b.stile with holdoff := s.stile.holdoff }
      stileRegs := if k.session then s.stileRegs else []
      pow := { b.pow with straps := s.pow.straps, seconds := if k.aon then s.pow.seconds else 0 } }
  s.bankKeep k.aon t

/-- RSTCAUSE records a reset, and whether the device was in LIVE; Caeruno is to count the time since, unless the reset was
a power-on or RESET (R296, R372). -/
def State.noteCause (t : State) (live : Bool) (cause : Nat) : State :=
  { (t.hwWr 0x024 (wd (cause * 2 ^ 21 + b2n live * 2 ^ 20))) with
    cae := { t.cae with wasLive := live && cause != 0 && cause != 2 }
    pow := { t.pow with wasLive := live, resetSec := t.pow.seconds } }

/-- POR_N low, and its rise, which samples the straps: the always-on domain and the pad holds included (R317, R372). -/
def execPorN (straps : BitVec 4) (s : State) : Host.Outcome State Fault Refusal :=
  let t := s.resetDevice { powerLost := true, aon := false, session := false }
  .next { t with pow := { t.pow with straps := straps } }

/-- SYSRST_N low for at least 1 µs (R372). -/
def execSysrstN (s : State) : Host.Outcome State Fault Refusal :=
  let t := (s.resetDevice { powerLost := s.pow.st == .keep && !s.pow.emulated, aon := true, session := false }).noteCause
    (s.dev == .live) 1
  .next { t with pow := { t.pow with sysrstLow := true } }

/-- DEVICE_RESET_AFTER_RESPONSE: the reset that a RESET command has announced (R261, R372). -/
def execDeviceResetAfterResponse (s : State) : Host.Outcome State Fault Refusal :=
  if s.pow.resetDue then
    .next ((s.resetDevice { powerLost := false, aon := true, session := false }).noteCause (s.dev == .live) 2)
  else .next s

/-! ### PWRCTL (R365, R366) -/

/-- A load, a relay update or a flash operation is in progress. -/
def State.workInHand (s : State) : Bool := s.icp.isSome || !s.icpQueue.isEmpty || s.cae.relay != 0

/-- The lowest code of R365 that applies to a request, 0 for none. -/
def State.powRefuse (s : State) (p : PowState) : Nat :=
  if s.dev = .boot then 1
  else if (p = .rest ∨ p = .keep) ∧ s.anyRunning then 2
  else if p = .keep ∧ s.dev = .live then 3
  else if s.workInHand then 4
  else if s.pow.busy then 5
  else 0

/-- A device in Rest returns to Run, its sources recorded as given: paddocks and Lark resume as they were (R368). -/
def State.wakeRest (s : State) (src : Word) : State :=
  let t := (List.finRange 16).foldl (fun (u : State) p => u.clkenPut p (s.pow.clken.getLsbD p.val)) s
  (((t.bset (aLark 0) 23 s.pow.larkEn).hwWr 0x01C src).setPower .run).lowresTrack

/-- WAKESRC bit HOST. -/
def wakeHost : Word := 0x000004

/-- A request is accepted (R366). -/
def State.powAccept (s : State) (p : PowState) : State :=
  let t := (s.hwWr 0x010 (wd (p.code * 2 ^ 22))).hwWr 0x014 (putFld (s.hwRd 0x014) 20 18 0)
  if p = s.pow.st then { t with pow := { t.pow with want := p } }
  else
    let u : State := { t with pow := { t.pow with want := p, busy := true } }
    (u.hwWr 0x014 (putBit (u.hwRd 0x014) 21 true)).powTrack

/-- A write of PWRCTL: a device in Rest wakes first (R368); a refused request changes nothing but REFUSE. -/
def State.powRequest (s0 : State) (p : PowState) : State :=
  let s := if s0.pow.st = .rest then s0.wakeRest wakeHost else s0
  let c := s.powRefuse p
  if c ≠ 0 then (s.hwWr 0x014 (putFld (s.hwRd 0x014) 20 18 c)).evPower else s.powAccept p

/-- The device has no host window now: it is in Keep, or the function is in reset. -/
def State.hostGone (s : State) : Bool := (s.pow.st == .keep && !s.pow.emulated) || s.pcie.inReset

/-- PWRCTL_RUN. -/
def execPwrctlRun (s : State) : Host.Outcome State Fault Refusal := .next (if s.hostGone then s else s.powRequest .run)
/-- PWRCTL_DIM. -/
def execPwrctlDim (s : State) : Host.Outcome State Fault Refusal := .next (if s.hostGone then s else s.powRequest .dim)
/-- PWRCTL_REST. -/
def execPwrctlRest (s : State) : Host.Outcome State Fault Refusal := .next (if s.hostGone then s else s.powRequest .rest)
/-- PWRCTL_KEEP. -/
def execPwrctlKeep (s : State) : Host.Outcome State Fault Refusal := .next (if s.hostGone then s else s.powRequest .keep)

/-- No command is in service, forwarded ones apart. -/
def State.serviceIdle (s : State) : Bool := !s.coreBusy 0 && !s.coreBusy 1 && s.relayMbox.isNone

/-- REST_ENTRY: CLKEN of every paddock and EN of Lark are cleared, to be set again at the wake (R366). -/
def execRestEntry (s : State) : Host.Outcome State Fault Refusal :=
  if s.pow.busy && s.pow.want == .rest && s.serviceIdle then
    let ck := (List.range 16).foldl (fun (m : BitVec 16) p => if s.bget (aPad p 0) 23 then m ||| (1 <<< p) else m) 0
    let s1 : State := { s with pow := { s.pow with clken := ck, larkEn := s.bget (aLark 0) 23 } }
    let s2 := (List.finRange 16).foldl (fun (u : State) p => u.clkenPut p false) s1
    .next (((s2.bset (aLark 0) 23 false).setPower .rest).lowresTrack)
  else .next s

/-- Every pad's hold latch takes its level, enable and pull, and HELD is 1 (R316). -/
def State.padsHold (s : State) : State :=
  (List.finRange 12).foldl (fun (u : State) b =>
    if u.bget (aBank b.val 0) 13 then u
    else (u.bset (aBank b.val 0) 13 true).modBank b fun x =>
      { x with keepLvl := x.lvl, keepOe := x.oe, keepEn := x.en, keepPull := x.pull }) s

/-- The other domains switch off: the device is in Keep, with a cause for its next start-up (R366, R369, R370). -/
def State.keepOff (s : State) (cause : Nat) : State :=
  let t := (s.padsHold.resetDevice { powerLost := true, aon := true, session := false }).noteCause (s.dev == .live) cause
  (({ t with pow := { t.pow with st := .keep, want := .keep } } : State).hwWr 0x014 (wd (3 * 2 ^ 22))).lowresTrack

/-- KEEP_ENTRY: the ledger is written and the domains switch off, or appear to under a debug session (R366, R390). -/
def execKeepEntry (s : State) : Host.Outcome State Fault Refusal :=
  if s.pow.busy && s.pow.want == .keep && s.serviceIdle then
    let t := s.ledgerSave
    if 1 ≤ s.level then
      let u := t.padsHold.setPower .keep
      .next (({ u with pow := { u.pow with emulated := true } } : State).lowresTrack)
    else .next (t.keepOff 3)
  else .next s

/-! ### Waking (R368, R369) -/

/-- A wake source is enabled in WAKEEN, and its bit of WAKESRC. -/
def State.wakeBit (s : State) : WakeSrc → Option Word
  | .pin i => if bit (s.hwRd 0x018) (20 + i.val) && fld (s.hwRd (0x028 + 4 * i.val)) 14 13 != 0 then some (wd (2 ^ (20 + i.val))) else none
  | .timer t => if bit (s.hwRd 0x018) (4 + t.val) then some (wd (2 ^ (4 + t.val))) else none
  | .perst => if bit (s.hwRd 0x018) 3 then some 0x000008 else none
  | _ => none

/-- An event flag is set whose mask bit is 0. -/
def State.openEvent (s : State) : Bool :=
  (List.range 64).any fun n => s.evFlag n && !bit (s.hwRd (0x0AC + 4 * (n / 24))) (n % 24)

/-- What wakes a device in Rest, with the bit it leaves in WAKESRC. -/
def State.restWake (s : State) : WakeSrc → Option Word
  | .hostAccess => some wakeHost
  | .mailboxPost => if (List.finRange 16).any fun m => s.mbPhase m == 2 then some 0 else none
  | .event => if s.openEvent then some 0 else none
  | w => s.wakeBit w

/-- WAKE: from Rest to Run, or from Keep to start-up at the fuse load. How long Keep has lasted is free (log entry 2). -/
def execWake (w : WakeSrc) (s : State) : Host.Outcome State Fault Refusal :=
  match s.pow.st with
  | .rest => match s.restWake w with
    | some src => .next (s.wakeRest src)
    | none => .next s
  | .keep => match s.wakeBit w with
    | some src =>
      if s.pow.thermKeep then .next s
      else if s.pow.emulated then
        let t := (s.resetDevice { powerLost := false, aon := true, session := true }).noteCause (s.dev == .live) 3
        .next (t.hwWr 0x01C src)
      else
        let (n, t) := s.draw
        let u : State := { t with pow := { t.pow with st := .run, want := .run, seconds := t.pow.seconds + n } }
        .next (((u.hwWr 0x01C src).hwWr 0x014 0).lowresTrack)
    | none => .next s
  | _ => .next s

/-! ### Temperature (R370, R406) -/

/-- THERM_UPDATE: TEMP, and HOT on a crossing of ALERT. In Keep the device only waits for 169 or less. -/
def execThermUpdate (t : Byte) (s : State) : Host.Outcome State Fault Refusal :=
  let s1 := s.hwWr 0x020 (putFld (s.hwRd 0x020) 23 16 t.toNat)
  if s.pow.st = .keep ∧ !s.pow.emulated then
    .next { s1 with pow := { s1.pow with thermKeep := s1.pow.thermKeep && decide (169 < t.toNat) } }
  else
    let hot := decide (fld (s1.hwRd 0x020) 15 8 ≤ t.toNat)
    let s2 : State := { s1 with pow := { s1.pow with hot := hot, fresh := false } }
    if hot && (s.pow.fresh || !s.pow.hot) then .next (s2.hwWr 0x020 (putBit (s2.hwRd 0x020) 7 true)).evPower else .next s2

/-- A write of THERM: HOT clears where 1 is written. One that changes ALERT makes the next update count as the first; DEDUCED (log entry
138): one that leaves it as it is, as one that clears HOT, is no write of ALERT, or a HOT cleared would be set again (R406). -/
def State.thermPut (s : State) (v : Word) : State :=
  let t := s.hwWr 0x020 (writeView (hwFields 0x020) (s.hwRd 0x020) v)
  if fld v 15 8 = fld (s.hwRd 0x020) 15 8 then t else { t with pow := { t.pow with hot := false, fresh := true } }

/-- THERMAL_TRIP: TEMP has read 189 or more for 1 ms (R370). -/
def execThermalTrip (s : State) : Host.Outcome State Fault Refusal :=
  if fld (s.hwRd 0x020) 23 16 < 189 ∨ (s.pow.st = .keep ∧ !s.pow.emulated) then .next s
  else
    let t := s.keepOff 4
    .next { (t.hwWr 0x020 (putFld (t.hwRd 0x020) 23 16 (fld (s.hwRd 0x020) 23 16))) with pow := { t.pow with thermKeep := true } }

/-! ### Start-up (R198, R201, R373, R394) -/

/-- A part whose lock is open: every general pin is Ovzia secure, and its banks off (R394). -/
def State.lockOpen (s : State) : State :=
  (List.range 12).foldl (fun (t : State) b =>
    (List.range 24).foldl (fun (u : State) n => u.fset (aBank b (0x10 + n)) 23 22 3) (t.fset (aBank b 0) 23 20 0)) s

/-- FUSE_LOAD: the fuses are read; `disagree` bits differed in the three reads. -/
def execFuseLoad (disagree : BitVec 12) (s : State) : Host.Outcome State Fault Refusal :=
  if s.start ≠ .reset ∨ s.pow.st = .keep then .next s
  else
    let s1 : State := { s with
      start := .fused, gcfg := Vector.replicate 3 s.gcfgFuse
      pow := { s.pow with resetOutLow := false, prsntLow := true, sysrstLow := false } }
    let s2 := s1.fset (aRot 8) 23 12 disagree.toNat
    .next (if s.fuses.flock then s2 else s2.lockOpen)

/-- CAERUNO_BOOT: `okA` and `okB` are the answers of Ovzia's signature check of the two copies. -/
def execCaerunoBoot (okA okB : Bool) (s : State) : Host.Outcome State Fault Refusal :=
  if s.start ≠ .fused ∨ s.reason = 1 then .next s
  else
    let c := if s.fuses.flock && s.flashSize != 0 then s.bootCopy okA okB else none
    match c with
    | some o => .next (s.caerunoRuns (wd (ofBytesLE (s.flashBytes (o + 18) 3))) (wd (ofBytesLE (s.flashBytes (o + 6) 3))))
    | none => .next (s.toDev .boot 1)

/-- The state that a command's meaning goes on to. -/
def goOn (s : State) (o : Host.Outcome State Fault Refusal) : State :=
  match o with
  | .next t => t
  | _ => s

/-- One step of the load in hand. -/
def State.loadStep (s : State) : State :=
  match s.icp with
  | none => s
  | some j =>
    if !j.begun then s.loadClear j fun t => t.loadRead fun a n => (t.nowBytes a n, true)
    else if j.runs || j.code != 0 then s.icpEnd.1
    else if j.ended then s.loadRuns j
    else match j.words with
      | [] => s.icpEnd.1
      | w :: _ => match fld w 23 20 with
        | 0 => goOn s (execPad s)
        | 1 => goOn s (execFrames s)
        | 2 => goOn s (execBmem s)
        | 3 => goOn s (execEndRecord s)
        | _ => s.icpEnd.1

/-- The load in hand runs to its end. -/
def State.loadAll (s : State) : Nat → State
  | 0 => s
  | n + 1 => if s.icp.isNone then s else s.loadStep.loadAll n

/-- Paddock p is loaded from image entry e: the state, and whether the load succeeded. -/
def State.loadPad (s : State) (p e : Nat) : State × Bool :=
  let t := (s.swapStart (Fin.ofNat 16 p) e true none).swapFreeze (Fin.ofNat 16 p)
  let n := (t.imageRun e).1.length
  let u := t.loadAll (n + 5)
  (u, u.loaded p)

/-- Paddocks are loaded from their entries one after the other, until one fails. -/
def State.loadPads (s : State) : List (Nat × Nat) → State × Bool
  | [] => (s, true)
  | (p, e) :: t =>
    let (u, ok) := s.loadPad p e
    if ok then u.loadPads t else (u, false)

/-- Every paddock is cleared, and VALID of the entries staged (R201). -/
def State.unloadAll (s : State) (es : List Nat) : State :=
  let t := (List.finRange 16).foldl (fun (u : State) p => (((u.swapFreeze p).padClear p).bset (aPad p.val 1) 22 false).modPad p fun x => { x with hedged := true }) s
  es.foldl (fun (u : State) e =>
    { (u.bset (aImage e 0) 23 false) with keys := u.keys.set (Fin.ofNat 64 e) none }) t

/-- An image in flash: its offset and length. -/
def State.flashImage (s : State) (i : Nat) : Nat × Nat := (s.dirField (4 + 8 * i), s.dirField (8 + 8 * i))

/-- The bytes of a flash image. -/
def State.imageBytes (s : State) (i : Nat) (off n : Nat) : List Byte := s.flashBytes ((s.flashImage i).1 + off) n

/-- The essential-bit map of a flash image: the words after its stream (log entry 36). -/
def State.imageMap (s : State) (i : Nat) (x : Stream) : List Word :=
  let after := if s.imageBytes i x.size 4 = ascii "KZBD" then x.size + 48 else x.size
  let all := wordsOfBytes (s.imageBytes i after ((s.flashImage i).2 - after))
  (mapParts x.pads.length all).flatten

/-- A flash image is a candidate (R201): a full stream whose header passes R191. -/
def State.candidate (s : State) (i : Nat) : Option Stream :=
  let x := readStream (s.imageBytes i)
  if s.dirBase.isSome && x.kind == 1 && s.streamValid x (s.flashImage i).2 then some x else none

/-- The candidates, the one to be tried first in front. -/
def State.candidates (s : State) : List (Nat × Stream) :=
  match s.candidate 0, s.candidate 1 with
  | some a, some b => if a.version < b.version then [(1, b), (0, a)] else [(0, a), (1, b)]
  | some a, none => [(0, a)]
  | none, some b => [(1, b)]
  | none, none => []

/-- A candidate is staged and its paddocks loaded; if that fails nothing of it stays. -/
def State.tryImage (s : State) (i : Nat) (x : Stream) : State × Bool :=
  match s.streamKey x (s.imageBytes i) (s.flashImage i).2 with
  | none => (s, false)
  | some k0 =>
    let map := s.imageMap i x
    let room := decide (((x.parts (s.imageBytes i) map).map StagePart.units).sum ≤ s.dramCap / 2048)
    if sha384 (bytesOfWords map) ≠ x.mapdig ∨ !room then (s, false)
    else
      let (t, es) := s.stageGo (.core 0 0) x (s.imageBytes i) k0 map
      let (u, ok) := t.loadPads (x.pads.zip es)
      if ok then (u, true) else (u.unloadAll es, false)

/-- The candidates are tried in turn. -/
def State.tryImages (s : State) : List (Nat × Stream) → State × Bool
  | [] => (s, false)
  | (i, x) :: t =>
    let (u, ok) := s.tryImage i x
    if ok then (u, true) else u.tryImages t

/-- FABRIC_LOAD: READY with the loaded candidate, or MAINT (R201, R250). -/
def execFabricLoad (s : State) : Host.Outcome State Fault Refusal :=
  if s.start ≠ .checked then .next s
  else if s.dev ≠ .boot then .next { s with start := .up }
  else
    let (t, ok) := s.tryImages s.candidates
    let u : State := { t with start := .up }
    .next (if ok then u.enterDev .ready 2 else u.enterDev .maint 4)

/-- CAERUNO_INTEGRITY_FAILURE: a check fails on both cores (R250). -/
def execCaerunoIntegrityFailure (s : State) : Host.Outcome State Fault Refusal :=
  if s.dev = .boot then .next s else .next (s.toSafe 7)

/-! ### PCIE_PERST_N (R356) -/

/-- A mailbox that the host holds: free at once, or when its command has completed. -/
def State.hostLost (s : State) (m : Mbox) : State :=
  if s.mbClaimant m ≠ 1 then s
  else if s.mbPhase m = 1 ∨ s.mbPhase m = 4 then s.mbFree m
  else s.modMbox m fun x => { x with orphan := true }

/-- PCIE_PERST_N falls. -/
def execPciePerstN (s : State) : Host.Outcome State Fault Refusal :=
  let t : State := { s with pcie := { PcieSt.reset with inReset := true }, dreads := s.dreads.filter fun x => x.user != .host }
  .next ((List.finRange 16).foldl State.hostLost (t.hwWr 0x004 0))

/-- PCIE_PERST_N rises. -/
def execPciePerstNRise (s : State) : Host.Outcome State Fault Refusal :=
  .next { s with pcie := { s.pcie with inReset := false } }

/-! ### Lines and pins that carry what the state holds -/

/-- A line of the warden interrupt controller (R312, R319, R364): the event flags, whatever EVMASK holds; a bank's interrupt flags; a
timer's enabled flags; a link's cause. Lines 96 to 127 are Caeruno's own. -/
def State.wardenLine (s : State) (n : Nat) : Bool :=
  if n < 64 then s.evFlag n
  else if n < 76 then s.rd (aBank (n - 64) 6) != 0
  else if n < 92 then
    let c := s.rd (aTimer (n - 76) 0)
    let f := s.rd (aTimer (n - 76) 7)
    bit f 23 && bit c 8 || bit f 22 && bit c 7 || (bit f 20 || bit f 21) && bit c 6
  else if n < 96 then bit (s.hwRd 0x0D0) (n - 92)
  else false

/-- ALERT_N is pulled low: the device is in SAFE, or its lock is open (R317, R394). -/
def State.alertLow (s : State) : Bool := s.dev == .safe || (s.start != .reset && !s.fuses.flock)

end Sys2Proof.Machine
end

