-- ==== Sys2Proof/Machine/HostWin.lean ====
section
/-! DEFINITION. The host's two windows: BAR0 with the host-window registers and the MSI-X structures, and the BAR2
aperture (15_host_events_power.md, R355 to R363). -/

namespace Sys2Proof.Machine

/-! ### Host-window registers (R358 to R363) -/

/-- A refused host-window write is counted (R359). -/
def State.badWrite (s : State) : State := (s.hwWr 0x00C (incFld (s.hwRd 0x00C) 23 16)).evHost

/-- A refused aperture access is counted (R357). -/
def State.apFault (s : State) : State := (s.hwWr 0x00C (incFld (s.hwRd 0x00C) 15 8)).evHost

/-- A checked write's code is good, or writes are not checked. -/
def State.codeGood (s : State) (v : BitVec 32) : Bool :=
  !bit (s.hwRd 0x004) 23 || checkCode (v.setWidth 24) == BitVec.ofNat 8 (v.toNat >>> 24)

/-- A host-window register as bits [23:0] of a read give it. -/
def State.hostView (s : State) (off : Nat) : Word :=
  if off = 0 then s.identity
  else if off = 0x008 then putBit (s.hwRd 0x008) 23 s.hostReady
  else if 0x040 ≤ off ∧ off < 0x080 then readView (fieldsOf (.mbctl 0)) (s.rd (aMbctl ((off - 0x040) / 4)))
  else if 0x080 ≤ off ∧ off < 0x0A0 then
    if s.headOff ((off - 0x080) / 4) then 0 else readView (fieldsOf (.head 0 0x35)) (s.rd (aHead ((off - 0x080) / 4) 0x35))
  else readView (hwFields off) (s.hwRd off)

/-- What reading a host-window register does: its RC fields clear (R10, R359). -/
def State.hostTouch (s : State) (off : Nat) : State :=
  if 0x080 ≤ off ∧ off < 0x0A0 then
    let a := aHead ((off - 0x080) / 4) 0x35
    if s.headOff ((off - 0x080) / 4) then s else s.wr a (rcView (fieldsOf (.head 0 0x35)) (s.rd a))
  else s.hwWr off (rcView (hwFields off) (s.hwRd off))

/-- Message requests of flags that a write has cleared are withdrawn (R363). -/
def State.pendTrack (s : State) (k : Nat) : State :=
  let keep := (List.range 24).foldl (fun (m : BitVec 64) i =>
    if 24 * k + i < 64 ∧ !s.evFlag (24 * k + i) then m &&& ~~~((1 : BitVec 64) <<< (24 * k + i)) else m) s.pcie.pending
  { s with pcie := { s.pcie with pending := keep } }

/-- The power state of a TARGET. -/
def powOf : Nat → PowState
  | 0 => .run
  | 1 => .dim
  | 2 => .rest
  | _ => .keep

/-- A host-window register takes an accepted write. -/
def State.hostPut (s : State) (off : Nat) (v : Word) : State :=
  if 0x040 ≤ off ∧ off < 0x080 then s.mbctlPut .host (Fin.ofNat 16 ((off - 0x040) / 4)) v
  else if 0x080 ≤ off ∧ off < 0x0A0 then
    let h := (off - 0x080) / 4
    if s.headOff h then s else s.fset (aHead h 0x35) 20 18 (fld v 20 18)
  else if off = 0x010 then s.powRequest (powOf (fld v 23 22))
  else if off = 0x020 then s.thermPut v
  else
    let t := s.hwWr off (writeView (hwFields off) (s.hwRd off) v)
    if 0x0A0 ≤ off ∧ off ≤ 0x0A8 then t.pendTrack ((off - 0x0A0) / 4) else t

/-! ### BAR0 (R356, R359, R363) -/

/-- Dword d of BAR0 as a read returns it. -/
def State.bar0Word (s : State) (d : Nat) : BitVec 32 :=
  let off := 4 * d
  if off < 0x1E0 then (checkCode (s.hostView off)).append (s.hostView off)
  else if 0x800 ≤ off ∧ off < 0xC00 then spGet msixDefault s.pcie.table (d - 0x200)
  else if off = 0xC00 then s.pcie.pending.setWidth 32
  else if off = 0xC04 then (s.pcie.pending >>> 32).setWidth 32
  else 0

/-- A read of BAR0: the bytes addressed; every register touched has its side effect (R359). -/
def State.bar0Read (s : State) (off size : Nat) : State :=
  let ds := (List.range ((off + size + 3) / 4 - off / 4)).map fun i => off / 4 + i
  let all := (ds.map fun d => bytesLE 4 (s.bar0Word d).toNat).flatten
  let t : State := { s with pcie := { s.pcie with rdata := (all.drop (off % 4)).take size, rpoison := false } }
  ds.foldl (fun (u : State) d => if 4 * d < 0x1E0 then u.hostTouch (4 * d) else u) t

/-- A dword of the MSI-X table is written; only the mask bit of a vector control can be (R356). -/
def State.msixPut (s : State) (i : Nat) (v : BitVec 32) : State :=
  let w := if i % 4 = 3 then v &&& 1 else if i % 4 = 0 then v &&& ~~~3 else v
  { s with pcie := { s.pcie with table := spSet msixDefault s.pcie.table i w } }

/-- A write of BAR0. -/
def State.bar0Write (s : State) (off size : Nat) (v : BitVec 64) : State :=
  let lo : BitVec 32 := v.setWidth 32
  let whole := size == 4 && off % 4 == 0
  let i := (off - 0x800) / 4
  if off < 0x1E0 then if whole && s.codeGood lo then s.hostPut off (lo.setWidth 24) else s.badWrite
  else if 0x800 ≤ off ∧ off < 0xC00 then
    if whole then s.msixPut i lo
    else if size = 8 ∧ off % 8 = 0 then (s.msixPut i lo).msixPut (i + 1) ((v >>> 32).setWidth 32)
    else s
  else s

/-- The MSI-X control word of configuration space takes its enable and function-mask bits (R355; log entry 40). -/
def State.msixCtlPut (s : State) (v : BitVec 32) : State :=
  { s with pcie := { s.pcie with msixOn := v.getLsbD 31, funcMask := v.getLsbD 30 } }

/-- The dwords of configuration space that carry the function's identity: vendor and device, class code and revision (R355). -/
def State.cfgId (s : State) (d : Nat) : Option (BitVec 32) :=
  if d = 0 then some (BitVec.ofNat 32 (fld s.identity 23 8 * 2 ^ 16 + 0x1F3C))
  else if d = 2 then some (BitVec.ofNat 32 (0x038000 * 2 ^ 8 + fld s.identity 7 0))
  else none

/-- MSIX_MESSAGE: a pending request is sent once its masks clear, while its flag is 1 (R363). -/
def execMsixMessage (n : Fin 64) (s : State) : Host.Outcome State Fault Refusal :=
  if s.pcie.pending.getLsbD n.val && s.evFlag n.val && s.msixOpen n.val then
    .next { s with pcie := { s.pcie with pending := s.pcie.pending &&& ~~~((1 : BitVec 64) <<< n.val), sent := s.pcie.sent ++ [n.val] } }
  else .next s

/-! ### BAR2 (R357) -/

/-- What a byte range of BAR2 reaches. -/
inductive Aperture where
  | dram
  | lark
  | words
  | none
deriving DecidableEq, Repr

/-- The host reaches a warden word through BAR2: `true` when it may write it. -/
def apWord (a : Nat) : Option Bool :=
  match locOf a with
  | .desc _ _ _ => some true
  | .sigRegion _ _ => some true
  | .ring _ _ => some false
  | .mbbuf _ _ => some true
  | .palette _ => some true
  | .voice _ _ => some true
  | .objStore _ => some true
  | _ => none

/-- Warden words that n bytes of BAR2 from off touch. -/
def apWords (off n : Nat) : List Nat :=
  (List.range ((off + n + 3) / 4 - off / 4)).map fun i => off / 4 + i - 2 ^ 33

/-- The part of BAR2 that a byte range lies in. -/
def apOf (off n : Nat) : Aperture :=
  if off + n ≤ 2 ^ 35 then .dram
  else if 0x810000000 ≤ off ∧ off + n ≤ 0x810100000 then .lark
  else if 2 ^ 35 ≤ off ∧ off + n ≤ 2 ^ 35 + 2 ^ 26 then
    if (apWords off n).all fun a => (apWord a).isSome then .words else .none
  else .none

/-- A device in Rest wakes for a host access to DRAM, which completes after the return (R368). -/
def State.wakeHostFor (s : State) : State := if s.pow.st = .rest then s.wakeRest wakeHost else s

/-- A read completes with these bytes, poisoned or not. -/
def State.apAnswer (s : State) (d : List Byte) (poison : Bool) : State :=
  { s with pcie := { s.pcie with rdata := d, rpoison := poison } }

/-- Warden words are read with no side effect, each with its check code; one that cannot be read poisons the completion. -/
def State.apRead (s : State) : List Nat → List Byte × Bool × State
  | [] => ([], false, s)
  | a :: t =>
    let u := s.busRead .host a true .clean
    let (d, bad, v) := u.apRead t
    (bytesLE 4 ((checkCode u.rdata).append u.rdata).toNat ++ d, u.rfault || bad, v)

/-- APERTURE_READ. -/
def execApertureRead (off : BitVec 36) (len : Nat) (s : State) : Host.Outcome State Fault Refusal :=
  let o := off.toNat
  if s.hostGone then .next s
  else match apOf o len with
    | .dram => .next (s.wakeHostFor.directRead .host o len)
    | .lark =>
      let (d, lost, t) := s.larkLoad (o - 0x810000000) len
      .next (t.apAnswer d lost)
    | .words =>
      let (d, bad, t) := s.apRead (apWords o len)
      .next (t.apAnswer ((d.drop (o % 4)).take len) bad)
    | .none => .next (s.apFault.apAnswer (List.replicate len 0) false)

/-- A write of one warden word through BAR2. -/
def State.apWrite (s : State) (a : Nat) (v : BitVec 32) : State :=
  let refused := match locOf a with
    | .mbbuf m w => !s.mbufOk (some .host) (Fin.ofNat 16 m) w
    | _ => false
  if (apWord a != some true || refused || !s.codeGood v) = true then s.apFault else s.busWrite .host a (v.setWidth 24)

/-- APERTURE_WRITE. -/
def execApertureWrite (off : BitVec 36) (d : List Byte) (s : State) : Host.Outcome State Fault Refusal :=
  let o := off.toNat
  if s.hostGone then .next s
  else match apOf o d.length with
    | .dram => .next (s.wakeHostFor.queueWrite .host o d)
    | .lark => .next (s.larkStore (o - 0x810000000) d)
    | .words =>
      if d.length = 4 ∧ o % 4 = 0 then .next (s.apWrite (o / 4 - 2 ^ 33) (BitVec.ofNat 32 (ofBytesLE d))) else .next s.apFault
    | .none => .next s.apFault

end Sys2Proof.Machine
end

