-- ==== Sys2Proof/Machine/Stile.lean ====
section
/-! DEFINITION. The Stile: its port, sessions, registers, the debug master, halts and freezes, trace read-out and the
virtual terminal (16_debug_test.md, R374 to R393). -/

namespace Sys2Proof.Machine

/-! ### The port (R374, R375) -/

/-- STRAP2: the two-wire mode. -/
def State.twoWire (s : State) : Bool := s.pow.straps.getLsbD 2

/-- The 32-bit identity that IDCODE selects. -/
def State.idcode (s : State) : BitVec 32 :=
  BitVec.ofNat 32 (fld s.identity 3 0 * 2 ^ 28 + fld s.identity 23 8 * 2 ^ 12 + 0x2E5 * 2 + 1)

/-- What the selected data register captures: the identity, or the answer of the last access (R376). -/
def State.scanOut (s : State) : BitVec 32 :=
  match s.stile.ir with
  | .idcode => s.idcode
  | .dpacc => BitVec.ofNat 32 (s.stile.ack.toNat * 2 ^ 24 + s.stile.data.toNat)
  | _ => 0

/-- What the instruction register captures, and what each of its codes selects: BYPASS where none is listed (R374). -/
def irCapture : BitVec 6 := 1
def irOf (code : BitVec 6) : ScanIr :=
  match code.toNat with
  | 1 => .idcode
  | 2 => .sample
  | 3 => .extest
  | 4 => .clamp
  | 8 => .dpacc
  | _ => .bypass

/-- The scan port selects an instruction; in two-wire mode there is no scan port. -/
def State.selectIr (s : State) (i : ScanIr) : State := if s.twoWire then s else { s with stile := { s.stile with ir := i } }

/-- BYPASS. -/
def execBypass (s : State) : Host.Outcome State Fault Refusal := .next (s.selectIr .bypass)
/-- IDCODE. -/
def execIdcode (s : State) : Host.Outcome State Fault Refusal := .next (s.selectIr .idcode)

/-- The boundary register takes bits. -/
def State.preload (s : State) (bits : List Bool) : State := { s with stile := { s.stile with boundary := bits } }

/-- SAMPLE_PRELOAD: the boundary register holds what was sampled or preloaded. -/
def execSamplePreload (bits : List Bool) (s : State) : Host.Outcome State Fault Refusal :=
  .next (if s.twoWire then s else (s.selectIr .sample).preload bits)

/-- The general pins take level and enable from the boundary register; its cells' order is not in the spec, so they are
free (log entry 2). -/
def State.pinsScanned (s : State) : State :=
  (List.finRange 12).foldl (fun (t : State) b =>
    let (ws, u) := t.drawWords 2
    u.modBank b fun x => { x with lvl := nth 0 ws 0, oe := nth 0 ws 1 }) s

/-- EXTEST: the pins are driven from the boundary register while SYSRST_N is low; otherwise it acts as BYPASS. -/
def execExtest (bits : List Bool) (s : State) : Host.Outcome State Fault Refusal :=
  .next (if s.twoWire then s else if s.pow.sysrstLow then ((s.selectIr .extest).preload bits).pinsScanned else s.selectIr .bypass)

/-- CLAMP: the pins hold what the boundary register drives while SYSRST_N is low; otherwise it acts as BYPASS. -/
def execClamp (s : State) : Host.Outcome State Fault Refusal :=
  .next (if s.twoWire then s else if s.pow.sysrstLow then (s.selectIr .clamp).pinsScanned else s.selectIr .bypass)

/-! ### Halt, freeze, resume (R387 to R389) -/

/-- Core k is halted. -/
def State.coreHalt (s : State) (k : Core) : State := s.bset (aCore k.val 0) 20 true

/-- Core k resumes with a full window. -/
def State.coreResume (s : State) (k : Core) : State :=
  if s.halted k then (s.bset (aCore k.val 0) 20 false).reload k else s

/-- Blocks named by a word laid out as FRZ and a paddock mask stop, a paddock at its next fabric edge, a head at its line's end (R388). -/
def State.freeze (s : State) (frz : Word) (pads : Nat) : State :=
  let s1 := if bit frz 22 then s.coreHalt 0 else s
  let s2 := if bit frz 23 then s1.coreHalt 1 else s1
  let s3 := if bit frz 21 then ({ s2 with timers := s2.timers.map fun x => { x with frozen := true } } : State).lowresTrack else s2
  { s3 with
    lark := if bit frz 20 then { s3.lark with frozen := true } else s3.lark
    stile := { s3.stile with haltHead := s3.stile.haltHead ||| BitVec.ofNat 8 (fld frz 15 8) }
    pads := Vector.ofFn fun p => if pads.testBit p.val then { s3.pads[p] with freezing := true } else s3.pads[p] }

/-- Every halted or frozen block is released in one cycle (R388). -/
def State.resumeAll (s : State) : State :=
  let s1 := (s.coreResume 0).coreResume 1
  let s2 : State := { s1 with
    lark := { s1.lark with frozen := false }
    timers := s1.timers.map fun x => { x with frozen := false }
    stile := { s1.stile with haltHead := 0, trStopped := false }
    pads := s1.pads.map fun x => { x with frozen := false, freezing := false }
    cae := { s1.cae with ctxs := s1.cae.ctxs.map fun c => { c with suspended := false } } }
  ((List.finRange 8).foldl (fun (t : State) h => t.headRelease h) s2).lowresTrack

/-- FROZEN: laid out as FRZ, with trace stopped by a trigger at bit 19. -/
def State.frozenWord (s : State) : Word :=
  wd (b2n (s.halted 1) * 2 ^ 23 + b2n (s.halted 0) * 2 ^ 22 + b2n (s.timers.toList.any (·.frozen)) * 2 ^ 21
    + b2n s.lark.frozen * 2 ^ 20 + b2n s.stile.trStopped * 2 ^ 19
    + ((List.finRange 8).map fun h => b2n (s.heads[h].phase == .frozen) * 2 ^ (8 + h.val)).sum)

/-- FROZPAD. -/
def State.frozpadWord (s : State) : Word := wd ((List.finRange 16).map fun p => b2n s.pads[p].frozen * 2 ^ p.val).sum

/-- Core k's key sequence is abandoned and the mailboxes it has CLAIMED are free (R389). -/
def State.coreAbort (s : State) (k : Core) : State :=
  if !s.halted k then s
  else
    (List.finRange 16).foldl (fun (t : State) m =>
      if t.mbPhase m = 1 ∧ t.mbClaimant m = 2 + k.val then (t.mbFree m).evMbox m.val else t) (s.seqEnd k false)

/-- A halted core executes one instruction; the cycles that it takes, which count against the window, are free (log entry 2). -/
def State.coreStep (s : State) (k : Core) : State :=
  if !s.halted k then s
  else
    let (n, t) := s.draw
    let left := t.cores[k].left
    let u := t.modCore k fun x => { x with seqAge := x.seqAge + n + 1 }
    if !u.bget (aCore k.val 2) 23 then u
    else if left ≤ n + 1 then u.watchdogFire k
    else u.setLeft k (left - (n + 1))

/-- HALT is written. -/
def State.haltPut (s : State) (v : Word) : State :=
  let s1 := if bit v 22 then s.coreHalt 0 else s
  let s2 := if bit v 23 then s1.coreHalt 1 else s1
  let s3 := if bit v 17 then s2.coreAbort 0 else s2
  let s4 := if bit v 18 then s3.coreAbort 1 else s3
  let s5 := if bit v 19 then s4.coreStep 0 else s4
  let s6 := if bit v 20 then s5.coreStep 1 else s5
  if bit v 21 then s6.resumeAll else s6

/-- CTXHALT is written: halt, resume or step a context, at level 2 one that the certificate names (R387). -/
def State.ctxhaltPut (s : State) (v : Word) : State :=
  let c : Ctx := Fin.ofNat 64 (fld v 5 0)
  if c.val = 0 ∨ (s.level = 2 ∧ !s.stile.ctxmask.getLsbD c.val) then s
  else match fld v 23 21 with
    | 1 => s.modCtx c fun x => { x with suspended := true }
    | 2 => s.modCtx c fun x => { x with suspended := false }
    | _ => s

/-! ### Sessions (R378 to R381) -/

/-- The highest level that DBGLVL permits (R378). -/
def State.levelCap (s : State) : Nat := 3 - s.fuses.dbglvl.toNat

/-- The authentication buffer, 480 bytes. -/
def State.authBytes (s : State) : List Byte := bytesOfWords (spRead zeroW s.stile.abuf 0 160)

/-- The authentication buffer takes bytes from i. -/
def State.authPut (s : State) (i : Nat) (d : List Byte) : State :=
  let b := s.authBytes
  { s with stile := { s.stile with abuf := spWrite zeroW [] 0 (wordsOfBytes (b.take i ++ d ++ b.drop (i + d.length))) } }

/-- The session ends (R381). -/
def State.sessionEnd (s : State) : State :=
  let s1 := s.resumeAll
  let s2 := (List.range 2).foldl (fun (t : State) k => (List.range 8).foldl (fun (u : State) i => u.fset (aBp k (3 * i + 2)) 23 22 0) t) s1
  let s3 := ((s2.stWr 0x09 0).stWr 0x0A 0).stWr 0x0B 0
  let s4 := (s3.stWr 0x11 (putBit (s3.stRd 0x11) 23 false)).stWr 0x01 (putFld (s3.stRd 0x01) 23 21 0)
  { s4 with stile := { s4.stile with armed := 0, ctxmask := 0 } }

/-- CHAL is written: a fresh nonce (R379). -/
def State.chalPut (s : State) (nonce : BitVec 384) : State :=
  let t := s.authPut 416 (bytesBE 48 nonce.toNat)
  { t with stile := { t.stile with nonce := true, early := t.stile.early || decide (0 < t.stile.holdoff) } }

/-- VERIFY is written (R379). -/
def State.verifyPut (s : State) : State :=
  if bit (s.stRd 0x01) 20 then s
  else
    let t := s.stWr 0x01 (putBit (s.stRd 0x01) 20 true)
    { t with stile := { t.stile with early := t.stile.early || decide (0 < t.stile.holdoff) } }

/-- The code of the first check of R380 that fails, 0 for none. -/
def State.verifyCode (s : State) : Nat :=
  let b := s.authBytes
  let by1 := fun i => (nth 0 b i).toNat
  let target := wd (ofBytesLE (slice b 6 3))
  let family := wd (ofBytesLE (slice b 9 3))
  if b.take 4 ≠ ascii "KZDC" ∨ (slice b 20 12).any (· != 0) then 1
  else if by1 4 = 0 ∨ 3 < by1 4 ∨ s.levelCap < by1 4 then 2
  else if !s.slotHolds (by1 5) (slice b 128 96) then 3
  else if !ecdsaVerify (slice b 128 96) (b.take 224) (slice b 224 96) then 4
  else if fld target 23 4 ≠ fld s.identity 23 4 ∨ fld s.identity 3 0 < fld target 3 0 ∨ (family ≠ 0 ∧ family ≠ s.fuses.famid) then 5
  else if !ecdsaVerify (slice b 32 96) (slice b 416 48 ++ b.take 320) (slice b 320 96) then 6
  else if !s.stile.nonce then 7
  else if s.stile.early then 8
  else 0

/-- VERIFY ends: LEVEL, or the end of the session with RESULT and FAILS (R380). -/
def State.verifyEnd (s : State) : State :=
  let c := s.verifyCode
  let t0 : State := { s with stile := { s.stile with nonce := false, early := false } }
  let t := t0.stWr 0x01 (putFld (putBit (t0.stRd 0x01) 20 false) 19 16 c)
  if c = 0 then
    let lvl := (nth 0 s.authBytes 4).toNat
    { (t.stWr 0x01 (putFld (t.stRd 0x01) 23 21 lvl)) with
      stile := { t.stile with ctxmask := BitVec.ofNat 64 (ofBytesLE (slice s.authBytes 12 8)) } }
  else
    let u := t.sessionEnd
    let v := u.stWr 0x01 (incFld (u.stRd 0x01) 15 8)
    { v with stile := { v.stile with holdoff := 1000 } }

/-- VERIFY_COMPLETE. -/
def execVerifyComplete (s : State) : Host.Outcome State Fault Refusal := if bit (s.stRd 0x01) 20 then .next s.verifyEnd else .next s

/-! ### The debug master (R382 to R384) -/

/-- The address after an access, when INC says so: one word on, or three bytes in DRAM. -/
def State.bmNext (s : State) : State :=
  if !bit (s.stRd 0x07) 21 then s
  else if !bit (s.stRd 0x07) 23 then s.stWr 0x04 (s.stRd 0x04 + 1)
  else
    let a := (s.stRd 0x04).toNat + 2 ^ 24 * fld (s.stRd 0x05) 10 0 + 3
    (s.stWr 0x04 (wd a)).stWr 0x05 (wd (nbits a 34 24))

/-- A debug access that the master may not make, or that fails, sets FAULT (R384). -/
def State.bmFault (s : State) : State := s.stWr 0x07 (putBit (s.stRd 0x07) 20 true)

/-- The DRAM byte address of BMADDRH and BMADDR. -/
def State.bmDram (s : State) : Nat := (s.stRd 0x04).toNat + 2 ^ 24 * fld (s.stRd 0x05) 10 0

/-- BMDATA is read or written: one access (R383). The answer is the word read, or what stands there while BUSY is 1. -/
def State.bmDataAccess (s : State) (w : Option Word) : Word × State :=
  if bit (s.stRd 0x07) 23 then
    if s.level < 3 then (0, s.bmFault.bmNext)
    else match w with
      | none =>
        let t := (s.stWr 0x07 (putBit (s.stRd 0x07) 19 true)).directRead .debug s.bmDram 3
        (t.stRd 0x06, t.bmNext)
      | some v => (0, (s.queueWrite .debug s.bmDram (bytesLE 3 v.toNat)).bmNext)
  else
    let a := (s.stRd 0x04).toNat
    match w with
    | none =>
      let t := s.busRead .debug a (!bit (s.stRd 0x07) 22) .clean
      (if t.rfault then 0 else t.rdata, t.bmNext)
    | some v => (0, (s.busWrite .debug a v).bmNext)

/-! ### Stile registers -/

/-- The level that a register needs; `none` for a number without a register. -/
def stLevel (n : Nat) : Option Nat :=
  if n ≤ 3 then some 0
  else if n ≤ 7 then some 1
  else if n ≤ 0x0F then some 3
  else if n = 0x10 then some 2
  else if n ≤ 0x1A then some 1
  else none

/-- The session may reach register n. -/
def State.stMay (s : State) (n : Nat) : Bool := match stLevel n with
  | some l => decide (l ≤ s.level)
  | none => false

/-- ABUFD: the buffer word at ADDR; ADDR advances. -/
def State.abufNext (s : State) : State := s.stWr 0x02 (wd ((fld (s.stRd 0x02) 7 0 + 1) % 256))

/-- A write of ABUFD. -/
def State.abufPut (s : State) (v : Word) : State :=
  let i := fld (s.stRd 0x02) 7 0
  let t : State := if i < 160 then { s with stile := { s.stile with abuf := spSet zeroW s.stile.abuf i v } } else s
  t.abufNext

/-- The oldest trace word is read out. -/
def State.trPop (s : State) : Word × State :=
  match s.stile.trace with
  | w :: t => (w, { s with stile := { s.stile with trace := t } })
  | [] => (0, s)

/-- A word is left for the cores; one more while the last is unread is dropped (R393). -/
def State.vtinPut (s : State) (v : Word) : State :=
  let w := s.stRd 0x1A
  if bit w 23 then s.stWr 0x1A (incFld w 7 0)
  else { (s.stWr 0x1A (putBit w 23 true)) with stile := { s.stile with vtin := v } }

/-- The word that a core has left is read. -/
def State.vtoutTake (s : State) : Word × State := (s.stile.vtout, s.stWr 0x1A (putBit (s.stRd 0x1A) 22 false))

/-- A permitted read of Stile register n. -/
def State.stGet (s : State) (n : Nat) : Word × State :=
  match n with
  | 0x00 => (s.identity, s)
  | 0x03 => (let i := fld (s.stRd 0x02) 7 0; if i < 160 then spGet zeroW s.stile.abuf i else 0, s.abufNext)
  | 0x06 =>
    let (v, t) := s.bmDataAccess none
    (v, t.stWr 0x06 v)
  | 0x0E => (s.frozenWord, s)
  | 0x0F => (s.frozpadWord, s)
  | 0x16 => (wd (s.stile.trace.length * 2 ^ 9 + fld (s.stRd 0x16) 8 0), s.stWr 0x16 0)
  | 0x17 => s.trPop
  | 0x19 => s.vtoutTake
  | n => (readView (stileFields n) (s.stRd n), s.stWr n (rcView (stileFields n) (s.stRd n)))

/-- A write of SESS: CHAL, VERIFY and LOGOUT. The nonce is the key engine's. -/
def State.sessPut (s : State) (v : Word) : State :=
  let s1 := if bit v 2 then s.sessionEnd else s
  let s2 := if bit v 0 then
      let (ws, t) := s1.drawWords 16
      t.chalPut (BitVec.ofNat 384 (ofBytesLE (bytesOfWords ws)))
    else s1
  if bit v 1 then s2.verifyPut else s2

/-- A permitted write of Stile register n. -/
def State.stPut (s : State) (n : Nat) (v : Word) : State :=
  match n with
  | 0x01 => s.sessPut v
  | 0x03 => s.abufPut v
  | 0x06 => (s.stWr 0x06 v).bmDataAccess (some v) |>.2
  | 0x08 => s.haltPut v
  | 0x0C => (s.stWr 0x0C (writeView (stileFields 0x0C) (s.stRd 0x0C) v)).freeze v 0
  | 0x0D => (s.stWr 0x0D (writeView (stileFields 0x0D) (s.stRd 0x0D) v)).freeze 0 (fld v 15 0)
  | 0x10 => s.ctxhaltPut v
  | 0x18 => s.vtinPut v
  | n => s.stWr n (writeView (stileFields n) (s.stRd n) v)

/-- The acknowledgement and result of an access (R376); where nothing is read, or not yet, the result is free (log entry
2). -/
def State.stAnswer (s : State) (ack : BitVec 3) (d : Option Word) : State :=
  match d with
  | some v => { s with stile := { s.stile with ack := ack, data := v } }
  | none =>
    let (ws, t) := s.drawWords 1
    { t with stile := { t.stile with ack := ack, data := nth 0 ws 0 } }

/-- One access to a Stile register: OK, WAIT at BMDATA while BUSY, FAULT where the level does not permit it. -/
def State.stAccess (s : State) (n : Nat) (w : Option Word) : State :=
  if !s.stMay n then s.stAnswer 4 none
  else if n = 6 ∧ bit (s.stRd 0x07) 19 then s.stAnswer 2 none
  else match w with
    | some v => (s.stPut n v).stAnswer 1 none
    | none =>
      let (v, t) := s.stGet n
      t.stAnswer 1 (if n = 6 ∧ bit (t.stRd 0x07) 19 then none else some v)

/-- A DPACC update: WR, register and data. -/
def State.dpUpdate (s : State) (w : BitVec 32) : State :=
  s.stAccess (nbits w.toNat 30 24) (if w.getLsbD 31 then some (w.setWidth 24) else none)

/-- DPACC (R376). -/
def execDpacc (w : BitVec 32) (s : State) : Host.Outcome State Fault Refusal :=
  .next (if s.twoWire then s else (s.selectIr .dpacc).dpUpdate w)

/-- Even parity of 32 bits. -/
def parity32 (w : BitVec 32) : Bool := (List.range 32).foldl (fun b i => b != w.getLsbD i) false

/-- What the device drives in a two-wire transaction, first bit first: the acknowledgement and, for a read with OK, the data and their
even parity (R377). -/
def State.twoWireBits (s : State) (read : Bool) : List Bool :=
  let d := (List.range 24).map fun i => s.stile.data.getLsbD i
  (List.range 3).map (fun i => s.stile.ack.getLsbD i) ++ if read && s.stile.ack == 1 then d ++ [d.foldl xor false] else []

/-- TWO_WIRE_TRANSACTION: bad parity is answered FAULT and does nothing (R377). -/
def execTwoWireTransaction (w : BitVec 32) (par : Bool) (s : State) : Host.Outcome State Fault Refusal :=
  .next (if !s.twoWire then s else if par != parity32 w then s.stAnswer 4 none else s.dpUpdate w)

/-- The port is reset: the session ends (R377, R381). -/
def State.portReset (s : State) : State :=
  let t := s.sessionEnd
  { t with stile := { t.stile with ir := .idcode } }

/-- TWO_WIRE_RESET. -/
def execTwoWireReset (s : State) : Host.Outcome State Fault Refusal := .next (if s.twoWire then s.portReset else s)
/-- TRST_N. -/
def execTrstN (s : State) : Host.Outcome State Fault Refusal := .next (if s.twoWire then s else s.portReset)

/-- CHAL: 1 is written to CHAL, and the key engine's nonce is as given (R379). -/
def execChal (nonce : BitVec 384) (s : State) : Host.Outcome State Fault Refusal := .next (s.chalPut nonce)
/-- VERIFY. -/
def execVerify (s : State) : Host.Outcome State Fault Refusal := .next s.verifyPut
/-- LOGOUT (R381). -/
def execLogout (s : State) : Host.Outcome State Fault Refusal := .next s.sessionEnd
/-- ABUFD_ACCESS (R379). -/
def execAbufdAccess (w : Option Word) (s : State) : Host.Outcome State Fault Refusal := .next (s.stAccess 0x03 w)
/-- BMDATA_ACCESS (R383). -/
def execBmdataAccess (w : Option Word) (s : State) : Host.Outcome State Fault Refusal := .next (s.stAccess 0x06 w)
/-- HALT of core k (R389). -/
def execHalt (k : Core) (s : State) : Host.Outcome State Fault Refusal := .next (s.stAccess 0x08 (some (wd (2 ^ (22 + k.val)))))
/-- RESUME (R388). -/
def execResume (s : State) : Host.Outcome State Fault Refusal := .next (s.stAccess 0x08 (some 0x200000))
/-- STEP of core k (R389). -/
def execStep (k : Core) (s : State) : Host.Outcome State Fault Refusal := .next (s.stAccess 0x08 (some (wd (2 ^ (19 + k.val)))))
/-- ABORT of core k (R389). -/
def execAbort (k : Core) (s : State) : Host.Outcome State Fault Refusal := .next (s.stAccess 0x08 (some (wd (2 ^ (17 + k.val)))))
/-- CONTEXT_HALT (R387). -/
def execContextHalt (c : Ctx) (s : State) : Host.Outcome State Fault Refusal :=
  .next (s.stAccess 0x10 (some (wd (2 ^ 21 + c.val))))
/-- CONTEXT_RESUME (R387). -/
def execContextResume (c : Ctx) (s : State) : Host.Outcome State Fault Refusal :=
  .next (s.stAccess 0x10 (some (wd (2 * 2 ^ 21 + c.val))))
/-- CONTEXT_STEP: the context executes one instruction, whose accesses are commands of their own (R387). -/
def execContextStep (c : Ctx) (s : State) : Host.Outcome State Fault Refusal :=
  .next (s.stAccess 0x10 (some (wd (3 * 2 ^ 21 + c.val))))
/-- FREEZE: writes of FRZ and FRZPAD (R388). -/
def execFreeze (frz frzpad : Word) (s : State) : Host.Outcome State Fault Refusal :=
  .next ((s.stAccess 0x0C (some frz)).stAccess 0x0D (some frzpad))

/-- A source selected in XTSRC. -/
def State.xtOn (s : State) : XtSource → Bool
  | .bp k => bit (s.stRd 0x09) k.val
  | .mark => bit (s.stRd 0x09) 2
  | .ue => bit (s.stRd 0x09) 3

/-- CROSS_TRIGGER: the selected sinks act (R388). -/
def execCrossTrigger (x : XtSource) (s : State) : Host.Outcome State Fault Refusal :=
  if s.xtOn x then
    let t := s.freeze (s.stRd 0x0A) (fld (s.stRd 0x0B) 15 0)
    .next { t with stile := { t.stile with trStopped := t.stile.trStopped || bit (s.stRd 0x0A) 19 } }
  else .next s

/-- TRDATA_READ (R391). -/
def execTrdataRead (s : State) : Host.Outcome State Fault Refusal := .next (s.stAccess 0x17 none)
/-- VTIN_WRITE (R393). -/
def execVtinWrite (v : Word) (s : State) : Host.Outcome State Fault Refusal := .next (s.stAccess 0x18 (some v))
/-- VTOUT_READ (R393). -/
def execVtoutRead (s : State) : Host.Outcome State Fault Refusal := .next (s.stAccess 0x19 none)

end Sys2Proof.Machine
end

