-- ==== Sys2Proof/Machine/Access.lean ====
section
/-! DEFINITION. A warden core's own accesses with their breakpoint ranges (R238 to R240, R283, R385, R386), and the writes
and reads of registers that have no row of their own (R7, R10). -/

namespace Sys2Proof.Machine

/-! ### Breakpoint ranges (R385) -/

/-- The TYPE of an access. -/
def accType : Access → Nat
  | .fetch _ => 1
  | .rd _ => 2
  | .wr _ _ => 3

/-- The address of an access. -/
def accAddr : Access → Word
  | .fetch a => a
  | .rd a => a
  | .wr a _ => a

/-- Range i of core k matches an access by context c with data word d. -/
def State.bpMatch (s : State) (k c i : Nat) (acc : Access) (d : Word) : Bool :=
  let w := s.rd (aBp k (3 * i + 2))
  let v := if bit w 21 && accType acc != 1 then d else accAddr acc
  fld w 23 22 == accType acc && decide (s.rd (aBp k (3 * i)) ≤ v ∧ v ≤ s.rd (aBp k (3 * i + 1))) && (!bit w 18 || fld w 17 12 == c)

/-- LINK of range i of core k; range 7 has none. -/
def State.bpLink (s : State) (k i : Nat) : Nat := if i = 7 then 0 else s.fget (aBp k (3 * i + 2)) 20 19

/-- Range i of core k is armed. -/
def State.bpArmed (s : State) (k i : Nat) : Bool := s.stile.armed.getLsbD (8 * k + i)

/-- Range i fires: unlinked, with the range before it, or armed by the range before it. -/
def State.bpFires (s : State) (k c i : Nat) (acc : Access) (d : Word) : Bool :=
  let own := s.bpMatch k c i acc d && s.bpLink k i != 1 && s.bpLink k i != 2
  let before := if i = 0 then 0 else s.bpLink k (i - 1)
  if before = 1 then own && s.bpMatch k c (i - 1) acc d
  else if before = 2 then own && s.bpArmed k i
  else own

/-- ARMED after an access: a match of a range with LINK 0b10 arms the next, which disarms as it fires. -/
def State.bpArm (s : State) (k c : Nat) (acc : Access) (d : Word) : BitVec 16 :=
  (List.range 8).foldl (fun (m : BitVec 16) i =>
    let m1 := if s.bpFires k c i acc d then m &&& ~~~((1 : BitVec 16) <<< (8 * k + i)) else m
    if 0 < i ∧ s.bpLink k (i - 1) = 2 ∧ s.bpMatch k c (i - 1) acc d then m1 ||| (1 <<< (8 * k + i)) else m1) s.stile.armed

/-- A halt that a range asks for: of the core, or at level 2 of the context (R386). -/
def State.bpHalt (s : State) (k : Core) (c : Ctx) : State :=
  if s.level = 2 then s.modCtx c fun x => { x with suspended := true } else s.coreHalt k

/-- ACTION of range i of core k. -/
def State.bpAct (s : State) (k i : Nat) : Nat := s.fget (aBp k (3 * i + 2)) 11 10

/-- A range fires: HIT, and a halt as ACTION says. -/
def State.bpFire (s : State) (k : Core) (c : Ctx) (i : Nat) : State :=
  let s1 := s.bset (aBp k.val (3 * i + 2)) 9 true
  if s.bpAct k.val i = 0 ∨ s.bpAct k.val i = 3 then s1.bpHalt k c else s1

/-- The ranges of core k that an access fires. -/
def State.bpFired (s : State) (k : Core) (c : Ctx) (acc : Access) (d : Word) : List Nat :=
  (List.range 8).filter fun i => s.bpFires k.val c.val i acc d

/-- The trace packets of the ranges that an access fires whose ACTION asks for one (R385, R391). -/
def State.bpPackets (s : State) (k : Core) (c : Ctx) (acc : Access) (d : Word) : List (Nat × Nat × Nat × Word) :=
  ((s.bpFired k c acc d).filter fun i => decide (2 ≤ s.bpAct k.val i)).map fun i => (4, 8 * k.val + i, c.val, accAddr acc)

/-- Every range of core k looks at an access; packets of its cycle that are ordered behind theirs follow. -/
def State.bpCheck (s : State) (k : Core) (c : Ctx) (acc : Access) (d : Word) (behind : List (Nat × Nat × Nat × Word)) : State :=
  let t := ((s.bpFired k c acc d).foldl (fun (u : State) i => u.bpFire k c i) s).traceOne (s.bpPackets k c acc d ++ behind)
  { t with stile := { t.stile with armed := s.bpArm k.val c.val acc d } }

/-- A write of a stimulus port that also fires a range with a trace packet: the port's packet, which comes behind the range's in the cycle
and is lost (R391, R392). -/
def State.stimBehind (s : State) (k : Core) (c : Ctx) (acc : Access) (d : Word) : List (Nat × Nat × Nat × Word) :=
  match acc with
  | .wr a v => match locOf a.toNat with
    | .stim n => if bit (s.stRd 0x11) 21 && !(s.bpPackets k c acc d).isEmpty then [(1, n, c.val, v)] else []
    | _ => []
  | _ => []

/-! ### Accesses (R239, R240, R283) -/

/-- An instruction fetch finds an uncorrectable word: a core in context 0 is reset and its peer takes over; another context
stops in FAULTED (R283). -/
def State.fetchLost (s : State) (k : Core) (c : Ctx) (a : Nat) : State :=
  if c.val = 0 then
    let t := s.coreReset k
    if t.coreActs (peer k) then t.takeOver (peer k) else t
  else s.accessFault (.core k c) a

/-- An instruction fetch. -/
def State.fetch (s : State) (k : Core) (c : Ctx) (a : Nat) (e : MemErr) : State :=
  if !s.mayRead (.core k c) (locOf a) then s.accessFault (.core k c) a
  else match regionOf (locOf (ownAddr (.core k c) a)) with
    | some (g, i) =>
      let (t, lost) := s.readCheck g i e
      if lost then t.fetchLost k c a else t.answer (t.rd (ownAddr (.core k c) a))
    | none => s.busRead (.core k c) a true e

/-- The context may make an access on core k now. -/
def State.accessing (s : State) (k : Core) (c : Ctx) : Bool :=
  !(s.pow.st == .keep && !s.pow.emulated) && (c.val == 0 || (s.cae.ctxs[c].st == 2 && s.cae.ctxs[c].core == k))

/-- WARDEN_ACCESS. -/
def execWardenAccess (k : Core) (c : Ctx) (acc : Access) (e : MemErr) (s : State) : Host.Outcome State Fault Refusal :=
  if !s.accessing k c then .next s
  else match acc with
    | .fetch a => .next ((s.fetch k c a.toNat e).bpCheck k c acc 0 [])
    | .rd a =>
      let t := s.busRead (.core k c) a.toNat false e
      .next (t.bpCheck k c acc t.rdata [])
    | .wr a v =>
      let ps := s.stimBehind k c acc v
      let t : State := if ps.isEmpty then s.busWrite (.core k c) a.toNat v else { s with rfault := false }
      .next (t.bpCheck k c acc v ps)

/-! ### Registers without a row of their own (R7, R10) -/

/-- REGISTER_WRITE. -/
def execRegisterWrite (t : RegTarget) (v : BitVec 64) (s : State) : Host.Outcome State Fault Refusal :=
  match t with
  | .warden r a => .next (s.busWrite r a.toNat (v.setWidth 24))
  | .bar0 off size => .next (if s.hostGone then s else s.bar0Write off.toNat size v)
  | .msixCtl => .next (if s.hostGone then s else s.msixCtlPut (v.setWidth 32))
  | .stile n => .next (s.stAccess n.toNat (some (v.setWidth 24)))

/-- RC_READ. -/
def execRcRead (t : RegTarget) (s : State) : Host.Outcome State Fault Refusal :=
  match t with
  | .warden r a => .next (s.busRead r a.toNat false .clean)
  | .bar0 off size => .next (if s.hostGone then s else s.bar0Read off.toNat size)
  | .msixCtl => .next s
  | .stile n => .next (s.stAccess n.toNat none)

end Sys2Proof.Machine
end

