-- ==== Sys2Proof/Machine/Tick.lean ====
section
/-! DEFINITION. What a cycle of SCLK does when no command waits (log entry 8): the counters that the spec ties to that
clock, and every second cycle a fabric edge (R12, R145, R243, R244, R343, R389). -/

namespace Sys2Proof.Machine

/-- A cycle of core k's watchdog: WDCNT counts down, and at 0 the watchdog acts (R243). A halted core's does not count. -/
def State.watchdogTick (s : State) (k : Core) : State :=
  if s.alive k && !s.halted k && s.bget (aCore k.val 2) 23 then
    let n := s.cores[k].left - 1
    if n = 0 then s.watchdogFire k else s.setLeft k n
  else s

/-- A cycle of core k's key sequence: after 64 the window has lapsed (R244). -/
def State.keyTick (s : State) (k : Core) : State :=
  if s.cores[k].seq = .none ∨ s.halted k then s
  else if 64 ≤ s.cores[k].seqAge then s.seqEnd k true
  else s.modCore k fun x => { x with seqAge := x.seqAge + 1 }

/-- What a cycle adds to a member's rate-adjusted count: whole units, and the fraction left. The top root's count runs free (R343). -/
def State.foldDrift (s : State) : Int × Int :=
  if s.foldSet && !s.topRoot then ((s.fold.part + s.fold.rate) / 2 ^ 32, (s.fold.part + s.fold.rate) % 2 ^ 32) else (0, s.fold.part)

/-- Fold time: 80 units of 62.5 ps in three cycles, 26, 27 and 27, and the rate adjustment (R343). -/
def State.foldTick (s : State) : State :=
  { s with fold := { s.fold with
      time := umod 48 ((s.fold.time + 26 + (if s.fold.third = 0 then 0 else 1) : Nat) + s.foldDrift.1)
      third := (s.fold.third + 1) % 3
      part := s.foldDrift.2 } }

/-- A cycle of SCLK. -/
def State.tick (s : State) : State :=
  if s.clocksOff then s
  else
    let s1 := ({ s with sclk := s.sclk + 1 } : State).foldTick
    let s2 := if s.asleep then s1 else ((((s1.watchdogTick 0).watchdogTick 1).keyTick 0).keyTick 1).remapDue
    if s2.sclk % 2 = 0 then s2.fabricEdge.traceProbes else s2

end Sys2Proof.Machine
end

