-- ==== Sys2Proof/Machine/Fabric.lean ====
section
/-! DEFINITION. What the elements of a paddock do in a fabric cycle, and the loader's start of a load (R145, R151, R154, R165, R172 to
R174, R106, R208). A command for an element that has already acted in the present fabric cycle finds the next one: the SCLK cycles up
to the fabric edge pass first (R12; log entry 9). -/

namespace Sys2Proof.Machine

/-- SCLK runs on to the next fabric edge (R12). -/
def State.toEdge (s : State) : State :=
  let t := s.tick
  if t.sclk % 2 = 0 then t else t.tick

/-- The cycle in which element k of paddock p acts: the present one, or the next when it has acted already. -/
def State.freshCycle (s : State) (p : Pad) (k : Nat) : State := if s.pads[p].acted.contains k then s.toEdge else s

/-! ### Macrocells -/

/-- A cell executes one operation; a cell that its controls do not let run it is unchanged. -/
def State.runOp (s : State) (p : Pad) (n : Cell) (op : Nat) (f : State → Opnd → CellSt) : State :=
  let t := s.freshCycle p n.val
  if t.cellRuns p n op then t.cellPut p n (f t (t.opnd p.val n)) else s

/-- HOLD (R151): no register changes. -/
def execHold (p : Pad) (n : Cell) (s : State) : Host.Outcome State Fault Refusal :=
  .next (s.runOp p n 0x00 (fun _ o => o.old))

/-- PASS (R151): by the operands of its chosen slot. -/
def execPass (p : Pad) (n : Cell) (s : State) : Host.Outcome State Fault Refusal :=
  .next (s.runOp p n 0x01 (fun _ o => opPass o))

/-- ADD (R151): by the operands of its chosen slot. -/
def execAdd (p : Pad) (n : Cell) (s : State) : Host.Outcome State Fault Refusal :=
  .next (s.runOp p n 0x02 (fun _ o => opAdd o))

/-- SUB (R151): by the operands of its chosen slot. -/
def execSub (p : Pad) (n : Cell) (s : State) : Host.Outcome State Fault Refusal :=
  .next (s.runOp p n 0x03 (fun _ o => opSub o))

/-- LOGIC (R151): by the operands of its chosen slot. -/
def execLogic (p : Pad) (n : Cell) (s : State) : Host.Outcome State Fault Refusal :=
  .next (s.runOp p n 0x04 (fun _ o => opLogic o))

/-- CMP (R151): by the operands of its chosen slot. -/
def execCmp (p : Pad) (n : Cell) (s : State) : Host.Outcome State Fault Refusal :=
  .next (s.runOp p n 0x05 (fun _ o => opCmp o))

/-- SHL (R151): by the operands of its chosen slot. -/
def execShl (p : Pad) (n : Cell) (s : State) : Host.Outcome State Fault Refusal :=
  .next (s.runOp p n 0x06 (fun _ o => opShl o))

/-- SHR (R151): by the operands of its chosen slot. -/
def execShr (p : Pad) (n : Cell) (s : State) : Host.Outcome State Fault Refusal :=
  .next (s.runOp p n 0x07 (fun _ o => opShr o))

/-- SAR (R151): by the operands of its chosen slot. -/
def execSar (p : Pad) (n : Cell) (s : State) : Host.Outcome State Fault Refusal :=
  .next (s.runOp p n 0x08 (fun _ o => opSar o))

/-- ROL (R151): by the operands of its chosen slot. -/
def execRol (p : Pad) (n : Cell) (s : State) : Host.Outcome State Fault Refusal :=
  .next (s.runOp p n 0x09 (fun _ o => opRol o))

/-- SELC (R151): by the operands of its chosen slot. -/
def execSelc (p : Pad) (n : Cell) (s : State) : Host.Outcome State Fault Refusal :=
  .next (s.runOp p n 0x0A (fun _ o => opSelc o))

/-- MINU (R151): by the operands of its chosen slot. -/
def execMinu (p : Pad) (n : Cell) (s : State) : Host.Outcome State Fault Refusal :=
  .next (s.runOp p n 0x0B (fun _ o => opMinu o))

/-- MAXU (R151): by the operands of its chosen slot. -/
def execMaxu (p : Pad) (n : Cell) (s : State) : Host.Outcome State Fault Refusal :=
  .next (s.runOp p n 0x0C (fun _ o => opMaxu o))

/-- MINS (R151): by the operands of its chosen slot. -/
def execMins (p : Pad) (n : Cell) (s : State) : Host.Outcome State Fault Refusal :=
  .next (s.runOp p n 0x0D (fun _ o => opMins o))

/-- MAXS (R151): by the operands of its chosen slot. -/
def execMaxs (p : Pad) (n : Cell) (s : State) : Host.Outcome State Fault Refusal :=
  .next (s.runOp p n 0x0E (fun _ o => opMaxs o))

/-- ADDSU (R151): by the operands of its chosen slot. -/
def execAddsu (p : Pad) (n : Cell) (s : State) : Host.Outcome State Fault Refusal :=
  .next (s.runOp p n 0x10 (fun _ o => opAddsu o))

/-- ADDSS (R151): by the operands of its chosen slot. -/
def execAddss (p : Pad) (n : Cell) (s : State) : Host.Outcome State Fault Refusal :=
  .next (s.runOp p n 0x11 (fun _ o => opAddss o))

/-- SUBSU (R151): by the operands of its chosen slot. -/
def execSubsu (p : Pad) (n : Cell) (s : State) : Host.Outcome State Fault Refusal :=
  .next (s.runOp p n 0x12 (fun _ o => opSubsu o))

/-- SUBSS (R151): by the operands of its chosen slot. -/
def execSubss (p : Pad) (n : Cell) (s : State) : Host.Outcome State Fault Refusal :=
  .next (s.runOp p n 0x13 (fun _ o => opSubss o))

/-- SATU (R151): by the operands of its chosen slot. -/
def execSatu (p : Pad) (n : Cell) (s : State) : Host.Outcome State Fault Refusal :=
  .next (s.runOp p n 0x14 (fun _ o => opSatu o))

/-- SATS (R151): by the operands of its chosen slot. -/
def execSats (p : Pad) (n : Cell) (s : State) : Host.Outcome State Fault Refusal :=
  .next (s.runOp p n 0x15 (fun _ o => opSats o))

/-- MULU (R151): by the operands of its chosen slot. -/
def execMulu (p : Pad) (n : Cell) (s : State) : Host.Outcome State Fault Refusal :=
  .next (s.runOp p n 0x18 (fun _ o => opMulu o))

/-- MULS (R151): by the operands of its chosen slot. -/
def execMuls (p : Pad) (n : Cell) (s : State) : Host.Outcome State Fault Refusal :=
  .next (s.runOp p n 0x19 (fun _ o => opMuls o))

/-- MACU (R151): by the operands of its chosen slot. -/
def execMacu (p : Pad) (n : Cell) (s : State) : Host.Outcome State Fault Refusal :=
  .next (s.runOp p n 0x1A (fun _ o => opMacu o))

/-- MACS (R151): by the operands of its chosen slot. -/
def execMacs (p : Pad) (n : Cell) (s : State) : Host.Outcome State Fault Refusal :=
  .next (s.runOp p n 0x1B (fun _ o => opMacs o))

/-- GMUX (R151): by the operands of its chosen slot. -/
def execGmux (p : Pad) (n : Cell) (s : State) : Host.Outcome State Fault Refusal :=
  .next (s.runOp p n 0x20 (fun t o => { o.old with q := t.gangInput p.val n.val o.b }))

/-- CELL_RESET: SR is 1, and the cell takes INIT (R148, R154). -/
def execCellReset (p : Pad) (n : Cell) (s : State) : Host.Outcome State Fault Refusal :=
  let t := s.freshCycle p n.val
  if t.cellClock p n && t.sumTerm p.val n.val 4 then .next (t.cellPut p n (CellSt.atInit (t.pads[p].init n.val))) else .next s

/-- CE_HOLD: SR is 0 and CE is 0, and the cell holds (R154). -/
def execCeHold (p : Pad) (n : Cell) (s : State) : Host.Outcome State Fault Refusal :=
  let t := s.freshCycle p n.val
  if t.cellClock p n && !t.sumTerm p.val n.val 4 && !t.sumTerm p.val n.val 3 then .next (t.cellPut p n t.pads[p].pres[n])
  else .next s

/-! ### Block memories -/

/-- BLOCK_MEMORY_ACCESS: a port with EN = 1 reads, or reads and writes, at its clock edge (R165, R166). -/
def execBlockMemoryAccess (p : Pad) (m : Fin 96) (k : Fin 2) (e : MemErr) (s : State) : Host.Outcome State Fault Refusal :=
  let t := s.freshCycle p (1000 + 2 * m.val + k.val)
  if t.bmRuns p m k then .next (t.bmAccess p m k e) else .next s

/-! ### Memory ports and the tap port -/

/-- MEMORY_PORT_REQUEST: MCMD carries GO (R172, R175). -/
def execMemoryPortRequest (p : Pad) (k : Fin 2) (s : State) : Host.Outcome State Fault Refusal :=
  let t := s.freshCycle p (2000 + k.val)
  if t.clocked p.val && bit (t.mpSink p k 0) 23 then .next ((t.portRequest p k).didAct p (2000 + k.val)) else .next s

/-- MEMORY_PORT_READ_DATA: one word of read data is presented (R173, R175). -/
def execMemoryPortReadData (p : Pad) (k : Fin 2) (s : State) : Host.Outcome State Fault Refusal :=
  let t := s.freshCycle p (2010 + k.val)
  if t.clocked p.val then .next ((t.portData p k).didAct p (2010 + k.val)) else .next s

/-- MEMORY_PORT_WRITE_WORD: a word offered with MWV = 1 while WFULL is 0 is taken (R174). -/
def execMemoryPortWriteWord (p : Pad) (k : Fin 2) (s : State) : Host.Outcome State Fault Refusal :=
  let t := s.freshCycle p (2020 + k.val)
  if t.clocked p.val && t.mwvSink p.val k.val && !bit t.pads[p].mst[k] 19 then .next ((t.portWrite p k).didAct p (2020 + k.val)) else .next s

/-- TAP_RETURN: RCTL carries RV (R106, R171). -/
def execTapReturn (p : Pad) (s : State) : Host.Outcome State Fault Refusal :=
  let t := s.freshCycle p 2030
  match t.tapOwner p.val with
  | some h =>
    if t.clocked p.val && bit (t.portSink p.val 5) 23 then
      .next ((t.tapTake h p (t.portSink p.val 6) ((List.range 4).map fun i => t.portSink p.val (7 + i))).didAct p 2030)
    else .next s
  | none => .next s

/-! ### The loader -/

/-- CONFIG_LOAD: the loader begins the load in hand, after its paddock's last edge (R207, R208). -/
def execConfigLoad (s : State) : Host.Outcome State Fault Refusal :=
  match s.icp with
  | some j =>
    if j.op = .load && !j.begun then
      let t := if (s.pad j.pad).closing then s.toEdge else s
      .next (t.loadBegin j)
    else .next s
  | none => .next s

end Sys2Proof.Machine
end

