-- ==== Sys2Proof/Machine/Dispatch.lean ====
section
/-! DEFINITION. One arm per command, each a direct call of its meaning. -/

namespace Sys2Proof.Machine

/-- The effect of a command on everything but the queue of waiting commands. -/
def exec (i : Instr) (s : State) : Host.Outcome State Fault Refusal :=
  match i with
  | .beamAdvance h => Sys2Proof.Machine.execBeamAdvance h s
  | .lineStrobe h => Sys2Proof.Machine.execLineStrobe h s
  | .frameStrobe h => Sys2Proof.Machine.execFrameStrobe h s
  | .hblankStrobe h => Sys2Proof.Machine.execHblankStrobe h s
  | .vblankStrobe h => Sys2Proof.Machine.execVblankStrobe h s
  | .hsyncStrobe h => Sys2Proof.Machine.execHsyncStrobe h s
  | .vsyncStrobe h => Sys2Proof.Machine.execVsyncStrobe h s
  | .headStart h => Sys2Proof.Machine.execHeadStart h s
  | .headStop h => Sys2Proof.Machine.execHeadStop h s
  | .pllLock h => Sys2Proof.Machine.execPllLock h s
  | .rasterStop h => Sys2Proof.Machine.execRasterStop h s
  | .referenceTimeout h => Sys2Proof.Machine.execReferenceTimeout h s
  | .genlockIn => Sys2Proof.Machine.execGenlockIn s
  | .qpPost r v => Sys2Proof.Machine.execQpPost r v s
  | .qpCancel r v => Sys2Proof.Machine.execQpCancel r v s
  | .paddockPost p => Sys2Proof.Machine.execPaddockPost p s
  | .paddockCancel p => Sys2Proof.Machine.execPaddockCancel p s
  | .mark h => Sys2Proof.Machine.execMark h s
  | .write h => Sys2Proof.Machine.execWrite h s
  | .palswap h => Sys2Proof.Machine.execPalswap h s
  | .voice h => Sys2Proof.Machine.execVoice h s
  | .timer h => Sys2Proof.Machine.execTimer h s
  | .pin h => Sys2Proof.Machine.execPin h s
  | .strobe h => Sys2Proof.Machine.execStrobe h s
  | .swap h => Sys2Proof.Machine.execSwap h s
  | .slotWrite r h n v => Sys2Proof.Machine.execSlotWrite r h n v s
  | .cinv r h n => Sys2Proof.Machine.execCinv r h n s
  | .nslotWrite r h v => Sys2Proof.Machine.execNslotWrite r h v s
  | .engineLineBegin h n => Sys2Proof.Machine.execEngineLineBegin h n s
  | .occlusionDelivery h => Sys2Proof.Machine.execOcclusionDelivery h s
  | .objectEvaluation h => Sys2Proof.Machine.execObjectEvaluation h s
  | .lineDeadline h => Sys2Proof.Machine.execLineDeadline h s
  | .composeLine h => Sys2Proof.Machine.execComposeLine h s
  | .tapTransfer h => Sys2Proof.Machine.execTapTransfer h s
  | .tapReturn p => Sys2Proof.Machine.execTapReturn p s
  | .tapctlWrite r h v => Sys2Proof.Machine.execTapctlWrite r h v s
  | .signatureRecordWrite h => Sys2Proof.Machine.execSignatureRecordWrite h s
  | .outputEnable h => Sys2Proof.Machine.execOutputEnable h s
  | .outputDisable h => Sys2Proof.Machine.execOutputDisable h s
  | .laneShort h l => Sys2Proof.Machine.execLaneShort h l s
  | .hpdRise h lowUs => Sys2Proof.Machine.execHpdRise h lowUs s
  | .unplug h => Sys2Proof.Machine.execUnplug h s
  | .dramTraining ok cap => Sys2Proof.Machine.execDramTraining ok cap s
  | .dramReadRequest q u => Sys2Proof.Machine.execDramReadRequest q u s
  | .dramReadIssue c => Sys2Proof.Machine.execDramReadIssue c s
  | .dramReadComplete c o => Sys2Proof.Machine.execDramReadComplete c o s
  | .dramWriteRequest q a d => Sys2Proof.Machine.execDramWriteRequest q a d s
  | .writeQueueDrain c => Sys2Proof.Machine.execWriteQueueDrain c s
  | .refresh c sub mr4 => Sys2Proof.Machine.execRefresh c sub mr4 s
  | .drcfgWrite r v => Sys2Proof.Machine.execDrcfgWrite r v s
  | .tagresWrite r v => Sys2Proof.Machine.execTagresWrite r v s
  | .shareWrite r v => Sys2Proof.Machine.execShareWrite r v s
  | .eccRegionEnable r n v => Sys2Proof.Machine.execEccRegionEnable r n v s
  | .hold p n => Sys2Proof.Machine.execHold p n s
  | .pass p n => Sys2Proof.Machine.execPass p n s
  | .add p n => Sys2Proof.Machine.execAdd p n s
  | .sub p n => Sys2Proof.Machine.execSub p n s
  | .logic p n => Sys2Proof.Machine.execLogic p n s
  | .cmp p n => Sys2Proof.Machine.execCmp p n s
  | .shl p n => Sys2Proof.Machine.execShl p n s
  | .shr p n => Sys2Proof.Machine.execShr p n s
  | .sar p n => Sys2Proof.Machine.execSar p n s
  | .rol p n => Sys2Proof.Machine.execRol p n s
  | .selc p n => Sys2Proof.Machine.execSelc p n s
  | .minu p n => Sys2Proof.Machine.execMinu p n s
  | .maxu p n => Sys2Proof.Machine.execMaxu p n s
  | .mins p n => Sys2Proof.Machine.execMins p n s
  | .maxs p n => Sys2Proof.Machine.execMaxs p n s
  | .addsu p n => Sys2Proof.Machine.execAddsu p n s
  | .addss p n => Sys2Proof.Machine.execAddss p n s
  | .subsu p n => Sys2Proof.Machine.execSubsu p n s
  | .subss p n => Sys2Proof.Machine.execSubss p n s
  | .satu p n => Sys2Proof.Machine.execSatu p n s
  | .sats p n => Sys2Proof.Machine.execSats p n s
  | .mulu p n => Sys2Proof.Machine.execMulu p n s
  | .muls p n => Sys2Proof.Machine.execMuls p n s
  | .macu p n => Sys2Proof.Machine.execMacu p n s
  | .macs p n => Sys2Proof.Machine.execMacs p n s
  | .gmux p n => Sys2Proof.Machine.execGmux p n s
  | .cellReset p n => Sys2Proof.Machine.execCellReset p n s
  | .ceHold p n => Sys2Proof.Machine.execCeHold p n s
  | .blockMemoryAccess p m k e => Sys2Proof.Machine.execBlockMemoryAccess p m k e s
  | .memoryPortRequest p k => Sys2Proof.Machine.execMemoryPortRequest p k s
  | .memoryPortReadData p k => Sys2Proof.Machine.execMemoryPortReadData p k s
  | .memoryPortWriteWord p k => Sys2Proof.Machine.execMemoryPortWriteWord p k s
  | .wardensBusAccess r p acc => Sys2Proof.Machine.execWardensBusAccess r p acc s
  | .wardensBusAck p => Sys2Proof.Machine.execWardensBusAck p s
  | .wardensBusTimeout p => Sys2Proof.Machine.execWardensBusTimeout p s
  | .srst r p => Sys2Proof.Machine.execSrst r p s
  | .clkenWrite r p on => Sys2Proof.Machine.execClkenWrite r p on s
  | .probeSelect r p n v => Sys2Proof.Machine.execProbeSelect r p n v s
  | .load r p img => Sys2Proof.Machine.execLoad r p img s
  | .rewrite r p f => Sys2Proof.Machine.execRewrite r p f s
  | .read r p f => Sys2Proof.Machine.execRead r p f s
  | .icpOperationComplete => Sys2Proof.Machine.execIcpOperationComplete s
  | .configLoad => Sys2Proof.Machine.execConfigLoad s
  | .pad => Sys2Proof.Machine.execPad s
  | .frames => Sys2Proof.Machine.execFrames s
  | .bmem => Sys2Proof.Machine.execBmem s
  | .endRecord => Sys2Proof.Machine.execEndRecord s
  | .loadComplete => Sys2Proof.Machine.execLoadComplete s
  | .imageEntryWrite r e w v => Sys2Proof.Machine.execImageEntryWrite r e w v s
  | .gleanerRound ups => Sys2Proof.Machine.execGleanerRound ups s
  | .heartbeatTimeout => Sys2Proof.Machine.execHeartbeatTimeout s
  | .grst r => Sys2Proof.Machine.execGrst r s
  | .samplePeriod => Sys2Proof.Machine.execSamplePeriod s
  | .keyOn r v => Sys2Proof.Machine.execKeyOn r v s
  | .keyOff r v => Sys2Proof.Machine.execKeyOff r v s
  | .voiceStop r v => Sys2Proof.Machine.execVoiceStop r v s
  | .larkBlock => Sys2Proof.Machine.execLarkBlock s
  | .lctlWrite r v => Sys2Proof.Machine.execLctlWrite r v s
  | .lmdataAccess r w => Sys2Proof.Machine.execLmdataAccess r w s
  | .wardenAccess k c acc e => Sys2Proof.Machine.execWardenAccess k c acc e s
  | .peerTakeover k => Sys2Proof.Machine.execPeerTakeover k s
  | .coreRejoin k => Sys2Proof.Machine.execCoreRejoin k s
  | .watchdogExpiry k => Sys2Proof.Machine.execWatchdogExpiry k s
  | .kick k => Sys2Proof.Machine.execKick k s
  | .wdcfgUnlock k v => Sys2Proof.Machine.execWdcfgUnlock k v s
  | .keySequenceLapse k => Sys2Proof.Machine.execKeySequenceLapse k s
  | .peerrst k => Sys2Proof.Machine.execPeerrst k s
  | .budgetExhausted c => Sys2Proof.Machine.execBudgetExhausted c s
  | .budgetWindow => Sys2Proof.Machine.execBudgetWindow s
  | .serviceTrap k c msg => Sys2Proof.Machine.execServiceTrap k c msg s
  | .claim q m => Sys2Proof.Machine.execClaim q m s
  | .post q m => Sys2Proof.Machine.execPost q m s
  | .release q m => Sys2Proof.Machine.execRelease q m s
  | .claimExpiry m => Sys2Proof.Machine.execClaimExpiry m s
  | .ident m => Sys2Proof.Machine.execIdent m s
  | .status m => Sys2Proof.Machine.execStatus m s
  | .seqsync m => Sys2Proof.Machine.execSeqsync m s
  | .setstate m => Sys2Proof.Machine.execSetstate m s
  | .reset m => Sys2Proof.Machine.execReset m s
  | .deviceResetAfterResponse => Sys2Proof.Machine.execDeviceResetAfterResponse s
  | .fwput m => Sys2Proof.Machine.execFwput m s
  | .fwboot m ok => Sys2Proof.Machine.execFwboot m ok s
  | .headcfg m => Sys2Proof.Machine.execHeadcfg m s
  | .headrun m => Sys2Proof.Machine.execHeadrun m s
  | .creg m => Sys2Proof.Machine.execCreg m s
  | .dptrain m o => Sys2Proof.Machine.execDptrain m o s
  | .auxRead m d => Sys2Proof.Machine.execAuxRead m d s
  | .auxWrite m => Sys2Proof.Machine.execAuxWrite m s
  | .wread m => Sys2Proof.Machine.execWread m s
  | .wwrite m => Sys2Proof.Machine.execWwrite m s
  | .qpost m => Sys2Proof.Machine.execQpost m s
  | .qcancel m => Sys2Proof.Machine.execQcancel m s
  | .grantOn m => Sys2Proof.Machine.execGrantOn m s
  | .grantOff m => Sys2Proof.Machine.execGrantOff m s
  | .grantlist m => Sys2Proof.Machine.execGrantlist m s
  | .stage m => Sys2Proof.Machine.execStage m s
  | .unstage m => Sys2Proof.Machine.execUnstage m s
  | .pload m => Sys2Proof.Machine.execPload m s
  | .ploadTimed m => Sys2Proof.Machine.execPloadTimed m s
  | .gleanreqRewrite m => Sys2Proof.Machine.execGleanreqRewrite m s
  | .gleanreqReload m => Sys2Proof.Machine.execGleanreqReload m s
  | .bind m => Sys2Proof.Machine.execBind m s
  | .arbraise m => Sys2Proof.Machine.execArbraise m s
  | .famkey m => Sys2Proof.Machine.execFamkey m s
  | .revoke m => Sys2Proof.Machine.execRevoke m s
  | .attkey m de => Sys2Proof.Machine.execAttkey m de s
  | .flashinfo m => Sys2Proof.Machine.execFlashinfo m s
  | .flashwrite m ok => Sys2Proof.Machine.execFlashwrite m ok s
  | .flashblk m => Sys2Proof.Machine.execFlashblk m s
  | .flashdir m => Sys2Proof.Machine.execFlashdir m s
  | .fwstage m ok => Sys2Proof.Machine.execFwstage m ok s
  | .fwrelay m => Sys2Proof.Machine.execFwrelay m s
  | .relayTimeout k => Sys2Proof.Machine.execRelayTimeout k s
  | .splitget m => Sys2Proof.Machine.execSplitget m s
  | .splitset m => Sys2Proof.Machine.execSplitset m s
  | .appload m => Sys2Proof.Machine.execAppload m s
  | .appctlStart m => Sys2Proof.Machine.execAppctlStart m s
  | .appctlStop m => Sys2Proof.Machine.execAppctlStop m s
  | .appctlUnload m => Sys2Proof.Machine.execAppctlUnload m s
  | .appctlRestart m => Sys2Proof.Machine.execAppctlRestart m s
  | .appstat m => Sys2Proof.Machine.execAppstat m s
  | .ledger m => Sys2Proof.Machine.execLedger m s
  | .forwardTimeout m => Sys2Proof.Machine.execForwardTimeout m s
  | .pageRebuild r a => Sys2Proof.Machine.execPageRebuild r a s
  | .remap r a => Sys2Proof.Machine.execRemap r a s
  | .logClear q r => Sys2Proof.Machine.execLogClear q r s
  | .checkerTest bad => Sys2Proof.Machine.execCheckerTest bad s
  | .rotation => Sys2Proof.Machine.execRotation s
  | .selfTestComplete pass => Sys2Proof.Machine.execSelfTestComplete pass s
  | .bankcfgWrite r b v => Sys2Proof.Machine.execBankcfgWrite r b v s
  | .holdrel r b => Sys2Proof.Machine.execHoldrel r b s
  | .pgoodFall b => Sys2Proof.Machine.execPgoodFall b s
  | .pgoodRise b sup => Sys2Proof.Machine.execPgoodRise b sup s
  | .pincfgWrite r b n v => Sys2Proof.Machine.execPincfgWrite r b n v s
  | .outWrite r b v => Sys2Proof.Machine.execOutWrite r b v s
  | .oset r b v => Sys2Proof.Machine.execOset r b v s
  | .oclr r b v => Sys2Proof.Machine.execOclr r b v s
  | .otgl r b v => Sys2Proof.Machine.execOtgl r b v s
  | .pinInput b n lvl => Sys2Proof.Machine.execPinInput b n lvl s
  | .debounce b n => Sys2Proof.Machine.execDebounce b n s
  | .contention b n => Sys2Proof.Machine.execContention b n s
  | .openProbe r b => Sys2Proof.Machine.execOpenProbe r b s
  | .openProbeDone b up down => Sys2Proof.Machine.execOpenProbeDone b up down s
  | .timerStart r mask => Sys2Proof.Machine.execTimerStart r mask s
  | .timerStop r mask => Sys2Proof.Machine.execTimerStop r mask s
  | .timerReloadAndStart r mask => Sys2Proof.Machine.execTimerReloadAndStart r mask s
  | .tick t => Sys2Proof.Machine.execTick t s
  | .capture t => Sys2Proof.Machine.execCapture t s
  | .tcapRead r t => Sys2Proof.Machine.execTcapRead r t s
  | .tcntRead r t => Sys2Proof.Machine.execTcntRead r t s
  | .lowresStep t => Sys2Proof.Machine.execLowresStep t s
  | .linkEnable r g => Sys2Proof.Machine.execLinkEnable r g s
  | .linkDisable r g => Sys2Proof.Machine.execLinkDisable r g s
  | .ts g l blk => Sys2Proof.Machine.execTs g l blk s
  | .align g l blk => Sys2Proof.Machine.execAlign g l blk s
  | .alignSend g => Sys2Proof.Machine.execAlignSend g s
  | .idle g blk => Sys2Proof.Machine.execIdle g blk s
  | .laneLockTimeout g => Sys2Proof.Machine.execLaneLockTimeout g s
  | .trainTimeout g => Sys2Proof.Machine.execTrainTimeout g s
  | .trainRetry g => Sys2Proof.Machine.execTrainRetry g s
  | .txShort g l => Sys2Proof.Machine.execTxShort g l s
  | .shortRetest g l short => Sys2Proof.Machine.execShortRetest g l short s
  | .laneRecovery g => Sys2Proof.Machine.execLaneRecovery g s
  | .epoch g pkt => Sys2Proof.Machine.execEpoch g pkt s
  | .foldFrameBoundary => Sys2Proof.Machine.execFoldFrameBoundary s
  | .epochTimeout => Sys2Proof.Machine.execEpochTimeout s
  | .tsyncRequest => Sys2Proof.Machine.execTsyncRequest s
  | .tsync g pkt => Sys2Proof.Machine.execTsync g pkt s
  | .mbreq g pkt => Sys2Proof.Machine.execMbreq g pkt s
  | .mbrsp g pkt => Sys2Proof.Machine.execMbrsp g pkt s
  | .cpydata g pkt => Sys2Proof.Machine.execCpydata g pkt s
  | .cpyack g pkt => Sys2Proof.Machine.execCpyack g pkt s
  | .strdata g pkt => Sys2Proof.Machine.execStrdata g pkt s
  | .ack g pkt => Sys2Proof.Machine.execAck g pkt s
  | .ackDue g => Sys2Proof.Machine.execAckDue g s
  | .copyGo r n => Sys2Proof.Machine.execCopyGo r n s
  | .copyStop r n => Sys2Proof.Machine.execCopyStop r n s
  | .streamArm r n => Sys2Proof.Machine.execStreamArm r n s
  | .prbsTest r g v => Sys2Proof.Machine.execPrbsTest r g v s
  | .prbsStop r g => Sys2Proof.Machine.execPrbsStop r g s
  | .ftimelRead r => Sys2Proof.Machine.execFtimelRead r s
  | .registerWrite t v => Sys2Proof.Machine.execRegisterWrite t v s
  | .rcRead t => Sys2Proof.Machine.execRcRead t s
  | .epochlRead r h => Sys2Proof.Machine.execEpochlRead r h s
  | .apertureRead off len => Sys2Proof.Machine.execApertureRead off len s
  | .apertureWrite off d => Sys2Proof.Machine.execApertureWrite off d s
  | .msixMessage n => Sys2Proof.Machine.execMsixMessage n s
  | .pciePerstN => Sys2Proof.Machine.execPciePerstN s
  | .pwrctlRun => Sys2Proof.Machine.execPwrctlRun s
  | .pwrctlDim => Sys2Proof.Machine.execPwrctlDim s
  | .pwrctlRest => Sys2Proof.Machine.execPwrctlRest s
  | .pwrctlKeep => Sys2Proof.Machine.execPwrctlKeep s
  | .restEntry => Sys2Proof.Machine.execRestEntry s
  | .keepEntry => Sys2Proof.Machine.execKeepEntry s
  | .wake w => Sys2Proof.Machine.execWake w s
  | .thermUpdate t => Sys2Proof.Machine.execThermUpdate t s
  | .thermalTrip => Sys2Proof.Machine.execThermalTrip s
  | .porN straps => Sys2Proof.Machine.execPorN straps s
  | .sysrstN => Sys2Proof.Machine.execSysrstN s
  | .fuseLoad disagree => Sys2Proof.Machine.execFuseLoad disagree s
  | .caerunoBoot okA okB => Sys2Proof.Machine.execCaerunoBoot okA okB s
  | .fabricLoad => Sys2Proof.Machine.execFabricLoad s
  | .ledgerTick => Sys2Proof.Machine.execLedgerTick s
  | .ledgerWrite => Sys2Proof.Machine.execLedgerWrite s
  | .bypass => Sys2Proof.Machine.execBypass s
  | .idcode => Sys2Proof.Machine.execIdcode s
  | .samplePreload bits => Sys2Proof.Machine.execSamplePreload bits s
  | .extest bits => Sys2Proof.Machine.execExtest bits s
  | .clamp => Sys2Proof.Machine.execClamp s
  | .dpacc w => Sys2Proof.Machine.execDpacc w s
  | .twoWireTransaction w par => Sys2Proof.Machine.execTwoWireTransaction w par s
  | .twoWireReset => Sys2Proof.Machine.execTwoWireReset s
  | .trstN => Sys2Proof.Machine.execTrstN s
  | .chal nonce => Sys2Proof.Machine.execChal nonce s
  | .verify => Sys2Proof.Machine.execVerify s
  | .verifyComplete => Sys2Proof.Machine.execVerifyComplete s
  | .logout => Sys2Proof.Machine.execLogout s
  | .abufdAccess w => Sys2Proof.Machine.execAbufdAccess w s
  | .bmdataAccess w => Sys2Proof.Machine.execBmdataAccess w s
  | .halt k => Sys2Proof.Machine.execHalt k s
  | .resume => Sys2Proof.Machine.execResume s
  | .step k => Sys2Proof.Machine.execStep k s
  | .abort k => Sys2Proof.Machine.execAbort k s
  | .contextHalt c => Sys2Proof.Machine.execContextHalt c s
  | .contextResume c => Sys2Proof.Machine.execContextResume c s
  | .contextStep c => Sys2Proof.Machine.execContextStep c s
  | .freeze frz frzpad => Sys2Proof.Machine.execFreeze frz frzpad s
  | .crossTrigger x => Sys2Proof.Machine.execCrossTrigger x s
  | .headFreeze h => Sys2Proof.Machine.execHeadFreeze h s
  | .traceSync => Sys2Proof.Machine.execTraceSync s
  | .trdataRead => Sys2Proof.Machine.execTrdataRead s
  | .stimulusWrite r n v => Sys2Proof.Machine.execStimulusWrite r n v s
  | .vtoutcWrite v => Sys2Proof.Machine.execVtoutcWrite v s
  | .vtincRead => Sys2Proof.Machine.execVtincRead s
  | .vtinWrite v => Sys2Proof.Machine.execVtinWrite v s
  | .vtoutRead => Sys2Proof.Machine.execVtoutRead s
  | .dotClockLockLoss h => Sys2Proof.Machine.execDotClockLockLoss h s
  | .caerunoIntegrityFailure => Sys2Proof.Machine.execCaerunoIntegrityFailure s
  | .pciePerstNRise => Sys2Proof.Machine.execPciePerstNRise s
  | .blockLock g l => Sys2Proof.Machine.execBlockLock g l s
  | .prbsBitError g l => Sys2Proof.Machine.execPrbsBitError g l s

end Sys2Proof.Machine
end

