-- ==== Sys2Proof/Safety.lean ====
section
/-! DEFINITION. What counts as a safe run of the block, and the terms that statements use: a command's completion, what a
step leaves as it was, an event raised. -/

namespace Sys2Proof.Machine

/-- The memories and register files are in canonical form: addresses strictly rising, and no entry equal to what an unlisted
address reads as. -/
abbrev Memory.wf (s : State) : Prop :=
  spWf wsReset s.ws ∧ spWf hwReset s.hw ∧ spWf stileReset s.stileRegs ∧ spWf zeroB s.dram ∧ spWf zeroB s.larkMem ∧ spWf zeroB s.flash ∧
    spWf zeroW s.stile.abuf ∧ ∀ p : Pad, spWf zeroW s.pads[p].cfg ∧ spWf zeroW s.pads[p].bm

end Sys2Proof.Machine

namespace Sys2Proof.Safety

open Sys2Proof.Machine

/-- Every fuse set in f is set in g (R196): flags stay set, a revoked slot stays revoked, ARBCNT has not fallen, FAMID and FAMK keep their
bits, a programmed slot and the repair bank's words stand, and what is no fuse of the customer is as it was. -/
def FusesFurther (f g : Fuses) : Prop :=
  (f.flock = true → g.flock = true) ∧ (f.fklock = true → g.fklock = true) ∧ (f.rbd = true → g.rbd = true) ∧ (f.gen = true → g.gen = true) ∧
  f.dbglvl ||| g.dbglvl = g.dbglvl ∧ f.slotrev ||| g.slotrev = g.slotrev ∧ f.arbcnt ≤ g.arbcnt ∧ f.famid ||| g.famid = g.famid ∧
  g.famk.length = f.famk.length ∧ (∀ i < f.famk.length, nth 0 f.famk i ||| nth 0 g.famk i = nth 0 g.famk i) ∧
  (∀ (i : Fin 4) (d : BitVec 384), f.slots[i] = some d → g.slots[i] = some d) ∧ g.repair.take f.repair.length = f.repair ∧
  g.is2404 = f.is2404 ∧ g.drk = f.drk

/-- A step is safe when it answers a next state: no fault, no refusal. -/
def StepSafe (s : State) : Prop := ∃ t, step s = .next t

/-- Command c completes in s: exec answers a next state, and P holds of it. -/
def Completes (c : Instr) (s : State) (P : State → Prop) : Prop := ∃ t, exec c s = .next t ∧ P t

/-- Every warden word outside A reads as before. -/
def WordsKept (s t : State) (A : List Nat) : Prop := ∀ a, a ∉ A → t.rd a = s.rd a

/-- Every host-window register outside A reads as before. -/
def HostKept (s t : State) (A : List Nat) : Prop := ∀ off, off ∉ A → t.hwRd off = s.hwRd off

/-- Every Stile register outside A reads as before. -/
def StileKept (s t : State) (A : List Nat) : Prop := ∀ n, n ∉ A → t.stRd n = s.stRd n

/-- Only warden words have changed. -/
def OnlyWords (s t : State) : Prop := t = { s with ws := t.ws }

/-- Only warden words, host-window registers and the messages of the PCI Express function have changed. -/
def OnlyWordsEvents (s t : State) : Prop := t = { s with ws := t.ws, hw := t.hw, pcie := t.pcie }

/-- Bits [hi:lo] of a word are as before. -/
def FieldKept (s t : State) (a hi lo : Nat) : Prop := t.fget a hi lo = s.fget a hi lo

/-- The registers that raising event source n writes: its flag's and its count's (R361). -/
def evRegs (n : Nat) : List Nat := [0x0A0 + 4 * (n / 24), 0x0E0 + 4 * (n / 3)]

/-- Event source n has been raised, and no other host-window register than its flag's, its count's and the cause registers
listed has changed. -/
def EventRaised (s t : State) (n : Nat) (cause : List Nat) : Prop :=
  t.evFlag n = true ∧ HostKept s t (evRegs n ++ cause)

/-- No event has been raised: the host window and the function's messages are as before. -/
def NoEvent (s t : State) : Prop := t.hw = s.hw ∧ t.pcie = s.pcie

/-- No bit flip is armed for the checkers of any region (R281): a write leaves a word as it writes it. -/
def NoFlips (s : State) : Prop := ∀ r < 91, s.bget (aRegion r 3) 23 = false

/-- No stored word has a wrong bit (R278, R281), and no flip is armed. -/
def Sound (s : State) : Prop := s.repair.bad = [] ∧ NoFlips s

/-- The present SCLK cycle is fresh: no write ordered by R50, R255, R260, R310 or R326 has landed in it, no access to DRAM has been accepted
in it, and no accepted write bears the number that the cycle would take (R134). -/
def FreshCycle (s : State) : Prop :=
  s.cycNow = [] ∧ s.dcyc.stamp ≠ s.cycStamp ∧ ∀ c : Chan, ∀ w ∈ s.chans[c].writes ++ s.chans[c].waiting, w.cyc ≤ s.dcyc.no

/-- Write x of the present cycle is ordered after one of rank r to the same word, whose maker has made none in the cycle, and no other is
(R50). -/
def LaterWrite (s : State) (who r key : Nat) (x : CycWrite) : Prop :=
  x.key = key ∧ r < x.rank ∧ x.rank ≤ 12 ∧ (∀ y ∈ s.cycNow, y.who ≠ who) ∧ ∀ y ∈ s.cycNow, y.key = key → r < y.rank → y = x

/-- Cell n of paddock p has not yet acted in the present fabric cycle, and R145 holds for it (R162). -/
def CellFree (s : State) (p : Pad) (n : Cell) : Prop := s.pads[p].acted.contains n.val = false ∧ s.pads[p].unsure n.val = false

/-- Cell n of paddock p, and nothing else, has taken registers of which P holds, and has acted in the present cycle. -/
def CellTakes (s t : State) (p : Pad) (n : Cell) (P : CellSt → Prop) : Prop :=
  let x : PadSt := { s.pads[p] with cells := s.pads[p].cells.set n.val t.pads[p].cells[n], acted := n.val :: s.pads[p].acted }
  P t.pads[p].cells[n] ∧ t = { s with pads := s.pads.set p.val x }

/-- Mailbox m is the next to be served and its request, of code cmd, is one that this device serves itself: nothing of it is
damaged, it was not forwarded, and its host is there (R252, R256, R260). -/
def MbNext (s : State) (m : Mbox) (cmd : Nat) : Prop :=
  s.nextMbox = some m.val ∧ s.mbPhase m = 2 ∧ s.reqCmd m = cmd ∧ s.reqWord m 2 = 0 ∧ s.mboxes[m].inbound = none ∧
    s.mboxes[m].orphan = false ∧ Sound s

/-- … and it passes the checks of R252 up to its arguments: sequence number, NARG, state. -/
def MbAccepted (s : State) (m : Mbox) (cmd : Nat) : Prop :=
  MbNext s m cmd ∧ s.seqCheck m = .accept ∧ knownCmd cmd = true ∧ (cmdArgs cmd).1 ≤ s.reqNarg m ∧ s.reqNarg m ≤ (cmdArgs cmd).2 ∧
    s.cmdLegal cmd = true

/-- Argument i of mailbox m's request. -/
def mbArg (s : State) (m : Mbox) (i : Nat) : Word := s.reqWord m (3 + i)

/-- The response of mailbox m (R254, R257): DONE, the mailbox event, CODE and results. -/
def MbAnswered (s t : State) (m : Mbox) (code : Nat) (res : List Word) : Prop :=
  t.mbPhase m = 4 ∧ t.evFlag (48 + m.val) = true ∧
    t.rd (aMbbuf m.val 0x40) = wd (s.reqCmd m * 2 ^ 16 + code * 2 ^ 12 + t.dev.code * 2 ^ 9 + res.length) ∧
    t.rd (aMbbuf m.val 0x41) = s.reqWord m 1 ∧ t.rd (aMbbuf m.val 0x42) = s.reqWord m 2 ∧
    (∀ i < res.length, t.rd (aMbbuf m.val (0x43 + i)) = nth 0 res i) ∧ m.val ∉ t.mbOrder

/-- An accepted request has been answered: EXP follows its sequence number (R259). -/
def MbDone (s t : State) (m : Mbox) (code : Nat) (res : List Word) : Prop :=
  MbAnswered s t m code res ∧ t.rd (aMbseq m.val) = s.reqWord m 1 + 1

/-- The words that serving mailbox m writes: its registers and its response. -/
def mbWords (m : Mbox) : List Nat := aMbctl m.val :: aMbseq m.val :: (List.range 64).map fun i => aMbbuf m.val (0x40 + i)

/-- Serving mailbox m has changed its own words, the words A, and beside them only the mailbox's bookkeeping and the events. -/
def MbKept (s t : State) (m : Mbox) (A : List Nat) : Prop :=
  WordsKept s t (mbWords m ++ A) ∧ (∀ n : Mbox, n ≠ m → t.mboxes[n] = s.mboxes[n]) ∧ t = { s with
    freeCtr := t.freeCtr
    ws := t.ws
    hw := t.hw
    pcie := t.pcie
    mboxes := t.mboxes
    mbOrder := t.mbOrder
    shadows := t.shadows }

/-- Packet p, of type k, comes good and in order on link g, its tail acknowledging nothing (R336 to R338). -/
def GoodPacket (s : State) (g : Link) (p : Packet) (k : Nat) : Prop :=
  s.isUp g = true ∧ lenOk p = true ∧ pktType p = k ∧ p.pay.length = pktLen p ∧ (pktCrc p).toNat = blk p.tail 63 32 ∧
    pktSeq p = s.links[g].rxSeq ∧ blk p.tail 19 18 = 0 ∧ (s.links[g].retry.all fun u => decide (u.resent < 8)) = true

/-- Two packets but for SEQ and tail, which the transmitter gives. -/
def sameBody (p q : Packet) : Bool := pktType p == pktType q && pktDest p == pktDest q && pktAux p == pktAux q && p.pay == q.pay

/-- Packets on link l, waiting or sent, with the body of p. -/
def packetsLike (s : State) (l : Link) (p : Packet) : Nat := (s.links[l].outq ++ s.links[l].sent).countP (sameBody p)

/-- Packet p has been given to link l, and to no other. -/
def Sends (s t : State) (l : Link) (p : Packet) : Prop :=
  packetsLike t l p = packetsLike s l p + 1 ∧ ∀ (k : Link) (q : Packet), k ≠ l → packetsLike t k q = packetsLike s k q

/-- A register whose fields take a write, and give a read, each by its access type alone (R7 to R10): no chapter gives an access
to it any other effect. -/
def plainReg : Loc → Bool
  | .desc _ _ _ => true
  | .sigRegion _ _ => true
  | .palette _ => true
  | .objStore _ => true
  | .objStat _ _ => true
  | .route _ _ => true
  | .prbsel _ => true
  | .rot _ => true
  | .chan _ _ => true
  | .link _ off => off != 0
  | .copy _ w => w != 3
  | .region _ off => off != 2 && off != 6
  | .head _ off => decide (0x0C ≤ off ∧ off ≤ 0x0F) || decide (8 ≤ off ∧ off ≤ 9) || decide (0x19 ≤ off ∧ off ≤ 0x1C) || decide (0x20 ≤ off ∧ off ≤ 0x2F)
  | _ => false

/-- A location of a bus access that is neither a mailbox's nor a core's own memory, which R238 and R254 treat apart. -/
def plainRoute : Loc → Bool
  | .tcmOwn _ => false
  | .mbbuf _ _ => false
  | .mbctl _ => false
  | _ => true

/-- A beam-writable location whose write has no effect but on its own fields: a descriptor, palette or object word, a
timer's compare value or phase, a palette map word, the backdrop (R42, R70, R76, R92, R318). -/
def plainTarget : Loc → Bool
  | .desc _ _ _ => true
  | .palette _ => true
  | .objStore _ => true
  | .timer _ off => decide (4 ≤ off ∧ off ≤ 5)
  | .head _ off => decide (0x19 ≤ off ∧ off ≤ 0x1C)
  | _ => false

end Sys2Proof.Safety
end

