-- ==== Sys2Proof/Certificates/Slice0/Obligations.lean ====
section
/-! DEFINITION. Statements for the provers: what the commands do, as the numbered rules of the spec say. A completion
(`Completes c s P`) says that exec answers a next state of which P holds; `WordsKept`, `OnlyWords` and an equation
`t = { s with … }` say what it leaves as it was. -/

open Sys2Proof Sys2Proof.Machine Sys2Proof.Safety

/-- A step with a command at the front of the queue is exec of it on the state with the queue's rest. -/
def Obligations.StepRunsFrontCommand : Prop :=
  ∀ (c : Instr) (rest : List Instr) (s : State), step { s with pending := c :: rest } = exec c { s with pending := rest }

/-! ### Pins (12_pins_io.md) -/

/-- OUT, OSET, OCLR and OTGL change the OUT bits of the pins that the writer owns and nothing else (R309, R310): bit n
takes the written bit, is set, is cleared or is inverted; the bits of other pins keep without a fault. Of two writers of one SCLK
cycle the order is W0, W1, the debug master, whichever lands first: a toggle of the first does not undo what the second set, and what
the second toggles it toggles after the first's write (R310). Inputs (R311, R312), on a bank that is on and not under a differential
level. PIN_INPUT: the synchronised input takes the level; DEBOUNCE: the debounced input takes the synchronised one. The interrupt flag of a
pin sets when the input that DEB selects shows the edge that IRQ selects (a level mode: the level), unless the probe holds the pin or a
paddock owns it; the host's flag raises the pin event, a context's an applet interrupt on line 64 + b. A PINCFG write. By a writer who
owns the pin, with a valid function and selector that the writer may set and no new FUNC 1 (R302 to R304): FUNC, SEL, PULL, OE and DEB take
the value, IRQ takes it unless it is 0b110 or 0b111, the owner keeps; where function or selector changes, the pad hold latch takes the
level at the pad and holds this pin (R306). By one who does not own it, or with a function that is invalid or that the writer may not
set: nothing but the report of an access fault. With FUNC newly 1, by Caeruno or in a debug session of level 3: nothing at all. -/
def Obligations.PinsAndConfiguration : Prop :=
  (∀ (s : State) (r : Requester) (b : Bank) (v : Word), s.cycNow = [] →
      let out := aBank b.val 1
      let bits := fun (t : State) (f : Bool → Bool → Bool) => (∀ n < 24, bit (t.rd out) n =
        if s.ownsPin r b.val n then f (bit (s.rd out) n) (bit v n) else bit (s.rd out) n) ∧ WordsKept s t [out] ∧
        t = { s with ws := t.ws, cyc := t.cyc, cycAt := t.cycAt }
      Completes (.outWrite r b v) s (fun t => bits t fun _ w => w) ∧
      Completes (.oset r b v) s (fun t => bits t fun o w => o || w) ∧
      Completes (.oclr r b v) s (fun t => bits t fun o w => o && !w) ∧
      Completes (.otgl r b v) s (fun t => bits t fun o w => o != w) ∧
      ∀ (first : Requester) (w : Word), rankOf first < rankOf r → whoOf first ≠ whoOf r →
        let mine := fun n => s.ownsPin r b.val n && bit v n
        let theirs := fun n => s.ownsPin first b.val n && bit w n
        (Completes (.oset r b v) s fun t => Completes (.otgl first b w) t fun u => ∀ n < 24,
          bit (u.rd out) n = if mine n then true else bit (s.rd out) n != theirs n) ∧
        (Completes (.otgl r b v) s fun t => Completes (.oclr first b w) t fun u => ∀ n < 24,
          bit (u.rd out) n = if theirs n then mine n else bit (s.rd out) n != mine n)) ∧
  (∀ (s : State) (b : Bank) (n : PinNo), let x := s.banks[b]
      x.level ≠ 0 → x.level ≠ 7 → x.level ≠ 8 →
      let cfg := s.rd (aBank b.val (0x10 + n.val))
      let fl := aBank b.val 6
      let flags := fun (t : State) (fires : Bool) =>
        let sets := fires && !bit x.probing n.val && decide (fld cfg 23 22 < 2)
        (∀ m < 24, bit (t.rd fl) m = if m = n.val ∧ sets = true then true else bit (s.rd fl) m) ∧
        (sets = true → bit (s.rd fl) n.val = false → fld cfg 23 22 = 0 → EventRaised s t 38 [0x0C8]) ∧
        (sets = true → bit (s.rd fl) n.val = false → fld cfg 23 22 = 1 →
          t.cae.ctxs[(Fin.ofNat 64 (fld cfg 21 16) : Fin 64)].irqs = s.cae.ctxs[(Fin.ofNat 64 (fld cfg 21 16) : Fin 64)].irqs ++ [64 + b.val]) ∧
        (fld cfg 23 22 ≠ 0 ∨ sets = false → NoEvent s t) ∧
        WordsKept s t [fl] ∧
        t = { s with ws := t.ws, hw := t.hw, pcie := t.pcie, banks := t.banks, cae := t.cae }
      let was := if bit cfg 0 then bit x.deb n.val else bit x.sync n.val
      (∀ lvl, Completes (.pinInput b n lvl) s fun t =>
        (∀ m < 24, bit t.banks[b].sync m = if m = n.val then lvl else bit x.sync m) ∧
        t.banks[b].deb = x.deb ∧ (∀ c, c ≠ b → t.banks[c] = s.banks[c]) ∧
        flags t (irqFires (fld cfg 3 1) was (if bit cfg 0 then bit x.deb n.val else lvl))) ∧
      Completes (.debounce b n) s (fun t =>
        (∀ m < 24, bit t.banks[b].deb m = if m = n.val then bit x.sync n.val else bit x.deb m) ∧
        t.banks[b].sync = x.sync ∧ (∀ c, c ≠ b → t.banks[c] = s.banks[c]) ∧
        flags t (irqFires (fld cfg 3 1) was (bit x.sync n.val)))) ∧
  (∀ (s : State) (r : Requester) (b : Bank) (n : PinNo) (v : Word),
      let a := aBank b.val (0x10 + n.val)
      let old := s.rd a
      let x := s.banks[b]
      let valid := selValid (fld v 15 12) (fld v 11 7) && s.funcAllowed r (fld v 15 12) (fld v 11 7)
      let held := fun m => decide (m = n.val ∧ fld v 15 7 ≠ fld old 15 7) && !bit x.heldNow m
      (s.ownsPin r b.val n.val = true → valid = true → (fld v 15 12 = 1 → fld old 15 12 = 1) →
        Completes (.pincfgWrite r b n v) s fun t =>
          t.fget a 23 16 = fld old 23 16 ∧ t.fget a 15 4 = fld v 15 4 ∧ t.bget a 0 = bit v 0 ∧
          t.fget a 3 1 = (if 6 ≤ fld v 3 1 then fld old 3 1 else fld v 3 1) ∧
          (∀ m < 24, bit t.banks[b].heldNow m = (held m || bit x.heldNow m) ∧
            bit t.banks[b].latch m = if held m then (if bit x.oe m then bit x.lvl m else bit x.sync m) else bit x.latch m) ∧
          t.banks[b] = { x with heldNow := t.banks[b].heldNow, latch := t.banks[b].latch } ∧ (∀ c, c ≠ b → t.banks[c] = s.banks[c]) ∧
          WordsKept s t [a] ∧ t = { s with ws := t.ws, banks := t.banks, rfault := false }) ∧
      (s.ownsPin r b.val n.val = false ∨ valid = false →
        Completes (.pincfgWrite r b n v) s fun t => t.rd a = old ∧ t.banks = s.banks ∧ t.rfault = true) ∧
      (s.ownsPin r b.val n.val = true → valid = true → fld v 15 12 = 1 → fld old 15 12 ≠ 1 →
        Completes (.pincfgWrite r b n v) s fun t => t = { s with rfault := false }) ∧
      s.funcAllowed .host 1 0 = false)

/-- If PGOOD falls while LEVEL is not 0, the bank acts as level off, SUPDROP counts the fall and the pin-fault event is
raised; LEVEL keeps its value; the bank resumes it after PGOOD returns (R300). A fall with LEVEL 0 clears PGOOD alone. -/
def Obligations.BankSupply : Prop :=
  ∀ (s : State) (b : Bank), let a := aBank b.val 0
    (s.bget a 16 = true → s.fget a 23 20 ≠ 0 → Completes (.pgoodFall b) s fun t =>
      t.bankLevel b = 0 ∧ t.fget a 23 20 = s.fget a 23 20 ∧ t.bget a 16 = false ∧
      t.fget (aBank b.val 0x0B) 15 8 = min 255 (s.fget (aBank b.val 0x0B) 15 8 + 1) ∧ EventRaised s t 39 [0x0CC] ∧
      bit (t.hwRd 0x0CC) b.val = true ∧
      WordsKept s t [a, aBank b.val 0x0B] ∧ t = { s with ws := t.ws, hw := t.hw, pcie := t.pcie, banks := t.banks }) ∧
    (s.bget a 16 = true → s.fget a 23 20 = 0 → Completes (.pgoodFall b) s fun t =>
      t.bget a 16 = false ∧ WordsKept s t [a] ∧ OnlyWords s t) ∧
    ∀ (sup : Fin 6), Completes (.pgoodRise b sup) s fun t =>
      t.bankLevel b = s.fget a 23 20 ∧ t.fget a 23 20 = s.fget a 23 20 ∧ t.bget a 16 = true ∧ t.fget a 19 17 = sup.val ∧
      t.fget a 15 0 = s.fget a 15 0 ∧ WordsKept s t [a] ∧ t = { s with ws := t.ws, banks := t.banks }

/-- A BANKCFG write by the host or Caeruno (R299): TERM, CONTOFF, DSCALE and DEBT take the value; LEVEL takes it when the
sensed supply suits it, and otherwise keeps while the pin-fault event is raised. Any other writer's is an access fault. HOLDREL written by the host or Caeruno while HELD is 1 ends the hold (R316): HELD clears, and until the next bank-clock
edge every pad keeps the level, enable and pull of its latch, which a general-purpose pin takes into OUT there. While HELD is 0 it changes
nothing. -/
def Obligations.BankcfgAndHold : Prop :=
  (∀ (s : State) (r : Requester) (b : Bank) (v : Word), let a := aBank b.val 0
      (s.mayWrite r (locOf a) = true → bit v 12 = false → Completes (.bankcfgWrite r b v) s fun t =>
        t.fget a 23 20 = (if levelSuits (fld v 23 20) (s.fget a 19 17) then fld v 23 20 else s.fget a 23 20) ∧
        t.fget a 19 16 = s.fget a 19 16 ∧ t.bget a 15 = bit v 15 ∧ t.bget a 14 = bit v 14 ∧ t.bget a 13 = s.bget a 13 ∧
        t.fget a 11 2 = fld v 11 2 ∧
        (levelSuits (fld v 23 20) (s.fget a 19 17) = false → EventRaised s t 39 [0x0CC]) ∧
        (levelSuits (fld v 23 20) (s.fget a 19 17) = true → NoEvent s t) ∧
        WordsKept s t (a :: (List.range 8).map fun h => aHead h 0x31) ∧
        t = { s with ws := t.ws, hw := t.hw, pcie := t.pcie, heads := t.heads, rfault := false }) ∧
      (∀ k c, s.mayWrite (.core k c) (locOf a) = decide (c = 0)) ∧ s.mayWrite .host (locOf a) = true ∧
      (∀ p, s.mayWrite (.paddock p) (locOf a) = false)) ∧
  (∀ (s : State) (r : Requester) (b : Bank), let a := aBank b.val 0
      s.mayWrite r (locOf a) = true →
      (s.bget a 13 = true → Completes (.holdrel r b) s fun t =>
        t.bget a 13 = false ∧ t.banks[b].lvl = s.banks[b].keepLvl ∧ t.banks[b].oe = s.banks[b].keepOe ∧
        t.banks[b].en = s.banks[b].keepEn ∧ t.banks[b].pull = s.banks[b].keepPull ∧
        (∀ n < 24, bit t.banks[b].latch n = if bit s.banks[b].keepOe n then bit s.banks[b].keepLvl n else bit s.banks[b].sync n) ∧
        t.banks[b].heldNow = 0xFFFFFF ∧ (∀ c, c ≠ b → t.banks[c] = s.banks[c]) ∧ t.fget a 12 0 = s.fget a 12 0 ∧ t.fget a 23 14 = s.fget a 23 14 ∧
        WordsKept s t [a] ∧ t = { s with ws := t.ws, banks := t.banks, rfault := false }) ∧
      (s.bget a 13 = false → Completes (.holdrel r b) s fun t => t = { s with rfault := false }))

/-- Contention for 1 µs on a driving pad (R301, R313): CONT bit n (of a pair its even pin's) is set and CONTCNT counts it, the pin-fault
event is raised, and with CONTOFF = 1 the driver of the pin, or of the pair, is disabled; other pins' flags and drivers keep. The open
probe (R314). GO by a writer with rights while BUSY is 0 sets BUSY and probes the pins of OPENMASK that the writer owns and that do not
drive, holding their inputs; while BUSY is 1 it is ignored. At its end OPEN bit n is 1 where the pin was probed and the samples were 1
then 0, BUSY is clear, and no pin that was not probed has a new flag. -/
def Obligations.ContentionAndProbe : Prop :=
  (∀ (s : State) (b : Bank) (n : PinNo), bit s.banks[b].oe n.val = true →
      let diff := decide (s.banks[b].level = 7 ∨ s.banks[b].level = 8)
      let g := if diff then n.val / 2 * 2 else n.val
      let mine := fun (m : Nat) => if diff then decide (m / 2 = n.val / 2) else decide (m = n.val)
      Completes (.contention b n) s fun t =>
        (∀ m < 24, bit (t.rd (aBank b.val 7)) m = if m = g then true else bit (s.rd (aBank b.val 7)) m) ∧
        t.fget (aBank b.val 0x0B) 23 16 = min 255 (s.fget (aBank b.val 0x0B) 23 16 + 1) ∧
        t.evFlag 39 = true ∧ bit (t.hwRd 0x0CC) b.val = true ∧
        (∀ m < 24, bit t.banks[b].oe m = if mine m = true ∧ s.bget (aBank b.val 0) 14 = true then false else bit s.banks[b].oe m) ∧
        (∀ m < 24, bit t.banks[b].off m = if m = g ∧ s.bget (aBank b.val 0) 14 = true then true else bit s.banks[b].off m) ∧
        (∀ c, c ≠ b → t.banks[c] = s.banks[c]) ∧
        WordsKept s t [aBank b.val 7, aBank b.val 0x0B, aHead (fld (s.pinNow b n.val) 9 7) 0x31] ∧
        t = { s with ws := t.ws, hw := t.hw, pcie := t.pcie, banks := t.banks, heads := t.heads }) ∧
  (∀ (s : State) (r : Requester) (b : Bank), let a := aBank b.val 8
      (s.mayWrite r (locOf a) = true → s.bget a 22 = false → Completes (.openProbe r b) s fun t =>
        t.bget a 22 = true ∧
        (∀ n < 24, bit t.banks[b].probing n =
          (bit (s.rd (aBank b.val 9)) n && s.ownsPin r b.val n && !bit s.banks[b].oe n)) ∧
        t.banks[b].frozenIn = s.pinIn b ∧ (∀ n < 24, bit t.banks[b].frozenSync n = s.pinSense b n) ∧ WordsKept s t [a] ∧
        t = { s with ws := t.ws, banks := t.banks, rfault := false }) ∧
      (s.mayWrite r (locOf a) = true → s.bget a 22 = true → Completes (.openProbe r b) s fun t => t = { s with rfault := false }) ∧
      (∀ up down : Word, s.bget a 22 = true → Completes (.openProbeDone b up down) s fun t =>
        t.bget a 22 = false ∧ t.banks[b].probing = 0 ∧
        (∀ n < 24, bit (t.rd (aBank b.val 0x0A)) n = (bit s.banks[b].probing n && bit up n && !bit down n)) ∧
        (∀ n < 24, bit s.banks[b].probing n = false → bit (t.rd (aBank b.val 6)) n = bit (s.rd (aBank b.val 6)) n) ∧
        WordsKept s t [a, aBank b.val 6, aBank b.val 0x0A] ∧
        t = { s with ws := t.ws, hw := t.hw, pcie := t.pcie, banks := t.banks, cae := t.cae }))

/-! ### Timers (13_timers.md) -/

/-- TGO with OP start or stop (R322, R326), met by no other operation of its cycle: RUN of every timer that a MASK bit with rights acts on
becomes 1 or 0, where a bit naming the odd half of a chained pair acts on the even one; LOWRES of those acted on follows (R328); nothing else
of any register changes but the fault report of the bits without rights (R318). TGO with OP reload and start by a writer with rights over
every timer of MASK (R322, R324, R326, R327): every timer acted on, and the odd half of a chained pair acted on, takes TCNT := PHASE,
restarts its prescaler at interval 0 and sets its output to OINIT (in PWM mode to PHASE < CMP); RUN of the timers acted on is 1; every
other timer keeps all of it. -/
def Obligations.TimerControls : Prop :=
  (∀ (s : State) (r : Requester) (mask : BitVec 16), s.cycNow = [] →
      let acts := fun (u : Tmr) => (List.finRange 16).any fun t => mask.getLsbD t.val && s.right r 4 t.val && decide (s.tAct t = u)
      let all := (List.finRange 16).all fun t => !mask.getLsbD t.val || s.right r 4 t.val
      let same := fun (t : State) => (∀ u : Tmr, t.fget (aTimer u.val 0) 22 0 = s.fget (aTimer u.val 0) 22 0 ∧
          t.fget (aTimer u.val 7) 23 18 = s.fget (aTimer u.val 7) 23 18 ∧
          t.bget (aTimer u.val 7) 17 = (if acts (s.tAct u) then t.tRun (s.tAct u) && s.tHeld (s.tAct u) && s.bget (aTimer (s.tAct u).val 0) 12
            else s.bget (aTimer u.val 7) 17) ∧
          (t.bget (aTimer u.val 7) 17 = s.bget (aTimer u.val 7) 17 → t.timers[u] = s.timers[u])) ∧
        (all = true → WordsKept s t ((List.range 16).flatMap fun u => [aTimer u 0, aTimer u 7]) ∧
          t = { s with ws := t.ws, timers := t.timers, cyc := t.cyc, cycAt := t.cycAt }) ∧ (all = false → t.rfault = true)
      Completes (.timerStart r mask) s (fun t => (∀ u, t.tRun u = (acts u || s.tRun u)) ∧ same t) ∧
      Completes (.timerStop r mask) s (fun t => (∀ u, t.tRun u = (!acts u && s.tRun u)) ∧ same t)) ∧
  (∀ (s : State) (r : Requester) (mask : BitVec 16), s.cycNow = [] → (∀ t : Tmr, mask.getLsbD t.val = true → s.right r 4 t.val = true) →
      let acts := fun (u : Tmr) => (List.finRange 16).any fun t => mask.getLsbD t.val && decide (s.tAct t = u)
      let loads := fun (u : Tmr) => acts u || (s.chainedOdd u && acts (lower u))
      Completes (.timerReloadAndStart r mask) s fun t => ∀ u : Tmr,
        t.tRun u = (acts u || s.tRun u) ∧
        t.rd (aTimer u.val 2) = (if loads u then s.rd (aTimer u.val 5) else s.rd (aTimer u.val 2)) ∧
        t.timers[u].interval = (if loads u then 0 else s.timers[u].interval) ∧
        t.bget (aTimer u.val 7) 18 = (if loads u then
            (if s.omode u = 1 then decide ((s.rd (aTimer u.val 5)).toNat < s.tCmp u) else s.bget (aTimer u.val 0) 13)
          else s.bget (aTimer u.val 7) 18) ∧
        t.fget (aTimer u.val 0) 22 0 = s.fget (aTimer u.val 0) 22 0 ∧
        WordsKept s t ((List.range 16).flatMap fun u => [aTimer u 0, aTimer u 2, aTimer u 7]) ∧
        t = { s with ws := t.ws, timers := t.timers, cyc := t.cyc, cycAt := t.cycAt })

/-- A tick of a running timer that is not half of a chained pair, is neither frozen nor asleep and whose source is live
(R320, R323, R324): it ends an interval of DIV + 1 source edges, one more where FRAC's accumulator carries, and the next of the group of 256
begins; a count below TOP steps to count + 1; a count at TOP or above steps to 0 and sets WRAP; a step into CMP sets
MATCH; the output follows OMODE. A capture event of a timer whose selected event is live (R325): with CAPV 0 TCAP
takes the count and CAPV rises; with CAPV 1 the second stage takes it, setting CAP2, or OVR where CAP2 was 1 already.
A read of TCAP by a requester with the right returns TCAP and clears CAPV; with CAP2 set the second stage moves in, CAPV
becomes 1 and CAP2 0. -/
def Obligations.TimerCounting : Prop :=
  (∀ (s : State) (t : Tmr), s.tRun t = true → s.tHeld t = false → s.chainedOdd t = false → s.chainedEven t = false →
      s.srcLive t = true →
      let w := decide (s.tTop t ≤ s.tCnt t)
      let n := if s.tCnt t < s.tTop t then s.tCnt t + 1 else 0
      let m := decide (n = s.tCmp t)
      let st := s.rd (aTimer t.val 7)
      let enabled := (w && s.bget (aTimer t.val 0) 7) || (m && s.bget (aTimer t.val 0) 8)
      Completes (.tick t) s fun u =>
        u.tCnt t = n ∧ u.bget (aTimer t.val 7) 22 = (w || bit st 22) ∧ u.bget (aTimer t.val 7) 23 = (m || bit st 23) ∧
        u.bget (aTimer t.val 7) 18 = (match s.omode t with
          | 0 => bit st 18 != m
          | 1 => !m && (w || bit st 18)
          | 2 => m
          | _ => s.bget (aTimer t.val 0) 13) ∧
        u.fget (aTimer t.val 7) 21 19 = fld st 21 19 ∧ u.fget (aTimer t.val 7) 17 0 = fld st 17 0 ∧
        u.timers[t].interval = (if s.timers[t].interval = 255 then 0 else s.timers[t].interval + 1) ∧
        (let i := s.timers[t].interval; let fr := s.fget (aTimer t.val 1) 11 4
         s.bget (aTimer t.val 1) 3 = false → u.timers[t].seen = s.timers[t].seen + s.fget (aTimer t.val 1) 23 12 + 1 +
           (if i * fr / 256 < (i + 1) * fr / 256 then 1 else 0)) ∧
        (∀ v : Tmr, v ≠ t → u.timers[v] = s.timers[v]) ∧
        (enabled = true → s.tCtxs t.val = [] → EventRaised s u 40 [0x0C4]) ∧ (enabled = false → NoEvent s u) ∧
        WordsKept s u [aTimer t.val 2, aTimer t.val 7] ∧
        u = { s with ws := u.ws, hw := u.hw, pcie := u.pcie, timers := u.timers, cae := u.cae }) ∧
  (∀ (s : State) (t : Tmr), let st := s.rd (aTimer t.val 7)
      (s.capLive t = true → Completes (.capture t) s fun u =>
        u.rd (aTimer t.val 6) = (if bit st 20 then s.rd (aTimer t.val 6) else s.rd (aTimer t.val 2)) ∧
        u.timers[t].cap2 = (if bit st 20 then s.rd (aTimer t.val 2) else s.timers[t].cap2) ∧
        u.bget (aTimer t.val 7) 20 = true ∧
        u.bget (aTimer t.val 7) 19 = (bit st 20 || bit st 19) ∧
        u.bget (aTimer t.val 7) 21 = ((bit st 20 && bit st 19) || bit st 21) ∧
        u.fget (aTimer t.val 7) 23 22 = fld st 23 22 ∧ u.fget (aTimer t.val 7) 18 0 = fld st 18 0 ∧
        WordsKept s u [aTimer t.val 6, aTimer t.val 7] ∧
        u = { s with ws := u.ws, hw := u.hw, pcie := u.pcie, timers := u.timers, cae := u.cae }) ∧
      ∀ r, s.mayRead r (locOf (aTimer t.val 6)) = true → Completes (.tcapRead r t) s fun u =>
        u.rdata = s.rd (aTimer t.val 6) ∧ u.rfault = false ∧
        u.rd (aTimer t.val 6) = (if bit st 19 then s.timers[t].cap2 else s.rd (aTimer t.val 6)) ∧
        u.bget (aTimer t.val 7) 20 = bit st 19 ∧ u.bget (aTimer t.val 7) 19 = false ∧
        u.fget (aTimer t.val 7) 23 21 = fld st 23 21 ∧ u.fget (aTimer t.val 7) 18 0 = fld st 18 0 ∧
        WordsKept s u [aTimer t.val 6, aTimer t.val 7] ∧
        u = { s with ws := u.ws, hw := u.hw, pcie := u.pcie, cae := u.cae, rdata := u.rdata, rfault := false })

/-- A read of the even TCNT of a chained pair returns its count and copies the odd count into a shadow of the requester; a
read of the odd TCNT that follows from the same requester returns the shadow, whatever the odd count has become (R322). A 32.768 kHz edge of a running timer that counts at low resolution and is not half of a chained pair (R328): the count
advances by KSTEP with the fraction accumulated, modulo TOP + 1; a step that passes over CMP matches, one that passes over
TOP wraps. -/
def Obligations.TimerReads : Prop :=
  (∀ (s : State) (r : Requester) (t : Tmr), s.chainedEven t = true →
      s.mayRead r (locOf (aTimer t.val 2)) = true → s.mayRead r (locOf (aTimer (upper t).val 2)) = true →
      Completes (.tcntRead r t) s fun u =>
        u.rdata = s.rd (aTimer t.val 2) ∧ u = { s with shadows := u.shadows, rdata := u.rdata, rfault := false } ∧
        (∀ o a, (shadowOwner o, a) ≠ (shadowOwner r, aTimer (upper t).val 2) → u.shadow o a = s.shadow o a) ∧
        ∀ w : Word, Completes (.tcntRead r (upper t)) (u.wr (aTimer (upper t).val 2) w) fun x =>
          x.rdata = s.rd (aTimer (upper t).val 2)) ∧
  (∀ (s : State) (t : Tmr), s.tRun t = true → s.tHeld t = true → s.bget (aTimer t.val 0) 12 = true → s.chainedOdd t = false →
      s.chainedEven t = false →
      let k := s.rd (aTimer t.val 8)
      let e := s.tCnt t + (s.timers[t].frac + k.toNat) / 256
      let st := s.rd (aTimer t.val 7)
      Completes (.lowresStep t) s fun u =>
        u.tCnt t = e % (s.tTop t + 1) ∧ u.timers[t].frac = (s.timers[t].frac + k.toNat) % 256 ∧
        u.bget (aTimer t.val 7) 22 = (decide (s.tTop t < e) || bit st 22) ∧
        (s.tCnt t ≤ s.tTop t → u.bget (aTimer t.val 7) 23 =
          (decide (∃ j ≤ e, s.tCnt t < j ∧ s.tCmp t ≤ s.tTop t ∧ j % (s.tTop t + 1) = s.tCmp t) || bit st 23)) ∧
        u.fget (aTimer t.val 7) 21 19 = fld st 21 19 ∧ u.fget (aTimer t.val 7) 17 0 = fld st 17 0 ∧
        WordsKept s u [aTimer t.val 2, aTimer t.val 7] ∧
        u = { s with ws := u.ws, hw := u.hw, pcie := u.pcie, timers := u.timers, cae := u.cae })


/-! ### Warden cores and contexts (10_wardens_mailbox.md) -/

/-- A warden core's accesses (R238 to R240, R283), with no breakpoint range of the core in use. One that a halted or preempted context would make
does not happen; a read or write of system SRAM with rights, in sound memories, answers the word or stores it; one without rights returns 0, changes no memory
and faults: for context 0 AFAULT counts it, another context stops in FAULTED with the address, and the warden event is raised. -/
def Obligations.WardenAccesses : Prop :=
  ∀ (s : State) (k : Core) (c : Ctx) (acc : Access) (e : MemErr), let a := (accAddr acc).toNat
    (s.accessing k c = false → Completes (.wardenAccess k c acc e) s fun t => t = s) ∧
    (s.accessing k c = true → (∀ i < 8, s.fget (aBp k.val (3 * i + 2)) 23 22 = 0) →
      let armed := fun (t : State) => t.stile = { s.stile with armed := t.stile.armed }
      (∀ v : Word, acc = .wr (wd a) v → 0x100000 ≤ a → a < 0x200000 → s.mayWrite (.core k c) (locOf a) = true → Sound s →
        Completes (.wardenAccess k c acc e) s fun t => t.rd a = v ∧ t.rfault = false ∧ WordsKept s t [a] ∧
          t = { s with ws := t.ws, stile := t.stile, rfault := false } ∧ armed t) ∧
      (acc = .rd (wd a) → 0x100000 ≤ a → a < 0x200000 → s.mayRead (.core k c) (locOf a) = true → Sound s → e = .clean →
        Completes (.wardenAccess k c acc e) s fun t => t.rdata = s.rd a ∧ t.rfault = false ∧
          t = { s with stile := t.stile, rdata := t.rdata, rfault := false } ∧ armed t) ∧
      (((∃ v, acc = .wr (wd a) v) ∧ s.mayWrite (.core k c) (locOf a) = false ∨ acc = .rd (wd a) ∧ s.mayRead (.core k c) (locOf a) = false) →
        s.locOff (locOf a) = false → (a < 0xC7E100 ∨ 0xC7F800 ≤ a) → 0x40000 ≤ a →
        Completes (.wardenAccess k c acc e) s fun t => t.rfault = true ∧ t.rdata = 0 ∧ t.evFlag 36 = true ∧ t.dram = s.dram ∧
          (c.val = 0 → t.fget (aCore k.val 5) 7 0 = min 255 (s.fget (aCore k.val 5) 7 0 + 1) ∧ t.cae = s.cae ∧ WordsKept s t [aCore k.val 5]) ∧
          (c.val ≠ 0 → t.cae.ctxs[c].st = 4 ∧ t.cae.ctxs[c].faultAddr = wd a ∧ t.cae.ctxs[c].faults = s.cae.ctxs[c].faults + 1 ∧
            (∀ d : Ctx, d ≠ c → t.cae.ctxs[d] = s.cae.ctxs[d]) ∧ t.ws = s.ws)))

/-- The duplex pair (R241 to R245, R271, R272). A core in DUPLEX whose peer is silent, or whose watchdog fires, takes over: the peer is DOWN, it is in
SOLO, the peer's contexts are its own, at RESTART where they ran, and the warden event is raised. An expiry counts in WDFIRE; PEERRST brings the other core
DOWN; a kick reloads WDCNT, WDCFG takes a value after its unlocking write alone, a lapsed sequence counts in BADKICK. Commands that the lost core had in
service complete FAULT, with what the journal shows. A core that rejoins, once an image stands that the boot ROM verifies (the command
stands for a good answer of its signature check, log entry 131), makes the pair DUPLEX, or is in SOLO; a core of a relay starts the
staged image, with which the next core's step begins or the relay ends. A relay step that times out ends the relay of W1 and is tried again
once for W0. -/
def Obligations.DuplexPair : Prop :=
  ∀ (s : State) (k : Core), let j := peer k
    let role := fun (t : State) (i : Core) => t.fget (aCore i.val 0) 23 22
    let alive := fun (t : State) (i : Core) => t.bget (aCore i.val 0) 21
    let took := fun (t : State) (a b : Core) => role t a = 0 ∧ alive t a = false ∧ (s.cae.relay = 1 → t.cae.relay = 0) ∧ role t b = 2 ∧ alive t b = alive s b ∧ t.evFlag 36 = true ∧
      ∀ c : Ctx, s.cae.ctxs[c].st ≠ 0 → s.cae.ctxs[c].core = a → t.cae.ctxs[c].core = b ∧ t.cae.ctxs[c].st = s.cae.ctxs[c].st ∧
        (s.cae.ctxs[c].st = 2 → t.cae.ctxs[c].atRestart = true)
    let settled := fun (t : State) (a : Core) => ∀ m : Mbox, s.mbPhase m = 3 → s.bget (aMbctl m.val) 16 = (a.val == 1) →
      (∀ g, s.mboxes[m].hold ≠ .forward g) → NoFlips s → t.mbPhase m = 4 ∧ fld (t.rd (aMbbuf m.val 0x40)) 15 12 = 7 ∧
        t.rd (aMbbuf m.val 0x43) = if s.mboxes[m].journal = some true then 1 else 0
    let few := decide (((s.cae.resets.filter fun t => decide (s.cae.uptime < t + 60000)).length) < 2)
    ((s.coreActs k && role s k == 1 && !s.halted j) = false → Completes (.peerTakeover k) s fun t => t = s) ∧
    ((s.coreActs k && role s k == 1 && !s.halted j) = true → few = true → Completes (.peerTakeover k) s fun t => took t j k ∧ settled t j ∧ t.dev = s.dev) ∧
    ((s.coreActs k && role s k == 1 && !s.halted j) = true → few = false → s.dev ≠ .boot → s.dev ≠ .safe → Completes (.peerTakeover k) s fun t =>
      t.dev = .safe ∧ t.reason = 6 ∧ role t j = 0 ∧ role t k = 2) ∧
    (let fires := s.bget (aCore k.val 0) 21 && !s.halted k && s.bget (aCore k.val 2) 23
     (fires = false → Completes (.watchdogExpiry k) s fun t => t = s) ∧
     (fires = true → Completes (.watchdogExpiry k) s fun t => role t k = 0 ∧ alive t k = false ∧ t.evFlag 36 = true ∧
        t.fget (aCore k.val 5) 23 16 = min 255 (s.fget (aCore k.val 5) 23 16 + 1) ∧ t.fget (aCore k.val 5) 15 0 = s.fget (aCore k.val 5) 15 0 ∧
        (few = true → s.coreActs j = true → took t k j ∧ settled t k) ∧ (s.coreActs j = false → role t j = role s j))) ∧
    (s.coreActs k = true → (few = true → Completes (.peerrst k) s fun t => role t j = 0 ∧ alive t j = false ∧ t.cae.ctxs = s.cae.ctxs ∧
        WordsKept s t [aCore j.val 0] ∧ NoEvent s t) ∧
      (s.cores[k].seq = .none → let a := aCore k.val 3
        (Completes (.kick k) s fun t => t.rd a = wd (min 0xFFFFFF (2 ^ (min 14 (s.fget (aCore k.val 2) 22 19) + 10))) ∧
          t.cores[k].left = 2 ^ (min 14 (s.fget (aCore k.val 2) 22 19) + 10) ∧
          t.cores[k].seq = .none ∧ WordsKept s t [a] ∧ t = { s with ws := t.ws, cores := t.cores }) ∧
        ∀ v : Word, Completes (.wdcfgUnlock k v) s fun t => t.fget (aCore k.val 2) 23 19 = fld v 23 19 ∧ t.cores[k].seq = .none ∧
          WordsKept s t [aCore k.val 2] ∧ t = { s with ws := t.ws, cores := t.cores })) ∧
    (s.coreActs k = false → Completes (.peerrst k) s (fun t => t = s) ∧ Completes (.kick k) s (fun t => t = s)) ∧
    (let lapses := (s.cores[k].seq == .kick || s.cores[k].seq == .unlock) && !s.halted k
     (lapses = false → Completes (.keySequenceLapse k) s fun t => t = s) ∧
     (lapses = true → Completes (.keySequenceLapse k) s fun t => t.cores[k].seq = .none ∧
        t.fget (aCore k.val 5) 15 8 = min 255 (s.fget (aCore k.val 5) 15 8 + 1) ∧ t.fget (aCore k.val 5) 23 16 = s.fget (aCore k.val 5) 23 16 ∧
        t.fget (aCore k.val 5) 7 0 = s.fget (aCore k.val 5) 7 0 ∧ WordsKept s t [aCore k.val 5] ∧ t = { s with ws := t.ws, cores := t.cores })) ∧
    ((s.dev = .boot ∨ alive s k = true) → Completes (.coreRejoin k) s fun t => t = s) ∧
    (let up := fun (t : State) => alive t k = true ∧ alive t j = alive s j ∧
      (alive s j = true → role t k = 1 ∧ role t j = 1) ∧ (alive s j = false → role t k = 2 ∧ role t j = role s j)
     s.dev ≠ .boot → alive s k = false →
      (s.cae.relay ≠ 2 → s.cae.relay ≠ 5 → s.bootable = true → Completes (.coreRejoin k) s fun t => up t ∧
        WordsKept s t [aCore 0 0, aCore 1 0, aCore k.val 3] ∧ t = { s with ws := t.ws, cores := t.cores }) ∧
      (s.cae.relay ≠ 2 → s.cae.relay ≠ 5 → s.bootable = false → Completes (.coreRejoin k) s fun t => t = s) ∧
      (s.cae.relay = 2 → k = 1 → s.stagedStands = true → Completes (.coreRejoin k) s fun t => t.cae.relay = 5 ∧
        role t 1 = 2 ∧ alive t 1 = true ∧ role t 0 = 3 ∧ alive t 0 = false ∧ t.cores[(1 : Core)].newImage = true ∧
        ∀ c : Ctx, s.cae.ctxs[c].st ≠ 0 → t.cae.ctxs[c].core = 1 ∧ t.cae.ctxs[c].atRestart = s.cae.ctxs[c].atRestart) ∧
      (s.cae.relay = 5 → k = 0 → s.relayMbox = none → ∀ x, s.cae.staged = some x → s.stagedStands = true → Completes (.coreRejoin k) s fun t =>
        up t ∧ t.cae.relay = 0 ∧ t.cae.version = x.2.2.1) ∧
      ((s.cae.relay = 2 ∧ k = 1) ∨ (s.cae.relay = 5 ∧ k = 0) → s.stagedStands = false → Completes (.coreRejoin k) s fun t => t = s)) ∧
    (s.relayMbox = none →
      (s.cae.relay = 2 → k = 1 → few = true → Completes (.relayTimeout k) s fun t => t.cae.relay = 0 ∧ role t 1 = 0 ∧ alive t 1 = false ∧ role t 0 = role s 0) ∧
      (s.cae.relay = 5 → k = 0 → s.cae.relayRetried = false → Completes (.relayTimeout k) s fun t => t = { s with cae := { s.cae with relayRetried := true } }) ∧
      (s.cae.relay = 5 → k = 0 → s.cae.relayRetried = true → Completes (.relayTimeout k) s fun t => t.cae.relay = 0 ∧ role t 0 = 0 ∧ role t 1 = role s 1 ∧
        ∀ x, s.cae.staged = some x → t.cae.version = x.2.2.1) ∧
      (s.cae.relay = 0 → Completes (.relayTimeout k) s fun t => t = s))

/-- Applet contexts (R246, R248, R249, R252). A running context that has used its budget is preempted until the next window of a millisecond, and counts in
OVER. A service trap is answered as a mailbox request is: one for another unit ARG, or AUTH in a fold (R347), an unknown code or NARG out of range ARG, an illegal state STATE, IDENT and STATUS with their results, a
command that applets may not call AUTH; the context that called, and no other, gets the reply, with its SEQ and UNIT. -/
def Obligations.AppletContexts : Prop :=
  ∀ (s : State) (c : Ctx), let x := s.cae.ctxs[c]
    let others := fun (t : State) => (∀ d : Ctx, d ≠ c → t.cae.ctxs[d] = s.cae.ctxs[d]) ∧ t = { s with cae := { s.cae with ctxs := t.cae.ctxs } }
    let runs := c.val != 0 && x.st == 2 && !x.preempted && !x.suspended
    (runs = true → Completes (.budgetExhausted c) s fun t => t.cae.ctxs[c] = { x with preempted := true, overs := min 0xFFFFFF (x.overs + 1) } ∧ others t) ∧
    (runs = false → Completes (.budgetExhausted c) s fun t => t = s) ∧
    (Completes .budgetWindow s fun t => (∀ d : Ctx, t.cae.ctxs[d] = { s.cae.ctxs[d] with preempted := false }) ∧
      t = { s with cae := { s.cae with ctxs := t.cae.ctxs } }) ∧
    ∀ (k : Core) (msg : List Word), let acts := runs && x.core == k && s.alive k && !s.halted k
      (acts = false → Completes (.serviceTrap k c msg) s fun t => t = s) ∧
      (acts = true →
        let w := nth 0 msg 0
        let cmd := fld w 23 16
        let n := fld w 13 8
        let answer := fun (t : State) (code : Nat) (res : List Word) => t.cae.ctxs[c].reply =
          [wd (cmd * 2 ^ 16 + code * 2 ^ 12 + s.dev.code * 2 ^ 9 + res.length), nth 0 msg 1, nth 0 msg 2] ++ res ∧ others t
        let u := nth 0 msg 2 -- UNIT
        (u ≠ 0 → u ≠ s.unit → Completes (.serviceTrap k c msg) s fun t => answer t (if s.foldSet then 3 else 2) []) ∧
        (u = 0 ∨ u = s.unit →
        let fits := knownCmd cmd && decide ((cmdArgs cmd).1 ≤ n ∧ n ≤ (cmdArgs cmd).2)
        (fits = false → Completes (.serviceTrap k c msg) s fun t => answer t 2 []) ∧
        (fits = true → s.cmdLegal cmd = false → Completes (.serviceTrap k c msg) s fun t => answer t 8 []) ∧
        (cmd = 1 → n = 0 → Completes (.serviceTrap k c msg) s fun t => answer t 0 s.identWords) ∧
        (cmd = 2 → n = 0 → Completes (.serviceTrap k c msg) s fun t => answer t 0 s.statusWords) ∧
        (fits = true → s.cmdLegal cmd = true → ([0x01, 0x02, 0x22, 0x23, 0x60, 0x72].contains cmd) = false →
          Completes (.serviceTrap k c msg) s fun t => answer t 3 [])))

/-! ### Mailboxes (10_wardens_mailbox.md, 14_golmon_folds.md) -/

/-- Mailbox phases and sorting (R252, R254, R255, R257 to R260, R348). CLAIM succeeds from FREE alone, POST and RELEASE for the claimant from
CLAIMED or DONE; a claim that expires frees the mailbox with its event; anything else changes nothing. Of two CLAIMs of one cycle the
first in the order host, W0, W1, debug master, G0 to G3 succeeds, whichever lands first; of two POSTs of one cycle the lower mailbox is
served first. A request with a sequence number neither expected nor that of the last one completes SEQ with EXP; an unknown code, or NARG
out of range, ARG; an illegal state STATE; a forwarded request that lapses FAULT with 2. -/
def Obligations.MailboxPhases : Prop :=
  ∀ (s : State) (m : Mbox), let a := aMbctl m.val
    let kept := fun (t : State) => t = { s with cyc := t.cyc, cycAt := t.cycAt }
    let code := fun (q : Claimant) => match q with | .host => 1 | .core k => 2 + k.val | .debug => 4 | .link g => 8 + g.val
    let place := fun (q : Claimant) => match q with | .host => 0 | .core k => 1 + k.val | .debug => 3 | .link g => 4 + g.val
    (s.cycNow = [] → ∀ q : Claimant,
      ((s.mayClaim q && s.fget a 23 21 == 0) = false → Completes (.claim q m) s kept) ∧
      ((s.mayClaim q && s.fget a 23 21 == 0) = true → (Completes (.claim q m) s fun t => t.fget a 23 21 = 1 ∧ t.fget a 20 17 = code q ∧
          t.bget a 16 = s.bget a 16 ∧ WordsKept s t [a] ∧ t = { s with ws := t.ws, cyc := t.cyc, cycAt := t.cycAt }) ∧
        ∀ p : Claimant, s.mayClaim p = true → place p < place q →
          Completes (.claim q m) s fun t => Completes (.claim p m) t fun u => u.fget a 23 21 = 1 ∧ u.fget a 20 17 = code p) ∧
      (let own := fun (p : Claimant) (n : Mbox) => s.mayClaim p && s.fget (aMbctl n.val) 20 17 == code p &&
         (s.fget (aMbctl n.val) 23 21 == 1 || s.fget (aMbctl n.val) 23 21 == 4)
       (own q m = false → Completes (.post q m) s kept ∧ Completes (.release q m) s kept) ∧
       (own q m = true →
        (Completes (.post q m) s fun t => t.fget a 23 21 = 2 ∧ t.fget a 20 16 = s.fget a 20 16 ∧ t.mbOrder = s.mbOrder ++ [m.val] ∧
          WordsKept s t [a] ∧ t = { s with ws := t.ws, mbOrder := t.mbOrder, cyc := t.cyc, cycAt := t.cycAt }) ∧
        (Completes (.release q m) s fun t => t.fget a 23 21 = 0 ∧ t.fget a 20 17 = 0 ∧ WordsKept s t [a] ∧
          (∀ n : Mbox, n ≠ m → t.mboxes[n] = s.mboxes[n]) ∧ t = { s with ws := t.ws, mboxes := t.mboxes }) ∧
        ∀ (p : Claimant) (n : Mbox), own p n = true → code p ≠ code q → n < m →
          Completes (.post q m) s fun t => Completes (.post p n) t fun u => u.mbOrder = s.mbOrder ++ [n.val, m.val]))) ∧
    (let lapses := s.fget a 23 21 == 1 && !(s.fget a 20 17 == 2 && s.halted 0) && !(s.fget a 20 17 == 3 && s.halted 1)
     (lapses = false → Completes (.claimExpiry m) s fun t => t = s) ∧
     (lapses = true → s.cycNow = [] → Completes (.claimExpiry m) s fun t => t.fget a 23 21 = 0 ∧ t.fget a 20 17 = 0 ∧
        EventRaised s t (48 + m.val) [] ∧ WordsKept s t [a])) ∧
    (∀ c : Nat, MbNext s m c → c = 1 → s.seqCheck m = .refuse → Completes (.ident m) s fun t =>
      MbAnswered s t m 5 [s.rd (aMbseq m.val)] ∧ t.rd (aMbseq m.val) = s.rd (aMbseq m.val) ∧ MbKept s t m []) ∧
    (∀ c : Nat, MbNext s m c → s.seqCheck m = .accept → knownCmd c = false → Completes (.ident m) s fun t => MbDone s t m 2 [] ∧ MbKept s t m []) ∧
    (MbNext s m 1 → s.seqCheck m = .accept → s.reqNarg m ≠ 0 → Completes (.ident m) s fun t => MbDone s t m 2 [] ∧ MbKept s t m []) ∧
    (MbNext s m 4 → s.seqCheck m = .accept → s.reqNarg m = 1 → (s.dev = .boot ∨ s.dev = .safe) →
      Completes (.setstate m) s fun t => MbDone s t m 8 [] ∧ MbKept s t m [] ∧ t.dev = s.dev) ∧
    (∀ g : Link, s.mboxes[m].hold = .forward g → s.mboxes[m].inbound = none → s.mboxes[m].orphan = false → NoFlips s →
      Completes (.forwardTimeout m) s fun t => t.fget a 23 21 = 4 ∧ t.evFlag (48 + m.val) = true ∧
        fld (t.rd (aMbbuf m.val 0x40)) 15 12 = 7 ∧ t.rd (aMbbuf m.val 0x43) = 2 ∧ WordsKept s t (mbWords m)) ∧
    (s.mboxes[m].hold = .none → Completes (.forwardTimeout m) s fun t => t = s)

/-- Commands that ask and that change states (R249, R250, R257, R261, R264, R268, R297, R405). Each accepted request is answered with the results of the command
table: IDENT, STATUS, SPLITGET, FLASHINFO, GRANTLIST, APPSTAT and LEDGER change nothing; SEQSYNC sets EXP whatever it was; SETSTATE makes the
transitions of R250 and no other; RESET arms the reset and clears SET; APPCTL moves a context as R249 says. -/
def Obligations.ServedQueriesAndStates : Prop :=
  ∀ (s : State) (m : Mbox), let arg := mbArg s m
    let gives := fun (t : State) (code : Nat) (res : List Word) => MbDone s t m code res ∧ MbKept s t m []
    (MbAccepted s m 0x01 → Completes (.ident m) s fun t => gives t 0 [s.identity, s.cae.version, s.secfuse, s.fuses.famid]) ∧
    (MbAccepted s m 0x02 → Completes (.status m) s fun t => let w0 := t.rd (aMbbuf m.val 0x43); let w1 := t.rd (aMbbuf m.val 0x44)
      gives t 0 [w0, w1, wd s.cae.uptime, wd (s.cae.uptime >>> 24)] ∧
      fld w0 23 16 = s.reason.toNat ∧ fld w0 15 14 = s.role 0 ∧ fld w0 13 12 = s.role 1 ∧
      ∀ n : Mbox, (if n.val < 12 then bit w0 n.val else bit w1 (n.val - 12)) = (decide (n = m) || s.mboxes[n].isSet)) ∧
    (MbNext s m 0x03 → s.reqNarg m = 0 → Completes (.seqsync m) s fun t => gives t 0 []) ∧
    (MbAccepted s m 0x04 → let n := fld (arg 0) 2 0
      let goal := match s.dev, n with
        | .ready, 2 => if s.anyRunning then some DevState.live else none
        | .live, 1 => some .ready
        | .ready, 3 => some .maint
        | .live, 3 => some .maint
        | .maint, 1 => some .ready
        | _, _ => none
      (goal = none → Completes (.setstate m) s fun t => gives t 2 []) ∧
      ∀ d : DevState, goal = some d → Completes (.setstate m) s fun t => MbDone s t m 0 [] ∧ t.dev = d ∧ t.reason = 3 ∧
        t.heads = s.heads ∧ t.cae.split = s.cae.split ∧ WordsKept s t (mbWords m ++ [aRot 0])) ∧
    (MbAccepted s m 0x05 → Completes (.reset m) s fun t => MbDone s t m 0 [] ∧ t.pow.resetDue = true ∧
      (∀ n : Mbox, t.mboxes[n].isSet = false) ∧ WordsKept s t (mbWords m) ∧ t.heads = s.heads ∧ t.dev = s.dev) ∧
    (MbAccepted s m 0x60 → Completes (.splitget m) s fun t => let ws := (List.range 10).map fun i => t.rd (aMbbuf m.val (0x43 + i))
      gives t 0 ws ∧
      (∀ f : Fin 8, bit (nth 0 ws 0) f.val = (s.cae.split[f].mode != 0) ∧ bit (nth 0 ws 1) f.val = (s.cae.split[f].pend != 0) ∧
        (headBound f.val = true → fld (nth 0 ws (2 + f.val)) 15 8 = s.cae.split[f].mode.toNat ∧ fld (nth 0 ws (2 + f.val)) 7 0 = s.cae.split[f].pend.toNat) ∧
        (headBound f.val = false → nth 0 ws (2 + f.val) = 0))) ∧
    (MbAccepted s m 0x50 → Completes (.flashinfo m) s fun t =>
      gives t 0 [wd (s.flashSize / 1024), if nbits s.pow.straps.toNat 1 0 = 1 then 1 else 0, wd Config.flashMHz]) ∧
    (MbAccepted s m 0x31 → let k := fld (arg 0) 22 20; let i := fld (arg 0) 19 8
      let g := s.cae.grants.filter fun y => y.kind == k && y.index == i
      (s.badKind k i = true → Completes (.grantlist m) s fun t => gives t 2 []) ∧
      (s.badKind k i = false → Completes (.grantlist m) s fun t => gives t 0 (wd g.length :: (g.map fun y => wd y.grantee).take 60))) ∧
    (MbAccepted s m 0x72 →
      ((arg 0 = 0 ∨ 63 < (arg 0).toNat) → Completes (.appstat m) s fun t => gives t 2 []) ∧
      ∀ c : Ctx, c.val ≠ 0 → arg 0 = wd c.val → let x := s.cae.ctxs[c]
        Completes (.appstat m) s fun t => gives t 0 [wd x.st, x.faultAddr, wd x.overs, wd x.faults]) ∧
    (MbAccepted s m 0x78 →
      (64 ≤ (arg 0).toNat → Completes (.ledger m) s fun t => gives t 2 []) ∧
      ∀ i < 64, arg 0 = wd i → Completes (.ledger m) s fun t => gives t 0 ((List.range (min 61 (64 - i))).map fun j => s.ledger (i + j))) ∧
    (MbAccepted s m 0x71 → ∀ c : Ctx, c.val ≠ 0 → fld (arg 1) 5 0 = c.val → let x := s.cae.ctxs[c]; let op := fld (arg 0) 23 22
      let moves := fun (t : State) (n : Nat) => MbDone s t m 0 [wd n] ∧ t.cae.ctxs[c].st = n ∧ (∀ d : Ctx, d ≠ c → t.cae.ctxs[d] = s.cae.ctxs[d]) ∧
        t.dev = s.dev ∧ t.heads = s.heads
      let runs := fun (t : State) (r : Bool) => moves t 2 ∧ t.cae.ctxs[c] = { x with st := 2, atRestart := r, preempted := false } ∧ WordsKept s t (mbWords m)
      (x.st = 0 → op = 0 → Completes (.appctlStart m) s fun t => gives t 2 []) ∧
      (x.st ≠ 0 → x.st ≠ 2 → op = 0 → Completes (.appctlStart m) s fun t => runs t false) ∧
      (x.st ≠ 0 → op = 3 → Completes (.appctlRestart m) s fun t => runs t true) ∧
      (x.st = 2 → op = 1 → Completes (.appctlStop m) s fun t => moves t 3 ∧ t.cae.ctxs[c] = { x with st := 3 } ∧ WordsKept s t (mbWords m)) ∧
      (x.st ≠ 2 → x.st ≠ 3 → op = 1 → Completes (.appctlStop m) s fun t => gives t 2 []) ∧
      (x.st ≠ 0 → op = 2 → (∀ g ∈ s.cae.grants, g.grantee = c.val → g.kind ≠ 5) → Completes (.appctlUnload m) s fun t => moves t 0 ∧ t.cae.ctxs[c] = CtxSt.reset ∧
        (∀ g ∈ t.cae.grants, g.grantee ≠ c.val) ∧ ∀ p ∈ x.pages, ∀ i < 4096, p < 192 → t.rd (aSram (0x40000 + 4096 * p + i)) = 0))

/-- Commands on registers, entries and rights (R2, R28, R44, R261 to R264, R404). A head disabled by fuse, or above 7, completes ARG. HEADCFG writes the raster registers
unless RUN is 1, and every field of HCTL but RUN where it is 0; HEADRUN writes the epoch of a stopped head and moves RUN; CREG reaches the registers of R262
alone and reads back; DPTRAIN, AUX, WREAD, WWRITE, QPOST, QCANCEL answer as the command table says; GRANT gives a right not held, or withdraws one held, and
answers the entries in use. -/
def Obligations.ServedRegisterCommands : Prop :=
  ∀ (s : State) (m : Mbox), let arg := mbArg s m
    let gives := fun (t : State) (code : Nat) (res : List Word) => MbDone s t m code res ∧ MbKept s t m []
    (∀ d : List Byte, ∀ ok : TrainOutcome, (8 ≤ (arg 0).toNat → (MbAccepted s m 0x10 → Completes (.headcfg m) s fun t => gives t 2 []) ∧
        (MbAccepted s m 0x13 → Completes (.dptrain m ok) s fun t => gives t 2 [])) ∧
      (s.headOff (fld (arg 0) 2 0) = true → (MbAccepted s m 0x11 → Completes (.headrun m) s fun t => gives t 2 []) ∧
        (MbAccepted s m 0x22 → Completes (.qpost m) s fun t => gives t 2 []) ∧ (MbAccepted s m 0x23 → Completes (.qcancel m) s fun t => gives t 2 [])) ∧
      (s.headOff (fld (arg 1) 23 21) = true → MbAccepted s m 0x14 →
        (bit (arg 0) 23 = false → Completes (.auxRead m d) s fun t => gives t 2 []) ∧ (bit (arg 0) 23 = true → Completes (.auxWrite m) s fun t => gives t 2 []))) ∧
    (∀ h : Head, s.headOff h.val = false → let a := aHead h.val 0
      let regs := (List.range 7).map fun i => aHead h.val (2 + i)
      let others := fun (t : State) (A : List Nat) => WordsKept s t (mbWords m ++ A) ∧ (∀ g : Head, g ≠ h → t.heads[g] = s.heads[g])
      (MbAccepted s m 0x10 → arg 0 = wd h.val → Completes (.headcfg m) s fun t => MbDone s t m 0 [] ∧ t.bget a 23 = s.bget a 23 ∧
        others t (a :: aHead h.val 1 :: regs) ∧
        (s.bget a 23 = true → (∀ i < 6, t.rd (aHead h.val (2 + i)) = s.rd (aHead h.val (2 + i))) ∧ t.fget a 22 16 = s.fget a 22 16 ∧
          t.fget a 11 10 = s.fget a 11 10 ∧ t.fget a 15 12 = fld (arg 8) 15 12) ∧
        (s.bget a 23 = false → (∀ i ∈ [0, 1, 2, 3, 5, 6], t.rd (aHead h.val (2 + i)) = arg (1 + i)) ∧ t.fget (aHead h.val 6) 23 8 = fld (arg 5) 23 8 ∧
          t.fget a 22 10 = fld (arg 8) 22 10)) ∧
      (MbAccepted s m 0x11 → fld (arg 0) 2 0 = h.val → Completes (.headrun m) s fun t =>
        MbDone s t m 0 [readView (fieldsOf (locOf (aHead h.val 1))) (t.rd (aHead h.val 1))] ∧ (bit (arg 0) 23 = false → t.bget a 23 = false) ∧
        (s.bget a 23 = false → bit (arg 0) 23 = false → t.rd (aHead h.val 0x0A) = arg 1 ∧ t.rd (aHead h.val 0x0B) = arg 2 ∧
          others t [aHead h.val 0x0A, aHead h.val 0x0B]) ∧
        (s.bget a 23 = true → bit (arg 0) 23 = true → gives t 0 [readView (fieldsOf (locOf (aHead h.val 1))) (s.rd (aHead h.val 1))])) ∧
      (∀ o : TrainOutcome, MbAccepted s m 0x13 → arg 0 = wd h.val → let dp := aHead h.val 0x32; let dr := aHead h.val 0x37
        let ready := s.bget (aHead h.val 0x30) 23 && !s.bget (aHead h.val 0x30) 22 && s.bget (aHead h.val 0x31) 23 &&
          (List.range (laneCount (s.fget dp 23 22))).all fun l => !s.bget (aHead h.val 0x31) (17 + l)
        (ready = false → Completes (.dptrain m o) s fun t => gives t 2 []) ∧
        (ready = true → Completes (.dptrain m o) s fun t => t.bget dp 13 = o.ok ∧ t.fget dp 17 14 = 0 ∧ t.fget dp 23 18 = s.fget dp 23 18 ∧
          MbDone s t m (if o.ok then 0 else 4) [readView (fieldsOf (locOf dp)) (t.rd dp), readView (fieldsOf (locOf dr)) (t.rd dr)] ∧
          others t [aHead h.val 0x31, dp, dr])) ∧
      (MbAccepted s m 0x14 → fld (arg 1) 23 21 = h.val → let six := fun (t : State) => (List.range 6).map fun i => t.rd (aMbbuf m.val (0x43 + i))
        (∀ d : List Byte, bit (arg 0) 23 = false → Completes (.auxRead m d) s fun t => gives t 0 (six t) ∧
          (bytesOfWords (six t)).take (d.take (fld (arg 1) 3 0 + 1)).length = d.take (fld (arg 1) 3 0 + 1)) ∧
        (bit (arg 0) 23 = true → Completes (.auxWrite m) s fun t => gives t 0 (six t))) ∧
      (MbAccepted s m 0x22 → fld (arg 0) 2 0 = h.val → s.namesOff (arg 2) (arg 3) = false → Completes (.qpost m) s fun t =>
        let st := t.rd (aMbbuf m.val 0x43)
        MbDone s t m 0 [st] ∧ (fld st 23 21 ≠ 0 → t.heads = s.heads) ∧ (∀ g : Head, g ≠ h → t.heads[g] = s.heads[g]) ∧
        (fld st 23 21 = 0 → s.running h.val = false → (t.heads[h].queue.getLast?.map fun e => (e.w0, e.w1, e.w2, e.w3, e.req)) =
          some (arg 1, arg 2, arg 3, arg 4, Requester.host) ∧ t.heads[h].queue.length = s.heads[h].queue.length + 1)) ∧
      (MbAccepted s m 0x23 → fld (arg 0) 2 0 = h.val → Completes (.qcancel m) s fun t => let st := t.rd (aMbbuf m.val 0x43)
        MbDone s t m 0 [st] ∧ (fld st 23 21 = 5 ∨ fld st 23 21 = 6 ∨ fld st 23 21 = 7) ∧ (fld st 23 21 ≠ 6 → t.heads = s.heads) ∧
        (fld st 23 21 = 6 → (t.heads[h].queue.any fun e => e.idx == fld (arg 1) 9 0) = false))) ∧
    (MbAccepted s m 0x12 → let l := locOf (arg 0).toNat
      (cregStates l = none → Completes (.creg m) s fun t => gives t 3 []) ∧
      (∀ n : Fin 16, arg 0 = wd (aLark (0x10 + n.val)) → Completes (.creg m) s fun t => let a := aLark (0x10 + n.val)
        t.fget a 23 16 = fld (arg 1) 23 16 ∧ MbDone s t m 0 [readView (fieldsOf l) (t.rd a)] ∧ WordsKept s t (mbWords m ++ [a])) ∧
      (∀ p : Pad, s.padOff p.val = true → arg 0 = wd (aPad p.val 0x0D) → Completes (.creg m) s fun t => gives t 2 [])) ∧
    (MbAccepted s m 0x20 → let n := (arg 1).toNat; let at_ := fun (i : Nat) => ((arg 0).toNat + i) % 2 ^ 24
      ((n < 1 ∨ 58 < n) → Completes (.wread m) s fun t => gives t 2 []) ∧
      (1 ≤ n → n ≤ 58 → (∃ i < n, caeOnly (locOf (at_ i)) = true) → Completes (.wread m) s fun t => gives t 3 []) ∧
      (1 ≤ n → n ≤ 58 → 0x140000 ≤ (arg 0).toNat → (arg 0).toNat + n ≤ 0x200000 → Completes (.wread m) s fun t =>
        MbDone s t m 0 ((List.range n).map fun i => s.rd (at_ i)) ∧ MbKept s { t with rdata := s.rdata, rfault := s.rfault } m []) ∧
      (1 ≤ n → n ≤ 58 → locOf (at_ 0) = .unmapped → (∀ i < n, caeOnly (locOf (at_ i)) = false) → Completes (.wread m) s fun t =>
        MbDone s t m 7 [0] ∧ MbKept s { t with rdata := s.rdata, rfault := s.rfault } m [])) ∧
    (MbAccepted s m 0x21 → s.reqNarg m = 2 → let a := (arg 0).toNat
      (caeOnly (locOf a) = true → Completes (.wwrite m) s fun t => gives t 3 []) ∧
      (∀ (h : Head) (n : Slot) (w : Fin 16), a = aDesc h.val n.val w.val → s.headOff h.val = false → s.cycNow = [] → Completes (.wwrite m) s fun t =>
        (∀ f ∈ fieldsOf (locOf a), t.fget a f.hi f.lo = fld (arg 1) f.hi f.lo) ∧ MbDone s t m 0 [] ∧
        MbKept s { t with rdata := s.rdata, rfault := s.rfault } m [a]) ∧
      (locOf a = .unmapped → Completes (.wwrite m) s fun t => MbDone s t m 7 [0] ∧ MbKept s { t with rdata := s.rdata, rfault := s.rfault } m [])) ∧
    (MbAccepted s m 0x30 → let x : Grant := { kind := fld (arg 0) 22 20, index := fld (arg 0) 19 8, grantee := fld (arg 0) 6 0 }
      let bad := s.badKind x.kind x.index || s.badGrantee x.grantee
      let l := s.cae.grants
      let takes := fun (t : State) (l' : List Grant) => t.cae.grants = l' ∧ MbDone s t m 0 [wd l'.length] ∧ MbKept s { t with cae := s.cae } m [] ∧
        t.cae = { s.cae with grants := l' }
      (bit (arg 0) 23 = true → (bad = true → Completes (.grantOn m) s fun t => gives t 2 []) ∧
        (bad = false → x.kind ≠ 5 → x ∈ l → Completes (.grantOn m) s fun t => takes t l) ∧
        (bad = false → x.kind ≠ 5 → x ∉ l → l.length < 512 → Completes (.grantOn m) s fun t => takes t (l ++ [x])) ∧
        (bad = false → x.kind ≠ 5 → x ∉ l → 512 ≤ l.length → Completes (.grantOn m) s fun t => gives t 6 [])) ∧
      (bit (arg 0) 23 = false → (bad = true → Completes (.grantOff m) s fun t => gives t 2 []) ∧
        (bad = false → x.kind ≠ 5 → l.length ≤ 512 → Completes (.grantOff m) s fun t => takes t (l.filter fun y => decide (y ≠ x)))))

/-- Commands on streams, loads, keys and fuses (R196, R202, R203, R216, R217, R265 to R267). STAGE of a stream that passes every check takes the lowest free image entries, one for
each paddock, and makes them VALID; UNSTAGE of an entry not in use clears VALID; an immediate PLOAD or GLEANREQ waits in SERVICE for the ICP,
its swap starting with the next fabric edge, or is BUSY; a timed one, and a reload under a GLPOL that names a running head's line, posts a
SWAP; BIND writes the stream's binding record; ARBRAISE, FAMKEY and REVOKE only set fuses; ATTKEY wraps the attestation key for the
key given. What a check refuses completes ARG, AUTH, CHECK or NOSPACE and changes nothing. -/
def Obligations.ServedStreamCommands : Prop :=
  ∀ (s : State) (m : Mbox), let arg := mbArg s m
    let gives := fun (t : State) (code : Nat) (res : List Word) => MbDone s t m code res ∧ MbKept s t m []
    let orRead := fun (t : State) (code : Nat) (res : List Word) => MbDone s t m code res ∧ -- refused, with the reads of DRAM counted
      MbKept s { t with clsBytes := s.clsBytes } m ((List.range 4).map fun c => aChan c 1)
    let waits := fun (t : State) (op : IcpOp) (p : Nat) => t.mbPhase m = 3 ∧ t.mboxes[m].hold = .load ∧ t.bget aIcpstat 23 = true ∧
      (t.icp.map fun j => (j.op, j.pad, j.mbox)) = some (op, p, some m.val)
    let swaps := fun (t : State) (p : Pad) => waits t .load p.val ∧ t.pads[p].closing = true ∧ ∀ q : Pad, q ≠ p → t.pads[q] = s.pads[q]
    let g := s.dramAt (arg 0)
    let x := readStream g
    (MbAccepted s m 0x40 → let bytes := (arg 1).toNat
      let map := wordsOfBytes (s.dramAt (arg 2) 0 (3 * (arg 3).toNat))
      let es := s.freeImages.take x.pads.length
      (s.streamFits x bytes = false → Completes (.stage m) s fun t => orRead t 2 []) ∧
      (s.streamFits x bytes = true → s.streamKeyed x = false → Completes (.stage m) s fun t => orRead t 3 []) ∧
      (s.streamFits x bytes = true → s.streamKeyed x = true → s.freeImages.length < x.pads.length → Completes (.stage m) s fun t => orRead t 6 []) ∧
      (s.streamFits x bytes = true → s.streamKeyed x = true → x.pads.length ≤ s.freeImages.length →
        ((x.parts g map).map StagePart.units).sum ≤ s.dramCap / 2048 → (s.streamKey x g bytes).isSome = true → x.signed = true →
        sha384 (bytesOfWords map) = x.mapdig → Completes (.stage m) s fun t => MbDone s t m 0 (wd x.padmask :: packEntries es) ∧
          (∀ e ∈ es, t.bget (aImage e 0) 23 = true ∧ (x.pads.contains (t.fget (aImage e 0) 22 19)) = true) ∧
          (∀ e < 64, s.bget (aImage e 0) 23 = true → t.rd (aImage e 0) = s.rd (aImage e 0)) ∧ t.heads = s.heads ∧ t.pads = s.pads)) ∧
    (MbAccepted s m 0x41 →
      ((64 ≤ (arg 0).toNat ∨ s.bget (aImage (arg 0).toNat 0) 23 = false) → Completes (.unstage m) s fun t => gives t 2 []) ∧
      ∀ e : Fin 64, arg 0 = wd e.val → s.bget (aImage e.val 0) 23 = true →
        (s.imageUsed e.val = true → Completes (.unstage m) s fun t => gives t 1 []) ∧
        (s.imageUsed e.val = false → Completes (.unstage m) s fun t => MbDone s t m 0 [] ∧ t.bget (aImage e.val 0) 23 = false ∧
          MbKept s { t with keys := s.keys } m [aImage e.val 0])) ∧
    (∀ p : Pad, fld (arg 0) 19 16 = p.val → s.padOff p.val = false → s.icp = none → s.icpQueue = [] → s.pads[p].repair = none →
      (MbAccepted s m 0x42 → bit (arg 0) 23 = false → let e := fld (arg 0) 5 0
        (s.imageFor e p.val = false → Completes (.pload m) s fun t => gives t 2 []) ∧
        (s.imageFor e p.val = true → s.bget aIcpstat 23 = true → Completes (.pload m) s fun t => gives t 1 []) ∧
        (s.imageFor e p.val = true → s.bget aIcpstat 23 = false → Completes (.pload m) s fun t => swaps t p ∧ (t.icp.map (·.img)) = some e)) ∧
      (MbAccepted s m 0x42 → bit (arg 0) 23 = true → s.headOff (fld (arg 0) 22 20) = false → s.imageFor (fld (arg 0) 5 0) p.val = true →
        Completes (.ploadTimed m) s fun t => let st := t.rd (aMbbuf m.val 0x43)
          MbDone s t m (if fld st 23 21 = 0 then 0 else 2) [st] ∧ t.pads = s.pads ∧ t.icp = s.icp ∧ (fld st 23 21 ≠ 0 → t.heads = s.heads))) ∧
    (∀ p : Pad, fld (arg 1) 19 16 = p.val → s.padOff p.val = false → s.icp = none → s.icpQueue = [] → s.pads[p].repair = none →
      (MbAccepted s m 0x43 → fld (arg 0) 23 22 = 0 →
        ((s.loaded p.val = false ∨ 799 < fld (arg 2) 9 0) → Completes (.gleanreqRewrite m) s fun t => gives t 2 []) ∧
        (s.loaded p.val = true → fld (arg 2) 9 0 ≤ 799 → s.bget aIcpstat 23 = true → Completes (.gleanreqRewrite m) s fun t => gives t 1 []) ∧
        (s.loaded p.val = true → fld (arg 2) 9 0 ≤ 799 → s.bget aIcpstat 23 = false → Completes (.gleanreqRewrite m) s fun t =>
          waits t .rewrite p.val ∧ (t.icp.map (·.frame)) = some (fld (arg 2) 9 0) ∧ t.pads = s.pads)) ∧
      (MbAccepted s m 0x43 → fld (arg 0) 23 22 = 1 →
        (s.loaded p.val = false → Completes (.gleanreqReload m) s fun t => gives t 2 []) ∧
        (s.loaded p.val = true → s.bget (aPad p.val 0x0D) 23 = true → s.bget aIcpstat 23 = true → Completes (.gleanreqReload m) s fun t => gives t 1 []) ∧
        (s.loaded p.val = true → s.bget (aPad p.val 0x0D) 23 = true → s.bget aIcpstat 23 = false → Completes (.gleanreqReload m) s fun t => swaps t p) ∧
        (s.loaded p.val = true → s.bget (aPad p.val 0x0D) 23 = false → s.running (s.fget (aPad p.val 0x0D) 22 20) = true →
          Completes (.gleanreqReload m) s fun t => let h : Head := Fin.ofNat 8 (s.fget (aPad p.val 0x0D) 22 20)
            t.pads = s.pads ∧ t.icp = s.icp ∧ t.mbPhase m = 4 ∧
              ((t.heads[h].queue.length = s.heads[h].queue.length + 1 ∧ fld (t.rd (aMbbuf m.val 0x40)) 15 12 = 0) ∨
               (t.heads = s.heads ∧ fld (t.rd (aMbbuf m.val 0x40)) 15 12 = 2))))) ∧
    (MbAccepted s m 0x44 →
      (s.streamFits x x.size = false → Completes (.bind m) s fun t => orRead t 2 []) ∧
      (s.streamFits x x.size = true → s.streamKeyed x = false → Completes (.bind m) s fun t => orRead t 3 []) ∧
      (∀ k0 : List Byte, s.streamFits x x.size = true → s.streamKeyed x = true → s.streamKey x g (x.size + 48) = some k0 → x.signed = true →
        x.tagsGood k0 g = true → FreshCycle s → Completes (.bind m) s fun t => MbDone s t m 0 [] ∧
          let r := ascii "KZBD" ++ keyWrap (kdf s.fuses.drk "KZSW-KEK-DEV" x.sid) k0 ++ List.replicate 4 0
          ∀ i < r.length, 2048 * (arg 1).toNat + i < s.dramCap → t.nowBytes (2048 * (arg 1).toNat + i) 1 = [nth 0 r i])) ∧
    (let fuses := fun (t : State) (f : Fuses) => t.fuses = f ∧ MbKept s { t with fuses := s.fuses } m []
     (∀ e : Fin 64, ∀ k : KeyEnt, s.bget (aImage e.val 0) 23 = true → s.keys[e] = some k →
        (MbAccepted s m 0x45 → arg 0 = wd e.val → Completes (.arbraise m) s fun t => MbDone s t m 0 [t.secfuse] ∧
          fuses t { s.fuses with arbcnt := BitVec.ofNat 8 (max s.fuses.arbcnt.toNat (min k.arb 255)) }) ∧
        (MbAccepted s m 0x47 → arg 1 = wd e.val → ∀ n : Fin 4, arg 0 = wd n.val →
          ((k.sigslot = n.val ∨ s.fuses.slotrev.getLsbD k.sigslot = true) → Completes (.revoke m) s fun t => gives t 3 []) ∧
          (k.sigslot ≠ n.val → s.fuses.slotrev.getLsbD k.sigslot = false → Completes (.revoke m) s fun t => MbDone s t m 0 [t.secfuse] ∧
            fuses t { s.fuses with slotrev := s.fuses.slotrev ||| (1 <<< n.val) }))) ∧
     (MbAccepted s m 0x46 → (arg 0 = 0 → Completes (.famkey m) s fun t => gives t 2 []) ∧
        (arg 0 ≠ 0 → s.fuses.fklock = true → Completes (.famkey m) s fun t => gives t 3 []) ∧
        (arg 0 ≠ 0 → s.fuses.fklock = false → Completes (.famkey m) s fun t => MbDone s t m 0 [s.fuses.famid ||| arg 0] ∧
          let key := (bytesOfWords ((List.range 11).map fun i => arg (2 + i))).take 32
          t.fuses.famk.length = s.fuses.famk.length ∧ (∀ i < s.fuses.famk.length, nth 0 t.fuses.famk i = nth 0 s.fuses.famk i ||| nth 0 key i) ∧
          fuses t { s.fuses with famid := s.fuses.famid ||| arg 0, famk := t.fuses.famk, fklock := bit (arg 1) 0 }))) ∧
    (MbAccepted s m 0x48 → ∀ de : BitVec 384, let pub := bytesOfWords ((List.range 32).map fun i => arg (5 + i))
      ((4 ≤ (arg 0).toNat ∨ onCurve (pubKey pub) = false) → Completes (.attkey m de) s fun t => gives t 2 []) ∧
      ((arg 0).toNat < 4 → onCurve (pubKey pub) = true → s.slotHolds (arg 0).toNat pub = false → Completes (.attkey m de) s fun t => gives t 3 []) ∧
      ((arg 0).toNat < 4 → onCurve (pubKey pub) = true → s.slotHolds (arg 0).toNat pub = true → Completes (.attkey m de) s fun t =>
        gives t 0 (s.attestOut de (pubKey pub) (bytesOfWords ((List.range 4).map fun i => arg (1 + i))))))

/-- Commands on flash, on Caeruno's images, on the split and on applets (R16, R17, R247, R249, R268 to R271, R273). FWPUT and FWBOOT serve the boot ROM without firmware;
FLASHWRITE and FLASHBLK store bytes outside the directory; FLASHDIR writes one field; FWSTAGE keeps an image of the same major ABI, FWRELAY moves
everything to W0 once W1 serves no command; SPLITSET answers NOW and the boundary; APPLOAD puts a verified applet on free pages, LOADED. -/
def Obligations.ServedImageCommands : Prop :=
  ∀ (s : State) (m : Mbox), let arg := mbArg s m
    let gives := fun (t : State) (code : Nat) (res : List Word) => MbDone s t m code res ∧ MbKept s t m []
    let oors := (List.range 4).map fun c => aChan c 1 -- where reads of DRAM beyond the capacity are counted
    let orRead := fun (t : State) (code : Nat) => MbDone s t m code [] ∧ MbKept s { t with clsBytes := s.clsBytes } m oors
    (MbAccepted s m 0x06 → let o := (arg 0).toNat; let n := s.reqNarg m - 1
      (2 ^ 20 < o + n → Completes (.fwput m) s fun t => gives t 2 []) ∧
      (o + n ≤ 2 ^ 20 → Completes (.fwput m) s fun t => MbDone s t m 0 [] ∧ (∀ i < n, t.rd (aSram (o + i)) = arg (1 + i)) ∧
        MbKept s t m ((List.range n).map fun i => aSram (o + i)))) ∧
    (∀ ok : Bool, MbAccepted s m 0x07 → let n := (arg 0).toNat
      ((n < 80 ∨ 2 ^ 20 < n) → Completes (.fwboot m ok) s fun t => gives t 2 []) ∧
      (80 ≤ n → n ≤ 2 ^ 20 → (ok && s.fuses.flock) = false → Completes (.fwboot m ok) s fun t => gives t 4 []) ∧
      (80 ≤ n → n ≤ 2 ^ 20 → (ok && s.fuses.flock) = true → Completes (.fwboot m ok) s fun t => MbDone s t m 0 [] ∧ t.alive 0 = true ∧ t.alive 1 = true ∧
        t.role 0 = 1 ∧ t.role 1 = 1 ∧ t.cae.version = s.rd (aSram 6) ∧ t.start = .booted)) ∧
    (∀ ok : Bool, MbAccepted s m 0x51 → let target := fld (arg 0) 1 0; let n := (arg 2).toNat; let off := (arg 3).toNat
      let d := s.dramAt (arg 1) 0 n
      (s.badRegion target off n = true → Completes (.flashwrite m ok) s fun t => orRead t 2) ∧
      (s.badRegion target off n = false → s.hostFn 6 = false → 2 ≤ target → 0x2000 ≤ off / max 1 Config.flashSector * max 1 Config.flashSector →
        Completes (.flashwrite m ok) s fun t => MbDone s t m (if ok then 0 else 4) [] ∧
          (∀ i < n, spGet zeroB t.flash (off + i) = nth 0 d i) ∧ (ok = true → t.dirField (dirEntry target) = off % 2 ^ 32 ∧ t.dirField (dirEntry target + 4) = n % 2 ^ 32) ∧
          MbKept s { t with flash := s.flash, clsBytes := s.clsBytes } m oors)) ∧
    (MbAccepted s m 0x52 → let off := (arg 0).toNat; let d := bytesOfWords ((List.range (s.reqNarg m - 1)).map fun i => arg (1 + i))
      ((s.hostFn 6 = false ∨ off < 0x2000 ∨ s.flashSize < off + d.length) → Completes (.flashblk m) s fun t => gives t 2 []) ∧
      (s.hostFn 6 = true → 0x2000 ≤ off → off + d.length ≤ s.flashSize → Completes (.flashblk m) s fun t => MbDone s t m 0 [] ∧
        (∀ i < d.length, spGet zeroB t.flash (off + i) = nth 0 d i) ∧ MbKept s { t with flash := s.flash } m [])) ∧
    (MbAccepted s m 0x53 → let o := (arg 0).toNat; let v := (arg 1).toNat + 2 ^ 24 * fld (arg 2) 7 0
      ((o ≠ 36 ∧ o ≠ 40 ∧ o ≠ 44 ∧ o ≠ 48 ∧ o ≠ 52 ∨ o = 36 ∧ 2 ≤ v) → Completes (.flashdir m) s fun t => gives t 2 []) ∧
      ((o = 40 ∨ o = 44 ∨ o = 48 ∨ o = 52) → Completes (.flashdir m) s fun t => MbDone s t m 0 [] ∧ t.dirField o = v ∧ t.dirGood 0 = true ∧
        t.dirGood 0x1000 = true ∧ MbKept s { t with flash := s.flash } m [])) ∧
    (∀ ok : Bool, MbAccepted s m 0x58 → let h := s.imageWords (arg 0) 80; let n := (arg 1).toNat
      let fits := argAt h 0 == 0x435A4B && decide (3 * (80 + (argAt h 1).toNat) ≤ n) && fld (argAt h 2) 23 16 == fld s.cae.abi 23 16
      (fits = false → Completes (.fwstage m ok) s fun t => orRead t 2) ∧
      (fits = true → ok = false → Completes (.fwstage m ok) s fun t => orRead t 4) ∧
      (fits = true → ok = true → Completes (.fwstage m ok) s fun t => MbDone s t m 0 [argAt h 6, argAt h 2] ∧
        t.cae = { s.cae with staged := some (2048 * (arg 0).toNat, n, argAt h 6, argAt h 2) } ∧ MbKept s { t with cae := s.cae, clsBytes := s.clsBytes } m oors)) ∧
    (MbAccepted s m 0x59 → let duplex := s.alive 0 && s.alive 1 && s.role 0 == 1 && s.role 1 == 1
      (s.cae.staged = none → Completes (.fwrelay m) s fun t => gives t 2 []) ∧
      (s.cae.staged ≠ none → (s.cae.relay ≠ 0 ∨ duplex = false) → Completes (.fwrelay m) s fun t => gives t 1 []) ∧
      (s.cae.staged ≠ none → s.cae.relay = 0 → duplex = true → s.coreBusy 1 = true → Completes (.fwrelay m) s fun t => t.mbPhase m = 3 ∧
        t.mboxes[m].hold = .relay ∧ t.cae.relay = 1 ∧ t.role 0 = 1 ∧ t.role 1 = 1) ∧
      (s.cae.staged ≠ none → s.cae.relay = 0 → duplex = true → s.coreBusy 1 = false → Completes (.fwrelay m) s fun t => t.mbPhase m = 3 ∧ t.mboxes[m].hold = .relay ∧
        t.role 0 = 2 ∧ t.role 1 = 3 ∧ t.alive 1 = false ∧ t.cae.relay = 2 ∧
        ∀ c : Ctx, s.cae.ctxs[c].st ≠ 0 → s.cae.ctxs[c].core = 1 → t.cae.ctxs[c].core = 0 ∧ t.cae.ctxs[c].st = s.cae.ctxs[c].st)) ∧
    (MbAccepted s m 0x61 → ∀ f : Fin 8, fld (arg 0) 2 0 = f.val → let mask := fld (arg 0) 23 16; let want := bit (arg 0) 3; let x := s.cae.split[f]
      let answers := fun (t : State) (now : Bool) (ep : Word) => MbDone s t m 0 [wd (b2n now * 2 ^ 23), ep] ∧
        (∀ e : Fin 8, e ≠ f → t.cae.split[e] = s.cae.split[e]) ∧ MbKept s { t with cae := { t.cae with split := s.cae.split } } m []
      (headBound f.val = true → ((List.range 8).any fun h => mask.testBit h && s.heads[Fin.ofNat 8 h].configured) = false →
        Completes (.splitset m) s fun t => gives t 2 []) ∧
      (headBound f.val = false → x.mode.getLsbD 0 = want → x.pend = 0 → Completes (.splitset m) s fun t => gives t 0 [0x800000, 0]) ∧
      (headBound f.val = false → f.val ≠ 3 → f.val ≠ 5 → s.anyRunning = false → (∀ h : Head, s.running h.val = false) →
        Completes (.splitset m) s fun t => answers t true 0 ∧ t.cae.split[f].mode.getLsbD 0 = want ∧ t.cae.split[f].pend = 0)) ∧
    (MbAccepted s m 0x70 → ∀ c : Ctx, c.val ≠ 0 → arg 0 = wd c.val → let h := s.imageWords (arg 1) 80
      let body := (s.imageWords (arg 1) (80 + (argAt h 1).toNat)).drop 80
      let pub := bytesOfWords ((h.drop 16).take 32)
      let need := fld (argAt h 2) 23 16
      (appletFits h (arg 2).toNat = false → Completes (.appload m) s fun t => orRead t 2) ∧
      (appletFits h (arg 2).toNat = true → s.slotHolds (argAt h 5).toNat pub = false → Completes (.appload m) s fun t => orRead t 3) ∧
      (appletFits h (arg 2).toNat = true → s.slotHolds (argAt h 5).toNat pub = true →
        (s.cae.ctxs[c].st ≠ 0 ∨ s.freePages.length < need ∨ 400 < s.budgets + fld (argAt h 2) 15 0) → Completes (.appload m) s fun t => orRead t 6) ∧
      (appletFits h (arg 2).toNat = true → s.slotHolds (argAt h 5).toNat pub = true → s.cae.ctxs[c].st = 0 → need ≤ s.freePages.length →
        s.budgets + fld (argAt h 2) 15 0 ≤ 400 → ecdsaVerify pub (bytesOfWords (h.take 48 ++ body)) (bytesOfWords (h.drop 48)) = true →
        Completes (.appload m) s fun t => MbDone s t m 0 [] ∧ t.cae.ctxs[c].st = 1 ∧ t.cae.ctxs[c].pages = s.freePages.take need ∧
          t.cae.ctxs[c].budget = fld (argAt h 2) 15 0 ∧ (∀ i < body.length, t.rd (aSram (0x40000 + pageWord (s.freePages.take need) i)) = nth 0 body i) ∧
          (∀ d : Ctx, d ≠ c → t.cae.ctxs[d] = s.cae.ctxs[d]) ∧
          MbKept s { t with cae := s.cae, clsBytes := s.clsBytes } m
            (oors ++ (List.range body.length).map fun i => aSram (0x40000 + pageWord (s.freePages.take need) i))))

/-! ### Integrity and repair -/

/-- Self-repair's steps (R275, R278, R279, R281, R282, R284, R286, R291). A page rebuild of a word with several wrong bits counts in RB and
writes the word back while its page has at most four such words, and otherwise counts in UE with the integrity event; both are
logged. A remap takes the next spare of its macro, appends a record to flash and counts in the ledger, its word keeping its
value; the seventeenth of a macro is refused, counted in RMFULL with the event. The checker tests leave every region's counters and log
clear and ENGFAIL with the engines whose test failed or a record names. -/
def Obligations.RepairSteps : Prop :=
  ∀ (s : State) (r : Region) (a : BitVec 22), let R := aRegion r.val
    let held := ((List.range 16).filter fun i => s.fget (R (0x10 + 2 * i)) 23 22 ≠ 0).length
    let errWords := R 0 :: R 1 :: R 2 :: (List.range 0x20).map fun i => R (0x10 + i)
    let logged := fun (t : State) (kind bitNo : Nat) => t.rd (R (0x10 + 2 * min held 15)) = wd (kind * 2 ^ 22 + a.toNat) ∧
      t.rd (R (0x11 + 2 * min held 15)) = wd (bitNo * 2 ^ 19 + s.pow.seconds % 2 ^ 19) ∧
      t.fget (R 1) 15 8 = (if held = 16 then min 255 (s.fget (R 1) 15 8 + 1) else s.fget (R 1) 15 8) ∧
      t.fget (R 0) 23 12 = s.fget (R 0) 23 12 ∧ WordsKept s t errWords ∧ t = { s with ws := t.ws, hw := t.hw, pcie := t.pcie, repair := t.repair } ∧
      t.repair = { s.repair with bad := t.repair.bad, due := s.repair.due ++ if s.repair.due.contains (r.val, a.toNat) then [] else [(r.val, a.toNat)] }
    ((∀ b, s.badAt r.val a.toNat = some b → b.count < 2) → Completes (.pageRebuild r a) s fun t => t = s) ∧
    (∀ b, s.badAt r.val a.toNat = some b → 2 ≤ b.count → Completes (.pageRebuild r a) s fun t =>
      if s.erasures r.val (a.toNat / 256) ≤ 4 then logged t 2 31 ∧ t.fget (R 0) 11 0 = min 4095 (s.fget (R 0) 11 0 + 1) ∧ NoEvent s t ∧
        t.repair.bad = s.repair.bad.filter fun x => !(x.region == r.val && x.addr == a.toNat)
      else logged t 3 31 ∧ t.fget (R 1) 23 16 = min 255 (s.fget (R 1) 23 16 + 1) ∧ EventRaised s t 37 [] ∧ t.repair.bad = s.repair.bad) ∧
    (let g := a.toNat / 4096; let used := s.remapsIn r.val g; let due := s.repair.due.filter fun e => e != (r.val, a.toNat)
      (16 ≤ used → Completes (.remap r a) s fun t => t.fget (R 1) 7 0 = min 255 (s.fget (R 1) 7 0 + 1) ∧ EventRaised s t 37 [] ∧
        WordsKept s t [R 1] ∧ t = { s with ws := t.ws, hw := t.hw, pcie := t.pcie, repair := { s.repair with due := due } }) ∧
      (used < 16 → s.badAt r.val a.toNat = none → Completes (.remap r a) s fun t =>
        t.repair = { s.repair with remaps := s.repair.remaps ++ [{ region := r.val, group := g, spare := used, word := a.toNat % 4096 }], due := due } ∧
        t.fget (R 7) 23 12 = (((t.repair.remaps.filter fun m => m.region == r.val).length) % 4096) ∧
        t.cae.records = s.cae.records ++ [wd (3 * 2 ^ 20 + r.val * 2 ^ 13 + g % 256), wd (used * 2 ^ 12 + a.toNat % 4096)] ∧
        t.cae.recGen = s.cae.recGen + 1 ∧ (t.ledger 15).toNat = min 0xFFFFFF ((s.ledger 15).toNat + 1) ∧ NoEvent s t ∧
        WordsKept s t [R 7] ∧ t = { s with ws := t.ws, repair := t.repair, cae := t.cae, flash := t.flash })) ∧
    (∀ bad : List Region, (s.start ≠ .trained → Completes (.checkerTest bad) s fun t => t = s) ∧
      (s.start = .trained → Completes (.checkerTest bad) s fun t => t.start = .checked ∧
        (∀ q : Region, (∀ i < 6, t.rd (aRegion q.val i) = 0) ∧ ∀ i < 0x20, t.rd (aRegion q.val (0x10 + i)) = 0) ∧
        (∀ e < 66, t.engFailed e = (s.engFailed e || (bad.any fun q => q.val == e + 25) ||
          s.records.any fun x => fld x.1 23 20 == 2 && fld x.1 6 0 == e)) ∧
        ((bad.any fun q => decide (q.val < 25)) = true → t.evFlag 37 = true) ∧
        (∀ h n : Fin 8, t.slotEn h.val n.val = s.slotEn h.val n.val ∧
          (t.engOf h.val n.val = s.engOf h.val n.val ∨ s.engOf h.val n.val = 8 * h.val + n.val ∧ t.engFailed (8 * h.val + n.val) = true ∧
            t.engFailed (t.engOf h.val n.val) = false)) ∧
        WordsKept s t ((List.range (91 * 0x40)).map (fun i => aRegion 0 i) ++ [aRot 2, aRot 4, aRot 5, aRot 6] ++
          (List.range 64).map fun i => aHead (i / 8) (0x10 + i % 8)) ∧
        t.heads = s.heads ∧ t.engines = s.engines ∧ t.dram = s.dram))

/-- Rotation testing (R284 to R286). A rotation begins when EN is 1, none runs, some engine serves an enabled slot of a running head
and the pool has an engine: X is the lowest-numbered such engine from the last one tested on, or the lowest of all, Y the lowest of the pool, and STEP is
1; otherwise nothing happens. An engine that fails its self-test is marked failed in ENGFAIL, the records and the ledger, once, BISTFAIL
counts it, and the rotation ends; X's passing test leads from step 3 to step 4; a mirror's passing test repeats its step once, and
then marks the serving engine failed and goes on from step 2. -/
def Obligations.RotationSteps : Prop :=
  ∀ (s : State),
    let live := fun (x h n : Nat) => h < 8 ∧ n < 8 ∧ s.running h = true ∧ n < s.fget (aHead h 0x18) 23 20 ∧ s.slotEn h n = true ∧ s.engOf h n = x
    let rotates := s.bget (aRot 0) 23 && s.rotStep == 0 && !s.liveEngines.isEmpty && !s.pool.isEmpty
    let moves := fun (t : State) (step : Nat) (retry : Bool) => t.rotStep = step ∧ t.fget (aRot 1) 20 0 = s.fget (aRot 1) 20 0 ∧
      t.repair = { s.repair with testing := none, mirror := false, rotRetry := retry }
    let failed := fun (t : State) (e : Nat) => t.engFailed e = true ∧ (∀ f < 66, f ≠ e → t.engFailed f = s.engFailed f) ∧
      (s.engFailed e = true → t.cae = s.cae ∧ t.fuses = s.fuses) ∧ (s.engFailed e = false →
        t.cae.records = s.cae.records ++ [wd (2 * 2 ^ 20 + e)] ∧ (t.ledger 14).toNat = min 0xFFFFFF ((s.ledger 14).toNat + 1))
    let keeps := fun (t : State) (A : List Nat) => WordsKept s t (aRot 1 :: A) ∧ t.heads = s.heads ∧ t.engines = s.engines ∧ t.dram = s.dram
    (rotates = false → Completes .rotation s fun t => t = s) ∧
    (rotates = true → Completes .rotation s fun t => let x := t.fget (aRot 1) 20 14; let h := t.repair.rotHead; let n := t.repair.rotSlot
      t.rotStep = 1 ∧ live x h n ∧ s.pool.head? = some (t.fget (aRot 1) 13 7) ∧ t.repair.lastTested = x + 1 ∧
      (∀ g < 8, ∀ m < 8, ∀ y < 128, live y g m → (s.repair.lastTested ≤ y → s.repair.lastTested ≤ x ∧ x ≤ y) ∧ (x < s.repair.lastTested → x ≤ y)) ∧
      WordsKept s t [aRot 1] ∧ t = { s with ws := t.ws, repair := t.repair } ∧ t.repair.bad = s.repair.bad ∧ t.repair.remaps = s.repair.remaps) ∧
    (s.repair.testing = none → ∀ pass, Completes (.selfTestComplete pass) s fun t => t = s) ∧
    ∀ e < 66, s.repair.testing = some e → let x := s.fget (aRot 1) 20 14; let other := if x = e then s.fget (aRot 1) 13 7 else x
      (Completes (.selfTestComplete false) s fun t => moves t 0 false ∧ failed t e ∧ t.fget (aRot 2) 7 0 = min 255 (s.fget (aRot 2) 7 0 + 1) ∧
        t.fget (aRot 2) 23 8 = s.fget (aRot 2) 23 8 ∧ keeps t [aRot 2, aRot (4 + e / 24)]) ∧
      (s.rotStep = 3 → Completes (.selfTestComplete true) s fun t => moves t (if s.engFailed e then 0 else 4) false ∧ keeps t [] ∧ NoEvent s t ∧ t.cae = s.cae) ∧
      (s.rotStep ≠ 3 → s.repair.rotRetry = false → Completes (.selfTestComplete true) s fun t => moves t s.rotStep true ∧ keeps t [] ∧ NoEvent s t ∧ t.cae = s.cae) ∧
      (s.rotStep ≠ 3 → s.repair.rotRetry = true → other < 66 → Completes (.selfTestComplete true) s fun t =>
        moves t 2 false ∧ failed t other ∧ keeps t [aRot (4 + other / 24)])

/-- The availability ledger (R294, R296, R297). A millisecond of the reference raises the uptime, and every thousandth the always-on
seconds. While Caeruno runs, a millisecond in the device's states and with no frame in progress is decided when it ends: planned in
MAINT; else counted in LIVE and SAFE; and unavailable in SAFE or with a cause. After a reset from LIVE every millisecond counts as unavailable under
cause 11 until LIVE is entered again. LEDGER_WRITE puts the 64 words into the flash region that the directory names (log
entries 37 and 38 say how this model reads what R297 leaves open). -/
def Obligations.LedgerSteps : Prop :=
  ∀ (s : State), let runs := s.start != .reset && s.start != .fused
    let c48 := fun (u : State) (i : Nat) => (u.ledger i).toNat + 2 ^ 24 * (u.ledger (i + 1)).toNat
    let up := fun (t : State) (i : Nat) (yes : Bool) => c48 t i = (c48 s i + b2n yes) % 2 ^ 48
    let sat := fun (t : State) (i : Nat) (yes : Bool) => (t.ledger i).toNat = min 0xFFFFFF ((s.ledger i).toNat + b2n yes)
    let keeps := fun (t : State) => t = { s with cae := t.cae, stile := t.stile, pow := t.pow } ∧ t.cae.uptime = s.cae.uptime + 1 ∧
      t.cae.grants = s.cae.grants ∧ t.cae.records = s.cae.records ∧ t.pow.st = s.pow.st ∧
      t.pow.seconds = (if (s.cae.uptime + 1) % 1000 = 0 then s.pow.seconds + 1 else s.pow.seconds)
    (s.pow.st = .keep → s.pow.emulated = false → Completes .ledgerTick s fun t => t = s) ∧
    (¬ (s.pow.st = .keep ∧ s.pow.emulated = false) →
      (Completes .ledgerTick s keeps) ∧
      (runs = false → (s.cae.uptime + 1) % 1000 ≠ 0 → Completes .ledgerTick s fun t => t.cae.ledger = s.cae.ledger ∧ t.cae.msOpen = s.cae.msOpen) ∧
      (runs = true → (s.cae.uptime + 1) % 1000 ≠ 0 → s.cae.wasLive = true → s.dev ≠ .live → Completes .ledgerTick s fun t =>
        up t 0 true ∧ up t 2 true ∧ up t 4 false ∧ sat t 11 true ∧ (∀ i, i ∈ [6, 7, 8, 9, 10, 12, 13, 14, 15, 16, 17] → sat t i false)) ∧
      (∀ m, s.cae.msOpen = [m] → runs = true → (s.cae.uptime + 1) % 1000 ≠ 0 → (s.cae.wasLive = false ∨ s.dev = .live) → m.wait = 0 → m.recs = [] →
        Completes .ledgerTick s fun t =>
          let maint := m.maint || s.dev == .maint; let live := m.live || s.dev == .live; let safe := m.safe || s.dev == .safe
          let planned := maint || (m.planned && m.cause == 0)
          let counted := !planned && (live || safe)
          up t 4 planned ∧ up t 0 counted ∧ up t 2 (counted && (safe || m.cause != 0)) ∧ sat t 11 (counted && (safe || m.cause.getLsbD 5)) ∧
          (∀ i < 5, sat t (6 + i) (counted && m.cause.getLsbD i)) ∧ t.cae.msOpen.length = 1)) ∧
    ((runs = false ∨ s.dirField 52 < 192) → Completes .ledgerWrite s fun t => t = s) ∧
    (runs = true → 192 ≤ s.dirField 52 → Completes .ledgerWrite s fun t => t = { s with flash := t.flash } ∧
      let a := s.dirField 48
      (∀ i < 64, ∀ k < 3, spGet zeroB t.flash (a + 3 * i + k) = BitVec.ofNat 8 ((s.ledger i).toNat / 256 ^ k)) ∧
      ∀ x, (x < a ∨ a + 192 ≤ x) → spGet zeroB t.flash x = spGet zeroB s.flash x)

/-! ### Registers, the host's windows and its events -/

/-- Reads and writes of warden registers (R2, R7 to R10, R29, R50, R240, R279, R392, R393). A write by a requester with rights gives each field of
a plain register what its access type says: RW takes the value, W1C bits written 1 clear, the rest keeps; where a head's queue has written the word in
the same cycle, what the queue wrote stands. A read returns every field but the
write-only ones and clears the read-to-clear ones. A disabled block reads 0 and ignores writes; an access without rights is an access fault and
changes no register but the core's fault count. EPOCHL read loads the requester's shadow of EPOCHH. The log's clear, the stimulus ports and the
virtual terminal's words act as their rules say. -/
def Obligations.RegisterAccesses : Prop :=
  ∀ (s : State) (r : Requester) (a : Word) (v : BitVec 64), Sound s → let A := a.toNat; let l := locOf A; let w : Word := v.setWidth 24
    let faulted := fun (t : State) => t.rfault = true ∧ WordsKept s t [aCore 0 5, aCore 1 5] ∧ t.heads = s.heads ∧ t.pads = s.pads ∧ t.dram = s.dram
    (∀ x ∈ s.cycNow, LaterWrite s (whoOf r) 0 A x → plainReg l = true → beamWritable l = true → s.locOff l = false → s.mayWrite r l = true →
      Completes (.registerWrite (.warden r a) v) s fun t => (∀ f ∈ fieldsOf l, f.acc = .rw → fld (t.rd A) f.hi f.lo = fld x.value f.hi f.lo) ∧
        WordsKept s t [A] ∧ t = { s with ws := t.ws, rfault := false, cyc := t.cyc, cycAt := t.cycAt }) ∧
    (s.cycNow = [] → plainReg l = true → s.locOff l = false → s.mayWrite r l = true → Completes (.registerWrite (.warden r a) v) s fun t =>
      (∀ f ∈ fieldsOf l, fld (t.rd A) f.hi f.lo = (match f.acc with
        | .rw => fld w f.hi f.lo | .w1c => fld (s.rd A &&& ~~~w) f.hi f.lo | _ => s.fget A f.hi f.lo)) ∧
      WordsKept s t [A] ∧ t = { s with ws := t.ws, rfault := false }) ∧
    (plainReg l = true → s.locOff l = false → s.mayRead r l = true → Completes (.rcRead (.warden r a)) s fun t =>
      (∀ f ∈ fieldsOf l, fld t.rdata f.hi f.lo = (match f.acc with | .wo => 0 | _ => s.fget A f.hi f.lo) ∧
        fld (t.rd A) f.hi f.lo = (match f.acc with | .rc => 0 | _ => s.fget A f.hi f.lo)) ∧
      WordsKept s t [A] ∧ t = { s with ws := t.ws, rdata := t.rdata, rfault := false }) ∧
    (plainRoute l = true → s.locOff l = true →
      (Completes (.registerWrite (.warden r a) v) s fun t => t = { s with rfault := false }) ∧
      Completes (.rcRead (.warden r a)) s fun t => t = { s with rdata := 0, rfault := false }) ∧
    (plainRoute l = true → s.locOff l = false → s.mayWrite r l = false → Completes (.registerWrite (.warden r a) v) s faulted) ∧
    (plainRoute l = true → s.locOff l = false → s.mayRead r l = false → Completes (.rcRead (.warden r a)) s fun t => faulted t ∧ t.rdata = 0) ∧
    (∀ h : Head, s.headOff h.val = false → s.mayRead r (.head h.val 0x0A) = true → Completes (.epochlRead r h) s fun t =>
      t.rdata = s.rd (aHead h.val 0x0A) ∧ t = { s with rdata := t.rdata, rfault := false, shadows := t.shadows } ∧
      Completes (.rcRead (.warden r (wd (aHead h.val 0x0B)))) (t.wr (aHead h.val 0x0B) w) fun u => u.rdata = s.rd (aHead h.val 0x0B)) ∧
    (∀ g : Region, s.mayWrite r (.region g.val 2) = true → Completes (.logClear r g) s fun t => t.fget (aRegion g.val 2) 4 0 = 0 ∧
      (∀ i < 0x20, t.rd (aRegion g.val (0x10 + i)) = 0) ∧ t = { s with ws := t.ws, rfault := false } ∧
      WordsKept s t (aRegion g.val 2 :: (List.range 0x20).map fun i => aRegion g.val (0x10 + i))) ∧
    (∀ n : Fin 32, s.mayWrite r (.stim n.val) = true → s.stile.lost = 0 →
      ((bit (s.stRd 0x11) 21 = false ∨ s.tracing = false) → Completes (.stimulusWrite r n w) s fun t => t = { s with rfault := false }) ∧
      (bit (s.stRd 0x11) 21 = true → s.tracing = true → s.stile.trace.length + 3 ≤ 16384 → Completes (.stimulusWrite r n w) s fun t =>
        let c := match r with | .core _ c => c.val | _ => 0
        t = { s with rfault := false, stile := { s.stile with trace := s.stile.trace ++ [wd (2 ^ 20 + n.val * 2 ^ 12 + c * 2 ^ 6), wd s.sclk, w] } })) ∧
    (bit (s.stRd 0x1A) 22 = false → Completes (.vtoutcWrite w) s fun t => t.stile = { s.stile with vtout := w } ∧ t.stRd 0x1A = putBit (s.stRd 0x1A) 22 true ∧
      StileKept s t [0x1A] ∧ t = { s with stileRegs := t.stileRegs, stile := t.stile }) ∧
    (bit (s.stRd 0x1A) 22 = true → Completes (.vtoutcWrite w) s fun t => fld (t.stRd 0x1A) 7 0 = min 255 (fld (s.stRd 0x1A) 7 0 + 1) ∧
      StileKept s t [0x1A] ∧ t = { s with stileRegs := t.stileRegs }) ∧
    Completes .vtincRead s fun t => t.rdata = s.stile.vtin ∧ t.stRd 0x1A = putBit (s.stRd 0x1A) 23 false ∧ StileKept s t [0x1A] ∧
      t = { s with stileRegs := t.stileRegs, rdata := t.rdata, rfault := false }

/-- The host window (R2, R356, R358, R359, R361 to R363). A write that is not one aligned word, or whose code is wrong while CHKW is 1, changes nothing but BADWR,
and raises the host event: its flag and count, and, from a flag at 0, one message, sent at once or left pending. An accepted write sets
the masks, and clears the event flags (with their pending messages) and cause bits written 1. A read returns the value with its CRC-8 above
it; reading a count clears it. A pending message is sent once its masks are open and its flag is 1. While the function is in reset, or the device is in
Keep, no access arrives. -/
def Obligations.HostWindow : Prop :=
  ∀ (s : State) (off : BitVec 12) (v : BitVec 64),
    let w : Word := v.setWidth 24
    let good := !bit (s.hwRd 0x004) 23 || checkCode w == BitVec.ofNat 8 (v.toNat / 2 ^ 24)
    let same := fun (t : State) => t = s
    let write := fun (P : State → Prop) => Completes (.registerWrite (.bar0 off 4) v) s P
    let kept := fun (t : State) (A : List Nat) => HostKept s t A ∧ t = { s with hw := t.hw, pcie := t.pcie }
    (s.hostGone = true → write same ∧ Completes (.rcRead (.bar0 off 4)) s same ∧ Completes (.registerWrite .msixCtl v) s same) ∧
    (s.hostGone = false →
      (∀ size, off.toNat < 0x1E0 → (size ≠ 4 ∨ off.toNat % 4 ≠ 0 ∨ good = false) → Completes (.registerWrite (.bar0 off size) v) s fun t =>
        fld (t.hwRd 0x00C) 23 16 = min 255 (fld (s.hwRd 0x00C) 23 16 + 1) ∧ kept t (evRegs 43 ++ [0x00C]) ∧ t.evFlag 43 = true ∧
        fld (t.hwRd 0x118) 15 8 = min 255 (fld (s.hwRd 0x118) 15 8 + 1) ∧
        (s.evFlag 43 = true → t.pcie = s.pcie) ∧
        (s.evFlag 43 = false → s.msixOpen 43 = true → t.pcie = { s.pcie with sent := s.pcie.sent ++ [43] }) ∧
        (s.evFlag 43 = false → s.msixOpen 43 = false → t.pcie = { s.pcie with pending := s.pcie.pending ||| (1 <<< 43) })) ∧
      (good = true →
        (0x0AC ≤ off.toNat → off.toNat ≤ 0x0B4 → off.toNat % 4 = 0 → write fun t => kept t [off.toNat] ∧ t.pcie = s.pcie ∧
          t.hwRd off.toNat = if off.toNat = 0x0B4 then (s.hwRd off.toNat &&& 0xFF0000) ||| (w &&& 0x00FFFF) else w) ∧
        (0x0A0 ≤ off.toNat → off.toNat ≤ 0x0A8 → off.toNat % 4 = 0 → write fun t => kept t [off.toNat] ∧
          (∀ n : Fin 64, let hit := n.val / 24 == off.toNat / 4 - 0x28 && bit w (n.val % 24)
            t.evFlag n.val = (s.evFlag n.val && !hit) ∧ (hit = true → t.pcie.pending.getLsbD n.val = false) ∧
            (n.val / 24 ≠ off.toNat / 4 - 0x28 → t.pcie.pending.getLsbD n.val = s.pcie.pending.getLsbD n.val)) ∧ t.pcie.sent = s.pcie.sent) ∧
        (0x0B8 ≤ off.toNat → off.toNat ≤ 0x0D0 → off.toNat % 4 = 0 → write fun t => kept t [off.toNat] ∧ t.pcie = s.pcie ∧
          ∀ f ∈ hwFields off.toNat, fld (t.hwRd off.toNat) f.hi f.lo = fld (s.hwRd off.toNat &&& ~~~w) f.hi f.lo)) ∧
      (off.toNat % 4 = 0 → off.toNat < 0x1E0 → Completes (.rcRead (.bar0 off 4)) s fun t => let x : Word := BitVec.ofNat 24 (ofBytesLE t.pcie.rdata)
        t.pcie = { s.pcie with rdata := bytesLE 4 (x.toNat + 2 ^ 24 * (checkCode x).toNat), rpoison := false } ∧
        (off = 0 → x = s.identity) ∧ (∀ f ∈ hwFields off.toNat, f.acc ≠ .wo → off.toNat ≠ 0 → off.toNat ≠ 8 → fld x f.hi f.lo = fld (s.hwRd off.toNat) f.hi f.lo) ∧
        (0x0E0 ≤ off.toNat → off.toNat < 0x138 → ∀ f ∈ hwFields off.toNat, fld (t.hwRd off.toNat) f.hi f.lo = 0) ∧
        HostKept s t [off.toNat] ∧ t = { s with ws := t.ws, hw := t.hw, pcie := t.pcie }) ∧
      Completes (.registerWrite .msixCtl v) s fun t => t = { s with pcie := { s.pcie with msixOn := v.getLsbD 31, funcMask := v.getLsbD 30 } }) ∧
    ∀ n : Fin 64, let go := s.pcie.pending.getLsbD n.val && s.evFlag n.val && s.msixOpen n.val
      (go = false → Completes (.msixMessage n) s same) ∧
      (go = true → Completes (.msixMessage n) s fun t => t.pcie.sent = s.pcie.sent ++ [n.val] ∧ t.pcie.pending.getLsbD n.val = false ∧
        (∀ m : Fin 64, m ≠ n → t.pcie.pending.getLsbD m.val = s.pcie.pending.getLsbD m.val) ∧
        t = { s with pcie := { s.pcie with sent := t.pcie.sent, pending := t.pcie.pending } })

/-- The aperture (R130, R133, R134, R137, R357, R358). DRAM and Lark memory are read and written at any size: a read of DRAM asks for its units in
class 4, and completes with the bytes addressed when they have come; a write joins the writes of its channels, and a read accepted after it sees
its bytes; beyond the capacity a read completes with zeros, counted with the DRAM event; a warden word of the ranges is read with its
check code, and written by one aligned write of four bytes whose code, while CHKW is 1, is good. An access outside the ranges, to part of a
word or of a read-only range, or with a wrong code, counts in APFAULT and raises the host event; read, it returns 0; written, it is
discarded. -/
def Obligations.ApertureAccesses : Prop :=
  ∀ (s : State) (off : BitVec 36) (d : List Byte), Sound s → s.hostGone = false → s.pow.st ≠ .rest → let o := off.toNat; let n := d.length
    let a := o / 4 - 2 ^ 33
    let refused := fun (t : State) => fld (t.hwRd 0x00C) 15 8 = min 255 (fld (s.hwRd 0x00C) 15 8 + 1) ∧ EventRaised s t 43 [0x00C] ∧
      t = { s with hw := t.hw, pcie := t.pcie }
    (1 ≤ n → o + n ≤ s.dramCap → o + n ≤ 2 ^ 35 → (∀ i < 8, s.bget (aDram (0x10 + 3 * i)) 0 = false) →
      (Completes (.apertureRead off n) s fun t => t.dreads = s.dreads ++ [{ user := .host, off := o, len := n, wait := unitsOf o n, got := [] }] ∧
        (∀ u ∈ unitsOf o n, (t.chans[s.chanOf (32 * u)].reads.any fun r => r.user == .host && r.unit == u && r.cls == 4 && r.data == s.unitNow u) = true) ∧
        (∀ c : Chan, t.chans[c].writes = s.chans[c].writes ∧ t.chans[c].waiting = s.chans[c].waiting) ∧
        WordsKept s t ((List.range 4).map fun c => aChan c 2) ∧ t = { s with ws := t.ws, chans := t.chans, dcyc := t.dcyc, dreads := t.dreads }) ∧
      (FreshCycle s → Completes (.apertureWrite off d) s fun t => t = { s with chans := t.chans, dcyc := t.dcyc } ∧
        (∀ i < n, t.nowBytes (o + i) 1 = [nth 0 d i]) ∧ ∀ x, (x < o ∨ o + n ≤ x) → t.nowBytes x 1 = s.nowBytes x 1)) ∧
    (1 ≤ n → s.dramCap ≤ 32 * (o / 32) → o + n ≤ 2 ^ 35 → Completes (.apertureRead off n) s fun t =>
      t.pcie.rdata = List.replicate n 0 ∧ t.pcie.rpoison = false ∧ t.evFlag 34 = true ∧ HostKept s t (evRegs 34) ∧
      WordsKept s t ((List.range 4).map fun c => aChan c 1) ∧ t = { s with ws := t.ws, hw := t.hw, pcie := t.pcie }) ∧
    (∀ c : Chan, ∀ r, s.chans[c].reads.find? (·.issued) = some r → ∀ x, s.dreads = [x] → r.user = .host → x.user = .host → x.wait = [r.unit] →
      x.got = [] → r.chk = false → r.merge = false → s.checkAddr (32 * r.unit) = none → x.off / 32 = r.unit → x.off % 32 + x.len ≤ 32 →
      1 ≤ x.len → Completes (.dramReadComplete c .good) s fun t => t.dreads = [] ∧
        t.pcie = { s.pcie with rdata := (r.data.drop (x.off % 32)).take x.len, rpoison := false }) ∧
    (0x810000000 ≤ o → o + n ≤ 0x810100000 →
      (Completes (.apertureRead off n) s fun t => t = { s with pcie := { s.pcie with
        rdata := (List.range n).map (fun i => spGet zeroB s.larkMem (o - 0x810000000 + i)), rpoison := false } }) ∧
      Completes (.apertureWrite off d) s fun t => t = { s with larkMem := t.larkMem } ∧ (∀ i < n, spGet zeroB t.larkMem (o - 0x810000000 + i) = nth 0 d i) ∧
        ∀ x, (x < o - 0x810000000 ∨ o - 0x810000000 + n ≤ x) → spGet zeroB t.larkMem x = spGet zeroB s.larkMem x) ∧
    (0x800000000 ≤ o → plainReg (locOf a) = true → o % 4 = 0 → n = 4 → s.locOff (locOf a) = false →
      let v := BitVec.ofNat 32 (ofBytesLE d)
      (apWord a ≠ none → Completes (.apertureRead off n) s fun t => t.pcie.rdata = bytesLE 4 ((s.rd a &&& maskOf (fun c => c != .wo) (fieldsOf (locOf a))).toNat +
          2 ^ 24 * (checkCode (s.rd a &&& maskOf (fun c => c != .wo) (fieldsOf (locOf a)))).toNat) ∧ t.pcie.rpoison = false ∧
        t = { s with pcie := t.pcie, rdata := t.rdata, rfault := false }) ∧
      (apWord a = some true → (bit (s.hwRd 0x004) 23 = false ∨ checkCode (v.setWidth 24) = BitVec.ofNat 8 (v.toNat / 2 ^ 24)) →
        Completes (.apertureWrite off d) s fun t => (∀ f ∈ fieldsOf (locOf a), f.acc = .rw → t.fget a f.hi f.lo = fld (v.setWidth 24) f.hi f.lo) ∧
          WordsKept s t [a] ∧ t = { s with ws := t.ws, rfault := false }) ∧
      (apWord a = some true → bit (s.hwRd 0x004) 23 = true → checkCode (v.setWidth 24) ≠ BitVec.ofNat 8 (v.toNat / 2 ^ 24) →
        Completes (.apertureWrite off d) s refused)) ∧
    (apOf o n = .none → Completes (.apertureWrite off d) s refused ∧ Completes (.apertureRead off n) s fun t =>
      refused { t with pcie := { t.pcie with rdata := s.pcie.rdata, rpoison := s.pcie.rpoison } } ∧ t.pcie.rdata = List.replicate n 0) ∧
    (apOf o n = .words → (n ≠ 4 ∨ o % 4 ≠ 0 ∨ apWord a = some false) → Completes (.apertureWrite off d) s refused)

/-! ### Golmon links and folds -/

/-- States of a link (R330 to R335, R339, R354). EN written 1 takes a DOWN link to TRAIN; EN written 0 takes it DOWN, which counts, raises the link event,
discards its packets and frees the mailboxes it claimed; so does a training that takes 100 ms. A TS block on a locked lane numbers the lane, marks its
inversion and reports the neighbour; lanes without lock in time are bad. A shorted driver is shut down and the link retrains, as it
does to regain lanes. A non-zero PRBS value takes UP or DOWN to TEST, where bit errors count; 0 takes it back to TRAIN. Every lane in use sends ALIGN in one control
block; what the scrambler does to a payload the descrambler undoes. What a link in another state is told changes nothing. -/
def Obligations.LinkStates : Prop :=
  ∀ (s : State) (g : Link) (l : Fin 4) (r : Requester) (b : BitVec 64), let L := aLink g.val
    let st := s.linkState g
    let noop := fun (t : State) => t = s
    let down := fun (t : State) => t.linkState g = 0 ∧ t.fget (L 1) 20 17 = 0 ∧ t.bget (L 3) 23 = false ∧
      t.fget (L 6) 23 16 = min 255 (s.fget (L 6) 23 16 + 1) ∧ t.evFlag 41 = true ∧ bit (t.hwRd 0x0D0) g.val = true ∧
      t.links[g].outq = [] ∧ t.links[g].retry = [] ∧ (∀ m : Mbox, s.mbPhase m ≠ 0 → s.mbClaimant m = 8 + g.val → t.mbPhase m = 0) ∧
      (∀ k : Link, k ≠ g → t.links[k] = s.links[k]) ∧ t.dram = s.dram ∧ t.pads = s.pads
    let trains := fun (t : State) => t.linkState g = 1 ∧ t.bget (L 3) 23 = false ∧ (t.links[g].lanes.all fun x => !x.lock && x.num.isNone && !x.bad) = true ∧
      t.links[g].outq = s.links[g].outq ∧ t.links[g].retry = s.links[g].retry ∧ (∀ k : Link, k ≠ g → t.links[k] = s.links[k]) ∧ t.dram = s.dram
    let retrains := fun (t : State) => trains t ∧ t.fget (L 5) 7 0 = min 255 (s.fget (L 5) 7 0 + 1)
    s.fuses.flock = true →
    (s.mayWrite r (.link g.val 0) = true →
      (s.bget (L 0) 23 = false → st = 0 → Completes (.linkEnable r g) s fun t => trains t ∧ t.bget (L 0) 23 = true) ∧
      (s.bget (L 0) 23 = true → Completes (.linkEnable r g) s fun t => t = { s with ws := t.ws, rfault := false } ∧ WordsKept s t []) ∧
      (s.bget (L 0) 23 = true → st ≠ 0 → st ≠ 3 → Completes (.linkDisable r g) s fun t => down t ∧ t.bget (L 0) 23 = false) ∧
      (s.bget (L 0) 23 = false → Completes (.linkDisable r g) s fun t => t = { s with ws := t.ws, rfault := false } ∧ WordsKept s t []) ∧
      (∀ v : Fin 8, 1 ≤ v.val → v.val ≤ 4 → (st = 0 ∨ st = 2) → Completes (.prbsTest r g v) s fun t => t.linkState g = 3 ∧ t.fget (L 0) 20 18 = v.val ∧
        t.links[g].outq = [] ∧ t.links[g].retry = [] ∧ t.dram = s.dram) ∧
      (∀ v : Fin 8, 5 ≤ v.val → Completes (.prbsTest r g v) s fun t => t = { s with rfault := false }) ∧
      (st = 3 → s.bget (L 0) 23 = true → Completes (.prbsStop r g) s fun t => trains t ∧ t.fget (L 0) 20 18 = 0)) ∧
    (st = 3 → Completes (.prbsBitError g l) s fun t => t.fget (L (8 + l.val)) 23 0 = min 0xFFFFFF (s.fget (L (8 + l.val)) 23 0 + 1) ∧
      WordsKept s t [L (8 + l.val)] ∧ OnlyWords s t) ∧
    (st ≠ 3 → Completes (.prbsBitError g l) s noop) ∧
    (st = 1 → Completes (.trainTimeout g) s down) ∧ (st ≠ 1 → Completes (.trainTimeout g) s noop) ∧
    (st = 0 → s.bget (L 0) 23 = true → Completes (.trainRetry g) s trains) ∧
    ((st ≠ 0 ∨ s.bget (L 0) 23 = false) → Completes (.trainRetry g) s noop) ∧
    (s.linkAlive g = true → Completes (.blockLock g l) s fun t => t.links[g].lanes[l] = { s.links[g].lanes[l] with lock := true } ∧
      t = { s with links := t.links }) ∧
    (s.linkAlive g = false → Completes (.blockLock g l) s noop ∧ Completes (.ts g l b) s noop) ∧
    (st = 1 → (s.links[g].lanes.any fun x => !x.lock && !x.bad) = true → Completes (.laneLockTimeout g) s fun t =>
      t.linkState g = 1 ∨ t.linkState g = 4 ∨ t.linkState g = 2 ∧ s.links[g].peerReady = true) ∧
    (st ≠ 1 → Completes (.laneLockTimeout g) s noop) ∧
    (let inv := blkByte b 0 == 0xB4; let d := if inv then ~~~b else b
      let x := s.links[g].number l (blk d 9 8)
      st = 1 → s.links[g].lanes[l].lock = true → s.links[g].lanes[l].bad = false → blkByte d 0 = 0x4B →
      Completes (.ts g l b) s fun t => bit (t.rd (L 1)) (11 + l.val) = (inv || bit (s.rd (L 1)) (11 + l.val)) ∧ t.rd (L 2) = wd (blk d 47 24) ∧ t.fget (L 3) 22 21 = blk d 11 10 ∧
        t.links[g].lanes = x.lanes ∧ t.dram = s.dram ∧
        (let clash := s.foldSet && s.unit != 0 && wd (blk d 47 24) == s.unit
         t.linkState g = if x.decided = false then 1 else if x.rxGood = 0 then 4 else if blk d 20 20 = 0 then 1 else if clash then 4
           else if blk d 49 48 ≠ s.fget (L 0) 17 16 ∨ blk d 19 16 = 0 then 4 else 2) ∧
        (t.linkState g = 2 → t.evFlag 41 = true ∧ t.fget (L 1) 16 15 = min (s.fget (L 0) 22 21) (blk d 13 12) ∧ t.bget (L 3) 23 = true) ∧
        (t.linkState g = 4 → t.evFlag 41 = true ∧ 1 ≤ t.fget (L 1) 5 2 ∧ t.fget (L 1) 5 2 ≤ 3)) ∧
    (let here := s.isUp g && blkByte b 0 == 0x78 && s.links[g].lanes[l].num == some (blk b 9 8);
      (here = true → Completes (.align g l b) s fun t => t.links[g].peerGood.toNat = blk b 19 16 ∧ t.links[g].lanes[l].synced = true ∧
        t = { s with links := t.links }) ∧
      (here = false → Completes (.align g l b) s noop)) ∧
    (Completes (.alignSend g) s fun t => t.links[g].aligns = s.links[g].aligns + b2n (s.isUp g) ∧ t = { s with links := t.links } ∧
      (t.links[g].wire.drop s.links[g].wire.length).map (fun e => (e.1, e.2.toNat % 4)) =
        if s.isUp g then s.links[g].txLanes.map (fun n => (n, 2)) else []) ∧
    (∀ (sc : BitVec 58) (d : BitVec 64), descramble sc (scramble sc d).2 = ((scramble sc d).1, d)) ∧
    Completes (.idle g b) s noop ∧
    (s.bget (L 1) (6 + l.val) = false → s.linkAlive g = true → Completes (.txShort g l) s fun t => retrains t ∧ t.bget (L 1) (6 + l.val) = true) ∧
    ((st = 0 ∨ s.bget (L 1) (6 + l.val) = true) → Completes (.txShort g l) s noop) ∧
    (Completes (.shortRetest g l true) s noop) ∧
    (Completes (.shortRetest g l false) s fun t => t.bget (L 1) (6 + l.val) = false ∧ t.linkState g = st ∧ WordsKept s t [L 1] ∧ OnlyWords s t) ∧
    (let grows := s.isUp g && (decide (s.fget (L 1) 18 17 < widthCode (count4 s.links[g].rxGood)) || decide (s.fget (L 1) 20 19 < widthCode (count4 s.links[g].peerGood)));
      (grows = true → Completes (.laneRecovery g) s retrains) ∧ (grows = false → Completes (.laneRecovery g) s noop))

/-- Packets of a link (R330, R336 to R338, R340, R342 to R345, R347, R348, R350 to R352). On a link that is not UP no packet arrives; one whose CRC or SEQ is wrong is counted, and changes
nothing else but what is owed to the sender. A good one moves the expected SEQ on, and acts by its type: an epoch from the parent is taken, a
time request answered, a forwarded command takes the lowest free mailbox or is answered BUSY, a response completes the mailbox that waits for it, data in the inbound window is
written and acknowledged, other data refused, an acknowledgement counts units or ends the copy. What is sent goes in data
blocks, dealt to the lanes in use in turn. Reading FTIMEL shadows FTIMEH. -/
def Obligations.LinkPackets : Prop :=
  ∀ (s : State) (g : Link) (p : Packet), let x := s.links[g]
    let all : List Instr := [.epoch g p, .tsync g p, .mbreq g p, .mbrsp g p, .cpydata g p, .strdata g p, .cpyack g p, .ack g p]
    let taken := fun (t : State) => t.links[g].rxSeq = (x.rxSeq + 1) % 4096 ∧ t.links[g].gotAny = true
    let here := s.foldSet && s.route (pktDest p) == 4
    let src := payUnit p
    let back := routeLink (s.route src)
    (s.isUp g = false → ∀ c ∈ all, Completes c s fun t => t = s) ∧
    (s.isUp g = true → lenOk p = true → ((pktCrc p).toNat ≠ blk p.tail 63 32 ∨ pktSeq p ≠ x.rxSeq) →
      ∀ e : Fin 8, pktType p = [1, 2, 3, 4, 5, 7, 6, 8].getD e.val 0 → Completes (all.getD e.val (.ack g p)) s fun t =>
        t.fget (aLink g.val 5) 23 16 = min 255 (s.fget (aLink g.val 5) 23 16 + 1) ∧ WordsKept s t [aLink g.val 5] ∧
        t.links[g] = { x with nakDue := x.nakDue || !x.nakked, nakked := true } ∧ t = { s with ws := t.ws, links := t.links }) ∧
    (GoodPacket s g p 1 → Completes (.epoch g p) s fun t => taken t ∧ let e := (payBlk p 0).setWidth 48; let u := (payBlk p 1).setWidth 48
      if s.foldSet = false then t.fold = s.fold ∧ t.fget (aFold 6) 23 16 = min 255 (s.fget (aFold 6) 23 16 + 1) ∧ WordsKept s t [aFold 6]
      else if !s.topRoot && s.parent == g.val then t.fold.epoch = e ∧ t.fold.at48 = u ∧ t.fold.has = true ∧
        t.bget (aFold 2) 23 = s.bget (aFold 2) 22 ∧ ∀ l : Link, l ≠ g → s.isUp l = true → packetsLike t l (mkPacket 1 0 0 [e.setWidth 64, u.setWidth 64]) =
          packetsLike s l (mkPacket 1 0 0 [e.setWidth 64, u.setWidth 64]) + 1
      else t.fold = s.fold ∧ t.ws = s.ws) ∧
    (GoodPacket s g p 2 → s.foldSet = true → pktAux p % 2 = 0 → Completes (.tsync g p) s fun t => taken t ∧ let now := BitVec.ofNat 64 s.fold.time
      Sends s t g (mkPacket 2 0 1 [payBlk p 0, now, now]) ∧ t.fold = s.fold ∧ t.ws = s.ws) ∧
    (∀ t1 : BitVec 48, GoodPacket s g p 2 → pktAux p % 2 = 1 → s.fold.t1 = some t1 → (payBlk p 0).setWidth 48 = t1 → s.parent = g.val → s.topRoot = false → s.foldSet = true →
      let t2 := blk (payBlk p 1) 47 0; let t3 := blk (payBlk p 2) 47 0; let t4 := s.fold.time
      t1.toNat < 2 ^ 46 → t2 < 2 ^ 46 → t3 < 2 ^ 46 → t4 < 2 ^ 46 →
      let off : Int := (((t2 : Int) - (t1.toNat : Int)) - ((t4 : Int) - (t3 : Int))) / 2
      Completes (.tsync g p) s fun t => t.fold.good = (if off.natAbs ≤ 16 then min 16 (s.fold.good + 1) else 0) ∧
        (0 ≤ (t4 : Int) + clampI (-16) 16 off → (t.fold.time : Int) = (t4 : Int) + clampI (-16) 16 off) ∧
        (off.natAbs < 2 ^ 23 → sext 24 (t.rd (aFold 5)).toNat = off) ∧
        t.bget (aFold 2) 22 = (decide (off.natAbs ≤ 64) && (s.bget (aFold 2) 22 || t.fold.good == 16)) ∧ t.dram = s.dram) ∧
    (GoodPacket s g p 3 → here = true → let ws := pktWords p fun w => fld w 13 8
      (∀ m : Mbox, s.mbPhase m = 0 → (∀ k : Mbox, k.val < m.val → s.mbPhase k ≠ 0) → Completes (.mbreq g p) s fun t => taken t ∧
        t.mbPhase m = 2 ∧ t.mbClaimant m = 8 + g.val ∧ t.reqWord m 0 = nth 0 ws 0 ∧ t.reqWord m 1 = s.rd (aMbseq m.val) ∧ t.reqWord m 2 = 0 ∧
        (∀ i, 3 ≤ i → i < ws.length → t.reqWord m i = nth 0 ws i) ∧ t.dram = s.dram ∧ ∀ k : Mbox, k ≠ m → t.mbPhase k = s.mbPhase k) ∧
      ((∀ m : Mbox, s.mbPhase m ≠ 0) → ∀ l : Link, back = some l → s.linkAlive l = true → Completes (.mbreq g p) s fun t => taken t ∧ t.mboxes = s.mboxes ∧ t.ws = s.ws ∧
        Sends s t l (mbrspPacket src (blk (payBlk p 0) 39 36) [s.rspHead (fld (nth 0 ws 0) 23 16) 1 0, nth 0 ws 1, nth 0 ws 2]))) ∧
    (GoodPacket s g p 3 → s.foldSet = false → Completes (.mbreq g p) s fun t => taken t ∧ t.fget (aFold 6) 23 16 = min 255 (s.fget (aFold 6) 23 16 + 1) ∧
      t.mboxes = s.mboxes ∧ WordsKept s t [aFold 6]) ∧
    (GoodPacket s g p 4 → here = true → let ws := pktWords p fun w => fld w 5 0; let m : Mbox := Fin.ofNat 16 (blk (payBlk p 0) 39 36)
      ∀ k : Link, s.mboxes[m].hold = .forward k → nth 0 ws 1 = s.reqWord m 1 → Completes (.mbrsp g p) s fun t => taken t ∧ t.mbPhase m = 4 ∧ t.evFlag (48 + m.val) = true ∧
        (∀ i < ws.length, i < 64 → t.rd (aMbbuf m.val (0x40 + i)) = nth 0 ws i) ∧ t.dram = s.dram) ∧
    (∀ c : Bool, GoodPacket s g p (if c then 5 else 7) → here = true → ∀ l : Link, back = some l → s.linkAlive l = true →
      let u := blk (payBlk p 0) 29 0; let n := pktUnits p
      Completes (if c then .cpydata g p else .strdata g p) s fun t => taken t ∧
        if s.inWindow u n then Sends s t l (cpyackPacket s.unit src (pktChan p) 0 n) ∧ t.dram = s.dram ∧
          (32 * (u + n) ≤ s.dramCap → FreshCycle s → ∀ i < 32 * n, t.nowBytes (32 * u + i) 1 =
            [nth 0 (((p.pay.drop 1).take (4 * n)).map fun b => bytesLE 8 b.toNat).flatten i])
        else Sends s t l (cpyackPacket s.unit src (pktChan p) 2 n) ∧ t.dram = s.dram ∧ t.chans = s.chans) ∧
    (GoodPacket s g p 6 → here = true → let n : Fin 8 := Fin.ofNat 8 (pktChan p); let code := blk (payBlk p 0) 36 34
      s.copyBusy n = true → s.copies[n].flight ≠ [] → Completes (.cpyack g p) s fun t => taken t ∧
        (code ≠ 0 → t.copyBusy n = false ∧ t.fget (aCopy n.val 5) 22 20 = code ∧ EventRaised s t 41 [0x0D0] ∧ t.rd (aCopy n.val 6) = s.rd (aCopy n.val 6)) ∧
        (code = 0 → (t.rd (aCopy n.val 6)).toNat = min 0xFFFFFF ((s.rd (aCopy n.val 6)).toNat + blk (payBlk p 0) 3 0))) ∧
    (GoodPacket s g p 8 → Completes (.ack g p) s fun t => taken t ∧ t = { s with links := t.links }) ∧
    (s.isUp g = true → Completes (.ackDue g) s fun t => Sends s t g (mkPacket 8 0 0 []) ∧ t = { s with links := t.links } ∧
      (x.outq = [] → x.retry.length < 256 → let w := t.links[g].wire.drop x.wire.length
        t.links[g].sent.length = x.sent.length + 1 ∧ w.length = 2 ∧ (∀ b ∈ w, b.2.toNat % 4 = 1) ∧
        ∀ i < 2, ((w.drop i).head?.map (·.1)) = some (nth 0 x.txLanes ((Config.firstBlock x.runs + i) % x.txLanes.length)))) ∧
    (s.isUp g = false → Completes (.ackDue g) s fun t => t = s) ∧
    (Completes .epochTimeout s fun t => t.fold.has = false ∧ t.bget (aFold 2) 23 = false ∧
      t.fget (aFold 6) 15 8 = min 255 (s.fget (aFold 6) 15 8 + b2n (s.bget (aFold 2) 23)) ∧ (s.bget (aFold 2) 23 = true → EventRaised s t 42 []) ∧
      (s.bget (aFold 2) 23 = false → NoEvent s t) ∧ t.links = s.links ∧ WordsKept s t [aFold 2, aFold 6]) ∧
    (let asks := s.foldSet && !s.topRoot && s.parent == g.val && s.isUp g;
      asks = true → Completes .tsyncRequest s fun t => Sends s t g (mkPacket 2 0 0 [BitVec.ofNat 64 (s.fold.time % 2 ^ 48)]) ∧
        t.fold = { s.fold with t1 := some (BitVec.ofNat 48 s.fold.time) } ∧ t.ws = s.ws) ∧
    ((s.foldSet = false ∨ s.topRoot = true ∨ s.parentUp = false) → Completes .tsyncRequest s fun t => t = s) ∧
    ∀ r : Requester, (s.mayRead r (.fold 3) = true → Completes (.ftimelRead r) s fun t => t.rdata = wd s.fold.time ∧ t.rfault = false ∧
        (∀ v, Completes (.rcRead (.warden r (wd (aFold 4)))) { t with fold := { t.fold with time := v } } fun u => u.rdata = wd (s.fold.time / 2 ^ 24))) ∧
      (s.mayRead r (.fold 3) = false → Completes (.ftimelRead r) s fun t => t.rfault = true ∧ t.shadows = s.shadows)

/-- Copy channels (R349, R352, R353). GO on an idle channel whose destination is this device, or lies on a link that carries packets, sets BUSY, clears
CODE and DONE and asks for source units, at most 512 ahead; a stream is armed and asks for none until its head's next LINE strobe. Without such a
link the copy ends with LINK and the link event. GO on a busy channel is ignored. STOP ends a channel with nothing in flight with STOPPED, and otherwise when
what is in flight is acknowledged. -/
def Obligations.CopyChannels : Prop :=
  ∀ (s : State) (r : Requester) (n : Fin 8), s.mayWrite r (.copy n.val 3) = true → let C := aCopy n.val
    let dest := s.rd (C 2)
    let live := dest == 0 || dest == s.unit || (s.foldSet && match routeLink (s.route dest) with | some g => s.linkAlive g | none => false)
    let len := (s.rd (C 4)).toNat + 1
    let inCap := 32 * (64 * (s.rd (C 0)).toNat + len) ≤ s.dramCap
    let started := fun (t : State) => t.copyBusy n = true ∧ t.fget (C 5) 22 20 = 0 ∧ t.rd (C 6) = 0 ∧ t.dram = s.dram ∧
      (∀ m : Fin 8, m ≠ n → t.copies[m] = s.copies[m]) ∧ NoEvent s t
    let ended := fun (t : State) (code : Nat) => t.copyBusy n = false ∧ t.fget (C 5) 22 20 = code ∧ EventRaised s t 41 [0x0D0] ∧ bit (t.hwRd 0x0D0) (4 + n.val) = true ∧
      t.dram = s.dram ∧ (∀ m : Fin 8, m ≠ n → t.copies[m] = s.copies[m])
    (s.copyBusy n = false →
      (live = true → inCap → Completes (.copyGo r n) s fun t => started t ∧ t.bget (C 3) 22 = false ∧ t.copies[n].asked = min len 512 ∧ t.copies[n].stream = false) ∧
      (live = true → Completes (.streamArm r n) s fun t => started t ∧ t.bget (C 3) 22 = true ∧ t.copies[n] = { CopySt.reset with stream := true } ∧ t.chans = s.chans) ∧
      (live = false → (Completes (.copyGo r n) s fun t => ended t 3) ∧ Completes (.streamArm r n) s fun t => ended t 3) ∧
      Completes (.copyStop r n) s fun t => t = { s with rfault := false }) ∧
    (s.copyBusy n = true →
      (Completes (.copyGo r n) s fun t => t = { s with ws := t.ws, rfault := false } ∧ WordsKept s t [C 3]) ∧
      (Completes (.streamArm r n) s fun t => t = { s with ws := t.ws, rfault := false } ∧ WordsKept s t [C 3]) ∧
      (s.copies[n].flight = [] → Completes (.copyStop r n) s fun t => ended t 4) ∧
      (s.copies[n].flight ≠ [] → Completes (.copyStop r n) s fun t => t.copies[n] = { s.copies[n] with stop := true } ∧ t.copyBusy n = true ∧
        t = { s with copies := t.copies, rfault := false }))

/-! ### Power, resets and start-up -/

/-- Power states (R316, R365, R366, R368 to R370, R372, R406). A request is refused with the lowest code that applies, which changes nothing but REFUSE and
raises the power event; accepted, TARGET takes it, and with no head running Run and Dim take effect at once, Rest and Keep when no command is in service. Rest
clears CLKEN of every paddock and EN of Lark and its wake sets them as they were; Keep without a debug session holds the pads, loses the rest of the device but
its always-on domain, fuses and flash, and records cause 3. An enabled source wakes from either and is left in WAKESRC. TEMP follows the sensor, HOT each crossing of ALERT; at
189 the device enters Keep with cause 4 and does not wake before 169. -/
def Obligations.PowerStates : Prop :=
  ∀ (s : State),
    let cmd := fun (p : PowState) => (match p with | .run => Instr.pwrctlRun | .dim => .pwrctlDim | .rest => .pwrctlRest | _ => .pwrctlKeep)
    let noop := fun (t : State) => t = s
    let low := fun (p : PowState) => p == .rest || p == .keep
    let code := fun (p : PowState) =>
      if s.dev == .boot then 1 else if low p && s.anyRunning then 2 else if p == .keep && s.dev == .live then 3
      else if s.icp.isSome || !s.icpQueue.isEmpty || s.cae.relay != 0 then 4 else if s.pow.busy then 5 else 0
    let idle := ((List.finRange 2).all fun k => !s.coreBusy k) && s.relayMbox.isNone
    let keepsAll := fun (t : State) => t.heads = s.heads ∧ t.pads = s.pads ∧ t.dram = s.dram ∧ t.fuses = s.fuses ∧ t.dev = s.dev
    let clocks := fun (t : State) => (∀ p : Pad, t.bget (aPad p.val 0) 23 = s.pow.clken.getLsbD p.val) ∧ t.bget (aLark 0) 23 = s.pow.larkEn
    let off := fun (t : State) (cause : Nat) => t.pow.st = .keep ∧ t.pow.emulated = false ∧ fld (t.hwRd 0x014) 23 22 = 3 ∧
      t.hwRd 0x024 = wd (cause * 2 ^ 21 + b2n (s.dev == .live) * 2 ^ 20) ∧ (∀ b : Bank, t.bget (aBank b.val 0) 13 = true) ∧
      t.heads = State.reset.heads ∧ t.pads = State.reset.pads ∧ t.dram = [] ∧ t.dev = State.reset.dev ∧ t.start = .reset ∧ t.fuses = s.fuses ∧
      t.hwRd 0x018 = s.hwRd 0x018 ∧ (∀ n : Tmr, t.rd (aTimer n.val 3) = s.rd (aTimer n.val 3)) ∧ t.pow.seconds = s.pow.seconds
    let wakes := fun (w : WakeSrc) => match w with
      | .pin i => if bit (s.hwRd 0x018) (20 + i.val) && fld (s.hwRd (0x028 + 4 * i.val)) 14 13 != 0 then some (2 ^ (20 + i.val)) else none
      | .timer n => if bit (s.hwRd 0x018) (4 + n.val) then some (2 ^ (4 + n.val)) else none
      | .perst => if bit (s.hwRd 0x018) 3 then some 8 else none
      | _ => none
    (s.hostGone = true → ∀ p : PowState, Completes (cmd p) s noop) ∧
    (s.hostGone = false → ∀ p : PowState,
      (s.pow.st ≠ .rest → code p ≠ 0 → Completes (cmd p) s fun t => fld (t.hwRd 0x014) 20 18 = code p ∧ fld (t.hwRd 0x014) 23 21 = fld (s.hwRd 0x014) 23 21 ∧
        EventRaised s t 44 [0x014] ∧ t = { s with hw := t.hw, pcie := t.pcie }) ∧
      (s.pow.st ≠ .rest → code p = 0 → Completes (cmd p) s fun t => fld (t.hwRd 0x010) 23 22 = p.code ∧ fld (t.hwRd 0x014) 20 18 = 0 ∧ keepsAll t ∧
        (p = s.pow.st → t.pow.st = p ∧ t.evFlag 44 = s.evFlag 44 ∧ t.pcie = s.pcie) ∧
        (p ≠ s.pow.st → (if low p then t.pow.st = s.pow.st ∧ bit (t.hwRd 0x014) 21 = true
          else s.anyRunning = false → t.pow.st = p ∧ bit (t.hwRd 0x014) 21 = false ∧ fld (t.hwRd 0x014) 23 22 = p.code ∧ t.evFlag 44 = true))) ∧
      (s.pow.st = .rest → Completes (cmd p) s fun t => bit (t.hwRd 0x01C) 2 = true ∧ t.heads = s.heads ∧ (p = .run → code p = 0 → clocks t ∧ t.pow.st = .run))) ∧
    (let go := s.pow.busy && s.pow.want == .rest && idle
     (go = false → Completes .restEntry s noop) ∧
     (go = true → Completes .restEntry s fun t => t.pow.st = .rest ∧ t.evFlag 44 = true ∧ fld (t.hwRd 0x014) 23 21 = 4 ∧ t.bget (aLark 0) 23 = false ∧ keepsAll t ∧
       ∀ p : Pad, t.bget (aPad p.val 0) 23 = false ∧ t.pow.clken.getLsbD p.val = s.bget (aPad p.val 0) 23)) ∧
    (let go := s.pow.busy && s.pow.want == .keep && idle
     (go = false → Completes .keepEntry s noop) ∧
     (go = true → s.level = 0 → Completes .keepEntry s fun t => off t 3) ∧
     (go = true → 1 ≤ s.level → Completes .keepEntry s fun t => t.pow.st = .keep ∧ t.pow.emulated = true ∧ keepsAll t ∧ ∀ b : Bank, t.bget (aBank b.val 0) 13 = true)) ∧
    (∀ w : WakeSrc,
      ((s.pow.st = .run ∨ s.pow.st = .dim) → Completes (.wake w) s noop) ∧
      (∀ src, s.pow.st = .rest → wakes w = some src → Completes (.wake w) s fun t => t.pow.st = .run ∧ t.hwRd 0x01C = wd src ∧ clocks t ∧ keepsAll t ∧ t.evFlag 44 = true) ∧
      ((s.pow.st = .rest ∨ s.pow.st = .keep) → wakes w = none → (w ≠ .hostAccess ∧ w ≠ .mailboxPost ∧ w ≠ .event) → Completes (.wake w) s noop) ∧
      (s.pow.st = .keep → s.pow.thermKeep = true → Completes (.wake w) s noop) ∧
      (∀ src, s.pow.st = .keep → s.pow.thermKeep = false → s.pow.emulated = false → wakes w = some src → Completes (.wake w) s fun t =>
        t.pow.st = .run ∧ t.hwRd 0x01C = wd src ∧ fld (t.hwRd 0x014) 23 22 = 0 ∧ t.start = s.start ∧ t.fuses = s.fuses ∧ t.hwRd 0x024 = s.hwRd 0x024)) ∧
    (∀ x : Byte, Completes (.thermUpdate x) s fun t => fld (t.hwRd 0x020) 23 16 = x.toNat ∧ fld (t.hwRd 0x020) 15 8 = fld (s.hwRd 0x020) 15 8 ∧ keepsAll t ∧
      (s.hostGone = false → let hot := decide (fld (s.hwRd 0x020) 15 8 ≤ x.toNat); let crossed := hot && (s.pow.fresh || !s.pow.hot)
        bit (t.hwRd 0x020) 7 = (crossed || bit (s.hwRd 0x020) 7) ∧ t.pow.hot = hot ∧ t.pow.fresh = false ∧ (crossed = true → EventRaised s t 44 [0x020]) ∧
        (crossed = false → HostKept s t [0x020] ∧ t.pcie = s.pcie)) ∧
      (s.pow.st = .keep → s.pow.emulated = false → t.pow.thermKeep = (s.pow.thermKeep && decide (169 < x.toNat)))) ∧
    (let hot := decide (189 ≤ fld (s.hwRd 0x020) 23 16) && !(s.pow.st == .keep && !s.pow.emulated)
     (hot = false → Completes .thermalTrip s noop) ∧ (hot = true → Completes .thermalTrip s fun t => off t 4 ∧ t.pow.thermKeep = true))

/-- Resets and start-up (R198, R273, R277, R356, R372, R373, R394, R250). POR_N leaves every register at its reset value but what stands at the banks' supplies; SYSRST_N and the announced RESET
keep the always-on domain, DRAM and on-chip memories and record causes 1 and 2. Start-up goes from the fuse load, which releases RESET_OUT_N, over Caeruno's boot, which ends in BOOT with reason NOFW where no copy verifies,
to the fabric load, which ends in READY or in MAINT with reason NOIMAGE. A failed integrity check on both cores leads to SAFE. PCIE_PERST_N low resets the function, HWCTL and the
host's claims on mailboxes, and nothing else. -/
def Obligations.ResetsAndStartUp : Prop :=
  ∀ (s : State),
    let noop := fun (t : State) => t = s
    let supply := fun (a : Nat) => match locOf a with | .bank _ 0 => true | _ => false
    let fresh := fun (t : State) => t.heads = State.reset.heads ∧ t.pads = State.reset.pads ∧ t.engines = State.reset.engines ∧ t.dev = State.reset.dev ∧ t.start = .reset ∧
      t.links = State.reset.links ∧ t.mboxes = State.reset.mboxes ∧ t.fuses = s.fuses ∧ t.flash = s.flash ∧ t.pending = s.pending
    let warm := fun (t : State) (cause : Nat) => fresh t ∧ t.hwRd 0x024 = wd (cause * 2 ^ 21 + b2n (s.dev == .live) * 2 ^ 20) ∧
      (∀ a, (regionOf (locOf a)).isSome = true → t.rd a = s.rd a) ∧ (∀ n < 16, ∀ o < 9, t.rd (aTimer n o) = s.rd (aTimer n o)) ∧ t.timers = s.timers ∧ t.dram = s.dram ∧
      (∀ h < 8, ∀ o < 64, t.rd (aHead h o) = wsReset (aHead h o)) ∧ (∀ o, o ∈ [0x018, 0x01C, 0x028, 0x034] → t.hwRd o = s.hwRd o) ∧ t.pow.seconds = s.pow.seconds
    (∀ straps, Completes (.porN straps) s fun t => fresh t ∧ (∀ a, supply a = false → t.rd a = wsReset a) ∧ (∀ o, t.hwRd o = hwReset o) ∧ t.dram = [] ∧ t.larkMem = [] ∧
      t.timers = State.reset.timers ∧ t.pow.straps = straps ∧ t.pow.seconds = 0 ∧ t.repair.bad = []) ∧
    (s.hostGone = false → s.pow.st ≠ .keep → Completes .sysrstN s fun t => warm t 1 ∧ t.pow.sysrstLow = true) ∧
    (s.pow.resetDue = false → Completes .deviceResetAfterResponse s noop) ∧
    (s.pow.resetDue = true → Completes .deviceResetAfterResponse s fun t => warm t 2) ∧
    (∀ d : BitVec 12, ((s.start ≠ .reset ∨ s.pow.st = .keep) → Completes (.fuseLoad d) s noop) ∧
      (s.start = .reset → s.pow.st ≠ .keep → Completes (.fuseLoad d) s fun t => t.start = .fused ∧ t.fget (aRot 8) 23 12 = d.toNat ∧ t.fuses = s.fuses ∧
        t.pow = { s.pow with resetOutLow := false, prsntLow := true, sysrstLow := false } ∧ (s.fuses.flock = true → WordsKept s t [aRot 8]) ∧
        (s.fuses.flock = false → ∀ b < 12, t.fget (aBank b 0) 23 20 = 0 ∧ ∀ n < 24, t.fget (aBank b (0x10 + n)) 23 22 = 3))) ∧
    (∀ a b : Bool, ((s.start ≠ .fused ∨ s.reason = 1) → Completes (.caerunoBoot a b) s noop) ∧
      (s.start = .fused → s.reason ≠ 1 → (s.fuses.flock = false ∨ s.flashSize = 0 ∨ s.bootCopy a b = none) → Completes (.caerunoBoot a b) s fun t =>
        t.dev = .boot ∧ t.reason = 1 ∧ t.evFlag 45 = true ∧ t.start = .fused ∧ WordsKept s t [] ∧ fld (t.hwRd 0x008) 19 12 = 1) ∧
      (∀ o, s.start = .fused → s.reason ≠ 1 → s.fuses.flock = true → s.flashSize ≠ 0 → s.bootCopy a b = some o → Completes (.caerunoBoot a b) s fun t =>
        t.start = .booted ∧ t.alive 0 = true ∧ t.alive 1 = true ∧ t.role 0 = 1 ∧ t.role 1 = 1 ∧ t.dev = s.dev ∧ t.heads = s.heads ∧ t.dram = s.dram)) ∧
    (s.start ≠ .checked → Completes .fabricLoad s noop) ∧
    (s.start = .checked → s.dev ≠ .boot → Completes .fabricLoad s fun t => t = { s with start := .up }) ∧
    (s.start = .checked → s.dev = .boot → s.candidates = [] → Completes .fabricLoad s fun t => t.start = .up ∧ t.dev = .maint ∧ t.reason = 4 ∧ t.evFlag 45 = true ∧
      t.pads = s.pads ∧ WordsKept s t []) ∧
    (s.start = .checked → s.dev = .boot → Completes .fabricLoad s fun t => t.start = .up ∧ (t.dev = .ready ∧ t.reason = 2 ∨ t.dev = .maint ∧ t.reason = 4)) ∧
    (s.dev = .boot → Completes .caerunoIntegrityFailure s noop) ∧
    (s.dev ≠ .boot → Completes .caerunoIntegrityFailure s fun t => t.dev = .safe ∧ t.reason = 7 ∧ t.evFlag 45 = true ∧ t.heads = s.heads ∧ t.pads = s.pads ∧
      (∀ c : Ctx, t.cae.ctxs[c].st ≠ 2)) ∧
    (Completes .pciePerstN s fun t => t.pcie = { State.reset.pcie with inReset := true } ∧ t.hwRd 0x004 = 0 ∧ HostKept s t [0x004] ∧ t.heads = s.heads ∧ t.dram = s.dram ∧
      WordsKept s t ((List.range 16).map aMbctl) ∧ ∀ m : Mbox,
        (s.mbClaimant m = 1 → (s.mbPhase m = 1 ∨ s.mbPhase m = 4) → t.mbPhase m = 0) ∧
        (s.mbClaimant m = 1 → s.mbPhase m ≠ 1 → s.mbPhase m ≠ 4 → t.mbPhase m = s.mbPhase m ∧ t.mboxes[m].orphan = true) ∧
        (s.mbClaimant m ≠ 1 → t.mbPhase m = s.mbPhase m ∧ t.mboxes[m] = s.mboxes[m])) ∧
    Completes .pciePerstNRise s fun t => t = { s with pcie := { s.pcie with inReset := false } }

/-! ### The Stile (16_debug_test.md) -/

/-- The Stile's port and sessions (R374, R375, R377 to R381). The scan port selects its instruction, IDCODE giving the device's identity; in two-wire mode there is no scan
port. EXTEST and CLAMP take the pins only while SYSRST_N is low. CHAL puts the nonce into bytes 416 to 463 of the buffer (its byte order is the model's choice, log entry 41). VERIFY
ends at the first failed check with its code, the session then ending and FAILS counting it; with none the level is the one the certificate asks for. LOGOUT, TRST_N and the two-wire
reset end the session: halted cores resume with a full window, frozen blocks run, ranges, selections and trace are off, the level is 0. -/
def Obligations.StileSessions : Prop :=
  ∀ (s : State), let tw := s.pow.straps.getLsbD 2
    let noop := fun (t : State) => t = s
    let ir := fun (i : ScanIr) (t : State) => t = { s with stile := { s.stile with ir := i } }
    let pins := fun (i : ScanIr) (bits : List Bool) (t : State) =>
      t = { s with freeCtr := t.freeCtr, banks := t.banks, stile := { s.stile with ir := i, boundary := bits } } ∧
        ∀ b : Bank, t.banks[b] = { s.banks[b] with lvl := t.banks[b].lvl, oe := t.banks[b].oe }
    let byte := fun (t : State) (i : Nat) => fld (spGet zeroW t.stile.abuf (i / 3)) (8 * (i % 3) + 7) (8 * (i % 3))
    let ranges := (List.range 16).map fun i => aBp (i / 8) (3 * (i % 8) + 2)
    let early := fun (t : State) => t.stile.early = (s.stile.early || decide (0 < s.stile.holdoff))
    let ended := fun (t : State) =>
      fld (t.stRd 0x01) 23 21 = 0 ∧ t.stRd 0x09 = 0 ∧ t.stRd 0x0A = 0 ∧ t.stRd 0x0B = 0 ∧ bit (t.stRd 0x11) 23 = false ∧ (∀ a ∈ ranges, t.fget a 23 22 = 0) ∧
      StileKept s t [0x01, 0x09, 0x0A, 0x0B, 0x11] ∧
      (∀ k : Core, t.halted k = false ∧ t.rd (aCore k.val 3) = if s.halted k then s.window k else s.rd (aCore k.val 3)) ∧
      (∀ p : Pad, t.pads[p] = { s.pads[p] with frozen := false, freezing := false }) ∧ (∀ n : Tmr, t.timers[n].frozen = false) ∧ t.lark.frozen = false ∧
      (∀ c : Ctx, t.cae.ctxs[c] = { s.cae.ctxs[c] with suspended := false }) ∧ (∀ h : Head, t.heads[h].phase ≠ .frozen) ∧
      t.stile.haltHead = 0 ∧ t.stile.trStopped = false ∧ t.dram = s.dram ∧ t.fuses = s.fuses ∧ t.dev = s.dev ∧ t.hw = s.hw ∧
      ((∀ h : Head, s.heads[h].phase ≠ .frozen) → t.heads = s.heads ∧ t.lark = { s.lark with frozen := false } ∧
        WordsKept s t (ranges ++ [aCore 0 0, aCore 1 0, aCore 0 3, aCore 1 3] ++ (List.range 16).map fun n => aTimer n 7))
    (tw = true → ∀ bits, Completes .bypass s noop ∧ Completes .idcode s noop ∧ Completes (.samplePreload bits) s noop ∧ Completes (.extest bits) s noop ∧
      Completes .clamp s noop ∧ Completes .trstN s noop) ∧
    (tw = false → (∀ bits,
        Completes .bypass s (ir .bypass) ∧ Completes .idcode s (fun t => ir .idcode t ∧ t.scanOut = if s.fuses.is2404 then 0x124045CB else 0x124085CB) ∧
        Completes (.samplePreload bits) s (fun t => t = { s with stile := { s.stile with ir := .sample, boundary := bits } }) ∧
        (s.pow.sysrstLow = false → Completes (.extest bits) s (ir .bypass) ∧ Completes .clamp s (ir .bypass)) ∧
        (s.pow.sysrstLow = true → Completes (.extest bits) s (pins .extest bits) ∧ Completes .clamp s (pins .clamp s.stile.boundary))) ∧
      Completes .trstN s (fun t => ended t ∧ t.stile.ir = .idcode) ∧ Completes .twoWireReset s noop) ∧
    (tw = true → Completes .twoWireReset s ended) ∧ Completes .logout s ended ∧
    (∀ nonce : BitVec 384, Completes (.chal nonce) s fun t => t = { s with stile := { s.stile with abuf := t.stile.abuf, nonce := true, early := t.stile.early } } ∧ early t ∧
      ∀ i < 480, byte t i = if 416 ≤ i ∧ i < 464 then nonce.toNat / 2 ^ (8 * (463 - i)) % 256 else byte s i) ∧
    (bit (s.stRd 0x01) 20 = true → Completes .verify s noop) ∧
    (bit (s.stRd 0x01) 20 = false → Completes .verify s fun t => t.stRd 0x01 = putBit (s.stRd 0x01) 20 true ∧ early t ∧ StileKept s t [0x01] ∧
      t = { s with stileRegs := t.stileRegs, stile := { s.stile with early := t.stile.early } }) ∧
    (bit (s.stRd 0x01) 20 = false → Completes .verifyComplete s noop) ∧
    (bit (s.stRd 0x01) 20 = true → let b := s.authBytes
      let key := slice b 128 96; let target := wd (ofBytesLE (slice b 6 3)); let family := wd (ofBytesLE (slice b 9 3)); let lvl := byte s 4
      let code :=
        if b.take 4 ≠ ascii "KZDC" ∨ (slice b 20 12).any (fun x => x != 0) = true then 1
        else if lvl = 0 ∨ 3 < lvl ∨ 3 - s.fuses.dbglvl.toNat < lvl then 2
        else if s.slotHolds (byte s 5) key = false then 3
        else if ecdsaVerify key (b.take 224) (slice b 224 96) = false then 4
        else if fld target 23 4 ≠ fld s.identity 23 4 ∨ fld s.identity 3 0 < fld target 3 0 ∨ (family ≠ 0 ∧ family ≠ s.fuses.famid) then 5
        else if ecdsaVerify (slice b 32 96) (slice b 416 48 ++ b.take 320) (slice b 320 96) = false then 6
        else if s.stile.nonce = false then 7 else if s.stile.early = true then 8 else 0
      Completes .verifyComplete s fun t => fld (t.stRd 0x01) 20 16 = code ∧ t.stile.nonce = false ∧
        (code = 0 → fld (t.stRd 0x01) 23 21 = lvl ∧ fld (t.stRd 0x01) 15 0 = fld (s.stRd 0x01) 15 0 ∧ t.stile.ctxmask = BitVec.ofNat 64 (ofBytesLE (slice b 12 8)) ∧
          StileKept s t [0x01] ∧ t = { s with stileRegs := t.stileRegs, stile := t.stile }) ∧
        (code ≠ 0 → ended t ∧ fld (t.stRd 0x01) 15 8 = min 255 (fld (s.stRd 0x01) 15 8 + 1) ∧ t.stile.holdoff = 1000))

/-- Accesses to the Stile's registers (R376 to R379, R382 to R384, R391, R393). A register that the level does not permit is answered FAULT with no effect, and so is
a two-wire request of bad parity; BMDATA while BUSY is answered WAIT. ABUFD reads and writes the buffer word at ADDR, which advances; BMDATA makes one debug-master
access, whose read of DRAM is BUSY until its units have come, and INC moves the address by a word, or by three bytes in DRAM; TRDATA takes the oldest trace word; VTIN sets INF, or counts a word dropped;
VTOUT clears OUTF. A DPACC update and a two-wire request make the same accesses. -/
def Obligations.StileAccesses : Prop :=
  ∀ (s : State) (v : Word),
    let answered := fun (t u : State) (ack : Nat) => t = { u with freeCtr := t.freeCtr, stile := { u.stile with ack := BitVec.ofNat 3 ack, data := t.stile.data } }
    let barred := fun (t : State) => answered t s 4
    let tw := s.pow.straps.getLsbD 2
    let word := fun (wr : Bool) (n : Nat) (x : Word) => BitVec.ofNat 32 (b2n wr * 2 ^ 31 + n * 2 ^ 24 + x.toNat)
    let s1 : State := { s with stile := { s.stile with ir := .dpacc } }
    let even := fun (w : BitVec 32) => decide (((List.range 32).map fun i => b2n (w.getLsbD i)).sum % 2 = 1)
    let plain := [0x02, 0x04, 0x05, 0x07, 0x09, 0x0A, 0x0B, 0x11, 0x12, 0x13, 0x14, 0x15]
    let needs := fun (n : Nat) => if n ≤ 3 then 0 else if n ≤ 7 ∨ 0x11 ≤ n then 1 else if n = 0x10 then 2 else 3
    let i := fld (s.stRd 0x02) 7 0
    let inc := bit (s.stRd 0x07) 21
    let dramAt := (s.stRd 0x04).toNat + 2 ^ 24 * fld (s.stRd 0x05) 10 0
    let moved := fun (t : State) (by1 : Nat) => if inc = false then StileKept s t [0x06, 0x07] else StileKept s t [0x04, 0x05, 0x06, 0x07] ∧
      (if by1 = 1 then t.stRd 0x04 = s.stRd 0x04 + 1 ∧ t.stRd 0x05 = s.stRd 0x05
       else (t.stRd 0x04).toNat + 2 ^ 24 * fld (t.stRd 0x05) 10 0 = (dramAt + 3) % 2 ^ 35)
    let data := fun (t : State) => t.stile = { s.stile with ack := 1, data := t.stile.data }
    ((Completes (.abufdAccess none) s fun t => t.stile = { s.stile with ack := 1, data := if i < 160 then spGet zeroW s.stile.abuf i else 0 } ∧
        t.stRd 0x02 = wd ((i + 1) % 256) ∧ StileKept s t [0x02] ∧ t = { s with stileRegs := t.stileRegs, stile := t.stile }) ∧
      Completes (.abufdAccess (some v)) s fun t => t.stile = { s.stile with ack := 1, data := t.stile.data, abuf := t.stile.abuf } ∧
        (∀ j < 160, spGet zeroW t.stile.abuf j = if j = i then v else spGet zeroW s.stile.abuf j) ∧ t.stRd 0x02 = wd ((i + 1) % 256) ∧ StileKept s t [0x02] ∧
        t = { s with stileRegs := t.stileRegs, stile := t.stile, freeCtr := t.freeCtr }) ∧
    (∀ w : Option Word, (s.level = 0 → Completes (.bmdataAccess w) s barred) ∧
      (1 ≤ s.level → bit (s.stRd 0x07) 19 = true → Completes (.bmdataAccess w) s fun t => answered t s 2)) ∧
    (1 ≤ s.level → bit (s.stRd 0x07) 19 = false → bit (s.stRd 0x07) 23 = true →
      (s.level < 3 → Completes (.bmdataAccess (some v)) s fun t => bit (t.stRd 0x07) 20 = true ∧ moved t 3 ∧ data t ∧
        t = { s with stileRegs := t.stileRegs, stile := t.stile, freeCtr := t.freeCtr }) ∧
      (s.level = 3 → dramAt + 3 ≤ s.dramCap → (∀ k < 8, s.bget (aDram (0x10 + 3 * k)) 0 = false) →
        (Completes (.bmdataAccess none) s fun t => t.dreads = s.dreads ++ [{ user := .debug, off := dramAt, len := 3, wait := unitsOf dramAt 3, got := [] }] ∧
          bit (t.stRd 0x07) 19 = true ∧ t.stRd 0x06 = s.stRd 0x06 ∧ moved t 3 ∧ data t ∧ (∀ u ∈ unitsOf dramAt 3,
            (t.chans[s.chanOf (32 * u)].reads.any fun r => r.user == .debug && r.unit == u && r.cls == 4 && r.data == s.unitNow u) = true) ∧
          WordsKept s t ((List.range 4).map fun c => aChan c 2) ∧
          t = { s with freeCtr := t.freeCtr, ws := t.ws, stileRegs := t.stileRegs, stile := t.stile, chans := t.chans, dcyc := t.dcyc, dreads := t.dreads }) ∧
        (FreshCycle s → Completes (.bmdataAccess (some v)) s fun t => data t ∧ t.stRd 0x06 = v ∧ moved t 3 ∧
          (∀ k < 3, t.nowBytes (dramAt + k) 1 = [nth 0 (bytesLE 3 v.toNat) k]) ∧ (∀ x, (x < dramAt ∨ dramAt + 3 ≤ x) → t.nowBytes x 1 = s.nowBytes x 1) ∧
          t = { s with freeCtr := t.freeCtr, stileRegs := t.stileRegs, stile := t.stile, chans := t.chans, dcyc := t.dcyc })) ∧
      (s.level = 3 → s.dramCap ≤ 32 * (dramAt / 32) → Completes (.bmdataAccess none) s fun t => t.stile.data = 0 ∧ t.stRd 0x06 = 0 ∧ bit (t.stRd 0x07) 19 = false ∧
        moved t 3 ∧ data t ∧ t.evFlag 34 = true ∧ t.dreads = s.dreads)) ∧
    (∀ c : Chan, ∀ r, s.chans[c].reads.find? (·.issued) = some r → ∀ x, s.dreads = [x] → r.user = .debug → x.user = .debug → x.wait = [r.unit] →
      x.got = [] → r.chk = false → r.merge = false → s.checkAddr (32 * r.unit) = none → x.off / 32 = r.unit → x.off % 32 + x.len ≤ 32 → 1 ≤ x.len → Sound s →
      Completes (.dramReadComplete c .good) s fun t => t.dreads = [] ∧ t.stRd 0x06 = wd (ofBytesLE ((r.data.drop (x.off % 32)).take x.len)) ∧
        t.stRd 0x07 = putBit (s.stRd 0x07) 19 false ∧ StileKept s t [0x06, 0x07]) ∧
    (1 ≤ s.level → bit (s.stRd 0x07) 19 = false → bit (s.stRd 0x07) 23 = false → NoFlips s →
      let a := (s.stRd 0x04).toNat; let l := locOf a
      plainReg l = true → s.locOff l = false →
        (s.mayRead .debug l = true → Completes (.bmdataAccess none) s fun t =>
          (∀ f ∈ fieldsOf l, fld t.stile.data f.hi f.lo = (match f.acc with | .wo => 0 | _ => s.fget a f.hi f.lo) ∧
            fld (t.rd a) f.hi f.lo = (match f.acc with | .rc => if bit (s.stRd 0x07) 22 then 0 else s.fget a f.hi f.lo | _ => s.fget a f.hi f.lo)) ∧
          WordsKept s t [a] ∧ moved t 1 ∧ data t ∧ bit (t.stRd 0x07) 20 = bit (s.stRd 0x07) 20) ∧
        (s.mayRead .debug l = false → Completes (.bmdataAccess none) s fun t => t.stile.data = 0 ∧ bit (t.stRd 0x07) 20 = true ∧ moved t 1 ∧ data t ∧ WordsKept s t [] ∧ NoEvent s t) ∧
        (s.mayWrite .debug l = true → s.cycNow = [] → Completes (.bmdataAccess (some v)) s fun t => (∀ f ∈ fieldsOf l, f.acc = .rw → t.fget a f.hi f.lo = fld v f.hi f.lo) ∧
          WordsKept s t [a] ∧ moved t 1 ∧ data t ∧ bit (t.stRd 0x07) 20 = bit (s.stRd 0x07) 20) ∧
        (s.mayWrite .debug l = false → Completes (.bmdataAccess (some v)) s fun t => bit (t.stRd 0x07) 20 = true ∧ moved t 1 ∧ data t ∧ WordsKept s t [] ∧ NoEvent s t)) ∧
    (s.level = 0 → Completes .trdataRead s barred ∧ Completes (.vtinWrite v) s barred ∧ Completes .vtoutRead s barred) ∧
    (1 ≤ s.level →
      (Completes .trdataRead s fun t => t = { s with stile := { s.stile with ack := 1, data := nth 0 s.stile.trace 0, trace := s.stile.trace.drop 1 } }) ∧
      (bit (s.stRd 0x1A) 23 = false → Completes (.vtinWrite v) s fun t => t.stRd 0x1A = putBit (s.stRd 0x1A) 23 true ∧ StileKept s t [0x1A] ∧
        t = { s with freeCtr := t.freeCtr, stileRegs := t.stileRegs, stile := { s.stile with ack := 1, data := t.stile.data, vtin := v } }) ∧
      (bit (s.stRd 0x1A) 23 = true → Completes (.vtinWrite v) s fun t => fld (t.stRd 0x1A) 7 0 = min 255 (fld (s.stRd 0x1A) 7 0 + 1) ∧ fld (t.stRd 0x1A) 23 8 = fld (s.stRd 0x1A) 23 8 ∧
        StileKept s t [0x1A] ∧ t = { s with freeCtr := t.freeCtr, stileRegs := t.stileRegs, stile := { s.stile with ack := 1, data := t.stile.data } }) ∧
      Completes .vtoutRead s fun t => t.stRd 0x1A = putBit (s.stRd 0x1A) 22 false ∧ StileKept s t [0x1A] ∧
        t = { s with stileRegs := t.stileRegs, stile := { s.stile with ack := 1, data := s.stile.vtout } }) ∧
    (∀ n ∈ plain,
      (s.level < needs n → tw = false → Completes (.dpacc (word true n v)) s fun t => answered t s1 4) ∧
      (needs n ≤ s.level → tw = false → (Completes (.dpacc (word true n v)) s fun t => answered t { s1 with stileRegs := t.stileRegs } 1 ∧ StileKept s t [n] ∧
          ∀ f ∈ stileFields n, fld (t.stRd n) f.hi f.lo = (match f.acc with | .rw => fld v f.hi f.lo | .w1c => fld (s.stRd n &&& ~~~v) f.hi f.lo | _ => fld (s.stRd n) f.hi f.lo)) ∧
        Completes (.dpacc (word false n 0)) s fun t => t = { s1 with stile := { s1.stile with ack := 1, data := s.stRd n &&& maskOf (fun c => c != .wo) (stileFields n) } })) ∧
    (tw = false → exec (.dpacc (word false 0x17 0)) s = exec .trdataRead s1 ∧ exec (.dpacc (word true 0x18 v)) s = exec (.vtinWrite v) s1 ∧
      exec (.dpacc (word true 0x06 v)) s = exec (.bmdataAccess (some v)) s1 ∧ exec (.dpacc (word false 0x03 0)) s = exec (.abufdAccess none) s1 ∧
      (Completes (.dpacc (word false 0 0)) s fun t => t = { s1 with stile := { s1.stile with ack := 1, data := s.identity } }) ∧
      (∀ n, 0x1B ≤ n → n < 128 → Completes (.dpacc (word false n 0)) s fun t => answered t s1 4) ∧
      ∀ w p, Completes (.twoWireTransaction w p) s fun t => t = s) ∧
    (tw = true → ∀ w : BitVec 32, (Completes (.dpacc w) s fun t => t = s) ∧ (Completes (.twoWireTransaction w (!even w)) s barred) ∧
      ((w = word false 0x17 0 → exec (.twoWireTransaction w (even w)) s = exec .trdataRead s) ∧ (w = word true 0x18 v → exec (.twoWireTransaction w (even w)) s = exec (.vtinWrite v) s)))

/-- Halts, freezes and the trace's clock (R387 to R389, R391). At level 3 HALT halts its core alone; RESUME releases every halted or frozen block, a core with a full window; STEP takes cycles
of a halted core's window, how many being free (log entry 2); ABORT abandons the core's key sequence and frees the mailboxes it has claimed, each with its event. A context is suspended
and resumed at level 2 where the certificate names it, and at level 3. FREEZE and a selected cross-trigger stop the blocks named; a source not selected does nothing. A sync packet is stored when the
clock's low half wraps. -/
def Obligations.StileHalts : Prop :=
  ∀ (s : State) (k : Core),
    let answered := fun (t u : State) (ack : Nat) => t = { u with freeCtr := t.freeCtr, stile := { u.stile with ack := BitVec.ofNat 3 ack, data := t.stile.data } }
    let barred := fun (t : State) => answered t s 4
    let idle := fun (t : State) => answered t s 1
    let stops := fun (t : State) (frz : Word) (pads : Nat) =>
      (∀ j : Core, t.halted j = (s.halted j || bit frz (22 + j.val))) ∧ (∀ n : Tmr, t.timers[n].frozen = (s.timers[n].frozen || bit frz 21)) ∧
      t.lark = { s.lark with frozen := s.lark.frozen || bit frz 20 } ∧ (∀ h : Head, t.stile.haltHead.getLsbD h.val = (s.stile.haltHead.getLsbD h.val || bit frz (8 + h.val))) ∧
      (∀ p : Pad, t.pads[p] = { s.pads[p] with freezing := s.pads[p].freezing || pads.testBit p.val }) ∧ t.heads = s.heads ∧ t.hw = s.hw ∧ t.dram = s.dram ∧
      WordsKept s t ([aCore 0 0, aCore 1 0] ++ (List.range 16).map fun n => aTimer n 7)
    let none3 := fun (t : State) => t.cae = s.cae ∧ t.dev = s.dev ∧ t.cores = s.cores ∧ t.mboxes = s.mboxes
    (s.level < 3 → ∀ w v : Word, Completes (.halt k) s barred ∧ Completes .resume s barred ∧ Completes (.step k) s barred ∧ Completes (.abort k) s barred ∧
      Completes (.freeze w v) s barred) ∧
    (s.level = 3 →
      (Completes (.halt k) s fun t => t.halted k = true ∧ t.fget (aCore k.val 0) 23 21 = s.fget (aCore k.val 0) 23 21 ∧ WordsKept s t [aCore k.val 0] ∧ answered t { s with ws := t.ws } 1) ∧
      (Completes .resume s fun t => (∀ j : Core, t.halted j = false ∧ t.rd (aCore j.val 3) = if s.halted j then s.window j else s.rd (aCore j.val 3)) ∧
        (∀ p : Pad, t.pads[p] = { s.pads[p] with frozen := false, freezing := false }) ∧ (∀ n : Tmr, t.timers[n].frozen = false) ∧ t.lark.frozen = false ∧
        ((∀ h : Head, s.heads[h].phase ≠ .frozen) → t.lark = { s.lark with frozen := false }) ∧
        (∀ c : Ctx, t.cae.ctxs[c] = { s.cae.ctxs[c] with suspended := false }) ∧ (∀ h : Head, t.heads[h].phase ≠ .frozen) ∧ t.stile.haltHead = 0 ∧ t.stile.trStopped = false ∧
        StileKept s t [] ∧ t.stile.ack = 1 ∧ t.dram = s.dram ∧ ∀ h : Head, s.heads[h].phase ≠ .frozen → t.heads[h].phase = s.heads[h].phase ∧ t.heads[h].queue = s.heads[h].queue) ∧
      (s.halted k = false → Completes (.step k) s idle ∧ Completes (.abort k) s idle) ∧
      (s.halted k = true → s.bget (aCore k.val 2) 23 = false → Completes (.step k) s fun t => answered t { s with cores := t.cores } 1 ∧ ∀ j : Core, j ≠ k → t.cores[j] = s.cores[j]) ∧
      (s.halted k = true → s.bget (aCore k.val 2) 23 = true → Completes (.step k) s fun t => t.stile.ack = 1 ∧ t.heads = s.heads ∧ t.dram = s.dram ∧
        (t.cores[k].left < s.cores[k].left ∧ t.rd (aCore k.val 3) = wd (min 0xFFFFFF t.cores[k].left) ∧ WordsKept s t [aCore k.val 3] ∨
          t.fget (aCore k.val 5) 23 16 = min 255 (s.fget (aCore k.val 5) 23 16 + 1) ∧ t.evFlag 36 = true)) ∧
      (s.halted k = true → Completes (.abort k) s fun t => t.cores[k].seq = .none ∧ t.fget (aCore k.val 5) 15 8 = s.fget (aCore k.val 5) 15 8 ∧ t.heads = s.heads ∧ t.stile.ack = 1 ∧
        ∀ m : Mbox, if s.mbPhase m = 1 ∧ s.mbClaimant m = 2 + k.val then t.mbPhase m = 0 ∧ t.evFlag (48 + m.val) = true
          else t.rd (aMbctl m.val) = s.rd (aMbctl m.val) ∧ t.evFlag (48 + m.val) = s.evFlag (48 + m.val)) ∧
      ∀ w v : Word, Completes (.freeze w v) s fun t => stops t w (fld v 15 0) ∧ none3 t ∧ fld (t.stRd 0x0C) 23 20 = fld w 23 20 ∧ fld (t.stRd 0x0C) 15 8 = fld w 15 8 ∧
        fld (t.stRd 0x0D) 15 0 = fld v 15 0 ∧ StileKept s t [0x0C, 0x0D]) ∧
    (∀ c : Ctx, (s.level < 2 → Completes (.contextHalt c) s barred ∧ Completes (.contextResume c) s barred ∧ Completes (.contextStep c) s barred) ∧
      (2 ≤ s.level → Completes (.contextStep c) s idle) ∧
      (2 ≤ s.level → (c.val = 0 ∨ s.level = 2 ∧ s.stile.ctxmask.getLsbD c.val = false) → Completes (.contextHalt c) s idle ∧ Completes (.contextResume c) s idle) ∧
      (let set := fun (on : Bool) (t : State) => t.cae.ctxs[c] = { s.cae.ctxs[c] with suspended := on } ∧ (∀ d : Ctx, d ≠ c → t.cae.ctxs[d] = s.cae.ctxs[d]) ∧
          answered t { s with cae := { s.cae with ctxs := t.cae.ctxs } } 1
       2 ≤ s.level → c.val ≠ 0 → (s.level = 2 → s.stile.ctxmask.getLsbD c.val = true) → Completes (.contextHalt c) s (set true) ∧ Completes (.contextResume c) s (set false))) ∧
    (∀ x : XtSource, let n := match x with | .bp j => j.val | .mark => 2 | .ue => 3
      (bit (s.stRd 0x09) n = false → Completes (.crossTrigger x) s fun t => t = s) ∧
      (bit (s.stRd 0x09) n = true → Completes (.crossTrigger x) s fun t => stops t (s.stRd 0x0A) (fld (s.stRd 0x0B) 15 0) ∧ none3 t ∧ t.stileRegs = s.stileRegs ∧
        t.stile.trStopped = (s.stile.trStopped || bit (s.stRd 0x0A) 19))) ∧
    (s.tracing = false → Completes .traceSync s fun t => t = s) ∧
    (s.tracing = true → s.stile.lost = 0 → s.stile.trace.length + 3 ≤ 16384 → Completes .traceSync s fun t =>
      t = { s with stile := { s.stile with trace := s.stile.trace ++ [0xE00000, wd s.sclk, wd (s.sclk / 2 ^ 24)] } })

/-! ### The whole machine -/

/-- After reset (R2, R9, R250, R372, R373): BOOT, no head running, cores and links at rest, the identity of stepping A1, every event mask withheld, the alert threshold
at 105 °C, no reset recorded; the timers, Lark, paddocks and tap off; no mailbox claimed; the session level 0; and the memories canonical. The fuses are those of a locked
KZ2408, which is the model's choice (log entry 6). -/
def Obligations.ResetState : Prop :=
  let s := State.reset
  s.pending = [] ∧ s.dev = .boot ∧ s.start = .reset ∧ s.identity = 0x240811 ∧ Memory.wf s ∧
  (∀ h : Head, s.heads[h].phase = .stopped ∧ s.heads[h].queue = [] ∧ s.rd (aHead h.val 0) = resetOf (fieldsOf (.head h.val 0)) ∧ s.bget (aHead h.val 0) 23 = false ∧
    s.running h.val = false) ∧
  (s.hwRd 0x004 = 0 ∧ s.hwRd 0x0AC = 0xFFFFFF ∧ s.hwRd 0x0B0 = 0xFFFFFF ∧ s.hwRd 0x0B4 = 0x00FFFF ∧ s.hwRd 0x0A0 = 0 ∧ s.hwRd 0x020 = 0x00A900 ∧ s.hwRd 0x024 = 0 ∧ s.hwRd 0x014 = 0) ∧
  (∀ n : Tmr, s.bget (aTimer n.val 0) 23 = false) ∧ (∀ p : Pad, s.fget (aPad p.val 1) 23 22 = 0) ∧ (∀ m : Mbox, s.mbPhase m = 0) ∧ (∀ k : Core, s.alive k = false) ∧
  (∀ g : Link, s.fget (aLink g.val 1) 23 21 = 0) ∧ s.bget (aLark 0) 23 = false ∧ s.level = 0 ∧ s.fuses.flock = true ∧ s.fuses.is2404 = false

/-- Every step, of any command or of an empty queue, keeps the canonical form of the memories and register files: two states that read alike everywhere hold equal data. -/
def Obligations.MemoryFormKept : Prop := ∀ s t : State, Memory.wf s → step s = .next t → Memory.wf t

/-- Each fuse field can only be set further, a revoked slot stays revoked, and ARBCNT rises only by the command ARBRAISE that the host has posted to a mailbox (R196). -/
def Obligations.FusesOnlySetFurther : Prop :=
  ∀ s t : State, step s = .next t → FusesFurther s.fuses t.fuses ∧ (t.fuses.arbcnt ≠ s.fuses.arbcnt → ∃ m, s.pending.head? = some (.arbraise m))

/-- The check code of the host window (R358). Bits [31:24] of every read of a host-window register carry the CRC-8 of its bits [23:0], polynomial 0x2F, initial value 0xFF, no
reflection, final XOR 0xFF, taken over bits [23:16], [15:8] and [7:0] in that order; over the nine ASCII bytes "123456789" it is 0xDF. -/
def Obligations.CheckCode : Prop :=
  let shift := fun (c : BitVec 8) => if c.getLsbD 7 = true then (c <<< 1) ^^^ 0x2F else c <<< 1
  let eat := fun (c x : BitVec 8) => (List.range 8).foldl (fun r _ => shift r) (c ^^^ x)
  let crc := fun (l : List (BitVec 8)) => l.foldl eat 0xFF ^^^ 0xFF
  crc [0x31, 0x32, 0x33, 0x34, 0x35, 0x36, 0x37, 0x38, 0x39] = 0xDF ∧
  ∀ (s : State) (off : BitVec 12), s.hostGone = false → off.toNat % 4 = 0 → off.toNat < 0x1E0 → Completes (.rcRead (.bar0 off 4)) s fun t =>
    let x : Word := BitVec.ofNat 24 (ofBytesLE (t.pcie.rdata.take 3))
    t.pcie.rdata.length = 4 ∧ nth 0 t.pcie.rdata 3 = crc [x.extractLsb' 16 8, x.extractLsb' 8 8, x.extractLsb' 0 8]

/-! ### The beam and the heads (02_beam_time.md) -/

/-- A video-clock edge of a running head that does not follow a master edge by edge and does not end its raster here
(R14, R24): the beam stands one quad further, at quad 0 of the next line after the last quad, at line 0 after the last line;
the epoch and the head's other position registers keep; no other head that runs free moves. The strobes of a running head, each given once at its position, and otherwise not at all (R24, R25, R39, R113, R168):
LINE at quad 0 of a line, FRAME at line 0, quad 0, HBLANK at quad HACT, VBLANK at line VACT, quad 0, HSYNC at quad HSS,
VSYNC at line VSS, quad HSS. A strobe given is presented to every paddock in the next fabric cycle, in its head's six bits
of BSTB0 or BSTB1; HBLANK, HSYNC and VSYNC change nothing else. -/
def Obligations.BeamPosition : Prop :=
  (∀ (s : State) (h : Head), s.running h.val = true → s.followsExactly h = false → s.beamHeld h = false →
      let r := s.raster h.val
      let k := s.posLine h.val
      let q := s.posQuad h.val
      Completes (.beamAdvance h) s fun t =>
        t.posQuad h.val = (if q + 1 < r.htotal then q + 1 else 0) ∧
        t.posLine h.val = (if q + 1 < r.htotal then k else if k + 1 < r.vtotal then k + 1 else 0) ∧
        t.epoch h.val = s.epoch h.val ∧ t.running h.val = true ∧
        (∀ g : Head, g ≠ h → (s.syncMode g.val = 0 ∨ s.syncMode g.val = 3) → t.heads[g] = s.heads[g] ∧
          ∀ off < 64, t.rd (aHead g.val off) = s.rd (aHead g.val off))) ∧
  (∀ (s : State) (h : Head),
      let r := s.raster h.val
      let k := s.posLine h.val
      let q := s.posQuad h.val
      let free := fun (b : Nat) => s.running h.val && !s.heads[h].strobed.getLsbD b
      let given := fun (t : State) (b : Nat) => t.heads[h].strobed.getLsbD b = true ∧
        ∀ p : Pad, bit (t.pads[p].coming (0x5D8 + h.val / 4)) (6 * (h.val % 4) + b) = true
      let only := fun (t : State) => t = { s with heads := t.heads, pads := t.pads } ∧ (∀ g : Head, g ≠ h → t.heads[g] = s.heads[g]) ∧
        t.heads[h] = { s.heads[h] with strobed := t.heads[h].strobed } ∧
        ∀ p : Pad, t.pads[p] = { s.pads[p] with nextSrc := t.pads[p].nextSrc }
      let strobe := fun (c : Instr) (b : Nat) (here : Bool) (alone : Bool) =>
        ((free b && here) = true → Completes c s fun t => given t b ∧ (alone = true → only t)) ∧
        ((free b && here) = false → Completes c s fun t => t = s)
      strobe (.lineStrobe h) 0 (q == 0) false ∧
      strobe (.frameStrobe h) 1 (k == 0 && q == 0) false ∧
      strobe (.hblankStrobe h) 2 (q == r.hact) true ∧
      strobe (.vblankStrobe h) 3 (k == r.vact && q == 0) false ∧
      strobe (.hsyncStrobe h) 4 (q == r.hss) true ∧
      strobe (.vsyncStrobe h) 5 (k == r.vss && q == r.hss) true)

/-- A head's epoch advances by one, modulo 2^48, at line 0, quad 0.0 of each frame but the first after a start, which takes
the value held (R32), on a head that takes no epoch from a master or the fold. The frame's record opens with the low 24 bits
of that epoch; at the VBLANK strobe the open record closes with the frame it opened for, and waits for the ring (R113). -/
def Obligations.FrameEpochAndRecord : Prop :=
  ∀ (s : State) (h : Head), s.running h.val = true →
    (s.heads[h].strobed.getLsbD 1 = false → s.posLine h.val = 0 → s.posQuad h.val = 0 → s.syncMode h.val = 0 →
      s.heads[h].phase ≠ .stopping →
      Completes (.frameStrobe h) s fun t =>
        t.epoch h.val = (if s.heads[h].begun = .start then s.epoch h.val else s.epoch h.val + 1) ∧
        t.heads[h].sig.isOpen = true ∧ t.heads[h].sig.frame = (t.epoch h.val).setWidth 24 ∧ t.heads[h].begun = .flow) ∧
    (s.heads[h].strobed.getLsbD 3 = false → s.posLine h.val = (s.raster h.val).vact → s.posQuad h.val = 0 →
      s.heads[h].sig.isOpen = true →
      Completes (.vblankStrobe h) s fun t =>
        t.heads[h].sig.isOpen = false ∧ t.heads[h].closed.length = s.heads[h].closed.length + 1 ∧
        (t.heads[h].closed.getLast?.map fun r => (r.frame, r.flags)) = some (s.heads[h].sig.frame, s.heads[h].sig.flags) ∧
        t.heads[h].closed.take s.heads[h].closed.length = s.heads[h].closed ∧ t.epoch h.val = s.epoch h.val)

/-- RUN written from 0 to 1 on a stopped head of a part with its factory lock (R30): a failed check leaves RUN 0, puts the
lowest failing code into CFGERR and raises the head's sync event; with every check passed CFGERR is 0, RUN is 1, the head
waits for its PLL, and entries outside the raster are discarded and counted in FLUSHED with the beam-queue event. A head
disabled by fuse, and one that runs or still stops, changes nothing. RUN written from 1 to 0 on a running head no engine of which is under rotation (R31): RUN is 0 and the raster runs on to
the end of its line, keeping its queue. At the last quad of that line the raster stops: RUNNING is 0, the position stays,
every queue entry is discarded and counted in FLUSHED, and the epoch is one more than that of the last frame begun. Before
the last quad the raster does not stop. -/
def Obligations.HeadControl : Prop :=
  (∀ (s : State) (h : Head),
      let code := s.startCode h.val
      let r := s.raster h.val
      let stays := fun (e : QEntry) => decide (e.line < r.vtotal) && decide (e.quad < r.htotal)
      let gone := s.heads[h].queue.filter fun e => !stays e
      (s.headOff h.val = true ∨ s.bget (aHead h.val 0) 23 = true ∨ s.heads[h].phase ≠ .stopped →
        Completes (.headStart h) s fun t => t = s) ∧
      (s.headOff h.val = false → s.fuses.flock = true → s.bget (aHead h.val 0) 23 = false → s.heads[h].phase = .stopped →
        Completes (.headStart h) s fun t =>
          t.fget (aHead h.val 1) 19 16 = code ∧ t.fget (aHead h.val 1) 23 20 = s.fget (aHead h.val 1) 23 20 ∧
          t.bget (aHead h.val 0) 23 = (code == 0) ∧ t.fget (aHead h.val 0) 22 0 = s.fget (aHead h.val 0) 22 0 ∧
          (code ≠ 0 → EventRaised s t (24 + h.val) [0x0B8, 0x0BC] ∧ t.heads = s.heads) ∧
          (code = 0 → t.heads[h].phase = .starting ∧ (∀ e ∈ t.heads[h].queue, stays e = true) ∧
            (∀ e ∈ s.heads[h].queue, (∀ g ∈ gone, g.idx ≠ e.idx) → e ∈ t.heads[h].queue) ∧
            t.fget (aHead h.val 0x0D) 7 0 = min 255 (s.fget (aHead h.val 0x0D) 7 0 + gone.length) ∧
            (gone ≠ [] → EventRaised s t (24 + h.val) [0x0B8, 0x0BC]) ∧ (gone = [] → NoEvent s t)) ∧
          (∀ g : Head, g ≠ h → t.heads[g] = s.heads[g]) ∧
          WordsKept s t [aHead h.val 0, aHead h.val 1, aHead h.val 0x0C, aHead h.val 0x0D] ∧
          t = { s with ws := t.ws, hw := t.hw, pcie := t.pcie, heads := t.heads })) ∧
  (∀ (s : State) (h : Head),
      (s.bget (aHead h.val 0) 23 = true → s.heads[h].phase = .running → s.rotStep = 0 →
        Completes (.headStop h) s fun t =>
          t.bget (aHead h.val 0) 23 = false ∧ t.heads[h].phase = .stopping ∧ t.heads[h].queue = s.heads[h].queue ∧
          t.raster h.val = s.raster h.val ∧ t.epoch h.val = s.epoch h.val ∧ WordsKept s t [aHead h.val 0] ∧
          t = { s with ws := t.ws, heads := t.heads }) ∧
      (s.bget (aHead h.val 0) 23 = false → Completes (.headStop h) s fun t => t = s) ∧
      (s.heads[h].phase = .stopping → s.posQuad h.val + 1 = (s.raster h.val).htotal →
        Completes (.rasterStop h) s fun t =>
          t.running h.val = false ∧ t.heads[h].phase = .stopped ∧ t.heads[h].queue = [] ∧
          t.epoch h.val = s.epoch h.val + 1 ∧ t.posLine h.val = s.posLine h.val ∧ t.posQuad h.val = s.posQuad h.val ∧
          t.fget (aHead h.val 0x0D) 7 0 = min 255 (s.fget (aHead h.val 0x0D) 7 0 + s.heads[h].queue.length) ∧
          (s.heads[h].queue ≠ [] → t.evFlag (24 + h.val) = true) ∧ t.fuses = s.fuses ∧ t.dram = s.dram) ∧
      (s.heads[h].phase ≠ .stopping ∨ s.posQuad h.val + 1 ≠ (s.raster h.val).htotal →
        Completes (.rasterStop h) s fun t => t = s))

/-- The dot PLL and the references. The lock of a starting head's PLL sets PLLLOCK and RUNNING and begins the raster at line
0, quad 0.0 where the head follows no master exactly (R30). A running head's loss of it clears PLLLOCK (R220); no reference for two
frame periods clears SYNCLOCK (R36); an edge of GENLOCK_IN is the reference of every head genlocked to the pin, and of no other
(R35); the fold frame boundary, once T is reached, that of every head genlocked to the fold while EPVALID is 1 (R345, R346). A head
that the Stile freezes stops at the end of its line with RUN 1, RUNNING 0 and its queue kept, but for render-aligned entries of the line that have not issued, which
are late (R46, R388). -/
def Obligations.HeadReferences : Prop :=
  ∀ (s : State) (h : Head),
    (s.heads[h].phase = .starting → s.syncMode h.val ≠ 1 → Completes (.pllLock h) s fun t =>
      t.bget (aHead h.val 1) 23 = true ∧ t.bget (aHead h.val 1) 22 = true ∧ t.posLine h.val = 0 ∧ t.posQuad h.val = 0 ∧
      t.heads[h].phase = .running ∧ t.heads[h].begun = .start ∧ t.epoch h.val = s.epoch h.val ∧
      t.heads[h].lead = s.fget (aHead h.val 0) 14 12 + 1 ∧ ∀ g : Head, g ≠ h → t.heads[g] = s.heads[g]) ∧
    (s.running h.val = true → Completes (.dotClockLockLoss h) s fun t =>
      t.bget (aHead h.val 1) 22 = false ∧ t.running h.val = true ∧ t.heads = s.heads ∧ t.dram = s.dram ∧
      WordsKept s t [aHead h.val 1, aLark 0, aLark 1, aLark 2, aLark 3, aLark 4, aLark 5]) ∧
    (s.running h.val = true → s.syncMode h.val = 3 → s.heads[h].sinceRef = none → Completes (.referenceTimeout h) s fun t =>
      t.bget (aHead h.val 1) 21 = false ∧ WordsKept s t [aHead h.val 1] ∧ t = { s with ws := t.ws, heads := t.heads }) ∧
    (Completes .genlockIn s fun t => ∀ g : Head,
      (s.genlocked g false = true → t.heads[g].sinceRef = some 0 ∧
        (s.heads[g].snapDue = true → t.posLine g.val = 0 ∧ t.posQuad g.val = 0 ∧ t.heads[g].snapDue = false)) ∧
      (s.genlocked g false = false → t.heads[g] = s.heads[g])) ∧
    (s.foldDue = false → Completes .foldFrameBoundary s fun t => t = s) ∧
    (s.foldDue = true → Completes .foldFrameBoundary s fun t => ∀ g : Head,
      let takes := s.bget (aFold 2) 23 && s.genlocked g true
      t.heads[g].refEpoch = some s.fold.epoch ∧ (takes = true → t.heads[g].sinceRef = some 0) ∧
      (takes = false → t.heads[g] = { s.heads[g] with refEpoch := some s.fold.epoch })) ∧
    (let ends := s.heads[h].phase == .running && s.stile.haltHead.getLsbD h.val && s.lineEnd h
     (ends = false → Completes (.headFreeze h) s fun t => t = s) ∧
     (ends = true → Completes (.headFreeze h) s fun t => t.running h.val = false ∧ t.heads[h].phase = .frozen ∧
       t.bget (aHead h.val 0) 23 = s.bget (aHead h.val 0) 23 ∧ (∀ e ∈ s.heads[h].queue, e.idx ∉ s.heads[h].dueRender → e ∈ t.heads[h].queue) ∧
       (∀ e ∈ t.heads[h].queue, e ∈ s.heads[h].queue) ∧ (s.heads[h].dueRender = [] → t.heads[h].queue = s.heads[h].queue) ∧ t.epoch h.val = s.epoch h.val ∧
       t.posLine h.val = s.posLine h.val ∧ t.posQuad h.val = s.posQuad h.val ∧ t.dram = s.dram))

/-! ### The beam action queue -/

/-- A post through a core's or the debug master's port (R42 to R44). Refused, it leaves every queue as it was and QP_STATUS
holds the code of the first reason that applies, in the order BADTYPE, DENIED for a disabled head, BADPOS, DENIED, FULL,
LINEFULL, with the beam-queue event for FULL. Accepted, and not late, the entry stands at the end of the head's queue with
the port's words and its requester, QCOUNT counts it, and QP_STATUS holds code 0 and its handle. A late entry counts in LATE and raises
the beam-queue event. Nothing else changes. A cancel through a core's or the debug master's port (R44): NOTFOUND when no entry has the handle's index and generation
or the handle names another head, DENIED when the canceller lacks the right that a post of the entry would need, and then
nothing changes but QP_STATUS; otherwise CANCELLED, and the entry, it alone, leaves the queue. -/
def Obligations.QueueCommands : Prop :=
  (∀ (s : State) (r : Requester) (i : Fin 3) (v : Word), portOf r = some i →
      let p := s.ports[i]
      let h : Head := p.hd
      let e0 : QEntry := { idx := 0, gen := 0, w0 := p.w0, w1 := p.w1, w2 := p.w2, w3 := v, req := r }
      let q := s.heads[h].queue
      let code := if badType e0 then 3 else if s.headOff h.val then 5 else if s.badPos h.val e0 then 4
        else if !s.actionRight h.val e0 then 5 else if 1024 ≤ q.length then 1
        else if e0.tb && decide (256 ≤ (q.filter fun x => x.tb && x.line == e0.line && x.fmode == e0.fmode).length) then 2 else 0
      Completes (.qpPost r v) s fun t =>
        fld t.ports[i].status 23 21 = code ∧ t.ports[i].w3 = v ∧ t.ports[i].head = p.head ∧
        (∀ j : Fin 3, j ≠ i → t.ports[j] = s.ports[j]) ∧
        (code ≠ 0 → t.heads = s.heads ∧ t.ws = s.ws ∧ fld t.ports[i].status 20 0 = 0 ∧
          (code = 1 → EventRaised s t (24 + h.val) [0x0B8, 0x0BC]) ∧ (code ≠ 1 → NoEvent s t)) ∧
        (code = 0 →
          let e : QEntry := { e0 with idx := fld t.ports[i].status 9 0, gen := fld t.ports[i].status 17 10 }
          fld t.ports[i].status 20 18 = h.val ∧ (∀ x ∈ q, x.idx ≠ e.idx) ∧
          (∀ j < e.idx, ∃ x ∈ q, x.idx = j) ∧
          ((s.running h.val && s.epochLate h true e) = false →
            t.heads[h].queue = q ++ [e] ∧ t.fget (aHead h.val 0x0C) 10 0 = (q.length + 1) % 2048 ∧ NoEvent s t ∧
            (NoFlips s → WordsKept s t [aHead h.val 0x0C])) ∧
          ((s.running h.val && s.epochLate h true e) = true →
            t.fget (aHead h.val 0x0D) 23 16 = min 255 (s.fget (aHead h.val 0x0D) 23 16 + 1) ∧
            EventRaised s t (24 + h.val) [0x0B8, 0x0BC] ∧
            t.heads[h].queue = (if e.lateBit then q ++ [e] else q.filter fun x => x.idx ≠ e.idx))) ∧
        (∀ g : Head, g ≠ h → t.heads[g] = s.heads[g]) ∧ t.dram = s.dram ∧ t.fuses = s.fuses) ∧
  (∀ (s : State) (r : Requester) (i : Fin 3) (v : Word), portOf r = some i →
      let h : Head := s.ports[i].hd
      let hit := fun (e : QEntry) => e.idx == fld v 9 0 && e.gen == fld v 17 10
      let found := if fld v 20 18 = h.val then s.heads[h].queue.find? hit else none
      let code := match found with
        | none => 7
        | some e => if s.actionRight h.val { e with req := r } then 6 else 5
      Completes (.qpCancel r v) s fun t =>
        t.ports[i] = { s.ports[i] with status := wd (code * 2 ^ 21) } ∧ (∀ j : Fin 3, j ≠ i → t.ports[j] = s.ports[j]) ∧
        (code ≠ 6 → t.heads = s.heads ∧ t.ws = s.ws) ∧
        (code = 6 → t.heads[h].queue = (s.heads[h].queue.filter fun e => e.idx ≠ fld v 9 0) ∧
          t.fget (aHead h.val 0x0C) 10 0 = t.heads[h].queue.length % 2048) ∧
        (∀ g : Head, g ≠ h → t.heads[g] = s.heads[g]) ∧ WordsKept s t [aHead h.val 0x0C] ∧
        t = { s with ws := t.ws, heads := t.heads, ports := t.ports })

/-- A paddock's post and cancel through its beam port (R170): with its clock on, POST alone (CANCEL alone) and no post or
cancel of the last two cycles, the entry its sinks form is posted (the handle cancelled) in HEAD's queue with the paddock
as requester, and the result, laid out as QP_STATUS, is on its way for three cycles. Otherwise nothing happens. -/
def Obligations.PaddockQueuePort : Prop :=
  ∀ (s : State) (p : Pad),
    let c := s.portSink p.val 4
    let h : Head := Fin.ofNat 8 (fld c 2 0)
    let e : QEntry := { idx := 0, gen := 0, w0 := s.portSink p.val 0, w1 := s.portSink p.val 1, w2 := s.portSink p.val 2,
                        w3 := s.portSink p.val 3, req := .paddock p }
    let post := s.clocked p.val && bit c 23 && !bit c 22 && s.pads[p].post.isNone
    let cancel := s.clocked p.val && bit c 22 && !bit c 23 && s.pads[p].post.isNone
    (post = true → Completes (.paddockPost p) s fun t =>
      (t.pads[p].post.map fun x => (x.1, fld x.2 23 21)) = some (3, s.postCode h e) ∧ (∀ o : Pad, o ≠ p → t.pads[o] = s.pads[o]) ∧
      (s.postCode h e ≠ 0 → t.heads = s.heads) ∧
      (s.postCode h e = 0 → s.running h.val = false →
        (t.heads[h].queue.getLast?.map fun x => (x.w0, x.w1, x.w2, x.w3, x.req)) = some (e.w0, e.w1, e.w2, e.w3, e.req)) ∧
      ∀ g : Head, g ≠ h → t.heads[g] = s.heads[g]) ∧
    (post = false → Completes (.paddockPost p) s fun t => t = s) ∧
    (cancel = true → Completes (.paddockCancel p) s fun t =>
      (let code := match (if fld (s.portSink p.val 0) 20 18 = h.val then s.heads[h].queue.find? fun x =>
            x.idx == fld (s.portSink p.val 0) 9 0 && x.gen == fld (s.portSink p.val 0) 17 10 else none) with
          | none => 7
          | some x => if s.actionRight h.val { x with req := .paddock p } then 6 else 5
        (t.pads[p].post.map fun x => (x.1, fld x.2 23 21)) = some (3, code) ∧
        (code ≠ 6 → t.heads = s.heads) ∧
        (code = 6 → t.heads[h].queue = s.heads[h].queue.filter fun x => x.idx ≠ fld (s.portSink p.val 0) 9 0)) ∧
      (∀ o : Pad, o ≠ p → t.pads[o] = s.pads[o]) ∧ ∀ g : Head, g ≠ h → t.heads[g] = s.heads[g]) ∧
    (cancel = false → Completes (.paddockCancel p) s fun t => t = s)

/-- The entry that a head issues next, when its words are sound and its requester still holds the right of R403 (R42, R45,
R49): a NEXT or EPOCH entry leaves the queue, an EVERY entry stays, and the action has its effect. MARK copies TARGET and VALUE to MARK0 and
MARK1 and raises the beam-queue event; WRITE gives VALUE to the fields of a descriptor, palette entry, object entry, timer or
palette map word, where what a higher-numbered head's queue wrote in the same cycle stands (R50); PALSWAP exchanges two palettes of the
map; TIMER starts and stops; PIN sets, clears or toggles one OUT bit; STROBE presents its strobe, head and VALUE to its paddock; VOICE
gathers a key command; SWAP starts the paddock's swap, its load joining the ICP's, or is discarded and counted (R211). An entry whose right is lost is discarded, counted in DENIED, and raises the beam-queue event. -/
def Obligations.QueueActions : Prop :=
  ∀ (s : State) (h : Head) (e : QEntry), s.nextDue h = some e → (∀ w < 4, s.badAt 22 (queueWord h.val e.idx w) = none) →
    let taken := fun (t : State) => t.heads[h].queue = if e.fmode = 2 then s.heads[h].queue else s.heads[h].queue.filter fun x => x.idx ≠ e.idx
    let q := aHead h.val 0x0C
    let act : Instr := match e.type with
      | 0 => .mark h | 1 => .write h | 2 => .palswap h | 3 => .voice h | 4 => .timer h | 5 => .pin h | 6 => .strobe h | _ => .swap h
    (e.type < 8 → s.actionRight h.val e = false → Completes act s fun t =>
      t.heads[h].queue = (s.heads[h].queue.filter fun x => x.idx ≠ e.idx) ∧
      t.fget (aHead h.val 0x0D) 15 8 = min 255 (s.fget (aHead h.val 0x0D) 15 8 + 1) ∧ EventRaised s t (24 + h.val) [0x0B8, 0x0BC] ∧
      WordsKept s t [q, aHead h.val 0x0D] ∧ t = { s with ws := t.ws, hw := t.hw, pcie := t.pcie, heads := t.heads }) ∧
    (s.actionRight h.val e = true →
      (e.type = 0 → Completes (.mark h) s fun t => taken t ∧ t.rd (aHead h.val 0x0E) = e.w2 ∧ t.rd (aHead h.val 0x0F) = e.w3 ∧
        EventRaised s t (24 + h.val) [0x0B8, 0x0BC] ∧ WordsKept s t [q, aHead h.val 0x0E, aHead h.val 0x0F] ∧
        t = { s with ws := t.ws, hw := t.hw, pcie := t.pcie, heads := t.heads }) ∧
      (e.type = 1 → plainTarget (locOf e.w2.toNat) = true → let a := e.w2.toNat
        let puts := fun (v : Word) (t : State) => taken t ∧ t.rd a = writeView (fieldsOf (locOf a)) (s.rd a) v ∧
          (NoFlips s → WordsKept s t [q, a]) ∧ NoEvent s t
        ((∀ x ∈ s.cycNow, x.key = a → x.rank ≤ h.val + 1) → Completes (.write h) s (puts e.w3)) ∧
        ∀ x ∈ s.cycNow, LaterWrite s (32 + h.val) (h.val + 1) a x → Completes (.write h) s (puts x.value)) ∧
      (e.type = 2 → let a := fld e.w2 7 4; let b := fld e.w2 3 0
        let map := fun (t : State) (n : Nat) => t.fget (aHead h.val (0x19 + n / 6)) (4 * (n % 6) + 3) (4 * (n % 6))
        Completes (.palswap h) s fun t => taken t ∧ map t a = map s b ∧ map t b = map s a ∧
          (∀ n < 16, n ≠ a → n ≠ b → map t n = map s n) ∧
          WordsKept s t [q, aHead h.val (0x19 + a / 6), aHead h.val (0x19 + b / 6)] ∧ t = { s with ws := t.ws, heads := t.heads }) ∧
      (e.type = 3 → e.w3.toNat < 3 → s.cycNow = [] → Completes (.voice h) s fun t => taken t ∧
        t.lark.keys = s.lark.keys ++ [{ voice := fld e.w2 7 0, op := e.w3.toNat }] ∧ WordsKept s t [q]) ∧
      (e.type = 4 → e.w3.toNat < 3 → s.cycNow = [] → let u := s.tAct (Fin.ofNat 16 (fld e.w2 3 0))
        Completes (.timer h) s fun t => taken t ∧ t.tRun u = decide (e.w3.toNat ≠ 1) ∧
          (e.w3.toNat = 2 → t.rd (aTimer u.val 2) = s.rd (aTimer u.val 5)) ∧
          (e.w3.toNat ≠ 2 → WordsKept s t [q, aTimer u.val 0]) ∧ ∀ v : Tmr, v.val / 2 ≠ u.val / 2 →
            t.rd (aTimer v.val 0) = s.rd (aTimer v.val 0) ∧ t.rd (aTimer v.val 2) = s.rd (aTimer v.val 2)) ∧
      (e.type = 5 → e.w3.toNat < 3 → s.cycNow = [] → let out := aBank (fld e.w2 11 8) 1
        Completes (.pin h) s fun t => taken t ∧ (∀ n < 24, bit (t.rd out) n = if n = fld e.w2 4 0 then
          (match e.w3.toNat with | 0 => true | 1 => false | _ => !bit (s.rd out) n) else bit (s.rd out) n) ∧
          WordsKept s t [q, out] ∧ t = { s with ws := t.ws, heads := t.heads, cyc := t.cyc, cycAt := t.cycAt }) ∧
      (e.type = 6 → s.cycNow = [] → let p : Pad := Fin.ofNat 16 (fld e.w2 3 0)
        Completes (.strobe h) s fun t => taken t ∧ t.pads[p].coming 0x5DB = e.w3 ∧ bit (t.pads[p].coming 0x5DA) (fld e.w2 7 4) = true ∧
          fld (t.pads[p].coming 0x5DA) 18 16 = h.val ∧ (∀ n < 16, n ≠ fld e.w2 7 4 →
            bit (t.pads[p].coming 0x5DA) n = bit (s.pads[p].coming 0x5DA) n) ∧
          (∀ o : Pad, o ≠ p → t.pads[o] = s.pads[o]) ∧ WordsKept s t [q] ∧
          t = { s with ws := t.ws, heads := t.heads, pads := t.pads, cyc := t.cyc, cycAt := t.cycAt }) ∧
      (e.type = 7 → s.cycNow = [] → let p : Pad := Fin.ofNat 16 (fld e.w2 3 0)
        let job := fun (j : IcpJob) => j.op == .load && j.pad == p.val && j.img == fld e.w3 5 0 && j.mbox.isNone
        (s.swapping p.val = false → s.imageFor (fld e.w3 5 0) p.val = true →
          Completes (.swap h) s fun t => taken t ∧ t.pads[p].closing = true ∧ (t.icp.any job || t.icpQueue.any job) = true ∧
            ∀ o : Pad, o ≠ p → t.pads[o] = s.pads[o]) ∧
        ((s.swapping p.val = true ∨ s.imageFor (fld e.w3 5 0) p.val = false) →
          Completes (.swap h) s fun t => taken t ∧ t.fget (aPad p.val 0x0A) 7 0 = min 255 (s.fget (aPad p.val 0x0A) 7 0 + 1) ∧
            EventRaised s t 33 [] ∧ t.pads = s.pads ∧ t.icp = s.icp ∧ t.icpQueue = s.icpQueue)))

/-! ### Slots, lines and outputs (03_layers_tiles.md, 04_objects.md, 05_composition_output.md) -/

/-- A write of SLOTn by a requester with rights while no rotation runs (R52): the blend fields take the value; ENG takes it
unless it exceeds 65, is named by another enabled slot of any head or is marked failed, or (KZ2404) the slot is of H4 to H7;
EN takes it unless it enables a slot whose engine another enabled slot names or is marked failed; either refusal raises the
head's layer event, and nothing else does. CINV marks its slot alone, to empty the engine at the next latch (R73). A write of NSLOT by a requester with rights is
ignored without an event while RUN is 1 or outside 2 to 8, and otherwise takes effect (R51). A write of TAPCTL by a requester with rights (R104): ignored with the output event when TLAT is below 4, TPAD is
disabled by fuse, or TEN = 1 and another head's TAPCTL holds that paddock's tap port in force or waiting; accepted, TAPCTL
takes it, on a stopped head it is in force at once and ACTIVE follows, on another it waits for a frame boundary. -/
def Obligations.LayerAndTapRegisters : Prop :=
  (∀ (s : State) (r : Requester) (h : Head) (n : Slot) (v : Word), let a := aHead h.val (0x10 + n.val)
      s.headOff h.val = false → s.mayWrite r (locOf a) = true → s.rotStep = 0 → s.cycNow = [] →
      let e := fld v 22 16
      let named := fun (e : Nat) => (List.range 8).any fun g => (List.range 8).any fun m =>
        !(g == h.val && m == n.val) && s.bget (aHead g (0x10 + m)) 23 && s.fget (aHead g (0x10 + m)) 22 16 == e
      let bad := decide (65 < e) || named e || s.engFailed e
      let e' := if bad then s.fget a 22 16 else e
      let refuse := bit v 23 && !s.bget a 23 && (named e' || s.engFailed e')
      Completes (.slotWrite r h n v) s fun t =>
        t.fget a 14 4 = fld v 14 4 ∧ t.fget a 22 16 = e' ∧ t.bget a 23 = (bit v 23 && !refuse) ∧ t.fget a 3 0 = s.fget a 3 0 ∧
        ((bad || refuse) = true → EventRaised s t (24 + h.val) [0x0B8, 0x0BC]) ∧ ((bad || refuse) = false → NoEvent s t) ∧
        (∀ g : Head, g ≠ h → t.heads[g] = s.heads[g]) ∧ t.heads[h] = { s.heads[h] with cinv := t.heads[h].cinv } ∧
        t.heads[h].cinv = (if bit v 15 then s.heads[h].cinv ||| (1 <<< n.val) else s.heads[h].cinv) ∧
        WordsKept s t [a] ∧ t = { s with ws := t.ws, hw := t.hw, pcie := t.pcie, heads := t.heads, rfault := false }) ∧
  (∀ (s : State) (r : Requester) (h : Head), s.headOff h.val = false →
      (∀ n : Slot, s.mayWrite r (locOf (aHead h.val (0x10 + n.val))) = true → Completes (.cinv r h n) s fun t =>
        (∀ m < 8, t.heads[h].cinv.getLsbD m = (decide (m = n.val) || s.heads[h].cinv.getLsbD m)) ∧
        t.heads[h] = { s.heads[h] with cinv := t.heads[h].cinv } ∧ (∀ g : Head, g ≠ h → t.heads[g] = s.heads[g]) ∧
        t = { s with heads := t.heads, rfault := false }) ∧
      ∀ v : Word, s.mayWrite r (locOf (aHead h.val 0x18)) = true → s.rotStep = 0 →
        ((s.bget (aHead h.val 0) 23 = true ∨ fld v 23 20 < 2 ∨ 8 < fld v 23 20) →
          Completes (.nslotWrite r h v) s fun t => t = { s with rfault := false }) ∧
        (s.bget (aHead h.val 0) 23 = false → 2 ≤ fld v 23 20 → fld v 23 20 ≤ 8 → Completes (.nslotWrite r h v) s fun t =>
          t.fget (aHead h.val 0x18) 23 20 = fld v 23 20 ∧ WordsKept s t [aHead h.val 0x18] ∧
          t = { s with ws := t.ws, rfault := false })) ∧
  (∀ (s : State) (r : Requester) (h : Head) (v : Word), let a := aHead h.val 0x1E
      s.headOff h.val = false → s.mayWrite r (locOf a) = true →
      let set : TapSet := { en := bit v 23, pad := fld v 22 19, lat := fld v 18 9 }
      let held := (List.finRange 8).any fun g => g != h && ((s.heads[g].tap.en && s.heads[g].tap.pad == set.pad) ||
        (s.heads[g].tapNext.any fun t => t.en && t.pad == set.pad) || (s.heads[g].tapThen.any fun t => t.en && t.pad == set.pad))
      let refused := decide (set.lat < 4) || (s.fuses.is2404 && decide (8 ≤ set.pad)) || (set.en && held)
      (refused = true → Completes (.tapctlWrite r h v) s fun t => EventRaised s t (16 + h.val) [] ∧
        t = { s with hw := t.hw, pcie := t.pcie, rfault := false }) ∧
      (refused = false → Completes (.tapctlWrite r h v) s fun t =>
        t.fget a 23 9 = fld v 23 9 ∧ NoEvent s t ∧ (∀ g : Head, g ≠ h → t.heads[g] = s.heads[g]) ∧
        (s.heads[h].phase = .stopped → t.heads[h].tap = set ∧ t.bget (aHead h.val 0x36) 23 = set.en) ∧
        (s.heads[h].phase ≠ .stopped → t.heads[h].tap = s.heads[h].tap ∧ t.bget (aHead h.val 0x36) 23 = s.bget (aHead h.val 0x36) 23 ∧
          (t.heads[h].tapNext = some set ∨ t.heads[h].tapThen = some set)) ∧
        WordsKept s t [a, aHead h.val 0x36] ∧ t = { s with ws := t.ws, heads := t.heads, rfault := false }))

/-- The work of a latched line (R39, R91, R99 to R103). An engine that begins a line without occlusion delivered waits for it and
asks for nothing; one that begins a line with occlusion delivered, in sound memories, waits for its fetches within the capacity, or
where there are none holds its slot's pixels, and draws them or has finished. Occlusion delivered for the oldest line without it occludes, for each slot, exactly the columns that lie in
the certified span of a higher slot. At its deadline a line with an unfinished slot is missed: LINES counts it, SLOTS shows
its late slots, and the deadline event is raised on the first of its frame; a line ready by then is left alone. -/
def Obligations.LatchedLineWork : Prop :=
  ∀ (s : State) (h : Head),
    (∀ (n : Slot) (w : LineWork), nextLine (s.drawn h).heads[h].lines n = some w → w.occl = none →
      (s.engAtNo w.slots[n].work.eng).halted = false → Completes (.engineLineBegin h n) s fun t =>
        (∀ x ∈ t.heads[h].lines, x.lat.line = w.lat.line → x.slots[n].phase = .begun) ∧
        t.heads[h].lines.length = s.heads[h].lines.length ∧ t.chans = s.chans ∧ (∀ g : Head, g ≠ h → t.heads[g] = s.heads[g]) ∧
        t = { s with heads := t.heads }) ∧
    (∀ (n : Slot) (w : LineWork), nextLine (s.drawn h).heads[h].lines n = some w → w.occl.isSome = true → w.slots[n].work.eng < 66 →
      (w.slots[n].standIn.all fun y => decide (y < 66)) = true → (s.engAtNo w.slots[n].work.eng).halted = false → Sound s →
      let e := s.engAtNo w.slots[n].work.eng
      let got := (s.drawn h).drawSlot h w n.val (nth [] (w.occl.getD []) n.val) (if w.slots[n].fresh then e.emptied else e)
      let shows := got.2.1.map fun r => { r with out := some (s.resolve h.val w.lat.pmap r) }
      Completes (.engineLineBegin h n) s fun t =>
        (∀ x ∈ t.heads[h].lines, x.lat.line = w.lat.line →
          ((x.slots[n].phase = .waiting ∧ x.slots[n].work.units ≠ [] ∧ ∀ u ∈ x.slots[n].work.units, u ∈ got.1.units ∧ 32 * u < s.dramCap) ∨
           (x.slots[n].phase = (if got.2.2 = 0 then .finished else .drawing) ∧ (∀ u ∈ got.1.units, s.dramCap ≤ 32 * u) ∧
            x.slots[n].px = EngWork.line { EngWork.idle 0 with raw := shows } (s.raster h.val).hact))) ∧
        t.heads[h].lines.length = s.heads[h].lines.length ∧ ∀ g : Head, g ≠ h → t.heads[g] = s.heads[g]) ∧
    (∀ w : LineWork, (s.heads[h].lines.find? fun x => x.occl.isNone) = some w →
      (∀ n : Slot, w.slots[n].phase ≠ .begun) → Completes (.occlusionDelivery h) s fun t =>
        (∃ x ∈ t.heads[h].lines, x.lat = w.lat ∧ x.occl.isSome = true ∧ ∀ n < 8, ∀ c < 4 * (s.raster h.val).hact,
          inSpans (nth [] (x.occl.getD []) n) c = (List.range 8).any fun m => decide (n < m) && inSpans (w.lat.certSpans m (s.raster h.val).hact) c) ∧
        t = { s with heads := t.heads }) ∧
    (∀ (w : LineWork) (rest : List LineWork), (s.drawn h).heads[h].lines = w :: rest → s.deadlinePassed h w.lat.line = true →
      (w.ready = true → Completes (.lineDeadline h) s fun t => t = s.drawn h) ∧
      (w.ready = false → Completes (.lineDeadline h) s fun t =>
        t.fget (aHead h.val 0x1F) 23 12 = min 4095 (s.fget (aHead h.val 0x1F) 23 12 + 1) ∧
        (∀ n : Slot, t.bget (aHead h.val 0x1F) n.val = !(w.slots[n].phase == .finished)) ∧
        (t.heads[h].lines.head?.map fun x => (x.lat, x.missed)) = some (w.lat, true) ∧
        ((s.heads[h].sig.isOpen && decide (s.posLine h.val ≤ w.lat.line)) = true →
          t.heads[h].sig.misses = s.heads[h].sig.misses + 1 ∧ t.heads[h].sig.flags.getLsbD 0 = true ∧
          (s.heads[h].fr.missRaised = false → EventRaised s t (8 + h.val) []) ∧ (s.heads[h].fr.missRaised = true → NoEvent s t)) ∧
        (∀ c : Chan, t.chans[c].writes = s.chans[c].writes ∧
          (t.chans[c].reads.map fun r => { r with line := 0 }) = s.chans[c].reads.map fun r => { r with line := 0 }) ∧
        WordsKept s t [aHead h.val 0x1F] ∧
        t = { s with ws := t.ws, hw := t.hw, pcie := t.pcie, heads := t.heads, chans := t.chans }))

/-- Evaluation and composition (R41, R47, R85, R93, R100 to R102). Once the render-aligned entries of the beam line have
issued, the active line b + L + 1 is evaluated once, with at most 512 slivers; no line otherwise, nor before the frame has begun. The
oldest line of a head, ready, not mirrored
and with sound line buffers, is composed and leaves the engines: not missed, each pixel is the finished slots' pixels blended
in slot order over the latched backdrop; missed, it is the backdrop, the finished slots alone, or the last line, as MISSPOL latched says. -/
def Obligations.LineComposition : Prop :=
  ∀ (s : State) (h : Head),
    (let k := (s.posLine h.val + s.heads[h].lead + 1) % max 1 (s.raster h.val).vtotal
     let due := s.running h.val && s.heads[h].begun == .flow && s.heads[h].dueRender.isEmpty && decide (k < (s.raster h.val).vact) &&
       s.heads[h].evals.all fun e => e.line != k
     (due = true → Completes (.objectEvaluation h) s fun t =>
        (t.heads[h].evals.getLast?.map fun e => (e.line, decide (e.slivers.length ≤ 512))) = some (k, true) ∧
        t.heads[h].evals.length = s.heads[h].evals.length + 1 ∧ t.posLine h.val = s.posLine h.val ∧ t.dram = s.dram ∧
        (∀ g : Head, g ≠ h → t.heads[g] = s.heads[g])) ∧
     (due = false → Completes (.objectEvaluation h) s fun t => t = s)) ∧
    (∀ (w : LineWork) (rest : List LineWork), (s.drawn h).heads[h].lines = w :: rest → w.ready = true → s.repair.mirror = false → Sound s →
      let hact := (s.raster h.val).hact
      let back := List.replicate (4 * hact) w.lat.backdrop
      let mixed := (List.range (4 * hact)).map fun x => rgbWord ((List.finRange 8).foldl (fun d (n : Slot) =>
        if w.lat.draws n.val && w.slots[n].phase == .finished && !inSpans (nth [] (w.occl.getD []) n.val) x then
          blendPx (w.lat.slot n.val) (inSpans (w.lat.certSpans n.val hact) x) (nth Px.clear w.slots[n].px x) d else d)
        (fld w.lat.backdrop 23 16, fld w.lat.backdrop 15 8, fld w.lat.backdrop 7 0))
      let out := if !w.missed then mixed else match fld w.lat.comp 23 22 with
        | 1 => back
        | 2 => mixed
        | _ => if w.lat.line = 0 then back else s.heads[h].lastLine.getD back
      Completes (.composeLine h) s fun t =>
        t.heads[h].lastLine = some out ∧ t.heads[h].composed.getLast? = some (w.lat.line, out) ∧
        (t.heads[h].lines.all fun v => v.lat.line != w.lat.line) = true ∧
        (∀ g : Head, g ≠ h → t.heads[g] = s.heads[g]) ∧ t = { s with heads := t.heads })

/-- The pixel tap (R105 to R107). A quad of the frame in progress whose time is TLAT quads ahead is presented, with its
position as tag and its composed dots, to the paddock whose tap is in force, for one fabric cycle, and awaited; not in Dim,
not in bypass, not twice. A quad returned by a clocked paddock with the tag of the oldest one awaited is taken from the list and kept for its
place; with any other tag TAGERR counts it, and nothing else changes. -/
def Obligations.PixelTap : Prop :=
  ∀ (s : State) (h : Head),
    (∀ (t0 : TapSet) (k q : Nat), s.running h.val = true → s.tapTarget h false = some (t0, k, q) → s.tapTarget h true = none →
      let p : Pad := Fin.ofNat 16 t0.pad
      let tag := packBeam k q
      t0.pad < 16 → q ≠ 0 → s.dimFor h k = false → s.bget (aHead h.val 0x36) 22 = false →
      (s.heads[h].tapSent.any fun e => e.2 == tag) = false → (s.heads[h].tapBack.any fun e => e.1 == tag) = false →
      Completes (.tapTransfer h) s fun t =>
        bit (t.pads[p].coming 0x5E0) 23 = true ∧ t.pads[p].coming 0x5E1 = tag ∧
        (∀ i < 4, t.pads[p].coming (0x5E2 + i) = nth 0 (s.outLine h k) (4 * q + i)) ∧
        t.heads[h].tapSent = s.heads[h].tapSent ++ [(t0.pad, tag)] ∧ (∀ o : Pad, o ≠ p → t.pads[o] = s.pads[o]) ∧
        t = { s with heads := t.heads, pads := t.pads }) ∧
    (∀ p : Pad, s.tapOwner p.val = some h → (s.pads[p].acted.contains 2030) = false → s.clocked p.val = true →
      bit (s.portSink p.val 5) 23 = true →
      let tag := s.portSink p.val 6
      let oldest := s.heads[h].tapSent.find? fun e => e.1 == p.val
      (oldest.map (·.2) = some tag → Completes (.tapReturn p) s fun t =>
        t.heads[h].tapSent = s.heads[h].tapSent.erase (p.val, tag) ∧
        ((t.heads[h].tapBack.getLast?).map (·.1)) = some tag ∧ t.heads[h].tapBack.length = s.heads[h].tapBack.length + 1 ∧
        t = { s with heads := t.heads, pads := t.pads }) ∧
      (oldest.map (·.2) ≠ some tag → Completes (.tapReturn p) s fun t =>
        t.fget (aHead h.val 0x36) 7 0 = min 255 (s.fget (aHead h.val 0x36) 7 0 + 1) ∧ t.heads = s.heads ∧
        WordsKept s t [aHead h.val 0x36] ∧ t = { s with ws := t.ws, pads := t.pads }))

/-- The ring of signature records (R111 to R114): the oldest closed record goes to slot (WIDX + 1) mod 8, which becomes WIDX,
as its 40 words, with the MAC of the attestation key when keyed; when 7 records were unread RIDX moves on by one and OVER
counts the one given up; the signature event is raised. Without a closed record nothing changes. -/
def Obligations.SignatureRing : Prop :=
  ∀ (s : State) (h : Head), let a := aHead h.val 0x35
    (s.heads[h].closed = [] → Completes (.signatureRecordWrite h) s fun t => t = s) ∧
    (∀ (r : SigRec) (rest : List SigRec), s.heads[h].closed = r :: rest → r.rcrc.length = 16 →
      let n := (s.fget a 23 21 + 1) % 8
      let full := decide ((s.fget a 23 21 + 8 - s.fget a 20 18) % 8 = 7)
      let body := r.head80 h.val r.keyed
      let mac := if r.keyed then hmacSha256 (attestKey s.fuses.drk) body else List.replicate 32 0
      Completes (.signatureRecordWrite h) s fun t =>
        t.fget a 23 21 = n ∧ t.fget a 20 18 = (if full then (s.fget a 20 18 + 1) % 8 else s.fget a 20 18) ∧
        t.fget a 7 0 = (if full then min 255 (s.fget a 7 0 + 1) else s.fget a 7 0) ∧
        (bytesOfWords ((List.range 40).map fun i => t.rd (aRing h.val (0x40 * n + i)))) = body ++ mac ++ List.replicate 8 0 ∧
        body.length = 80 ∧ t.heads[h].closed = rest ∧ EventRaised s t h.val [] ∧
        WordsKept s t (a :: (List.range 40).map fun i => aRing h.val (0x40 * n + i)) ∧
        t = { s with ws := t.ws, hw := t.hw, pcie := t.pcie, heads := t.heads })

/-- OEN (R115, R121). Written from 0 to 1, the selected output is checked: OUTERR takes the lowest code that applies, and a
failure leaves OEN 0 and raises the output event; with code 0 OEN is 1. Written to 0, the output is off and LANEFLT is clear. OEN already 1, or a head disabled by
fuse, changes nothing. A DisplayPort head's sink. A shorted lane that is driven is shut down: its bit of LANEFLT and SHORT are set, TRAINOK and
LINKUP clear, the frame in progress is flagged, the output event is raised (R121); a lane not driven does nothing. DP_HPD low
for 2 ms while HPD is 1 clears HPD, TRAINOK and LINKUP, counts in UNPLUGS and raises the event; a rise while HPD is 0 sets
HPD and raises it; a low pulse of 0.25 ms to below 2 ms raises it; a shorter one does nothing (R122). -/
def Obligations.OutputStates : Prop :=
  (∀ (s : State) (h : Head), let a := aHead h.val 0x30; let st := aHead h.val 0x31
      let others := fun (t : State) => t.fget a 22 0 = s.fget a 22 0 ∧ t.bget st 23 = s.bget st 23 ∧ t.bget st 21 = s.bget st 21 ∧
        t.fget st 12 0 = s.fget st 12 0 ∧ (∀ g : Head, g ≠ h → t.heads[g] = s.heads[g]) ∧
        t.heads[h] = { s.heads[h] with lvdsLost := t.heads[h].lvdsLost } ∧ WordsKept s t [a, st] ∧
        t = { s with ws := t.ws, hw := t.hw, pcie := t.pcie, heads := t.heads }
      ((s.headOff h.val = true ∨ s.bget a 23 = true) → Completes (.outputEnable h) s fun t => t = s) ∧
      (s.headOff h.val = false → s.bget a 23 = false →
        let code := (s.bset a 23 true).outCode h.val
        Completes (.outputEnable h) s fun t => t.fget st 16 13 = code ∧ t.bget a 23 = (code == 0) ∧
          (code ≠ 0 → EventRaised s t (16 + h.val) [] ∧ t.bget st 22 = false) ∧ (code = 0 → NoEvent s t ∧ t.bget st 22 = t.linkUp h.val) ∧
          t.fget st 20 17 = (if code = 0 then s.fget st 20 17 else 0) ∧ others t) ∧
      (s.headOff h.val = false → Completes (.outputDisable h) s fun t => t.bget a 23 = false ∧ t.bget st 22 = false ∧
        t.fget st 20 17 = 0 ∧ t.fget st 16 13 = s.fget st 16 13 ∧ NoEvent s t ∧ others t)) ∧
  (∀ (s : State) (h : Head), let a := aHead h.val 0x30; let st := aHead h.val 0x31; let dp := aHead h.val 0x32
      let frame := fun (t : State) => (∀ g : Head, g ≠ h → t.heads[g] = s.heads[g]) ∧ t.rd a = s.rd a ∧
        t.fget dp 23 14 = s.fget dp 23 14 ∧ t.fget dp 12 0 = s.fget dp 12 0 ∧ t.fget st 16 8 = s.fget st 16 8 ∧ WordsKept s t [st, dp] ∧
        t = { s with ws := t.ws, hw := t.hw, pcie := t.pcie, heads := t.heads }
      (∀ l : Fin 4, (s.bget a 23 && !s.bget a 22 && decide (l.val < laneCount (s.fget dp 23 22)) && !s.bget st (17 + l.val)) = true →
        Completes (.laneShort h l) s fun t =>
          (∀ m < 4, t.bget st (17 + m) = (decide (m = l.val) || s.bget st (17 + m))) ∧ t.bget st 21 = true ∧ t.bget dp 13 = false ∧
          t.bget st 22 = false ∧ (s.heads[h].sig.isOpen = true → t.heads[h].sig.flags.getLsbD 5 = true) ∧
          t.bget st 23 = s.bget st 23 ∧ t.fget st 7 0 = s.fget st 7 0 ∧ EventRaised s t (16 + h.val) [] ∧ frame t) ∧
      (∀ l : Fin 4, (s.bget a 23 && !s.bget a 22 && decide (l.val < laneCount (s.fget dp 23 22)) && !s.bget st (17 + l.val)) = false →
        Completes (.laneShort h l) s fun t => t = s) ∧
      (s.bget st 23 = true → Completes (.unplug h) s fun t => t.bget st 23 = false ∧ t.bget dp 13 = false ∧
        (s.bget a 22 = false → t.bget st 22 = false) ∧ t.fget st 7 0 = min 255 (s.fget st 7 0 + 1) ∧ t.fget st 21 17 = s.fget st 21 17 ∧
        EventRaised s t (16 + h.val) [] ∧ frame t) ∧
      (s.headOff h.val = false → ∀ us : Nat,
        (s.bget st 23 = false → Completes (.hpdRise h us) s fun t => t.bget st 23 = true ∧ t.fget st 21 0 = s.fget st 21 0 ∧
          t.bget dp 13 = s.bget dp 13 ∧ EventRaised s t (16 + h.val) [] ∧ frame t) ∧
        (s.bget st 23 = true → 250 ≤ us → us < 2000 → Completes (.hpdRise h us) s fun t =>
          EventRaised s t (16 + h.val) [] ∧ t = { s with hw := t.hw, pcie := t.pcie }) ∧
        (s.bget st 23 = true → us < 250 → Completes (.hpdRise h us) s fun t => t = s)))


/-! ### DRAM (06_dram_fetch.md) -/

/-- Writes of the scheduler's registers by a requester with rights, that is Caeruno or the debug master at level 3
(R136, R139 to R141). DRCFG keeps once DONE is 1, on NCH 0b11 and on an unlisted CAP. TAGRES keeps, with the DRAM event, when
its fields sum to more than 48, SHARE when they sum to more than 128; with a TAGRES it takes, every read that waits takes a tag while its
class may have one. A write that sets EN of an ECC region keeps the
register, with the event, when R136 refuses the region; else BASE and EN take it. DRAM training (R128, R139): with no row marked for repair, DONE is 1, TRAINED holds the channels that trained, INUSE and
NCH the largest of {C0}, {C0, C1}, {C0, C1, C2, C3} whose channels all trained, CAP the capacity; with C0 failed INUSE is 0,
the populated capacity is 0 and the device enters SAFE with reason 5. It happens once. -/
def Obligations.DramSetup : Prop :=
  (∀ (s : State) (r : Requester) (v : Word), s.mayWrite r (.dramReg 0) = true →
      let kept := fun (t : State) => t = { s with rfault := false }
      let takes := fun (t : State) (a : Nat) => NoEvent s t ∧ WordsKept s t [a] ∧ t = { s with ws := t.ws, rfault := false }
      let refuses := fun (t : State) => EventRaised s t 34 [] ∧ t = { s with hw := t.hw, pcie := t.pcie, rfault := false }
      (s.bget (aDram 1) 23 = true ∨ fld v 23 22 = 3 ∨ 4 < fld v 21 19 → Completes (.drcfgWrite r v) s kept) ∧
      (s.bget (aDram 1) 23 = false → fld v 23 22 ≠ 3 → fld v 21 19 ≤ 4 → Completes (.drcfgWrite r v) s fun t =>
        t.fget (aDram 0) 23 19 = fld v 23 19 ∧ takes t (aDram 0)) ∧
      (48 < fld v 23 18 + fld v 17 12 + fld v 11 6 + fld v 5 0 → Completes (.tagresWrite r v) s refuses) ∧
      (fld v 23 18 + fld v 17 12 + fld v 11 6 + fld v 5 0 ≤ 48 → Completes (.tagresWrite r v) s fun t => t.rd (aDram 2) = v ∧ NoEvent s t ∧
        (∀ c : Chan, t.chans[c] = { s.chans[c] with reads := t.chans[c].reads } ∧
          (t.chans[c].reads.map fun x => { x with tag := false, no := 0 }) = (s.chans[c].reads.map fun x => { x with tag := false, no := 0 }) ∧
          (∀ e ∈ s.chans[c].reads.zip t.chans[c].reads, e.1.tag = true → e.2 = e.1) ∧
          ∀ x ∈ t.chans[c].reads, x.tag = true ∨ x.cls = 0 ∨ 4 < x.cls ∨ t.tagFree t.chans[c].reads x.cls = false) ∧
        WordsKept s t (aDram 2 :: (List.range 4).map fun c => aChan c 2) ∧ t = { s with ws := t.ws, chans := t.chans, rfault := false }) ∧
      (128 < fld v 23 16 + fld v 15 8 + fld v 7 0 → Completes (.shareWrite r v) s refuses) ∧
      (fld v 23 16 + fld v 15 8 + fld v 7 0 ≤ 128 → Completes (.shareWrite r v) s fun t => t.rd (aDram 3) = v ∧ takes t (aDram 3)) ∧
      ∀ n : Fin 8, let a := aDram (0x10 + 3 * n.val)
        let area := fun (q : Nat) => -- first byte, end and check base of region q
          (s.fget (aDram (0x10 + 3 * q)) 23 9 * 2 ^ 20, (s.fget (aDram (0x11 + 3 * q)) 23 9 + 1) * 2 ^ 20, s.fget (aDram (0x12 + 3 * q)) 23 6 * 2 ^ 17)
        let lo := fld v 23 9 * 2 ^ 20
        let hi := (area n.val).2.1
        let chk := (area n.val).2.2
        let meets := fun (x y : Nat) => decide (chk < y ∧ x < chk + (hi - lo) / 8) -- the check area meets [x, y)
        let bad := decide (s.fget (aDram (0x11 + 3 * n.val)) 23 9 < fld v 23 9) || meets lo hi || decide (s.dramCap < hi) ||
          decide (s.dramCap < chk + (hi - lo) / 8) ||
          (List.range 8).any fun q => q != n.val && s.bget (aDram (0x10 + 3 * q)) 0 &&
            (meets (area q).1 (area q).2.1 || meets (area q).2.2 ((area q).2.2 + ((area q).2.1 - (area q).1) / 8))
        (s.bget a 0 = false → bit v 0 = true → bad = true → Completes (.eccRegionEnable r n v) s refuses) ∧
        (s.bget a 0 = false → bit v 0 = true → bad = false → Completes (.eccRegionEnable r n v) s fun t =>
          t.bget a 0 = true ∧ t.fget a 23 9 = fld v 23 9 ∧ t.fget a 8 1 = s.fget a 8 1 ∧ takes t a) ∧
        (s.bget a 0 = true → bit v 0 = true → Completes (.eccRegionEnable r n v) s kept) ∧
        (s.bget a 0 = true → bit v 0 = false → Completes (.eccRegionEnable r n v) s fun t =>
          t.bget a 0 = false ∧ t.fget a 23 1 = s.fget a 23 1 ∧ takes t a)) ∧
  (∀ (s : State) (ok : BitVec 4) (cap : Fitted),
      (s.start ≠ .booted → Completes (.dramTraining ok cap) s fun t => t = s) ∧
      (s.start = .booted → s.markedRows = [] → Completes (.dramTraining ok cap) s fun t =>
        t.start = .trained ∧ t.drate = cap.rate ∧ t.bget (aDram 1) 23 = true ∧ t.fget (aDram 1) 22 19 = ok.toNat ∧ t.fget (aDram 1) 14 0 = 0 ∧
        (ok = 0xF → t.fget (aDram 1) 18 15 = 0xF ∧ t.nch = 4) ∧
        (ok ≠ 0xF → ok.getLsbD 0 = true → ok.getLsbD 1 = true → t.fget (aDram 1) 18 15 = 3 ∧ t.nch = 2) ∧
        (ok.getLsbD 0 = true → ok.getLsbD 1 = false → t.fget (aDram 1) 18 15 = 1 ∧ t.nch = 1) ∧
        (ok.getLsbD 0 = true → t.dramCap = t.nch * (2 ^ 29 * 2 ^ cap.cap.val) ∧ NoEvent s t ∧
          t = { s with ws := t.ws, start := .trained, drate := cap.rate }) ∧
        (ok.getLsbD 0 = false → t.fget (aDram 1) 18 15 = 0 ∧ t.dramCap = 0 ∧ t.dev = .safe ∧ t.reason = 5) ∧
        WordsKept s t [aDram 0, aDram 1] ∧ t.dram = s.dram))

/-- Reads (R127, R130, R131, R132, R133, R137, R138, R292). A request beyond the capacity is counted in OOR of its channel with the
DRAM event, and the host's returns zero; one within it, outside ECC regions, waits in its channel in its class. A channel issues a
pending read that holds a tag, if there is one and the queue of writes does not drain first; an urgent one always. The first issued
completes as its outcome says, and leaves the channel: a good unit changes no count; with link ECC on, a corrected one counts in LINKCE,
a failed one counts in RETRY and UE, is logged and raises the DRAM event; its bytes count in its class. Writes and refresh (R127,
R130, R133 to R135). A write within one unit below the capacity that needs no merge joins its channel's writes, the first 64 of which
are its queue and the others wait: behind all of them, but before one of the same cycle and unit whose writer follows its own; reads of
the unit accepted in its cycle see it; memory keeps until the queue drains. When no urgent read pends and the queue holds 48 entries or
no read is pending, the queued writes take effect in order, up to one that waits for the read it merges with, and every byte of
memory that none of them covers reads as before, outside ECC regions; write link ECC counts what it corrects. A refresh of a channel in
use takes the rate of its MR4 report. -/
def Obligations.DramAccesses : Prop :=
  (∀ (s : State) (c : Chan),
      (∀ (q : DramUser) (u : BitVec 30), let ch := s.chanOf (32 * u.toNat)
        let n := min 255 (s.fget (aChan ch.val 1) 15 8 + 1)
        (s.dramCap ≤ 32 * u.toNat → Completes (.dramReadRequest q u) s fun t =>
          n ≤ t.fget (aChan ch.val 1) 15 8 ∧ t.evFlag 34 = true ∧
          ((∀ i, q ≠ .copy i) → q ≠ .loader → t.fget (aChan ch.val 1) 15 8 = n ∧ t.chans = s.chans) ∧
          (q = .host → (s.dreads.any fun x => x.user == .host && x.wait.contains u.toNat) = false →
            t.pcie.rdata = List.replicate 32 0 ∧ t.pcie.rpoison = false ∧ EventRaised s t 34 [] ∧
            WordsKept s t [aChan ch.val 1] ∧ t = { s with ws := t.ws, hw := t.hw, pcie := t.pcie })) ∧
        (32 * u.toNat < s.dramCap → s.checkAddr (32 * u.toNat) = none → Completes (.dramReadRequest q u) s fun t =>
          t.chans[ch].reads.length = s.chans[ch].reads.length + 1 ∧
          (t.chans[ch].reads.getLast?.map fun x => (x.user, x.unit, x.cls, x.issued, x.merge, x.data)) =
            some (q, u.toNat, dramClass q, false, false, s.unitNow u.toNat) ∧
          (∀ d : Chan, d ≠ ch → t.chans[d] = s.chans[d]) ∧ t.chans[ch].writes = s.chans[ch].writes ∧
          WordsKept s t [aChan ch.val 2] ∧ t = { s with ws := t.ws, chans := t.chans, dcyc := t.dcyc })) ∧
      (∀ x, s.nextRead c = some x → Completes (.dramReadIssue c) s fun t =>
        x.tag = true ∧ x.issued = false ∧ x ∈ s.chans[c].reads ∧ { x with issued := true } ∈ t.chans[c].reads ∧
        t.chans[c].reads.length = s.chans[c].reads.length ∧ t.chans[c].writes = s.chans[c].writes ∧
        (∀ d : Chan, d ≠ c → t.chans[d] = s.chans[d]) ∧ t = { s with chans := t.chans }) ∧
      (s.nextRead c = none →
        ((decide (48 ≤ s.chans[c].writes.length) && !(s.chans[c].writes.head?.any (·.merge))) = false →
          ∀ y ∈ s.chans[c].reads, y.tag = false ∨ y.issued = true) ∧
        (∀ y ∈ s.chans[c].reads, y.tag = true → y.issued = false → y.cls = 1 → s.sclk + 16 * s.fget (aDram 4) 23 12 < 64 * y.deadline) ∧
        Completes (.dramReadIssue c) s fun t => t = s) ∧
      (∀ (x : DRead) (o : ReadOutcome), s.chans[c].reads.find? (·.issued) = some x → s.checkAddr (32 * x.unit) = none → x.chk = false →
        x.merge = false → x.cls = 4 → x.user = .host → (s.dreads.any fun y => y.user == .host && y.wait.contains x.unit) = false → Sound s →
        let link := decide (s.drate ≠ 0)
        Completes (.dramReadComplete c o) s fun t =>
          t.chans[c].reads.length + 1 = s.chans[c].reads.length ∧ t.pcie.rdata = x.data ∧
          t.pcie.rpoison = ((link && o == .linkFailed) || o == .parityFailed) ∧
          t.fget (aChan c.val 0) 11 0 = (if link = true ∧ o = .linkCorrected then min 4095 (s.fget (aChan c.val 0) 11 0 + 1)
            else s.fget (aChan c.val 0) 11 0) ∧
          t.fget (aChan c.val 1) 7 0 = (if link = true ∧ (o = .linkRetried ∨ o = .linkFailed) then min 255 (s.fget (aChan c.val 1) 7 0 + 1)
            else s.fget (aChan c.val 1) 7 0) ∧
          t.fget (aChan c.val 1) 23 16 = (if link = true ∧ o = .linkFailed then min 255 (s.fget (aChan c.val 1) 23 16 + 1)
            else s.fget (aChan c.val 1) 23 16) ∧
          t.fget (aChan c.val 0) 23 12 = s.fget (aChan c.val 0) 23 12 ∧
          (link = true → o = .linkFailed → t.evFlag 34 = true) ∧
          ((link = false ∨ o ≠ .linkFailed) → NoEvent s { t with pcie := s.pcie }) ∧
          (∀ i : Fin 4, t.clsBytes[i] = if i.val = 3 then s.clsBytes[i] + 32 else s.clsBytes[i]) ∧
          (∀ d : Chan, d ≠ c → t.chans[d] = s.chans[d]) ∧ t.chans[c].writes = s.chans[c].writes ∧
          t = { s with ws := t.ws, hw := t.hw, pcie := t.pcie, chans := t.chans, clsBytes := t.clsBytes, cae := { s.cae with ledger := t.cae.ledger } })) ∧
  (∀ (s : State) (c : Chan),
      (∀ (q : DramUser) (a : BitVec 35) (d : List Byte), d ≠ [] → a.toNat % 32 + d.length ≤ 32 → a.toNat < s.dramCap →
        s.chanOf a.toNat = c → (s.checkAddr a.toNat = none ∨ (a.toNat % 8 = 0 ∧ (a.toNat + d.length) % 8 = 0)) →
        let all := s.chans[c].writes ++ s.chans[c].waiting
        let no := if s.dcyc.stamp = s.cycStamp ∧ q ∉ s.dcyc.makers then s.dcyc.no else s.dcyc.no + 1
        let meets := fun (x : DWrite) => decide (x.cyc = no ∧ x.addr / 32 = a.toNat / 32)
        Completes (.dramWriteRequest q a d) s fun t =>
          let w : DWrite := { user := q, cls := dramClass q, addr := a.toNat, data := d, merge := false, cyc := no }
          (∃ n ∈ List.range (all.length + 1), t.chans[c].writes ++ t.chans[c].waiting = all.take n ++ w :: all.drop n ∧
            (∀ x ∈ all.take n, meets x = true → writeRank x.user ≤ writeRank q) ∧
            ∀ x ∈ (all.drop n).take 1, meets x = true ∧ writeRank q < writeRank x.user) ∧
          t.chans[c].writes.length = min 64 (all.length + 1) ∧
          t.chans[c].reads = (s.chans[c].reads.map fun r =>
            if r.cyc = no ∧ r.unit = a.toNat / 32 ∧ !r.issued ∧ !r.chk then { r with data := t.unitNow r.unit } else r) ∧
          (∀ e : Chan, e ≠ c → t.chans[e] = s.chans[e]) ∧ t.dcyc.no = no ∧ t = { s with chans := t.chans, dcyc := t.dcyc }) ∧
      (let pend := s.chans[c].reads.filter fun r => !r.issued
       let drains := (s.urgent pend).isEmpty && (decide (48 ≤ s.chans[c].writes.length) || pend.isEmpty)
       let go := s.chans[c].writes.takeWhile fun w => !w.merge
       let rest := s.chans[c].writes.drop go.length
       ∀ fixed : Nat,
       (drains = false → Completes (.writeQueueDrain { chan := c, fixed := fixed }) s fun t => t = s) ∧
       (drains = true → (∀ a < 2 ^ 32, s.checkAddr (8 * a) = none) → Completes (.writeQueueDrain { chan := c, fixed := fixed }) s fun t =>
          t.chans[c].writes = rest ++ s.chans[c].waiting.take (64 - rest.length) ∧
          t.chans[c].waiting = s.chans[c].waiting.drop (64 - rest.length) ∧ t.chans[c].reads = s.chans[c].reads ∧
          (∀ a : Nat, spGet zeroB t.dram a = go.foldl (fun (b : Byte) w =>
            if a < w.addr ∨ s.dramCap ≤ a then b else w.data.getD (a - w.addr) b) (spGet zeroB s.dram a)) ∧
          (s.drate = 0 → t.fget (aChan c.val 0) 11 0 = s.fget (aChan c.val 0) 11 0) ∧
          (s.drate ≠ 0 → t.fget (aChan c.val 0) 11 0 = min 4095 (s.fget (aChan c.val 0) 11 0 + fixed)) ∧
          FieldKept s t (aChan c.val 0) 23 12 ∧ WordsKept s t [aChan c.val 0] ∧
          (∀ e : Chan, e ≠ c → t.chans[e] = s.chans[e]) ∧ t = { s with ws := t.ws, chans := t.chans, dram := t.dram })) ∧
      ∀ (sub : Bool) (mr4 : Fin 32),
        (Nat.testBit (s.fget (aDram 1) 18 15) c.val = true → Completes (.refresh c sub mr4) s fun t =>
          t.chans[c] = (if sub then { s.chans[c] with refB := mr4.val } else { s.chans[c] with refA := mr4.val }) ∧
          (∀ e : Chan, e ≠ c → t.chans[e] = s.chans[e]) ∧ t = { s with chans := t.chans }) ∧
        (Nat.testBit (s.fget (aDram 1) 18 15) c.val = false → Completes (.refresh c sub mr4) s fun t => t = s))


/-! ### Macrocells (07_sward_fabric.md) -/

/-- A cell that its controls let run an operation of one word takes the result and flags of R151, and QH keeps (R148 to R152,
R154): PASS, ADD, SUB, LOGIC, CMP, the shifts and the rotation, SELC, the lesser and the greater. -/
def Obligations.CellWordOperations : Prop :=
  ∀ (s : State) (p : Pad) (n : Cell), CellFree s p n → let o := s.opnd p.val n
    let fl := fun (x : CellSt) (c v : Bool) => x.z = (x.q == 0) ∧ x.n = bit x.q 23 ∧ x.c = c ∧ x.v = v ∧ x.qh = o.old.qh
    let ci := b2n o.ci
    let runs := fun (op : Nat) => s.cellRuns p n op = true
    (runs 0x01 → Completes (.pass p n) s fun t => CellTakes s t p n fun x => x.q = o.a ∧ fl x false false) ∧
    (runs 0x02 → Completes (.add p n) s fun t => CellTakes s t p n fun x => x.q.toNat = (o.a.toNat + o.b.toNat + ci) % 2 ^ 24 ∧
      fl x (decide (2 ^ 24 ≤ o.a.toNat + o.b.toNat + ci)) (decide (sgn x.q ≠ sgn o.a + sgn o.b + (ci : Int)))) ∧
    (runs 0x03 → Completes (.sub p n) s fun t => CellTakes s t p n fun x => x.q = o.a - o.b - wd ci ∧
      fl x (decide (o.a.toNat < o.b.toNat + ci)) (decide (sgn x.q ≠ sgn o.a - sgn o.b - (ci : Int)))) ∧
    (runs 0x04 → Completes (.logic p n) s fun t => CellTakes s t p n fun x =>
      (∀ i < 24, bit x.q i = o.tt.getLsbD (2 * b2n (bit o.a i) + b2n (bit o.b i))) ∧ fl x false false) ∧
    (runs 0x05 → Completes (.cmp p n) s fun t => CellTakes s t p n fun x => x.q = o.old.q ∧ x.qh = o.old.qh ∧ x.z = (o.a == o.b) ∧
      x.n = decide (sgn o.a < sgn o.b) ∧ x.c = decide (o.a.toNat < o.b.toNat) ∧ x.v = false) ∧
    (runs 0x06 → Completes (.shl p n) s fun t => CellTakes s t p n fun x => (∀ i < 24, bit x.q i = (decide (o.n ≤ i) && bit o.a (i - o.n))) ∧
      fl x (decide (0 < o.n ∧ o.n ≤ 24) && bit o.a (24 - o.n)) false) ∧
    (runs 0x07 → Completes (.shr p n) s fun t => CellTakes s t p n fun x => (∀ i < 24, bit x.q i = bit o.a (i + o.n)) ∧
      fl x (decide (0 < o.n) && bit o.a (o.n - 1)) false) ∧
    (runs 0x08 → Completes (.sar p n) s fun t => CellTakes s t p n fun x => (∀ i < 24, bit x.q i = bit o.a (min 23 (i + o.n))) ∧
      fl x (decide (0 < o.n) && bit o.a (min 23 (o.n - 1))) false) ∧
    (runs 0x09 → Completes (.rol p n) s fun t => CellTakes s t p n fun x => (∀ i < 24, bit x.q ((i + o.n) % 24) = bit o.a i) ∧ fl x false false) ∧
    (runs 0x0A → Completes (.selc p n) s fun t => CellTakes s t p n fun x => x.q = (if o.ci then o.a else o.b) ∧ fl x false false) ∧
    (runs 0x0B → Completes (.minu p n) s fun t => CellTakes s t p n fun x => x.q.toNat = min o.a.toNat o.b.toNat ∧
      fl x (decide (o.a.toNat < o.b.toNat)) false) ∧
    (runs 0x0C → Completes (.maxu p n) s fun t => CellTakes s t p n fun x => x.q.toNat = max o.a.toNat o.b.toNat ∧
      fl x (decide (o.a.toNat < o.b.toNat)) false) ∧
    (runs 0x0D → Completes (.mins p n) s fun t => CellTakes s t p n fun x => sgn x.q = min (sgn o.a) (sgn o.b) ∧
      fl x (decide (sgn o.a < sgn o.b)) false) ∧
    (runs 0x0E → Completes (.maxs p n) s fun t => CellTakes s t p n fun x => sgn x.q = max (sgn o.a) (sgn o.b) ∧
      fl x (decide (sgn o.a < sgn o.b)) false)

/-- The saturating operations and the products (R150, R151): a saturating operation clamps its exact result, C is 0 and V tells
of clamping; a product or accumulation takes {QH, Q}, with Z and N of the 48 bits. -/
def Obligations.CellSaturationAndProducts : Prop :=
  ∀ (s : State) (p : Pad) (n : Cell), CellFree s p n → let o := s.opnd p.val n
    let fl := fun (x : CellSt) (v : Bool) => x.z = (x.q == 0) ∧ x.n = bit x.q 23 ∧ x.c = false ∧ x.v = v ∧ x.qh = o.old.qh
    let fl48 := fun (x : CellSt) (c v : Bool) => x.z = decide (x.q = 0 ∧ x.qh = 0) ∧ x.n = bit x.qh 23 ∧ x.c = c ∧ x.v = v
    let runs := fun (op : Nat) => s.cellRuns p n op = true
    let exact := sext 48 o.old.acc + sgn o.a * sgn o.b
    (runs 0x10 → Completes (.addsu p n) s fun t => CellTakes s t p n fun x =>
      x.q.toNat = min (o.a.toNat + o.b.toNat) 0xFFFFFF ∧ fl x (decide (x.q.toNat ≠ o.a.toNat + o.b.toNat))) ∧
    (runs 0x11 → Completes (.addss p n) s fun t => CellTakes s t p n fun x =>
      sgn x.q = max (-0x800000) (min (sgn o.a + sgn o.b) 0x7FFFFF) ∧ fl x (decide (sgn x.q ≠ sgn o.a + sgn o.b))) ∧
    (runs 0x12 → Completes (.subsu p n) s fun t => CellTakes s t p n fun x =>
      x.q.toNat = o.a.toNat - o.b.toNat ∧ fl x (decide (o.a.toNat < o.b.toNat))) ∧
    (runs 0x13 → Completes (.subss p n) s fun t => CellTakes s t p n fun x =>
      sgn x.q = max (-0x800000) (min (sgn o.a - sgn o.b) 0x7FFFFF) ∧ fl x (decide (sgn x.q ≠ sgn o.a - sgn o.b))) ∧
    (runs 0x14 → Completes (.satu p n) s fun t => CellTakes s t p n fun x =>
      (x.q.toNat : Int) = max 0 (min (sgn o.a) (2 ^ o.m - 1)) ∧ fl x (decide ((x.q.toNat : Int) ≠ sgn o.a))) ∧
    (runs 0x15 → Completes (.sats p n) s fun t => CellTakes s t p n fun x =>
      sgn x.q = max (-2 ^ (o.m - 1)) (min (sgn o.a) (2 ^ (o.m - 1) - 1)) ∧ fl x (decide (sgn x.q ≠ sgn o.a))) ∧
    (runs 0x18 → Completes (.mulu p n) s fun t => CellTakes s t p n fun x => x.acc = o.a.toNat * o.b.toNat ∧ fl48 x false false) ∧
    (runs 0x19 → Completes (.muls p n) s fun t => CellTakes s t p n fun x => sext 48 x.acc = sgn o.a * sgn o.b ∧ fl48 x false false) ∧
    (runs 0x1A → Completes (.macu p n) s fun t => CellTakes s t p n fun x => x.acc = (o.old.acc + o.a.toNat * o.b.toNat) % 2 ^ 48 ∧
      fl48 x (decide (2 ^ 48 ≤ o.old.acc + o.a.toNat * o.b.toNat)) false) ∧
    (runs 0x1B → Completes (.macs p n) s fun t => CellTakes s t p n fun x => x.acc = umod 48 exact ∧
      fl48 x false (decide (sext 48 x.acc ≠ exact)))

/-- A cell's controls (R148, R151, R152, R154, R157): SR resets it to INIT whatever CE and SEL hold; without SR and CE it holds;
HOLD changes no register; GMUX in the head of a gang of G cells takes X(j mod 4) of the gang's cell j / 4, j being b[4:0] mod 4G, and
no flag. Where an operation is not the one that the cell executes, its command changes nothing; R152 names what executes as HOLD. Without an
edge of its clock a cell's commands change nothing (R160, R161). The next command of a cell that has acted finds the next fabric cycle (log
entry 9). -/
def Obligations.CellControls : Prop :=
  ∀ (s : State) (p : Pad) (n : Cell),
    (CellFree s p n →
      (s.clocked p.val = true → s.sumTerm p.val n.val 4 = true → Completes (.cellReset p n) s fun t => CellTakes s t p n fun x =>
        x.q = s.pads[p].init n.val ∧ x.qh = 0 ∧ x.z = false ∧ x.n = false ∧ x.c = false ∧ x.v = false) ∧
      (s.clocked p.val = true → s.sumTerm p.val n.val 4 = false → s.sumTerm p.val n.val 3 = false →
        Completes (.ceHold p n) s fun t => CellTakes s t p n fun x => x = s.pads[p].pres[n]) ∧
      (s.cellRuns p n 0x00 = true → Completes (.hold p n) s fun t => CellTakes s t p n fun x => x = s.pads[p].pres[n]) ∧
      (s.cellRuns p n 0x20 = true →
        let g := 2 ^ s.pads[p].gang (n.val / 8)
        let j := fld (s.opnd p.val n).b 4 0 % (4 * g)
        n.val % g = 0 ∧ Completes (.gmux p n) s fun t => CellTakes s t p n fun x =>
          x = { s.pads[p].pres[n] with q := s.srcVal p.val (s.pads[p].xsel (n.val + j / 4) (j % 4)) }) ∧
      ∀ op : Nat, s.cellRuns p n op = true → s.clocked p.val = true ∧ s.sumTerm p.val n.val 4 = false ∧ s.sumTerm p.val n.val 3 = true ∧
        let raw := fld (s.slotWords p.val n.val).1 23 18
        (op = raw ∨ op = 0) ∧
        ((0x18 ≤ raw ∧ raw ≤ 0x1B ∧ n.val % 4 ≠ 3) ∨ raw = 0x0F ∨ raw = 0x16 ∨ raw = 0x17 ∨ (0x1C ≤ raw ∧ raw ≤ 0x1F) ∨ 0x21 ≤ raw ∨
          (raw = 0x20 ∧ (s.pads[p].gang (n.val / 8) = 0 ∨ n.val % 2 ^ s.pads[p].gang (n.val / 8) ≠ 0)) ↔ op ≠ raw)) ∧
    let ops := [(Instr.hold p n, 0), (.pass p n, 1), (.add p n, 2), (.sub p n, 3), (.logic p n, 4),
        (.cmp p n, 5), (.shl p n, 6), (.shr p n, 7), (.sar p n, 8), (.rol p n, 9), (.selc p n, 10), (.minu p n, 11), (.maxu p n, 12),
        (.mins p n, 13), (.maxs p n, 14), (.addsu p n, 16), (.addss p n, 17), (.subsu p n, 18), (.subss p n, 19), (.satu p n, 20),
        (.sats p n, 21), (.mulu p n, 24), (.muls p n, 25), (.macu p n, 26), (.macs p n, 27), (.gmux p n, 32)]
    (s.pads[p].acted.contains n.val = false → (∀ e ∈ ops, s.cellRuns p n e.2 = false → Completes e.1 s fun t => t = s) ∧
      (s.cellClock p n = false → (∀ op : Nat, s.cellRuns p n op = false) ∧ (Completes (.cellReset p n) s fun t => t = s) ∧
        Completes (.ceHold p n) s fun t => t = s)) ∧
    (s.pads[p].acted.contains n.val = true → s.toEdge.pads[p].acted.contains n.val = false ∧
      ∀ e ∈ ops, s.toEdge.cellRuns p n e.2 = true → exec e.1 s = exec e.1 s.toEdge)

/-! ### Paddocks' memories and ports (07_sward_fabric.md) -/

/-- The fabric edge and block memories (R145, R160, R164 to R166). At an edge every cell of a clocked paddock presents what its
registers took, and the write of a block memory port stands; a paddock without clock holds. A port on the fabric clock with EN = 1 reads the
location as it stood, presents it, and with WE = 1 has it written at the edge; an uncorrectable word is delivered as stored, its wrong bits
wrong, with the port's ERR bit and the fabric event; with EN = 0 it does nothing. -/
def Obligations.BlockMemories : Prop :=
  ∀ (s : State) (p : Pad), let x := s.pads[p]
    (s.clocked p.val = true → let y := s.fabricEdge.pads[p]
      y.pres = x.cells ∧ y.cells = x.cells ∧ y.acted = [] ∧ y.cfg = x.cfg ∧
      (x.nextBm = [] → y.bm = x.bm) ∧
      ∀ (k off w v : Nat), x.nextBm = [(k, off, w, v)] → 0 < w → off % 24 + w ≤ 24 → v < 2 ^ w →
        bmGet y.bm off w = v ∧ (∀ i, i ≠ off / 24 → spGet zeroW y.bm i = spGet zeroW x.bm i) ∧
        ∀ b < 24, (b < off % 24 ∨ off % 24 + w ≤ b) → bit (spGet zeroW y.bm (off / 24)) b = bit (spGet zeroW x.bm (off / 24)) b) ∧
    (s.clocked p.val = false → let y := s.fabricEdge.pads[p]
      y.cells = x.cells ∧ y.pres = x.pres ∧ y.bm = x.bm ∧ y.gout = x.gout ∧ y.pout = x.pout) ∧
    ∀ (m : Fin 96) (k : Fin 2), x.acted.contains (1000 + 2 * m.val + k.val) = false →
      let en := s.bitSink p.val (x.bmWord m.val (6 + 5 * k.val)).toNat
      let we := s.bitSink p.val (x.bmWord m.val (7 + 5 * k.val)).toNat
      let sink := fun (i : Nat) => s.srcVal p.val (fld (x.bmWord m.val (3 + 5 * k.val + i)) 10 0)
      let w := (aspect (fld (x.bmWord m.val 0) 2 0)).2
      let off := 24576 * m.val + w * ((sink 0).toNat % 2 ^ (aspect (fld (x.bmWord m.val 0) 2 0)).1)
      let id := 0x400 + 4 * m.val + 2 * k.val
      let gives := fun (t : State) (v : Nat) => t.pads[p].coming id = wd (v % 2 ^ 24) ∧ t.pads[p].coming (id + 1) = (if w = 48 then wd (v / 2 ^ 24) else 0)
      let err := fun (t : State) => bit (t.pads[p].coming (0x600 + m.val)) k.val
      let takes := fun (t : State) => t.pads[p].bm = x.bm ∧ t.pads[p].cells = x.cells ∧
        t.pads[p].nextBm = x.nextBm ++ (if we then [(k.val, off, w, ((sink 1).toNat + 2 ^ 24 * (sink 2).toNat) % 2 ^ w)] else []) ∧
        (∀ o : Pad, o ≠ p → t.pads[o] = s.pads[o])
      ((s.clocked p.val && en) = false → ∀ e : MemErr, Completes (.blockMemoryAccess p m k e) s fun t => t = s) ∧
      ((s.clocked p.val && en) = true → x.unsureBm m.val k.val = false → Sound s →
        (Completes (.blockMemoryAccess p m k .clean) s fun t => gives t (bmGet x.bm off w) ∧ takes t ∧ err t = false ∧ t = { s with pads := t.pads }) ∧
        (Completes (.blockMemoryAccess p m k .uncorrectable) s fun t => takes t ∧ err t = true ∧ t.evFlag 32 = true ∧
          t = { s with pads := t.pads, ws := t.ws, hw := t.hw, pcie := t.pcie, freeCtr := t.freeCtr, repair := { s.repair with due := t.repair.due } })) ∧
      ((s.clocked p.val && en) = true → x.unsureBm m.val k.val = false → NoFlips s → w ≤ 24 → ∀ b : BadWord, s.badAt p.val (off / 24) = some b →
        2 ≤ b.count → 4 < s.erasures p.val (off / 24 / 256) → Completes (.blockMemoryAccess p m k .clean) s fun t =>
          gives t (bmGet (spSet zeroW x.bm (off / 24) (spGet zeroW x.bm (off / 24) ^^^ b.dmask)) off w) ∧ takes t ∧ err t = true ∧ t.evFlag 32 = true)

/-- Memory ports (R172 to R175). A request with GO = 1 joins the port's requests, which are at most four; one made while four are held is
ignored and counted in LOST, one outside the port's window is counted in WIN, each with the fabric event. Read data of the oldest
request is presented a word at a time with RV, RLAST on the last, RERR and zero for a poisoned unit or a refused request. A word offered
while WFULL is 0 is taken for the oldest write request that lacks one; each whole unit enters the write queue. A fabric edge presents BUSY
while four requests are held, WFULL while the queue that the next word needs is full, and WDONE for one write request whose last unit has
entered its queue; a request leaves when those made before it have left. -/
def Obligations.MemoryPorts : Prop :=
  ∀ (s : State) (p : Pad) (k : Fin 2), s.clocked p.val = true → let x := s.pads[p]; let q := x.ports[k]
    let a := aPad p.val (2 + k.val)
    let sink := fun (i : Nat) => s.portSink p.val (11 + 5 * k.val + i)
    let acts := fun (t : State) (n : Nat) => t.pads[p].acted = (n + k.val) :: x.acted ∧ (∀ o : Pad, o ≠ p → t.pads[o] = s.pads[o]) ∧
      t.pads[p].cells = x.cells ∧ t.pads[p].bm = x.bm ∧ t.pads[p].cfg = x.cfg ∧ t.dram = s.dram
    let per := fun (r : MReq) => if r.pad then 8 else 11
    (x.acted.contains (2000 + k.val) = false → bit (sink 0) 23 = true →
      let u := fld (sink 2) 5 0 * 2 ^ 24 + (sink 1).toNat
      let n := fld (sink 0) 4 0 + 1
      let lo := s.fget (aPad p.val (6 + 2 * k.val)) 23 9 * 2 ^ 20
      let hi := (s.fget (aPad p.val (7 + 2 * k.val)) 23 9 + 1) * 2 ^ 20
      let inside := s.bget (aPad p.val (6 + 2 * k.val)) 0 && decide (lo ≤ 32 * u ∧ 32 * (u + n) ≤ hi)
      let made := fun (t : State) => t.pads[p].ports[k].length = q.length + 1 ∧
        (t.pads[p].ports[k].getLast?.map fun r => (r.wr, r.pad, r.unit, r.n, r.refused, r.done)) =
          some (bit (sink 0) 22, bit (sink 0) 21, u, n, !inside, 0)
      (bit x.mst[k] 20 = true → Completes (.memoryPortRequest p k) s fun t => t.fget a 23 16 = min 255 (s.fget a 23 16 + 1) ∧
        t.fget a 15 0 = s.fget a 15 0 ∧ t.evFlag 32 = true ∧ t.pads[p].ports = x.ports ∧ WordsKept s t [a] ∧ acts t 2000) ∧
      (bit x.mst[k] 20 = false → inside = false → Completes (.memoryPortRequest p k) s fun t => made t ∧ t.fget a 15 8 = min 255 (s.fget a 15 8 + 1) ∧
        t.fget a 23 16 = s.fget a 23 16 ∧ t.evFlag 32 = true ∧ t.chans = s.chans ∧ WordsKept s t [a] ∧ acts t 2000) ∧
      (bit x.mst[k] 20 = false → inside = true → Completes (.memoryPortRequest p k) s fun t => made t ∧ acts t 2000 ∧
        (bit (sink 0) 22 = true → t.chans = s.chans ∧ t.ws = s.ws ∧ NoEvent s t) ∧
        (bit (sink 0) 22 = false → ∀ i < n, 32 * (u + i) < s.dramCap →
          (t.chans[s.chanOf (32 * (u + i))].reads.any fun r => r.user == .port p k && r.unit == u + i) = true))) ∧
    (x.acted.contains (2010 + k.val) = false → ∀ (r : MReq) (rest : List MReq), q = r :: rest → r.wr = false →
      let shows := fun (t : State) (w : Word) (err : Bool) => let last := decide (r.done + 1 = r.n * per r)
        t.pads[p].coming (0x5E8 + 2 * k.val) = w ∧
        t.pads[p].coming (0x5E9 + 2 * k.val) = x.coming (0x5E9 + 2 * k.val) ||| wd (2 ^ 23 + b2n err * 2 ^ 22 + b2n last * 2 ^ 21) ∧
        t.pads[p].ports[k] = (if last then rest else { r with done := r.done + 1 } :: rest) ∧ acts t 2010 ∧ t.chans = s.chans
      (r.refused = true → Completes (.memoryPortReadData p k) s fun t => shows t 0 true ∧ t.ws = s.ws) ∧
      (r.refused = false → ∀ (d : List Byte) (bad : Bool), (r.back.find? fun e => e.1 == r.unit + r.done / per r) = some (r.unit + r.done / per r, d, bad) →
        Completes (.memoryPortReadData p k) s fun t =>
          let j := r.done % per r
          shows t (if bad then 0 else if r.pad then wd (ofBytesLE ((d.drop (4 * j)).take 3)) else wd (ofBytesLE ((d.drop (3 * j)).take 3))) bad ∧
          t.fget a 7 0 = (if bad = true ∧ j = 0 then min 255 (s.fget a 7 0 + 1) else s.fget a 7 0) ∧ WordsKept s t [a]) ∧
      (r.refused = false → (r.back.find? fun e => e.1 == r.unit + r.done / per r) = none →
        Completes (.memoryPortReadData p k) s fun t => t.pads[p].ports = x.ports ∧ t.ws = s.ws ∧ acts t 2010)) ∧
    (x.acted.contains (2020 + k.val) = false → s.mwvSink p.val k.val = true → bit x.mst[k] 19 = false →
      ∀ r : MReq, (q.find? fun y => y.wr && y.done != y.n * per y) = some r → (∀ y ∈ q, y.serial = r.serial → y = r) → r.part.length < per r →
        let w := r.part ++ [sink 3]
        let whole := decide (w.length = per r)
        let bytes := if r.pad then (w.map fun v => bytesLE 4 v.toNat).flatten else (bytesOfWords w).take 32
        Completes (.memoryPortWriteWord p k) s fun t => acts t 2020 ∧
          t.chans = (if whole && !r.refused then (s.queueWrite (.port p k) (32 * (r.unit + r.done / per r)) bytes).chans else s.chans) ∧
          { r with done := r.done + 1, part := if whole then [] else w } ∈ t.pads[p].ports[k] ∧
          t.pads[p].ports[k].length = q.length ∧ t.pads[p].nextSrc = x.nextSrc) ∧
    (x.closing = false → let y := s.fabricEdge.pads[p]
      let entered := fun (r : MReq) => r.wr && r.done == r.n * per r && !r.told && (r.refused || (List.finRange 4).all fun c =>
        s.chans[c].waiting.all fun w => !(w.user == .port p k && decide (r.unit ≤ w.addr / 32 ∧ w.addr / 32 < r.unit + r.n)))
      let w := q.find? entered
      let held := (q.map fun r => { r with told := r.told || (w.any fun v => v.serial == r.serial) }).dropWhile (·.told)
      y.ports[k] = held ∧ bit y.mst[k] 20 = decide (4 ≤ held.length) ∧ bit y.mst[k] 19 = s.portFull held ∧
        bit (spGet zeroW y.src (0x5E9 + 2 * k.val)) 18 = (w.isSome || bit (x.coming (0x5E9 + 2 * k.val)) 18))

/-- The wardens' bus and a paddock's registers (R160, R176, R177, R180, R183, R240). An access with rights to a clocked paddock that holds none is
presented on WBA and WBD and kept until its answer; without clock, or without rights, it is an access fault at once. ACK ends it with the data of
WBR, with ERR as an access fault counted in WBERR; 64 cycles without answer end it with 0, an access fault, WBTO and the fabric event.
SRST resets every cell and abandons the ports' requests; CLKEN and PROBEn take what is written; without rights nothing changes but the fault. -/
def Obligations.WardensBusAndRegisters : Prop :=
  ∀ (s : State) (p : Pad), s.padOff p.val = false → let x := s.pads[p]
    (∀ (r : Requester) (acc : PadAccess), r ≠ .debug →
      let a := aPadWin p.val (match acc with | .rd o _ => o.toNat | .wr o _ => o.toNat)
      let right := match acc with | .rd _ _ => s.mayRead r (locOf a) | .wr _ _ => s.mayWrite r (locOf a)
      ((right && s.clocked p.val) = false → Completes (.wardensBusAccess r p acc) s fun t => t.rfault = true ∧ t.rdata = 0 ∧ t.pads = s.pads) ∧
      (right = true → s.clocked p.val = true → x.wb = none → Completes (.wardensBusAccess r p acc) s fun t =>
        t.pads[p].coming 0x5EC = (match acc with | .rd o _ => wd (2 ^ 23 + o.toNat) | .wr o _ => wd (2 ^ 22 + o.toNat)) ∧
        t.pads[p].coming 0x5ED = (match acc with | .rd _ _ => t.pads[p].coming 0x5ED | .wr _ v => v) ∧
        t.pads[p].wb = some { req := r, acc := acc } ∧ t.pads[p].cells = x.cells ∧ (∀ o : Pad, o ≠ p → t.pads[o] = s.pads[o]) ∧
        t = { s with pads := t.pads })) ∧
    (∀ (k : Core) (c : Ctx) (acc : PadAccess), x.wb = some { req := .core k c, acc := acc } → s.windowWaits p = [] → s.stile.bmWait = none →
      let ack := s.portSink p.val 22
      let v := match acc with | .rd _ _ => s.portSink p.val 21 | .wr _ _ => 0
      (s.clocked p.val = true → bit ack 23 = true → bit ack 22 = false → Completes (.wardensBusAck p) s fun t =>
        t.rdata = v ∧ t.rfault = false ∧ t.pads[p] = { x with wb := none } ∧ t = { s with rdata := v, rfault := false, pads := t.pads }) ∧
      (s.clocked p.val = true → bit ack 23 = true → bit ack 22 = true → Completes (.wardensBusAck p) s fun t =>
        t.rdata = 0 ∧ t.rfault = true ∧ t.pads[p] = { x with wb := none } ∧ t.fget (aPad p.val 4) 15 8 = min 255 (s.fget (aPad p.val 4) 15 8 + 1) ∧
        t.fget (aPad p.val 4) 23 16 = s.fget (aPad p.val 4) 23 16) ∧
      ((s.clocked p.val && bit ack 23) = false → Completes (.wardensBusAck p) s fun t => t = s) ∧
      Completes (.wardensBusTimeout p) s fun t => t.rdata = 0 ∧ t.rfault = true ∧ t.pads[p] = { x with wb := none } ∧
        t.fget (aPad p.val 4) 23 16 = min 255 (s.fget (aPad p.val 4) 23 16 + 1) ∧ t.fget (aPad p.val 4) 15 8 = s.fget (aPad p.val 4) 15 8 ∧
        t.evFlag 32 = true) ∧
    (∀ r : Requester, s.mayWrite r (.pad p.val 0) = true →
      (Completes (.srst r p) s fun t => (∀ n : Cell, t.pads[p].cells[n] = CellSt.atInit (x.init n.val)) ∧ t.pads[p].ports = #v[[], []] ∧
        t.pads[p].bm = x.bm ∧ t.pads[p].cfg = x.cfg ∧ (∀ o : Pad, o ≠ p → t.pads[o] = s.pads[o]) ∧ t = { s with pads := t.pads, rfault := false }) ∧
      ∀ on : Bool, Completes (.clkenWrite r p on) s fun t => t.bget (aPad p.val 0) 23 = on ∧ WordsKept s t [aPad p.val 0] ∧
        t = { s with ws := t.ws, rfault := false }) ∧
    (∀ (r : Requester) (n : Fin 16) (v : Word), let a := aPad p.val (0x10 + n.val)
      (s.mayWrite r (.pad p.val (0x10 + n.val)) = true → Completes (.probeSelect r p n v) s fun t =>
        t.bget a 23 = bit v 23 ∧ t.fget a 10 0 = fld v 10 0 ∧ WordsKept s t [a] ∧ t = { s with ws := t.ws, rfault := false }) ∧
      (s.mayWrite r (.pad p.val (0x10 + n.val)) = false → Completes (.probeSelect r p n v) s fun t => t.rfault = true ∧ t.rd a = s.rd a ∧ t.pads = s.pads))

/-! ### Configuration (08_paddocks_configuration.md) -/

/-- The loader (R192, R193, R204 to R206, R208, R209, R211, R277). A load, once its paddock has had its last edge, clears it, with what was
wrong in its memories; it then asks the DRAM scheduler for the image of a VALID entry that names the paddock and has its run when the last unit
has come, or fails with code 1, or 8 for a row short of spares. PAD is passed over, FRAMES writes its frames and BMEM its 1,024 words, and nothing else; what
R205 names fails with its code; END needs zeros after it. A load that has ended runs the paddock, its cells at INIT. -/
def Obligations.ConfigurationLoad : Prop :=
  ∀ (s : State) (j : IcpJob), s.icp = some j → j.op = .load → j.pad < 16 → let p : Pad := Fin.ofNat 16 j.pad; let x := s.pads[p]
    let ld := aPad j.pad 0x0A
    let rest := fun (t : State) => ∀ o : Pad, o ≠ p → t.pads[o] = s.pads[o]
    let fails := fun (t : State) (c : Nat) => (t.icp.map fun k => (k.code, k.pad, k.op)) = some (c, j.pad, IcpOp.load)
    let clear := fun (t : State) => t.pads[p].cfg = [] ∧ t.pads[p].bm = [] ∧ (t.upsets.all fun u => u.pad != p) = true ∧
      (t.repair.bad.all fun b => b.region != j.pad) = true ∧ t.rd (aPad j.pad 0x0C) = 0 ∧ t.bget (aPad j.pad 1) 21 = false ∧
      t.fget (aPad j.pad 1) 15 12 = 0 ∧ FieldKept s t (aPad j.pad 1) 23 22
    let words := [ld, aPad j.pad 1, aPad j.pad 0x0C]
    (j.begun = false → x.closing = true → s.toEdge.icp = some j → s.toEdge.pads[p].closing = false → exec .configLoad s = exec .configLoad s.toEdge) ∧
    (j.begun = false → j.code = 0 → x.closing = false →
      (s.imageFor j.img j.pad = false → Completes .configLoad s fun t => fails t 1 ∧ clear t ∧ WordsKept s t words ∧ rest t) ∧
      (s.imageFor j.img j.pad = true → s.spareMap j.pad = none → Completes .configLoad s fun t => fails t 8 ∧ t.bget ld 13 = true ∧
        FieldKept s t ld 23 14 ∧ clear t ∧ WordsKept s t words ∧ rest t) ∧
      (∀ m : List (Option Nat), s.imageFor j.img j.pad = true → s.spareMap j.pad = some m → Completes .configLoad s fun t =>
        let asks := (s.imageUnits j.img).filter fun u => decide (32 * u < s.dramCap)
        fails t 0 ∧ (t.icp.map fun k => (k.begun, k.wait)) = some (true, j.wait ++ asks) ∧
        (∀ u ∈ asks, (t.chans[s.chanOf (32 * u)].reads.any fun r => r.user == .loader && r.unit == u) = true) ∧
        t.bget ld 13 = false ∧ (∀ i < 3, t.rd (aPad j.pad (0x20 + i)) = rpmapWord m i) ∧ clear t ∧ rest t ∧
        WordsKept s t (words ++ ((List.range 3).map fun i => aPad j.pad (0x20 + i)) ++ (List.range 4).flatMap fun c => [aChan c 1, aChan c 2]))) ∧
    (∀ (c : Chan) (r : DRead), j.begun = true → j.wait = [r.unit] → s.chans[c].reads.find? (·.issued) = some r → s.checkAddr (32 * r.unit) = none →
      r.chk = false → r.merge = false → r.user = .loader → r.cls = 4 → Sound s → Completes (.dramReadComplete c .good) s fun t =>
        let run := s.imageRunBy ({ j with got := j.got ++ [(r.unit, r.data, false)] } : IcpJob).view j.img
        (t.icp.map fun k => (k.wait, k.words, k.segs, k.total)) = some ([], run.1, run.2, run.1.length) ∧ fails t j.code ∧ t.pads = s.pads) ∧
    (j.begun = true → j.ended = false → j.code = 0 → j.wait = [] → (∀ g ∈ j.segs, g.2 = true) → ∀ (w : Word) (body : List Word), j.words = w :: body →
      let only := fun (t : State) => t = { s with icp := t.icp }
      (fld w 23 20 = 0 → fld w 19 0 = 0 → Completes .pad s fun t => fails t 0 ∧ (t.icp.map (·.words)) = some body ∧ only t) ∧
      (fld w 23 20 = 0 → fld w 19 0 ≠ 0 → Completes .pad s fun t => fails t 3 ∧ only t) ∧
      (fld w 23 20 = 1 → let f := fld w 19 10; let n := fld w 9 0
        let bad := decide (n = 0 ∨ 800 < f + n) || (List.range n).any fun i => j.frames.contains (f + i)
        let good := ((List.range n).all fun i => frameGood (f + i) ((body.drop (96 * i)).take 96))
        let routes := decide (f ≤ 793 ∧ 793 < f + n) && s.routesBad j.pad ((body.drop (96 * (793 - f))).take 96)
        (bad = true → Completes .frames s fun t => fails t 3 ∧ only t) ∧
        (bad = false → body.length < 96 * n → Completes .frames s fun t => fails t 7 ∧ only t) ∧
        (bad = false → 96 * n ≤ body.length → Completes .frames s fun t => fails t (if !good then 4 else if routes then 5 else 0) ∧
          (t.icp.map fun k => (k.words, k.frames)) = some (body.drop (96 * n), j.frames ++ (List.range n).map (f + ·)) ∧
          (∀ i < 800, ∀ c < 96, t.pads[p].cw i c = if f ≤ i ∧ i < f + n then nth 0 body (96 * (i - f) + c) else x.cw i c) ∧
          t.pads[p] = { x with cfg := t.pads[p].cfg } ∧ rest t ∧ WordsKept s t [aPad j.pad 0x0C] ∧
          (f ≤ 797 → 797 < f + n → t.rd (aPad j.pad 0x0C) = nth 0 body (96 * (797 - f))) ∧
          t.upsets = (s.upsets.filter fun u => !(u.pad == p && decide (f ≤ u.frame.val ∧ u.frame.val < f + n))) ∧
          t = { s with ws := t.ws, icp := t.icp, pads := t.pads, upsets := t.upsets })) ∧
      (fld w 23 20 = 2 → 95 < fld w 19 0 → Completes .bmem s fun t => fails t 3 ∧ only t) ∧
      (fld w 23 20 = 2 → fld w 19 0 ≤ 95 → body.length < 1024 → Completes .bmem s fun t => fails t 7 ∧ only t) ∧
      (fld w 23 20 = 2 → fld w 19 0 ≤ 95 → 1024 ≤ body.length → Completes .bmem s fun t => fails t 0 ∧
        (t.icp.map (·.words)) = some (body.drop 1024) ∧
        (∀ i < 98304, spGet zeroW t.pads[p].bm i = if i / 1024 = fld w 6 0 then nth 0 body (i % 1024) else spGet zeroW x.bm i) ∧
        t.pads[p] = { x with bm := t.pads[p].bm } ∧ rest t ∧ (NoFlips s →
          t.repair.bad = (s.repair.bad.filter fun b => !(b.region == j.pad && b.addr / 1024 == fld w 6 0)) ∧
          t = { s with icp := t.icp, pads := t.pads, repair := { s.repair with bad := t.repair.bad } })) ∧
      (fld w 23 20 = 3 → Completes .endRecord s fun t => only t ∧
        fails t (if fld w 19 0 ≠ 0 then 3 else if body.any (· != 0) then 7 else if x.gmuxBad then 4 else if 8 < x.wireClocks.length then 6 else 0) ∧
        (fails t 0 → (t.icp.map fun k => (k.ended, k.words)) = some (true, [])))) ∧
    (j.ended = true → j.code = 0 → j.runs = false → j.waited = false → NoFlips s →
      let st := aPad j.pad 1
      Completes .loadComplete s fun t => (∀ n : Cell, t.pads[p].cells[n] = CellSt.atInit (x.init n.val)) ∧
        t.bget st 23 = true ∧ t.bget st 22 = false ∧ t.bget st 21 = decide (x.wireClocks.length ≠ 0) ∧ t.fget st 15 12 = x.wireClocks.length % 16 ∧
        t.bget (aPad j.pad 0) 23 = true ∧ t.fget ld 19 14 = j.img % 64 ∧ t.fget ld 23 20 = s.fget ld 23 20 ∧
        t.rd (aPad j.pad 0x0B) = wd (j.total + 304) ∧ t.rd (aPad j.pad 0x0C) = x.cw 797 0 ∧ t.pads[p].hedged = x.hedged ∧
        t.pads[p].cfg = x.cfg ∧ t.pads[p].bm = x.bm ∧ rest t ∧
        WordsKept s t [aPad j.pad 0, st, ld, aPad j.pad 0x0B, aPad j.pad 0x0C, aGlProg (0x1000 + j.pad)])

/-- The Internal Configuration Port (R159, R199, R203 to R207, R209, R210, R218). GO while BUSY, or with the fuse lock open, is ignored. LOAD starts
a swap: taps in force on the paddock go to bypass and the ICP is busy; with the next fabric edge LOADED and CLKEN read 0 and SWAP 1, and the
paddock's lanes are hedged in every cycle after one in which its design did not run. REWRITE and READ make the ICP busy; REWRITE asks for the
image, and waits for it. A READ puts the frame into ICPBUF, with RBD zeros and code 0xD; a REWRITE writes that frame alone; a failed load leaves its
paddock cleared and unloaded, and raises the configuration event. Words 1 to 3 of an image entry keep while VALID is 1. -/
def Obligations.ConfigurationPort : Prop :=
  ∀ s : State,
    (∀ (r : Requester) (p : Pad), s.padOff p.val = false → s.mayWrite r (locOf aIcpctl) = true →
      let kept := fun (t : State) => t = { s with rfault := false }
      ((s.bget aIcpstat 23 = true ∨ s.fuses.flock = false) → (∀ e : Fin 64, Completes (.load r p e) s kept) ∧
        ∀ f : BitVec 10, Completes (.rewrite r p f) s kept ∧ Completes (.read r p f) s kept) ∧
      (s.bget aIcpstat 23 = false → s.fuses.flock = true → s.icp = none →
        (∀ e : Fin 64, s.pads[p].repair = none → s.icpQueue = [] → Completes (.load r p e) s fun t =>
          t.bget aIcpstat 23 = true ∧ (t.icp.map fun j => (j.op, j.pad, j.img, j.begun)) = some (IcpOp.load, p.val, e.val, false) ∧
          t.pads[p] = { s.pads[p] with closing := true, planned := (s.dev == .maint) } ∧
          (∀ h : Head, t.bget (aHead h.val 0x36) 22 = (s.bget (aHead h.val 0x36) 22 || (s.heads[h].tap.en && s.heads[h].tap.pad == p.val))) ∧
          (∀ o : Pad, o ≠ p → t.pads[o] = s.pads[o]) ∧ NoEvent s t ∧ WordsKept s t (aIcpstat :: (List.range 8).map fun h => aHead h 0x36)) ∧
        ∀ f : BitVec 10, let busy := fun (t : State) (op : IcpOp) => t.bget aIcpstat 23 = true ∧ t.fget aIcpstat 22 0 = s.fget aIcpstat 22 0 ∧
            (t.icp.map fun j => (j.op, j.pad, j.frame)) = some (op, p.val, f.toNat)
          let only := fun (t : State) => WordsKept s t [aIcpstat] ∧ t = { s with ws := t.ws, icp := t.icp, rfault := false }
          let img := s.fget (aPad p.val 0x0A) 19 14
          let runs := s.imageFor img p.val && s.loaded p.val && !s.bget (aPad p.val 1) 22
          (runs = false → Completes (.rewrite r p f) s fun t => busy t .rewrite ∧ (t.icp.map (·.begun)) = some false ∧ only t) ∧
          (runs = true → Completes (.rewrite r p f) s fun t => busy t .rewrite ∧
            (t.icp.map fun j => (j.begun, j.wait)) = some (true, (s.imageUnits img).filter fun u => decide (32 * u < s.dramCap)) ∧
            t.pads = s.pads ∧ t.heads = s.heads ∧ t.dram = s.dram ∧ WordsKept s t (aIcpstat :: (List.range 4).flatMap fun c => [aChan c 1, aChan c 2])) ∧
          Completes (.read r p f) s fun t => busy t .read ∧ only t)) ∧
    (∀ p : Pad, let t := s.fabricEdge
      t.pads[p].hedged = !(s.loaded p.val && !s.bget (aPad p.val 1) 22) ∧
      (s.pads[p].closing = true → t.bget (aPad p.val 1) 23 = false ∧ t.bget (aPad p.val 1) 22 = true ∧ t.bget (aPad p.val 0) 23 = false ∧
        t.pads[p].closing = false ∧ t.pads[p].ports = #v[[], []] ∧ t.pads[p].cfg = s.pads[p].cfg ∧ bit (t.rd (aGlProg (0x1000 + p.val))) 23 = false)) ∧
    (∀ j : IcpJob, s.icp = some j → s.icpQueue = [] → j.mbox = none → j.pad < 16 → let p : Pad := Fin.ofNat 16 j.pad
      let idle := fun (t : State) (c : Nat) => t.fget aIcpstat 19 16 = c ∧ t.bget aIcpstat 23 = false ∧ t.icp = none ∧
        (∀ o : Pad, o ≠ p → t.pads[o] = s.pads[o]) ∧ (c = 0 → NoEvent s t) ∧ (c ≠ 0 → EventRaised s t 33 [])
      (j.op = .read → Completes .icpOperationComplete s fun t => idle t (if s.fuses.rbd then 0xD else 0) ∧
        (∀ c < 96, t.rd (aIcpbuf c) = if s.fuses.rbd then 0 else s.pads[p].cw j.frame c) ∧
        WordsKept s t (aIcpstat :: (List.range 96).map aIcpbuf) ∧ t.pads = s.pads) ∧
      (j.op = .rewrite → j.wait ≠ [] → Completes .icpOperationComplete s fun t => t = s) ∧
      (j.op = .rewrite → j.wait = [] → let img := s.fget (aPad j.pad 0x0A) 19 14
        let run := s.imageRunBy j.view img
        let runs := j.begun && s.imageFor img j.pad && s.loaded j.pad && !s.bget (aPad j.pad 1) 22
        (runs = false → Completes .icpOperationComplete s fun t => idle t 1 ∧ t.pads = s.pads) ∧
        (∀ o : Nat, runs = true → findFrame j.frame (run.1.length + 1) run.1 0 = some o →
          (segsGood o 96 0 run.2 = false → Completes .icpOperationComplete s fun t => idle t 2 ∧ t.pads = s.pads) ∧
          (segsGood o 96 0 run.2 = true → o + 96 ≤ run.1.length → Completes .icpOperationComplete s fun t => idle t 0 ∧
            (∀ i < 800, ∀ c < 96, t.pads[p].cw i c = if i = j.frame then nth 0 run.1 (o + c) else s.pads[p].cw i c) ∧
            t.pads[p] = { s.pads[p] with cfg := t.pads[p].cfg } ∧ WordsKept s t [aIcpstat, aPad j.pad 0x0C]))) ∧
      (j.op = .load → j.begun = true → j.runs = true → j.code = 0 → Completes .icpOperationComplete s fun t => idle t 0 ∧ t.pads = s.pads ∧
        t.fget (aPad j.pad 0x0A) 23 20 = 0 ∧ t.fget (aPad j.pad 0x0A) 19 0 = s.fget (aPad j.pad 0x0A) 19 0 ∧ WordsKept s t [aIcpstat, aPad j.pad 0x0A]) ∧
      (j.op = .load → j.code ≠ 0 → j.code < 16 → Completes .icpOperationComplete s fun t => idle t j.code ∧ t.pads[p] = s.pads[p].cleared ∧
        t.fget (aPad j.pad 0x0A) 23 20 = j.code ∧ t.fget (aPad j.pad 0x0A) 19 14 = s.fget (aPad j.pad 0x0A) 19 14 ∧ t.bget (aPad j.pad 1) 22 = false ∧
        t.bget (aPad j.pad 1) 23 = s.bget (aPad j.pad 1) 23)) ∧
    (∀ (r : Requester) (e : Fin 64) (w : Fin 4) (v : Word), let a := aImage e.val w.val
      (s.mayWrite r (locOf a) = false → Completes (.imageEntryWrite r e w v) s fun t => t.rfault = true ∧ t.rd a = s.rd a ∧ t.keys = s.keys) ∧
      (s.mayWrite r (locOf a) = true → w ≠ 0 → s.bget (aImage e.val 0) 23 = true → Completes (.imageEntryWrite r e w v) s fun t => t = { s with rfault := false }) ∧
      (s.mayWrite r (locOf a) = true → w ≠ 0 → s.bget (aImage e.val 0) 23 = false → Completes (.imageEntryWrite r e w v) s fun t =>
        WordsKept s t [a] ∧ t = { s with ws := t.ws, rfault := false }) ∧
      (s.mayWrite r (locOf a) = true → w = 0 → bit v 23 = true → s.bget (aImage e.val 0) 23 = false →
        Completes (.imageEntryWrite r e w v) s fun t => t.bget a 23 = s.keys[e].isSome ∧ WordsKept s t [a] ∧ t = { s with ws := t.ws, rfault := false }) ∧
      (s.mayWrite r (locOf a) = true → w = 0 → bit v 23 = false → s.bget (aImage e.val 0) 23 = true →
        Completes (.imageEntryWrite r e w v) s fun t => t.bget a 23 = s.imageUsed e.val ∧ WordsKept s t [a] ∧
          t = { s with ws := t.ws, keys := t.keys, rfault := false }))

/-! ### The Gleaner (08_paddocks_configuration.md) -/

/-- The Gleaner (R184, R213 to R218). With GEN 0 no round runs. A round counts in HBEAT and ROUND and refreshes GCFG and GMODE; without
upsets, disagreement or a damaged program it changes nothing else. A single flip in the configuration of a loaded paddock, or in its check
bits, is corrected, counted and logged by a round that scrubs its frame, that is one flagged essential or in this round's quarter; the event
follows in host-assisted mode and for an essential bit; in other rounds it stays. A word that changes before its write-back is not written, and
its frame is scrubbed again. A word with more faulty bits, and a frame of which the CRC alone fails, counts in UNC; Caeruno repairs it in
hardware mode, by REWRITE where no essential bit is hit. A round waits while the ICP is busy, and the next that comes due meanwhile counts in
LATE. A reset re-reads the fuses and begins at round 0. -/
def Obligations.GleanerRounds : Prop :=
  ∀ s : State,
    let begun := fun (t : State) => t.rd (aGl 3) = s.rd (aGl 3) + 1 ∧ t.fget (aGl 2) 22 21 = (s.glRound + 1) % 4 ∧ t.glRound = s.glRound + 1 ∧
      t.gcfg = Vector.replicate 3 s.gcfgFuse ∧ t.gmode = s.gmode ∧ t.gl.run = false ∧ t.bget (aGl 2) 23 = false
    (s.fuses.gen = false → ∀ ups : List Upset, Completes (.gleanerRound ups) s fun t => t = s) ∧
    (s.fuses.gen = true → s.gl.run = true → Completes (.gleanerRound []) s fun t => t.gl = { s.gl with due := true } ∧
      t.fget (aGl 5) 23 16 = min 255 (s.fget (aGl 5) 23 16 + 1) ∧ FieldKept s t (aGl 5) 15 0 ∧ WordsKept s t [aGl 5] ∧ t = { s with ws := t.ws, gl := t.gl }) ∧
    (s.fuses.gen = true → s.gl = GlSt.idle → s.upsets = [] → s.repair.bad = [] → s.gcfg = Vector.replicate 3 s.gcfgFuse →
      s.gmode = Vector.replicate 3 (putBit 0 23 (s.hostFn 5)) → s.cae.split[(5 : Fin 8)].passed = false →
      (∀ i < 0x1010, s.rd (aGlProg i) = spGet zeroW s.glRef i) →
      (s.icpBusy = true → Completes (.gleanerRound []) s fun t => t.gl.run = true ∧ t.glRound = s.glRound ∧ t.bget (aGl 2) 23 = true ∧
        t.fget (aGl 2) 22 21 = s.glRound % 4 ∧ NoEvent s t ∧ WordsKept s t [aGl 2] ∧ t = { s with ws := t.ws, gl := { GlSt.idle with run := true } }) ∧
      (s.icpBusy = false → Completes (.gleanerRound []) s fun t => begun t ∧ NoEvent s t ∧ WordsKept s t [aGl 2, aGl 3] ∧
        t = { s with ws := t.ws, glRound := t.glRound }) ∧
      ∀ (p : Pad) (f : Fin 800) (w : Fin 96) (b : Fin 30) (poison : Bool), s.icpBusy = false → s.loaded p.val = true → s.swapping p.val = false →
        let hits := fun (b : Fin 30) => if b.val < 24 then wd (2 ^ b.val) else 0
        let u : Upset :=
          { pad := p, frame := f, word := w, mask := hits b, poison := poison, check := if b.val < 24 then 0 else 1 <<< (b.val - 24), crc := 0, late := false }
        let flag := s.flagged p.val f.val
        let scrubs := flag || f.val % 4 == s.glRound % 4
        let ess := flag && (poison || (hits b &&& s.maskWord p.val f.val w.val) != 0)
        let a := aPad p.val 0x0E
        let entry := fun (t : State) (poison : Bool) (m : Word) (n kind bits : Nat) => ∃ i < 16,
          t.rd (aGl (0x10 + 2 * i)) = wd (p.val * 2 ^ 20 + f.val * 2 ^ 10 + n * 8 + b2n (flag && (poison || (m &&& s.maskWord p.val f.val n) != 0)) * 4 + kind) ∧
          t.rd (aGl (0x11 + 2 * i)) = wd (bits * 2 ^ 19 + fld (s.rd (aGl 3)) 20 2)
        (scrubs = true → Completes (.gleanerRound [u]) s fun t => begun t ∧ t.upsets = [] ∧
          (∀ i < 800, ∀ c < 96, t.pads[p].cw i c = s.pads[p].cw i c) ∧ (∀ o : Pad, o ≠ p → t.pads[o] = s.pads[o]) ∧
          t.fget a 23 12 = min 4095 (s.fget a 23 12 + 1) ∧ t.fget a 11 0 = s.fget a 11 0 ∧
          ((s.hostFn 5 || ess) = true → t.evFlag 33 = true) ∧ ((s.hostFn 5 || ess) = false → t.evFlag 33 = s.evFlag 33) ∧ entry t poison (hits b) w.val 1 b.val) ∧
        (scrubs = false → Completes (.gleanerRound [u]) s fun t => begun t ∧ t.upsets = [u] ∧
          (∀ i < 800, ∀ c < 96, t.pads[p].cw i c = if i = f.val ∧ c = w.val then s.pads[p].cw i c ^^^ hits b else s.pads[p].cw i c) ∧
          NoEvent s t ∧ WordsKept s t [aGl 2, aGl 3, aPad p.val 0x0C]) ∧
        (scrubs = true → ∀ b' : Fin 24, b.val ≠ b'.val →
          (Completes (.gleanerRound [u, { u with mask := wd (2 ^ b'.val), check := 0, late := true }]) s fun t => begun t ∧ t.gl.again = [(p.val, f.val)] ∧
            (∀ i < 800, ∀ c < 96, t.pads[p].cw i c = if i = f.val ∧ c = w.val then s.pads[p].cw i c ^^^ hits b ^^^ wd (2 ^ b'.val) else s.pads[p].cw i c) ∧
            t.rd a = s.rd a) ∧
          let unc := fun (t : State) => t.fget a 11 0 = min 4095 (s.fget a 11 0 + 1) ∧ t.fget a 23 12 = s.fget a 23 12
          let e2 := flag && (poison || ((hits b ||| wd (2 ^ b'.val)) &&& s.maskWord p.val f.val w.val) != 0)
          let rewrites := fun (t : State) => (t.icp.map fun j => (j.op, j.pad, j.frame)) = some (IcpOp.rewrite, p.val, f.val) ∧ t.gl.run = true ∧ t.bget (aGl 2) 23 = true
          (Completes (.gleanerRound [{ u with mask := hits b ||| wd (2 ^ b'.val) }]) s fun t => unc t ∧ entry t poison (hits b ||| wd (2 ^ b'.val)) w.val 2 31 ∧
            (s.hostFn 5 = true → begun t ∧ t.evFlag 33 = true ∧ t.icp = none ∧ t.icpQueue = s.icpQueue) ∧
            (s.hostFn 5 = false → e2 = false → rewrites t ∧ t.evFlag 33 = s.evFlag 33) ∧ (s.hostFn 5 = false → e2 = true → t.evFlag 33 = true)) ∧
          Completes (.gleanerRound [{ u with mask := 0, check := 0, crc := 1, poison := false }]) s fun t => unc t ∧ entry t false 0 0 3 31 ∧
            (s.hostFn 5 = true → begun t ∧ t.evFlag 33 = true ∧ t.icp = none) ∧ (s.hostFn 5 = false → rewrites t))) ∧
    (let reset := fun (t : State) => t.glRound = 0 ∧ t.gcfg = Vector.replicate 3 s.gcfgFuse ∧ t.rd (aGl 2) = 0 ∧
        t.fget (aGl 5) 15 8 = min 255 (s.fget (aGl 5) 15 8 + 1) ∧ t.fget (aGl 5) 23 16 = s.fget (aGl 5) 23 16 ∧ t.fget (aGl 5) 7 0 = s.fget (aGl 5) 7 0 ∧
        WordsKept s t [aGl 2, aGl 5]
     (Completes .heartbeatTimeout s fun t => reset t ∧ EventRaised s t 33 [] ∧
        t = { s with ws := t.ws, hw := t.hw, pcie := t.pcie, glRound := 0, gcfg := t.gcfg, gl := GlSt.idle }) ∧
     ∀ r : Requester, (s.mayWrite r (locOf (aGl 4)) = true → Completes (.grst r) s fun t => reset t ∧ NoEvent s t ∧
        t = { s with ws := t.ws, glRound := 0, gcfg := t.gcfg, gl := GlSt.idle, rfault := false }) ∧
      (s.mayWrite r (locOf (aGl 4)) = false → Completes (.grst r) s fun t => t.rfault = true ∧ t.glRound = s.glRound ∧ t.gcfg = s.gcfg))

/-! ### Lark (09_lark_sound.md) -/

/-- Key commands and Lark's registers (R220, R221, R223, R224). A requester with rights over the voice has its command gathered, last in order;
another has an access fault, and nothing is gathered. While EN is 1 a write of LCTL that leaves EN 1 is ignored, and one that clears it makes every voice
idle and the outputs zero; while EN is 0 it takes RATE, LOCK and LHEAD, and with EN begins the periods at 0. LMDATA reads or
writes the three bytes from LMADDR, modulo 2^20, and ADDR advances by 3. -/
def Obligations.LarkCommands : Prop :=
  ∀ (s : State) (r : Requester),
    (∀ v : Fin 256, let gathers := fun (t : State) (op : Nat) => t.lark.keys = s.lark.keys ++ [{ voice := v.val, op := op }] ∧
        t.ws = s.ws ∧ t.dram = s.dram ∧ (∀ u : Fin 256, u ≠ v → t.lark.voices[u] = s.lark.voices[u])
      let faults := fun (t : State) => t.rfault = true ∧ t.lark = s.lark
      (s.right r 2 (v.val / 16) = true → s.cycNow = [] → (Completes (.keyOff r v) s fun t => gathers t 1 ∧ t = { s with lark := { s.lark with keys := t.lark.keys } }) ∧
        (Completes (.voiceStop r v) s fun t => gathers t 2 ∧ t = { s with lark := { s.lark with keys := t.lark.keys } }) ∧
        (s.larkOn = false → Completes (.keyOn r v) s fun t => gathers t 0 ∧ t = { s with lark := { s.lark with keys := t.lark.keys } }) ∧
        (s.larkOn = true → s.fget (aVoice v.val 0) 21 21 = 0 → Completes (.keyOn r v) s fun t => gathers t 0 ∧ t.chans = s.chans ∧ t.hw = s.hw)) ∧
      (s.right r 2 (v.val / 16) = false → Completes (.keyOn r v) s faults ∧ Completes (.keyOff r v) s faults ∧ Completes (.voiceStop r v) s faults)) ∧
    (s.mayWrite r (locOf (aLark 0)) = true → ∀ v : Word, let a := aLark 0
      (s.larkOn = true → bit v 23 = true → Completes (.lctlWrite r v) s fun t => t = { s with rfault := false }) ∧
      (s.larkOn = true → bit v 23 = false → Completes (.lctlWrite r v) s fun t => t.bget a 23 = false ∧ t.fget a 22 18 = s.fget a 22 18 ∧
        (∀ u : Fin 256, t.lark.voices[u].phase = 0 ∧ t.lark.voices[u].level = 0) ∧ t.lark.out = List.replicate 16 0 ∧
        WordsKept s t [a, aLark 1] ∧ t = { s with ws := t.ws, lark := t.lark, rfault := false }) ∧
      (s.larkOn = false → Completes (.lctlWrite r v) s fun t => t.bget a 23 = bit v 23 ∧ t.fget a 22 18 = fld v 22 18 ∧
        t.lark.voices = s.lark.voices ∧ (bit v 23 = true → t.rd (aLark 8) = 0 ∧ t.rd (aLark 9) = 0 ∧ t.lark.count = 0) ∧
        (bit v 21 = false → NoEvent s t) ∧ WordsKept s t [a, aLark 1, aLark 8, aLark 9])) ∧
    (let a := s.fget (aLark 5) 19 0
     let moved := fun (t : State) => t.fget (aLark 5) 19 0 = (a + 3) % 2 ^ 20 ∧ WordsKept s t [aLark 5]
     (s.mayRead r (locOf (aLark 6)) = true → Sound s → Completes (.lmdataAccess r none) s fun t => moved t ∧ t.rfault = false ∧
        (∀ i < 3, fld t.rdata (8 * i + 7) (8 * i) = (spGet zeroB s.larkMem ((a + i) % 2 ^ 20)).toNat) ∧
        t = { s with ws := t.ws, rdata := t.rdata, rfault := false }) ∧
     (s.mayWrite r (locOf (aLark 6)) = true → Sound s → ∀ v : Word, Completes (.lmdataAccess r (some v)) s fun t => moved t ∧
        (∀ i < 2 ^ 20, spGet zeroB t.larkMem i = if (i + 2 ^ 20 - a) % 2 ^ 20 < 3 then
          BitVec.ofNat 8 (fld v (8 * ((i + 2 ^ 20 - a) % 2 ^ 20) + 7) (8 * ((i + 2 ^ 20 - a) % 2 ^ 20))) else spGet zeroB s.larkMem i) ∧
        t = { s with ws := t.ws, larkMem := t.larkMem, rfault := false }))

/-- Sample periods and ring traffic (R220, R224, R226, R232, R234, R235). A period of a running Lark counts in LCOUNT and LBLOCK, sends the channel samples formed
before it and forms 16 of 24 bits; it applies the gathered commands: a stopped voice is idle at level 0, a released one plays no attack, decay or
sustain, a refused key-on counts in VERR with the Lark event and starts nothing. Once a block, a completed send block is written to its slot of the
send ring, through the write queues, and the slots of the return rings due are asked for. -/
def Obligations.LarkPeriods : Prop :=
  ∀ s : State,
    ((s.larkOn && !s.lark.frozen) = false → Completes .samplePeriod s fun t => t = s) ∧
    (s.larkOn = true → s.lark.frozen = false →
      let counted := fun (t : State) => t.lark.count = s.lark.count + 1 ∧ t.rd (aLark 8) = wd (s.lark.count + 1) ∧
        t.rd (aLark 9) = wd ((s.lark.count + 1) / 64) ∧ t.lark.out = s.lark.formed ∧ t.lark.keys = [] ∧
        t.lark.formed.length = 16 ∧ ∀ x ∈ t.lark.formed, -0x800000 ≤ x ∧ x ≤ 0x7FFFFF
      Completes .samplePeriod s (fun t => counted t ∧ t.dram = s.dram ∧ t.pads = s.pads ∧ t.heads = s.heads) ∧
      ∀ v : Fin 256,
        (s.lark.keys = [{ voice := v.val, op := 2 }] → Completes .samplePeriod s fun t => counted t ∧
          t.lark.voices[v].phase = 0 ∧ t.lark.voices[v].level = 0) ∧
        (s.lark.keys = [{ voice := v.val, op := 1 }] → Completes .samplePeriod s fun t => counted t ∧
          (t.lark.voices[v].phase = 0 ∨ t.lark.voices[v].phase = 4 ∨ 4 < s.lark.voices[v].phase)) ∧
        (s.lark.keys = [{ voice := v.val, op := 0 }] → s.lark.voices[v].phase = 0 →
          (s.rd (aVoice v.val 2) = 0 ∨ 2 ≤ s.fget (aVoice v.val 0) 20 19 ∨ s.rd (aVoice v.val 4) = 0 ∨
            (s.fget (aVoice v.val 0) 20 19 = 1 ∧ (s.rd (aVoice v.val 2)).toNat ≤ (s.rd (aVoice v.val 3)).toNat)) →
          Completes .samplePeriod s fun t => counted t ∧ t.lark.voices[v].phase = 0 ∧ t.evFlag 35 = true ∧
            min 255 (s.fget (aLark 3) 23 16 + 1) ≤ t.fget (aLark 3) 23 16)) ∧
    (let b := s.lark.count / 64
     ((s.larkOn = false ∨ s.lark.blockAt = b) → Completes .larkBlock s fun t => t = s) ∧
     (s.larkOn = true → s.lark.blockAt ≠ b → Completes .larkBlock s fun t => t.lark.blockAt = b ∧ t.lark.done = [] ∧
        (∀ x : Fin 4, s.hostFn 3 = true ∨ s.bget (aLark (0x20 + 8 * x.val)) 23 = true → s.fget (aLark 0x0A) 23 21 ≤ b + 1 →
          (t.lark.fetched.any fun e => e.bus == x.val && e.block == b + 1 - s.fget (aLark 0x0A) 23 21) = true) ∧
        (∀ e : Nat × Nat × List Int, s.lark.done = [e] → e.1 < 4 → e.2.2.length = 64 → (∀ c : Chan, s.chans[c].writes = [] ∧ s.chans[c].waiting = []) →
          (∀ n < 8, s.bget (aDram (0x10 + 3 * n)) 0 = false) →
          let slot := (s.rd (aLark (0x23 + 8 * e.1))).toNat * 2048 + 256 * (e.2.1 % 8)
          slot + 224 ≤ s.dramCap →
          t.nowBytes slot 224 = bytesLE 3 e.2.1 ++ List.replicate 29 0 ++ (e.2.2.map fun v => bytesLE 3 (umod 24 v)).flatten ∧
          ∀ a : Nat, a < slot ∨ slot + 224 ≤ a → t.nowBytes a 1 = s.nowBytes a 1) ∧
        (s.lark.done = [] → ∀ c : Chan, t.chans[c].writes = s.chans[c].writes) ∧ t.dram = s.dram ∧ t.lark.voices = s.lark.voices ∧ t.lark.out = s.lark.out))
end

