-- ==== Sys2Proof/Laws/Maps.lean ====
section
/-! SUPPORT. The laws of the sparse maps: a read after a write, and that every operation keeps the canonical form. -/

namespace Sys2Proof.Machine

variable {α : Type} (d : Nat → α)

/-- A key below every entry kept reads as in the whole map. -/
theorem spGet_spLow (m : List (Nat × α)) {j k : Nat} (h : j < k) : spGet d (spLow m k) j = spGet d m j := by
  induction m with
  | nil => rfl
  | cons e t ih =>
    obtain ⟨a, v⟩ := e
    by_cases ha : a < k
    · have : spLow ((a, v) :: t) k = (a, v) :: spLow t k := by simp [spLow, ha]
      rw [this]; simp only [spGet]; split <;> simp_all
    · have : spLow ((a, v) :: t) k = spLow t k := by simp [spLow, ha]
      rw [this, ih]; simp only [spGet]; rw [if_neg (by omega)]

/-- A key above the bound reads as in the whole map. -/
theorem spGet_spHigh (m : List (Nat × α)) {j k : Nat} (h : k < j) : spGet d (spHigh m k) j = spGet d m j := by
  induction m with
  | nil => rfl
  | cons e t ih =>
    obtain ⟨a, v⟩ := e
    by_cases ha : k < a
    · have : spHigh ((a, v) :: t) k = (a, v) :: spHigh t k := by simp [spHigh, ha]
      rw [this]; simp only [spGet]; split <;> simp_all
    · have : spHigh ((a, v) :: t) k = spHigh t k := by simp [spHigh, ha]
      rw [this, ih]; simp only [spGet]; rw [if_neg (by omega)]

/-- A key that no entry has reads as its default. -/
theorem spGet_of_no_key (m : List (Nat × α)) {k : Nat} (h : ∀ e ∈ m, e.1 ≠ k) : spGet d m k = d k := by
  induction m with
  | nil => rfl
  | cons e t ih =>
    obtain ⟨a, v⟩ := e
    simp only [spGet]
    rw [if_neg (by simpa using h (a, v) (by simp)), ih fun e he => h e (by simp [he])]

/-- Entries without the key are passed over. -/
theorem spGet_append (m n : List (Nat × α)) {k : Nat} (h : ∀ e ∈ m, e.1 ≠ k) : spGet d (m ++ n) k = spGet d n k := by
  induction m with
  | nil => rfl
  | cons e t ih =>
    obtain ⟨a, v⟩ := e
    simp only [List.cons_append, spGet]
    rw [if_neg (by simpa using h (a, v) (by simp)), ih fun e he => h e (by simp [he])]

/-- A prefix decides what a key reads when no entry after it has the key. -/
theorem spGet_append_left (m n : List (Nat × α)) {k : Nat} (h : ∀ e ∈ n, e.1 ≠ k) : spGet d (m ++ n) k = spGet d m k := by
  induction m with
  | nil => exact spGet_of_no_key d n h
  | cons e t ih => obtain ⟨a, v⟩ := e; simp only [List.cons_append, spGet, ih]

theorem mem_spLow {m : List (Nat × α)} {k : Nat} {e : Nat × α} : e ∈ spLow m k ↔ e ∈ m ∧ e.1 < k := by
  simp [spLow]

theorem mem_spHigh {m : List (Nat × α)} {k : Nat} {e : Nat × α} : e ∈ spHigh m k ↔ e ∈ m ∧ k < e.1 := by
  simp [spHigh]

variable [DecidableEq α]

/-- A read after a write of the same key gives the value written. -/
@[simp] theorem spGet_spSet_same (m : List (Nat × α)) (k : Nat) (v : α) : spGet d (spSet d m k v) k = v := by
  unfold spSet
  rw [spGet_append d _ _ fun e he => by have := (mem_spLow.1 he).2; omega]
  split
  · rw [spGet_of_no_key d _ fun e he => by have := (mem_spHigh.1 he).2; omega]; exact (‹v = d k›).symm
  · simp [spGet]

/-- A write leaves every other key alone. -/
theorem spGet_spSet_ne (m : List (Nat × α)) {j k : Nat} (v : α) (h : j ≠ k) : spGet d (spSet d m k v) j = spGet d m j := by
  unfold spSet
  rcases Nat.lt_or_gt_of_ne h with hj | hj
  · rw [spGet_append_left d _ _ fun e he => ?_, spGet_spLow d m hj]
    split at he
    · have := (mem_spHigh.1 he).2; omega
    · rcases List.mem_cons.1 he with rfl | he
      · exact fun hk => h hk.symm
      · have := (mem_spHigh.1 he).2; omega
  · rw [spGet_append d _ _ fun e he => by have := (mem_spLow.1 he).2; omega]
    split
    · exact spGet_spHigh d m hj
    · simp only [spGet]; rw [if_neg (by omega)]; exact spGet_spHigh d m hj

/-- What any key reads after a write. -/
theorem spGet_spSet (m : List (Nat × α)) (j k : Nat) (v : α) : spGet d (spSet d m k v) j = if j = k then v else spGet d m j := by
  split
  · subst j; simp
  · exact spGet_spSet_ne d m v ‹_›

/-- What any key reads after a run of writes. -/
theorem spGet_spWrite (l : List α) : ∀ (m : List (Nat × α)) (k j : Nat),
    spGet d (spWrite d m k l) j = if h : k ≤ j ∧ j < k + l.length then l[j - k]'(by omega) else spGet d m j := by
  induction l with
  | nil => intro m k j; simp [spWrite]
  | cons v t ih =>
    intro m k j
    simp only [spWrite, ih, spGet_spSet, List.length_cons]
    by_cases h1 : j = k
    · subst h1; simp
    · by_cases h2 : k + 1 ≤ j ∧ j < k + 1 + t.length
      · rw [dif_pos h2, dif_pos (by omega)]
        simp only [show j - k = (j - (k + 1)) + 1 by omega, List.getElem_cons_succ]
      · rw [dif_neg h2, dif_neg (by omega), if_neg h1]

omit [DecidableEq α] in
/-- What any key reads after a range is forgotten. -/
theorem spGet_spClear (m : List (Nat × α)) (lo hi k : Nat) :
    spGet d (spClear m lo hi) k = if lo ≤ k ∧ k ≤ hi then d k else spGet d m k := by
  induction m with
  | nil => simp [spClear, spGet]
  | cons e t ih =>
    obtain ⟨a, v⟩ := e
    by_cases ha : a < lo ∨ hi < a
    · have : spClear ((a, v) :: t) lo hi = (a, v) :: spClear t lo hi := by simp [spClear, ha]
      rw [this]; simp only [spGet, ih]
      by_cases hk : a = k
      · subst hk; rw [if_pos rfl, if_pos rfl, if_neg (by omega)]
      · rw [if_neg hk, if_neg hk]
    · have : spClear ((a, v) :: t) lo hi = spClear t lo hi := by simp [spClear, ha]
      rw [this, ih]; simp only [spGet]
      by_cases hk : a = k
      · subst hk; rw [if_pos (by omega), if_pos (by omega)]
      · rw [if_neg hk]

/-! ### The canonical form -/

omit [DecidableEq α] in
/-- The empty map is canonical. -/
theorem spWf_nil : spWf d ([] : List (Nat × α)) := by simp [spWf]

/-- A write keeps the canonical form. -/
theorem spWf_spSet {m : List (Nat × α)} (k : Nat) (v : α) (h : spWf d m) : spWf d (spSet d m k v) := by
  obtain ⟨hp, hd⟩ := h
  have hl := hp.filter fun e => decide (e.1 < k)
  have hh := hp.filter fun e => decide (k < e.1)
  constructor
  · unfold spSet
    rw [List.pairwise_append]
    refine ⟨hl, ?_, ?_⟩
    · split
      · exact hh
      · exact List.pairwise_cons.2 ⟨fun e he => (mem_spHigh.1 he).2, hh⟩
    · intro a ha b hb
      have h1 := (mem_spLow.1 ha).2
      split at hb
      · have := (mem_spHigh.1 hb).2; omega
      · rcases List.mem_cons.1 hb with rfl | hb
        · exact h1
        · have := (mem_spHigh.1 hb).2; omega
  · intro e he
    unfold spSet at he
    rcases List.mem_append.1 he with he | he
    · exact hd e (mem_spLow.1 he).1
    · split at he
      · exact hd e (mem_spHigh.1 he).1
      · rcases List.mem_cons.1 he with rfl | he
        · assumption
        · exact hd e (mem_spHigh.1 he).1

/-- A run of writes keeps the canonical form. -/
theorem spWf_spWrite (l : List α) : ∀ (m : List (Nat × α)) (k : Nat), spWf d m → spWf d (spWrite d m k l) := by
  induction l with
  | nil => intro m k h; exact h
  | cons v t ih => intro m k h; exact ih _ _ (spWf_spSet d k v h)

omit [DecidableEq α] in
/-- Forgetting a range keeps the canonical form. -/
theorem spWf_spClear {m : List (Nat × α)} (lo hi : Nat) (h : spWf d m) : spWf d (spClear m lo hi) :=
  ⟨h.1.filter _, fun e he => h.2 e (List.mem_of_mem_filter he)⟩

omit [DecidableEq α] in
/-- Two canonical maps that read alike everywhere are equal. -/
theorem spWf_ext {m n : List (Nat × α)} (hm : spWf d m) (hn : spWf d n) (h : ∀ k, spGet d m k = spGet d n k) : m = n := by
  induction m generalizing n with
  | nil =>
    cases n with
    | nil => rfl
    | cons e t =>
      have h1 := h e.1
      simp only [spGet] at h1
      exact absurd (by simpa using h1.symm) (hn.2 e (by simp))
  | cons e t ih =>
    cases n with
    | nil =>
      have h1 := h e.1
      simp only [spGet] at h1
      exact absurd (by simpa using h1) (hm.2 e (by simp))
    | cons f u =>
      obtain ⟨a, v⟩ := e
      obtain ⟨b, w⟩ := f
      obtain ⟨hpm, hdm⟩ := hm
      obtain ⟨hpn, hdn⟩ := hn
      obtain ⟨ha, hpt⟩ := List.pairwise_cons.1 hpm
      obtain ⟨hb, hpu⟩ := List.pairwise_cons.1 hpn
      have key : a = b := by
        by_contra hne
        rcases Nat.lt_or_gt_of_ne hne with hlt | hlt
        · have h1 := h a
          rw [spGet_of_no_key d ((b, w) :: u) (k := a) fun e he => by
            rcases List.mem_cons.1 he with rfl | he
            · simp; omega
            · have := hb e he; simp at this; omega] at h1
          simp only [spGet, if_pos] at h1
          exact hdm (a, v) (by simp) h1
        · have h1 := h b
          rw [spGet_of_no_key d ((a, v) :: t) (k := b) fun e he => by
            rcases List.mem_cons.1 he with rfl | he
            · simp; omega
            · have := ha e he; simp at this; omega] at h1
          simp only [spGet, if_pos] at h1
          exact hdn (b, w) (by simp) h1.symm
      subst key
      have hv := h a
      simp only [spGet, if_pos] at hv
      subst hv
      congr 1
      refine ih ⟨hpt, fun e he => hdm e (by simp [he])⟩ ⟨hpu, fun e he => hdn e (by simp [he])⟩ fun k => ?_
      by_cases hk : a = k
      · subst hk
        rw [spGet_of_no_key d t fun e he => by have := ha e he; simp at this; omega,
          spGet_of_no_key d u fun e he => by have := hb e he; simp at this; omega]
      · have := h k
        simpa only [spGet, if_neg hk] using this

end Sys2Proof.Machine
end

