-- ==== Sys2Proof/Laws/State.lean ====
section
/-! SUPPORT. What each named update of the state leaves as it was: one lemma per field per update. Beside them, what each
of the three register maps reads after a write. -/

namespace Sys2Proof.Machine

variable (s : State)

/-! ### wr -/
@[simp] theorem State.wr_pending (a : Nat) (v : Word) : (s.wr a v).pending = s.pending := rfl
@[simp] theorem State.wr_freeCtr (a : Nat) (v : Word) : (s.wr a v).freeCtr = s.freeCtr := rfl
@[simp] theorem State.wr_sclk (a : Nat) (v : Word) : (s.wr a v).sclk = s.sclk := rfl
@[simp] theorem State.wr_fuses (a : Nat) (v : Word) : (s.wr a v).fuses = s.fuses := rfl
@[simp] theorem State.wr_start (a : Nat) (v : Word) : (s.wr a v).start = s.start := rfl
@[simp] theorem State.wr_dev (a : Nat) (v : Word) : (s.wr a v).dev = s.dev := rfl
@[simp] theorem State.wr_reason (a : Nat) (v : Word) : (s.wr a v).reason = s.reason := rfl
@[simp] theorem State.wr_hw (a : Nat) (v : Word) : (s.wr a v).hw = s.hw := rfl
@[simp] theorem State.wr_stileRegs (a : Nat) (v : Word) : (s.wr a v).stileRegs = s.stileRegs := rfl
@[simp] theorem State.wr_dram (a : Nat) (v : Word) : (s.wr a v).dram = s.dram := rfl
@[simp] theorem State.wr_larkMem (a : Nat) (v : Word) : (s.wr a v).larkMem = s.larkMem := rfl
@[simp] theorem State.wr_flash (a : Nat) (v : Word) : (s.wr a v).flash = s.flash := rfl
@[simp] theorem State.wr_ports (a : Nat) (v : Word) : (s.wr a v).ports = s.ports := rfl
@[simp] theorem State.wr_shadows (a : Nat) (v : Word) : (s.wr a v).shadows = s.shadows := rfl
@[simp] theorem State.wr_heads (a : Nat) (v : Word) : (s.wr a v).heads = s.heads := rfl
@[simp] theorem State.wr_engines (a : Nat) (v : Word) : (s.wr a v).engines = s.engines := rfl
@[simp] theorem State.wr_chans (a : Nat) (v : Word) : (s.wr a v).chans = s.chans := rfl
@[simp] theorem State.wr_clsBytes (a : Nat) (v : Word) : (s.wr a v).clsBytes = s.clsBytes := rfl
@[simp] theorem State.wr_pads (a : Nat) (v : Word) : (s.wr a v).pads = s.pads := rfl
@[simp] theorem State.wr_icp (a : Nat) (v : Word) : (s.wr a v).icp = s.icp := rfl
@[simp] theorem State.wr_icpQueue (a : Nat) (v : Word) : (s.wr a v).icpQueue = s.icpQueue := rfl
@[simp] theorem State.wr_keys (a : Nat) (v : Word) : (s.wr a v).keys = s.keys := rfl
@[simp] theorem State.wr_gcfg (a : Nat) (v : Word) : (s.wr a v).gcfg = s.gcfg := rfl
@[simp] theorem State.wr_gmode (a : Nat) (v : Word) : (s.wr a v).gmode = s.gmode := rfl
@[simp] theorem State.wr_glRound (a : Nat) (v : Word) : (s.wr a v).glRound = s.glRound := rfl
@[simp] theorem State.wr_glRef (a : Nat) (v : Word) : (s.wr a v).glRef = s.glRef := rfl
@[simp] theorem State.wr_upsets (a : Nat) (v : Word) : (s.wr a v).upsets = s.upsets := rfl
@[simp] theorem State.wr_lark (a : Nat) (v : Word) : (s.wr a v).lark = s.lark := rfl
@[simp] theorem State.wr_cores (a : Nat) (v : Word) : (s.wr a v).cores = s.cores := rfl
@[simp] theorem State.wr_mboxes (a : Nat) (v : Word) : (s.wr a v).mboxes = s.mboxes := rfl
@[simp] theorem State.wr_mbOrder (a : Nat) (v : Word) : (s.wr a v).mbOrder = s.mbOrder := rfl
@[simp] theorem State.wr_cae (a : Nat) (v : Word) : (s.wr a v).cae = s.cae := rfl
@[simp] theorem State.wr_repair (a : Nat) (v : Word) : (s.wr a v).repair = s.repair := rfl
@[simp] theorem State.wr_banks (a : Nat) (v : Word) : (s.wr a v).banks = s.banks := rfl
@[simp] theorem State.wr_timers (a : Nat) (v : Word) : (s.wr a v).timers = s.timers := rfl
@[simp] theorem State.wr_links (a : Nat) (v : Word) : (s.wr a v).links = s.links := rfl
@[simp] theorem State.wr_fold (a : Nat) (v : Word) : (s.wr a v).fold = s.fold := rfl
@[simp] theorem State.wr_copies (a : Nat) (v : Word) : (s.wr a v).copies = s.copies := rfl
@[simp] theorem State.wr_pcie (a : Nat) (v : Word) : (s.wr a v).pcie = s.pcie := rfl
@[simp] theorem State.wr_pow (a : Nat) (v : Word) : (s.wr a v).pow = s.pow := rfl
@[simp] theorem State.wr_stile (a : Nat) (v : Word) : (s.wr a v).stile = s.stile := rfl
@[simp] theorem State.wr_rdata (a : Nat) (v : Word) : (s.wr a v).rdata = s.rdata := rfl
@[simp] theorem State.wr_rfault (a : Nat) (v : Word) : (s.wr a v).rfault = s.rfault := rfl
@[simp] theorem State.wr_cyc (a : Nat) (v : Word) : (s.wr a v).cyc = s.cyc := rfl
@[simp] theorem State.wr_cycAt (a : Nat) (v : Word) : (s.wr a v).cycAt = s.cycAt := rfl
@[simp] theorem State.wr_gl (a : Nat) (v : Word) : (s.wr a v).gl = s.gl := rfl
@[simp] theorem State.wr_beamAt (a : Nat) (v : Word) : (s.wr a v).beamAt = s.beamAt := rfl
@[simp] theorem State.wr_prb (a : Nat) (v : Word) : (s.wr a v).prb = s.prb := rfl
@[simp] theorem State.wr_drate (a : Nat) (v : Word) : (s.wr a v).drate = s.drate := rfl
@[simp] theorem State.wr_dcyc (a : Nat) (v : Word) : (s.wr a v).dcyc = s.dcyc := rfl
@[simp] theorem State.wr_dreads (a : Nat) (v : Word) : (s.wr a v).dreads = s.dreads := rfl
@[simp] theorem State.wr_hwRd (a : Nat) (v : Word) (k : Nat) : (s.wr a v).hwRd k = s.hwRd k := rfl
@[simp] theorem State.wr_stRd (a : Nat) (v : Word) (k : Nat) : (s.wr a v).stRd k = s.stRd k := rfl

/-! ### hwWr -/
@[simp] theorem State.hwWr_pending (a : Nat) (v : Word) : (s.hwWr a v).pending = s.pending := rfl
@[simp] theorem State.hwWr_freeCtr (a : Nat) (v : Word) : (s.hwWr a v).freeCtr = s.freeCtr := rfl
@[simp] theorem State.hwWr_sclk (a : Nat) (v : Word) : (s.hwWr a v).sclk = s.sclk := rfl
@[simp] theorem State.hwWr_fuses (a : Nat) (v : Word) : (s.hwWr a v).fuses = s.fuses := rfl
@[simp] theorem State.hwWr_start (a : Nat) (v : Word) : (s.hwWr a v).start = s.start := rfl
@[simp] theorem State.hwWr_dev (a : Nat) (v : Word) : (s.hwWr a v).dev = s.dev := rfl
@[simp] theorem State.hwWr_reason (a : Nat) (v : Word) : (s.hwWr a v).reason = s.reason := rfl
@[simp] theorem State.hwWr_ws (a : Nat) (v : Word) : (s.hwWr a v).ws = s.ws := rfl
@[simp] theorem State.hwWr_stileRegs (a : Nat) (v : Word) : (s.hwWr a v).stileRegs = s.stileRegs := rfl
@[simp] theorem State.hwWr_dram (a : Nat) (v : Word) : (s.hwWr a v).dram = s.dram := rfl
@[simp] theorem State.hwWr_larkMem (a : Nat) (v : Word) : (s.hwWr a v).larkMem = s.larkMem := rfl
@[simp] theorem State.hwWr_flash (a : Nat) (v : Word) : (s.hwWr a v).flash = s.flash := rfl
@[simp] theorem State.hwWr_ports (a : Nat) (v : Word) : (s.hwWr a v).ports = s.ports := rfl
@[simp] theorem State.hwWr_shadows (a : Nat) (v : Word) : (s.hwWr a v).shadows = s.shadows := rfl
@[simp] theorem State.hwWr_heads (a : Nat) (v : Word) : (s.hwWr a v).heads = s.heads := rfl
@[simp] theorem State.hwWr_engines (a : Nat) (v : Word) : (s.hwWr a v).engines = s.engines := rfl
@[simp] theorem State.hwWr_chans (a : Nat) (v : Word) : (s.hwWr a v).chans = s.chans := rfl
@[simp] theorem State.hwWr_clsBytes (a : Nat) (v : Word) : (s.hwWr a v).clsBytes = s.clsBytes := rfl
@[simp] theorem State.hwWr_pads (a : Nat) (v : Word) : (s.hwWr a v).pads = s.pads := rfl
@[simp] theorem State.hwWr_icp (a : Nat) (v : Word) : (s.hwWr a v).icp = s.icp := rfl
@[simp] theorem State.hwWr_icpQueue (a : Nat) (v : Word) : (s.hwWr a v).icpQueue = s.icpQueue := rfl
@[simp] theorem State.hwWr_keys (a : Nat) (v : Word) : (s.hwWr a v).keys = s.keys := rfl
@[simp] theorem State.hwWr_gcfg (a : Nat) (v : Word) : (s.hwWr a v).gcfg = s.gcfg := rfl
@[simp] theorem State.hwWr_gmode (a : Nat) (v : Word) : (s.hwWr a v).gmode = s.gmode := rfl
@[simp] theorem State.hwWr_glRound (a : Nat) (v : Word) : (s.hwWr a v).glRound = s.glRound := rfl
@[simp] theorem State.hwWr_glRef (a : Nat) (v : Word) : (s.hwWr a v).glRef = s.glRef := rfl
@[simp] theorem State.hwWr_upsets (a : Nat) (v : Word) : (s.hwWr a v).upsets = s.upsets := rfl
@[simp] theorem State.hwWr_lark (a : Nat) (v : Word) : (s.hwWr a v).lark = s.lark := rfl
@[simp] theorem State.hwWr_cores (a : Nat) (v : Word) : (s.hwWr a v).cores = s.cores := rfl
@[simp] theorem State.hwWr_mboxes (a : Nat) (v : Word) : (s.hwWr a v).mboxes = s.mboxes := rfl
@[simp] theorem State.hwWr_mbOrder (a : Nat) (v : Word) : (s.hwWr a v).mbOrder = s.mbOrder := rfl
@[simp] theorem State.hwWr_cae (a : Nat) (v : Word) : (s.hwWr a v).cae = s.cae := rfl
@[simp] theorem State.hwWr_repair (a : Nat) (v : Word) : (s.hwWr a v).repair = s.repair := rfl
@[simp] theorem State.hwWr_banks (a : Nat) (v : Word) : (s.hwWr a v).banks = s.banks := rfl
@[simp] theorem State.hwWr_timers (a : Nat) (v : Word) : (s.hwWr a v).timers = s.timers := rfl
@[simp] theorem State.hwWr_links (a : Nat) (v : Word) : (s.hwWr a v).links = s.links := rfl
@[simp] theorem State.hwWr_fold (a : Nat) (v : Word) : (s.hwWr a v).fold = s.fold := rfl
@[simp] theorem State.hwWr_copies (a : Nat) (v : Word) : (s.hwWr a v).copies = s.copies := rfl
@[simp] theorem State.hwWr_pcie (a : Nat) (v : Word) : (s.hwWr a v).pcie = s.pcie := rfl
@[simp] theorem State.hwWr_pow (a : Nat) (v : Word) : (s.hwWr a v).pow = s.pow := rfl
@[simp] theorem State.hwWr_stile (a : Nat) (v : Word) : (s.hwWr a v).stile = s.stile := rfl
@[simp] theorem State.hwWr_rdata (a : Nat) (v : Word) : (s.hwWr a v).rdata = s.rdata := rfl
@[simp] theorem State.hwWr_rfault (a : Nat) (v : Word) : (s.hwWr a v).rfault = s.rfault := rfl
@[simp] theorem State.hwWr_cyc (a : Nat) (v : Word) : (s.hwWr a v).cyc = s.cyc := rfl
@[simp] theorem State.hwWr_cycAt (a : Nat) (v : Word) : (s.hwWr a v).cycAt = s.cycAt := rfl
@[simp] theorem State.hwWr_gl (a : Nat) (v : Word) : (s.hwWr a v).gl = s.gl := rfl
@[simp] theorem State.hwWr_beamAt (a : Nat) (v : Word) : (s.hwWr a v).beamAt = s.beamAt := rfl
@[simp] theorem State.hwWr_prb (a : Nat) (v : Word) : (s.hwWr a v).prb = s.prb := rfl
@[simp] theorem State.hwWr_drate (a : Nat) (v : Word) : (s.hwWr a v).drate = s.drate := rfl
@[simp] theorem State.hwWr_dcyc (a : Nat) (v : Word) : (s.hwWr a v).dcyc = s.dcyc := rfl
@[simp] theorem State.hwWr_dreads (a : Nat) (v : Word) : (s.hwWr a v).dreads = s.dreads := rfl
@[simp] theorem State.hwWr_rd (a : Nat) (v : Word) (k : Nat) : (s.hwWr a v).rd k = s.rd k := rfl
@[simp] theorem State.hwWr_stRd (a : Nat) (v : Word) (k : Nat) : (s.hwWr a v).stRd k = s.stRd k := rfl

/-! ### stWr -/
@[simp] theorem State.stWr_pending (a : Nat) (v : Word) : (s.stWr a v).pending = s.pending := rfl
@[simp] theorem State.stWr_freeCtr (a : Nat) (v : Word) : (s.stWr a v).freeCtr = s.freeCtr := rfl
@[simp] theorem State.stWr_sclk (a : Nat) (v : Word) : (s.stWr a v).sclk = s.sclk := rfl
@[simp] theorem State.stWr_fuses (a : Nat) (v : Word) : (s.stWr a v).fuses = s.fuses := rfl
@[simp] theorem State.stWr_start (a : Nat) (v : Word) : (s.stWr a v).start = s.start := rfl
@[simp] theorem State.stWr_dev (a : Nat) (v : Word) : (s.stWr a v).dev = s.dev := rfl
@[simp] theorem State.stWr_reason (a : Nat) (v : Word) : (s.stWr a v).reason = s.reason := rfl
@[simp] theorem State.stWr_ws (a : Nat) (v : Word) : (s.stWr a v).ws = s.ws := rfl
@[simp] theorem State.stWr_hw (a : Nat) (v : Word) : (s.stWr a v).hw = s.hw := rfl
@[simp] theorem State.stWr_dram (a : Nat) (v : Word) : (s.stWr a v).dram = s.dram := rfl
@[simp] theorem State.stWr_larkMem (a : Nat) (v : Word) : (s.stWr a v).larkMem = s.larkMem := rfl
@[simp] theorem State.stWr_flash (a : Nat) (v : Word) : (s.stWr a v).flash = s.flash := rfl
@[simp] theorem State.stWr_ports (a : Nat) (v : Word) : (s.stWr a v).ports = s.ports := rfl
@[simp] theorem State.stWr_shadows (a : Nat) (v : Word) : (s.stWr a v).shadows = s.shadows := rfl
@[simp] theorem State.stWr_heads (a : Nat) (v : Word) : (s.stWr a v).heads = s.heads := rfl
@[simp] theorem State.stWr_engines (a : Nat) (v : Word) : (s.stWr a v).engines = s.engines := rfl
@[simp] theorem State.stWr_chans (a : Nat) (v : Word) : (s.stWr a v).chans = s.chans := rfl
@[simp] theorem State.stWr_clsBytes (a : Nat) (v : Word) : (s.stWr a v).clsBytes = s.clsBytes := rfl
@[simp] theorem State.stWr_pads (a : Nat) (v : Word) : (s.stWr a v).pads = s.pads := rfl
@[simp] theorem State.stWr_icp (a : Nat) (v : Word) : (s.stWr a v).icp = s.icp := rfl
@[simp] theorem State.stWr_icpQueue (a : Nat) (v : Word) : (s.stWr a v).icpQueue = s.icpQueue := rfl
@[simp] theorem State.stWr_keys (a : Nat) (v : Word) : (s.stWr a v).keys = s.keys := rfl
@[simp] theorem State.stWr_gcfg (a : Nat) (v : Word) : (s.stWr a v).gcfg = s.gcfg := rfl
@[simp] theorem State.stWr_gmode (a : Nat) (v : Word) : (s.stWr a v).gmode = s.gmode := rfl
@[simp] theorem State.stWr_glRound (a : Nat) (v : Word) : (s.stWr a v).glRound = s.glRound := rfl
@[simp] theorem State.stWr_glRef (a : Nat) (v : Word) : (s.stWr a v).glRef = s.glRef := rfl
@[simp] theorem State.stWr_upsets (a : Nat) (v : Word) : (s.stWr a v).upsets = s.upsets := rfl
@[simp] theorem State.stWr_lark (a : Nat) (v : Word) : (s.stWr a v).lark = s.lark := rfl
@[simp] theorem State.stWr_cores (a : Nat) (v : Word) : (s.stWr a v).cores = s.cores := rfl
@[simp] theorem State.stWr_mboxes (a : Nat) (v : Word) : (s.stWr a v).mboxes = s.mboxes := rfl
@[simp] theorem State.stWr_mbOrder (a : Nat) (v : Word) : (s.stWr a v).mbOrder = s.mbOrder := rfl
@[simp] theorem State.stWr_cae (a : Nat) (v : Word) : (s.stWr a v).cae = s.cae := rfl
@[simp] theorem State.stWr_repair (a : Nat) (v : Word) : (s.stWr a v).repair = s.repair := rfl
@[simp] theorem State.stWr_banks (a : Nat) (v : Word) : (s.stWr a v).banks = s.banks := rfl
@[simp] theorem State.stWr_timers (a : Nat) (v : Word) : (s.stWr a v).timers = s.timers := rfl
@[simp] theorem State.stWr_links (a : Nat) (v : Word) : (s.stWr a v).links = s.links := rfl
@[simp] theorem State.stWr_fold (a : Nat) (v : Word) : (s.stWr a v).fold = s.fold := rfl
@[simp] theorem State.stWr_copies (a : Nat) (v : Word) : (s.stWr a v).copies = s.copies := rfl
@[simp] theorem State.stWr_pcie (a : Nat) (v : Word) : (s.stWr a v).pcie = s.pcie := rfl
@[simp] theorem State.stWr_pow (a : Nat) (v : Word) : (s.stWr a v).pow = s.pow := rfl
@[simp] theorem State.stWr_stile (a : Nat) (v : Word) : (s.stWr a v).stile = s.stile := rfl
@[simp] theorem State.stWr_rdata (a : Nat) (v : Word) : (s.stWr a v).rdata = s.rdata := rfl
@[simp] theorem State.stWr_rfault (a : Nat) (v : Word) : (s.stWr a v).rfault = s.rfault := rfl
@[simp] theorem State.stWr_cyc (a : Nat) (v : Word) : (s.stWr a v).cyc = s.cyc := rfl
@[simp] theorem State.stWr_cycAt (a : Nat) (v : Word) : (s.stWr a v).cycAt = s.cycAt := rfl
@[simp] theorem State.stWr_gl (a : Nat) (v : Word) : (s.stWr a v).gl = s.gl := rfl
@[simp] theorem State.stWr_beamAt (a : Nat) (v : Word) : (s.stWr a v).beamAt = s.beamAt := rfl
@[simp] theorem State.stWr_prb (a : Nat) (v : Word) : (s.stWr a v).prb = s.prb := rfl
@[simp] theorem State.stWr_drate (a : Nat) (v : Word) : (s.stWr a v).drate = s.drate := rfl
@[simp] theorem State.stWr_dcyc (a : Nat) (v : Word) : (s.stWr a v).dcyc = s.dcyc := rfl
@[simp] theorem State.stWr_dreads (a : Nat) (v : Word) : (s.stWr a v).dreads = s.dreads := rfl
@[simp] theorem State.stWr_rd (a : Nat) (v : Word) (k : Nat) : (s.stWr a v).rd k = s.rd k := rfl
@[simp] theorem State.stWr_hwRd (a : Nat) (v : Word) (k : Nat) : (s.stWr a v).hwRd k = s.hwRd k := rfl

/-! ### modHead -/
@[simp] theorem State.modHead_pending (i : Head) (f : HeadSt → HeadSt) : (s.modHead i f).pending = s.pending := rfl
@[simp] theorem State.modHead_freeCtr (i : Head) (f : HeadSt → HeadSt) : (s.modHead i f).freeCtr = s.freeCtr := rfl
@[simp] theorem State.modHead_sclk (i : Head) (f : HeadSt → HeadSt) : (s.modHead i f).sclk = s.sclk := rfl
@[simp] theorem State.modHead_fuses (i : Head) (f : HeadSt → HeadSt) : (s.modHead i f).fuses = s.fuses := rfl
@[simp] theorem State.modHead_start (i : Head) (f : HeadSt → HeadSt) : (s.modHead i f).start = s.start := rfl
@[simp] theorem State.modHead_dev (i : Head) (f : HeadSt → HeadSt) : (s.modHead i f).dev = s.dev := rfl
@[simp] theorem State.modHead_reason (i : Head) (f : HeadSt → HeadSt) : (s.modHead i f).reason = s.reason := rfl
@[simp] theorem State.modHead_ws (i : Head) (f : HeadSt → HeadSt) : (s.modHead i f).ws = s.ws := rfl
@[simp] theorem State.modHead_hw (i : Head) (f : HeadSt → HeadSt) : (s.modHead i f).hw = s.hw := rfl
@[simp] theorem State.modHead_stileRegs (i : Head) (f : HeadSt → HeadSt) : (s.modHead i f).stileRegs = s.stileRegs := rfl
@[simp] theorem State.modHead_dram (i : Head) (f : HeadSt → HeadSt) : (s.modHead i f).dram = s.dram := rfl
@[simp] theorem State.modHead_larkMem (i : Head) (f : HeadSt → HeadSt) : (s.modHead i f).larkMem = s.larkMem := rfl
@[simp] theorem State.modHead_flash (i : Head) (f : HeadSt → HeadSt) : (s.modHead i f).flash = s.flash := rfl
@[simp] theorem State.modHead_ports (i : Head) (f : HeadSt → HeadSt) : (s.modHead i f).ports = s.ports := rfl
@[simp] theorem State.modHead_shadows (i : Head) (f : HeadSt → HeadSt) : (s.modHead i f).shadows = s.shadows := rfl
@[simp] theorem State.modHead_engines (i : Head) (f : HeadSt → HeadSt) : (s.modHead i f).engines = s.engines := rfl
@[simp] theorem State.modHead_chans (i : Head) (f : HeadSt → HeadSt) : (s.modHead i f).chans = s.chans := rfl
@[simp] theorem State.modHead_clsBytes (i : Head) (f : HeadSt → HeadSt) : (s.modHead i f).clsBytes = s.clsBytes := rfl
@[simp] theorem State.modHead_pads (i : Head) (f : HeadSt → HeadSt) : (s.modHead i f).pads = s.pads := rfl
@[simp] theorem State.modHead_icp (i : Head) (f : HeadSt → HeadSt) : (s.modHead i f).icp = s.icp := rfl
@[simp] theorem State.modHead_icpQueue (i : Head) (f : HeadSt → HeadSt) : (s.modHead i f).icpQueue = s.icpQueue := rfl
@[simp] theorem State.modHead_keys (i : Head) (f : HeadSt → HeadSt) : (s.modHead i f).keys = s.keys := rfl
@[simp] theorem State.modHead_gcfg (i : Head) (f : HeadSt → HeadSt) : (s.modHead i f).gcfg = s.gcfg := rfl
@[simp] theorem State.modHead_gmode (i : Head) (f : HeadSt → HeadSt) : (s.modHead i f).gmode = s.gmode := rfl
@[simp] theorem State.modHead_glRound (i : Head) (f : HeadSt → HeadSt) : (s.modHead i f).glRound = s.glRound := rfl
@[simp] theorem State.modHead_glRef (i : Head) (f : HeadSt → HeadSt) : (s.modHead i f).glRef = s.glRef := rfl
@[simp] theorem State.modHead_upsets (i : Head) (f : HeadSt → HeadSt) : (s.modHead i f).upsets = s.upsets := rfl
@[simp] theorem State.modHead_lark (i : Head) (f : HeadSt → HeadSt) : (s.modHead i f).lark = s.lark := rfl
@[simp] theorem State.modHead_cores (i : Head) (f : HeadSt → HeadSt) : (s.modHead i f).cores = s.cores := rfl
@[simp] theorem State.modHead_mboxes (i : Head) (f : HeadSt → HeadSt) : (s.modHead i f).mboxes = s.mboxes := rfl
@[simp] theorem State.modHead_mbOrder (i : Head) (f : HeadSt → HeadSt) : (s.modHead i f).mbOrder = s.mbOrder := rfl
@[simp] theorem State.modHead_cae (i : Head) (f : HeadSt → HeadSt) : (s.modHead i f).cae = s.cae := rfl
@[simp] theorem State.modHead_repair (i : Head) (f : HeadSt → HeadSt) : (s.modHead i f).repair = s.repair := rfl
@[simp] theorem State.modHead_banks (i : Head) (f : HeadSt → HeadSt) : (s.modHead i f).banks = s.banks := rfl
@[simp] theorem State.modHead_timers (i : Head) (f : HeadSt → HeadSt) : (s.modHead i f).timers = s.timers := rfl
@[simp] theorem State.modHead_links (i : Head) (f : HeadSt → HeadSt) : (s.modHead i f).links = s.links := rfl
@[simp] theorem State.modHead_fold (i : Head) (f : HeadSt → HeadSt) : (s.modHead i f).fold = s.fold := rfl
@[simp] theorem State.modHead_copies (i : Head) (f : HeadSt → HeadSt) : (s.modHead i f).copies = s.copies := rfl
@[simp] theorem State.modHead_pcie (i : Head) (f : HeadSt → HeadSt) : (s.modHead i f).pcie = s.pcie := rfl
@[simp] theorem State.modHead_pow (i : Head) (f : HeadSt → HeadSt) : (s.modHead i f).pow = s.pow := rfl
@[simp] theorem State.modHead_stile (i : Head) (f : HeadSt → HeadSt) : (s.modHead i f).stile = s.stile := rfl
@[simp] theorem State.modHead_rdata (i : Head) (f : HeadSt → HeadSt) : (s.modHead i f).rdata = s.rdata := rfl
@[simp] theorem State.modHead_rfault (i : Head) (f : HeadSt → HeadSt) : (s.modHead i f).rfault = s.rfault := rfl
@[simp] theorem State.modHead_cyc (i : Head) (f : HeadSt → HeadSt) : (s.modHead i f).cyc = s.cyc := rfl
@[simp] theorem State.modHead_cycAt (i : Head) (f : HeadSt → HeadSt) : (s.modHead i f).cycAt = s.cycAt := rfl
@[simp] theorem State.modHead_gl (i : Head) (f : HeadSt → HeadSt) : (s.modHead i f).gl = s.gl := rfl
@[simp] theorem State.modHead_beamAt (i : Head) (f : HeadSt → HeadSt) : (s.modHead i f).beamAt = s.beamAt := rfl
@[simp] theorem State.modHead_prb (i : Head) (f : HeadSt → HeadSt) : (s.modHead i f).prb = s.prb := rfl
@[simp] theorem State.modHead_drate (i : Head) (f : HeadSt → HeadSt) : (s.modHead i f).drate = s.drate := rfl
@[simp] theorem State.modHead_dcyc (i : Head) (f : HeadSt → HeadSt) : (s.modHead i f).dcyc = s.dcyc := rfl
@[simp] theorem State.modHead_dreads (i : Head) (f : HeadSt → HeadSt) : (s.modHead i f).dreads = s.dreads := rfl
@[simp] theorem State.modHead_rd (i : Head) (f : HeadSt → HeadSt) (k : Nat) : (s.modHead i f).rd k = s.rd k := rfl
@[simp] theorem State.modHead_hwRd (i : Head) (f : HeadSt → HeadSt) (k : Nat) : (s.modHead i f).hwRd k = s.hwRd k := rfl
@[simp] theorem State.modHead_stRd (i : Head) (f : HeadSt → HeadSt) (k : Nat) : (s.modHead i f).stRd k = s.stRd k := rfl

/-! ### modPad -/
@[simp] theorem State.modPad_pending (i : Pad) (f : PadSt → PadSt) : (s.modPad i f).pending = s.pending := rfl
@[simp] theorem State.modPad_freeCtr (i : Pad) (f : PadSt → PadSt) : (s.modPad i f).freeCtr = s.freeCtr := rfl
@[simp] theorem State.modPad_sclk (i : Pad) (f : PadSt → PadSt) : (s.modPad i f).sclk = s.sclk := rfl
@[simp] theorem State.modPad_fuses (i : Pad) (f : PadSt → PadSt) : (s.modPad i f).fuses = s.fuses := rfl
@[simp] theorem State.modPad_start (i : Pad) (f : PadSt → PadSt) : (s.modPad i f).start = s.start := rfl
@[simp] theorem State.modPad_dev (i : Pad) (f : PadSt → PadSt) : (s.modPad i f).dev = s.dev := rfl
@[simp] theorem State.modPad_reason (i : Pad) (f : PadSt → PadSt) : (s.modPad i f).reason = s.reason := rfl
@[simp] theorem State.modPad_ws (i : Pad) (f : PadSt → PadSt) : (s.modPad i f).ws = s.ws := rfl
@[simp] theorem State.modPad_hw (i : Pad) (f : PadSt → PadSt) : (s.modPad i f).hw = s.hw := rfl
@[simp] theorem State.modPad_stileRegs (i : Pad) (f : PadSt → PadSt) : (s.modPad i f).stileRegs = s.stileRegs := rfl
@[simp] theorem State.modPad_dram (i : Pad) (f : PadSt → PadSt) : (s.modPad i f).dram = s.dram := rfl
@[simp] theorem State.modPad_larkMem (i : Pad) (f : PadSt → PadSt) : (s.modPad i f).larkMem = s.larkMem := rfl
@[simp] theorem State.modPad_flash (i : Pad) (f : PadSt → PadSt) : (s.modPad i f).flash = s.flash := rfl
@[simp] theorem State.modPad_ports (i : Pad) (f : PadSt → PadSt) : (s.modPad i f).ports = s.ports := rfl
@[simp] theorem State.modPad_shadows (i : Pad) (f : PadSt → PadSt) : (s.modPad i f).shadows = s.shadows := rfl
@[simp] theorem State.modPad_heads (i : Pad) (f : PadSt → PadSt) : (s.modPad i f).heads = s.heads := rfl
@[simp] theorem State.modPad_engines (i : Pad) (f : PadSt → PadSt) : (s.modPad i f).engines = s.engines := rfl
@[simp] theorem State.modPad_chans (i : Pad) (f : PadSt → PadSt) : (s.modPad i f).chans = s.chans := rfl
@[simp] theorem State.modPad_clsBytes (i : Pad) (f : PadSt → PadSt) : (s.modPad i f).clsBytes = s.clsBytes := rfl
@[simp] theorem State.modPad_icp (i : Pad) (f : PadSt → PadSt) : (s.modPad i f).icp = s.icp := rfl
@[simp] theorem State.modPad_icpQueue (i : Pad) (f : PadSt → PadSt) : (s.modPad i f).icpQueue = s.icpQueue := rfl
@[simp] theorem State.modPad_keys (i : Pad) (f : PadSt → PadSt) : (s.modPad i f).keys = s.keys := rfl
@[simp] theorem State.modPad_gcfg (i : Pad) (f : PadSt → PadSt) : (s.modPad i f).gcfg = s.gcfg := rfl
@[simp] theorem State.modPad_gmode (i : Pad) (f : PadSt → PadSt) : (s.modPad i f).gmode = s.gmode := rfl
@[simp] theorem State.modPad_glRound (i : Pad) (f : PadSt → PadSt) : (s.modPad i f).glRound = s.glRound := rfl
@[simp] theorem State.modPad_glRef (i : Pad) (f : PadSt → PadSt) : (s.modPad i f).glRef = s.glRef := rfl
@[simp] theorem State.modPad_upsets (i : Pad) (f : PadSt → PadSt) : (s.modPad i f).upsets = s.upsets := rfl
@[simp] theorem State.modPad_lark (i : Pad) (f : PadSt → PadSt) : (s.modPad i f).lark = s.lark := rfl
@[simp] theorem State.modPad_cores (i : Pad) (f : PadSt → PadSt) : (s.modPad i f).cores = s.cores := rfl
@[simp] theorem State.modPad_mboxes (i : Pad) (f : PadSt → PadSt) : (s.modPad i f).mboxes = s.mboxes := rfl
@[simp] theorem State.modPad_mbOrder (i : Pad) (f : PadSt → PadSt) : (s.modPad i f).mbOrder = s.mbOrder := rfl
@[simp] theorem State.modPad_cae (i : Pad) (f : PadSt → PadSt) : (s.modPad i f).cae = s.cae := rfl
@[simp] theorem State.modPad_repair (i : Pad) (f : PadSt → PadSt) : (s.modPad i f).repair = s.repair := rfl
@[simp] theorem State.modPad_banks (i : Pad) (f : PadSt → PadSt) : (s.modPad i f).banks = s.banks := rfl
@[simp] theorem State.modPad_timers (i : Pad) (f : PadSt → PadSt) : (s.modPad i f).timers = s.timers := rfl
@[simp] theorem State.modPad_links (i : Pad) (f : PadSt → PadSt) : (s.modPad i f).links = s.links := rfl
@[simp] theorem State.modPad_fold (i : Pad) (f : PadSt → PadSt) : (s.modPad i f).fold = s.fold := rfl
@[simp] theorem State.modPad_copies (i : Pad) (f : PadSt → PadSt) : (s.modPad i f).copies = s.copies := rfl
@[simp] theorem State.modPad_pcie (i : Pad) (f : PadSt → PadSt) : (s.modPad i f).pcie = s.pcie := rfl
@[simp] theorem State.modPad_pow (i : Pad) (f : PadSt → PadSt) : (s.modPad i f).pow = s.pow := rfl
@[simp] theorem State.modPad_stile (i : Pad) (f : PadSt → PadSt) : (s.modPad i f).stile = s.stile := rfl
@[simp] theorem State.modPad_rdata (i : Pad) (f : PadSt → PadSt) : (s.modPad i f).rdata = s.rdata := rfl
@[simp] theorem State.modPad_rfault (i : Pad) (f : PadSt → PadSt) : (s.modPad i f).rfault = s.rfault := rfl
@[simp] theorem State.modPad_cyc (i : Pad) (f : PadSt → PadSt) : (s.modPad i f).cyc = s.cyc := rfl
@[simp] theorem State.modPad_cycAt (i : Pad) (f : PadSt → PadSt) : (s.modPad i f).cycAt = s.cycAt := rfl
@[simp] theorem State.modPad_gl (i : Pad) (f : PadSt → PadSt) : (s.modPad i f).gl = s.gl := rfl
@[simp] theorem State.modPad_beamAt (i : Pad) (f : PadSt → PadSt) : (s.modPad i f).beamAt = s.beamAt := rfl
@[simp] theorem State.modPad_prb (i : Pad) (f : PadSt → PadSt) : (s.modPad i f).prb = s.prb := rfl
@[simp] theorem State.modPad_drate (i : Pad) (f : PadSt → PadSt) : (s.modPad i f).drate = s.drate := rfl
@[simp] theorem State.modPad_dcyc (i : Pad) (f : PadSt → PadSt) : (s.modPad i f).dcyc = s.dcyc := rfl
@[simp] theorem State.modPad_dreads (i : Pad) (f : PadSt → PadSt) : (s.modPad i f).dreads = s.dreads := rfl
@[simp] theorem State.modPad_rd (i : Pad) (f : PadSt → PadSt) (k : Nat) : (s.modPad i f).rd k = s.rd k := rfl
@[simp] theorem State.modPad_hwRd (i : Pad) (f : PadSt → PadSt) (k : Nat) : (s.modPad i f).hwRd k = s.hwRd k := rfl
@[simp] theorem State.modPad_stRd (i : Pad) (f : PadSt → PadSt) (k : Nat) : (s.modPad i f).stRd k = s.stRd k := rfl

/-! ### modChan -/
@[simp] theorem State.modChan_pending (i : Chan) (f : ChanSt → ChanSt) : (s.modChan i f).pending = s.pending := rfl
@[simp] theorem State.modChan_freeCtr (i : Chan) (f : ChanSt → ChanSt) : (s.modChan i f).freeCtr = s.freeCtr := rfl
@[simp] theorem State.modChan_sclk (i : Chan) (f : ChanSt → ChanSt) : (s.modChan i f).sclk = s.sclk := rfl
@[simp] theorem State.modChan_fuses (i : Chan) (f : ChanSt → ChanSt) : (s.modChan i f).fuses = s.fuses := rfl
@[simp] theorem State.modChan_start (i : Chan) (f : ChanSt → ChanSt) : (s.modChan i f).start = s.start := rfl
@[simp] theorem State.modChan_dev (i : Chan) (f : ChanSt → ChanSt) : (s.modChan i f).dev = s.dev := rfl
@[simp] theorem State.modChan_reason (i : Chan) (f : ChanSt → ChanSt) : (s.modChan i f).reason = s.reason := rfl
@[simp] theorem State.modChan_ws (i : Chan) (f : ChanSt → ChanSt) : (s.modChan i f).ws = s.ws := rfl
@[simp] theorem State.modChan_hw (i : Chan) (f : ChanSt → ChanSt) : (s.modChan i f).hw = s.hw := rfl
@[simp] theorem State.modChan_stileRegs (i : Chan) (f : ChanSt → ChanSt) : (s.modChan i f).stileRegs = s.stileRegs := rfl
@[simp] theorem State.modChan_dram (i : Chan) (f : ChanSt → ChanSt) : (s.modChan i f).dram = s.dram := rfl
@[simp] theorem State.modChan_larkMem (i : Chan) (f : ChanSt → ChanSt) : (s.modChan i f).larkMem = s.larkMem := rfl
@[simp] theorem State.modChan_flash (i : Chan) (f : ChanSt → ChanSt) : (s.modChan i f).flash = s.flash := rfl
@[simp] theorem State.modChan_ports (i : Chan) (f : ChanSt → ChanSt) : (s.modChan i f).ports = s.ports := rfl
@[simp] theorem State.modChan_shadows (i : Chan) (f : ChanSt → ChanSt) : (s.modChan i f).shadows = s.shadows := rfl
@[simp] theorem State.modChan_heads (i : Chan) (f : ChanSt → ChanSt) : (s.modChan i f).heads = s.heads := rfl
@[simp] theorem State.modChan_engines (i : Chan) (f : ChanSt → ChanSt) : (s.modChan i f).engines = s.engines := rfl
@[simp] theorem State.modChan_clsBytes (i : Chan) (f : ChanSt → ChanSt) : (s.modChan i f).clsBytes = s.clsBytes := rfl
@[simp] theorem State.modChan_pads (i : Chan) (f : ChanSt → ChanSt) : (s.modChan i f).pads = s.pads := rfl
@[simp] theorem State.modChan_icp (i : Chan) (f : ChanSt → ChanSt) : (s.modChan i f).icp = s.icp := rfl
@[simp] theorem State.modChan_icpQueue (i : Chan) (f : ChanSt → ChanSt) : (s.modChan i f).icpQueue = s.icpQueue := rfl
@[simp] theorem State.modChan_keys (i : Chan) (f : ChanSt → ChanSt) : (s.modChan i f).keys = s.keys := rfl
@[simp] theorem State.modChan_gcfg (i : Chan) (f : ChanSt → ChanSt) : (s.modChan i f).gcfg = s.gcfg := rfl
@[simp] theorem State.modChan_gmode (i : Chan) (f : ChanSt → ChanSt) : (s.modChan i f).gmode = s.gmode := rfl
@[simp] theorem State.modChan_glRound (i : Chan) (f : ChanSt → ChanSt) : (s.modChan i f).glRound = s.glRound := rfl
@[simp] theorem State.modChan_glRef (i : Chan) (f : ChanSt → ChanSt) : (s.modChan i f).glRef = s.glRef := rfl
@[simp] theorem State.modChan_upsets (i : Chan) (f : ChanSt → ChanSt) : (s.modChan i f).upsets = s.upsets := rfl
@[simp] theorem State.modChan_lark (i : Chan) (f : ChanSt → ChanSt) : (s.modChan i f).lark = s.lark := rfl
@[simp] theorem State.modChan_cores (i : Chan) (f : ChanSt → ChanSt) : (s.modChan i f).cores = s.cores := rfl
@[simp] theorem State.modChan_mboxes (i : Chan) (f : ChanSt → ChanSt) : (s.modChan i f).mboxes = s.mboxes := rfl
@[simp] theorem State.modChan_mbOrder (i : Chan) (f : ChanSt → ChanSt) : (s.modChan i f).mbOrder = s.mbOrder := rfl
@[simp] theorem State.modChan_cae (i : Chan) (f : ChanSt → ChanSt) : (s.modChan i f).cae = s.cae := rfl
@[simp] theorem State.modChan_repair (i : Chan) (f : ChanSt → ChanSt) : (s.modChan i f).repair = s.repair := rfl
@[simp] theorem State.modChan_banks (i : Chan) (f : ChanSt → ChanSt) : (s.modChan i f).banks = s.banks := rfl
@[simp] theorem State.modChan_timers (i : Chan) (f : ChanSt → ChanSt) : (s.modChan i f).timers = s.timers := rfl
@[simp] theorem State.modChan_links (i : Chan) (f : ChanSt → ChanSt) : (s.modChan i f).links = s.links := rfl
@[simp] theorem State.modChan_fold (i : Chan) (f : ChanSt → ChanSt) : (s.modChan i f).fold = s.fold := rfl
@[simp] theorem State.modChan_copies (i : Chan) (f : ChanSt → ChanSt) : (s.modChan i f).copies = s.copies := rfl
@[simp] theorem State.modChan_pcie (i : Chan) (f : ChanSt → ChanSt) : (s.modChan i f).pcie = s.pcie := rfl
@[simp] theorem State.modChan_pow (i : Chan) (f : ChanSt → ChanSt) : (s.modChan i f).pow = s.pow := rfl
@[simp] theorem State.modChan_stile (i : Chan) (f : ChanSt → ChanSt) : (s.modChan i f).stile = s.stile := rfl
@[simp] theorem State.modChan_rdata (i : Chan) (f : ChanSt → ChanSt) : (s.modChan i f).rdata = s.rdata := rfl
@[simp] theorem State.modChan_rfault (i : Chan) (f : ChanSt → ChanSt) : (s.modChan i f).rfault = s.rfault := rfl
@[simp] theorem State.modChan_cyc (i : Chan) (f : ChanSt → ChanSt) : (s.modChan i f).cyc = s.cyc := rfl
@[simp] theorem State.modChan_cycAt (i : Chan) (f : ChanSt → ChanSt) : (s.modChan i f).cycAt = s.cycAt := rfl
@[simp] theorem State.modChan_gl (i : Chan) (f : ChanSt → ChanSt) : (s.modChan i f).gl = s.gl := rfl
@[simp] theorem State.modChan_beamAt (i : Chan) (f : ChanSt → ChanSt) : (s.modChan i f).beamAt = s.beamAt := rfl
@[simp] theorem State.modChan_prb (i : Chan) (f : ChanSt → ChanSt) : (s.modChan i f).prb = s.prb := rfl
@[simp] theorem State.modChan_drate (i : Chan) (f : ChanSt → ChanSt) : (s.modChan i f).drate = s.drate := rfl
@[simp] theorem State.modChan_dcyc (i : Chan) (f : ChanSt → ChanSt) : (s.modChan i f).dcyc = s.dcyc := rfl
@[simp] theorem State.modChan_dreads (i : Chan) (f : ChanSt → ChanSt) : (s.modChan i f).dreads = s.dreads := rfl
@[simp] theorem State.modChan_rd (i : Chan) (f : ChanSt → ChanSt) (k : Nat) : (s.modChan i f).rd k = s.rd k := rfl
@[simp] theorem State.modChan_hwRd (i : Chan) (f : ChanSt → ChanSt) (k : Nat) : (s.modChan i f).hwRd k = s.hwRd k := rfl
@[simp] theorem State.modChan_stRd (i : Chan) (f : ChanSt → ChanSt) (k : Nat) : (s.modChan i f).stRd k = s.stRd k := rfl

/-! ### modVoice -/
@[simp] theorem State.modVoice_pending (i : Fin 256) (f : VoiceSt → VoiceSt) : (s.modVoice i f).pending = s.pending := rfl
@[simp] theorem State.modVoice_freeCtr (i : Fin 256) (f : VoiceSt → VoiceSt) : (s.modVoice i f).freeCtr = s.freeCtr := rfl
@[simp] theorem State.modVoice_sclk (i : Fin 256) (f : VoiceSt → VoiceSt) : (s.modVoice i f).sclk = s.sclk := rfl
@[simp] theorem State.modVoice_fuses (i : Fin 256) (f : VoiceSt → VoiceSt) : (s.modVoice i f).fuses = s.fuses := rfl
@[simp] theorem State.modVoice_start (i : Fin 256) (f : VoiceSt → VoiceSt) : (s.modVoice i f).start = s.start := rfl
@[simp] theorem State.modVoice_dev (i : Fin 256) (f : VoiceSt → VoiceSt) : (s.modVoice i f).dev = s.dev := rfl
@[simp] theorem State.modVoice_reason (i : Fin 256) (f : VoiceSt → VoiceSt) : (s.modVoice i f).reason = s.reason := rfl
@[simp] theorem State.modVoice_ws (i : Fin 256) (f : VoiceSt → VoiceSt) : (s.modVoice i f).ws = s.ws := rfl
@[simp] theorem State.modVoice_hw (i : Fin 256) (f : VoiceSt → VoiceSt) : (s.modVoice i f).hw = s.hw := rfl
@[simp] theorem State.modVoice_stileRegs (i : Fin 256) (f : VoiceSt → VoiceSt) : (s.modVoice i f).stileRegs = s.stileRegs := rfl
@[simp] theorem State.modVoice_dram (i : Fin 256) (f : VoiceSt → VoiceSt) : (s.modVoice i f).dram = s.dram := rfl
@[simp] theorem State.modVoice_larkMem (i : Fin 256) (f : VoiceSt → VoiceSt) : (s.modVoice i f).larkMem = s.larkMem := rfl
@[simp] theorem State.modVoice_flash (i : Fin 256) (f : VoiceSt → VoiceSt) : (s.modVoice i f).flash = s.flash := rfl
@[simp] theorem State.modVoice_ports (i : Fin 256) (f : VoiceSt → VoiceSt) : (s.modVoice i f).ports = s.ports := rfl
@[simp] theorem State.modVoice_shadows (i : Fin 256) (f : VoiceSt → VoiceSt) : (s.modVoice i f).shadows = s.shadows := rfl
@[simp] theorem State.modVoice_heads (i : Fin 256) (f : VoiceSt → VoiceSt) : (s.modVoice i f).heads = s.heads := rfl
@[simp] theorem State.modVoice_engines (i : Fin 256) (f : VoiceSt → VoiceSt) : (s.modVoice i f).engines = s.engines := rfl
@[simp] theorem State.modVoice_chans (i : Fin 256) (f : VoiceSt → VoiceSt) : (s.modVoice i f).chans = s.chans := rfl
@[simp] theorem State.modVoice_clsBytes (i : Fin 256) (f : VoiceSt → VoiceSt) : (s.modVoice i f).clsBytes = s.clsBytes := rfl
@[simp] theorem State.modVoice_pads (i : Fin 256) (f : VoiceSt → VoiceSt) : (s.modVoice i f).pads = s.pads := rfl
@[simp] theorem State.modVoice_icp (i : Fin 256) (f : VoiceSt → VoiceSt) : (s.modVoice i f).icp = s.icp := rfl
@[simp] theorem State.modVoice_icpQueue (i : Fin 256) (f : VoiceSt → VoiceSt) : (s.modVoice i f).icpQueue = s.icpQueue := rfl
@[simp] theorem State.modVoice_keys (i : Fin 256) (f : VoiceSt → VoiceSt) : (s.modVoice i f).keys = s.keys := rfl
@[simp] theorem State.modVoice_gcfg (i : Fin 256) (f : VoiceSt → VoiceSt) : (s.modVoice i f).gcfg = s.gcfg := rfl
@[simp] theorem State.modVoice_gmode (i : Fin 256) (f : VoiceSt → VoiceSt) : (s.modVoice i f).gmode = s.gmode := rfl
@[simp] theorem State.modVoice_glRound (i : Fin 256) (f : VoiceSt → VoiceSt) : (s.modVoice i f).glRound = s.glRound := rfl
@[simp] theorem State.modVoice_glRef (i : Fin 256) (f : VoiceSt → VoiceSt) : (s.modVoice i f).glRef = s.glRef := rfl
@[simp] theorem State.modVoice_upsets (i : Fin 256) (f : VoiceSt → VoiceSt) : (s.modVoice i f).upsets = s.upsets := rfl
@[simp] theorem State.modVoice_cores (i : Fin 256) (f : VoiceSt → VoiceSt) : (s.modVoice i f).cores = s.cores := rfl
@[simp] theorem State.modVoice_mboxes (i : Fin 256) (f : VoiceSt → VoiceSt) : (s.modVoice i f).mboxes = s.mboxes := rfl
@[simp] theorem State.modVoice_mbOrder (i : Fin 256) (f : VoiceSt → VoiceSt) : (s.modVoice i f).mbOrder = s.mbOrder := rfl
@[simp] theorem State.modVoice_cae (i : Fin 256) (f : VoiceSt → VoiceSt) : (s.modVoice i f).cae = s.cae := rfl
@[simp] theorem State.modVoice_repair (i : Fin 256) (f : VoiceSt → VoiceSt) : (s.modVoice i f).repair = s.repair := rfl
@[simp] theorem State.modVoice_banks (i : Fin 256) (f : VoiceSt → VoiceSt) : (s.modVoice i f).banks = s.banks := rfl
@[simp] theorem State.modVoice_timers (i : Fin 256) (f : VoiceSt → VoiceSt) : (s.modVoice i f).timers = s.timers := rfl
@[simp] theorem State.modVoice_links (i : Fin 256) (f : VoiceSt → VoiceSt) : (s.modVoice i f).links = s.links := rfl
@[simp] theorem State.modVoice_fold (i : Fin 256) (f : VoiceSt → VoiceSt) : (s.modVoice i f).fold = s.fold := rfl
@[simp] theorem State.modVoice_copies (i : Fin 256) (f : VoiceSt → VoiceSt) : (s.modVoice i f).copies = s.copies := rfl
@[simp] theorem State.modVoice_pcie (i : Fin 256) (f : VoiceSt → VoiceSt) : (s.modVoice i f).pcie = s.pcie := rfl
@[simp] theorem State.modVoice_pow (i : Fin 256) (f : VoiceSt → VoiceSt) : (s.modVoice i f).pow = s.pow := rfl
@[simp] theorem State.modVoice_stile (i : Fin 256) (f : VoiceSt → VoiceSt) : (s.modVoice i f).stile = s.stile := rfl
@[simp] theorem State.modVoice_rdata (i : Fin 256) (f : VoiceSt → VoiceSt) : (s.modVoice i f).rdata = s.rdata := rfl
@[simp] theorem State.modVoice_rfault (i : Fin 256) (f : VoiceSt → VoiceSt) : (s.modVoice i f).rfault = s.rfault := rfl
@[simp] theorem State.modVoice_cyc (i : Fin 256) (f : VoiceSt → VoiceSt) : (s.modVoice i f).cyc = s.cyc := rfl
@[simp] theorem State.modVoice_cycAt (i : Fin 256) (f : VoiceSt → VoiceSt) : (s.modVoice i f).cycAt = s.cycAt := rfl
@[simp] theorem State.modVoice_gl (i : Fin 256) (f : VoiceSt → VoiceSt) : (s.modVoice i f).gl = s.gl := rfl
@[simp] theorem State.modVoice_beamAt (i : Fin 256) (f : VoiceSt → VoiceSt) : (s.modVoice i f).beamAt = s.beamAt := rfl
@[simp] theorem State.modVoice_prb (i : Fin 256) (f : VoiceSt → VoiceSt) : (s.modVoice i f).prb = s.prb := rfl
@[simp] theorem State.modVoice_drate (i : Fin 256) (f : VoiceSt → VoiceSt) : (s.modVoice i f).drate = s.drate := rfl
@[simp] theorem State.modVoice_dcyc (i : Fin 256) (f : VoiceSt → VoiceSt) : (s.modVoice i f).dcyc = s.dcyc := rfl
@[simp] theorem State.modVoice_dreads (i : Fin 256) (f : VoiceSt → VoiceSt) : (s.modVoice i f).dreads = s.dreads := rfl
@[simp] theorem State.modVoice_rd (i : Fin 256) (f : VoiceSt → VoiceSt) (k : Nat) : (s.modVoice i f).rd k = s.rd k := rfl
@[simp] theorem State.modVoice_hwRd (i : Fin 256) (f : VoiceSt → VoiceSt) (k : Nat) : (s.modVoice i f).hwRd k = s.hwRd k := rfl
@[simp] theorem State.modVoice_stRd (i : Fin 256) (f : VoiceSt → VoiceSt) (k : Nat) : (s.modVoice i f).stRd k = s.stRd k := rfl

/-! ### modLink -/
@[simp] theorem State.modLink_pending (i : Link) (f : LinkSt → LinkSt) : (s.modLink i f).pending = s.pending := rfl
@[simp] theorem State.modLink_freeCtr (i : Link) (f : LinkSt → LinkSt) : (s.modLink i f).freeCtr = s.freeCtr := rfl
@[simp] theorem State.modLink_sclk (i : Link) (f : LinkSt → LinkSt) : (s.modLink i f).sclk = s.sclk := rfl
@[simp] theorem State.modLink_fuses (i : Link) (f : LinkSt → LinkSt) : (s.modLink i f).fuses = s.fuses := rfl
@[simp] theorem State.modLink_start (i : Link) (f : LinkSt → LinkSt) : (s.modLink i f).start = s.start := rfl
@[simp] theorem State.modLink_dev (i : Link) (f : LinkSt → LinkSt) : (s.modLink i f).dev = s.dev := rfl
@[simp] theorem State.modLink_reason (i : Link) (f : LinkSt → LinkSt) : (s.modLink i f).reason = s.reason := rfl
@[simp] theorem State.modLink_ws (i : Link) (f : LinkSt → LinkSt) : (s.modLink i f).ws = s.ws := rfl
@[simp] theorem State.modLink_hw (i : Link) (f : LinkSt → LinkSt) : (s.modLink i f).hw = s.hw := rfl
@[simp] theorem State.modLink_stileRegs (i : Link) (f : LinkSt → LinkSt) : (s.modLink i f).stileRegs = s.stileRegs := rfl
@[simp] theorem State.modLink_dram (i : Link) (f : LinkSt → LinkSt) : (s.modLink i f).dram = s.dram := rfl
@[simp] theorem State.modLink_larkMem (i : Link) (f : LinkSt → LinkSt) : (s.modLink i f).larkMem = s.larkMem := rfl
@[simp] theorem State.modLink_flash (i : Link) (f : LinkSt → LinkSt) : (s.modLink i f).flash = s.flash := rfl
@[simp] theorem State.modLink_ports (i : Link) (f : LinkSt → LinkSt) : (s.modLink i f).ports = s.ports := rfl
@[simp] theorem State.modLink_shadows (i : Link) (f : LinkSt → LinkSt) : (s.modLink i f).shadows = s.shadows := rfl
@[simp] theorem State.modLink_heads (i : Link) (f : LinkSt → LinkSt) : (s.modLink i f).heads = s.heads := rfl
@[simp] theorem State.modLink_engines (i : Link) (f : LinkSt → LinkSt) : (s.modLink i f).engines = s.engines := rfl
@[simp] theorem State.modLink_chans (i : Link) (f : LinkSt → LinkSt) : (s.modLink i f).chans = s.chans := rfl
@[simp] theorem State.modLink_clsBytes (i : Link) (f : LinkSt → LinkSt) : (s.modLink i f).clsBytes = s.clsBytes := rfl
@[simp] theorem State.modLink_pads (i : Link) (f : LinkSt → LinkSt) : (s.modLink i f).pads = s.pads := rfl
@[simp] theorem State.modLink_icp (i : Link) (f : LinkSt → LinkSt) : (s.modLink i f).icp = s.icp := rfl
@[simp] theorem State.modLink_icpQueue (i : Link) (f : LinkSt → LinkSt) : (s.modLink i f).icpQueue = s.icpQueue := rfl
@[simp] theorem State.modLink_keys (i : Link) (f : LinkSt → LinkSt) : (s.modLink i f).keys = s.keys := rfl
@[simp] theorem State.modLink_gcfg (i : Link) (f : LinkSt → LinkSt) : (s.modLink i f).gcfg = s.gcfg := rfl
@[simp] theorem State.modLink_gmode (i : Link) (f : LinkSt → LinkSt) : (s.modLink i f).gmode = s.gmode := rfl
@[simp] theorem State.modLink_glRound (i : Link) (f : LinkSt → LinkSt) : (s.modLink i f).glRound = s.glRound := rfl
@[simp] theorem State.modLink_glRef (i : Link) (f : LinkSt → LinkSt) : (s.modLink i f).glRef = s.glRef := rfl
@[simp] theorem State.modLink_upsets (i : Link) (f : LinkSt → LinkSt) : (s.modLink i f).upsets = s.upsets := rfl
@[simp] theorem State.modLink_lark (i : Link) (f : LinkSt → LinkSt) : (s.modLink i f).lark = s.lark := rfl
@[simp] theorem State.modLink_cores (i : Link) (f : LinkSt → LinkSt) : (s.modLink i f).cores = s.cores := rfl
@[simp] theorem State.modLink_mboxes (i : Link) (f : LinkSt → LinkSt) : (s.modLink i f).mboxes = s.mboxes := rfl
@[simp] theorem State.modLink_mbOrder (i : Link) (f : LinkSt → LinkSt) : (s.modLink i f).mbOrder = s.mbOrder := rfl
@[simp] theorem State.modLink_cae (i : Link) (f : LinkSt → LinkSt) : (s.modLink i f).cae = s.cae := rfl
@[simp] theorem State.modLink_repair (i : Link) (f : LinkSt → LinkSt) : (s.modLink i f).repair = s.repair := rfl
@[simp] theorem State.modLink_banks (i : Link) (f : LinkSt → LinkSt) : (s.modLink i f).banks = s.banks := rfl
@[simp] theorem State.modLink_timers (i : Link) (f : LinkSt → LinkSt) : (s.modLink i f).timers = s.timers := rfl
@[simp] theorem State.modLink_fold (i : Link) (f : LinkSt → LinkSt) : (s.modLink i f).fold = s.fold := rfl
@[simp] theorem State.modLink_copies (i : Link) (f : LinkSt → LinkSt) : (s.modLink i f).copies = s.copies := rfl
@[simp] theorem State.modLink_pcie (i : Link) (f : LinkSt → LinkSt) : (s.modLink i f).pcie = s.pcie := rfl
@[simp] theorem State.modLink_pow (i : Link) (f : LinkSt → LinkSt) : (s.modLink i f).pow = s.pow := rfl
@[simp] theorem State.modLink_stile (i : Link) (f : LinkSt → LinkSt) : (s.modLink i f).stile = s.stile := rfl
@[simp] theorem State.modLink_rdata (i : Link) (f : LinkSt → LinkSt) : (s.modLink i f).rdata = s.rdata := rfl
@[simp] theorem State.modLink_rfault (i : Link) (f : LinkSt → LinkSt) : (s.modLink i f).rfault = s.rfault := rfl
@[simp] theorem State.modLink_cyc (i : Link) (f : LinkSt → LinkSt) : (s.modLink i f).cyc = s.cyc := rfl
@[simp] theorem State.modLink_cycAt (i : Link) (f : LinkSt → LinkSt) : (s.modLink i f).cycAt = s.cycAt := rfl
@[simp] theorem State.modLink_gl (i : Link) (f : LinkSt → LinkSt) : (s.modLink i f).gl = s.gl := rfl
@[simp] theorem State.modLink_beamAt (i : Link) (f : LinkSt → LinkSt) : (s.modLink i f).beamAt = s.beamAt := rfl
@[simp] theorem State.modLink_prb (i : Link) (f : LinkSt → LinkSt) : (s.modLink i f).prb = s.prb := rfl
@[simp] theorem State.modLink_drate (i : Link) (f : LinkSt → LinkSt) : (s.modLink i f).drate = s.drate := rfl
@[simp] theorem State.modLink_dcyc (i : Link) (f : LinkSt → LinkSt) : (s.modLink i f).dcyc = s.dcyc := rfl
@[simp] theorem State.modLink_dreads (i : Link) (f : LinkSt → LinkSt) : (s.modLink i f).dreads = s.dreads := rfl
@[simp] theorem State.modLink_rd (i : Link) (f : LinkSt → LinkSt) (k : Nat) : (s.modLink i f).rd k = s.rd k := rfl
@[simp] theorem State.modLink_hwRd (i : Link) (f : LinkSt → LinkSt) (k : Nat) : (s.modLink i f).hwRd k = s.hwRd k := rfl
@[simp] theorem State.modLink_stRd (i : Link) (f : LinkSt → LinkSt) (k : Nat) : (s.modLink i f).stRd k = s.stRd k := rfl

/-! ### modCopy -/
@[simp] theorem State.modCopy_pending (i : Fin 8) (f : CopySt → CopySt) : (s.modCopy i f).pending = s.pending := rfl
@[simp] theorem State.modCopy_freeCtr (i : Fin 8) (f : CopySt → CopySt) : (s.modCopy i f).freeCtr = s.freeCtr := rfl
@[simp] theorem State.modCopy_sclk (i : Fin 8) (f : CopySt → CopySt) : (s.modCopy i f).sclk = s.sclk := rfl
@[simp] theorem State.modCopy_fuses (i : Fin 8) (f : CopySt → CopySt) : (s.modCopy i f).fuses = s.fuses := rfl
@[simp] theorem State.modCopy_start (i : Fin 8) (f : CopySt → CopySt) : (s.modCopy i f).start = s.start := rfl
@[simp] theorem State.modCopy_dev (i : Fin 8) (f : CopySt → CopySt) : (s.modCopy i f).dev = s.dev := rfl
@[simp] theorem State.modCopy_reason (i : Fin 8) (f : CopySt → CopySt) : (s.modCopy i f).reason = s.reason := rfl
@[simp] theorem State.modCopy_ws (i : Fin 8) (f : CopySt → CopySt) : (s.modCopy i f).ws = s.ws := rfl
@[simp] theorem State.modCopy_hw (i : Fin 8) (f : CopySt → CopySt) : (s.modCopy i f).hw = s.hw := rfl
@[simp] theorem State.modCopy_stileRegs (i : Fin 8) (f : CopySt → CopySt) : (s.modCopy i f).stileRegs = s.stileRegs := rfl
@[simp] theorem State.modCopy_dram (i : Fin 8) (f : CopySt → CopySt) : (s.modCopy i f).dram = s.dram := rfl
@[simp] theorem State.modCopy_larkMem (i : Fin 8) (f : CopySt → CopySt) : (s.modCopy i f).larkMem = s.larkMem := rfl
@[simp] theorem State.modCopy_flash (i : Fin 8) (f : CopySt → CopySt) : (s.modCopy i f).flash = s.flash := rfl
@[simp] theorem State.modCopy_ports (i : Fin 8) (f : CopySt → CopySt) : (s.modCopy i f).ports = s.ports := rfl
@[simp] theorem State.modCopy_shadows (i : Fin 8) (f : CopySt → CopySt) : (s.modCopy i f).shadows = s.shadows := rfl
@[simp] theorem State.modCopy_heads (i : Fin 8) (f : CopySt → CopySt) : (s.modCopy i f).heads = s.heads := rfl
@[simp] theorem State.modCopy_engines (i : Fin 8) (f : CopySt → CopySt) : (s.modCopy i f).engines = s.engines := rfl
@[simp] theorem State.modCopy_chans (i : Fin 8) (f : CopySt → CopySt) : (s.modCopy i f).chans = s.chans := rfl
@[simp] theorem State.modCopy_clsBytes (i : Fin 8) (f : CopySt → CopySt) : (s.modCopy i f).clsBytes = s.clsBytes := rfl
@[simp] theorem State.modCopy_pads (i : Fin 8) (f : CopySt → CopySt) : (s.modCopy i f).pads = s.pads := rfl
@[simp] theorem State.modCopy_icp (i : Fin 8) (f : CopySt → CopySt) : (s.modCopy i f).icp = s.icp := rfl
@[simp] theorem State.modCopy_icpQueue (i : Fin 8) (f : CopySt → CopySt) : (s.modCopy i f).icpQueue = s.icpQueue := rfl
@[simp] theorem State.modCopy_keys (i : Fin 8) (f : CopySt → CopySt) : (s.modCopy i f).keys = s.keys := rfl
@[simp] theorem State.modCopy_gcfg (i : Fin 8) (f : CopySt → CopySt) : (s.modCopy i f).gcfg = s.gcfg := rfl
@[simp] theorem State.modCopy_gmode (i : Fin 8) (f : CopySt → CopySt) : (s.modCopy i f).gmode = s.gmode := rfl
@[simp] theorem State.modCopy_glRound (i : Fin 8) (f : CopySt → CopySt) : (s.modCopy i f).glRound = s.glRound := rfl
@[simp] theorem State.modCopy_glRef (i : Fin 8) (f : CopySt → CopySt) : (s.modCopy i f).glRef = s.glRef := rfl
@[simp] theorem State.modCopy_upsets (i : Fin 8) (f : CopySt → CopySt) : (s.modCopy i f).upsets = s.upsets := rfl
@[simp] theorem State.modCopy_lark (i : Fin 8) (f : CopySt → CopySt) : (s.modCopy i f).lark = s.lark := rfl
@[simp] theorem State.modCopy_cores (i : Fin 8) (f : CopySt → CopySt) : (s.modCopy i f).cores = s.cores := rfl
@[simp] theorem State.modCopy_mboxes (i : Fin 8) (f : CopySt → CopySt) : (s.modCopy i f).mboxes = s.mboxes := rfl
@[simp] theorem State.modCopy_mbOrder (i : Fin 8) (f : CopySt → CopySt) : (s.modCopy i f).mbOrder = s.mbOrder := rfl
@[simp] theorem State.modCopy_cae (i : Fin 8) (f : CopySt → CopySt) : (s.modCopy i f).cae = s.cae := rfl
@[simp] theorem State.modCopy_repair (i : Fin 8) (f : CopySt → CopySt) : (s.modCopy i f).repair = s.repair := rfl
@[simp] theorem State.modCopy_banks (i : Fin 8) (f : CopySt → CopySt) : (s.modCopy i f).banks = s.banks := rfl
@[simp] theorem State.modCopy_timers (i : Fin 8) (f : CopySt → CopySt) : (s.modCopy i f).timers = s.timers := rfl
@[simp] theorem State.modCopy_links (i : Fin 8) (f : CopySt → CopySt) : (s.modCopy i f).links = s.links := rfl
@[simp] theorem State.modCopy_fold (i : Fin 8) (f : CopySt → CopySt) : (s.modCopy i f).fold = s.fold := rfl
@[simp] theorem State.modCopy_pcie (i : Fin 8) (f : CopySt → CopySt) : (s.modCopy i f).pcie = s.pcie := rfl
@[simp] theorem State.modCopy_pow (i : Fin 8) (f : CopySt → CopySt) : (s.modCopy i f).pow = s.pow := rfl
@[simp] theorem State.modCopy_stile (i : Fin 8) (f : CopySt → CopySt) : (s.modCopy i f).stile = s.stile := rfl
@[simp] theorem State.modCopy_rdata (i : Fin 8) (f : CopySt → CopySt) : (s.modCopy i f).rdata = s.rdata := rfl
@[simp] theorem State.modCopy_rfault (i : Fin 8) (f : CopySt → CopySt) : (s.modCopy i f).rfault = s.rfault := rfl
@[simp] theorem State.modCopy_cyc (i : Fin 8) (f : CopySt → CopySt) : (s.modCopy i f).cyc = s.cyc := rfl
@[simp] theorem State.modCopy_cycAt (i : Fin 8) (f : CopySt → CopySt) : (s.modCopy i f).cycAt = s.cycAt := rfl
@[simp] theorem State.modCopy_gl (i : Fin 8) (f : CopySt → CopySt) : (s.modCopy i f).gl = s.gl := rfl
@[simp] theorem State.modCopy_beamAt (i : Fin 8) (f : CopySt → CopySt) : (s.modCopy i f).beamAt = s.beamAt := rfl
@[simp] theorem State.modCopy_prb (i : Fin 8) (f : CopySt → CopySt) : (s.modCopy i f).prb = s.prb := rfl
@[simp] theorem State.modCopy_drate (i : Fin 8) (f : CopySt → CopySt) : (s.modCopy i f).drate = s.drate := rfl
@[simp] theorem State.modCopy_dcyc (i : Fin 8) (f : CopySt → CopySt) : (s.modCopy i f).dcyc = s.dcyc := rfl
@[simp] theorem State.modCopy_dreads (i : Fin 8) (f : CopySt → CopySt) : (s.modCopy i f).dreads = s.dreads := rfl
@[simp] theorem State.modCopy_rd (i : Fin 8) (f : CopySt → CopySt) (k : Nat) : (s.modCopy i f).rd k = s.rd k := rfl
@[simp] theorem State.modCopy_hwRd (i : Fin 8) (f : CopySt → CopySt) (k : Nat) : (s.modCopy i f).hwRd k = s.hwRd k := rfl
@[simp] theorem State.modCopy_stRd (i : Fin 8) (f : CopySt → CopySt) (k : Nat) : (s.modCopy i f).stRd k = s.stRd k := rfl

/-! ### modMbox -/
@[simp] theorem State.modMbox_pending (i : Mbox) (f : MboxSt → MboxSt) : (s.modMbox i f).pending = s.pending := rfl
@[simp] theorem State.modMbox_freeCtr (i : Mbox) (f : MboxSt → MboxSt) : (s.modMbox i f).freeCtr = s.freeCtr := rfl
@[simp] theorem State.modMbox_sclk (i : Mbox) (f : MboxSt → MboxSt) : (s.modMbox i f).sclk = s.sclk := rfl
@[simp] theorem State.modMbox_fuses (i : Mbox) (f : MboxSt → MboxSt) : (s.modMbox i f).fuses = s.fuses := rfl
@[simp] theorem State.modMbox_start (i : Mbox) (f : MboxSt → MboxSt) : (s.modMbox i f).start = s.start := rfl
@[simp] theorem State.modMbox_dev (i : Mbox) (f : MboxSt → MboxSt) : (s.modMbox i f).dev = s.dev := rfl
@[simp] theorem State.modMbox_reason (i : Mbox) (f : MboxSt → MboxSt) : (s.modMbox i f).reason = s.reason := rfl
@[simp] theorem State.modMbox_ws (i : Mbox) (f : MboxSt → MboxSt) : (s.modMbox i f).ws = s.ws := rfl
@[simp] theorem State.modMbox_hw (i : Mbox) (f : MboxSt → MboxSt) : (s.modMbox i f).hw = s.hw := rfl
@[simp] theorem State.modMbox_stileRegs (i : Mbox) (f : MboxSt → MboxSt) : (s.modMbox i f).stileRegs = s.stileRegs := rfl
@[simp] theorem State.modMbox_dram (i : Mbox) (f : MboxSt → MboxSt) : (s.modMbox i f).dram = s.dram := rfl
@[simp] theorem State.modMbox_larkMem (i : Mbox) (f : MboxSt → MboxSt) : (s.modMbox i f).larkMem = s.larkMem := rfl
@[simp] theorem State.modMbox_flash (i : Mbox) (f : MboxSt → MboxSt) : (s.modMbox i f).flash = s.flash := rfl
@[simp] theorem State.modMbox_ports (i : Mbox) (f : MboxSt → MboxSt) : (s.modMbox i f).ports = s.ports := rfl
@[simp] theorem State.modMbox_shadows (i : Mbox) (f : MboxSt → MboxSt) : (s.modMbox i f).shadows = s.shadows := rfl
@[simp] theorem State.modMbox_heads (i : Mbox) (f : MboxSt → MboxSt) : (s.modMbox i f).heads = s.heads := rfl
@[simp] theorem State.modMbox_engines (i : Mbox) (f : MboxSt → MboxSt) : (s.modMbox i f).engines = s.engines := rfl
@[simp] theorem State.modMbox_chans (i : Mbox) (f : MboxSt → MboxSt) : (s.modMbox i f).chans = s.chans := rfl
@[simp] theorem State.modMbox_clsBytes (i : Mbox) (f : MboxSt → MboxSt) : (s.modMbox i f).clsBytes = s.clsBytes := rfl
@[simp] theorem State.modMbox_pads (i : Mbox) (f : MboxSt → MboxSt) : (s.modMbox i f).pads = s.pads := rfl
@[simp] theorem State.modMbox_icp (i : Mbox) (f : MboxSt → MboxSt) : (s.modMbox i f).icp = s.icp := rfl
@[simp] theorem State.modMbox_icpQueue (i : Mbox) (f : MboxSt → MboxSt) : (s.modMbox i f).icpQueue = s.icpQueue := rfl
@[simp] theorem State.modMbox_keys (i : Mbox) (f : MboxSt → MboxSt) : (s.modMbox i f).keys = s.keys := rfl
@[simp] theorem State.modMbox_gcfg (i : Mbox) (f : MboxSt → MboxSt) : (s.modMbox i f).gcfg = s.gcfg := rfl
@[simp] theorem State.modMbox_gmode (i : Mbox) (f : MboxSt → MboxSt) : (s.modMbox i f).gmode = s.gmode := rfl
@[simp] theorem State.modMbox_glRound (i : Mbox) (f : MboxSt → MboxSt) : (s.modMbox i f).glRound = s.glRound := rfl
@[simp] theorem State.modMbox_glRef (i : Mbox) (f : MboxSt → MboxSt) : (s.modMbox i f).glRef = s.glRef := rfl
@[simp] theorem State.modMbox_upsets (i : Mbox) (f : MboxSt → MboxSt) : (s.modMbox i f).upsets = s.upsets := rfl
@[simp] theorem State.modMbox_lark (i : Mbox) (f : MboxSt → MboxSt) : (s.modMbox i f).lark = s.lark := rfl
@[simp] theorem State.modMbox_cores (i : Mbox) (f : MboxSt → MboxSt) : (s.modMbox i f).cores = s.cores := rfl
@[simp] theorem State.modMbox_mbOrder (i : Mbox) (f : MboxSt → MboxSt) : (s.modMbox i f).mbOrder = s.mbOrder := rfl
@[simp] theorem State.modMbox_cae (i : Mbox) (f : MboxSt → MboxSt) : (s.modMbox i f).cae = s.cae := rfl
@[simp] theorem State.modMbox_repair (i : Mbox) (f : MboxSt → MboxSt) : (s.modMbox i f).repair = s.repair := rfl
@[simp] theorem State.modMbox_banks (i : Mbox) (f : MboxSt → MboxSt) : (s.modMbox i f).banks = s.banks := rfl
@[simp] theorem State.modMbox_timers (i : Mbox) (f : MboxSt → MboxSt) : (s.modMbox i f).timers = s.timers := rfl
@[simp] theorem State.modMbox_links (i : Mbox) (f : MboxSt → MboxSt) : (s.modMbox i f).links = s.links := rfl
@[simp] theorem State.modMbox_fold (i : Mbox) (f : MboxSt → MboxSt) : (s.modMbox i f).fold = s.fold := rfl
@[simp] theorem State.modMbox_copies (i : Mbox) (f : MboxSt → MboxSt) : (s.modMbox i f).copies = s.copies := rfl
@[simp] theorem State.modMbox_pcie (i : Mbox) (f : MboxSt → MboxSt) : (s.modMbox i f).pcie = s.pcie := rfl
@[simp] theorem State.modMbox_pow (i : Mbox) (f : MboxSt → MboxSt) : (s.modMbox i f).pow = s.pow := rfl
@[simp] theorem State.modMbox_stile (i : Mbox) (f : MboxSt → MboxSt) : (s.modMbox i f).stile = s.stile := rfl
@[simp] theorem State.modMbox_rdata (i : Mbox) (f : MboxSt → MboxSt) : (s.modMbox i f).rdata = s.rdata := rfl
@[simp] theorem State.modMbox_rfault (i : Mbox) (f : MboxSt → MboxSt) : (s.modMbox i f).rfault = s.rfault := rfl
@[simp] theorem State.modMbox_cyc (i : Mbox) (f : MboxSt → MboxSt) : (s.modMbox i f).cyc = s.cyc := rfl
@[simp] theorem State.modMbox_cycAt (i : Mbox) (f : MboxSt → MboxSt) : (s.modMbox i f).cycAt = s.cycAt := rfl
@[simp] theorem State.modMbox_gl (i : Mbox) (f : MboxSt → MboxSt) : (s.modMbox i f).gl = s.gl := rfl
@[simp] theorem State.modMbox_beamAt (i : Mbox) (f : MboxSt → MboxSt) : (s.modMbox i f).beamAt = s.beamAt := rfl
@[simp] theorem State.modMbox_prb (i : Mbox) (f : MboxSt → MboxSt) : (s.modMbox i f).prb = s.prb := rfl
@[simp] theorem State.modMbox_drate (i : Mbox) (f : MboxSt → MboxSt) : (s.modMbox i f).drate = s.drate := rfl
@[simp] theorem State.modMbox_dcyc (i : Mbox) (f : MboxSt → MboxSt) : (s.modMbox i f).dcyc = s.dcyc := rfl
@[simp] theorem State.modMbox_dreads (i : Mbox) (f : MboxSt → MboxSt) : (s.modMbox i f).dreads = s.dreads := rfl
@[simp] theorem State.modMbox_rd (i : Mbox) (f : MboxSt → MboxSt) (k : Nat) : (s.modMbox i f).rd k = s.rd k := rfl
@[simp] theorem State.modMbox_hwRd (i : Mbox) (f : MboxSt → MboxSt) (k : Nat) : (s.modMbox i f).hwRd k = s.hwRd k := rfl
@[simp] theorem State.modMbox_stRd (i : Mbox) (f : MboxSt → MboxSt) (k : Nat) : (s.modMbox i f).stRd k = s.stRd k := rfl

/-! ### modBank -/
@[simp] theorem State.modBank_pending (i : Bank) (f : BankSt → BankSt) : (s.modBank i f).pending = s.pending := rfl
@[simp] theorem State.modBank_freeCtr (i : Bank) (f : BankSt → BankSt) : (s.modBank i f).freeCtr = s.freeCtr := rfl
@[simp] theorem State.modBank_sclk (i : Bank) (f : BankSt → BankSt) : (s.modBank i f).sclk = s.sclk := rfl
@[simp] theorem State.modBank_fuses (i : Bank) (f : BankSt → BankSt) : (s.modBank i f).fuses = s.fuses := rfl
@[simp] theorem State.modBank_start (i : Bank) (f : BankSt → BankSt) : (s.modBank i f).start = s.start := rfl
@[simp] theorem State.modBank_dev (i : Bank) (f : BankSt → BankSt) : (s.modBank i f).dev = s.dev := rfl
@[simp] theorem State.modBank_reason (i : Bank) (f : BankSt → BankSt) : (s.modBank i f).reason = s.reason := rfl
@[simp] theorem State.modBank_ws (i : Bank) (f : BankSt → BankSt) : (s.modBank i f).ws = s.ws := rfl
@[simp] theorem State.modBank_hw (i : Bank) (f : BankSt → BankSt) : (s.modBank i f).hw = s.hw := rfl
@[simp] theorem State.modBank_stileRegs (i : Bank) (f : BankSt → BankSt) : (s.modBank i f).stileRegs = s.stileRegs := rfl
@[simp] theorem State.modBank_dram (i : Bank) (f : BankSt → BankSt) : (s.modBank i f).dram = s.dram := rfl
@[simp] theorem State.modBank_larkMem (i : Bank) (f : BankSt → BankSt) : (s.modBank i f).larkMem = s.larkMem := rfl
@[simp] theorem State.modBank_flash (i : Bank) (f : BankSt → BankSt) : (s.modBank i f).flash = s.flash := rfl
@[simp] theorem State.modBank_ports (i : Bank) (f : BankSt → BankSt) : (s.modBank i f).ports = s.ports := rfl
@[simp] theorem State.modBank_shadows (i : Bank) (f : BankSt → BankSt) : (s.modBank i f).shadows = s.shadows := rfl
@[simp] theorem State.modBank_heads (i : Bank) (f : BankSt → BankSt) : (s.modBank i f).heads = s.heads := rfl
@[simp] theorem State.modBank_engines (i : Bank) (f : BankSt → BankSt) : (s.modBank i f).engines = s.engines := rfl
@[simp] theorem State.modBank_chans (i : Bank) (f : BankSt → BankSt) : (s.modBank i f).chans = s.chans := rfl
@[simp] theorem State.modBank_clsBytes (i : Bank) (f : BankSt → BankSt) : (s.modBank i f).clsBytes = s.clsBytes := rfl
@[simp] theorem State.modBank_pads (i : Bank) (f : BankSt → BankSt) : (s.modBank i f).pads = s.pads := rfl
@[simp] theorem State.modBank_icp (i : Bank) (f : BankSt → BankSt) : (s.modBank i f).icp = s.icp := rfl
@[simp] theorem State.modBank_icpQueue (i : Bank) (f : BankSt → BankSt) : (s.modBank i f).icpQueue = s.icpQueue := rfl
@[simp] theorem State.modBank_keys (i : Bank) (f : BankSt → BankSt) : (s.modBank i f).keys = s.keys := rfl
@[simp] theorem State.modBank_gcfg (i : Bank) (f : BankSt → BankSt) : (s.modBank i f).gcfg = s.gcfg := rfl
@[simp] theorem State.modBank_gmode (i : Bank) (f : BankSt → BankSt) : (s.modBank i f).gmode = s.gmode := rfl
@[simp] theorem State.modBank_glRound (i : Bank) (f : BankSt → BankSt) : (s.modBank i f).glRound = s.glRound := rfl
@[simp] theorem State.modBank_glRef (i : Bank) (f : BankSt → BankSt) : (s.modBank i f).glRef = s.glRef := rfl
@[simp] theorem State.modBank_upsets (i : Bank) (f : BankSt → BankSt) : (s.modBank i f).upsets = s.upsets := rfl
@[simp] theorem State.modBank_lark (i : Bank) (f : BankSt → BankSt) : (s.modBank i f).lark = s.lark := rfl
@[simp] theorem State.modBank_cores (i : Bank) (f : BankSt → BankSt) : (s.modBank i f).cores = s.cores := rfl
@[simp] theorem State.modBank_mboxes (i : Bank) (f : BankSt → BankSt) : (s.modBank i f).mboxes = s.mboxes := rfl
@[simp] theorem State.modBank_mbOrder (i : Bank) (f : BankSt → BankSt) : (s.modBank i f).mbOrder = s.mbOrder := rfl
@[simp] theorem State.modBank_cae (i : Bank) (f : BankSt → BankSt) : (s.modBank i f).cae = s.cae := rfl
@[simp] theorem State.modBank_repair (i : Bank) (f : BankSt → BankSt) : (s.modBank i f).repair = s.repair := rfl
@[simp] theorem State.modBank_timers (i : Bank) (f : BankSt → BankSt) : (s.modBank i f).timers = s.timers := rfl
@[simp] theorem State.modBank_links (i : Bank) (f : BankSt → BankSt) : (s.modBank i f).links = s.links := rfl
@[simp] theorem State.modBank_fold (i : Bank) (f : BankSt → BankSt) : (s.modBank i f).fold = s.fold := rfl
@[simp] theorem State.modBank_copies (i : Bank) (f : BankSt → BankSt) : (s.modBank i f).copies = s.copies := rfl
@[simp] theorem State.modBank_pcie (i : Bank) (f : BankSt → BankSt) : (s.modBank i f).pcie = s.pcie := rfl
@[simp] theorem State.modBank_pow (i : Bank) (f : BankSt → BankSt) : (s.modBank i f).pow = s.pow := rfl
@[simp] theorem State.modBank_stile (i : Bank) (f : BankSt → BankSt) : (s.modBank i f).stile = s.stile := rfl
@[simp] theorem State.modBank_rdata (i : Bank) (f : BankSt → BankSt) : (s.modBank i f).rdata = s.rdata := rfl
@[simp] theorem State.modBank_rfault (i : Bank) (f : BankSt → BankSt) : (s.modBank i f).rfault = s.rfault := rfl
@[simp] theorem State.modBank_cyc (i : Bank) (f : BankSt → BankSt) : (s.modBank i f).cyc = s.cyc := rfl
@[simp] theorem State.modBank_cycAt (i : Bank) (f : BankSt → BankSt) : (s.modBank i f).cycAt = s.cycAt := rfl
@[simp] theorem State.modBank_gl (i : Bank) (f : BankSt → BankSt) : (s.modBank i f).gl = s.gl := rfl
@[simp] theorem State.modBank_beamAt (i : Bank) (f : BankSt → BankSt) : (s.modBank i f).beamAt = s.beamAt := rfl
@[simp] theorem State.modBank_prb (i : Bank) (f : BankSt → BankSt) : (s.modBank i f).prb = s.prb := rfl
@[simp] theorem State.modBank_drate (i : Bank) (f : BankSt → BankSt) : (s.modBank i f).drate = s.drate := rfl
@[simp] theorem State.modBank_dcyc (i : Bank) (f : BankSt → BankSt) : (s.modBank i f).dcyc = s.dcyc := rfl
@[simp] theorem State.modBank_dreads (i : Bank) (f : BankSt → BankSt) : (s.modBank i f).dreads = s.dreads := rfl
@[simp] theorem State.modBank_rd (i : Bank) (f : BankSt → BankSt) (k : Nat) : (s.modBank i f).rd k = s.rd k := rfl
@[simp] theorem State.modBank_hwRd (i : Bank) (f : BankSt → BankSt) (k : Nat) : (s.modBank i f).hwRd k = s.hwRd k := rfl
@[simp] theorem State.modBank_stRd (i : Bank) (f : BankSt → BankSt) (k : Nat) : (s.modBank i f).stRd k = s.stRd k := rfl

/-! ### modTmr -/
@[simp] theorem State.modTmr_pending (i : Tmr) (f : TimerSt → TimerSt) : (s.modTmr i f).pending = s.pending := rfl
@[simp] theorem State.modTmr_freeCtr (i : Tmr) (f : TimerSt → TimerSt) : (s.modTmr i f).freeCtr = s.freeCtr := rfl
@[simp] theorem State.modTmr_sclk (i : Tmr) (f : TimerSt → TimerSt) : (s.modTmr i f).sclk = s.sclk := rfl
@[simp] theorem State.modTmr_fuses (i : Tmr) (f : TimerSt → TimerSt) : (s.modTmr i f).fuses = s.fuses := rfl
@[simp] theorem State.modTmr_start (i : Tmr) (f : TimerSt → TimerSt) : (s.modTmr i f).start = s.start := rfl
@[simp] theorem State.modTmr_dev (i : Tmr) (f : TimerSt → TimerSt) : (s.modTmr i f).dev = s.dev := rfl
@[simp] theorem State.modTmr_reason (i : Tmr) (f : TimerSt → TimerSt) : (s.modTmr i f).reason = s.reason := rfl
@[simp] theorem State.modTmr_ws (i : Tmr) (f : TimerSt → TimerSt) : (s.modTmr i f).ws = s.ws := rfl
@[simp] theorem State.modTmr_hw (i : Tmr) (f : TimerSt → TimerSt) : (s.modTmr i f).hw = s.hw := rfl
@[simp] theorem State.modTmr_stileRegs (i : Tmr) (f : TimerSt → TimerSt) : (s.modTmr i f).stileRegs = s.stileRegs := rfl
@[simp] theorem State.modTmr_dram (i : Tmr) (f : TimerSt → TimerSt) : (s.modTmr i f).dram = s.dram := rfl
@[simp] theorem State.modTmr_larkMem (i : Tmr) (f : TimerSt → TimerSt) : (s.modTmr i f).larkMem = s.larkMem := rfl
@[simp] theorem State.modTmr_flash (i : Tmr) (f : TimerSt → TimerSt) : (s.modTmr i f).flash = s.flash := rfl
@[simp] theorem State.modTmr_ports (i : Tmr) (f : TimerSt → TimerSt) : (s.modTmr i f).ports = s.ports := rfl
@[simp] theorem State.modTmr_shadows (i : Tmr) (f : TimerSt → TimerSt) : (s.modTmr i f).shadows = s.shadows := rfl
@[simp] theorem State.modTmr_heads (i : Tmr) (f : TimerSt → TimerSt) : (s.modTmr i f).heads = s.heads := rfl
@[simp] theorem State.modTmr_engines (i : Tmr) (f : TimerSt → TimerSt) : (s.modTmr i f).engines = s.engines := rfl
@[simp] theorem State.modTmr_chans (i : Tmr) (f : TimerSt → TimerSt) : (s.modTmr i f).chans = s.chans := rfl
@[simp] theorem State.modTmr_clsBytes (i : Tmr) (f : TimerSt → TimerSt) : (s.modTmr i f).clsBytes = s.clsBytes := rfl
@[simp] theorem State.modTmr_pads (i : Tmr) (f : TimerSt → TimerSt) : (s.modTmr i f).pads = s.pads := rfl
@[simp] theorem State.modTmr_icp (i : Tmr) (f : TimerSt → TimerSt) : (s.modTmr i f).icp = s.icp := rfl
@[simp] theorem State.modTmr_icpQueue (i : Tmr) (f : TimerSt → TimerSt) : (s.modTmr i f).icpQueue = s.icpQueue := rfl
@[simp] theorem State.modTmr_keys (i : Tmr) (f : TimerSt → TimerSt) : (s.modTmr i f).keys = s.keys := rfl
@[simp] theorem State.modTmr_gcfg (i : Tmr) (f : TimerSt → TimerSt) : (s.modTmr i f).gcfg = s.gcfg := rfl
@[simp] theorem State.modTmr_gmode (i : Tmr) (f : TimerSt → TimerSt) : (s.modTmr i f).gmode = s.gmode := rfl
@[simp] theorem State.modTmr_glRound (i : Tmr) (f : TimerSt → TimerSt) : (s.modTmr i f).glRound = s.glRound := rfl
@[simp] theorem State.modTmr_glRef (i : Tmr) (f : TimerSt → TimerSt) : (s.modTmr i f).glRef = s.glRef := rfl
@[simp] theorem State.modTmr_upsets (i : Tmr) (f : TimerSt → TimerSt) : (s.modTmr i f).upsets = s.upsets := rfl
@[simp] theorem State.modTmr_lark (i : Tmr) (f : TimerSt → TimerSt) : (s.modTmr i f).lark = s.lark := rfl
@[simp] theorem State.modTmr_cores (i : Tmr) (f : TimerSt → TimerSt) : (s.modTmr i f).cores = s.cores := rfl
@[simp] theorem State.modTmr_mboxes (i : Tmr) (f : TimerSt → TimerSt) : (s.modTmr i f).mboxes = s.mboxes := rfl
@[simp] theorem State.modTmr_mbOrder (i : Tmr) (f : TimerSt → TimerSt) : (s.modTmr i f).mbOrder = s.mbOrder := rfl
@[simp] theorem State.modTmr_cae (i : Tmr) (f : TimerSt → TimerSt) : (s.modTmr i f).cae = s.cae := rfl
@[simp] theorem State.modTmr_repair (i : Tmr) (f : TimerSt → TimerSt) : (s.modTmr i f).repair = s.repair := rfl
@[simp] theorem State.modTmr_banks (i : Tmr) (f : TimerSt → TimerSt) : (s.modTmr i f).banks = s.banks := rfl
@[simp] theorem State.modTmr_links (i : Tmr) (f : TimerSt → TimerSt) : (s.modTmr i f).links = s.links := rfl
@[simp] theorem State.modTmr_fold (i : Tmr) (f : TimerSt → TimerSt) : (s.modTmr i f).fold = s.fold := rfl
@[simp] theorem State.modTmr_copies (i : Tmr) (f : TimerSt → TimerSt) : (s.modTmr i f).copies = s.copies := rfl
@[simp] theorem State.modTmr_pcie (i : Tmr) (f : TimerSt → TimerSt) : (s.modTmr i f).pcie = s.pcie := rfl
@[simp] theorem State.modTmr_pow (i : Tmr) (f : TimerSt → TimerSt) : (s.modTmr i f).pow = s.pow := rfl
@[simp] theorem State.modTmr_stile (i : Tmr) (f : TimerSt → TimerSt) : (s.modTmr i f).stile = s.stile := rfl
@[simp] theorem State.modTmr_rdata (i : Tmr) (f : TimerSt → TimerSt) : (s.modTmr i f).rdata = s.rdata := rfl
@[simp] theorem State.modTmr_rfault (i : Tmr) (f : TimerSt → TimerSt) : (s.modTmr i f).rfault = s.rfault := rfl
@[simp] theorem State.modTmr_cyc (i : Tmr) (f : TimerSt → TimerSt) : (s.modTmr i f).cyc = s.cyc := rfl
@[simp] theorem State.modTmr_cycAt (i : Tmr) (f : TimerSt → TimerSt) : (s.modTmr i f).cycAt = s.cycAt := rfl
@[simp] theorem State.modTmr_gl (i : Tmr) (f : TimerSt → TimerSt) : (s.modTmr i f).gl = s.gl := rfl
@[simp] theorem State.modTmr_beamAt (i : Tmr) (f : TimerSt → TimerSt) : (s.modTmr i f).beamAt = s.beamAt := rfl
@[simp] theorem State.modTmr_prb (i : Tmr) (f : TimerSt → TimerSt) : (s.modTmr i f).prb = s.prb := rfl
@[simp] theorem State.modTmr_drate (i : Tmr) (f : TimerSt → TimerSt) : (s.modTmr i f).drate = s.drate := rfl
@[simp] theorem State.modTmr_dcyc (i : Tmr) (f : TimerSt → TimerSt) : (s.modTmr i f).dcyc = s.dcyc := rfl
@[simp] theorem State.modTmr_dreads (i : Tmr) (f : TimerSt → TimerSt) : (s.modTmr i f).dreads = s.dreads := rfl
@[simp] theorem State.modTmr_rd (i : Tmr) (f : TimerSt → TimerSt) (k : Nat) : (s.modTmr i f).rd k = s.rd k := rfl
@[simp] theorem State.modTmr_hwRd (i : Tmr) (f : TimerSt → TimerSt) (k : Nat) : (s.modTmr i f).hwRd k = s.hwRd k := rfl
@[simp] theorem State.modTmr_stRd (i : Tmr) (f : TimerSt → TimerSt) (k : Nat) : (s.modTmr i f).stRd k = s.stRd k := rfl

/-! ### modCore -/
@[simp] theorem State.modCore_pending (i : Core) (f : CoreSt → CoreSt) : (s.modCore i f).pending = s.pending := rfl
@[simp] theorem State.modCore_freeCtr (i : Core) (f : CoreSt → CoreSt) : (s.modCore i f).freeCtr = s.freeCtr := rfl
@[simp] theorem State.modCore_sclk (i : Core) (f : CoreSt → CoreSt) : (s.modCore i f).sclk = s.sclk := rfl
@[simp] theorem State.modCore_fuses (i : Core) (f : CoreSt → CoreSt) : (s.modCore i f).fuses = s.fuses := rfl
@[simp] theorem State.modCore_start (i : Core) (f : CoreSt → CoreSt) : (s.modCore i f).start = s.start := rfl
@[simp] theorem State.modCore_dev (i : Core) (f : CoreSt → CoreSt) : (s.modCore i f).dev = s.dev := rfl
@[simp] theorem State.modCore_reason (i : Core) (f : CoreSt → CoreSt) : (s.modCore i f).reason = s.reason := rfl
@[simp] theorem State.modCore_ws (i : Core) (f : CoreSt → CoreSt) : (s.modCore i f).ws = s.ws := rfl
@[simp] theorem State.modCore_hw (i : Core) (f : CoreSt → CoreSt) : (s.modCore i f).hw = s.hw := rfl
@[simp] theorem State.modCore_stileRegs (i : Core) (f : CoreSt → CoreSt) : (s.modCore i f).stileRegs = s.stileRegs := rfl
@[simp] theorem State.modCore_dram (i : Core) (f : CoreSt → CoreSt) : (s.modCore i f).dram = s.dram := rfl
@[simp] theorem State.modCore_larkMem (i : Core) (f : CoreSt → CoreSt) : (s.modCore i f).larkMem = s.larkMem := rfl
@[simp] theorem State.modCore_flash (i : Core) (f : CoreSt → CoreSt) : (s.modCore i f).flash = s.flash := rfl
@[simp] theorem State.modCore_ports (i : Core) (f : CoreSt → CoreSt) : (s.modCore i f).ports = s.ports := rfl
@[simp] theorem State.modCore_shadows (i : Core) (f : CoreSt → CoreSt) : (s.modCore i f).shadows = s.shadows := rfl
@[simp] theorem State.modCore_heads (i : Core) (f : CoreSt → CoreSt) : (s.modCore i f).heads = s.heads := rfl
@[simp] theorem State.modCore_engines (i : Core) (f : CoreSt → CoreSt) : (s.modCore i f).engines = s.engines := rfl
@[simp] theorem State.modCore_chans (i : Core) (f : CoreSt → CoreSt) : (s.modCore i f).chans = s.chans := rfl
@[simp] theorem State.modCore_clsBytes (i : Core) (f : CoreSt → CoreSt) : (s.modCore i f).clsBytes = s.clsBytes := rfl
@[simp] theorem State.modCore_pads (i : Core) (f : CoreSt → CoreSt) : (s.modCore i f).pads = s.pads := rfl
@[simp] theorem State.modCore_icp (i : Core) (f : CoreSt → CoreSt) : (s.modCore i f).icp = s.icp := rfl
@[simp] theorem State.modCore_icpQueue (i : Core) (f : CoreSt → CoreSt) : (s.modCore i f).icpQueue = s.icpQueue := rfl
@[simp] theorem State.modCore_keys (i : Core) (f : CoreSt → CoreSt) : (s.modCore i f).keys = s.keys := rfl
@[simp] theorem State.modCore_gcfg (i : Core) (f : CoreSt → CoreSt) : (s.modCore i f).gcfg = s.gcfg := rfl
@[simp] theorem State.modCore_gmode (i : Core) (f : CoreSt → CoreSt) : (s.modCore i f).gmode = s.gmode := rfl
@[simp] theorem State.modCore_glRound (i : Core) (f : CoreSt → CoreSt) : (s.modCore i f).glRound = s.glRound := rfl
@[simp] theorem State.modCore_glRef (i : Core) (f : CoreSt → CoreSt) : (s.modCore i f).glRef = s.glRef := rfl
@[simp] theorem State.modCore_upsets (i : Core) (f : CoreSt → CoreSt) : (s.modCore i f).upsets = s.upsets := rfl
@[simp] theorem State.modCore_lark (i : Core) (f : CoreSt → CoreSt) : (s.modCore i f).lark = s.lark := rfl
@[simp] theorem State.modCore_mboxes (i : Core) (f : CoreSt → CoreSt) : (s.modCore i f).mboxes = s.mboxes := rfl
@[simp] theorem State.modCore_mbOrder (i : Core) (f : CoreSt → CoreSt) : (s.modCore i f).mbOrder = s.mbOrder := rfl
@[simp] theorem State.modCore_cae (i : Core) (f : CoreSt → CoreSt) : (s.modCore i f).cae = s.cae := rfl
@[simp] theorem State.modCore_repair (i : Core) (f : CoreSt → CoreSt) : (s.modCore i f).repair = s.repair := rfl
@[simp] theorem State.modCore_banks (i : Core) (f : CoreSt → CoreSt) : (s.modCore i f).banks = s.banks := rfl
@[simp] theorem State.modCore_timers (i : Core) (f : CoreSt → CoreSt) : (s.modCore i f).timers = s.timers := rfl
@[simp] theorem State.modCore_links (i : Core) (f : CoreSt → CoreSt) : (s.modCore i f).links = s.links := rfl
@[simp] theorem State.modCore_fold (i : Core) (f : CoreSt → CoreSt) : (s.modCore i f).fold = s.fold := rfl
@[simp] theorem State.modCore_copies (i : Core) (f : CoreSt → CoreSt) : (s.modCore i f).copies = s.copies := rfl
@[simp] theorem State.modCore_pcie (i : Core) (f : CoreSt → CoreSt) : (s.modCore i f).pcie = s.pcie := rfl
@[simp] theorem State.modCore_pow (i : Core) (f : CoreSt → CoreSt) : (s.modCore i f).pow = s.pow := rfl
@[simp] theorem State.modCore_stile (i : Core) (f : CoreSt → CoreSt) : (s.modCore i f).stile = s.stile := rfl
@[simp] theorem State.modCore_rdata (i : Core) (f : CoreSt → CoreSt) : (s.modCore i f).rdata = s.rdata := rfl
@[simp] theorem State.modCore_rfault (i : Core) (f : CoreSt → CoreSt) : (s.modCore i f).rfault = s.rfault := rfl
@[simp] theorem State.modCore_cyc (i : Core) (f : CoreSt → CoreSt) : (s.modCore i f).cyc = s.cyc := rfl
@[simp] theorem State.modCore_cycAt (i : Core) (f : CoreSt → CoreSt) : (s.modCore i f).cycAt = s.cycAt := rfl
@[simp] theorem State.modCore_gl (i : Core) (f : CoreSt → CoreSt) : (s.modCore i f).gl = s.gl := rfl
@[simp] theorem State.modCore_beamAt (i : Core) (f : CoreSt → CoreSt) : (s.modCore i f).beamAt = s.beamAt := rfl
@[simp] theorem State.modCore_prb (i : Core) (f : CoreSt → CoreSt) : (s.modCore i f).prb = s.prb := rfl
@[simp] theorem State.modCore_drate (i : Core) (f : CoreSt → CoreSt) : (s.modCore i f).drate = s.drate := rfl
@[simp] theorem State.modCore_dcyc (i : Core) (f : CoreSt → CoreSt) : (s.modCore i f).dcyc = s.dcyc := rfl
@[simp] theorem State.modCore_dreads (i : Core) (f : CoreSt → CoreSt) : (s.modCore i f).dreads = s.dreads := rfl
@[simp] theorem State.modCore_rd (i : Core) (f : CoreSt → CoreSt) (k : Nat) : (s.modCore i f).rd k = s.rd k := rfl
@[simp] theorem State.modCore_hwRd (i : Core) (f : CoreSt → CoreSt) (k : Nat) : (s.modCore i f).hwRd k = s.hwRd k := rfl
@[simp] theorem State.modCore_stRd (i : Core) (f : CoreSt → CoreSt) (k : Nat) : (s.modCore i f).stRd k = s.stRd k := rfl

/-! ### modCtx -/
@[simp] theorem State.modCtx_pending (i : Ctx) (f : CtxSt → CtxSt) : (s.modCtx i f).pending = s.pending := rfl
@[simp] theorem State.modCtx_freeCtr (i : Ctx) (f : CtxSt → CtxSt) : (s.modCtx i f).freeCtr = s.freeCtr := rfl
@[simp] theorem State.modCtx_sclk (i : Ctx) (f : CtxSt → CtxSt) : (s.modCtx i f).sclk = s.sclk := rfl
@[simp] theorem State.modCtx_fuses (i : Ctx) (f : CtxSt → CtxSt) : (s.modCtx i f).fuses = s.fuses := rfl
@[simp] theorem State.modCtx_start (i : Ctx) (f : CtxSt → CtxSt) : (s.modCtx i f).start = s.start := rfl
@[simp] theorem State.modCtx_dev (i : Ctx) (f : CtxSt → CtxSt) : (s.modCtx i f).dev = s.dev := rfl
@[simp] theorem State.modCtx_reason (i : Ctx) (f : CtxSt → CtxSt) : (s.modCtx i f).reason = s.reason := rfl
@[simp] theorem State.modCtx_ws (i : Ctx) (f : CtxSt → CtxSt) : (s.modCtx i f).ws = s.ws := rfl
@[simp] theorem State.modCtx_hw (i : Ctx) (f : CtxSt → CtxSt) : (s.modCtx i f).hw = s.hw := rfl
@[simp] theorem State.modCtx_stileRegs (i : Ctx) (f : CtxSt → CtxSt) : (s.modCtx i f).stileRegs = s.stileRegs := rfl
@[simp] theorem State.modCtx_dram (i : Ctx) (f : CtxSt → CtxSt) : (s.modCtx i f).dram = s.dram := rfl
@[simp] theorem State.modCtx_larkMem (i : Ctx) (f : CtxSt → CtxSt) : (s.modCtx i f).larkMem = s.larkMem := rfl
@[simp] theorem State.modCtx_flash (i : Ctx) (f : CtxSt → CtxSt) : (s.modCtx i f).flash = s.flash := rfl
@[simp] theorem State.modCtx_ports (i : Ctx) (f : CtxSt → CtxSt) : (s.modCtx i f).ports = s.ports := rfl
@[simp] theorem State.modCtx_shadows (i : Ctx) (f : CtxSt → CtxSt) : (s.modCtx i f).shadows = s.shadows := rfl
@[simp] theorem State.modCtx_heads (i : Ctx) (f : CtxSt → CtxSt) : (s.modCtx i f).heads = s.heads := rfl
@[simp] theorem State.modCtx_engines (i : Ctx) (f : CtxSt → CtxSt) : (s.modCtx i f).engines = s.engines := rfl
@[simp] theorem State.modCtx_chans (i : Ctx) (f : CtxSt → CtxSt) : (s.modCtx i f).chans = s.chans := rfl
@[simp] theorem State.modCtx_clsBytes (i : Ctx) (f : CtxSt → CtxSt) : (s.modCtx i f).clsBytes = s.clsBytes := rfl
@[simp] theorem State.modCtx_pads (i : Ctx) (f : CtxSt → CtxSt) : (s.modCtx i f).pads = s.pads := rfl
@[simp] theorem State.modCtx_icp (i : Ctx) (f : CtxSt → CtxSt) : (s.modCtx i f).icp = s.icp := rfl
@[simp] theorem State.modCtx_icpQueue (i : Ctx) (f : CtxSt → CtxSt) : (s.modCtx i f).icpQueue = s.icpQueue := rfl
@[simp] theorem State.modCtx_keys (i : Ctx) (f : CtxSt → CtxSt) : (s.modCtx i f).keys = s.keys := rfl
@[simp] theorem State.modCtx_gcfg (i : Ctx) (f : CtxSt → CtxSt) : (s.modCtx i f).gcfg = s.gcfg := rfl
@[simp] theorem State.modCtx_gmode (i : Ctx) (f : CtxSt → CtxSt) : (s.modCtx i f).gmode = s.gmode := rfl
@[simp] theorem State.modCtx_glRound (i : Ctx) (f : CtxSt → CtxSt) : (s.modCtx i f).glRound = s.glRound := rfl
@[simp] theorem State.modCtx_glRef (i : Ctx) (f : CtxSt → CtxSt) : (s.modCtx i f).glRef = s.glRef := rfl
@[simp] theorem State.modCtx_upsets (i : Ctx) (f : CtxSt → CtxSt) : (s.modCtx i f).upsets = s.upsets := rfl
@[simp] theorem State.modCtx_lark (i : Ctx) (f : CtxSt → CtxSt) : (s.modCtx i f).lark = s.lark := rfl
@[simp] theorem State.modCtx_cores (i : Ctx) (f : CtxSt → CtxSt) : (s.modCtx i f).cores = s.cores := rfl
@[simp] theorem State.modCtx_mboxes (i : Ctx) (f : CtxSt → CtxSt) : (s.modCtx i f).mboxes = s.mboxes := rfl
@[simp] theorem State.modCtx_mbOrder (i : Ctx) (f : CtxSt → CtxSt) : (s.modCtx i f).mbOrder = s.mbOrder := rfl
@[simp] theorem State.modCtx_repair (i : Ctx) (f : CtxSt → CtxSt) : (s.modCtx i f).repair = s.repair := rfl
@[simp] theorem State.modCtx_banks (i : Ctx) (f : CtxSt → CtxSt) : (s.modCtx i f).banks = s.banks := rfl
@[simp] theorem State.modCtx_timers (i : Ctx) (f : CtxSt → CtxSt) : (s.modCtx i f).timers = s.timers := rfl
@[simp] theorem State.modCtx_links (i : Ctx) (f : CtxSt → CtxSt) : (s.modCtx i f).links = s.links := rfl
@[simp] theorem State.modCtx_fold (i : Ctx) (f : CtxSt → CtxSt) : (s.modCtx i f).fold = s.fold := rfl
@[simp] theorem State.modCtx_copies (i : Ctx) (f : CtxSt → CtxSt) : (s.modCtx i f).copies = s.copies := rfl
@[simp] theorem State.modCtx_pcie (i : Ctx) (f : CtxSt → CtxSt) : (s.modCtx i f).pcie = s.pcie := rfl
@[simp] theorem State.modCtx_pow (i : Ctx) (f : CtxSt → CtxSt) : (s.modCtx i f).pow = s.pow := rfl
@[simp] theorem State.modCtx_stile (i : Ctx) (f : CtxSt → CtxSt) : (s.modCtx i f).stile = s.stile := rfl
@[simp] theorem State.modCtx_rdata (i : Ctx) (f : CtxSt → CtxSt) : (s.modCtx i f).rdata = s.rdata := rfl
@[simp] theorem State.modCtx_rfault (i : Ctx) (f : CtxSt → CtxSt) : (s.modCtx i f).rfault = s.rfault := rfl
@[simp] theorem State.modCtx_cyc (i : Ctx) (f : CtxSt → CtxSt) : (s.modCtx i f).cyc = s.cyc := rfl
@[simp] theorem State.modCtx_cycAt (i : Ctx) (f : CtxSt → CtxSt) : (s.modCtx i f).cycAt = s.cycAt := rfl
@[simp] theorem State.modCtx_gl (i : Ctx) (f : CtxSt → CtxSt) : (s.modCtx i f).gl = s.gl := rfl
@[simp] theorem State.modCtx_beamAt (i : Ctx) (f : CtxSt → CtxSt) : (s.modCtx i f).beamAt = s.beamAt := rfl
@[simp] theorem State.modCtx_prb (i : Ctx) (f : CtxSt → CtxSt) : (s.modCtx i f).prb = s.prb := rfl
@[simp] theorem State.modCtx_drate (i : Ctx) (f : CtxSt → CtxSt) : (s.modCtx i f).drate = s.drate := rfl
@[simp] theorem State.modCtx_dcyc (i : Ctx) (f : CtxSt → CtxSt) : (s.modCtx i f).dcyc = s.dcyc := rfl
@[simp] theorem State.modCtx_dreads (i : Ctx) (f : CtxSt → CtxSt) : (s.modCtx i f).dreads = s.dreads := rfl
@[simp] theorem State.modCtx_rd (i : Ctx) (f : CtxSt → CtxSt) (k : Nat) : (s.modCtx i f).rd k = s.rd k := rfl
@[simp] theorem State.modCtx_hwRd (i : Ctx) (f : CtxSt → CtxSt) (k : Nat) : (s.modCtx i f).hwRd k = s.hwRd k := rfl
@[simp] theorem State.modCtx_stRd (i : Ctx) (f : CtxSt → CtxSt) (k : Nat) : (s.modCtx i f).stRd k = s.stRd k := rfl

/-! ### modSplit -/
@[simp] theorem State.modSplit_pending (i : Fin 8) (f : SplitFn → SplitFn) : (s.modSplit i f).pending = s.pending := rfl
@[simp] theorem State.modSplit_freeCtr (i : Fin 8) (f : SplitFn → SplitFn) : (s.modSplit i f).freeCtr = s.freeCtr := rfl
@[simp] theorem State.modSplit_sclk (i : Fin 8) (f : SplitFn → SplitFn) : (s.modSplit i f).sclk = s.sclk := rfl
@[simp] theorem State.modSplit_fuses (i : Fin 8) (f : SplitFn → SplitFn) : (s.modSplit i f).fuses = s.fuses := rfl
@[simp] theorem State.modSplit_start (i : Fin 8) (f : SplitFn → SplitFn) : (s.modSplit i f).start = s.start := rfl
@[simp] theorem State.modSplit_dev (i : Fin 8) (f : SplitFn → SplitFn) : (s.modSplit i f).dev = s.dev := rfl
@[simp] theorem State.modSplit_reason (i : Fin 8) (f : SplitFn → SplitFn) : (s.modSplit i f).reason = s.reason := rfl
@[simp] theorem State.modSplit_ws (i : Fin 8) (f : SplitFn → SplitFn) : (s.modSplit i f).ws = s.ws := rfl
@[simp] theorem State.modSplit_hw (i : Fin 8) (f : SplitFn → SplitFn) : (s.modSplit i f).hw = s.hw := rfl
@[simp] theorem State.modSplit_stileRegs (i : Fin 8) (f : SplitFn → SplitFn) : (s.modSplit i f).stileRegs = s.stileRegs := rfl
@[simp] theorem State.modSplit_dram (i : Fin 8) (f : SplitFn → SplitFn) : (s.modSplit i f).dram = s.dram := rfl
@[simp] theorem State.modSplit_larkMem (i : Fin 8) (f : SplitFn → SplitFn) : (s.modSplit i f).larkMem = s.larkMem := rfl
@[simp] theorem State.modSplit_flash (i : Fin 8) (f : SplitFn → SplitFn) : (s.modSplit i f).flash = s.flash := rfl
@[simp] theorem State.modSplit_ports (i : Fin 8) (f : SplitFn → SplitFn) : (s.modSplit i f).ports = s.ports := rfl
@[simp] theorem State.modSplit_shadows (i : Fin 8) (f : SplitFn → SplitFn) : (s.modSplit i f).shadows = s.shadows := rfl
@[simp] theorem State.modSplit_heads (i : Fin 8) (f : SplitFn → SplitFn) : (s.modSplit i f).heads = s.heads := rfl
@[simp] theorem State.modSplit_engines (i : Fin 8) (f : SplitFn → SplitFn) : (s.modSplit i f).engines = s.engines := rfl
@[simp] theorem State.modSplit_chans (i : Fin 8) (f : SplitFn → SplitFn) : (s.modSplit i f).chans = s.chans := rfl
@[simp] theorem State.modSplit_clsBytes (i : Fin 8) (f : SplitFn → SplitFn) : (s.modSplit i f).clsBytes = s.clsBytes := rfl
@[simp] theorem State.modSplit_pads (i : Fin 8) (f : SplitFn → SplitFn) : (s.modSplit i f).pads = s.pads := rfl
@[simp] theorem State.modSplit_icp (i : Fin 8) (f : SplitFn → SplitFn) : (s.modSplit i f).icp = s.icp := rfl
@[simp] theorem State.modSplit_icpQueue (i : Fin 8) (f : SplitFn → SplitFn) : (s.modSplit i f).icpQueue = s.icpQueue := rfl
@[simp] theorem State.modSplit_keys (i : Fin 8) (f : SplitFn → SplitFn) : (s.modSplit i f).keys = s.keys := rfl
@[simp] theorem State.modSplit_gcfg (i : Fin 8) (f : SplitFn → SplitFn) : (s.modSplit i f).gcfg = s.gcfg := rfl
@[simp] theorem State.modSplit_gmode (i : Fin 8) (f : SplitFn → SplitFn) : (s.modSplit i f).gmode = s.gmode := rfl
@[simp] theorem State.modSplit_glRound (i : Fin 8) (f : SplitFn → SplitFn) : (s.modSplit i f).glRound = s.glRound := rfl
@[simp] theorem State.modSplit_glRef (i : Fin 8) (f : SplitFn → SplitFn) : (s.modSplit i f).glRef = s.glRef := rfl
@[simp] theorem State.modSplit_upsets (i : Fin 8) (f : SplitFn → SplitFn) : (s.modSplit i f).upsets = s.upsets := rfl
@[simp] theorem State.modSplit_lark (i : Fin 8) (f : SplitFn → SplitFn) : (s.modSplit i f).lark = s.lark := rfl
@[simp] theorem State.modSplit_cores (i : Fin 8) (f : SplitFn → SplitFn) : (s.modSplit i f).cores = s.cores := rfl
@[simp] theorem State.modSplit_mboxes (i : Fin 8) (f : SplitFn → SplitFn) : (s.modSplit i f).mboxes = s.mboxes := rfl
@[simp] theorem State.modSplit_mbOrder (i : Fin 8) (f : SplitFn → SplitFn) : (s.modSplit i f).mbOrder = s.mbOrder := rfl
@[simp] theorem State.modSplit_repair (i : Fin 8) (f : SplitFn → SplitFn) : (s.modSplit i f).repair = s.repair := rfl
@[simp] theorem State.modSplit_banks (i : Fin 8) (f : SplitFn → SplitFn) : (s.modSplit i f).banks = s.banks := rfl
@[simp] theorem State.modSplit_timers (i : Fin 8) (f : SplitFn → SplitFn) : (s.modSplit i f).timers = s.timers := rfl
@[simp] theorem State.modSplit_links (i : Fin 8) (f : SplitFn → SplitFn) : (s.modSplit i f).links = s.links := rfl
@[simp] theorem State.modSplit_fold (i : Fin 8) (f : SplitFn → SplitFn) : (s.modSplit i f).fold = s.fold := rfl
@[simp] theorem State.modSplit_copies (i : Fin 8) (f : SplitFn → SplitFn) : (s.modSplit i f).copies = s.copies := rfl
@[simp] theorem State.modSplit_pcie (i : Fin 8) (f : SplitFn → SplitFn) : (s.modSplit i f).pcie = s.pcie := rfl
@[simp] theorem State.modSplit_pow (i : Fin 8) (f : SplitFn → SplitFn) : (s.modSplit i f).pow = s.pow := rfl
@[simp] theorem State.modSplit_stile (i : Fin 8) (f : SplitFn → SplitFn) : (s.modSplit i f).stile = s.stile := rfl
@[simp] theorem State.modSplit_rdata (i : Fin 8) (f : SplitFn → SplitFn) : (s.modSplit i f).rdata = s.rdata := rfl
@[simp] theorem State.modSplit_rfault (i : Fin 8) (f : SplitFn → SplitFn) : (s.modSplit i f).rfault = s.rfault := rfl
@[simp] theorem State.modSplit_cyc (i : Fin 8) (f : SplitFn → SplitFn) : (s.modSplit i f).cyc = s.cyc := rfl
@[simp] theorem State.modSplit_cycAt (i : Fin 8) (f : SplitFn → SplitFn) : (s.modSplit i f).cycAt = s.cycAt := rfl
@[simp] theorem State.modSplit_gl (i : Fin 8) (f : SplitFn → SplitFn) : (s.modSplit i f).gl = s.gl := rfl
@[simp] theorem State.modSplit_beamAt (i : Fin 8) (f : SplitFn → SplitFn) : (s.modSplit i f).beamAt = s.beamAt := rfl
@[simp] theorem State.modSplit_prb (i : Fin 8) (f : SplitFn → SplitFn) : (s.modSplit i f).prb = s.prb := rfl
@[simp] theorem State.modSplit_drate (i : Fin 8) (f : SplitFn → SplitFn) : (s.modSplit i f).drate = s.drate := rfl
@[simp] theorem State.modSplit_dcyc (i : Fin 8) (f : SplitFn → SplitFn) : (s.modSplit i f).dcyc = s.dcyc := rfl
@[simp] theorem State.modSplit_dreads (i : Fin 8) (f : SplitFn → SplitFn) : (s.modSplit i f).dreads = s.dreads := rfl
@[simp] theorem State.modSplit_rd (i : Fin 8) (f : SplitFn → SplitFn) (k : Nat) : (s.modSplit i f).rd k = s.rd k := rfl
@[simp] theorem State.modSplit_hwRd (i : Fin 8) (f : SplitFn → SplitFn) (k : Nat) : (s.modSplit i f).hwRd k = s.hwRd k := rfl
@[simp] theorem State.modSplit_stRd (i : Fin 8) (f : SplitFn → SplitFn) (k : Nat) : (s.modSplit i f).stRd k = s.stRd k := rfl

end Sys2Proof.Machine
end

