-- ==== Sys2Proof/Laws/Regs.lean ====
section
/-! SUPPORT. What registers and their fields read after the shared operations that write them. -/

namespace Sys2Proof.Machine

variable (s : State)

theorem State.rd_wr (a k : Nat) (v : Word) : (s.wr a v).rd k = if k = a then v else s.rd k :=
  spGet_spSet wsReset s.ws k a v
@[simp] theorem State.rd_wr_same (a : Nat) (v : Word) : (s.wr a v).rd a = v := by simp [State.rd_wr]
theorem State.rd_wr_ne {a k : Nat} (v : Word) (h : k ≠ a) : (s.wr a v).rd k = s.rd k := by simp [State.rd_wr, h]

theorem State.hwRd_hwWr (a k : Nat) (v : Word) : (s.hwWr a v).hwRd k = if k = a then v else s.hwRd k :=
  spGet_spSet hwReset s.hw k a v
@[simp] theorem State.hwRd_hwWr_same (a : Nat) (v : Word) : (s.hwWr a v).hwRd a = v := by simp [State.hwRd_hwWr]
theorem State.hwRd_hwWr_ne {a k : Nat} (v : Word) (h : k ≠ a) : (s.hwWr a v).hwRd k = s.hwRd k := by simp [State.hwRd_hwWr, h]

theorem State.stRd_stWr (a k : Nat) (v : Word) : (s.stWr a v).stRd k = if k = a then v else s.stRd k :=
  spGet_spSet stileReset s.stileRegs k a v
@[simp] theorem State.stRd_stWr_same (a : Nat) (v : Word) : (s.stWr a v).stRd a = v := by simp [State.stRd_stWr]
theorem State.stRd_stWr_ne {a k : Nat} (v : Word) (h : k ≠ a) : (s.stWr a v).stRd k = s.stRd k := by simp [State.stRd_stWr, h]

/-! ### Fields of a word -/

/-- Bit j of a word with its field [hi:lo] replaced. -/
theorem getLsbD_putFld (w : Word) {hi lo : Nat} (v : Nat) (h : lo ≤ hi) (j : Nat) :
    (putFld w hi lo v).getLsbD j = if lo ≤ j ∧ j ≤ hi ∧ j < 24 then v.testBit (j - lo) else w.getLsbD j := by
  unfold putFld wd
  by_cases hj : j < 24
  · simp only [BitVec.getLsbD_or, BitVec.getLsbD_and, BitVec.getLsbD_not, BitVec.getLsbD_ofNat, hj, decide_true, Bool.true_and,
      Nat.testBit_shiftLeft, Nat.testBit_two_pow_sub_one, Nat.testBit_mod_two_pow]
    by_cases h1 : lo ≤ j <;> by_cases h2 : j ≤ hi
    · simp [h1, h2, show j - lo < hi + 1 - lo by omega]
    · simp [h1, h2, show ¬ (j - lo < hi + 1 - lo) by omega]
    · simp [h1]
    · simp [h1]
  · have : w.getLsbD j = false := BitVec.getLsbD_of_ge _ _ (by omega)
    rw [BitVec.getLsbD_of_ge _ _ (by omega), this]; simp [hj]

/-- The field replaced reads as the value written, modulo its width. -/
theorem fld_putFld (w : Word) {hi lo : Nat} (v : Nat) (h : lo ≤ hi) (hh : hi < 24) :
    fld (putFld w hi lo v) hi lo = v % 2 ^ (hi + 1 - lo) := by
  apply Nat.eq_of_testBit_eq
  intro j
  unfold fld nbits
  simp only [Nat.testBit_mod_two_pow, Nat.testBit_shiftRight]
  by_cases hj : j < hi + 1 - lo
  · have := getLsbD_putFld w v h (lo + j)
    simp only [show lo ≤ lo + j ∧ lo + j ≤ hi ∧ lo + j < 24 by omega, and_self, ite_true] at this
    simp only [hj, decide_true, Bool.true_and] at *
    simpa [BitVec.getLsbD] using this
  · simp [hj]

/-- A field apart from the one replaced reads as before. -/
theorem fld_putFld_apart (w : Word) {hi lo hi' lo' : Nat} (v : Nat) (h : lo ≤ hi) (d : hi' < lo ∨ hi < lo') :
    fld (putFld w hi lo v) hi' lo' = fld w hi' lo' := by
  apply Nat.eq_of_testBit_eq
  intro j
  unfold fld nbits
  simp only [Nat.testBit_mod_two_pow, Nat.testBit_shiftRight]
  by_cases hj : j < hi' + 1 - lo'
  · have := getLsbD_putFld w v h (lo' + j)
    rw [if_neg (by omega)] at this
    simpa [hj, BitVec.getLsbD] using this
  · simp [hj]

theorem bit_putBit (w : Word) {n : Nat} (b : Bool) (h : n < 24) (j : Nat) : bit (putBit w n b) j = if j = n then b else bit w j := by
  unfold bit putBit
  rw [getLsbD_putFld _ _ (Nat.le_refl n)]
  by_cases hj : j = n
  · subst hj; cases b <;> simp [h]
  · rw [if_neg (by omega), if_neg hj]

@[simp] theorem bit_putBit_same (w : Word) {n : Nat} (b : Bool) (h : n < 24) : bit (putBit w n b) n = b := by
  simp [bit_putBit w b h]

@[simp] theorem bit_or (a b : Word) (n : Nat) : bit (a ||| b) n = (bit a n || bit b n) := by simp [bit]
@[simp] theorem bit_and (a b : Word) (n : Nat) : bit (a &&& b) n = (bit a n && bit b n) := by simp [bit]
@[simp] theorem bit_xor (a b : Word) (n : Nat) : bit (a ^^^ b) n = (bit a n ^^ bit b n) := by simp [bit]
theorem bit_not (a : Word) {n : Nat} (h : n < 24) : bit (~~~a) n = !bit a n := by simp [bit, h]

theorem bit_pow (k : Nat) {n : Nat} (h : n < 24) : bit (wd (2 ^ k)) n = decide (n = k) := by
  unfold bit wd
  rw [BitVec.getLsbD_ofNat, Nat.testBit_two_pow]
  simp [h, eq_comm]

theorem bit_putFld (w : Word) {hi lo : Nat} (v : Nat) (h : lo ≤ hi) (j : Nat) :
    bit (putFld w hi lo v) j = if lo ≤ j ∧ j ≤ hi ∧ j < 24 then v.testBit (j - lo) else bit w j := getLsbD_putFld w v h j

theorem fld_lt (w : Word) (hi lo : Nat) : fld w hi lo < 2 ^ (hi + 1 - lo) := Nat.mod_lt _ (Nat.two_pow_pos _)

/-- A field of one bit is that bit. -/
theorem fld_one (w : Word) (n : Nat) : fld w n n = (bit w n).toNat := by
  unfold fld nbits bit
  rw [show n + 1 - n = 1 by omega, Nat.shiftRight_eq_div_pow]
  simp [BitVec.getLsbD, Nat.testBit_eq_decide_div_mod_eq]
  have : w.toNat / 2 ^ n % 2 < 2 := Nat.mod_lt _ (by decide)
  by_cases h : w.toNat / 2 ^ n % 2 = 1
  · simp [h]
  · simp [h]; omega

/-- The bits that a condition selects, gathered into a word. -/
theorem bit_gather (f : Nat → Bool) (k : Nat) {n : Nat} (hn : n < 24) :
    bit ((List.range k).foldl (fun (m : Word) j => if f j then m ||| wd (2 ^ j) else m) 0) n = (decide (n < k) && f n) := by
  induction k with
  | zero => simp [bit]
  | succ k ih =>
    rw [List.range_succ, List.foldl_append, List.foldl_cons, List.foldl_nil]
    by_cases h1 : n = k
    · subst h1
      split
      · rename_i h; rw [bit_or, bit_pow _ hn, h]; simp
      · rename_i h; rw [ih]; simp [h]
    · rw [show decide (n < k + 1) = decide (n < k) from decide_eq_decide.mpr (by omega), ← ih]
      split
      · rw [bit_or, bit_pow _ hn]; simp [h1]
      · rfl

/-- Bit n of the ownership mask: the requester owns the pin. -/
theorem State.ownMask_bit (r : Requester) (b : Nat) {n : Nat} (hn : n < 24) : bit (s.ownMask r b) n = s.ownsPin r b n := by
  unfold State.ownMask; rw [bit_gather _ 24 hn]; simp [hn]

/-! ### Bits and fields of a register -/

theorem State.fset_rd (a hi lo v k : Nat) : (s.fset a hi lo v).rd k = if k = a then putFld (s.rd a) hi lo v else s.rd k :=
  State.rd_wr s a k _
theorem State.bset_rd (a n : Nat) (b : Bool) (k : Nat) : (s.bset a n b).rd k = if k = a then putBit (s.rd a) n b else s.rd k :=
  State.rd_wr s a k _
theorem State.inc_rd (a hi lo k : Nat) : (s.inc a hi lo).rd k = if k = a then incFld (s.rd a) hi lo else s.rd k :=
  State.rd_wr s a k _

/-- One more in a counter, held at its largest value. -/
theorem fld_incFld (w : Word) {hi lo : Nat} (h : lo ≤ hi) (hh : hi < 24) :
    fld (incFld w hi lo) hi lo = min (2 ^ (hi + 1 - lo) - 1) (fld w hi lo + 1) := by
  have := fld_lt w hi lo
  unfold incFld; split
  · rw [fld_putFld _ _ h hh, Nat.mod_eq_of_lt ‹_›]; omega
  · omega

theorem fld_incFld_apart (w : Word) {hi lo hi' lo' : Nat} (h : lo ≤ hi) (d : hi' < lo ∨ hi < lo') :
    fld (incFld w hi lo) hi' lo' = fld w hi' lo' := by
  unfold incFld; split
  · exact fld_putFld_apart _ _ h d
  · rfl

theorem bit_incFld_apart (w : Word) {hi lo n : Nat} (h : lo ≤ hi) (d : n < lo ∨ hi < n) : bit (incFld w hi lo) n = bit w n := by
  unfold incFld; split
  · rw [bit_putFld _ _ h, if_neg (by omega)]
  · rfl

/-- A field apart from a bit set. -/
theorem fld_putBit_apart (w : Word) {n hi' lo' : Nat} (b : Bool) (d : hi' < n ∨ n < lo') : fld (putBit w n b) hi' lo' = fld w hi' lo' :=
  fld_putFld_apart _ _ (Nat.le_refl n) d

end Sys2Proof.Machine
end

