-- ==== Sys2Proof/Laws/Events.lean ====
section
/-! SUPPORT. What raising an event source does, said once: it changes host-window registers and the PCI Express
function's messages and nothing else, it sets the source's flag, and it leaves every host-window register but the flag, the
count and (for a caused source) the cause register as it was. -/

namespace Sys2Proof.Machine

variable (s : State)

/-- A message request changes the PCI Express function alone. -/
theorem State.msixRequest_eq (n : Nat) : s.msixRequest n = { s with pcie := (s.msixRequest n).pcie } := by
  unfold State.msixRequest; split <;> rfl

/-- Raising a source changes host-window registers and the function's messages alone. -/
theorem State.raise_eq (n : Nat) : s.raise n = { s with hw := (s.raise n).hw, pcie := (s.raise n).pcie } := by
  unfold State.raise State.msixRequest; dsimp only; split <;> (try split) <;> rfl

theorem State.raiseCause_eq (off b n : Nat) :
    s.raiseCause off b n = { s with hw := (s.raiseCause off b n).hw, pcie := (s.raiseCause off b n).pcie } := by
  unfold State.raiseCause; rw [State.raise_eq]; rfl

@[simp] theorem State.raise_pending (n : Nat) : (s.raise n).pending = s.pending := by rw [State.raise_eq]
@[simp] theorem State.raiseCause_pending (off b n : Nat) : (s.raiseCause off b n).pending = s.pending := by rw [State.raiseCause_eq]
@[simp] theorem State.raise_freeCtr (n : Nat) : (s.raise n).freeCtr = s.freeCtr := by rw [State.raise_eq]
@[simp] theorem State.raiseCause_freeCtr (off b n : Nat) : (s.raiseCause off b n).freeCtr = s.freeCtr := by rw [State.raiseCause_eq]
@[simp] theorem State.raise_sclk (n : Nat) : (s.raise n).sclk = s.sclk := by rw [State.raise_eq]
@[simp] theorem State.raiseCause_sclk (off b n : Nat) : (s.raiseCause off b n).sclk = s.sclk := by rw [State.raiseCause_eq]
@[simp] theorem State.raise_fuses (n : Nat) : (s.raise n).fuses = s.fuses := by rw [State.raise_eq]
@[simp] theorem State.raiseCause_fuses (off b n : Nat) : (s.raiseCause off b n).fuses = s.fuses := by rw [State.raiseCause_eq]
@[simp] theorem State.raise_start (n : Nat) : (s.raise n).start = s.start := by rw [State.raise_eq]
@[simp] theorem State.raiseCause_start (off b n : Nat) : (s.raiseCause off b n).start = s.start := by rw [State.raiseCause_eq]
@[simp] theorem State.raise_dev (n : Nat) : (s.raise n).dev = s.dev := by rw [State.raise_eq]
@[simp] theorem State.raiseCause_dev (off b n : Nat) : (s.raiseCause off b n).dev = s.dev := by rw [State.raiseCause_eq]
@[simp] theorem State.raise_reason (n : Nat) : (s.raise n).reason = s.reason := by rw [State.raise_eq]
@[simp] theorem State.raiseCause_reason (off b n : Nat) : (s.raiseCause off b n).reason = s.reason := by rw [State.raiseCause_eq]
@[simp] theorem State.raise_ws (n : Nat) : (s.raise n).ws = s.ws := by rw [State.raise_eq]
@[simp] theorem State.raiseCause_ws (off b n : Nat) : (s.raiseCause off b n).ws = s.ws := by rw [State.raiseCause_eq]
@[simp] theorem State.raise_stileRegs (n : Nat) : (s.raise n).stileRegs = s.stileRegs := by rw [State.raise_eq]
@[simp] theorem State.raiseCause_stileRegs (off b n : Nat) : (s.raiseCause off b n).stileRegs = s.stileRegs := by rw [State.raiseCause_eq]
@[simp] theorem State.raise_dram (n : Nat) : (s.raise n).dram = s.dram := by rw [State.raise_eq]
@[simp] theorem State.raiseCause_dram (off b n : Nat) : (s.raiseCause off b n).dram = s.dram := by rw [State.raiseCause_eq]
@[simp] theorem State.raise_larkMem (n : Nat) : (s.raise n).larkMem = s.larkMem := by rw [State.raise_eq]
@[simp] theorem State.raiseCause_larkMem (off b n : Nat) : (s.raiseCause off b n).larkMem = s.larkMem := by rw [State.raiseCause_eq]
@[simp] theorem State.raise_flash (n : Nat) : (s.raise n).flash = s.flash := by rw [State.raise_eq]
@[simp] theorem State.raiseCause_flash (off b n : Nat) : (s.raiseCause off b n).flash = s.flash := by rw [State.raiseCause_eq]
@[simp] theorem State.raise_ports (n : Nat) : (s.raise n).ports = s.ports := by rw [State.raise_eq]
@[simp] theorem State.raiseCause_ports (off b n : Nat) : (s.raiseCause off b n).ports = s.ports := by rw [State.raiseCause_eq]
@[simp] theorem State.raise_shadows (n : Nat) : (s.raise n).shadows = s.shadows := by rw [State.raise_eq]
@[simp] theorem State.raiseCause_shadows (off b n : Nat) : (s.raiseCause off b n).shadows = s.shadows := by rw [State.raiseCause_eq]
@[simp] theorem State.raise_heads (n : Nat) : (s.raise n).heads = s.heads := by rw [State.raise_eq]
@[simp] theorem State.raiseCause_heads (off b n : Nat) : (s.raiseCause off b n).heads = s.heads := by rw [State.raiseCause_eq]
@[simp] theorem State.raise_engines (n : Nat) : (s.raise n).engines = s.engines := by rw [State.raise_eq]
@[simp] theorem State.raiseCause_engines (off b n : Nat) : (s.raiseCause off b n).engines = s.engines := by rw [State.raiseCause_eq]
@[simp] theorem State.raise_chans (n : Nat) : (s.raise n).chans = s.chans := by rw [State.raise_eq]
@[simp] theorem State.raiseCause_chans (off b n : Nat) : (s.raiseCause off b n).chans = s.chans := by rw [State.raiseCause_eq]
@[simp] theorem State.raise_clsBytes (n : Nat) : (s.raise n).clsBytes = s.clsBytes := by rw [State.raise_eq]
@[simp] theorem State.raiseCause_clsBytes (off b n : Nat) : (s.raiseCause off b n).clsBytes = s.clsBytes := by rw [State.raiseCause_eq]
@[simp] theorem State.raise_pads (n : Nat) : (s.raise n).pads = s.pads := by rw [State.raise_eq]
@[simp] theorem State.raiseCause_pads (off b n : Nat) : (s.raiseCause off b n).pads = s.pads := by rw [State.raiseCause_eq]
@[simp] theorem State.raise_icp (n : Nat) : (s.raise n).icp = s.icp := by rw [State.raise_eq]
@[simp] theorem State.raiseCause_icp (off b n : Nat) : (s.raiseCause off b n).icp = s.icp := by rw [State.raiseCause_eq]
@[simp] theorem State.raise_icpQueue (n : Nat) : (s.raise n).icpQueue = s.icpQueue := by rw [State.raise_eq]
@[simp] theorem State.raiseCause_icpQueue (off b n : Nat) : (s.raiseCause off b n).icpQueue = s.icpQueue := by rw [State.raiseCause_eq]
@[simp] theorem State.raise_keys (n : Nat) : (s.raise n).keys = s.keys := by rw [State.raise_eq]
@[simp] theorem State.raiseCause_keys (off b n : Nat) : (s.raiseCause off b n).keys = s.keys := by rw [State.raiseCause_eq]
@[simp] theorem State.raise_gcfg (n : Nat) : (s.raise n).gcfg = s.gcfg := by rw [State.raise_eq]
@[simp] theorem State.raiseCause_gcfg (off b n : Nat) : (s.raiseCause off b n).gcfg = s.gcfg := by rw [State.raiseCause_eq]
@[simp] theorem State.raise_gmode (n : Nat) : (s.raise n).gmode = s.gmode := by rw [State.raise_eq]
@[simp] theorem State.raiseCause_gmode (off b n : Nat) : (s.raiseCause off b n).gmode = s.gmode := by rw [State.raiseCause_eq]
@[simp] theorem State.raise_glRound (n : Nat) : (s.raise n).glRound = s.glRound := by rw [State.raise_eq]
@[simp] theorem State.raiseCause_glRound (off b n : Nat) : (s.raiseCause off b n).glRound = s.glRound := by rw [State.raiseCause_eq]
@[simp] theorem State.raise_glRef (n : Nat) : (s.raise n).glRef = s.glRef := by rw [State.raise_eq]
@[simp] theorem State.raiseCause_glRef (off b n : Nat) : (s.raiseCause off b n).glRef = s.glRef := by rw [State.raiseCause_eq]
@[simp] theorem State.raise_upsets (n : Nat) : (s.raise n).upsets = s.upsets := by rw [State.raise_eq]
@[simp] theorem State.raiseCause_upsets (off b n : Nat) : (s.raiseCause off b n).upsets = s.upsets := by rw [State.raiseCause_eq]
@[simp] theorem State.raise_lark (n : Nat) : (s.raise n).lark = s.lark := by rw [State.raise_eq]
@[simp] theorem State.raiseCause_lark (off b n : Nat) : (s.raiseCause off b n).lark = s.lark := by rw [State.raiseCause_eq]
@[simp] theorem State.raise_cores (n : Nat) : (s.raise n).cores = s.cores := by rw [State.raise_eq]
@[simp] theorem State.raiseCause_cores (off b n : Nat) : (s.raiseCause off b n).cores = s.cores := by rw [State.raiseCause_eq]
@[simp] theorem State.raise_mboxes (n : Nat) : (s.raise n).mboxes = s.mboxes := by rw [State.raise_eq]
@[simp] theorem State.raiseCause_mboxes (off b n : Nat) : (s.raiseCause off b n).mboxes = s.mboxes := by rw [State.raiseCause_eq]
@[simp] theorem State.raise_mbOrder (n : Nat) : (s.raise n).mbOrder = s.mbOrder := by rw [State.raise_eq]
@[simp] theorem State.raiseCause_mbOrder (off b n : Nat) : (s.raiseCause off b n).mbOrder = s.mbOrder := by rw [State.raiseCause_eq]
@[simp] theorem State.raise_cae (n : Nat) : (s.raise n).cae = s.cae := by rw [State.raise_eq]
@[simp] theorem State.raiseCause_cae (off b n : Nat) : (s.raiseCause off b n).cae = s.cae := by rw [State.raiseCause_eq]
@[simp] theorem State.raise_repair (n : Nat) : (s.raise n).repair = s.repair := by rw [State.raise_eq]
@[simp] theorem State.raiseCause_repair (off b n : Nat) : (s.raiseCause off b n).repair = s.repair := by rw [State.raiseCause_eq]
@[simp] theorem State.raise_banks (n : Nat) : (s.raise n).banks = s.banks := by rw [State.raise_eq]
@[simp] theorem State.raiseCause_banks (off b n : Nat) : (s.raiseCause off b n).banks = s.banks := by rw [State.raiseCause_eq]
@[simp] theorem State.raise_timers (n : Nat) : (s.raise n).timers = s.timers := by rw [State.raise_eq]
@[simp] theorem State.raiseCause_timers (off b n : Nat) : (s.raiseCause off b n).timers = s.timers := by rw [State.raiseCause_eq]
@[simp] theorem State.raise_links (n : Nat) : (s.raise n).links = s.links := by rw [State.raise_eq]
@[simp] theorem State.raiseCause_links (off b n : Nat) : (s.raiseCause off b n).links = s.links := by rw [State.raiseCause_eq]
@[simp] theorem State.raise_fold (n : Nat) : (s.raise n).fold = s.fold := by rw [State.raise_eq]
@[simp] theorem State.raiseCause_fold (off b n : Nat) : (s.raiseCause off b n).fold = s.fold := by rw [State.raiseCause_eq]
@[simp] theorem State.raise_copies (n : Nat) : (s.raise n).copies = s.copies := by rw [State.raise_eq]
@[simp] theorem State.raiseCause_copies (off b n : Nat) : (s.raiseCause off b n).copies = s.copies := by rw [State.raiseCause_eq]
@[simp] theorem State.raise_pow (n : Nat) : (s.raise n).pow = s.pow := by rw [State.raise_eq]
@[simp] theorem State.raiseCause_pow (off b n : Nat) : (s.raiseCause off b n).pow = s.pow := by rw [State.raiseCause_eq]
@[simp] theorem State.raise_stile (n : Nat) : (s.raise n).stile = s.stile := by rw [State.raise_eq]
@[simp] theorem State.raiseCause_stile (off b n : Nat) : (s.raiseCause off b n).stile = s.stile := by rw [State.raiseCause_eq]
@[simp] theorem State.raise_rdata (n : Nat) : (s.raise n).rdata = s.rdata := by rw [State.raise_eq]
@[simp] theorem State.raiseCause_rdata (off b n : Nat) : (s.raiseCause off b n).rdata = s.rdata := by rw [State.raiseCause_eq]
@[simp] theorem State.raise_rfault (n : Nat) : (s.raise n).rfault = s.rfault := by rw [State.raise_eq]
@[simp] theorem State.raise_cyc (n : Nat) : (s.raise n).cyc = s.cyc := by rw [State.raise_eq]
@[simp] theorem State.raise_cycAt (n : Nat) : (s.raise n).cycAt = s.cycAt := by rw [State.raise_eq]
@[simp] theorem State.raise_gl (n : Nat) : (s.raise n).gl = s.gl := by rw [State.raise_eq]
@[simp] theorem State.raise_beamAt (n : Nat) : (s.raise n).beamAt = s.beamAt := by rw [State.raise_eq]
@[simp] theorem State.raise_prb (n : Nat) : (s.raise n).prb = s.prb := by rw [State.raise_eq]
@[simp] theorem State.raise_drate (n : Nat) : (s.raise n).drate = s.drate := by rw [State.raise_eq]
@[simp] theorem State.raise_dcyc (n : Nat) : (s.raise n).dcyc = s.dcyc := by rw [State.raise_eq]
@[simp] theorem State.raise_dreads (n : Nat) : (s.raise n).dreads = s.dreads := by rw [State.raise_eq]
@[simp] theorem State.raiseCause_rfault (off b n : Nat) : (s.raiseCause off b n).rfault = s.rfault := by rw [State.raiseCause_eq]
@[simp] theorem State.raiseCause_cyc (off b n : Nat) : (s.raiseCause off b n).cyc = s.cyc := by rw [State.raiseCause_eq]
@[simp] theorem State.raiseCause_cycAt (off b n : Nat) : (s.raiseCause off b n).cycAt = s.cycAt := by rw [State.raiseCause_eq]
@[simp] theorem State.raiseCause_gl (off b n : Nat) : (s.raiseCause off b n).gl = s.gl := by rw [State.raiseCause_eq]
@[simp] theorem State.raiseCause_beamAt (off b n : Nat) : (s.raiseCause off b n).beamAt = s.beamAt := by rw [State.raiseCause_eq]
@[simp] theorem State.raiseCause_prb (off b n : Nat) : (s.raiseCause off b n).prb = s.prb := by rw [State.raiseCause_eq]
@[simp] theorem State.raiseCause_drate (off b n : Nat) : (s.raiseCause off b n).drate = s.drate := by rw [State.raiseCause_eq]
@[simp] theorem State.raiseCause_dcyc (off b n : Nat) : (s.raiseCause off b n).dcyc = s.dcyc := by rw [State.raiseCause_eq]
@[simp] theorem State.raiseCause_dreads (off b n : Nat) : (s.raiseCause off b n).dreads = s.dreads := by rw [State.raiseCause_eq]
@[simp] theorem State.raise_rd (n a : Nat) : (s.raise n).rd a = s.rd a := by simp [State.rd]
@[simp] theorem State.raiseCause_rd (off b n a : Nat) : (s.raiseCause off b n).rd a = s.rd a := by simp [State.rd]
@[simp] theorem State.raise_stRd (n a : Nat) : (s.raise n).stRd a = s.stRd a := by simp [State.stRd]
@[simp] theorem State.raiseCause_stRd (off b n a : Nat) : (s.raiseCause off b n).stRd a = s.stRd a := by simp [State.stRd]

@[simp] theorem State.msixRequest_hwRd (n k : Nat) : (s.msixRequest n).hwRd k = s.hwRd k := by
  unfold State.msixRequest; split <;> rfl

/-- The host-window registers after a source is raised: its flag, its count, nothing else. -/
theorem State.raise_hwRd_ne (n : Nat) {k : Nat} (h1 : k ≠ 0x0A0 + 4 * (n / 24)) (h2 : k ≠ 0x0E0 + 4 * (n / 3)) :
    (s.raise n).hwRd k = s.hwRd k := by
  unfold State.raise; dsimp only; split <;> simp [State.hwRd_hwWr, h1, h2]

theorem State.raiseCause_hwRd_ne (off b n : Nat) {k : Nat} (h0 : k ≠ off) (h1 : k ≠ 0x0A0 + 4 * (n / 24))
    (h2 : k ≠ 0x0E0 + 4 * (n / 3)) : (s.raiseCause off b n).hwRd k = s.hwRd k := by
  unfold State.raiseCause; rw [State.raise_hwRd_ne _ n h1 h2, State.hwRd_hwWr_ne _ _ h0]

/-- The flag of a source raised is set (R361). -/
theorem State.raise_evFlag {n : Nat} (h : n < 64) : (s.raise n).evFlag n = true := by
  have hne : 0x0A0 + 4 * (n / 24) ≠ 0x0E0 + 4 * (n / 3) := by omega
  have hm : n % 24 < 24 := Nat.mod_lt _ (by decide)
  unfold State.raise State.evFlag; dsimp only
  split <;> simp [State.hwRd_hwWr, hne, bit_putBit_same _ _ hm]

theorem State.raiseCause_evFlag (off b : Nat) {n : Nat} (h : n < 64) : (s.raiseCause off b n).evFlag n = true :=
  State.raise_evFlag _ h

end Sys2Proof.Machine
end

