-- ==== Sys2Proof/Laws/Ops.lean ====
section
/-! SUPPORT. What the shared operations can do, said once: a gated write, an access fault, a free value, the writes of the
memories; and that each keeps the canonical form of the memories (`Memory.wf`). -/

namespace Sys2Proof.Machine

variable (s : State)

/-! ### Free values -/

@[simp] theorem State.draw_snd : s.draw.2 = { s with freeCtr := s.freeCtr + 1 } := rfl
@[simp] theorem State.drawWords_snd (n : Nat) : (s.drawWords n).2 = { s with freeCtr := s.freeCtr + n } := rfl
theorem State.drawWords_length (n : Nat) : (s.drawWords n).1.length = n := by simp [State.drawWords]

/-! ### Rights -/

/-- A gated write is ignored at a block disabled by fuse, does what it does for a requester with rights, and is an access
fault for any other. -/
theorem State.gated_cases (r : Requester) (a : Nat) (f : State → State) :
    (s.locOff (locOf a) = true ∧ s.gated r a f = s) ∨
    (s.locOff (locOf a) = false ∧ s.mayWrite r (locOf a) = true ∧ s.gated r a f = f { s with rfault := false }) ∨
    (s.locOff (locOf a) = false ∧ s.mayWrite r (locOf a) = false ∧ s.gated r a f = s.accessFault r a) := by
  unfold State.gated
  cases h1 : s.locOff (locOf a) <;> cases h2 : s.mayWrite r (locOf a) <;> simp

theorem State.gated_of_off {r : Requester} {a : Nat} {f : State → State} (h : s.locOff (locOf a) = true) : s.gated r a f = s := by
  simp [State.gated, h]

theorem State.gated_of_may {r : Requester} {a : Nat} {f : State → State} (h1 : s.locOff (locOf a) = false)
    (h2 : s.mayWrite r (locOf a) = true) : s.gated r a f = f { s with rfault := false } := by
  simp [State.gated, h1, h2]

theorem State.gated_of_not {r : Requester} {a : Nat} {f : State → State} (h1 : s.locOff (locOf a) = false)
    (h2 : s.mayWrite r (locOf a) = false) : s.gated r a f = s.accessFault r a := by
  simp [State.gated, h1, h2]

/-- An access fault answers 0 with the fault reported. -/
@[simp] theorem State.accessFault_rfault (r : Requester) (a : Nat) : (s.accessFault r a).rfault = true := by
  cases r with
  | core k c => simp only [State.accessFault]; split <;> simp [State.evWarden, State.inc]
  | debug => rfl
  | host => rfl
  | paddock p => rfl

@[simp] theorem State.accessFault_rdata (r : Requester) (a : Nat) : (s.accessFault r a).rdata = 0 := by
  cases r with
  | core k c => simp only [State.accessFault]; split <;> simp [State.evWarden, State.inc]
  | debug => rfl
  | host => rfl
  | paddock p => rfl

/-- An access fault changes a core's fault count, its context, the Stile's fault bit, the warden event and the answer, and
nothing else. -/
theorem State.accessFault_eq (r : Requester) (a : Nat) : s.accessFault r a =
    { s with
      ws := (s.accessFault r a).ws
      hw := (s.accessFault r a).hw
      pcie := (s.accessFault r a).pcie
      cae := (s.accessFault r a).cae
      stileRegs := (s.accessFault r a).stileRegs
      rdata := 0
      rfault := true } := by
  cases r with
  | core k c =>
    simp only [State.accessFault]
    split
    · rw [State.evWarden, State.raise_eq]; rfl
    · rw [State.evWarden, State.raise_eq]
  | debug => rfl
  | host => rfl
  | paddock p => rfl

/-! ### The canonical form -/

variable {s}

theorem Memory.wf_wr (h : Memory.wf s) (a : Nat) (v : Word) : Memory.wf (s.wr a v) := ⟨spWf_spSet _ _ _ h.1, h.2⟩
theorem Memory.wf_hwWr (h : Memory.wf s) (a : Nat) (v : Word) : Memory.wf (s.hwWr a v) := ⟨h.1, spWf_spSet _ _ _ h.2.1, h.2.2⟩
theorem Memory.wf_stWr (h : Memory.wf s) (a : Nat) (v : Word) : Memory.wf (s.stWr a v) := ⟨h.1, h.2.1, spWf_spSet _ _ _ h.2.2.1, h.2.2.2⟩
theorem Memory.wf_fset (h : Memory.wf s) (a hi lo v : Nat) : Memory.wf (s.fset a hi lo v) := Memory.wf_wr h _ _
theorem Memory.wf_bset (h : Memory.wf s) (a i : Nat) (b : Bool) : Memory.wf (s.bset a i b) := Memory.wf_wr h _ _
theorem Memory.wf_inc (h : Memory.wf s) (a hi lo : Nat) : Memory.wf (s.inc a hi lo) := Memory.wf_wr h _ _
theorem Memory.wf_put (h : Memory.wf s) (a : Nat) (v : Word) : Memory.wf (s.put a v) := Memory.wf_wr h _ _

/-- A state with the same memories and register files is canonical too. -/
theorem Memory.wf_of_eq {t : State} (h : Memory.wf s) (h1 : t.ws = s.ws) (h2 : t.hw = s.hw) (h3 : t.stileRegs = s.stileRegs)
    (h4 : t.dram = s.dram) (h5 : t.larkMem = s.larkMem) (h6 : t.flash = s.flash) (h7 : t.stile.abuf = s.stile.abuf)
    (h8 : ∀ p : Pad, t.pads[p].cfg = s.pads[p].cfg ∧ t.pads[p].bm = s.pads[p].bm) : Memory.wf t := by
  unfold Memory.wf at *
  rw [h1, h2, h3, h4, h5, h6, h7]
  exact ⟨h.1, h.2.1, h.2.2.1, h.2.2.2.1, h.2.2.2.2.1, h.2.2.2.2.2.1, h.2.2.2.2.2.2.1, fun p => by
    rw [(h8 p).1, (h8 p).2]; exact h.2.2.2.2.2.2.2 p⟩

theorem Memory.wf_msixRequest (h : Memory.wf s) (n : Nat) : Memory.wf (s.msixRequest n) := by
  rw [State.msixRequest_eq]; exact h

theorem Memory.wf_raise (h : Memory.wf s) (n : Nat) : Memory.wf (s.raise n) := by
  unfold State.raise
  dsimp only
  split
  · exact Memory.wf_hwWr (Memory.wf_hwWr h _ _) _ _
  · exact Memory.wf_msixRequest (Memory.wf_hwWr (Memory.wf_hwWr h _ _) _ _) _

theorem Memory.wf_raiseCause (h : Memory.wf s) (off b n : Nat) : Memory.wf (s.raiseCause off b n) :=
  Memory.wf_raise (Memory.wf_hwWr h _ _) _

theorem Memory.wf_accessFault (h : Memory.wf s) (r : Requester) (a : Nat) : Memory.wf (s.accessFault r a) := by
  have h0 : Memory.wf { s with rdata := 0, rfault := true } := h
  cases r with
  | core k c =>
    simp only [State.accessFault]
    split
    · exact Memory.wf_raise (Memory.wf_inc h0 _ _ _) _
    · exact Memory.wf_raise (s := { s with
        rdata := 0
        rfault := true
        cae := { s.cae with ctxs := vmod s.cae.ctxs c fun x => { x with st := 4, faultAddr := wd a, faults := x.faults + 1 } } }) h0 _
  | debug => exact Memory.wf_stWr h0 _ _
  | host => exact h0
  | paddock p => exact h0

theorem Memory.wf_gated (h : Memory.wf s) (r : Requester) (a : Nat) (f : State → State) (hf : ∀ t, Memory.wf t → Memory.wf (f t)) :
    Memory.wf (s.gated r a f) := by
  unfold State.gated
  split
  · exact h
  · split
    · exact hf _ h
    · exact Memory.wf_accessFault h _ _

theorem Memory.wf_dram {m : BMem} (h : Memory.wf s) (hm : spWf zeroB m) : Memory.wf { s with dram := m } :=
  ⟨h.1, h.2.1, h.2.2.1, hm, h.2.2.2.2⟩

theorem Memory.wf_larkMem {m : BMem} (h : Memory.wf s) (hm : spWf zeroB m) : Memory.wf { s with larkMem := m } :=
  ⟨h.1, h.2.1, h.2.2.1, h.2.2.2.1, hm, h.2.2.2.2.2⟩

theorem Memory.wf_flash {m : BMem} (h : Memory.wf s) (hm : spWf zeroB m) : Memory.wf { s with flash := m } :=
  ⟨h.1, h.2.1, h.2.2.1, h.2.2.2.1, h.2.2.2.2.1, hm, h.2.2.2.2.2.2⟩

theorem Memory.wf_ws {m : WMem} (h : Memory.wf s) (hm : spWf wsReset m) : Memory.wf { s with ws := m } := ⟨hm, h.2⟩

/-- A fold of steps that each keep the form keeps it. -/
theorem Memory.wf_foldl {α : Type} (f : State → α → State) (hf : ∀ t a, Memory.wf t → Memory.wf (f t a)) (l : List α) :
    ∀ s, Memory.wf s → Memory.wf (l.foldl f s) := by
  induction l with
  | nil => intro s h; exact h
  | cons a l ih => intro s h; exact ih _ (hf s a h)

theorem Memory.wf_formCheck (h : Memory.wf s) (g : Nat) : Memory.wf (s.formCheck g) := by
  unfold State.formCheck
  split
  · exact h
  · exact Memory.wf_dram h (spWf_spSet _ _ _ h.2.2.2.1)

theorem Memory.wf_dramPut (h : Memory.wf s) (a : Nat) (d : List Byte) : Memory.wf (s.dramPut a d) := by
  unfold State.dramPut
  dsimp only
  have h1 : Memory.wf { s with dram := spWrite zeroB s.dram a (d.take (s.dramCap - a)) } :=
    Memory.wf_dram h (spWf_spWrite zeroB _ _ _ h.2.2.2.1)
  split
  · exact h1
  · exact Memory.wf_foldl _ (fun t i ht => Memory.wf_formCheck ht _) _ _ h1

theorem Memory.wf_larkPut (h : Memory.wf s) (a : Nat) (d : List Byte) : Memory.wf (s.larkPut a d) := by
  refine Memory.wf_larkMem h ?_
  have : ∀ (l : List (Byte × Nat)) (m : BMem), spWf zeroB m →
      spWf zeroB (l.foldl (fun m e => spSet zeroB m ((a + e.2) % 2 ^ 20) e.1) m) := by
    intro l
    induction l with
    | nil => intro m h; exact h
    | cons e l ih => intro m h; exact ih _ (spWf_spSet _ _ _ h)
  exact this _ _ h.2.2.2.2.1

/-- The memories of State.reset are canonical: nothing is listed. -/
theorem Memory.wf_reset_ws : spWf wsReset State.reset.ws ∧ spWf zeroB State.reset.dram := ⟨spWf_nil _, spWf_nil _⟩

end Sys2Proof.Machine
end

