-- ==== Sys2Proof/WellFormed.lean ====
section
/-! DEFINITION. Which terms of Instr are commands at all: the bounds that the operand types do not carry. A meaning
does not rely on them; a term outside them is no command of the device. -/

namespace Sys2Proof

/-- A Golmon packet carries 0 to 33 payload blocks (R336). -/
def Packet.wf (p : Packet) : Bool := decide (p.pay.length ≤ 33)

/-- A host-window access is of 1 to 4 bytes within the 4 KiB of BAR0 (R356, R359). -/
def RegTarget.wf : RegTarget → Bool
  | .warden _ _ => true
  | .bar0 off size => decide (1 ≤ size ∧ size ≤ 4 ∧ off.toNat + size ≤ 4096)
  | .msixCtl => true
  | .stile _ => true

/-- A wake by context traffic or by a timer always names an existing source; every term does. -/
def WakeSrc.wf : WakeSrc → Bool
  | _ => true

/-- The bounds of each command's operands. -/
def Instr.wf : Instr → Bool
  /- A write names 1 to 256 bytes, within the 64 GiB that BAR2 and DRAM addresses span (R129, R356). -/
  | .dramWriteRequest _ a d => decide (1 ≤ d.length ∧ d.length ≤ 256 ∧ a.toNat + d.length ≤ 2 ^ 35)
  | .apertureRead off len => decide (1 ≤ len ∧ len ≤ 512 ∧ off.toNat + len ≤ 2 ^ 36)
  | .apertureWrite off d => decide (1 ≤ d.length ∧ d.length ≤ 256 ∧ off.toNat + d.length ≤ 2 ^ 36)
  /- A service trap carries a message of R256: three words and at most 61 arguments. -/
  | .serviceTrap _ _ msg => decide (3 ≤ msg.length ∧ msg.length ≤ 64)
  /- An AUX transfer carries 1 to 16 bytes (R261). -/
  | .auxRead _ d => decide (d.length ≤ 16)
  | .epoch _ p | .tsync _ p | .mbreq _ p | .mbrsp _ p | .cpydata _ p | .cpyack _ p | .strdata _ p | .ack _ p => p.wf
  | .registerWrite t _ | .rcRead t => t.wf
  /- The checker test names each faulty region once (R281). -/
  | .checkerTest bad => decide bad.Nodup
  /- The boundary register covers at least the 288 general pins (R375). -/
  | .samplePreload bits | .extest bits => decide (288 ≤ bits.length)
  /- The low pulse of HPD_RISE is shorter than an unplug (R122). -/
  | .hpdRise _ lowUs => decide (lowUs < 2000)
  /- Frames of a paddock are numbered 0 to 799 (R184). -/
  | .rewrite _ _ f | .read _ _ f => decide (f.toNat < 800)
  | _ => true

end Sys2Proof
end

