-- ==== Sys2Proof/Tests/Slice0.lean ====
section
/-! SUPPORT. Tests: ill-formed terms, steps whose results the manual states, and for each statement that has hypotheses a
state and operands that meet them (a theorem witness_<name of the statement>, its parts in the order of the statement's
clauses, at boundary values where a clause has a range). -/

namespace Sys2Proof.Tests

-- Each kernel evaluation below waits for the declarations before it: one after the other, so that no thread waits.
set_option Elab.async false

open Sys2Proof.Machine Sys2Proof.Safety

/-! ### Ill-formed terms are refused -/

/-- A byte list of n zeros. -/
def zeros (n : Nat) : List Byte := List.replicate n 0

/-- A packet with n payload blocks. -/
def packetOf (n : Nat) : Packet := { hdr := 0, pay := List.replicate n 0, tail := 0 }

theorem test_wf_dramWriteRequest : Instr.wf (.dramWriteRequest .host 0 (zeros 257)) = false ∧ Instr.wf (.dramWriteRequest .host 0 []) = false := by decide +kernel
theorem test_wf_apertureRead : Instr.wf (.apertureRead 0 513) = false ∧ Instr.wf (.apertureRead 0 0) = false := by decide +kernel
theorem test_wf_apertureWrite : Instr.wf (.apertureWrite 0xFFFFFFFFF (zeros 2)) = false := by decide +kernel
theorem test_wf_serviceTrap : Instr.wf (.serviceTrap 0 1 [0, 0]) = false ∧ Instr.wf (.serviceTrap 0 1 (List.replicate 65 0)) = false := by decide +kernel
theorem test_wf_auxRead : Instr.wf (.auxRead 0 (zeros 17)) = false := by decide +kernel
theorem test_wf_packets : Instr.wf (.epoch 0 (packetOf 34)) = false ∧ Instr.wf (.mbreq 1 (packetOf 34)) = false ∧ Instr.wf (.cpydata 2 (packetOf 34)) = false ∧
    Instr.wf (.ack 3 (packetOf 33)) = true := by decide +kernel
theorem test_wf_registerWrite : Instr.wf (.registerWrite (.bar0 0xFFD 4) 0) = false ∧ Instr.wf (.rcRead (.bar0 0 0)) = false ∧ Instr.wf (.rcRead (.bar0 0xFFC 4)) = true := by decide +kernel
theorem test_wf_checkerTest : Instr.wf (.checkerTest [3, 3]) = false := by decide +kernel
theorem test_wf_boundary : Instr.wf (.extest []) = false ∧ Instr.wf (.samplePreload []) = false := by decide +kernel
theorem test_wf_hpdRise : Instr.wf (.hpdRise 0 2000) = false ∧ Instr.wf (.hpdRise 0 1999) = true := by decide +kernel
theorem test_wf_frames : Instr.wf (.rewrite .host 0 800) = false ∧ Instr.wf (.read .host 0 799) = true := by decide +kernel

/-! ### Steps -/

/-- A field of the state that a command leaves, or d where it stops. -/
def after {α : Type} (c : Instr) (s : State) (f : State → α) (d : α) : α := match exec c s with | .next t => f t | _ => d

/-- The state after reset with words of the warden space set. -/
def at_ (l : List (Nat × Nat)) : State := l.foldl (fun s e => s.wr e.1 (wd e.2)) State.reset

/-- No word of the table spells a command: its rows give no bits. -/
theorem test_decode : Sys2Proof.decodeTableWord 24 0 = none ∧ (State.reset.withFetchWord 24 0).pending = [] := by decide +kernel
/-- 15_host_events_power.md: the full read of HWID of stepping A1. -/
theorem test_hwid : after (.rcRead (.bar0 0 4)) State.reset (·.pcie.rdata) [] = [0x11, 0x08, 0x24, 0x45] := by decide +kernel
/-- 15_host_events_power.md: 0x5B800000 enables checked writes; 0x67400000 then asks for Dim; damaged, it is refused. -/
theorem test_chkw : after (.registerWrite (.bar0 4 4) 0x5B800000) State.reset (fun t => after (.registerWrite (.bar0 0x10 4) 0x66400000) t
    (fun u => (fld (u.hwRd 0x00C) 23 16, u.evFlag 43)) (0, false)) (0, false) = (1, true) := by decide +kernel
/-- R374. -/
theorem test_idcode : after .idcode State.reset State.scanOut 0 = 0x124085CB := by decide +kernel
theorem test_idcode_2404 : after .idcode { State.reset with fuses := { State.reset.fuses with is2404 := true } } State.scanOut 0 = 0x124045CB := by decide +kernel
/-- R358: the check value over the nine digits. -/
theorem test_crc8 : crc8 [0x31, 0x32, 0x33, 0x34, 0x35, 0x36, 0x37, 0x38, 0x39] = 0xDF := by decide +kernel
/-- R310, with bit 23 and bit 0. -/
theorem test_otgl : after (.otgl (.core 0 0) 0 0x800001) (at_ [(aBank 0 1, 0x000001)]) (·.rd (aBank 0 1)) 0 = 0x800000 := by decide +kernel
/-- R324: a count at TOP wraps. -/
theorem test_tick_wraps : after (.timerStart (.core 0 0) 1) (at_ [(aTimer 0 3, 5), (aTimer 0 2, 5)]) (fun t => t.tRun 0) false = true := by decide +kernel
/-- 16_debug_test.md: a write of the virtual terminal sets INF. -/
theorem test_vtin : after (.vtinWrite 0x123456) (State.reset.stWr 1 0x200000) (fun t => (t.stRd 0x1A, t.stile.vtin)) (0, 0) = (0x800000, 0x123456) := by decide +kernel

/-! ### Witnesses -/

theorem witness_StepRunsFrontCommand : ∃ (c : Instr) (rest : List Instr) (s : State), ({ s with pending := c :: rest } : State).pending ≠ [] := ⟨.bypass, [], State.reset, by simp⟩

/-- B0 at LEVEL 1 with its supply sensed. -/
def bankOn : State := State.modBank (at_ [(aBank 0 0, 0x130000)]) 0 fun x => { x with level := 1 }

theorem witness_PinsAndConfiguration :
    (∃ (s : State) (r first : Requester), s.cycNow = [] ∧ rankOf first < rankOf r ∧ whoOf first ≠ whoOf r) ∧
    (∃ (s : State) (b : Bank), s.banks[b].level ≠ 0 ∧ s.banks[b].level ≠ 7 ∧ s.banks[b].level ≠ 8) ∧
    (∃ (s : State) (r : Requester) (b : Bank) (n : PinNo) (v : Word), s.ownsPin r b.val n.val = true ∧
      (selValid (fld v 15 12) (fld v 11 7) && s.funcAllowed r (fld v 15 12) (fld v 11 7)) = true ∧
      (fld v 15 12 = 1 → fld (s.rd (aBank b.val (0x10 + n.val))) 15 12 = 1)) ∧
    (∃ (s : State) (r : Requester) (b : Bank) (n : PinNo), s.ownsPin r b.val n.val = false) ∧
    (∃ (s : State) (r : Requester) (b : Bank) (n : PinNo) (v : Word), s.ownsPin r b.val n.val = true ∧
      (selValid (fld v 15 12) (fld v 11 7) && s.funcAllowed r (fld v 15 12) (fld v 11 7)) = false) ∧
    (∃ (s : State) (r : Requester) (b : Bank) (n : PinNo) (v : Word), s.ownsPin r b.val n.val = true ∧
      (selValid (fld v 15 12) (fld v 11 7) && s.funcAllowed r (fld v 15 12) (fld v 11 7)) = true ∧ fld v 15 12 = 1 ∧
      fld (s.rd (aBank b.val (0x10 + n.val))) 15 12 ≠ 1) :=
  ⟨⟨State.reset, .debug, .core 1 0, by decide +kernel⟩, ⟨bankOn, 0, by decide +kernel⟩, ⟨bankOn, .core 0 0, 11, 23, 0x007780, by decide +kernel⟩, ⟨bankOn, .paddock 15, 0, 0, by decide +kernel⟩,
    ⟨bankOn, .host, 0, 0, 0x001000, by decide +kernel⟩, ⟨bankOn, .core 1 0, 0, 0, 0x001000, by decide +kernel⟩⟩

theorem witness_BankSupply :
    (∃ (s : State) (b : Bank), s.bget (aBank b.val 0) 16 = true ∧ s.fget (aBank b.val 0) 23 20 ≠ 0) ∧
    (∃ (s : State) (b : Bank), s.bget (aBank b.val 0) 16 = true ∧ s.fget (aBank b.val 0) 23 20 = 0) :=
  ⟨⟨bankOn, 0, by decide +kernel⟩, ⟨at_ [(aBank 11 0, 0x010000)], 11, by decide +kernel⟩⟩

theorem witness_BankcfgAndHold :
    (∃ (s : State) (r : Requester) (b : Bank) (v : Word), s.mayWrite r (locOf (aBank b.val 0)) = true ∧ bit v 12 = false ∧
      levelSuits (fld v 23 20) (s.fget (aBank b.val 0) 19 17) = true) ∧
    (∃ (s : State) (r : Requester) (b : Bank) (v : Word), s.mayWrite r (locOf (aBank b.val 0)) = true ∧ bit v 12 = false ∧
      levelSuits (fld v 23 20) (s.fget (aBank b.val 0) 19 17) = false) ∧
    (∃ (s : State) (r : Requester) (b : Bank), s.mayWrite r (locOf (aBank b.val 0)) = true ∧ s.bget (aBank b.val 0) 13 = true) ∧
    (∃ (s : State) (r : Requester) (b : Bank), s.mayWrite r (locOf (aBank b.val 0)) = true ∧ s.bget (aBank b.val 0) 13 = false) :=
  ⟨⟨bankOn, .host, 0, 0, by decide +kernel⟩, ⟨State.reset, .core 0 0, 11, 0xF00000, by decide +kernel⟩,
    ⟨at_ [(aBank 3 0, 0x002000)], .host, 3, by decide +kernel⟩, ⟨bankOn, .core 1 0, 0, by decide +kernel⟩⟩

/-- B2 at a level, with pin 23 driven. -/
def driven (l : Fin 10) : State := { State.reset with banks := State.reset.banks.set 2 { State.reset.banks[2] with oe := 0x800000, level := l } }

theorem witness_ContentionAndProbe :
    (∃ (s : State) (b : Bank) (n : PinNo), bit s.banks[b].oe n.val = true ∧ s.banks[b].level = 1) ∧
    (∃ (s : State) (b : Bank) (n : PinNo), bit s.banks[b].oe n.val = true ∧ s.banks[b].level = 7 ∧ n = 23) ∧
    (∃ (s : State) (r : Requester) (b : Bank), s.mayWrite r (locOf (aBank b.val 8)) = true ∧ s.bget (aBank b.val 8) 22 = false) ∧
    (∃ (s : State) (r : Requester) (b : Bank), s.mayWrite r (locOf (aBank b.val 8)) = true ∧ s.bget (aBank b.val 8) 22 = true) :=
  ⟨⟨driven 1, 2, 23, by decide +kernel⟩, ⟨driven 7, 2, 23, by decide +kernel⟩, ⟨State.reset, .core 0 0, 0, by decide +kernel⟩, ⟨at_ [(aBank 11 8, 0x400000)], .core 0 0, 11, by decide +kernel⟩⟩

theorem witness_TimerControls :
    ∃ (s : State) (r : Requester) (mask : BitVec 16), s.cycNow = [] ∧ mask = 0xFFFF ∧ ∀ t : Tmr, mask.getLsbD t.val = true → s.right r 4 t.val = true :=
  ⟨State.reset, .host, 0xFFFF, by decide +kernel⟩

/-- T15 runs from SCLK, with a count below TOP. -/
def timerOn : State := at_ [(aTimer 15 0, 0x800000), (aTimer 15 3, 9)]

theorem witness_TimerCounting :
    (∃ (s : State) (t : Tmr), s.tRun t = true ∧ s.tHeld t = false ∧ s.chainedOdd t = false ∧ s.chainedEven t = false ∧ s.srcLive t = true ∧ s.tCnt t < s.tTop t) ∧
    (∃ (s : State) (t : Tmr), s.tRun t = true ∧ s.tHeld t = false ∧ s.chainedOdd t = false ∧ s.chainedEven t = false ∧ s.srcLive t = true ∧ s.tTop t ≤ s.tCnt t) ∧
    (∃ (s : State) (t : Tmr), s.capLive t = true ∧ s.tHeld t = false) ∧
    (∃ (s : State) (t : Tmr) (r : Requester), s.mayRead r (locOf (aTimer t.val 6)) = true) :=
  ⟨⟨timerOn, 15, by decide +kernel⟩, ⟨timerOn.wr (aTimer 15 2) 9, 15, by decide +kernel⟩, ⟨at_ [(aTimer 0 0, 0x000800), (aHead 0 1, 0x800000)], 0, by decide +kernel⟩, ⟨timerOn, 15, .host, by decide +kernel⟩⟩

/-- T0 and T1 chained. -/
def chained : State := at_ [(aTimer 1 0, 0x010000)]

theorem witness_TimerReads :
    (∃ (s : State) (r : Requester) (t : Tmr), s.chainedEven t = true ∧ s.mayRead r (locOf (aTimer t.val 2)) = true ∧ s.mayRead r (locOf (aTimer (upper t).val 2)) = true) ∧
    (∃ (s : State) (t : Tmr), s.tRun t = true ∧ s.tHeld t = true ∧ s.bget (aTimer t.val 0) 12 = true ∧ s.chainedOdd t = false ∧ s.chainedEven t = false) :=
  ⟨⟨chained, .host, 0, by decide +kernel⟩, ⟨{ (at_ [(aTimer 15 0, 0x801000)]) with pow := { State.reset.pow with st := .rest } }, 15, by decide +kernel⟩⟩

/-- Head h runs a raster of 64 quads and 32 lines, 16 by 16 of them active, at a position. -/
def beamAt (h line quad : Nat) : State := State.modHead (at_ [(aHead h 0, 0x800000), (aHead h 1, 0x800000), (aHead h 2, 0x040010), (aHead h 3, 0x014004), (aHead h 4, 0x020010),
  (aHead h 5, 0x012002), (aHead h 6, 0x640800), (aHead h 9, 4096 * line + quad)]) (Fin.ofNat 8 h) fun x => { x with phase := .running }

/-- The same head, stopped. -/
def beamOff (h : Nat) : State := State.modHead (at_ [(aHead h 2, 0x040010), (aHead h 3, 0x014004), (aHead h 4, 0x020010), (aHead h 5, 0x012002), (aHead h 6, 0x640800)])
  (Fin.ofNat 8 h) fun x => { x with phase := .stopped }

theorem witness_BeamPosition :
    (∃ (s : State) (h : Head), s.running h.val = true ∧ s.followsExactly h = false ∧ s.beamHeld h = false ∧ s.posQuad h.val + 1 = (s.raster h.val).htotal ∧
      s.posLine h.val + 1 = (s.raster h.val).vtotal ∧ ∃ g : Head, g ≠ h ∧ s.syncMode g.val = 0) ∧
    (let free := fun (s : State) (h : Head) (b : Nat) => s.running h.val && !s.heads[h].strobed.getLsbD b
     (∃ (s : State) (h : Head), (free s h 0 && (s.posQuad h.val == 0)) = true) ∧
     (∃ (s : State) (h : Head), (free s h 1 && (s.posLine h.val == 0 && s.posQuad h.val == 0)) = true) ∧
     (∃ (s : State) (h : Head), (free s h 1 && (s.posLine h.val == 0 && s.posQuad h.val == 0)) = false) ∧
     (∃ (s : State) (h : Head), (free s h 2 && (s.posQuad h.val == (s.raster h.val).hact)) = true) ∧
     (∃ (s : State) (h : Head), (free s h 3 && (s.posLine h.val == (s.raster h.val).vact && s.posQuad h.val == 0)) = true) ∧
     (∃ (s : State) (h : Head), (free s h 4 && (s.posQuad h.val == (s.raster h.val).hss)) = true) ∧
     (∃ (s : State) (h : Head), (free s h 5 && (s.posLine h.val == (s.raster h.val).vss && s.posQuad h.val == (s.raster h.val).hss)) = true)) :=
  ⟨⟨beamAt 7 31 63, 7, by decide +kernel⟩, ⟨beamAt 7 31 0, 7, by decide +kernel⟩, ⟨beamAt 0 0 0, 0, by decide +kernel⟩, ⟨beamAt 7 0 1, 7, by decide +kernel⟩,
    ⟨beamAt 7 0 16, 7, by decide +kernel⟩, ⟨beamAt 7 16 0, 7, by decide +kernel⟩, ⟨beamAt 3 31 20, 3, by decide +kernel⟩, ⟨beamAt 0 18 20, 0, by decide +kernel⟩⟩

theorem witness_FrameEpochAndRecord :
    (∀ b ∈ [Begun.start, Begun.flow], ∃ (s : State) (h : Head), s.running h.val = true ∧ s.heads[h].strobed.getLsbD 1 = false ∧ s.posLine h.val = 0 ∧ s.posQuad h.val = 0 ∧
      s.syncMode h.val = 0 ∧ s.heads[h].phase ≠ .stopping ∧ s.heads[h].begun = b) ∧
    (∃ (s : State) (h : Head), s.running h.val = true ∧ s.heads[h].strobed.getLsbD 3 = false ∧ s.posLine h.val = (s.raster h.val).vact ∧ s.posQuad h.val = 0 ∧
      s.heads[h].sig.isOpen = true) :=
  ⟨List.forall_mem_cons.2 ⟨⟨(beamAt 7 0 0).modHead 7 fun x => { x with begun := .start }, 7, by decide +kernel⟩,
      List.forall_mem_cons.2 ⟨⟨(beamAt 7 0 0).modHead 7 fun x => { x with begun := .flow }, 7, by decide +kernel⟩, nofun⟩⟩,
    ⟨(beamAt 0 16 0).modHead 0 fun x => { x with sig := { x.sig with isOpen := true } }, 0, by decide +kernel⟩⟩

theorem witness_HeadControl :
    (∃ (s : State) (h : Head), s.headOff h.val = false ∧ s.fuses.flock = true ∧ s.bget (aHead h.val 0) 23 = false ∧ s.heads[h].phase = .stopped ∧ s.startCode h.val = 0 ∧
      (s.heads[h].queue.filter fun e => !(decide (e.line < (s.raster h.val).vtotal) && decide (e.quad < (s.raster h.val).htotal))) ≠ []) ∧
    (∃ (s : State) (h : Head), s.headOff h.val = false ∧ s.fuses.flock = true ∧ s.bget (aHead h.val 0) 23 = false ∧ s.heads[h].phase = .stopped ∧ s.startCode h.val ≠ 0) ∧
    (∃ (s : State) (h : Head), s.headOff h.val = true) ∧ (∃ (s : State) (h : Head), s.bget (aHead h.val 0) 23 = false) ∧
    (∃ (s : State) (h : Head), s.bget (aHead h.val 0) 23 = true ∧ s.heads[h].phase = .running ∧ s.rotStep = 0) ∧
    (∃ (s : State) (h : Head), s.heads[h].phase = .stopping ∧ s.posQuad h.val + 1 = (s.raster h.val).htotal) ∧
    (∃ (s : State) (h : Head), s.heads[h].phase = .stopping ∧ s.posQuad h.val + 1 ≠ (s.raster h.val).htotal) :=
  ⟨⟨(beamOff 7).modHead 7 fun x => { x with queue := [{ idx := 0, gen := 0, w0 := 0x020000, w1 := 0, w2 := 1, w3 := 2, req := .host }] }, 7, by decide +kernel⟩,
    ⟨State.reset, 0, by decide +kernel⟩, ⟨{ State.reset with fuses := { State.reset.fuses with is2404 := true } }, 4, by decide +kernel⟩, ⟨State.reset, 0, by decide +kernel⟩,
    ⟨beamAt 0 3 5, 0, by decide +kernel⟩, ⟨State.modHead (at_ [(aHead 7 9, 0x00303F)]) 7 fun x => { x with phase := .stopping, held := #v[0, 0, 0x040010, 0, 0x020010, 0, 0, 0, 0] }, 7, by decide +kernel⟩,
    ⟨State.modHead (at_ [(aHead 7 9, 0x00303E)]) 7 fun x => { x with phase := .stopping, held := #v[0, 0, 0x040010, 0, 0x020010, 0, 0, 0, 0] }, 7, by decide +kernel⟩⟩

/-- Head h runs, genlocked to the pin (src 0) or the fold (src 1). -/
def genlockedAt (h src : Nat) : State := (beamAt h 3 5).wr (aHead h 0) (wd (0xB00000 + 0x10000 * src))

/-- A fold epoch whose T has come. -/
def foldAt (s : State) : State := { s with fold := { s.fold with has := true, epoch := 5, at48 := 10, time := 10 } }

theorem witness_HeadReferences :
    (∃ (s : State) (h : Head), s.heads[h].phase = .starting ∧ s.syncMode h.val ≠ 1) ∧ (∃ (s : State) (h : Head), s.running h.val = true) ∧
    (∃ (s : State) (h : Head), s.running h.val = true ∧ s.syncMode h.val = 3 ∧ s.heads[h].sinceRef = none) ∧
    (∃ (s : State) (g f : Head), s.genlocked g false = true ∧ s.heads[g].snapDue = true ∧ s.genlocked f false = false) ∧
    (∃ s : State, s.foldDue = false) ∧ (∃ (s : State) (g f : Head), s.foldDue = true ∧ (s.bget (aFold 2) 23 && s.genlocked g true) = true ∧ s.genlocked f true = false) ∧
    (∃ (s : State) (h : Head), (s.heads[h].phase == .running && s.stile.haltHead.getLsbD h.val && s.lineEnd h) = true ∧ s.heads[h].dueRender ≠ []) ∧
    (∃ (s : State) (h : Head), (s.heads[h].phase == .running && s.stile.haltHead.getLsbD h.val && s.lineEnd h) = true ∧ s.heads[h].dueRender = []) ∧
    (∃ (s : State) (h : Head), (s.heads[h].phase == .running && s.stile.haltHead.getLsbD h.val && s.lineEnd h) = false) :=
  ⟨⟨(beamOff 0).modHead 0 fun x => { x with phase := .starting }, 0, by decide +kernel⟩, ⟨beamAt 7 0 0, 7, by decide +kernel⟩, ⟨genlockedAt 7 0, 7, by decide +kernel⟩,
    ⟨(genlockedAt 0 0).modHead 0 fun x => { x with snapDue := true }, 0, 7, by decide +kernel⟩, ⟨State.reset, by decide +kernel⟩,
    ⟨foldAt ((genlockedAt 7 1).wr (aFold 2) 0x800000), 7, 0, by decide +kernel⟩,
    ⟨{ ((beamAt 7 3 63).modHead 7 fun x => { x with dueRender := [0] }) with stile := { State.reset.stile with haltHead := 0x80 } }, 7, by decide +kernel⟩,
    ⟨{ beamAt 7 3 63 with stile := { State.reset.stile with haltHead := 0x80 } }, 7, by decide +kernel⟩, ⟨beamAt 7 3 63, 7, by decide +kernel⟩⟩

/-- A MARK entry for line 31, quad 63, in every frame or the next, posted by Caeruno on W0. -/
def markEntry : QEntry := { idx := 0, gen := 0, w0 := 0x01F03F, w1 := 0, w2 := 1, w3 := 2, req := .core 0 0 }

/-- A queue of n entries. -/
def queueOf (n : Nat) : List QEntry := (List.range n).map fun i => { markEntry with idx := i }

/-- The code that R42 to R44 give a post through port i. -/
def codeOf (s : State) (r : Requester) (i : Fin 3) (v : Word) : Nat :=
  let p := s.ports[i]
  let h : Head := p.hd
  let e0 : QEntry := { idx := 0, gen := 0, w0 := p.w0, w1 := p.w1, w2 := p.w2, w3 := v, req := r }
  if badType e0 then 3 else if s.headOff h.val then 5 else if s.badPos h.val e0 then 4
    else if !s.actionRight h.val e0 then 5 else if 1024 ≤ s.heads[h].queue.length then 1
    else if e0.tb && decide (256 ≤ (s.heads[h].queue.filter fun x => x.tb && x.line == e0.line && x.fmode == e0.fmode).length) then 2 else 0

/-- Head 7 running, its queue q, each port set for an entry of it with the words w0, w1 and w2. -/
def portSet (q : List QEntry) (w0 w1 w2 : Nat) : State := { (beamAt 7 3 5).modHead 7 fun x => { x with queue := q } with
  ports := Vector.replicate 3 { head := 7, w0 := wd w0, w1 := wd w1, w2 := wd w2, w3 := 0, status := 0 } }

/-- n render-aligned writes of line 31. -/
def renderQueue (n : Nat) : List QEntry := (queueOf n).map fun e => { e with w0 := 0x01F000, w1 := 0x180000, w2 := wd (aDesc 7 7 15) }

theorem witness_QueueCommands :
    (∀ c ∈ [0, 1, 2, 3, 4, 5], ∃ (s : State) (r : Requester) (i : Fin 3) (v : Word), portOf r = some i ∧ codeOf s r i v = c) ∧
    (∀ late ∈ [true, false], ∃ (s : State) (r : Requester) (i : Fin 3) (v : Word), portOf r = some i ∧ codeOf s r i v = 0 ∧ s.running s.ports[i].hd.val = true ∧
      s.epochLate s.ports[i].hd true { idx := 0, gen := 0, w0 := s.ports[i].w0, w1 := s.ports[i].w1, w2 := s.ports[i].w2, w3 := v, req := r } = late) ∧
    (let hit := fun (s : State) (i : Fin 3) (v : Word) => s.heads[s.ports[i].hd].queue.find? fun e => e.idx == fld v 9 0 && e.gen == fld v 17 10
     (∃ (s : State) (r : Requester) (i : Fin 3) (v : Word), portOf r = some i ∧ fld v 20 18 = s.ports[i].hd.val ∧ ∃ e ∈ hit s i v, s.actionRight s.ports[i].hd.val { e with req := r } = true) ∧
     (∃ (s : State) (r : Requester) (i : Fin 3) (v : Word), portOf r = some i ∧ fld v 20 18 = s.ports[i].hd.val ∧ ∃ e ∈ hit s i v, s.actionRight s.ports[i].hd.val { e with req := r } = false) ∧
     (∃ (s : State) (r : Requester) (i : Fin 3) (v : Word), portOf r = some i ∧ fld v 20 18 ≠ s.ports[i].hd.val ∧ (hit s i v).isSome = true)) :=
  ⟨List.forall_mem_cons.2 ⟨⟨portSet (renderQueue 255) 0x01F000 0x180000 (aDesc 7 7 15), .core 0 0, 0, 2, by decide +kernel⟩,
      List.forall_mem_cons.2 ⟨⟨portSet (queueOf 1024) 0x01F03F 0 1, .core 1 0, 1, 2, by decide +kernel⟩,
      List.forall_mem_cons.2 ⟨⟨portSet (renderQueue 256) 0x01F000 0x180000 (aDesc 7 7 15), .core 0 0, 0, 2, by decide +kernel⟩,
      List.forall_mem_cons.2 ⟨⟨portSet [] 0x01F03F 0x200000 256, .core 0 0, 0, 0, by decide +kernel⟩,
      List.forall_mem_cons.2 ⟨⟨portSet [] 0x020000 0 1, .core 0 0, 0, 2, by decide +kernel⟩,
      List.forall_mem_cons.2 ⟨⟨portSet [] 0x01F03F 0 1, .debug, 2, 0, by decide +kernel⟩, nofun⟩⟩⟩⟩⟩⟩,
    List.forall_mem_cons.2 ⟨⟨portSet [] 0x003005 0x020000 1, .core 0 0, 0, 2, by decide +kernel⟩,
      List.forall_mem_cons.2 ⟨⟨portSet [] 0x003006 0x020000 1, .core 0 0, 0, 2, by decide +kernel⟩, nofun⟩⟩,
    ⟨portSet (queueOf 3) 0 0 0, .core 0 0, 0, 0x1C0002, by decide +kernel⟩, ⟨portSet (queueOf 3) 0 0 0, .debug, 2, 0x1C0002, by decide +kernel⟩,
    ⟨portSet (queueOf 3) 0 0 0, .core 0 0, 0, 0x180002, by decide +kernel⟩⟩

/-- P15 clocked, its port sinks 0 to 46 fed by the words of a list. -/
def padOn (l : List (Nat × Nat)) : State := State.modPad (at_ [(aPad 15 1, 0x800000), (aPad 15 0, 0x800000)]) 15 fun x =>
  { x with cfg := (List.range 47).map (fun i => (96 * 796 + i, wd (0x401 + i))), src := l.map fun e => (0x401 + e.1, wd e.2) }

theorem witness_PaddockQueuePort :
    (∃ (s : State) (p : Pad), (s.clocked p.val && bit (s.portSink p.val 4) 23 && !bit (s.portSink p.val 4) 22 && s.pads[p].post.isNone) = true) ∧
    (∃ (s : State) (p : Pad), (s.clocked p.val && bit (s.portSink p.val 4) 22 && !bit (s.portSink p.val 4) 23 && s.pads[p].post.isNone) = true) ∧
    (∃ (s : State) (p : Pad), (s.clocked p.val && bit (s.portSink p.val 4) 23 && !bit (s.portSink p.val 4) 22 && s.pads[p].post.isNone) = false) :=
  ⟨⟨padOn [(4, 0x800007)], 15, by decide +kernel⟩, ⟨padOn [(4, 0x400000)], 15, by decide +kernel⟩, ⟨padOn [(4, 0xC00000)], 15, by decide +kernel⟩⟩

/-- An entry of head 7 by Caeruno that is next to issue. -/
def dueEntry (w1 w2 w3 : Nat) : State := (beamAt 7 31 63).modHead 7 fun x => { x with queue := [{ markEntry with w1 := wd w1, w2 := wd w2, w3 := wd w3 }], dueBeam := [0] }

/-- Its entry is next, sound, of type n, and permitted. -/
def dueOf (s : State) (h : Head) (e : QEntry) (n : Nat) : Bool :=
  s.nextDue h == some e && ((List.range 4).all fun w => (s.badAt 22 (queueWord h.val e.idx w)).isNone) && e.type == n && s.actionRight h.val e

/-- The entry that dueEntry makes. -/
def entryOf (w1 w2 w3 : Nat) : QEntry := { markEntry with w1 := wd w1, w2 := wd w2, w3 := wd w3 }

theorem witness_QueueActions :
    (∃ (s : State) (h : Head) (e : QEntry), s.nextDue h = some e ∧ (∀ w < 4, s.badAt 22 (queueWord h.val e.idx w) = none) ∧ e.type < 8 ∧ s.actionRight h.val e = false) ∧
    (∃ (s : State) (h : Head) (e : QEntry), dueOf s h e 0 = true) ∧
    (∃ (s : State) (h : Head) (e : QEntry), dueOf s h e 1 = true ∧ plainTarget (locOf e.w2.toNat) = true ∧ NoFlips s ∧ ∃ x ∈ s.cycNow, x.key = e.w2.toNat ∧ x.rank = h.val + 1) ∧
    (∃ (s : State) (h : Head) (e : QEntry), dueOf s h e 1 = true ∧ plainTarget (locOf e.w2.toNat) = true ∧ ∃ x ∈ s.cycNow, LaterWrite s (32 + h.val) (h.val + 1) e.w2.toNat x) ∧
    (∃ (s : State) (h : Head) (e : QEntry), dueOf s h e 2 = true) ∧
    (∃ (s : State) (h : Head) (e : QEntry), dueOf s h e 3 = true ∧ e.w3.toNat < 3 ∧ s.cycNow = []) ∧ (∃ (s : State) (h : Head) (e : QEntry), dueOf s h e 4 = true ∧ e.w3.toNat < 3 ∧ s.cycNow = []) ∧
    (∃ (s : State) (h : Head) (e : QEntry), dueOf s h e 5 = true ∧ e.w3.toNat < 3 ∧ s.cycNow = []) ∧ (∃ (s : State) (h : Head) (e : QEntry), dueOf s h e 6 = true ∧ s.cycNow = []) ∧
    (∃ (s : State) (h : Head) (e : QEntry), dueOf s h e 7 = true ∧ s.cycNow = [] ∧ s.swapping (fld e.w2 3 0) = false ∧ s.imageFor (fld e.w3 5 0) (fld e.w2 3 0) = true) ∧
    (∃ (s : State) (h : Head) (e : QEntry), dueOf s h e 7 = true ∧ s.cycNow = [] ∧ s.imageFor (fld e.w3 5 0) (fld e.w2 3 0) = false) :=
  let wrote := fun (s : State) (x : CycWrite) => { s with cyc := [x], cycAt := s.cycStamp }
  ⟨⟨(dueEntry 0 0 0).modHead 7 fun x => { x with queue := [{ markEntry with req := .paddock 3 }] }, 7, { markEntry with req := .paddock 3 }, by decide +kernel⟩,
    ⟨dueEntry 0 1 2, 7, entryOf 0 1 2, by decide +kernel⟩,
    ⟨wrote (dueEntry 0x140000 (aDesc 7 7 15) 2) ⟨8, 0, aDesc 7 7 15, 9⟩, 7, entryOf 0x140000 (aDesc 7 7 15) 2, by unfold NoFlips; decide +kernel⟩,
    ⟨wrote (dueEntry 0x140000 (aDesc 7 7 15) 2) ⟨9, 0, aDesc 7 7 15, 9⟩, 7, entryOf 0x140000 (aDesc 7 7 15) 2, by unfold LaterWrite; decide +kernel⟩,
    ⟨dueEntry 0x240000 0xF0 0, 7, entryOf 0x240000 0xF0 0, by decide +kernel⟩, ⟨dueEntry 0x300000 255 2, 7, entryOf 0x300000 255 2, by decide +kernel⟩,
    ⟨dueEntry 0x400000 15 2, 7, entryOf 0x400000 15 2, by decide +kernel⟩, ⟨dueEntry 0x500000 0xB17 2, 7, entryOf 0x500000 0xB17 2, by decide +kernel⟩,
    ⟨dueEntry 0x600000 0xFF 5, 7, entryOf 0x600000 0xFF 5, by decide +kernel⟩,
    ⟨(dueEntry 0x700000 15 63).wr (aImage 63 0) 0xF80000, 7, entryOf 0x700000 15 63, by decide +kernel⟩, ⟨dueEntry 0x700000 15 63, 7, entryOf 0x700000 15 63, by decide +kernel⟩⟩

theorem witness_LayerAndTapRegisters :
    (∃ (s : State) (r : Requester) (h : Head) (n : Slot) (v : Word), s.headOff h.val = false ∧ s.mayWrite r (locOf (aHead h.val (0x10 + n.val))) = true ∧ s.rotStep = 0 ∧
      s.cycNow = [] ∧ fld v 22 16 = 65 ∧ bit v 23 = true) ∧
    (∃ (s : State) (r : Requester) (h : Head), s.headOff h.val = false ∧ s.mayWrite r (locOf (aHead h.val 0x18)) = true ∧ s.rotStep = 0 ∧ s.bget (aHead h.val 0) 23 = false) ∧
    (∃ (s : State) (r : Requester) (h : Head), s.headOff h.val = false ∧ s.mayWrite r (locOf (aHead h.val 0x18)) = true ∧ s.rotStep = 0 ∧ s.bget (aHead h.val 0) 23 = true) ∧
    (∃ (s : State) (r : Requester) (h : Head), s.headOff h.val = false ∧ s.mayWrite r (locOf (aHead h.val 0x1E)) = true ∧ s.heads[h].phase ≠ .stopped ∧
      (s.heads[(0 : Head)].tap.en && s.heads[(0 : Head)].tap.pad == 15) = true ∧ h ≠ 0) :=
  ⟨⟨State.reset, .host, 7, 7, 0xC10000, by decide +kernel⟩, ⟨State.reset, .core 1 0, 0, by decide +kernel⟩, ⟨beamAt 7 0 0, .host, 7, by decide +kernel⟩,
    ⟨(beamAt 7 0 0).modHead 0 fun x => { x with tap := { en := true, pad := 15, lat := 4 } }, .host, 7, by decide +kernel⟩⟩

/-- A latched line k, its slots in a phase, occlusion delivered or not. -/
def lineAt (k : Nat) (ph : SlotPhase) (occl : Bool) : LineWork :=
  { lat := { line := k, slots := List.replicate 8 0x800000, desc := List.replicate 8 (List.replicate 16 0), pmap := [0, 0, 0], backdrop := 5, comp := 0, nslot := 8,
             tileHost := false, lpHost := false, dim := false }
    occl := if occl then some (List.replicate 8 []) else none
    slots := Vector.replicate 8 { phase := ph, fresh := false, standIn := none, work := EngWork.idle 0, begun := 0, px := [] }, missed := false }

/-- Head 7 at a position with one line in work. -/
def working (line quad : Nat) (w : LineWork) : State := (beamAt 7 line quad).modHead 7 fun x => { x with lines := [w] }

theorem witness_LatchedLineWork :
    (∃ (s : State) (h : Head) (n : Slot) (w : LineWork), nextLine (s.drawn h).heads[h].lines n = some w ∧ w.occl = none ∧ (s.engAtNo w.slots[n].work.eng).halted = false) ∧
    (∃ (s : State) (h : Head) (n : Slot) (w : LineWork), nextLine (s.drawn h).heads[h].lines n = some w ∧ w.occl.isSome = true ∧ w.slots[n].work.eng < 66 ∧ (w.slots[n].standIn.all fun y => decide (y < 66)) = true ∧
      (s.engAtNo w.slots[n].work.eng).halted = false ∧ Sound s) ∧
    (∃ (s : State) (h : Head) (w : LineWork), (s.heads[h].lines.find? fun x => x.occl.isNone) = some w ∧ ∀ n : Slot, w.slots[n].phase ≠ .begun) ∧
    (∃ (s : State) (h : Head) (w : LineWork) (rest : List LineWork), (s.drawn h).heads[h].lines = w :: rest ∧ s.deadlinePassed h w.lat.line = true ∧ w.ready = true) ∧
    (∀ raised ∈ [false, true], ∃ (s : State) (h : Head) (w : LineWork) (rest : List LineWork), (s.drawn h).heads[h].lines = w :: rest ∧ s.deadlinePassed h w.lat.line = true ∧ w.ready = false ∧
      (s.heads[h].sig.isOpen && decide (s.posLine h.val ≤ w.lat.line)) = true ∧ s.heads[h].fr.missRaised = raised) :=
  let open_ := fun (b : Bool) => (working 3 0 (lineAt 3 .waiting true)).modHead 7 fun x => { x with sig := { x.sig with isOpen := true }, fr := { x.fr with missRaised := b } }
  ⟨⟨working 0 0 (lineAt 5 .latched false), 7, 7, lineAt 5 .latched false, by decide +kernel⟩,
    ⟨working 0 0 (lineAt 5 .latched true), 7, 0, lineAt 5 .latched true, by decide +kernel, by decide +kernel, by decide +kernel, by decide +kernel, by decide +kernel, by unfold Sound NoFlips; decide +kernel⟩,
    ⟨working 0 0 (lineAt 5 .latched false), 7, lineAt 5 .latched false, by decide +kernel⟩,
    ⟨working 3 0 (lineAt 3 .finished true), 7, lineAt 3 .finished true, [], by decide +kernel⟩,
    List.forall_mem_cons.2 ⟨⟨open_ false, 7, lineAt 3 .waiting true, [], by decide +kernel⟩, List.forall_mem_cons.2 ⟨⟨open_ true, 7, lineAt 3 .waiting true, [], by decide +kernel⟩, nofun⟩⟩⟩

theorem witness_LineComposition :
    (let k := fun (s : State) (h : Head) => (s.posLine h.val + s.heads[h].lead + 1) % max 1 (s.raster h.val).vtotal
     let due := fun (s : State) (h : Head) => s.running h.val && s.heads[h].begun == .flow && s.heads[h].dueRender.isEmpty && decide (k s h < (s.raster h.val).vact) &&
       s.heads[h].evals.all fun e => e.line != k s h
     (∃ (s : State) (h : Head), due s h = true ∧ k s h + 1 = (s.raster h.val).vact) ∧ (∃ (s : State) (h : Head), due s h = false ∧ k s h = (s.raster h.val).vact)) ∧
    (∀ missed ∈ [false, true], ∃ (s : State) (h : Head) (w : LineWork) (rest : List LineWork), (s.drawn h).heads[h].lines = w :: rest ∧ w.ready = true ∧ w.missed = missed ∧
      s.repair.mirror = false ∧ Sound s) :=
  let flow := fun (n : Nat) => (beamAt 7 n 0).modHead 7 fun x => { x with begun := .flow }
  ⟨⟨⟨flow 10, 7, by decide +kernel⟩, ⟨flow 11, 7, by decide +kernel⟩⟩,
    List.forall_mem_cons.2 ⟨⟨working 3 0 (lineAt 3 .finished true), 7, lineAt 3 .finished true, [], by decide +kernel, by decide +kernel, by decide +kernel, by decide +kernel, by unfold Sound NoFlips; decide +kernel⟩,
      List.forall_mem_cons.2 ⟨⟨working 3 0 { lineAt 3 .waiting true with missed := true }, 7, { lineAt 3 .waiting true with missed := true }, [], by decide +kernel, by decide +kernel, by decide +kernel,
        by decide +kernel, by unfold Sound NoFlips; decide +kernel⟩, nofun⟩⟩⟩

/-- Head 7 taps paddock 15 four quads ahead. -/
def tapped : State := (beamAt 7 3 7).modHead 7 fun x => { x with tap := { en := true, pad := 15, lat := 4 } }

/-- P15 owned by the tap of head 7 returns a tag, the oldest awaited being tag 5. -/
def tapBack (tag : Nat) : State := (padOn [(5, 0x800000), (6, tag)]).modHead 7 fun x => { x with tap := { en := true, pad := 15, lat := 4 }, tapSent := [(15, 5)] }

theorem witness_PixelTap :
    (∃ (s : State) (h : Head) (t0 : TapSet) (k q : Nat), s.running h.val = true ∧ s.tapTarget h false = some (t0, k, q) ∧ s.tapTarget h true = none ∧ t0.pad < 16 ∧ q ≠ 0 ∧
      s.dimFor h k = false ∧ s.bget (aHead h.val 0x36) 22 = false ∧ (s.heads[h].tapSent.any fun e => e.2 == packBeam k q) = false ∧
      (s.heads[h].tapBack.any fun e => e.1 == packBeam k q) = false) ∧
    (∃ (s : State) (h : Head) (p : Pad), s.tapOwner p.val = some h ∧ (s.pads[p].acted.contains 2030) = false ∧ s.clocked p.val = true ∧ bit (s.portSink p.val 5) 23 = true ∧
      (s.heads[h].tapSent.find? fun e => e.1 == p.val).map (·.2) = some (s.portSink p.val 6)) ∧
    (∃ (s : State) (h : Head) (p : Pad), s.tapOwner p.val = some h ∧ (s.pads[p].acted.contains 2030) = false ∧ s.clocked p.val = true ∧ bit (s.portSink p.val 5) 23 = true ∧
      (s.heads[h].tapSent.find? fun e => e.1 == p.val).map (·.2) ≠ some (s.portSink p.val 6)) :=
  ⟨⟨tapped, 7, { en := true, pad := 15, lat := 4 }, 3, 11, by decide +kernel⟩, ⟨tapBack 5, 7, 15, by decide +kernel⟩, ⟨tapBack 6, 7, 15, by decide +kernel⟩⟩

/-- A closed record. -/
def closedRec : SigRec := { frame := 9, flags := 0, misses := 0, regmask := 0, taplines := 0, fcrc := 0, rcrc := List.replicate 16 0, keyed := false, due := 0, ended := 0 }

theorem witness_SignatureRing :
    (∃ (s : State) (h : Head), s.heads[h].closed = []) ∧
    (∃ (s : State) (h : Head) (r : SigRec) (rest : List SigRec), s.heads[h].closed = r :: rest ∧ r.rcrc.length = 16 ∧
      (s.fget (aHead h.val 0x35) 23 21 + 8 - s.fget (aHead h.val 0x35) 20 18) % 8 = 7) :=
  ⟨⟨State.reset, 0, by decide +kernel⟩,
    ⟨State.modHead (at_ [(aHead 7 0x35, 0xE00000)]) 7 fun x => { x with closed := [closedRec] }, 7, closedRec, [], by decide +kernel⟩⟩

theorem witness_OutputStates :
    (∃ (s : State) (h : Head), s.headOff h.val = true ∨ s.bget (aHead h.val 0x30) 23 = true) ∧
    (∃ (s : State) (h : Head), s.headOff h.val = false ∧ s.bget (aHead h.val 0x30) 23 = false) ∧
    (∃ (s : State) (h : Head) (l : Fin 4), (s.bget (aHead h.val 0x30) 23 && !s.bget (aHead h.val 0x30) 22 && decide (l.val < laneCount (s.fget (aHead h.val 0x32) 23 22)) &&
      !s.bget (aHead h.val 0x31) (17 + l.val)) = true) ∧
    (∃ (s : State) (h : Head) (l : Fin 4), (s.bget (aHead h.val 0x30) 23 && !s.bget (aHead h.val 0x30) 22 && decide (l.val < laneCount (s.fget (aHead h.val 0x32) 23 22)) &&
      !s.bget (aHead h.val 0x31) (17 + l.val)) = false) ∧
    (∃ (s : State) (h : Head), s.bget (aHead h.val 0x31) 23 = true ∧ s.headOff h.val = false) :=
  ⟨⟨at_ [(aHead 7 0x30, 0x800000)], 7, by decide +kernel⟩, ⟨State.reset, 0, by decide +kernel⟩, ⟨at_ [(aHead 7 0x30, 0x800000), (aHead 7 0x32, 0x800000)], 7, 3, by decide +kernel⟩,
    ⟨State.reset, 0, 0, by decide +kernel⟩, ⟨at_ [(aHead 0 0x31, 0x800000)], 0, by decide +kernel⟩⟩

/-- Training done, four channels of 512 MB in use. -/
def trained : State := at_ [(aDram 0, 0x800000), (aDram 1, 0xFF8000)]

theorem witness_DramSetup :
    (∃ (s : State) (r : Requester) (v : Word), s.mayWrite r (.dramReg 0) = true ∧ s.bget (aDram 1) 23 = false ∧ fld v 23 22 ≠ 3 ∧ fld v 21 19 = 4) ∧
    (∃ (s : State) (r : Requester) (v : Word), s.mayWrite r (.dramReg 0) = true ∧ s.bget (aDram 1) 23 = true ∧ fld v 23 18 + fld v 17 12 + fld v 11 6 + fld v 5 0 = 48 ∧
      ∃ x ∈ s.chans[(3 : Chan)].reads, x.tag = false) ∧
    (∃ (s : State) (r : Requester) (v : Word), s.mayWrite r (.dramReg 0) = true ∧ 48 < fld v 23 18 + fld v 17 12 + fld v 11 6 + fld v 5 0 ∧ 128 < fld v 23 16 + fld v 15 8 + fld v 7 0) ∧
    (∃ (s : State) (r : Requester) (v : Word), s.mayWrite r (.dramReg 0) = true ∧ fld v 23 16 + fld v 15 8 + fld v 7 0 = 128) ∧
    (let area := fun (s : State) (q : Nat) =>
       (s.fget (aDram (0x10 + 3 * q)) 23 9 * 2 ^ 20, (s.fget (aDram (0x11 + 3 * q)) 23 9 + 1) * 2 ^ 20, s.fget (aDram (0x12 + 3 * q)) 23 6 * 2 ^ 17)
     let bad := fun (s : State) (n : Fin 8) (v : Word) =>
       let lo := fld v 23 9 * 2 ^ 20; let hi := (area s n.val).2.1; let chk := (area s n.val).2.2
       let meets := fun (x y : Nat) => decide (chk < y ∧ x < chk + (hi - lo) / 8)
       decide (s.fget (aDram (0x11 + 3 * n.val)) 23 9 < fld v 23 9) || meets lo hi || decide (s.dramCap < hi) || decide (s.dramCap < chk + (hi - lo) / 8) ||
         (List.range 8).any fun q => q != n.val && s.bget (aDram (0x10 + 3 * q)) 0 && (meets (area s q).1 (area s q).2.1 || meets (area s q).2.2 ((area s q).2.2 + ((area s q).2.1 - (area s q).1) / 8))
     let offers := fun (s : State) (r : Requester) (n : Fin 8) (v : Word) => s.mayWrite r (.dramReg 0) && !s.bget (aDram (0x10 + 3 * n.val)) 0 && bit v 0
     (∃ (s : State) (r : Requester) (n : Fin 8) (v : Word), offers s r n v = true ∧ bad s n v = false ∧ (area s n.val).2.1 = s.dramCap) ∧
     (∃ (s : State) (r : Requester) (n : Fin 8) (v : Word), offers s r n v = true ∧ bad s n v = true)) ∧
    (∃ (s : State) (r : Requester) (n : Fin 8), s.mayWrite r (.dramReg 0) = true ∧ s.bget (aDram (0x10 + 3 * n.val)) 0 = true) ∧
    (∃ s : State, s.start = .booted ∧ s.markedRows = []) ∧ (∃ s : State, s.start ≠ .booted) :=
  let waiting : DRead := { user := .host, unit := 3, line := 0, cls := 4, deadline := 0, data := [], chk := false, tag := false, issued := false, no := 0, standIn := false, merge := false, cyc := 0 }
  ⟨⟨State.reset, .core 0 0, 0xA00000, by decide +kernel⟩, ⟨trained.modChan 3 fun x => { x with reads := [waiting] }, .core 1 0, 0xC00000, by decide +kernel⟩, ⟨trained, .core 1 0, 0xFFFFFF, by decide +kernel⟩,
    ⟨trained, .core 1 0, 0x800000, by decide +kernel⟩,
    ⟨⟨trained.wr (aDram 0x26) 0x0FFE00, .core 0 0, 7, 0x0FFE01, by decide +kernel⟩, ⟨trained, .core 0 0, 7, 0x000001, by decide +kernel⟩⟩,
    ⟨at_ [(aDram 0x10, 1)], .core 0 0, 0, by decide +kernel⟩, ⟨{ State.reset with start := .booted }, by decide +kernel⟩, ⟨State.reset, by decide +kernel⟩⟩

/-- Without enabled ECC regions no byte has check bits. -/
theorem checkAddr_none (s : State) (h : ∀ r ∈ List.range 8, s.eccRegion r = none) (a : Nat) : s.checkAddr a = none := by
  unfold State.checkAddr
  rw [List.findSome?_eq_none_iff]
  intro r hr
  rw [h r hr]

/-- A host read of unit 0 in channel 0, ready to be issued or issued. -/
def hostRead (issued : Bool) : DRead := { user := .host, unit := 0, line := 0, cls := 4, deadline := 0, data := zeros 32, chk := false, tag := true, issued := issued, no := 0, standIn := false, merge := false, cyc := 0 }

/-- Channel 0 with reads and n queued writes. -/
def chanWith (rs : List DRead) (n : Nat) : State := trained.modChan 0 fun x =>
  { x with reads := rs, writes := List.replicate n { user := .host, cls := 4, addr := 0, data := [1], merge := false, cyc := 0 } }

theorem witness_DramAccesses :
    (∃ (s : State) (q : DramUser) (u : BitVec 30), s.dramCap = 32 * u.toNat ∧ q = .host ∧ (s.dreads.any fun x => x.user == .host && x.wait.contains u.toNat) = false) ∧
    (∃ (s : State) (q : DramUser) (u : BitVec 30), s.dramCap = 32 * u.toNat ∧ (∀ i, q ≠ .copy i) ∧ q ≠ .loader ∧ q ≠ .host) ∧
    (∃ (s : State) (u : BitVec 30), 32 * u.toNat + 32 = s.dramCap ∧ s.checkAddr (32 * u.toNat) = none) ∧
    (∃ (s : State) (c : Chan), (s.nextRead c).isSome = true) ∧
    (∃ (s : State) (c : Chan), s.nextRead c = none ∧ s.chans[c].reads ≠ [] ∧ (decide (48 ≤ s.chans[c].writes.length) && !(s.chans[c].writes.head?.any (·.merge))) = false) ∧
    (∃ (s : State) (c : Chan), s.nextRead c = none ∧ s.chans[c].reads ≠ [] ∧ (decide (48 ≤ s.chans[c].writes.length) && !(s.chans[c].writes.head?.any (·.merge))) = true) ∧
    (∀ rate ∈ [0, 1], ∃ (s : State) (c : Chan) (x : DRead), s.chans[c].reads.find? (·.issued) = some x ∧ s.checkAddr (32 * x.unit) = none ∧ x.chk = false ∧ x.merge = false ∧ x.cls = 4 ∧ x.user = .host ∧
      (s.dreads.any fun y => y.user == .host && y.wait.contains x.unit) = false ∧ Sound s ∧ s.drate = rate) ∧
    (∃ (s : State) (c : Chan) (a : BitVec 35) (d : List Byte), d ≠ [] ∧ a.toNat % 32 + d.length = 32 ∧ a.toNat < s.dramCap ∧ s.chanOf a.toNat = c ∧ s.checkAddr a.toNat = none ∧ s.chans[c].waiting = [] ∧
      s.chans[c].writes.length = 63) ∧
    (∃ (s : State) (c : Chan) (a : BitVec 35) (d : List Byte), d ≠ [] ∧ a.toNat % 32 + d.length ≤ 32 ∧ a.toNat < s.dramCap ∧ s.chanOf a.toNat = c ∧ s.checkAddr a.toNat ≠ none ∧
      (a.toNat % 8 = 0 ∧ (a.toNat + d.length) % 8 = 0) ∧ s.chans[c].writes.length = 64) ∧
    (let drains := fun (s : State) (c : Chan) => let pend := s.chans[c].reads.filter fun r => !r.issued
       (s.urgent pend).isEmpty && (decide (48 ≤ s.chans[c].writes.length) || pend.isEmpty)
     (∃ (s : State) (c : Chan), drains s c = true ∧ s.chans[c].writes.length = 1 ∧ ∀ a < 2 ^ 32, s.checkAddr (8 * a) = none) ∧
     (∃ (s : State) (c : Chan), drains s c = true ∧ s.chans[c].writes.length = 48 ∧ s.chans[c].reads ≠ [] ∧ ∀ a < 2 ^ 32, s.checkAddr (8 * a) = none) ∧
     (∃ (s : State) (c : Chan), drains s c = false ∧ s.chans[c].writes.length = 47)) ∧
    (∃ (s : State) (c : Chan), Nat.testBit (s.fget (aDram 1) 18 15) c.val = true) ∧ (∃ (s : State) (c : Chan), Nat.testBit (s.fget (aDram 1) 18 15) c.val = false) :=
  let whole := fun (rate : Nat) => ({ chanWith [hostRead true] 0 with drate := rate } : State)
  let idleRead := { hostRead false with tag := false }
  ⟨⟨State.reset, .host, 0, by decide +kernel⟩, ⟨State.reset, .debug, 0, by decide +kernel⟩, ⟨trained, 0x3FFFFFF, by decide +kernel⟩, ⟨chanWith [hostRead false] 0, 0, by decide +kernel⟩,
    ⟨chanWith [idleRead] 47, 0, by decide +kernel⟩, ⟨chanWith [hostRead false] 48, 0, by decide +kernel⟩,
    List.forall_mem_cons.2 ⟨⟨whole 0, 0, hostRead true, by decide +kernel, by decide +kernel, by decide +kernel, by decide +kernel, by decide +kernel, by decide +kernel, by decide +kernel,
        by unfold Sound NoFlips; decide +kernel, by decide +kernel⟩,
      List.forall_mem_cons.2 ⟨⟨whole 1, 0, hostRead true, by decide +kernel, by decide +kernel, by decide +kernel, by decide +kernel, by decide +kernel, by decide +kernel, by decide +kernel,
        by unfold Sound NoFlips; decide +kernel, by decide +kernel⟩, nofun⟩⟩,
    ⟨chanWith [] 63, 0, 31, [7], by decide +kernel⟩, ⟨((chanWith [] 64).wr (aDram 0x12) 0x000200).wr (aDram 0x10) 1, 0, 8, zeros 24, by decide +kernel⟩,
    ⟨⟨chanWith [] 1, 0, by decide +kernel, by decide +kernel, fun a _ => checkAddr_none _ (by decide +kernel) _⟩,
    ⟨chanWith [hostRead false] 48, 0, by decide +kernel, by decide +kernel, by decide +kernel, fun a _ => checkAddr_none _ (by decide +kernel) _⟩, ⟨chanWith [hostRead false] 47, 0, by decide +kernel⟩⟩,
    ⟨trained, 3, by decide +kernel⟩, ⟨State.reset, 0, by decide +kernel⟩⟩

/-- P15 clocked; cell n of it has operation op in its slot 0, CE true unless held, SR true where reset, and its tussock's gangs as coded. -/
def cellOn (n op gang inv : Nat) : State := State.modPad (at_ [(aPad 15 1, 0x800000), (aPad 15 0, 0x800000)]) 15 fun x =>
  { x with cfg := [(96 * (16 * (n / 8) + 11) + 86, wd gang), (96 * (16 * (n / 8) + 12 + n % 8 / 4) + 21 * (n % 4) + 20, wd inv),
                   (96 * (cellFrame n).1 + (cellFrame n).2, wd (op * 2 ^ 18))] }

/-- n words of region 90 from its word a with k wrong bits each. -/
def sick (n a k : Nat) : State :=
  { State.reset with repair := { State.reset.repair with bad := (List.range n).map fun i => { region := 90, addr := a + i, dmask := wd (2 ^ k - 1), cmask := 0 } } }

/-- n spares of a macro of region 0 are taken. -/
def remapped (n : Nat) : State :=
  { State.reset with repair := { State.reset.repair with remaps := (List.range n).map fun i => { region := 0, group := 1023, spare := i, word := i } } }

theorem witness_RepairSteps :
    (∃ (s : State) (r : Region) (a : BitVec 22), (s.badAt r.val a.toNat).isSome = true ∧ ∀ b ∈ s.badAt r.val a.toNat, b.count < 2) ∧
    (∀ n ∈ [4, 5], ∃ (s : State) (r : Region) (a : BitVec 22), (s.badAt r.val a.toNat).isSome = true ∧ (∀ b ∈ s.badAt r.val a.toNat, 2 ≤ b.count) ∧ s.erasures r.val (a.toNat / 256) = n) ∧
    (∃ (s : State) (r : Region) (a : BitVec 22), s.remapsIn r.val (a.toNat / 4096) = 16) ∧
    (∃ (s : State) (r : Region) (a : BitVec 22), s.remapsIn r.val (a.toNat / 4096) = 15 ∧ s.badAt r.val a.toNat = none) ∧ (∃ s : State, s.start = .trained) ∧ (∃ s : State, s.start ≠ .trained) :=
  ⟨⟨sick 1 255 1, 90, 255, by decide +kernel⟩, fun n h => ⟨sick n 251 2, 90, 251, by revert n; decide +kernel⟩, ⟨remapped 16, 0, 0x3FFFFF, by decide +kernel⟩,
    ⟨remapped 15, 0, 0x3FF000, by decide +kernel⟩, ⟨{ State.reset with start := .trained }, rfl⟩, ⟨State.reset, by decide +kernel⟩⟩

/-- Head 0 runs and shows slot 0 by engine 0; rotation is on, at a step of engine 0 with engine 64, one of them in its self-test. -/
def rotates (step : Nat) (t : Option Nat) (retry : Bool) : State :=
  let s := (((beamAt 0 3 5).wr (aHead 0 0x10) 0x800000).wr (aHead 0 0x18) 0x100000).wr (aRot 0) 0x800000
  { s.wr (aRot 1) (wd (step * 2 ^ 21 + 64 * 2 ^ 7)) with repair := { State.reset.repair with testing := t, rotRetry := retry } }

theorem witness_RotationSteps :
    (∃ s : State, (s.bget (aRot 0) 23 && s.rotStep == 0 && !s.liveEngines.isEmpty && !s.pool.isEmpty) = false ∧ s.repair.testing = none) ∧
    (∃ s : State, (s.bget (aRot 0) 23 && s.rotStep == 0 && !s.liveEngines.isEmpty && !s.pool.isEmpty) = true) ∧
    (∃ (s : State) (e : Nat), e < 66 ∧ s.repair.testing = some e ∧ s.rotStep = 3) ∧ (∃ (s : State) (e : Nat), e < 66 ∧ s.repair.testing = some e ∧ s.rotStep ≠ 3 ∧ s.repair.rotRetry = false) ∧
    (∃ (s : State) (e : Nat), e < 66 ∧ s.repair.testing = some e ∧ s.rotStep ≠ 3 ∧ s.repair.rotRetry = true ∧ (if s.fget (aRot 1) 20 14 = e then s.fget (aRot 1) 13 7 else s.fget (aRot 1) 20 14) < 66) :=
  ⟨⟨State.reset, by decide +kernel⟩, ⟨rotates 0 none false, by decide +kernel⟩, ⟨rotates 3 (some 0) false, 0, by decide +kernel⟩, ⟨rotates 2 (some 64) false, 64, by decide +kernel⟩,
    ⟨rotates 2 (some 64) true, 64, by decide +kernel⟩⟩

/-- Caeruno runs, a millisecond being open; a flash whose directory names a ledger of n bytes. -/
def ledgerOn (wasLive : Bool) (n : Nat) : State :=
  { State.reset with
    start := .up, dev := .live
    cae := { State.reset.cae with wasLive := wasLive, msOpen := [{ maint := false, live := true, safe := false, wait := 0, recs := [], cause := 0, planned := false }] }
    flash := spWrite zeroB [] 0 (State.reset.dirImage 48 (bytesLE 4 0x2000 ++ bytesLE 4 n)) }

theorem witness_LedgerSteps :
    (∃ s : State, s.pow.st = .keep ∧ s.pow.emulated = false) ∧
    (∃ s : State, ¬ (s.pow.st = .keep ∧ s.pow.emulated = false) ∧ (s.start != .reset && s.start != .fused) = false ∧ (s.cae.uptime + 1) % 1000 ≠ 0) ∧
    (∃ s : State, ¬ (s.pow.st = .keep ∧ s.pow.emulated = false) ∧ (s.start != .reset && s.start != .fused) = true ∧ (s.cae.uptime + 1) % 1000 ≠ 0 ∧ s.cae.wasLive = true ∧ s.dev ≠ .live) ∧
    (∃ (s : State) (m : MsRec), ¬ (s.pow.st = .keep ∧ s.pow.emulated = false) ∧ s.cae.msOpen = [m] ∧ (s.start != .reset && s.start != .fused) = true ∧ (s.cae.uptime + 1) % 1000 ≠ 0 ∧
      (s.cae.wasLive = false ∨ s.dev = .live) ∧ m.wait = 0 ∧ m.recs = []) ∧
    (∃ s : State, (s.start != .reset && s.start != .fused) = true ∧ s.dirField 52 = 191) ∧ (∃ s : State, (s.start != .reset && s.start != .fused) = true ∧ s.dirField 52 = 192) :=
  ⟨⟨{ State.reset with pow := { State.reset.pow with st := .keep } }, by decide +kernel⟩, ⟨State.reset, by decide +kernel⟩, ⟨{ ledgerOn true 0 with dev := .ready }, by decide +kernel⟩,
    ⟨ledgerOn false 0, { maint := false, live := true, safe := false, wait := 0, recs := [], cause := 0, planned := false }, by decide +kernel⟩,
    ⟨ledgerOn false 191, by decide +kernel⟩, ⟨ledgerOn false 192, by decide +kernel⟩⟩

/-- A queue of head 7 has written a word in this cycle. -/
def wroteBy7 (a : Nat) : State := { State.reset with cyc := [{ rank := 10, who := 39, key := a, value := 5 }], cycAt := State.reset.cycStamp }

theorem witness_RegisterAccesses :
    (∃ (s : State) (r : Requester) (a : Word) (x : CycWrite), Sound s ∧ x ∈ s.cycNow ∧ LaterWrite s (whoOf r) 0 a.toNat x ∧ plainReg (locOf a.toNat) = true ∧ beamWritable (locOf a.toNat) = true ∧
      s.locOff (locOf a.toNat) = false ∧ s.mayWrite r (locOf a.toNat) = true) ∧
    (∃ (s : State) (r : Requester) (a : Word), Sound s ∧ s.cycNow = [] ∧ plainReg (locOf a.toNat) = true ∧ s.locOff (locOf a.toNat) = false ∧ s.mayWrite r (locOf a.toNat) = true ∧
      s.mayRead r (locOf a.toNat) = true) ∧
    (∃ (s : State) (a : Word), Sound s ∧ plainRoute (locOf a.toNat) = true ∧ s.locOff (locOf a.toNat) = true) ∧
    (∃ (s : State) (r : Requester) (a : Word), Sound s ∧ plainRoute (locOf a.toNat) = true ∧ s.locOff (locOf a.toNat) = false ∧ s.mayWrite r (locOf a.toNat) = false) ∧
    (∃ (s : State) (r : Requester) (a : Word), Sound s ∧ plainRoute (locOf a.toNat) = true ∧ s.locOff (locOf a.toNat) = false ∧ s.mayRead r (locOf a.toNat) = false) ∧
    (∃ (s : State) (r : Requester) (h : Head), Sound s ∧ s.headOff h.val = false ∧ s.mayRead r (.head h.val 0x0A) = true) ∧
    (∃ (s : State) (r : Requester) (g : Region), Sound s ∧ s.mayWrite r (.region g.val 2) = true) ∧
    (∃ (s : State) (r : Requester) (n : Fin 32), Sound s ∧ s.mayWrite r (.stim n.val) = true ∧ s.stile.lost = 0 ∧ bit (s.stRd 0x11) 21 = false) ∧
    (∃ (s : State) (r : Requester) (n : Fin 32), Sound s ∧ s.mayWrite r (.stim n.val) = true ∧ s.stile.lost = 0 ∧ bit (s.stRd 0x11) 21 = true ∧ s.tracing = true ∧ s.stile.trace.length + 3 ≤ 16384) ∧
    (∃ s : State, Sound s ∧ bit (s.stRd 0x1A) 22 = false) ∧ (∃ s : State, Sound s ∧ bit (s.stRd 0x1A) 22 = true) :=
  ⟨⟨wroteBy7 (aDesc 7 7 0), .core 0 0, wd (aDesc 7 7 0), { rank := 10, who := 39, key := aDesc 7 7 0, value := 5 }, by unfold Sound NoFlips LaterWrite; decide +kernel⟩,
    ⟨State.reset, .host, wd (aDesc 7 7 0), by unfold Sound NoFlips; decide +kernel⟩,
    ⟨{ State.reset with fuses := { State.reset.fuses with is2404 := true } }, wd (aPad 15 0), by unfold Sound NoFlips; decide +kernel⟩,
    ⟨State.reset, .paddock 15, wd (aHead 0 2), by unfold Sound NoFlips; decide +kernel⟩, ⟨State.reset, .core 0 63, 0xC7F800, by unfold Sound NoFlips; decide +kernel⟩,
    ⟨State.reset, .host, 7, by unfold Sound NoFlips; decide +kernel⟩, ⟨State.reset, .core 0 0, 90, by unfold Sound NoFlips; decide +kernel⟩,
    ⟨State.reset, .core 0 0, 31, by unfold Sound NoFlips; decide +kernel⟩,
    ⟨(State.reset.stWr 1 0x200000).stWr 0x11 0xA00000, .core 0 0, 31, by unfold Sound NoFlips; decide +kernel⟩, ⟨State.reset, by unfold Sound NoFlips; decide +kernel⟩,
    ⟨State.reset.stWr 0x1A 0x400000, by unfold Sound NoFlips; decide +kernel⟩⟩

theorem witness_HostWindow :
    (∃ s : State, s.hostGone = true) ∧ (∃ s : State, s.hostGone = false ∧ bit (s.hwRd 0x004) 23 = true ∧ s.evFlag 43 = true) ∧
    (∃ s : State, s.hostGone = false ∧ s.evFlag 43 = false ∧ s.msixOpen 43 = true) ∧ (∃ s : State, s.hostGone = false ∧ s.evFlag 43 = false ∧ s.msixOpen 43 = false) ∧
    (∃ (s : State) (v : BitVec 64), s.hostGone = false ∧ bit (s.hwRd 0x004) 23 = true ∧ (checkCode (v.setWidth 24) == BitVec.ofNat 8 (v.toNat / 2 ^ 24)) = true) ∧
    (∃ (s : State) (v : BitVec 64), s.hostGone = false ∧ bit (s.hwRd 0x004) 23 = true ∧ (checkCode (v.setWidth 24) == BitVec.ofNat 8 (v.toNat / 2 ^ 24)) = false) ∧
    (∃ (s : State) (n : Fin 64), (s.pcie.pending.getLsbD n.val && s.evFlag n.val && s.msixOpen n.val) = true) ∧ (∃ (s : State) (n : Fin 64), (s.pcie.pending.getLsbD n.val && s.evFlag n.val && s.msixOpen n.val) = false) :=
  let open43 : State := { (State.reset.hwWr 0x0B0 0).hwWr 0x0B4 0 with pcie := { State.reset.pcie with inReset := false, msixOn := true, table := [(4 * 43 + 3, 0), (4 * 63 + 3, 0)], pending := 1 <<< 63 } }
  let up : State := { State.reset with pcie := { State.reset.pcie with inReset := false } }
  ⟨⟨{ State.reset with pcie := { State.reset.pcie with inReset := true } }, by decide +kernel⟩, ⟨(up.hwWr 4 0x800000).hwWr 0x0A4 0x080000, by decide +kernel⟩, ⟨open43, by decide +kernel⟩,
    ⟨up, by decide +kernel⟩, ⟨up.hwWr 4 0x800000, 0x67400000, by decide +kernel⟩, ⟨up.hwWr 4 0x800000, 0x66400000, by decide +kernel⟩,
    ⟨open43.hwWr 0x0A8 0x008000, 63, by decide +kernel⟩, ⟨open43, 63, by decide +kernel⟩⟩

/-- DRAM answers the host's, or the debug master's, read of unit 0. -/
def answering (q : DramUser) (n : Nat) : State :=
  { chanWith [{ hostRead true with user := q }] 0 with dreads := [{ user := q, off := 0, len := n, wait := [0], got := [] }] }

theorem witness_ApertureAccesses :
    (∃ (s : State) (off : BitVec 36) (n : Nat), Sound s ∧ s.hostGone = false ∧ s.pow.st ≠ .rest ∧ n = 7 ∧ off.toNat + n = s.dramCap ∧ off.toNat + n ≤ 2 ^ 35 ∧
      (∀ i < 8, s.bget (aDram (0x10 + 3 * i)) 0 = false) ∧ FreshCycle s) ∧
    (∃ (s : State) (off : BitVec 36) (n : Nat), Sound s ∧ s.hostGone = false ∧ s.pow.st ≠ .rest ∧ n = 512 ∧ s.dramCap ≤ 32 * (off.toNat / 32) ∧ off.toNat + n = 2 ^ 35) ∧
    (∃ (s : State) (c : Chan) (r : DRead) (x : DirectRead), Sound s ∧ s.hostGone = false ∧ s.pow.st ≠ .rest ∧ s.chans[c].reads.find? (·.issued) = some r ∧ s.dreads = [x] ∧ r.user = .host ∧
      x.user = .host ∧ x.wait = [r.unit] ∧ x.got = [] ∧ r.chk = false ∧ r.merge = false ∧ s.checkAddr (32 * r.unit) = none ∧ x.off / 32 = r.unit ∧ x.off % 32 + x.len = 32) ∧
    (∃ (s : State) (off : BitVec 36) (n : Nat), Sound s ∧ s.hostGone = false ∧ s.pow.st ≠ .rest ∧ 0x810000000 ≤ off.toNat ∧ off.toNat + n = 0x810100000 ∧ n = 1) ∧
    (∃ (s : State) (off : BitVec 36), Sound s ∧ s.hostGone = false ∧ s.pow.st ≠ .rest ∧ 0x800000000 ≤ off.toNat ∧ plainReg (locOf (off.toNat / 4 - 2 ^ 33)) = true ∧ off.toNat % 4 = 0 ∧
      s.locOff (locOf (off.toNat / 4 - 2 ^ 33)) = false ∧ apWord (off.toNat / 4 - 2 ^ 33) = some true ∧ bit (s.hwRd 0x004) 23 = false) ∧
    (∃ (s : State) (off : BitVec 36) (v : BitVec 32), Sound s ∧ s.hostGone = false ∧ s.pow.st ≠ .rest ∧ 0x800000000 ≤ off.toNat ∧ plainReg (locOf (off.toNat / 4 - 2 ^ 33)) = true ∧
      off.toNat % 4 = 0 ∧ s.locOff (locOf (off.toNat / 4 - 2 ^ 33)) = false ∧ apWord (off.toNat / 4 - 2 ^ 33) = some true ∧ bit (s.hwRd 0x004) 23 = true ∧
      checkCode (v.setWidth 24) ≠ BitVec.ofNat 8 (v.toNat / 2 ^ 24)) ∧
    (∃ (s : State) (off : BitVec 36) (n : Nat), Sound s ∧ s.hostGone = false ∧ s.pow.st ≠ .rest ∧ apOf off.toNat n = .none) ∧
    (∃ (s : State) (off : BitVec 36) (n : Nat), Sound s ∧ s.hostGone = false ∧ s.pow.st ≠ .rest ∧ apOf off.toNat n = .words ∧ n = 8) ∧
    (∃ (s : State) (off : BitVec 36) (n : Nat), Sound s ∧ s.hostGone = false ∧ s.pow.st ≠ .rest ∧ apOf off.toNat n = .words ∧ n = 4 ∧ off.toNat % 4 = 0 ∧ apWord (off.toNat / 4 - 2 ^ 33) = some false) :=
  let up := fun (s : State) => ({ s with pcie := { State.reset.pcie with inReset := false } } : State)
  let desc : BitVec 36 := BitVec.ofNat 36 (2 ^ 35 + 4 * aDesc 7 7 15)
  ⟨⟨up trained, 0x7FFFFFF9, 7, by unfold Sound NoFlips FreshCycle; decide +kernel⟩, ⟨up trained, 0x7FFFFFE00, 512, by unfold Sound NoFlips; decide +kernel⟩,
    ⟨up (answering .host 32), 0, { hostRead true with user := .host }, { user := .host, off := 0, len := 32, wait := [0], got := [] }, by unfold Sound NoFlips; decide +kernel⟩,
    ⟨up State.reset, 0x8100FFFFF, 1, by unfold Sound NoFlips; decide +kernel⟩, ⟨up State.reset, desc, by unfold Sound NoFlips; decide +kernel⟩,
    ⟨(up State.reset).hwWr 4 0x800000, desc, 5, by unfold Sound NoFlips; decide +kernel⟩, ⟨up State.reset, 0xFFFFFFFFF, 1, by unfold Sound NoFlips; decide +kernel⟩,
    ⟨up State.reset, desc - 4, 8, by unfold Sound NoFlips; decide +kernel⟩, ⟨up State.reset, BitVec.ofNat 36 (2 ^ 35 + 4 * aRing 0 0), 4, by unfold Sound NoFlips; decide +kernel⟩⟩

/-- Link 3 in a state, EN as given; this device is unit 1 of its fold, whose top root and unit 2 lie on link 3; the inbound window is the first megabyte of a trained DRAM. -/
def linked (st en set : Nat) : State :=
  at_ [(aLink 3 1, st * 2 ^ 21), (aLink 3 0, en * 2 ^ 23), (aFold 0, 1), (aFold 1, set * 2 ^ 23), (aRoute 0 0, 3), (aRoute 0 2, 3), (aFold 8, 1), (aDram 0, 0x800000), (aDram 1, 0xFF8000)]

/-- Lane 3 of link 3 changed. -/
def laneOf (s : State) (f : LaneSt → LaneSt) : State := s.modLink 3 fun x => { x with lanes := vmod x.lanes 3 f }

theorem witness_LinkStates :
    (let may := fun (s : State) (r : Requester) (g : Link) => s.fuses.flock && s.mayWrite r (.link g.val 0)
     (∀ st ∈ [0, 2, 3], ∀ on ∈ [true, false], ∃ (s : State) (r : Requester) (g : Link), may s r g = true ∧ s.linkState g = st ∧ s.bget (aLink g.val 0) 23 = on)) ∧
    (∀ st ∈ [0, 1, 2, 3, 4], ∀ on ∈ [true, false], ∃ (s : State) (g : Link), s.fuses.flock = true ∧ s.linkState g = st ∧ s.bget (aLink g.val 0) 23 = on) ∧
    (∃ (s : State) (g : Link), s.fuses.flock = true ∧ s.linkState g = 1 ∧ (s.links[g].lanes.any fun x => !x.lock && !x.bad) = true) ∧
    (∀ first ∈ [0x4B, 0xB4], ∃ (s : State) (g : Link) (l : Fin 4) (b : BitVec 64), let inv := blkByte b 0 == 0xB4; let d := if inv then ~~~b else b
      s.fuses.flock = true ∧ s.linkState g = 1 ∧ s.links[g].lanes[l].lock = true ∧ s.links[g].lanes[l].bad = false ∧ blkByte d 0 = 0x4B ∧ blkByte b 0 = first) ∧
    (∀ h ∈ [true, false], ∃ (s : State) (g : Link) (l : Fin 4) (b : BitVec 64), s.fuses.flock = true ∧ (s.isUp g && blkByte b 0 == 0x78 && s.links[g].lanes[l].num == some (blk b 9 8)) = h) ∧
    (∀ shut ∈ [true, false], ∃ (s : State) (g : Link) (l : Fin 4), s.fuses.flock = true ∧ s.bget (aLink g.val 1) (6 + l.val) = shut ∧ s.linkAlive g = true) ∧
    (∀ n ∈ [true, false], ∃ (s : State) (g : Link), s.fuses.flock = true ∧
      (s.isUp g && (decide (s.fget (aLink g.val 1) 18 17 < widthCode (count4 s.links[g].rxGood)) || decide (s.fget (aLink g.val 1) 20 19 < widthCode (count4 s.links[g].peerGood)))) = n) := by
  have en : ∀ on ∈ [true, false], ∀ st ∈ [0, 1, 2, 3, 4], (linked st (b2n on) 1).fuses.flock = true ∧ (linked st (b2n on) 1).mayWrite (.core 1 0) (.link 3 0) = true ∧
      (linked st (b2n on) 1).linkState 3 = st ∧ (linked st (b2n on) 1).bget (aLink 3 0) 23 = on := by decide +kernel
  refine ⟨fun st h on o => ?_, fun st h on o => ⟨linked st (b2n on) 1, 3, (en on o st h).1, (en on o st h).2.2⟩, ⟨linked 1 1 1, 3, by decide +kernel⟩, fun f h => ?_, fun b h => ?_, fun b h => ?_, fun b h => ?_⟩
  · have k : st ∈ [0, 1, 2, 3, 4] := by revert st; decide
    have e := en on o st k
    exact ⟨linked st (b2n on) 1, .core 1 0, 3, by simp [e.1, e.2.1], e.2.2⟩
  · have k : ∀ f ∈ [0x4B, 0xB4], f = 0x4B ∨ f = 0xB4 := by decide
    rcases k f h with rfl | rfl
    · exact ⟨laneOf (linked 1 1 1) fun y => { y with lock := true }, 3, 3, 0x4B, by decide +kernel⟩
    · exact ⟨laneOf (linked 1 1 1) fun y => { y with lock := true }, 3, 3, 0xB4, by decide +kernel⟩
  · cases b
    · exact ⟨linked 2 1 1, 3, 3, 0x378, by decide +kernel⟩
    · exact ⟨laneOf (linked 2 1 1) fun y => { y with num := some 3 }, 3, 3, 0x378, by decide +kernel⟩
  · cases b
    · exact ⟨linked 2 1 1, 3, 3, by decide +kernel⟩
    · exact ⟨(linked 2 1 1).bset (aLink 3 1) 9 true, 3, 3, by decide +kernel⟩
  · cases b
    · exact ⟨linked 1 1 1, 3, by decide +kernel⟩
    · exact ⟨(linked 2 1 1).modLink 3 fun x => { x with peerGood := 15 }, 3, by decide +kernel⟩

/-- A packet as a neighbour seals it that has sent none before. -/
def sealed (p : Packet) : Packet := State.reset.links[(3 : Link)].seal (withSeq p State.reset.links[(3 : Link)].rxSeq)

/-- A packet of one unit of zeros to unit 1 from channel 7 of unit 2, at unit 32,767. -/
def dataPacket (k : Nat) : Packet := sealed (mkPacket k 1 0 (BitVec.ofNat 64 (2 * 2 ^ 40 + 7 * 2 ^ 37 + 32767) :: List.replicate 4 0))

/-- A request of mailbox 5 of unit 2, its words a header, a sequence number and zero. -/
def requestPacket (k : Nat) : Packet := sealed (mkPacket k 1 0 (sourceBlock 2 5 :: wordBlocks [0x010000, 0, 0]))

/-- Link 3 is UP and every mailbox is claimed. -/
def mailFull : State := (List.finRange 16).foldl (fun (s : State) (m : Mbox) => s.wr (aMbctl m.val) 0x200000) (linked 2 1 1)

/-- Link 3 is UP and channel 7 has two units in flight. -/
def copyFlying : State := { (linked 2 1 1).wr (aCopy 7 5) 0x800000 with copies := (linked 2 1 1).copies.set 7 { CopySt.reset with flight := [2] } }

/-- EPOCH 5 at 6. -/
def epochPacket : Packet := sealed (mkPacket 1 0 0 [5, 6])

/-- What makes a packet good, as one test. -/
theorem lem_good (s : State) (g : Link) (p : Packet) (k : Nat) (h : (s.isUp g && lenOk p && pktType p == k && p.pay.length == pktLen p && (pktCrc p).toNat == blk p.tail 63 32 &&
    pktSeq p == s.links[g].rxSeq && blk p.tail 19 18 == 0 && s.links[g].retry.all fun u => decide (u.resent < 8)) = true) : GoodPacket s g p k := by
  simp only [Bool.and_eq_true, beq_iff_eq] at h
  exact ⟨h.1.1.1.1.1.1.1, h.1.1.1.1.1.1.2, h.1.1.1.1.1.2, h.1.1.1.1.2, h.1.1.1.2, h.1.1.2, h.1.2, h.2⟩

theorem lem_fresh : FreshCycle (linked 2 1 1) := by unfold FreshCycle; decide +kernel

theorem lem_fresh_shut : FreshCycle ((linked 2 1 1).wr (aFold 8) 0) := by unfold FreshCycle; decide +kernel

theorem witness_LinkPackets :
    (∃ (s : State) (g : Link), s.isUp g = false) ∧
    (∃ (s : State) (g : Link) (p : Packet), s.isUp g = true ∧ lenOk p = true ∧ ((pktCrc p).toNat ≠ blk p.tail 63 32 ∨ pktSeq p ≠ s.links[g].rxSeq) ∧ pktType p = 5) ∧
    (∃ (s : State) (g : Link) (p : Packet), GoodPacket s g p 1 ∧ s.foldSet = true ∧ (!s.topRoot && s.parent == g.val) = true) ∧
    (∃ (s : State) (g : Link) (p : Packet), GoodPacket s g p 1 ∧ s.foldSet = true ∧ (!s.topRoot && s.parent == g.val) = false) ∧
    (∃ (s : State) (g : Link) (p : Packet), GoodPacket s g p 1 ∧ s.foldSet = false) ∧
    (∃ (s : State) (g : Link) (p : Packet), GoodPacket s g p 2 ∧ s.foldSet = true ∧ pktAux p % 2 = 0) ∧
    (∃ (s : State) (g : Link) (p : Packet) (t1 : BitVec 48), GoodPacket s g p 2 ∧ pktAux p % 2 = 1 ∧ s.fold.t1 = some t1 ∧ (payBlk p 0).setWidth 48 = t1 ∧ s.parent = g.val ∧ s.topRoot = false ∧
      s.foldSet = true ∧ t1.toNat < 2 ^ 46 ∧ blk (payBlk p 1) 47 0 < 2 ^ 46 ∧ blk (payBlk p 2) 47 0 < 2 ^ 46 ∧ s.fold.time < 2 ^ 46) ∧
    (∃ (s : State) (g : Link) (p : Packet), GoodPacket s g p 3 ∧ (s.foldSet && s.route (pktDest p) == 4) = true ∧ ∃ m : Mbox, s.mbPhase m = 0 ∧ ∀ k : Mbox, k.val < m.val → s.mbPhase k ≠ 0) ∧
    (∃ (s : State) (g : Link) (p : Packet), GoodPacket s g p 3 ∧ (s.foldSet && s.route (pktDest p) == 4) = true ∧ (∀ m : Mbox, s.mbPhase m ≠ 0) ∧
      ∃ l : Link, routeLink (s.route (payUnit p)) = some l ∧ s.linkAlive l = true) ∧
    (∃ (s : State) (g : Link) (p : Packet), GoodPacket s g p 3 ∧ s.foldSet = false) ∧
    (∃ (s : State) (g : Link) (p : Packet) (k : Link), GoodPacket s g p 4 ∧ (s.foldSet && s.route (pktDest p) == 4) = true ∧ s.mboxes[(Fin.ofNat 16 (blk (payBlk p 0) 39 36) : Mbox)].hold = .forward k ∧
      nth 0 (pktWords p fun w => fld w 5 0) 1 = s.reqWord (Fin.ofNat 16 (blk (payBlk p 0) 39 36)) 1) ∧
    (∃ (s : State) (g : Link) (p : Packet), GoodPacket s g p 8) ∧
    (∃ (s : State) (g : Link), s.isUp g = true ∧ s.links[g].outq = [] ∧ s.links[g].retry.length = 255) ∧ (∃ s : State, s.bget (aFold 2) 23 = true) ∧ (∃ s : State, s.bget (aFold 2) 23 = false) ∧
    (∃ (s : State) (g : Link), (s.foldSet && !s.topRoot && s.parent == g.val && s.isUp g) = true) ∧ (∃ s : State, s.foldSet = false) ∧
    (∃ (s : State) (r : Requester), s.mayRead r (.fold 3) = true) ∧ (∃ (s : State) (r : Requester), s.mayRead r (.fold 3) = false) :=
  ⟨⟨State.reset, 0, by decide +kernel⟩, ⟨linked 2 1 1, 3, { dataPacket 5 with tail := 0 }, by decide +kernel⟩, ⟨linked 2 1 1, 3, epochPacket, lem_good _ _ _ _ (by decide +kernel), by decide +kernel⟩,
    ⟨(linked 2 1 1).wr (aFold 0) 0, 3, epochPacket, lem_good _ _ _ _ (by decide +kernel), by decide +kernel⟩, ⟨linked 2 1 0, 3, epochPacket, lem_good _ _ _ _ (by decide +kernel), by decide +kernel⟩,
    ⟨linked 2 1 1, 3, sealed (mkPacket 2 0 0 [5]), lem_good _ _ _ _ (by decide +kernel), by decide +kernel⟩,
    ⟨{ linked 2 1 1 with fold := { State.reset.fold with t1 := some 5 } }, 3, sealed (mkPacket 2 0 1 [5, 6, 7]), 5, lem_good _ _ _ _ (by decide +kernel), by decide +kernel⟩,
    ⟨linked 2 1 1, 3, requestPacket 3, lem_good _ _ _ _ (by decide +kernel), by decide +kernel, 0, by decide +kernel⟩,
    ⟨mailFull, 3, requestPacket 3, lem_good _ _ _ _ (by decide +kernel), by decide +kernel, by decide +kernel, 3, by decide +kernel⟩,
    ⟨linked 2 1 0, 3, requestPacket 3, lem_good _ _ _ _ (by decide +kernel), by decide +kernel⟩,
    ⟨(linked 2 1 1).modMbox 5 fun x => { x with hold := .forward 0 }, 3, requestPacket 4, 0, lem_good _ _ _ _ (by decide +kernel), by decide +kernel⟩,
    ⟨linked 2 1 1, 3, sealed (mkPacket 8 0 0 []), lem_good _ _ _ _ (by decide +kernel)⟩,
    ⟨(linked 2 1 1).modLink 3 fun x => { x with retry := List.replicate 255 { pkt := mkPacket 8 0 0 [], resent := 0 } }, 3, by decide +kernel⟩,
    ⟨at_ [(aFold 2, 0x800000)], by decide +kernel⟩, ⟨State.reset, by decide +kernel⟩, ⟨linked 2 1 1, 3, by decide +kernel⟩, ⟨State.reset, by decide +kernel⟩, ⟨State.reset, .core 0 0, by decide +kernel⟩,
    ⟨State.reset, .paddock 0, by decide +kernel⟩⟩

theorem witness_LinkPackets_data :
    ∀ c ∈ [true, false], ∀ inside ∈ [true, false], ∃ (s : State) (g : Link) (p : Packet), GoodPacket s g p (if c then 5 else 7) ∧ (s.foldSet && s.route (pktDest p) == 4) = true ∧
      (∃ l : Link, routeLink (s.route (payUnit p)) = some l ∧ s.linkAlive l = true) ∧ s.inWindow (blk (payBlk p 0) 29 0) (pktUnits p) = inside ∧
      32 * (blk (payBlk p 0) 29 0 + pktUnits p) ≤ s.dramCap ∧ FreshCycle s := by
  intro c _ i _
  cases c <;> cases i
  · exact ⟨(linked 2 1 1).wr (aFold 8) 0, 3, dataPacket 7, lem_good _ _ _ _ (by decide +kernel), by decide +kernel, ⟨3, by decide +kernel⟩, by decide +kernel, by decide +kernel, lem_fresh_shut⟩
  · exact ⟨linked 2 1 1, 3, dataPacket 7, lem_good _ _ _ _ (by decide +kernel), by decide +kernel, ⟨3, by decide +kernel⟩, by decide +kernel, by decide +kernel, lem_fresh⟩
  · exact ⟨(linked 2 1 1).wr (aFold 8) 0, 3, dataPacket 5, lem_good _ _ _ _ (by decide +kernel), by decide +kernel, ⟨3, by decide +kernel⟩, by decide +kernel, by decide +kernel, lem_fresh_shut⟩
  · exact ⟨linked 2 1 1, 3, dataPacket 5, lem_good _ _ _ _ (by decide +kernel), by decide +kernel, ⟨3, by decide +kernel⟩, by decide +kernel, by decide +kernel, lem_fresh⟩

theorem witness_LinkPackets_ack :
    ∀ code ∈ [0, 2], ∃ (s : State) (g : Link) (p : Packet), GoodPacket s g p 6 ∧ (s.foldSet && s.route (pktDest p) == 4) = true ∧ s.copyBusy (Fin.ofNat 8 (pktChan p)) = true ∧
      s.copies[(Fin.ofNat 8 (pktChan p) : Fin 8)].flight ≠ [] ∧ blk (payBlk p 0) 36 34 = code := by
  intro code h
  have k : ∀ c ∈ [0, 2], (c = 0 ∨ c = 2) := by decide
  rcases k code h with rfl | rfl
  · exact ⟨copyFlying, 3, sealed (cpyackPacket 2 1 7 0 15), lem_good _ _ _ _ (by decide +kernel), by decide +kernel, by decide +kernel, by decide +kernel, by decide +kernel⟩
  · exact ⟨copyFlying, 3, sealed (cpyackPacket 2 1 7 2 0), lem_good _ _ _ _ (by decide +kernel), by decide +kernel, by decide +kernel, by decide +kernel, by decide +kernel⟩

/-- A channel of unit 1 whose source is the last 64 units of the capacity, and whose destination is given. -/
def copying (dest : Nat) : State := (((linked 2 1 1).wr (aCopy 7 0) 0x0FFFFF).wr (aCopy 7 2) (wd dest)).wr (aCopy 7 4) 63

theorem witness_CopyChannels :
    (let live := fun (s : State) (n : Fin 8) => let dest := s.rd (aCopy n.val 2)
       dest == 0 || dest == s.unit || (s.foldSet && match routeLink (s.route dest) with | some g => s.linkAlive g | none => false)
     (∀ d ∈ [0, 1, 2], ∃ (s : State) (r : Requester) (n : Fin 8), s.mayWrite r (.copy n.val 3) = true ∧ s.copyBusy n = false ∧ live s n = true ∧ s.rd (aCopy n.val 2) = wd d ∧
       32 * (64 * (s.rd (aCopy n.val 0)).toNat + ((s.rd (aCopy n.val 4)).toNat + 1)) = s.dramCap) ∧
     (∃ (s : State) (r : Requester) (n : Fin 8), s.mayWrite r (.copy n.val 3) = true ∧ s.copyBusy n = false ∧ live s n = false)) ∧
    (∀ fl ∈ [[], [2]], ∃ (s : State) (r : Requester) (n : Fin 8), s.mayWrite r (.copy n.val 3) = true ∧ s.copyBusy n = true ∧ s.copies[n].flight = fl) :=
  ⟨⟨fun d h => ⟨copying d, .core 0 0, 7, by revert d; decide +kernel⟩, ⟨copying 3, .core 0 0, 7, by decide +kernel⟩⟩,
    fun fl h => ⟨{ (copying 2).wr (aCopy 7 5) 0x800000 with copies := (copying 2).copies.set 7 { CopySt.reset with flight := fl } }, .core 0 0, 7, by revert fl; decide +kernel⟩⟩

theorem witness_CellWordOperations :
    ∀ op ∈ [0x01, 0x02, 0x03, 0x04, 0x05, 0x06, 0x07, 0x08, 0x09, 0x0A, 0x0B, 0x0C, 0x0D, 0x0E], ∃ (s : State) (p : Pad) (n : Cell), CellFree s p n ∧ s.cellRuns p n op = true := by
  intro op h
  have key : ∀ op ∈ [0x01, 0x02, 0x03, 0x04, 0x05, 0x06, 0x07, 0x08, 0x09, 0x0A, 0x0B, 0x0C, 0x0D, 0x0E],
      ((cellOn 383 op 0 8).pads[15].acted.contains 383 = false ∧ (cellOn 383 op 0 8).pads[15].unsure 383 = false) ∧ (cellOn 383 op 0 8).cellRuns 15 383 op = true := by decide +kernel
  exact ⟨cellOn 383 op 0 8, 15, 383, key op h⟩

theorem witness_CellSaturationAndProducts :
    ∀ op ∈ [0x10, 0x11, 0x12, 0x13, 0x14, 0x15, 0x18, 0x19, 0x1A, 0x1B], ∃ (s : State) (p : Pad) (n : Cell), CellFree s p n ∧ s.cellRuns p n op = true := by
  intro op h
  have key : ∀ op ∈ [0x10, 0x11, 0x12, 0x13, 0x14, 0x15, 0x18, 0x19, 0x1A, 0x1B],
      ((cellOn 3 op 0 8).pads[15].acted.contains 3 = false ∧ (cellOn 3 op 0 8).pads[15].unsure 3 = false) ∧ (cellOn 3 op 0 8).cellRuns 15 3 op = true := by decide +kernel
  exact ⟨cellOn 3 op 0 8, 15, 3, key op h⟩

theorem witness_CellControls :
    (∃ (s : State) (p : Pad) (n : Cell), CellFree s p n ∧ s.clocked p.val = true ∧ s.sumTerm p.val n.val 4 = true) ∧
    (∃ (s : State) (p : Pad) (n : Cell), CellFree s p n ∧ s.clocked p.val = true ∧ s.sumTerm p.val n.val 4 = false ∧ s.sumTerm p.val n.val 3 = false) ∧
    (∃ (s : State) (p : Pad) (n : Cell), CellFree s p n ∧ s.cellRuns p n 0 = true ∧ fld (s.slotWords p.val n.val).1 23 18 = 0x18) ∧
    (∃ (s : State) (p : Pad) (n : Cell), CellFree s p n ∧ s.cellRuns p n 0x20 = true) ∧
    (∃ (s : State) (p : Pad) (n : Cell), s.pads[p].acted.contains n.val = false ∧ s.cellClock p n = true ∧ s.cellRuns p n 0x20 = false ∧ s.cellRuns p n 0 = false) ∧
    (∃ (s : State) (p : Pad) (n : Cell), s.pads[p].acted.contains n.val = false ∧ s.cellClock p n = false) ∧
    (∃ (s : State) (p : Pad) (n : Cell), s.pads[p].acted.contains n.val = true ∧ s.toEdge.cellRuns p n 1 = true) :=
  ⟨⟨cellOn 0 1 0 0x18, 15, 0, by unfold CellFree; decide +kernel⟩, ⟨cellOn 383 1 0 0, 15, 383, by unfold CellFree; decide +kernel⟩,
    ⟨cellOn 382 0x18 0 8, 15, 382, by unfold CellFree; decide +kernel⟩, ⟨cellOn 382 0x20 1 8, 15, 382, by unfold CellFree; decide +kernel⟩, ⟨cellOn 383 1 0 8, 15, 383, by decide +kernel⟩,
    ⟨State.reset, 0, 0, by decide +kernel⟩, ⟨(cellOn 383 1 0 8).modPad 15 fun x => { x with acted := [383] }, 15, 383, by decide +kernel⟩⟩

/-- P15 clocked, port k of block memory 95 enabled through sink 45, with WE where asked. -/
def bmOn (we : Bool) : State := State.modPad (at_ [(aPad 15 1, 0x800000), (aPad 15 0, 0x800000)]) 15 fun x =>
  { x with cfg := (96 * 791 + 24 * 3 + 11, 0x401) :: (if we then [(96 * 791 + 24 * 3 + 12, 0x401)] else []), src := [(0x401, 1)] }

theorem witness_BlockMemories :
    (∃ (s : State) (p : Pad), s.clocked p.val = true ∧ s.pads[p].nextBm = []) ∧
    (∃ (s : State) (p : Pad) (k off w v : Nat), s.clocked p.val = true ∧ s.pads[p].nextBm = [(k, off, w, v)] ∧ 0 < w ∧ off % 24 + w = 24 ∧ v < 2 ^ w) ∧
    (∃ (s : State) (p : Pad), s.clocked p.val = false) ∧
    (let ready := fun (s : State) (p : Pad) (m : Fin 96) (k : Fin 2) => !s.pads[p].acted.contains (1000 + 2 * m.val + k.val)
     let runs := fun (s : State) (p : Pad) (m : Fin 96) (k : Fin 2) => s.clocked p.val && s.bitSink p.val (s.pads[p].bmWord m.val (6 + 5 * k.val)).toNat
     (∃ (s : State) (p : Pad) (m : Fin 96) (k : Fin 2), ready s p m k = true ∧ runs s p m k = false) ∧
     (∃ (s : State) (p : Pad) (m : Fin 96) (k : Fin 2), ready s p m k = true ∧ runs s p m k = true ∧ s.bitSink p.val (s.pads[p].bmWord m.val (7 + 5 * k.val)).toNat = true ∧
       s.pads[p].unsureBm m.val k.val = false ∧ Sound s) ∧
     (∃ (s : State) (p : Pad) (m : Fin 96) (k : Fin 2) (b : BadWord), ready s p m k = true ∧ runs s p m k = true ∧ s.pads[p].unsureBm m.val k.val = false ∧ NoFlips s ∧
       let w := (aspect (fld (s.pads[p].bmWord m.val 0) 2 0)).2
       let off := 24576 * m.val + w * ((s.srcVal p.val (fld (s.pads[p].bmWord m.val (3 + 5 * k.val)) 10 0)).toNat % 2 ^ (aspect (fld (s.pads[p].bmWord m.val 0) 2 0)).1)
       w = 24 ∧ s.badAt p.val (off / 24) = some b ∧ b.count = 2 ∧ s.erasures p.val (off / 24 / 256) = 5)) :=
  let wrong := fun (i : Nat) => ({ region := 15, addr := 95 * 1024 + i, dmask := 3, cmask := 0 } : BadWord)
  ⟨⟨padOn [], 15, by decide +kernel⟩, ⟨(padOn []).modPad 15 fun x => { x with nextBm := [(1, 2359293, 3, 7)] }, 15, 1, 2359293, 3, 7, by decide +kernel⟩, ⟨State.reset, 0, by decide +kernel⟩,
    ⟨bmOn false, 15, 0, 0, by decide +kernel⟩,
    ⟨bmOn true, 15, 95, 1, by decide +kernel, by decide +kernel, by decide +kernel, by decide +kernel, by unfold Sound NoFlips; decide +kernel⟩,
    ⟨{ ((bmOn true).modPad 15 fun x => { x with cfg := x.cfg.insertIdx 0 (96 * 791 + 24 * 3, 1) }) with repair := { State.reset.repair with bad := (List.range 5).map wrong } }, 15, 95, 1, wrong 0, by decide +kernel, by decide +kernel,
      by decide +kernel, by unfold NoFlips; decide +kernel, by decide +kernel⟩⟩

/-- A request of a memory port: 32 units from unit 0. -/
def portReq (wr : Bool) (refused : Bool) (done : Nat) : MReq := { serial := 0, wr := wr, pad := false, unit := 0, n := 32, refused := refused, back := [(31, zeros 32, true)], done := done, part := [], told := false }

/-- Port 1 of P15 holds requests, its sinks carry GO, direction and address, and MST1 shows what is busy and full. -/
def portWith (ctl addr mst : Nat) (q : List MReq) : State :=
  ((padOn [(15 + 5, 1), (16, ctl), (17, addr)]).modPad 15 fun x => { x with ports := #v[[], q], mst := #v[0, wd mst] }).wr (aPad 15 8) 1

theorem witness_MemoryPorts :
    (let asks := fun (s : State) (p : Pad) (k : Fin 2) => s.clocked p.val && !s.pads[p].acted.contains (2000 + k.val) && bit (s.portSink p.val (11 + 5 * k.val)) 23
     let inside := fun (s : State) (p : Pad) (k : Fin 2) =>
       let u := fld (s.portSink p.val (13 + 5 * k.val)) 5 0 * 2 ^ 24 + (s.portSink p.val (12 + 5 * k.val)).toNat; let n := fld (s.portSink p.val (11 + 5 * k.val)) 4 0 + 1
       s.bget (aPad p.val (6 + 2 * k.val)) 0 && decide (s.fget (aPad p.val (6 + 2 * k.val)) 23 9 * 2 ^ 20 ≤ 32 * u ∧ 32 * (u + n) ≤ (s.fget (aPad p.val (7 + 2 * k.val)) 23 9 + 1) * 2 ^ 20)
     (∃ (s : State) (p : Pad) (k : Fin 2), asks s p k = true ∧ bit s.pads[p].mst[k] 20 = true) ∧
     (∃ (s : State) (p : Pad) (k : Fin 2), asks s p k = true ∧ bit s.pads[p].mst[k] 20 = false ∧ inside s p k = true ∧ bit (s.portSink p.val (11 + 5 * k.val)) 22 = true) ∧
     (∃ (s : State) (p : Pad) (k : Fin 2), asks s p k = true ∧ bit s.pads[p].mst[k] 20 = false ∧ inside s p k = true ∧ bit (s.portSink p.val (11 + 5 * k.val)) 22 = false ∧
       32 * ((s.portSink p.val (12 + 5 * k.val)).toNat + 31) < s.dramCap) ∧
     (∃ (s : State) (p : Pad) (k : Fin 2), asks s p k = true ∧ bit s.pads[p].mst[k] 20 = false ∧ inside s p k = false)) ∧
    (let reads := fun (s : State) (p : Pad) (k : Fin 2) (r : MReq) => s.clocked p.val && !s.pads[p].acted.contains (2010 + k.val) && s.pads[p].ports[k] == [r] && !r.wr
     (∃ (s : State) (p : Pad) (k : Fin 2) (r : MReq), reads s p k r = true ∧ r.refused = true) ∧
     (∃ (s : State) (p : Pad) (k : Fin 2) (r : MReq), reads s p k r = true ∧ r.refused = false ∧
       (r.back.find? fun e => e.1 == r.unit + r.done / 11) = some (r.unit + r.done / 11, zeros 32, true) ∧ r.done + 1 = r.n * 11) ∧
     (∃ (s : State) (p : Pad) (k : Fin 2) (r : MReq), reads s p k r = true ∧ r.refused = false ∧ (r.back.find? fun e => e.1 == r.unit + r.done / 11) = none)) ∧
    (∃ (s : State) (p : Pad) (k : Fin 2) (r : MReq), s.clocked p.val = true ∧ s.pads[p].acted.contains (2020 + k.val) = false ∧ s.mwvSink p.val k.val = true ∧ bit s.pads[p].mst[k] 19 = false ∧
      (s.pads[p].ports[k].find? fun y => y.wr && y.done != y.n * 11) = some r ∧ (∀ y ∈ s.pads[p].ports[k], y.serial = r.serial → y = r) ∧ r.part.length = 10) ∧
    (∃ (s : State) (p : Pad) (k : Fin 2) (r : MReq), s.clocked p.val = true ∧ s.pads[p].closing = false ∧ (s.pads[p].ports[k].find? fun r => r.wr && r.done == r.n * 11 && !r.told && (r.refused ||
      (List.finRange 4).all fun c => s.chans[c].waiting.all fun w => !(w.user == .port p k && decide (r.unit ≤ w.addr / 32 ∧ w.addr / 32 < r.unit + r.n)))) = some r) :=
  ⟨⟨⟨portWith 0x800000 0 0x100000 [], 15, 1, by decide +kernel⟩, ⟨portWith 0xC0001F 32736 0 (List.replicate 3 (portReq false false 0)), 15, 1, by decide +kernel⟩,
      ⟨(portWith 0x80001F 32736 0 (List.replicate 3 (portReq false false 0))).wr (aDram 1) 0xFF8000 |>.wr (aDram 0) 0x800000, 15, 1, by decide +kernel⟩,
      ⟨portWith 0x80001F 32737 0 (List.replicate 3 (portReq false false 0)), 15, 1, by decide +kernel⟩⟩,
    ⟨⟨portWith 0 0 0 [portReq false true 0], 15, 1, portReq false true 0, by decide +kernel⟩, ⟨portWith 0 0 0 [portReq false false 351], 15, 1, portReq false false 351, by decide +kernel⟩,
      ⟨portWith 0 0 0 [portReq false false 0], 15, 1, portReq false false 0, by decide +kernel⟩⟩,
    ⟨portWith 0 0 0 [{ portReq true false 351 with part := List.replicate 10 7 }], 15, 1, { portReq true false 351 with part := List.replicate 10 7 }, by decide +kernel⟩,
    ⟨portWith 0 0 0 [portReq true false 352], 15, 1, portReq true false 352, by decide +kernel⟩⟩

/-- P15 holds an access of W1. -/
def busHeld (ack : Nat) : State := (padOn [(22, ack)]).modPad 15 fun x => { x with wb := some { req := .core 1 63, acc := .rd 0xFFF false } }

theorem witness_WardensBusAndRegisters :
    (∃ (s : State) (r : Requester) (p : Pad) (acc : PadAccess), s.padOff p.val = false ∧ r ≠ .debug ∧ acc = .wr 0xFFF 5 ∧ s.mayWrite r (locOf (aPadWin p.val 0xFFF)) = true ∧ s.clocked p.val = true ∧
      s.pads[p].wb = none) ∧
    (∃ (s : State) (r : Requester) (p : Pad) (acc : PadAccess), s.padOff p.val = false ∧ r ≠ .debug ∧ acc = .rd 0 true ∧ (s.mayRead r (locOf (aPadWin p.val 0)) && s.clocked p.val) = false) ∧
    (∃ (s : State) (p : Pad) (k : Core) (c : Ctx) (acc : PadAccess), s.padOff p.val = false ∧ s.pads[p].wb = some { req := .core k c, acc := acc } ∧ s.windowWaits p = [] ∧ s.stile.bmWait = none ∧
      s.clocked p.val = true ∧ bit (s.portSink p.val 22) 23 = true ∧ bit (s.portSink p.val 22) 22 = false) ∧
    (∃ (s : State) (p : Pad) (k : Core) (c : Ctx) (acc : PadAccess), s.padOff p.val = false ∧ s.pads[p].wb = some { req := .core k c, acc := acc } ∧ s.windowWaits p = [] ∧ s.stile.bmWait = none ∧
      s.clocked p.val = true ∧ bit (s.portSink p.val 22) 23 = true ∧ bit (s.portSink p.val 22) 22 = true) ∧
    (∃ (s : State) (r : Requester) (p : Pad), s.padOff p.val = false ∧ s.mayWrite r (.pad p.val 0) = true ∧ s.mayWrite r (.pad p.val 0x1F) = true) ∧
    (∃ (s : State) (r : Requester) (p : Pad), s.padOff p.val = false ∧ s.mayWrite r (.pad p.val 0x10) = false) :=
  ⟨⟨padOn [], .core 0 0, 15, .wr 0xFFF 5, by decide +kernel⟩, ⟨State.reset, .host, 0, .rd 0 true, by decide +kernel⟩, ⟨busHeld 0x800000, 15, 1, 63, .rd 0xFFF false, by decide +kernel⟩,
    ⟨busHeld 0xC00000, 15, 1, 63, .rd 0xFFF false, by decide +kernel⟩, ⟨State.reset, .core 0 0, 15, by decide +kernel⟩, ⟨State.reset, .debug, 0, by decide +kernel⟩⟩

/-- A load, rewrite or read of P15 in hand. -/
def jobOf (op : IcpOp) (begun ended runs : Bool) (code : Nat) (ws : List Word) : IcpJob :=
  { op := op, pad := 15, img := 15, frame := 793, begun := begun, waited := false, words := ws, segs := [(ws.length, true)], total := ws.length, frames := [], ended := ended, runs := runs
    code := code, mbox := none, wait := [], got := [] }

/-- That job is in the port, image entry 15 being VALID for P15 and its loaded image. -/
def icpOn (j : IcpJob) : State := { (at_ [(aImage 15 0, 0xF80000), (aImage 15 1, 2), (aImage 15 2, 1), (aPad 15 1, 0x800000), (aPad 15 0x0A, 0x03C000), (aIcpstat, 0x800000)]) with icp := some j }

/-- A load of P15 reads a record. -/
def reading (ws : List Word) : IcpJob := jobOf .load true false false 0 ws

/-- The hypotheses of the record clauses. -/
def readsRecord (s : State) (j : IcpJob) (w : Word) (body : List Word) : Bool :=
  s.icp == some j && j.op == .load && decide (j.pad < 16) && j.begun && !j.ended && j.code == 0 && j.wait.isEmpty && (j.segs.all fun g => g.2) && j.words == w :: body

theorem witness_ConfigurationLoad :
    (let loads := fun (s : State) (j : IcpJob) => s.icp == some j && j.op == .load && decide (j.pad < 16)
     (∃ (s : State) (j : IcpJob), loads s j = true ∧ j.begun = false ∧ s.pads[(Fin.ofNat 16 j.pad : Pad)].closing = true ∧ s.toEdge.icp = some j ∧ s.toEdge.pads[(Fin.ofNat 16 j.pad : Pad)].closing = false) ∧
     (∃ (s : State) (j : IcpJob), loads s j = true ∧ j.begun = false ∧ j.code = 0 ∧ s.pads[(Fin.ofNat 16 j.pad : Pad)].closing = false ∧ s.imageFor j.img j.pad = false) ∧
     (∃ (s : State) (j : IcpJob), loads s j = true ∧ j.begun = false ∧ j.code = 0 ∧ s.pads[(Fin.ofNat 16 j.pad : Pad)].closing = false ∧ s.imageFor j.img j.pad = true ∧ s.spareMap j.pad = none) ∧
     (∃ (s : State) (j : IcpJob), loads s j = true ∧ j.begun = false ∧ j.code = 0 ∧ s.pads[(Fin.ofNat 16 j.pad : Pad)].closing = false ∧ s.imageFor j.img j.pad = true ∧ (s.spareMap j.pad).isSome = true) ∧
     (∃ (s : State) (j : IcpJob) (c : Chan) (r : DRead), loads s j = true ∧ j.begun = true ∧ j.wait = [r.unit] ∧ s.chans[c].reads.find? (·.issued) = some r ∧ s.checkAddr (32 * r.unit) = none ∧
       r.chk = false ∧ r.merge = false ∧ r.user = .loader ∧ r.cls = 4 ∧ Sound s)) ∧
    (∃ (s : State) (j : IcpJob) (w : Word) (body : List Word), readsRecord s j w body = true ∧ fld w 23 20 = 0 ∧ fld w 19 0 = 0) ∧
    (∃ (s : State) (j : IcpJob) (w : Word) (body : List Word), readsRecord s j w body = true ∧ fld w 23 20 = 0 ∧ fld w 19 0 ≠ 0) ∧
    (∃ (s : State) (j : IcpJob) (w : Word) (body : List Word), readsRecord s j w body = true ∧ fld w 23 20 = 1 ∧ fld w 19 10 = 799 ∧ fld w 9 0 = 1 ∧ j.frames = [] ∧ body.length = 96) ∧
    (∃ (s : State) (j : IcpJob) (w : Word) (body : List Word), readsRecord s j w body = true ∧ fld w 23 20 = 1 ∧ 800 < fld w 19 10 + fld w 9 0) ∧
    (∃ (s : State) (j : IcpJob) (w : Word) (body : List Word), readsRecord s j w body = true ∧ fld w 23 20 = 1 ∧ fld w 19 10 = 799 ∧ fld w 9 0 = 1 ∧ j.frames = [] ∧ body.length = 95) ∧
    (∃ (s : State) (j : IcpJob) (w : Word) (body : List Word), readsRecord s j w body = true ∧ NoFlips s ∧ fld w 23 20 = 2 ∧ fld w 19 0 = 95 ∧ body.length = 1024) ∧
    (∃ (s : State) (j : IcpJob) (w : Word) (body : List Word), readsRecord s j w body = true ∧ fld w 23 20 = 2 ∧ fld w 19 0 = 96) ∧
    (∃ (s : State) (j : IcpJob) (w : Word) (body : List Word), readsRecord s j w body = true ∧ fld w 23 20 = 2 ∧ fld w 19 0 = 95 ∧ body.length = 1023) ∧
    (∃ (s : State) (j : IcpJob) (w : Word) (body : List Word), readsRecord s j w body = true ∧ fld w 23 20 = 3) ∧
    (∃ (s : State) (j : IcpJob), s.icp = some j ∧ j.op = .load ∧ j.pad < 16 ∧ j.ended = true ∧ j.code = 0 ∧ j.runs = false ∧ j.waited = false ∧ NoFlips s) :=
  let fresh := jobOf .load false false false 0 []
  let last : IcpJob := { jobOf .load true false false 0 [] with wait := [64] }
  let unit : DRead := { hostRead true with user := .loader, unit := 64 }
  ⟨⟨⟨(icpOn fresh).modPad 15 fun x => { x with closing := true }, fresh, by decide +kernel⟩,
      ⟨{ State.reset with icp := some fresh }, fresh, by decide +kernel⟩,
      ⟨{ icpOn fresh with cae := { State.reset.cae with records := [0x1FB000, 0x1FB01F] } }, fresh, by decide +kernel⟩,
      ⟨icpOn fresh, fresh, by decide +kernel⟩,
      ⟨(icpOn last).modChan 2 fun x => { x with reads := [unit] }, last, 2, unit, by decide +kernel, by decide +kernel, by decide +kernel, by decide +kernel, by decide +kernel, by decide +kernel, by decide +kernel, by decide +kernel,
        by decide +kernel, by unfold Sound NoFlips; decide +kernel⟩⟩,
    ⟨icpOn (reading [0]), reading [0], 0, [], by decide +kernel⟩, ⟨icpOn (reading [0x080000]), reading [0x080000], 0x080000, [], by decide +kernel⟩,
    ⟨icpOn (reading (0x1C7C01 :: List.replicate 96 0)), reading (0x1C7C01 :: List.replicate 96 0), 0x1C7C01, List.replicate 96 0, by decide +kernel⟩,
    ⟨icpOn (reading [0x1C7C02]), reading [0x1C7C02], 0x1C7C02, [], by decide +kernel⟩,
    ⟨icpOn (reading (0x1C7C01 :: List.replicate 95 0)), reading (0x1C7C01 :: List.replicate 95 0), 0x1C7C01, List.replicate 95 0, by decide +kernel⟩,
    ⟨icpOn (reading (0x20005F :: List.replicate 1024 7)), reading (0x20005F :: List.replicate 1024 7), 0x20005F, List.replicate 1024 7, by decide +kernel, by unfold NoFlips; decide +kernel, by decide +kernel⟩,
    ⟨icpOn (reading [0x200060]), reading [0x200060], 0x200060, [], by decide +kernel⟩,
    ⟨icpOn (reading (0x20005F :: List.replicate 1023 7)), reading (0x20005F :: List.replicate 1023 7), 0x20005F, List.replicate 1023 7, by decide +kernel⟩,
    ⟨icpOn (reading [0x300000, 0]), reading [0x300000, 0], 0x300000, [0], by decide +kernel⟩,
    ⟨icpOn (jobOf .load true true false 0 []), jobOf .load true true false 0 [], by decide +kernel, by decide +kernel, by decide +kernel, by decide +kernel, by decide +kernel, by decide +kernel,
      by decide +kernel, by unfold NoFlips; decide +kernel⟩⟩

/-- Image 15 in DRAM, P15 running it, the job in hand: one segment under a key of zeros, whose plaintext begins with the record of frame 793 (the ciphertext and its tag are worked out for
the stream of zeros); its key store names stream sid, and the segment has n bytes. -/
def imageOn (j : IcpJob) (sid : Byte) (n : Nat) : State :=
  { icpOn j with
    keys := Vector.replicate 64 (some { key := zeros 32, streamId := List.replicate 16 sid, sigslot := 0, arb := 0, segs := 1 })
    dram := spWrite zeroB (spWrite zeroB [] 2048 (bytesLE 4 n ++ zeros 12 ++ bytesBE 16 17832141053652651833361035377598380058)) 4096 (bytesLE 3 6079439) }

/-- The rewrite of frame 793 in hand, every unit of the image there. -/
def rewriting (sid : Byte) (n : Nat) : State :=
  let s := (imageOn (jobOf .rewrite true false false 0 []) sid n).wr (aDram 1) 0xFF8000
  s.modJob fun j => { j with got := (s.imageUnits 15).map fun u => (u, s.nowBytes (32 * u) 32, false) }

/-- A rewrite is in hand, and nothing waits. -/
def rewrites (s : State) (j : IcpJob) : Bool := s.icp == some j && s.icpQueue.isEmpty && j.mbox.isNone && decide (j.pad < 16) && j.op == .rewrite && j.wait.isEmpty

/-- The loaded image is the paddock's and holds the frame from its word 1 on, in segments whose tags check or not. -/
def foundIn (s : State) (j : IcpJob) (good : Bool) : Bool :=
  let img := s.fget (aPad j.pad 0x0A) 19 14
  let run := s.imageRunBy j.view img
  j.begun && s.loaded j.pad && !s.bget (aPad j.pad 1) 22 && s.imageFor img j.pad && findFrame j.frame (run.1.length + 1) run.1 0 == some 1 && segsGood 1 96 0 run.2 == good &&
    (!good || decide (1 + 96 ≤ run.1.length))

theorem witness_ConfigurationPort :
    (let may := fun (s : State) (r : Requester) (p : Pad) => !s.padOff p.val && s.mayWrite r (locOf aIcpctl)
     (∃ (s : State) (r : Requester) (p : Pad), may s r p = true ∧ s.bget aIcpstat 23 = true) ∧ (∃ (s : State) (r : Requester) (p : Pad), may s r p = true ∧ s.fuses.flock = false) ∧
     ∀ live ∈ [true, false], ∃ (s : State) (r : Requester) (p : Pad), may s r p = true ∧ s.bget aIcpstat 23 = false ∧ s.fuses.flock = true ∧ s.icp = none ∧ s.pads[p].repair = none ∧ s.icpQueue = [] ∧
       (s.imageFor (s.fget (aPad p.val 0x0A) 19 14) p.val && s.loaded p.val && !s.bget (aPad p.val 1) 22) = live) ∧
    (∃ (s : State) (p : Pad), s.pads[p].closing = true) ∧
    (let inHand := fun (s : State) (j : IcpJob) => s.icp == some j && s.icpQueue.isEmpty && j.mbox.isNone && decide (j.pad < 16)
     (∃ (s : State) (j : IcpJob), inHand s j = true ∧ j.op = .read) ∧
     (∃ (s : State) (j : IcpJob), inHand s j = true ∧ j.op = .rewrite ∧ j.wait = [] ∧ (j.begun && s.imageFor (s.fget (aPad j.pad 0x0A) 19 14) j.pad && s.loaded j.pad && !s.bget (aPad j.pad 1) 22) = false) ∧
     (∃ (s : State) (j : IcpJob), inHand s j = true ∧ j.op = .rewrite ∧ j.wait ≠ []) ∧
     (∃ (s : State) (j : IcpJob), inHand s j = true ∧ j.op = .load ∧ j.begun = true ∧ j.runs = true ∧ j.code = 0) ∧ (∃ (s : State) (j : IcpJob), inHand s j = true ∧ j.op = .load ∧ j.code = 15)) ∧
    (∃ (s : State) (r : Requester) (e : Fin 64) (w : Fin 4), s.mayWrite r (locOf (aImage e.val w.val)) = false) ∧
    (∀ valid ∈ [true, false], ∃ (s : State) (r : Requester) (e : Fin 64) (w : Fin 4), s.mayWrite r (locOf (aImage e.val w.val)) = true ∧ w ≠ 0 ∧ s.bget (aImage e.val 0) 23 = valid) ∧
    (∀ v ∈ [(0 : Word), 0x800000], ∃ (s : State) (r : Requester) (e : Fin 64), s.mayWrite r (locOf (aImage e.val 0)) = true ∧ s.bget (aImage e.val 0) 23 = !bit v 23) :=
  let fresh := jobOf .rewrite false false false 0 []
  ⟨⟨⟨at_ [(aIcpstat, 0x800000)], .core 0 0, 15, by decide +kernel⟩, ⟨{ State.reset with fuses := { State.reset.fuses with flock := false } }, .core 1 0, 0, by decide +kernel⟩,
      List.forall_mem_cons.2 ⟨⟨{ (icpOn fresh).wr aIcpstat 0 with icp := none }, .core 0 0, 15, by decide +kernel⟩, List.forall_mem_cons.2 ⟨⟨State.reset, .core 0 0, 15, by decide +kernel⟩, nofun⟩⟩⟩,
    ⟨(padOn []).modPad 15 fun x => { x with closing := true }, 15, by decide +kernel⟩,
    ⟨⟨icpOn (jobOf .read false false false 0 []), jobOf .read false false false 0 [], by decide +kernel⟩,
      ⟨{ State.reset with icp := some fresh }, fresh, by decide +kernel⟩, ⟨icpOn { fresh with begun := true, wait := [1] }, { fresh with begun := true, wait := [1] }, by decide +kernel⟩,
      ⟨icpOn (jobOf .load true true true 0 []), jobOf .load true true true 0 [], by decide +kernel⟩, ⟨icpOn (jobOf .load true false false 15 []), jobOf .load true false false 15 [], by decide +kernel⟩⟩,
    ⟨State.reset, .paddock 0, 63, 3, by decide +kernel⟩,
    List.forall_mem_cons.2 ⟨⟨icpOn (jobOf .load true false false 0 []), .core 0 0, 15, 3, by decide +kernel⟩, List.forall_mem_cons.2 ⟨⟨State.reset, .core 0 0, 0, 1, by decide +kernel⟩, nofun⟩⟩,
    List.forall_mem_cons.2 ⟨⟨icpOn (jobOf .load true false false 0 []), .core 0 0, 15, by decide +kernel⟩, List.forall_mem_cons.2 ⟨⟨State.reset, .core 0 0, 63, by decide +kernel⟩, nofun⟩⟩⟩

theorem witness_ConfigurationPort_rewrite : ∃ (s : State) (j : IcpJob), (rewrites s j && foundIn s j true) = true :=
  ⟨rewriting 0 291, (rewriting 0 291).icp.getD (jobOf .read false false false 0 []), by decide +kernel⟩

theorem witness_ConfigurationPort_damaged : ∃ (s : State) (j : IcpJob), (rewrites s j && foundIn s j false) = true :=
  ⟨rewriting 1 6, (rewriting 1 6).icp.getD (jobOf .read false false false 0 []), by decide +kernel⟩

/-- A Gleaner on, its registers as refreshed, at round 0; P15 loaded, frame 799 flagged essential. -/
def gleaner : State :=
  let s : State := { (at_ [(aPad 15 1, 0x800000), (aGlProg (0x1000 + 15), 63), (aGlProg (0x40 * 63 + 33), 0x000080)]) with fuses := { State.reset.fuses with gen := true } }
  { s with
    gcfg := Vector.replicate 3 s.gcfgFuse
    gmode := Vector.replicate 3 (putBit 0 23 (s.hostFn 5))
    glRef := [(0x40 * 63 + 33, 0x000080), (0x100F, 63)] }

/-- The Gleaner is on, between rounds, and nothing of its own is damaged. -/
def gleans (s : State) : Bool :=
  s.fuses.gen && s.gl == GlSt.idle && s.upsets.isEmpty && s.repair.bad.isEmpty && s.gcfg == Vector.replicate 3 s.gcfgFuse && s.gmode == Vector.replicate 3 (putBit 0 23 (s.hostFn 5)) &&
    !s.cae.split[(5 : Fin 8)].passed && (List.range 0x1010).all fun i => s.rd (aGlProg i) == spGet zeroW s.glRef i

theorem witness_GleanerRounds :
    (∃ s : State, s.fuses.gen = false) ∧ (∃ s : State, s.fuses.gen = true ∧ s.gl.run = true) ∧ (∃ s : State, gleans s = true ∧ s.icpBusy = true) ∧
    (∃ (s : State) (p : Pad), gleans s = true ∧ s.icpBusy = false ∧ s.loaded p.val = true ∧ s.swapping p.val = false ∧
      (∃ f : Fin 800, s.flagged p.val f.val = true ∧ (f.val % 4 == s.glRound % 4) = false) ∧ (∃ f : Fin 800, s.flagged p.val f.val = false ∧ (f.val % 4 == s.glRound % 4) = true) ∧
      ∃ f : Fin 800, (s.flagged p.val f.val || f.val % 4 == s.glRound % 4) = false) ∧
    (∃ (s : State) (r : Requester), s.mayWrite r (locOf (aGl 4)) = true) ∧ (∃ (s : State) (r : Requester), s.mayWrite r (locOf (aGl 4)) = false) :=
  ⟨⟨{ State.reset with fuses := { State.reset.fuses with gen := false } }, by decide +kernel⟩, ⟨{ gleaner with gl := { GlSt.idle with run := true } }, by decide +kernel⟩,
    ⟨{ gleaner with icp := some (jobOf .read false false false 0 []) }, by decide +kernel⟩,
    ⟨gleaner, 15, by decide +kernel, by decide +kernel, by decide +kernel, by decide +kernel, ⟨799, by decide +kernel⟩, ⟨0, by decide +kernel⟩, ⟨798, by decide +kernel⟩⟩,
    ⟨State.reset, .core 0 0, by decide +kernel⟩, ⟨State.reset, .paddock 0, by decide +kernel⟩⟩

/-- Lark runs. -/
def larkAt (n : Nat) (keys : List KeyCmd) : State := { (at_ [(aLark 0, 0x800000)]) with lark := { State.reset.lark with count := n, keys := keys } }

theorem witness_LarkCommands :
    (∃ (s : State) (r : Requester) (v : Fin 256), s.right r 2 (v.val / 16) = true ∧ s.cycNow = [] ∧ s.larkOn = false) ∧
    (∃ (s : State) (r : Requester) (v : Fin 256), s.right r 2 (v.val / 16) = true ∧ s.cycNow = [] ∧ s.larkOn = true ∧ s.fget (aVoice v.val 0) 21 21 = 0) ∧
    (∃ (s : State) (r : Requester) (v : Fin 256), s.right r 2 (v.val / 16) = false) ∧
    (∃ (s : State) (r : Requester), s.mayWrite r (locOf (aLark 0)) = true ∧ s.larkOn = true) ∧ (∃ (s : State) (r : Requester), s.mayWrite r (locOf (aLark 0)) = true ∧ s.larkOn = false) ∧
    (∃ (s : State) (r : Requester), s.mayRead r (locOf (aLark 6)) = true ∧ s.mayWrite r (locOf (aLark 6)) = true ∧ Sound s ∧ s.fget (aLark 5) 19 0 = 0xFFFFF) :=
  ⟨⟨State.reset, .host, 255, by decide +kernel⟩, ⟨larkAt 0 [], .core 0 0, 0, by decide +kernel⟩, ⟨State.reset, .paddock 3, 255, by decide +kernel⟩, ⟨larkAt 0 [], .core 0 0, by decide +kernel⟩,
    ⟨State.reset, .core 1 0, by decide +kernel⟩,
    ⟨at_ [(aLark 5, 0xFFFFF)], .core 0 0, by decide +kernel, by decide +kernel, by unfold Sound NoFlips; decide +kernel, by decide +kernel⟩⟩

theorem witness_LarkPeriods :
    (∃ s : State, (s.larkOn && !s.lark.frozen) = false) ∧ (∃ s : State, s.larkOn = true ∧ s.lark.frozen = false) ∧
    (∃ (s : State) (v : Fin 256), s.larkOn = true ∧ s.lark.frozen = false ∧ s.lark.keys = [{ voice := v.val, op := 2 }]) ∧
    (∃ (s : State) (v : Fin 256), s.larkOn = true ∧ s.lark.frozen = false ∧ s.lark.keys = [{ voice := v.val, op := 1 }]) ∧
    (∃ (s : State) (v : Fin 256), s.larkOn = true ∧ s.lark.frozen = false ∧ s.lark.keys = [{ voice := v.val, op := 0 }] ∧ s.lark.voices[v].phase = 0 ∧ s.rd (aVoice v.val 2) = 0) ∧
    (∃ s : State, s.larkOn = true ∧ s.lark.blockAt = s.lark.count / 64) ∧ (∃ s : State, s.larkOn = true ∧ s.lark.blockAt ≠ s.lark.count / 64 ∧ s.lark.done = []) ∧
    (∃ (s : State) (x : Fin 4), s.larkOn = true ∧ s.lark.blockAt ≠ s.lark.count / 64 ∧ s.bget (aLark (0x20 + 8 * x.val)) 23 = true ∧ s.fget (aLark 0x0A) 23 21 = s.lark.count / 64 + 1) ∧
    (∃ (s : State) (e : Nat × Nat × List Int), s.larkOn = true ∧ s.lark.blockAt ≠ s.lark.count / 64 ∧ s.lark.done = [e] ∧ e.1 < 4 ∧ e.2.2.length = 64 ∧
      (∀ c : Chan, s.chans[c].writes = [] ∧ s.chans[c].waiting = []) ∧ (∀ n < 8, s.bget (aDram (0x10 + 3 * n)) 0 = false) ∧
      (s.rd (aLark (0x23 + 8 * e.1))).toNat * 2048 + 256 * (e.2.1 % 8) + 224 ≤ s.dramCap) :=
  ⟨⟨State.reset, by decide +kernel⟩, ⟨larkAt 0 [], by decide +kernel⟩, ⟨larkAt 0 [{ voice := 255, op := 2 }], 255, by decide +kernel⟩, ⟨larkAt 0 [{ voice := 0, op := 1 }], 0, by decide +kernel⟩,
    ⟨larkAt 63 [{ voice := 255, op := 0 }], 255, by decide +kernel⟩, ⟨{ larkAt 64 [] with lark := { State.reset.lark with count := 64, blockAt := 1 } }, by decide +kernel⟩,
    ⟨{ larkAt 64 [] with lark := { State.reset.lark with count := 64, blockAt := 5 } }, by decide +kernel⟩,
    ⟨{ ((larkAt 0 []).wr (aLark 0x38) 0x800000).wr (aLark 0x0A) 0x400000 with lark := { State.reset.lark with count := 64, blockAt := 5 } }, 3, by decide +kernel⟩,
    ⟨{ trained.wr (aLark 0) 0x800000 with lark := { State.reset.lark with count := 64, blockAt := 0, done := [(3, 8, List.replicate 64 0)] } }, (3, 8, List.replicate 64 0), by decide +kernel⟩⟩

/-- Context c runs on W1. -/
def ctxOn (s : State) (c : Ctx) : State := s.modCtx c fun x => { x with st := 2, core := 1 }

/-- The device in a power state, a change to another under way where asked. -/
def powered (st want : PowState) (busy : Bool) : State := { State.reset with dev := .ready, pow := { State.reset.pow with st := st, want := want, busy := busy } }

theorem witness_PowerStates :
    (let code := fun (s : State) (p : PowState) => let low := p == .rest || p == .keep
       if s.dev == .boot then 1 else if low && s.anyRunning then 2 else if p == .keep && s.dev == .live then 3
       else if s.icp.isSome || !s.icpQueue.isEmpty || s.cae.relay != 0 then 4 else if s.pow.busy then 5 else 0
     (∃ s : State, s.hostGone = true) ∧
     (∀ c ∈ [1, 2, 3, 4, 5], ∃ (s : State) (p : PowState), s.hostGone = false ∧ s.pow.st ≠ .rest ∧ code s p = c) ∧
     (∀ p ∈ [PowState.run, .dim, .rest, .keep], ∃ s : State, s.hostGone = false ∧ s.pow.st ≠ .rest ∧ code s p = 0 ∧ p ≠ s.pow.st ∧ s.anyRunning = false) ∧
     (∃ s : State, s.hostGone = false ∧ s.pow.st = .run ∧ code s .run = 0) ∧ (∃ s : State, s.hostGone = false ∧ s.pow.st = .rest ∧ code s .run = 0)) ∧
    (∀ w ∈ [PowState.rest, .keep], (∃ s : State, (s.pow.busy && s.pow.want == w && (((List.finRange 2).all fun k => !s.coreBusy k) && s.relayMbox.isNone)) = true ∧ s.level = 0) ∧
      ∃ s : State, (s.pow.busy && s.pow.want == w && (((List.finRange 2).all fun k => !s.coreBusy k) && s.relayMbox.isNone)) = false) ∧
    (∃ s : State, (s.pow.busy && s.pow.want == .keep && (((List.finRange 2).all fun k => !s.coreBusy k) && s.relayMbox.isNone)) = true ∧ 1 ≤ s.level) ∧
    (let pin := fun (s : State) (i : Fin 4) => bit (s.hwRd 0x018) (20 + i.val) && fld (s.hwRd (0x028 + 4 * i.val)) 14 13 != 0
     (∀ st ∈ [PowState.rest, .keep], (∃ (s : State) (i : Fin 4), s.pow.st = st ∧ pin s i = true ∧ s.pow.thermKeep = false ∧ s.pow.emulated = false) ∧ ∃ (s : State) (i : Fin 4), s.pow.st = st ∧ pin s i = false) ∧
     (∃ s : State, s.pow.st = .rest ∧ bit (s.hwRd 0x018) 19 = true) ∧ (∃ s : State, s.pow.st = .keep ∧ s.pow.thermKeep = true) ∧ (∃ s : State, s.pow.st = .dim)) ∧
    (∃ (s : State) (x : Byte), s.hostGone = false ∧ (decide (fld (s.hwRd 0x020) 15 8 ≤ x.toNat) && (s.pow.fresh || !s.pow.hot)) = true) ∧
    (∃ (s : State) (x : Byte), s.hostGone = false ∧ (decide (fld (s.hwRd 0x020) 15 8 ≤ x.toNat) && (s.pow.fresh || !s.pow.hot)) = false) ∧
    (∃ s : State, s.pow.st = .keep ∧ s.pow.emulated = false ∧ s.pow.thermKeep = true) ∧
    (∀ t ∈ [188, 189], ∃ s : State, (decide (189 ≤ fld (s.hwRd 0x020) 23 16) && !(s.pow.st == .keep && !s.pow.emulated)) = decide (t = 189) ∧ fld (s.hwRd 0x020) 23 16 = t) := by
  refine ⟨⟨⟨powered .keep .keep false, by decide +kernel⟩, fun c h => ?_, fun p h => ?_, ⟨powered .run .run false, by decide +kernel⟩, ⟨powered .rest .rest false, by decide +kernel⟩⟩, fun w h => ?_,
    ⟨(powered .run .keep true).stWr 1 0x200000, by decide +kernel⟩, ⟨fun st h => ?_, ⟨(powered .rest .rest false).hwWr 0x018 0x080000, by decide +kernel⟩,
      ⟨{ powered .keep .keep false with pow := { State.reset.pow with st := .keep, thermKeep := true } }, by decide +kernel⟩, ⟨powered .dim .dim false, rfl⟩⟩,
    ⟨(powered .run .run false).hwWr 0x020 0x00A900, 0xA9, by decide +kernel⟩, ⟨(powered .run .run false).hwWr 0x020 0x00A900, 0xA8, by decide +kernel⟩,
    ⟨{ powered .keep .keep false with pow := { State.reset.pow with st := .keep, thermKeep := true } }, by decide +kernel⟩,
    fun t h => ⟨(powered .run .run false).hwWr 0x020 (wd (t * 2 ^ 16)), by revert t; decide +kernel⟩⟩
  · have k : ∀ c ∈ [1, 2, 3, 4, 5], c = 1 ∨ c = 2 ∨ c = 3 ∨ c = 4 ∨ c = 5 := by decide
    rcases k c h with rfl | rfl | rfl | rfl | rfl
    · exact ⟨State.reset, .dim, by decide +kernel⟩
    · exact ⟨{ beamAt 7 0 0 with dev := .ready }, .rest, by decide +kernel⟩
    · exact ⟨{ powered .run .run false with dev := .live }, .keep, by decide +kernel⟩
    · exact ⟨{ powered .run .run false with icp := some (jobOf .read false false false 0 []) }, .run, by decide +kernel⟩
    · exact ⟨powered .run .rest true, .keep, by decide +kernel⟩
  · refine ⟨powered (if p = .run then .dim else .run) .run false, ?_⟩
    revert p; decide +kernel
  · refine ⟨⟨powered .run w true, ?_⟩, ⟨powered .run w false, ?_⟩⟩ <;> revert w <;> decide +kernel
  · refine ⟨⟨((powered st st false).hwWr 0x018 0x800000).hwWr 0x034 0x004000, 3, ?_⟩, ⟨(powered st st false).hwWr 0x018 0x800000, 3, ?_⟩⟩ <;> revert st <;> decide +kernel

/-- Start-up has reached a step on a board with straps; flash names Caeruno's copy 0 at 0x2000. -/
def startedTo (st : StartStep) (straps : BitVec 4) : State :=
  { State.reset with start := st, pow := { State.reset.pow with straps := straps }, flash := spWrite zeroB [] 0 (State.reset.dirImage 20 (bytesLE 4 0x2000 ++ bytesLE 4 4096)) }

theorem witness_ResetsAndStartUp :
    (∃ s : State, s.hostGone = false ∧ s.pow.st ≠ .keep) ∧ (∀ b ∈ [true, false], ∃ s : State, s.pow.resetDue = b) ∧
    (∃ s : State, s.start ≠ .reset ∨ s.pow.st = .keep) ∧ (∀ b ∈ [true, false], ∃ s : State, s.start = .reset ∧ s.pow.st ≠ .keep ∧ s.fuses.flock = b) ∧
    (∃ s : State, s.start ≠ .fused ∨ s.reason = 1) ∧ (∃ s : State, s.start = .fused ∧ s.reason ≠ 1 ∧ s.flashSize = 0) ∧ (∃ s : State, s.start = .fused ∧ s.reason ≠ 1 ∧ s.fuses.flock = false) ∧
    (∃ (s : State) (a b : Bool), s.start = .fused ∧ s.reason ≠ 1 ∧ s.bootCopy a b = none) ∧
    (∃ s : State, s.start ≠ .checked) ∧ (∃ s : State, s.start = .checked ∧ s.dev ≠ .boot) ∧ (∃ s : State, s.start = .checked ∧ s.dev = .boot ∧ s.candidates = []) ∧
    (∃ s : State, s.dev = .boot) ∧ (∃ s : State, s.dev ≠ .boot) ∧
    (∃ (s : State) (m n k : Mbox), (s.mbClaimant m = 1 ∧ s.mbPhase m = 4) ∧ (s.mbClaimant n = 1 ∧ s.mbPhase n ≠ 1 ∧ s.mbPhase n ≠ 4) ∧ s.mbClaimant k ≠ 1) :=
  ⟨⟨State.reset, by decide +kernel⟩, fun b _ => ⟨{ State.reset with pow := { State.reset.pow with resetDue := b } }, rfl⟩, ⟨startedTo .up 0, by decide +kernel⟩,
    fun b h => ⟨{ State.reset with fuses := { State.reset.fuses with flock := b } }, by revert b; decide +kernel⟩, ⟨startedTo .booted 0, by decide +kernel⟩,
    ⟨startedTo .fused 2, by decide +kernel⟩, ⟨{ startedTo .fused 0 with fuses := { State.reset.fuses with flock := false } }, by decide +kernel⟩, ⟨startedTo .fused 0, false, true, by decide +kernel⟩,
    ⟨State.reset, by decide +kernel⟩, ⟨{ startedTo .checked 0 with dev := .safe }, by decide +kernel⟩, ⟨startedTo .checked 2, by decide +kernel⟩, ⟨State.reset, by decide +kernel⟩,
    ⟨powered .run .run false, by decide +kernel⟩, ⟨at_ [(aMbctl 15, 0x820000), (aMbctl 0, 0x420000)], 15, 0, 7, by decide +kernel⟩⟩

/-- A flash of some size, whatever it is, boots the copy that its directory names. -/
theorem witness_ResetsAndStartUp_boots (h : Config.flashKiB ≠ 0) : ∃ (s : State) (a b : Bool) (o : Nat), s.start = .fused ∧ s.reason ≠ 1 ∧ s.fuses.flock = true ∧ s.flashSize ≠ 0 ∧ s.bootCopy a b = some o :=
  have e : (startedTo .fused 0).flashSize = 1024 * Config.flashKiB := rfl
  ⟨startedTo .fused 0, true, false, 0x2000, by decide +kernel, by decide +kernel, by decide +kernel, by rw [e]; omega, by decide +kernel⟩

theorem witness_MemoryFormKept : ∃ s t : State, Memory.wf s ∧ step s = .next t := ⟨State.reset, State.reset.tick, by decide +kernel, rfl⟩

theorem witness_CheckCode : ∃ (s : State) (off : BitVec 12), s.hostGone = false ∧ off.toNat % 4 = 0 ∧ off.toNat + 4 = 0x1E0 := ⟨State.reset, 0x1DC, by decide +kernel⟩

theorem witness_WardenAccesses :
    (∃ (s : State) (k : Core) (c : Ctx), s.accessing k c = false) ∧
    (∃ (s : State) (k : Core) (c : Ctx) (a : Nat), s.accessing k c = true ∧ (∀ i < 8, s.fget (aBp k.val (3 * i + 2)) 23 22 = 0) ∧ a = 0x1FFFFF ∧ (wd a).toNat = a ∧
      s.mayWrite (.core k c) (locOf a) = true ∧ s.mayRead (.core k c) (locOf a) = true ∧ Sound s) ∧
    (∃ (s : State) (k : Core) (c : Ctx) (a : Nat), s.accessing k c = true ∧ (∀ i < 8, s.fget (aBp k.val (3 * i + 2)) 23 22 = 0) ∧ (wd a).toNat = a ∧ c.val = 0 ∧
      s.mayWrite (.core k c) (locOf a) = false ∧ s.locOff (locOf a) = false ∧ (a < 0xC7E100 ∨ 0xC7F800 ≤ a) ∧ 0x40000 ≤ a) ∧
    (∃ (s : State) (k : Core) (c : Ctx) (a : Nat), s.accessing k c = true ∧ (∀ i < 8, s.fget (aBp k.val (3 * i + 2)) 23 22 = 0) ∧ (wd a).toNat = a ∧ c.val = 63 ∧
      s.mayRead (.core k c) (locOf a) = false ∧ s.locOff (locOf a) = false ∧ a = 0xC7F800) :=
  ⟨⟨State.reset, 0, 63, by decide +kernel⟩,
    ⟨State.reset, 1, 0, 0x1FFFFF, by decide +kernel, by decide +kernel, by decide +kernel, by decide +kernel, by decide +kernel, by decide +kernel, by unfold Sound NoFlips; decide +kernel⟩,
    ⟨State.reset, 0, 0, aRing 0 0, by decide +kernel⟩, ⟨ctxOn State.reset 63, 1, 63, 0xC7F800, by decide +kernel⟩⟩

/-- Both cores alive in DUPLEX. -/
def duplex : State := { (at_ [(aCore 0 0, 0x600000), (aCore 1 0, 0x600000), (aCore 0 2, 0x800000), (aCore 1 2, 0x800000)]) with dev := .live }

/-- W1 is down beside W0, DRAM is in use, the SRAM holds an image of n words; a relay stands at step r with an image of 240 bytes staged or not. -/
def oneDown (n r : Nat) (retried staged : Bool) : State :=
  let s := (((duplex.wr (aCore 1 0) 0).wr (aSram 0) 0x435A4B).wr (aSram 1) (wd n)).wr (aDram 1) 0xFF8000
  { s with cae := { State.reset.cae with relay := r, relayRetried := retried, staged := if staged then some (8192, 240, 1, 0x030000) else none }
           dram := spWrite zeroB [] 8192 (bytesOfWords [0x435A4B, 0, 0x030000]) }

theorem witness_DuplexPair :
    (∃ (s : State) (k : Core), (s.coreActs k && s.fget (aCore k.val 0) 23 22 == 1 && !s.halted (peer k)) = false) ∧
    (∃ (s : State) (k : Core) (m : Mbox), (s.coreActs k && s.fget (aCore k.val 0) 23 22 == 1 && !s.halted (peer k)) = true ∧
      (s.cae.resets.filter fun t => decide (s.cae.uptime < t + 60000)).length < 2 ∧ s.coreActs (peer k) = true ∧ s.mbPhase m = 3 ∧ s.bget (aMbctl m.val) 16 = ((peer k).val == 1) ∧
      s.mboxes[m].hold = .none ∧ NoFlips s) ∧
    (∃ (s : State) (k : Core), (s.coreActs k && s.fget (aCore k.val 0) 23 22 == 1 && !s.halted (peer k)) = true ∧
      (s.cae.resets.filter fun t => decide (s.cae.uptime < t + 60000)).length = 2 ∧ s.dev ≠ .boot ∧ s.dev ≠ .safe) ∧
    (∃ (s : State) (k : Core), (s.bget (aCore k.val 0) 21 && !s.halted k && s.bget (aCore k.val 2) 23) = true ∧ s.coreActs (peer k) = true) ∧
    (∃ (s : State) (k : Core), (s.bget (aCore k.val 0) 21 && !s.halted k && s.bget (aCore k.val 2) 23) = true ∧ s.coreActs (peer k) = false) ∧
    (∃ (s : State) (k : Core), (s.bget (aCore k.val 0) 21 && !s.halted k && s.bget (aCore k.val 2) 23) = false ∧ s.coreActs k = false) ∧
    (∃ (s : State) (k : Core), s.coreActs k = true ∧ s.cores[k].seq = .none ∧ (s.cae.resets.filter fun t => decide (s.cae.uptime < t + 60000)).length < 2) ∧
    (∃ (s : State) (k : Core), ((s.cores[k].seq == .kick || s.cores[k].seq == .unlock) && !s.halted k) = true) ∧
    (∃ (s : State) (k : Core), ((s.cores[k].seq == .kick || s.cores[k].seq == .unlock) && !s.halted k) = false) :=
  ⟨⟨State.reset, 0, by decide +kernel⟩,
    ⟨duplex.wr (aMbctl 15) 0x620000, 1, 15, by decide +kernel, by decide +kernel, by decide +kernel, by decide +kernel, by decide +kernel, by decide +kernel, by unfold NoFlips; decide +kernel⟩,
    ⟨{ duplex with cae := { State.reset.cae with resets := [1, 2] } }, 0, by decide +kernel⟩, ⟨duplex, 0, by decide +kernel⟩, ⟨duplex.wr (aCore 1 0) 0, 0, by decide +kernel⟩,
    ⟨State.reset, 1, by decide +kernel⟩, ⟨duplex, 1, by decide +kernel⟩, ⟨duplex.modCore 0 fun x => { x with seq := .unlock }, 0, by decide +kernel⟩, ⟨duplex, 1, by decide +kernel⟩⟩

/-- The hypotheses of a trap that context c of core k makes. -/
def traps (s : State) (k : Core) (c : Ctx) : Bool :=
  c.val != 0 && s.cae.ctxs[c].st == 2 && !s.cae.ctxs[c].preempted && !s.cae.ctxs[c].suspended && s.cae.ctxs[c].core == k && s.alive k && !s.halted k

/-- An image in SRAM lets the boot ROM start a core, whatever the flash holds. -/
theorem lem_bootable (s : State) (f : s.fuses.flock = true) (h : caerunoFits ((List.range 2).map fun i => s.rd (aSram i)) (3 * 2 ^ 18) = true) : s.bootable = true := by
  unfold State.bootable
  rw [f, h, Bool.or_true, Bool.and_true]

theorem witness_DuplexPair_rejoin :
    (∃ (s : State) (k : Core), s.dev = .boot ∨ s.bget (aCore k.val 0) 21 = true) ∧
    (∃ (s : State) (k : Core), s.dev ≠ .boot ∧ s.bget (aCore k.val 0) 21 = false ∧ s.cae.relay ≠ 2 ∧ s.cae.relay ≠ 5 ∧ s.bootable = true ∧ s.bget (aCore (peer k).val 0) 21 = true) ∧
    (∃ (s : State) (k : Core), s.dev ≠ .boot ∧ s.bget (aCore k.val 0) 21 = false ∧ s.cae.relay ≠ 2 ∧ s.cae.relay ≠ 5 ∧ s.bootable = false) ∧
    (∃ s : State, s.dev ≠ .boot ∧ s.bget (aCore 1 0) 21 = false ∧ s.cae.relay = 2 ∧ s.stagedStands = true) ∧
    (∃ s : State, s.dev ≠ .boot ∧ s.bget (aCore 0 0) 21 = false ∧ s.cae.relay = 5 ∧ s.relayMbox = none ∧ s.cae.staged.isSome = true ∧ s.stagedStands = true) ∧
    (∃ s : State, s.dev ≠ .boot ∧ s.bget (aCore 1 0) 21 = false ∧ s.cae.relay = 2 ∧ s.stagedStands = false) ∧
    (∃ s : State, s.relayMbox = none ∧ s.cae.relay = 2 ∧ (s.cae.resets.filter fun t => decide (s.cae.uptime < t + 60000)).length < 2) ∧
    (∃ s : State, s.relayMbox = none ∧ s.cae.relay = 5 ∧ s.cae.relayRetried = false) ∧
    (∃ s : State, s.relayMbox = none ∧ s.cae.relay = 5 ∧ s.cae.relayRetried = true ∧ s.cae.staged.isSome = true) ∧ (∃ s : State, s.relayMbox = none ∧ s.cae.relay = 0) :=
  ⟨⟨State.reset, 0, by decide +kernel⟩,
    ⟨oneDown 0 0 false false, 1, by decide +kernel, by decide +kernel, by decide +kernel, by decide +kernel, lem_bootable _ (by decide +kernel) (by decide +kernel), by decide +kernel⟩,
    ⟨{ oneDown 0 0 false false with fuses := { State.reset.fuses with flock := false } }, 1, by decide +kernel⟩, ⟨oneDown 0 2 false true, by decide +kernel⟩,
    ⟨(oneDown 0 5 false true).wr (aCore 0 0) 0, by decide +kernel⟩, ⟨oneDown 0 2 false false, by decide +kernel⟩, ⟨oneDown 0 2 false true, by decide +kernel⟩,
    ⟨oneDown 0 5 false true, by decide +kernel⟩, ⟨oneDown 0 5 true true, by decide +kernel⟩, ⟨State.reset, by decide +kernel⟩⟩

theorem witness_AppletContexts :
    (∃ (s : State) (k : Core) (c : Ctx) (msg : List Word), traps s k c = true ∧ nth 0 msg 2 ≠ 0 ∧ nth 0 msg 2 ≠ s.unit ∧ s.foldSet = false) ∧
    (∃ (s : State) (k : Core) (c : Ctx) (msg : List Word), traps s k c = true ∧ nth 0 msg 2 = 0 ∧ nth 0 msg 0 = 0x010000 ∧ c = 63) ∧
    (∃ (s : State) (k : Core) (c : Ctx) (msg : List Word), traps s k c = true ∧ nth 0 msg 2 = 0 ∧ nth 0 msg 0 = 0x020000) ∧
    (∃ (s : State) (k : Core) (c : Ctx) (msg : List Word), traps s k c = true ∧ nth 0 msg 2 = 0 ∧ (knownCmd (fld (nth 0 msg 0) 23 16)) = false) ∧
    (∃ (s : State) (k : Core) (c : Ctx) (msg : List Word), traps s k c = true ∧ nth 0 msg 2 = 0 ∧ knownCmd (fld (nth 0 msg 0) 23 16) = true ∧
      (cmdArgs (fld (nth 0 msg 0) 23 16)).1 = fld (nth 0 msg 0) 13 8 ∧ s.cmdLegal (fld (nth 0 msg 0) 23 16) = false) ∧
    (∃ (s : State) (k : Core) (c : Ctx) (msg : List Word), traps s k c = true ∧ nth 0 msg 2 = 0 ∧ fld (nth 0 msg 0) 23 16 = 0x78 ∧ fld (nth 0 msg 0) 13 8 = 1 ∧ s.cmdLegal 0x78 = true) ∧
    (∃ (s : State) (c : Ctx), (c.val != 0 && s.cae.ctxs[c].st == 2 && !s.cae.ctxs[c].preempted && !s.cae.ctxs[c].suspended) = false) :=
  ⟨⟨ctxOn duplex 63, 1, 63, [0x010000, 1, 7], by decide +kernel⟩, ⟨ctxOn duplex 63, 1, 63, [0x010000, 1, 0], by decide +kernel⟩, ⟨ctxOn duplex 1, 1, 1, [0x020000, 1, 0], by decide +kernel⟩,
    ⟨ctxOn duplex 1, 1, 1, [0xFF0000, 1, 0], by decide +kernel⟩, ⟨ctxOn duplex 63, 1, 63, [0x530300, 1, 0], by decide +kernel⟩,
    ⟨ctxOn duplex 63, 1, 63, [0x780100, 1, 0, 0], by decide +kernel⟩, ⟨State.reset, 0, by decide +kernel⟩⟩

/-- Mailbox m, posted by the host, carries a request; W0 serves alone, the device in a state. -/
def posted (d : DevState) (m : Nat) (ws : List Nat) : State :=
  { (at_ ((aCore 0 0, 0xA00000) :: (aMbctl m, 0x420000) :: ws.zipIdx.map fun e => (aMbbuf m e.2, e.1))) with
    dev := d
    start := .up
    mbOrder := [m] }

theorem witness_MailboxPhases :
    (∃ (s : State) (m : Mbox) (q p : Claimant), s.cycNow = [] ∧ (s.mayClaim q && s.fget (aMbctl m.val) 23 21 == 0) = true ∧ q = .link 3 ∧ s.mayClaim p = true ∧ p = .core 1) ∧
    (∃ (s : State) (m : Mbox) (q : Claimant), s.cycNow = [] ∧ (s.mayClaim q && s.fget (aMbctl m.val) 23 21 == 0) = false) ∧
    (∃ (s : State) (m n : Mbox) (q p : Claimant), s.cycNow = [] ∧ (s.mayClaim q && s.fget (aMbctl m.val) 20 17 == 3 && (s.fget (aMbctl m.val) 23 21 == 1 || s.fget (aMbctl m.val) 23 21 == 4)) = true ∧
      q = .core 1 ∧ (s.mayClaim p && s.fget (aMbctl n.val) 20 17 == 2 && (s.fget (aMbctl n.val) 23 21 == 1 || s.fget (aMbctl n.val) 23 21 == 4)) = true ∧ p = .core 0 ∧ n < m) ∧
    (∃ (s : State) (m : Mbox) (q : Claimant), s.cycNow = [] ∧ q = .host ∧ (s.mayClaim q && s.fget (aMbctl m.val) 20 17 == 1 && (s.fget (aMbctl m.val) 23 21 == 1 || s.fget (aMbctl m.val) 23 21 == 4)) = false) ∧
    (∃ (s : State) (m : Mbox), (s.fget (aMbctl m.val) 23 21 == 1 && !(s.fget (aMbctl m.val) 20 17 == 2 && s.halted 0) && !(s.fget (aMbctl m.val) 20 17 == 3 && s.halted 1)) = true ∧ s.cycNow = []) ∧
    (∃ (s : State) (m : Mbox), (s.fget (aMbctl m.val) 23 21 == 1 && !(s.fget (aMbctl m.val) 20 17 == 2 && s.halted 0) && !(s.fget (aMbctl m.val) 20 17 == 3 && s.halted 1)) = false) ∧
    (∃ (s : State) (m : Mbox), MbNext s m 1 ∧ s.seqCheck m = .refuse) ∧ (∃ (s : State) (m : Mbox) (c : Nat), MbNext s m c ∧ s.seqCheck m = .accept ∧ knownCmd c = false) ∧
    (∃ (s : State) (m : Mbox), MbNext s m 1 ∧ s.seqCheck m = .accept ∧ s.reqNarg m ≠ 0) ∧
    (∃ (s : State) (m : Mbox), MbNext s m 4 ∧ s.seqCheck m = .accept ∧ s.reqNarg m = 1 ∧ s.dev = .safe) ∧
    (∃ (s : State) (m : Mbox) (g : Link), s.mboxes[m].hold = .forward g ∧ s.mboxes[m].inbound = none ∧ s.mboxes[m].orphan = false ∧ NoFlips s) ∧
    (∃ (s : State) (m : Mbox), s.mboxes[m].hold = .none) :=
  ⟨⟨State.reset, 15, .link 3, .core 1, by decide +kernel⟩, ⟨at_ [(aMbctl 0, 0x200000)], 0, .debug, by decide +kernel⟩,
    ⟨at_ [(aMbctl 15, 0x860000), (aMbctl 0, 0x240000)], 15, 0, .core 1, .core 0, by decide +kernel⟩, ⟨State.reset, 0, .host, by decide +kernel⟩,
    ⟨at_ [(aMbctl 0, 0x260000)], 0, by decide +kernel⟩, ⟨State.reset, 15, by decide +kernel⟩,
    ⟨(posted .live 15 [0x010000, 9, 0]).modMbox 15 fun x => { x with isSet := true }, 15, by unfold MbNext Sound NoFlips; decide +kernel⟩,
    ⟨posted .live 0 [0xFF0000, 9, 0], 0, 0xFF, by unfold MbNext Sound NoFlips; decide +kernel⟩, ⟨posted .live 15 [0x010100, 9, 0, 0], 15, by unfold MbNext Sound NoFlips; decide +kernel⟩,
    ⟨posted .safe 15 [0x040100, 9, 0, 1], 15, by unfold MbNext Sound NoFlips; decide +kernel⟩,
    ⟨(at_ [(aMbctl 15, 0x620000)]).modMbox 15 fun x => { x with hold := .forward 3 }, 15, 3, by decide +kernel, by decide +kernel, by decide +kernel, by unfold NoFlips; decide +kernel⟩,
    ⟨State.reset, 0, by decide +kernel⟩⟩

theorem witness_ServedQueriesAndStates :
    (∃ (s : State) (m : Mbox), MbAccepted s m 0x01) ∧ (∃ (s : State) (m : Mbox), MbAccepted s m 0x02) ∧ (∃ (s : State) (m : Mbox), MbNext s m 0x03 ∧ s.reqNarg m = 0) ∧
    (∃ (s : State) (m : Mbox), MbAccepted s m 0x04 ∧ s.dev = .ready ∧ fld (mbArg s m 0) 2 0 = 3) ∧ (∃ (s : State) (m : Mbox), MbAccepted s m 0x05) ∧
    (∃ (s : State) (m : Mbox), MbAccepted s m 0x60) ∧ (∃ (s : State) (m : Mbox), MbAccepted s m 0x50) ∧
    (∃ (s : State) (m : Mbox), MbAccepted s m 0x31 ∧ s.badKind (fld (mbArg s m 0) 22 20) (fld (mbArg s m 0) 19 8) = false) ∧
    (∃ (s : State) (m : Mbox), MbAccepted s m 0x31 ∧ s.badKind (fld (mbArg s m 0) 22 20) (fld (mbArg s m 0) 19 8) = true) ∧
    (∃ (s : State) (m : Mbox), MbAccepted s m 0x72 ∧ mbArg s m 0 = 63) ∧ (∃ (s : State) (m : Mbox), MbAccepted s m 0x72 ∧ mbArg s m 0 = 0) ∧
    (∃ (s : State) (m : Mbox), MbAccepted s m 0x78 ∧ mbArg s m 0 = 63) ∧ (∃ (s : State) (m : Mbox), MbAccepted s m 0x78 ∧ (mbArg s m 0).toNat = 64) ∧
    (∀ e ∈ [(0, 0), (1, 0), (4, 3), (2, 1), (1, 1), (1, 2)], ∃ (s : State) (m : Mbox) (c : Ctx), MbAccepted s m 0x71 ∧ c.val ≠ 0 ∧ fld (mbArg s m 1) 5 0 = c.val ∧ s.cae.ctxs[c].st = e.1 ∧
      fld (mbArg s m 0) 23 22 = e.2 ∧ ∀ g ∈ s.cae.grants, g.grantee = c.val → g.kind ≠ 5) :=
  let a := fun (n : Nat) (op : Nat) => (posted .live 15 [0x710200, 9, 0, op * 2 ^ 22, 63]).modCtx 63 fun x => { x with st := n, pages := [191] }
  ⟨⟨posted .boot 15 [0x010000, 9, 0], 15, by unfold MbAccepted MbNext Sound NoFlips; decide +kernel⟩, ⟨posted .safe 0 [0x020000, 9, 0], 0, by unfold MbAccepted MbNext Sound NoFlips; decide +kernel⟩,
    ⟨posted .live 15 [0x030000, 9, 0], 15, by unfold MbNext Sound NoFlips; decide +kernel⟩, ⟨posted .ready 15 [0x040100, 9, 0, 3], 15, by unfold MbAccepted MbNext Sound NoFlips; decide +kernel⟩,
    ⟨posted .live 15 [0x050000, 9, 0], 15, by unfold MbAccepted MbNext Sound NoFlips; decide +kernel⟩, ⟨posted .live 15 [0x600000, 9, 0], 15, by unfold MbAccepted MbNext Sound NoFlips; decide +kernel⟩,
    ⟨posted .live 15 [0x500000, 9, 0], 15, by unfold MbAccepted MbNext Sound NoFlips; decide +kernel⟩, ⟨posted .live 15 [0x310100, 9, 0, 0x500F00], 15, by unfold MbAccepted MbNext Sound NoFlips; decide +kernel⟩,
    ⟨posted .live 15 [0x310100, 9, 0, 0x600000], 15, by unfold MbAccepted MbNext Sound NoFlips; decide +kernel⟩,
    ⟨posted .live 15 [0x720100, 9, 0, 63], 15, by unfold MbAccepted MbNext Sound NoFlips; decide +kernel⟩, ⟨posted .live 15 [0x720100, 9, 0, 0], 15, by unfold MbAccepted MbNext Sound NoFlips; decide +kernel⟩,
    ⟨posted .live 15 [0x780100, 9, 0, 63], 15, by unfold MbAccepted MbNext Sound NoFlips; decide +kernel⟩, ⟨posted .live 15 [0x780100, 9, 0, 64], 15, by unfold MbAccepted MbNext Sound NoFlips; decide +kernel⟩,
    fun e h => ⟨a e.1 e.2, 15, 63, by
      revert e; unfold MbAccepted MbNext Sound NoFlips; decide +kernel⟩⟩

theorem witness_ServedRegisterCommands :
    (∃ (s : State) (m : Mbox), MbAccepted s m 0x10 ∧ (mbArg s m 0).toNat = 8) ∧ (∃ (s : State) (m : Mbox), MbAccepted s m 0x13 ∧ (mbArg s m 0).toNat = 8) ∧
    (∀ c ∈ [0x11, 0x22, 0x23], ∃ (s : State) (m : Mbox), MbAccepted s m c ∧ s.headOff (fld (mbArg s m 0) 2 0) = true) ∧
    (∃ (s : State) (m : Mbox), MbAccepted s m 0x14 ∧ s.headOff (fld (mbArg s m 1) 23 21) = true) ∧
    (∃ (s : State) (m : Mbox) (h : Head), MbAccepted s m 0x10 ∧ s.headOff h.val = false ∧ mbArg s m 0 = wd h.val ∧ s.bget (aHead h.val 0) 23 = false) ∧
    (∃ (s : State) (m : Mbox) (h : Head), MbAccepted s m 0x10 ∧ s.headOff h.val = false ∧ mbArg s m 0 = wd h.val ∧ s.bget (aHead h.val 0) 23 = true) ∧
    (∃ (s : State) (m : Mbox) (h : Head), MbAccepted s m 0x11 ∧ s.headOff h.val = false ∧ fld (mbArg s m 0) 2 0 = h.val ∧ s.bget (aHead h.val 0) 23 = false ∧ bit (mbArg s m 0) 23 = false) ∧
    (∃ (s : State) (m : Mbox) (h : Head), MbAccepted s m 0x13 ∧ s.headOff h.val = false ∧ mbArg s m 0 = wd h.val ∧
      (s.bget (aHead h.val 0x30) 23 && !s.bget (aHead h.val 0x30) 22 && s.bget (aHead h.val 0x31) 23 &&
        (List.range (laneCount (s.fget (aHead h.val 0x32) 23 22))).all fun l => !s.bget (aHead h.val 0x31) (17 + l)) = true) ∧
    (∃ (s : State) (m : Mbox) (h : Head), MbAccepted s m 0x14 ∧ s.headOff h.val = false ∧ fld (mbArg s m 1) 23 21 = h.val ∧ bit (mbArg s m 0) 23 = false) ∧
    (∃ (s : State) (m : Mbox) (h : Head), MbAccepted s m 0x14 ∧ s.headOff h.val = false ∧ fld (mbArg s m 1) 23 21 = h.val ∧ bit (mbArg s m 0) 23 = true) ∧
    (∃ (s : State) (m : Mbox) (h : Head), MbAccepted s m 0x22 ∧ s.headOff h.val = false ∧ fld (mbArg s m 0) 2 0 = h.val ∧ s.namesOff (mbArg s m 2) (mbArg s m 3) = false) ∧
    (∃ (s : State) (m : Mbox) (h : Head), MbAccepted s m 0x23 ∧ s.headOff h.val = false ∧ fld (mbArg s m 0) 2 0 = h.val) ∧
    (∃ (s : State) (m : Mbox) (n : Fin 16), MbAccepted s m 0x12 ∧ mbArg s m 0 = wd (aLark (0x10 + n.val))) ∧
    (∃ (s : State) (m : Mbox), MbAccepted s m 0x12 ∧ cregStates (locOf (mbArg s m 0).toNat) = none) ∧
    (∃ (s : State) (m : Mbox) (p : Pad), MbAccepted s m 0x12 ∧ s.padOff p.val = true ∧ mbArg s m 0 = wd (aPad p.val 0x0D)) :=
  let a := fun (l : List (Nat × Nat)) (ws : List Nat) => l.foldl (fun (s : State) e => s.wr e.1 (wd e.2)) (posted .live 15 ws)
  let off := fun (s : State) => ({ s with fuses := { s.fuses with is2404 := true } } : State)
  ⟨⟨a [] [0x100900, 9, 0, 8], 15, by unfold MbAccepted MbNext Sound NoFlips; decide +kernel⟩, ⟨a [] [0x130100, 9, 0, 8], 15, by unfold MbAccepted MbNext Sound NoFlips; decide +kernel⟩,
    fun c h => ⟨off (a [] [c * 2 ^ 16 + (cmdArgs c).1 * 2 ^ 8, 9, 0, 4]), 15, by revert c; unfold MbAccepted MbNext Sound NoFlips; decide +kernel⟩,
    ⟨off (a [] [0x140800, 9, 0, 0, 0x80000F]), 15, by unfold MbAccepted MbNext Sound NoFlips; decide +kernel⟩,
    ⟨a [] [0x100900, 9, 0, 7], 15, 7, by unfold MbAccepted MbNext Sound NoFlips; decide +kernel⟩,
    ⟨a [(aHead 7 0, 0x800000)] [0x100900, 9, 0, 7], 15, 7, by unfold MbAccepted MbNext Sound NoFlips; decide +kernel⟩,
    ⟨a [] [0x110300, 9, 0, 7], 15, 7, by unfold MbAccepted MbNext Sound NoFlips; decide +kernel⟩,
    ⟨a [(aHead 7 0x30, 0x800000), (aHead 7 0x31, 0x800000), (aHead 7 0x32, 0x800000)] [0x130100, 9, 0, 7], 15, 7, by unfold MbAccepted MbNext Sound NoFlips; decide +kernel⟩,
    ⟨a [] [0x140800, 9, 0, 0, 0xE0000F], 15, 7, by unfold MbAccepted MbNext Sound NoFlips; decide +kernel⟩,
    ⟨a [] [0x140800, 9, 0, 0x800000, 0xE0000F], 15, 7, by unfold MbAccepted MbNext Sound NoFlips; decide +kernel⟩,
    ⟨a [] [0x220500, 9, 0, 7], 15, 7, by unfold MbAccepted MbNext Sound NoFlips; decide +kernel⟩, ⟨a [] [0x230200, 9, 0, 7], 15, 7, by unfold MbAccepted MbNext Sound NoFlips; decide +kernel⟩,
    ⟨a [] [0x120200, 9, 0, aLark 0x1F, 5], 15, 15, by unfold MbAccepted MbNext Sound NoFlips; decide +kernel⟩, ⟨a [] [0x120200, 9, 0, 0, 5], 15, by unfold MbAccepted MbNext Sound NoFlips; decide +kernel⟩,
    ⟨off (a [] [0x120200, 9, 0, aPad 15 0x0D, 5]), 15, 15, by unfold MbAccepted MbNext Sound NoFlips; decide +kernel⟩⟩

theorem witness_ServedRegisterCommands_words :
    (∃ (s : State) (m : Mbox), MbAccepted s m 0x20 ∧ (mbArg s m 1).toNat = 58 ∧ 0x140000 ≤ (mbArg s m 0).toNat ∧ (mbArg s m 0).toNat + 58 = 0x200000) ∧
    (∃ (s : State) (m : Mbox), MbAccepted s m 0x20 ∧ (mbArg s m 1).toNat = 59) ∧
    (∃ (s : State) (m : Mbox), MbAccepted s m 0x20 ∧ (mbArg s m 1).toNat = 58 ∧ caeOnly (locOf (((mbArg s m 0).toNat + 57) % 2 ^ 24)) = true) ∧
    (∃ (s : State) (m : Mbox), MbAccepted s m 0x20 ∧ (mbArg s m 1).toNat = 1 ∧ locOf ((mbArg s m 0).toNat % 2 ^ 24) = .unmapped ∧ caeOnly (locOf ((mbArg s m 0).toNat % 2 ^ 24)) = false) ∧
    (∃ (s : State) (m : Mbox), MbAccepted s m 0x21 ∧ s.reqNarg m = 2 ∧ caeOnly (locOf (mbArg s m 0).toNat) = true) ∧
    (∃ (s : State) (m : Mbox) (h : Head) (n : Slot) (w : Fin 16), MbAccepted s m 0x21 ∧ s.reqNarg m = 2 ∧ (mbArg s m 0).toNat = aDesc h.val n.val w.val ∧ s.headOff h.val = false ∧ s.cycNow = []) ∧
    (∃ (s : State) (m : Mbox), MbAccepted s m 0x21 ∧ s.reqNarg m = 2 ∧ locOf (mbArg s m 0).toNat = .unmapped) ∧
    (∃ (s : State) (m : Mbox), MbAccepted s m 0x30 ∧ bit (mbArg s m 0) 23 = true ∧ fld (mbArg s m 0) 22 20 ≠ 5 ∧
      (s.badKind (fld (mbArg s m 0) 22 20) (fld (mbArg s m 0) 19 8) || s.badGrantee (fld (mbArg s m 0) 6 0)) = false ∧
      { kind := fld (mbArg s m 0) 22 20, index := fld (mbArg s m 0) 19 8, grantee := fld (mbArg s m 0) 6 0 } ∉ s.cae.grants ∧ s.cae.grants.length = 511) ∧
    (∃ (s : State) (m : Mbox), MbAccepted s m 0x30 ∧ bit (mbArg s m 0) 23 = true ∧ fld (mbArg s m 0) 22 20 ≠ 5 ∧
      (s.badKind (fld (mbArg s m 0) 22 20) (fld (mbArg s m 0) 19 8) || s.badGrantee (fld (mbArg s m 0) 6 0)) = false ∧
      { kind := fld (mbArg s m 0) 22 20, index := fld (mbArg s m 0) 19 8, grantee := fld (mbArg s m 0) 6 0 } ∉ s.cae.grants ∧ s.cae.grants.length = 512) ∧
    (∃ (s : State) (m : Mbox), MbAccepted s m 0x30 ∧ bit (mbArg s m 0) 23 = false ∧ fld (mbArg s m 0) 22 20 ≠ 5 ∧
      (s.badKind (fld (mbArg s m 0) 22 20) (fld (mbArg s m 0) 19 8) || s.badGrantee (fld (mbArg s m 0) 6 0)) = false ∧ s.cae.grants.length = 512) :=
  let g := fun (n : Nat) (w : Nat) => ({ posted .live 15 [0x300100, 9, 0, w] with cae := { State.reset.cae with grants := List.replicate n { kind := 0, index := 0, grantee := 1 } } } : State)
  ⟨⟨posted .live 15 [0x200200, 9, 0, 0x1FFFC6, 58], 15, by unfold MbAccepted MbNext Sound NoFlips; decide +kernel⟩,
    ⟨posted .live 15 [0x200200, 9, 0, 0x1FFFC6, 59], 15, by unfold MbAccepted MbNext Sound NoFlips; decide +kernel⟩,
    ⟨posted .live 15 [0x200200, 9, 0, 0x100000, 58], 15, by unfold MbAccepted MbNext Sound NoFlips; decide +kernel⟩,
    ⟨posted .live 15 [0x200200, 9, 0, 0xC00000, 1], 15, by unfold MbAccepted MbNext Sound NoFlips; decide +kernel⟩,
    ⟨posted .live 15 [0x210200, 9, 0, 0x100000, 1], 15, by unfold MbAccepted MbNext Sound NoFlips; decide +kernel⟩,
    ⟨posted .live 15 [0x210200, 9, 0, aDesc 7 7 15, 1], 15, 7, 7, 15, by unfold MbAccepted MbNext Sound NoFlips; decide +kernel⟩,
    ⟨posted .live 15 [0x210200, 9, 0, 0xC00000, 1], 15, by unfold MbAccepted MbNext Sound NoFlips; decide +kernel⟩,
    ⟨g 511 0xC00F3F, 15, by unfold MbAccepted MbNext Sound NoFlips; decide +kernel⟩, ⟨g 512 0xC00F3F, 15, by unfold MbAccepted MbNext Sound NoFlips; decide +kernel⟩,
    ⟨g 512 0x400F3F, 15, by unfold MbAccepted MbNext Sound NoFlips; decide +kernel⟩⟩

/-- A request in mailbox 15 with registers and DRAM contents beside it; DRAM is trained. -/
def served (d : DevState) (ws : List Nat) (l : List (Nat × Nat)) (mem : BMem) : State :=
  { l.foldl (fun (s : State) e => s.wr e.1 (wd e.2)) ((posted d 15 ws).wr (aDram 0) 0x800000 |>.wr (aDram 1) 0xFF8000) with dram := mem }

/-- The base point as a public key: that of the private key 1. -/
def pubG : List Byte := bytesBE 48 g384.1 ++ bytesBE 48 g384.2

/-- A stream for P15 of one segment of three bytes (0, under a key K0 of zeros), its K0 wrapped for family 1 (whose FAMK is zeros), its map without a flag, signed by that
private key for slot 0; every value is worked out outside the model, from the standards. -/
def streamHead : List Byte := ascii "KZSW" ++ [1, 0, 1, 1] ++ bytesLE 3 0x240811 ++ zeros 5 ++ bytesLE 2 0x8000 ++ [1, 0] ++ bytesLE 3 1 ++ zeros 17 ++
  bytesBE 40 0x6aa210e6fe6e079e9c322449dd5a7fd42e57c0aec4a23f6ce313720f92d00ef4ed9f6ccf458dbb6d ++
  bytesBE 48 0x615abd77722b322892385b9ba6557ded6d946f359cfb29c016a98fc8032ebcfeb328ea7f8f3432d02ea549ac6bc0c026 ++ pubG ++
  bytesLE 4 3 ++ [15] ++ zeros 11 ++ bytesBE 16 0x9732a485ccda74de075c313ac94ca924

/-- The stream with its signature and its segment. -/
def streamBytes : List Byte := streamHead ++
  bytesBE 48 0x984624dbbc8fdefd7ba2e467f1d5f330359b9a95accc2360e5e3a5e417f4ee6b505644d37ff69d9d9010e7b900ae3d24 ++
  bytesBE 48 0xe74901f3b7e7efd7a8f9456add6dce414fbe1150647f5d95d83f9e68d69783354176011bab2a07999bf816e302aa619f ++ [0xce, 0xa7, 0x40]

/-- Its header as read. -/
def theStream : Stream := readStream fun off n => (streamBytes.drop off).take n

/-- The stream in block 4 of DRAM. -/
def streamMem : BMem := (streamBytes.zipIdx.filter fun e => e.1 != 0).map fun e => (8192 + e.2, e.1)

/-- Slot 0 holds that key; the device is of family 1. -/
def slotted (s : State) : State := { s with fuses := { s.fuses with famid := 1, slots := #v[some (BitVec.ofNat 384 (ofBytesBE (sha384 pubG))), none, none, none] } }

/-- STAGE and BIND of it. -/
def stagesIt : State := slotted (served .live [0x400400, 9, 0, 4, 355, 8, 34] [] streamMem)

/-- BIND of it. -/
def bindsIt : State := slotted (served .maint [0x440200, 9, 0, 4, 20] [] streamMem)

/-- STAGE of it without its key. -/
def unkeyedIt : State := served .live [0x400400, 9, 0, 4, 355, 8, 34] [] streamMem

/-- STAGE of it with no image entry free. -/
def fullIt : State := { stagesIt with ws := (List.range 64).foldl (fun m e => spSet wsReset m (aImage e 0) 0x800000) stagesIt.ws }

/-- BIND of it without its key. -/
def unboundIt : State := served .maint [0x440200, 9, 0, 4, 20] [] streamMem

theorem lem_stream_signed : theStream.signed = true := by decide +kernel

theorem lem_stream_key : keyUnwrap (kdf (zeros 32) "KZSW-KEK-FAM" (bytesBE 3 1)) theStream.wkey = some (zeros 32) := by decide +kernel

theorem lem_stages_reads : readStream (stagesIt.dramAt (mbArg stagesIt 15 0)) = theStream := by decide +kernel

/-- What DRAM reads as depends on its contents, its queues and its two first registers alone. -/
theorem lem_dramAt (s t : State) (hd : s.dram = t.dram) (hc : s.chans = t.chans) (h0 : s.rd (aDram 0) = t.rd (aDram 0)) (h1 : s.rd (aDram 1) = t.rd (aDram 1)) : s.dramAt = t.dramAt := by
  have c : ∀ a, s.chanOf a = t.chanOf a := fun a => by unfold State.chanOf State.fget; rw [h0]
  have k : s.dramCap = t.dramCap := by unfold State.dramCap State.nch State.fget State.bget; rw [h0, h1]
  funext w o n
  simp only [State.dramAt, State.nowBytes, State.unitNow, State.dramBytes, c, k, hd, hc]

/-- A state whose DRAM is that of stagesIt reads the stream there. -/
theorem lem_reads (s : State) (hd : s.dram = stagesIt.dram) (hc : s.chans = stagesIt.chans) (h : (s.rd (aDram 0) = stagesIt.rd (aDram 0) ∧ s.rd (aDram 1) = stagesIt.rd (aDram 1)) ∧
    mbArg s 15 0 = mbArg stagesIt 15 0) : readStream (s.dramAt (mbArg s 15 0)) = theStream := by
  rw [lem_dramAt s stagesIt hd hc h.1.1 h.1.2, h.2, lem_stages_reads]

/-- No binding record follows the stream: its K0 is the family's. -/
theorem lem_family_key (s : State) (g : Nat → Nat → List Byte) (n : Nat) (hb : (if theStream.size + 48 ≤ n then g theStream.size 48 else []).take 4 ≠ ascii "KZBD")
    (hi : s.fuses.famid = 1) (hk : s.fuses.famk = zeros 32) : s.streamKey theStream g n = some (zeros 32) := by
  have f : theStream.keysrc = 1 ∧ theStream.family = s.fuses.famid ∧ s.fuses.famid ≠ 0 := by rw [hi]; decide +kernel
  have w : theStream.family = 1 := by decide +kernel
  have b : bytesBE 3 theStream.family.toNat = bytesBE 3 1 := by rw [w]; decide
  unfold State.streamKey
  simp only [if_neg hb, if_pos f, hk, b]
  exact lem_stream_key

theorem lem_binds_reads : readStream (bindsIt.dramAt (mbArg bindsIt 15 0)) = theStream :=
  lem_reads bindsIt (by decide +kernel) (by decide +kernel) (by decide +kernel)

theorem lem_unkeyed_reads : readStream (unkeyedIt.dramAt (mbArg unkeyedIt 15 0)) = theStream :=
  lem_reads unkeyedIt (by decide +kernel) (by decide +kernel) (by decide +kernel)

theorem lem_full_reads : readStream (fullIt.dramAt (mbArg fullIt 15 0)) = theStream :=
  lem_reads fullIt (by decide +kernel) (by decide +kernel) (by decide +kernel)

theorem lem_unbound_reads : readStream (unboundIt.dramAt (mbArg unboundIt 15 0)) = theStream :=
  lem_reads unboundIt (by decide +kernel) (by decide +kernel) (by decide +kernel)

theorem witness_ServedStreamCommands :
    (∃ (s : State) (m : Mbox), MbAccepted s m 0x40 ∧ s.streamFits (readStream (s.dramAt (mbArg s m 0))) (mbArg s m 1).toNat = false) ∧
    (∃ (s : State) (m : Mbox), MbAccepted s m 0x40 ∧ s.streamFits (readStream (s.dramAt (mbArg s m 0))) (mbArg s m 1).toNat = true ∧ s.streamKeyed (readStream (s.dramAt (mbArg s m 0))) = false) ∧
    (∃ (s : State) (m : Mbox), MbAccepted s m 0x40 ∧ s.streamFits (readStream (s.dramAt (mbArg s m 0))) (mbArg s m 1).toNat = true ∧ s.streamKeyed (readStream (s.dramAt (mbArg s m 0))) = true ∧
      s.freeImages.length < (readStream (s.dramAt (mbArg s m 0))).pads.length) ∧
    (∃ (s : State) (m : Mbox), MbAccepted s m 0x44 ∧ s.streamFits (readStream (s.dramAt (mbArg s m 0))) (readStream (s.dramAt (mbArg s m 0))).size = false) ∧
    (∃ (s : State) (m : Mbox), MbAccepted s m 0x44 ∧ s.streamFits (readStream (s.dramAt (mbArg s m 0))) (readStream (s.dramAt (mbArg s m 0))).size = true ∧
      s.streamKeyed (readStream (s.dramAt (mbArg s m 0))) = false) := by
  refine ⟨⟨served .live [0x400400, 9, 0, 4, 355, 0, 0] [] [], 15, by unfold MbAccepted MbNext Sound NoFlips; decide +kernel⟩,
    ⟨unkeyedIt, 15, by unfold MbAccepted MbNext Sound NoFlips; decide +kernel, ?_⟩,
    ⟨fullIt, 15, by unfold MbAccepted MbNext Sound NoFlips; decide +kernel, ?_⟩,
    ⟨served .maint [0x440200, 9, 0, 5, 20] [] [], 15, by unfold MbAccepted MbNext Sound NoFlips; decide +kernel⟩,
    ⟨unboundIt, 15, by unfold MbAccepted MbNext Sound NoFlips; decide +kernel, ?_⟩⟩
  · rw [lem_unkeyed_reads]; decide +kernel
  · rw [lem_full_reads]; decide +kernel
  · rw [lem_unbound_reads]; decide +kernel

/-- The base point as the words of a public key. -/
def pubWords : List Nat := (wordsOfBytes (bytesBE 48 g384.1 ++ bytesBE 48 g384.2)).map (·.toNat)

/-- STAGE of the stream: every check passes. -/
theorem witness_ServedStreamCommands_stage : ∃ (s : State) (m : Mbox), MbAccepted s m 0x40 ∧ let g := s.dramAt (mbArg s m 0); let x := readStream g
    let map := wordsOfBytes (s.dramAt (mbArg s m 2) 0 (3 * (mbArg s m 3).toNat))
    s.streamFits x (mbArg s m 1).toNat = true ∧ s.streamKeyed x = true ∧ x.pads.length ≤ s.freeImages.length ∧ ((x.parts g map).map StagePart.units).sum ≤ s.dramCap / 2048 ∧
      (s.streamKey x g (mbArg s m 1).toNat).isSome = true ∧ x.signed = true ∧ sha384 (bytesOfWords map) = x.mapdig := by
  refine ⟨stagesIt, 15, by unfold MbAccepted MbNext Sound NoFlips; decide +kernel, ?_⟩
  simp only [lem_stages_reads]
  have b : (mbArg stagesIt 15 1).toNat = 355 := by decide +kernel
  rw [b]
  exact ⟨by decide +kernel, by decide +kernel, by decide +kernel, by decide +kernel,
    by rw [lem_family_key stagesIt _ _ (by decide +kernel) (by decide +kernel) (by decide +kernel)]; rfl, lem_stream_signed, by decide +kernel⟩

/-- BIND of it: every check passes. -/
theorem witness_ServedStreamCommands_bind : ∃ (s : State) (m : Mbox) (k0 : List Byte), MbAccepted s m 0x44 ∧ FreshCycle s ∧ let g := s.dramAt (mbArg s m 0); let x := readStream g
    s.streamFits x x.size = true ∧ s.streamKeyed x = true ∧ s.streamKey x g (x.size + 48) = some k0 ∧ x.signed = true ∧ x.tagsGood k0 g = true := by
  refine ⟨bindsIt, 15, zeros 32, by unfold MbAccepted MbNext Sound NoFlips; decide +kernel, by unfold FreshCycle; decide +kernel, ?_⟩
  simp only [lem_binds_reads]
  exact ⟨by decide +kernel, by decide +kernel, lem_family_key bindsIt _ _ (by decide +kernel) (by decide +kernel) (by decide +kernel), lem_stream_signed, by decide +kernel⟩

theorem witness_ServedStreamCommands_loads :
    (∃ (s : State) (m : Mbox) (e : Fin 64), MbAccepted s m 0x41 ∧ mbArg s m 0 = wd e.val ∧ s.bget (aImage e.val 0) 23 = true ∧ s.imageUsed e.val = false) ∧
    (∃ (s : State) (m : Mbox) (e : Fin 64), MbAccepted s m 0x41 ∧ mbArg s m 0 = wd e.val ∧ s.bget (aImage e.val 0) 23 = true ∧ s.imageUsed e.val = true) ∧
    (∃ (s : State) (m : Mbox), MbAccepted s m 0x41 ∧ (mbArg s m 0).toNat = 64) ∧
    (∀ v ∈ [true, false], ∃ (s : State) (m : Mbox) (p : Pad), fld (mbArg s m 0) 19 16 = p.val ∧ s.padOff p.val = false ∧ s.icp = none ∧ s.icpQueue = [] ∧ s.pads[p].repair = none ∧ MbAccepted s m 0x42 ∧
      bit (mbArg s m 0) 23 = false ∧ s.imageFor (fld (mbArg s m 0) 5 0) p.val = v ∧ s.bget aIcpstat 23 = false) ∧
    (∃ (s : State) (m : Mbox) (p : Pad), fld (mbArg s m 0) 19 16 = p.val ∧ s.padOff p.val = false ∧ s.icp = none ∧ s.icpQueue = [] ∧ s.pads[p].repair = none ∧ MbAccepted s m 0x42 ∧
      bit (mbArg s m 0) 23 = true ∧ s.headOff (fld (mbArg s m 0) 22 20) = false ∧ s.imageFor (fld (mbArg s m 0) 5 0) p.val = true) ∧
    (∀ v ∈ [true, false], ∃ (s : State) (m : Mbox) (p : Pad), fld (mbArg s m 1) 19 16 = p.val ∧ s.padOff p.val = false ∧ s.icp = none ∧ s.icpQueue = [] ∧ s.pads[p].repair = none ∧ MbAccepted s m 0x43 ∧
      fld (mbArg s m 0) 23 22 = 0 ∧ s.loaded p.val = v ∧ fld (mbArg s m 2) 9 0 = 799 ∧ s.bget aIcpstat 23 = false) ∧
    (∃ (s : State) (m : Mbox) (p : Pad), fld (mbArg s m 1) 19 16 = p.val ∧ s.padOff p.val = false ∧ s.icp = none ∧ s.icpQueue = [] ∧ s.pads[p].repair = none ∧ MbAccepted s m 0x43 ∧
      fld (mbArg s m 0) 23 22 = 1 ∧ s.loaded p.val = true ∧ s.bget (aPad p.val 0x0D) 23 = true ∧ s.bget aIcpstat 23 = false) ∧
    (∃ (s : State) (m : Mbox) (p : Pad), fld (mbArg s m 1) 19 16 = p.val ∧ s.padOff p.val = false ∧ s.icp = none ∧ s.icpQueue = [] ∧ s.pads[p].repair = none ∧ MbAccepted s m 0x43 ∧
      fld (mbArg s m 0) 23 22 = 1 ∧ s.loaded p.val = true ∧ s.bget (aPad p.val 0x0D) 23 = false ∧ s.running (s.fget (aPad p.val 0x0D) 22 20) = true) :=
  let img := (aImage 63 0, 0xF80000)
  let load := [(aPad 15 1, 0x800000), (aPad 15 0x0D, 0x800000), (aPad 15 0x0A, 0x0FC000)]
  ⟨⟨served .live [0x410100, 9, 0, 63] [img] [], 15, 63, by unfold MbAccepted MbNext Sound NoFlips; decide +kernel⟩,
    ⟨served .live [0x410100, 9, 0, 63] (img :: load) [], 15, 63, by unfold MbAccepted MbNext Sound NoFlips; decide +kernel⟩,
    ⟨served .live [0x410100, 9, 0, 64] [] [], 15, by unfold MbAccepted MbNext Sound NoFlips; decide +kernel⟩,
    fun v h => ⟨served .live [0x420200, 9, 0, 0x0F003F, 0] (if v then [img] else []) [], 15, 15, by revert v; unfold MbAccepted MbNext Sound NoFlips; decide +kernel⟩,
    ⟨served .live [0x420200, 9, 0, 0xFF003F, 0] [img] [], 15, 15, by unfold MbAccepted MbNext Sound NoFlips; decide +kernel⟩,
    fun v h => ⟨served .live [0x430300, 9, 0, 0, 0x0F0000, 799] (if v then load else []) [], 15, 15, by revert v; unfold MbAccepted MbNext Sound NoFlips; decide +kernel⟩,
    ⟨served .live [0x430300, 9, 0, 0x400000, 0x0F0000, 0] load [], 15, 15, by unfold MbAccepted MbNext Sound NoFlips; decide +kernel⟩,
    ⟨({ served .live [0x430300, 9, 0, 0x400000, 0x0F0000, 0] [(aPad 15 1, 0x800000), (aPad 15 0x0D, 0x700005), (aPad 15 0x0A, 0x0FC000), (aHead 7 0, 0x800000), (aHead 7 1, 0x800000)] [] with
        heads := State.reset.heads.set 7 { State.reset.heads[7] with phase := .running } } : State), 15, 15, by unfold MbAccepted MbNext Sound NoFlips; decide +kernel⟩⟩

theorem witness_ServedStreamCommands_fuses :
    (∃ (s : State) (m : Mbox) (e : Fin 64) (k : KeyEnt), s.bget (aImage e.val 0) 23 = true ∧ s.keys[e] = some k ∧ MbAccepted s m 0x45 ∧ mbArg s m 0 = wd e.val) ∧
    (∃ (s : State) (m : Mbox) (e : Fin 64) (k : KeyEnt) (n : Fin 4), s.bget (aImage e.val 0) 23 = true ∧ s.keys[e] = some k ∧ MbAccepted s m 0x47 ∧ mbArg s m 1 = wd e.val ∧ mbArg s m 0 = wd n.val ∧
      k.sigslot ≠ n.val ∧ s.fuses.slotrev.getLsbD k.sigslot = false) ∧
    (∃ (s : State) (m : Mbox) (e : Fin 64) (k : KeyEnt) (n : Fin 4), s.bget (aImage e.val 0) 23 = true ∧ s.keys[e] = some k ∧ MbAccepted s m 0x47 ∧ mbArg s m 1 = wd e.val ∧ mbArg s m 0 = wd n.val ∧
      k.sigslot = n.val) ∧
    (∃ (s : State) (m : Mbox), MbAccepted s m 0x46 ∧ mbArg s m 0 = 0) ∧
    (∃ (s : State) (m : Mbox), MbAccepted s m 0x46 ∧ mbArg s m 0 ≠ 0 ∧ s.fuses.fklock = false) ∧ (∃ (s : State) (m : Mbox), MbAccepted s m 0x46 ∧ mbArg s m 0 ≠ 0 ∧ s.fuses.fklock = true) ∧
    (∃ (s : State) (m : Mbox), MbAccepted s m 0x48 ∧ (mbArg s m 0).toNat = 4) ∧
    (∃ (s : State) (m : Mbox), MbAccepted s m 0x48 ∧ (mbArg s m 0).toNat = 3 ∧ onCurve (pubKey (bytesOfWords ((List.range 32).map fun i => mbArg s m (5 + i)))) = true ∧
      s.slotHolds 3 (bytesOfWords ((List.range 32).map fun i => mbArg s m (5 + i))) = false) ∧
    (∃ (s : State) (m : Mbox), MbAccepted s m 0x48 ∧ (mbArg s m 0).toNat = 3 ∧ onCurve (pubKey (bytesOfWords ((List.range 32).map fun i => mbArg s m (5 + i)))) = true ∧
      s.slotHolds 3 (bytesOfWords ((List.range 32).map fun i => mbArg s m (5 + i))) = true) :=
  let k : KeyEnt := { key := zeros 32, streamId := zeros 16, sigslot := 0, arb := 255, segs := 1 }
  let keyed := fun (ws : List Nat) => ({ served .maint ws [(aImage 63 0, 0xF80000)] [] with keys := Vector.replicate 64 (some k) } : State)
  let att := served .live ([0x482500, 9, 0, 3, 1, 2, 3, 4] ++ (wordsOfBytes pubG).map (·.toNat)) [] []
  ⟨⟨keyed [0x450100, 9, 0, 63], 15, 63, k, by unfold MbAccepted MbNext Sound NoFlips; decide +kernel⟩,
    ⟨keyed [0x470200, 9, 0, 3, 63], 15, 63, k, 3, by unfold MbAccepted MbNext Sound NoFlips; decide +kernel⟩, ⟨keyed [0x470200, 9, 0, 0, 63], 15, 63, k, 0, by unfold MbAccepted MbNext Sound NoFlips; decide +kernel⟩,
    ⟨served .maint (0x460D00 :: 9 :: 0 :: 0 :: List.replicate 12 7) [] [], 15, by unfold MbAccepted MbNext Sound NoFlips; decide +kernel⟩,
    ⟨served .maint (0x460D00 :: 9 :: 0 :: List.replicate 13 7) [] [], 15, by unfold MbAccepted MbNext Sound NoFlips; decide +kernel⟩,
    ⟨{ served .maint (0x460D00 :: 9 :: 0 :: List.replicate 13 7) [] [] with fuses := { State.reset.fuses with fklock := true } }, 15, by unfold MbAccepted MbNext Sound NoFlips; decide +kernel⟩,
    ⟨served .live (0x482500 :: 9 :: 0 :: List.replicate 37 4) [] [], 15, by unfold MbAccepted MbNext Sound NoFlips; decide +kernel⟩, ⟨att, 15, by unfold MbAccepted MbNext Sound NoFlips; decide +kernel⟩,
    ⟨{ att with fuses := { State.reset.fuses with slots := #v[none, none, none, some (BitVec.ofNat 384 (ofBytesBE (sha384 pubG)))] } }, 15, by
      unfold MbAccepted MbNext Sound NoFlips; decide +kernel⟩⟩

/-- A Caeruno image, or an applet's header, in block 4 of DRAM. -/
def imageMem (magic abi w3 w4 w5 : Nat) : BMem := spWrite zeroB [] 8192 (bytesOfWords ((([magic, 1, abi, w3, w4, w5, 0x112233].map wd) ++ List.replicate 74 0)))

/-- The directory's sectors are no place for a region, whatever the flash's size. -/
theorem lem_badRegion (s : State) (target off n : Nat) (h : off < 0x2000) : s.badRegion target off n = true := by simp [State.badRegion, h]

/-- An applet of one word, signed for slot 0 by the private key 1, in block 4 of DRAM. -/
def appletMem : BMem :=
  let l : List Byte := bytesOfWords (([0x415A4B, 1, 0x020064, 0, 0, 0, 0x112233].map wd) ++ List.replicate 9 0) ++ pubG ++
    bytesBE 48 0xf56585c9f8ccd1981388af2f0baa41f9d3ee64cb50263cef14e9fec36e0696194948e73518b53d994ecae99223469417 ++
    bytesBE 48 0xab91e556db68e054cfc885999439146d24078fad30df6f6fee2d101f09b4fe483fa13bb815dae437692de33684e913c5 ++ [7, 0, 0]
  (l.zipIdx.filter fun e => e.1 != 0).map fun e => (8192 + e.2, e.1)

theorem witness_ServedImageCommands :
    (∃ (s : State) (m : Mbox), MbAccepted s m 0x06 ∧ (mbArg s m 0).toNat + (s.reqNarg m - 1) = 2 ^ 20) ∧
    (∃ (s : State) (m : Mbox), MbAccepted s m 0x06 ∧ (mbArg s m 0).toNat + (s.reqNarg m - 1) = 2 ^ 20 + 1) ∧
    (∃ (s : State) (m : Mbox), MbAccepted s m 0x07 ∧ (mbArg s m 0).toNat = 80 ∧ s.fuses.flock = true) ∧ (∃ (s : State) (m : Mbox), MbAccepted s m 0x07 ∧ (mbArg s m 0).toNat = 79) ∧
    (∃ (s : State) (m : Mbox), MbAccepted s m 0x51 ∧ s.badRegion (fld (mbArg s m 0) 1 0) (mbArg s m 3).toNat (mbArg s m 2).toNat = true) ∧
    (∃ (s : State) (m : Mbox), MbAccepted s m 0x52 ∧ s.hostFn 6 = false) ∧ (∃ (s : State) (m : Mbox), MbAccepted s m 0x53 ∧ (mbArg s m 0).toNat = 52) ∧
    (∃ (s : State) (m : Mbox), MbAccepted s m 0x53 ∧ (mbArg s m 0).toNat = 36 ∧ 2 ≤ (mbArg s m 1).toNat + 2 ^ 24 * fld (mbArg s m 2) 7 0) ∧
    (∃ (s : State) (m : Mbox), MbAccepted s m 0x58 ∧ (argAt (s.imageWords (mbArg s m 0) 80) 0 == 0x435A4B && decide (3 * (80 + (argAt (s.imageWords (mbArg s m 0) 80) 1).toNat) ≤ (mbArg s m 1).toNat) &&
      fld (argAt (s.imageWords (mbArg s m 0) 80) 2) 23 16 == fld s.cae.abi 23 16) = true) ∧
    (∃ (s : State) (m : Mbox), MbAccepted s m 0x58 ∧ (argAt (s.imageWords (mbArg s m 0) 80) 0 == 0x435A4B && decide (3 * (80 + (argAt (s.imageWords (mbArg s m 0) 80) 1).toNat) ≤ (mbArg s m 1).toNat) &&
      fld (argAt (s.imageWords (mbArg s m 0) 80) 2) 23 16 == fld s.cae.abi 23 16) = false) ∧
    (∃ (s : State) (m : Mbox), MbAccepted s m 0x59 ∧ s.cae.staged = none) ∧ (∃ (s : State) (m : Mbox), MbAccepted s m 0x59 ∧ s.cae.staged ≠ none ∧ (s.alive 0 && s.alive 1 && s.role 0 == 1 && s.role 1 == 1) = false) ∧
    (∀ v ∈ [true, false], ∃ (s : State) (m : Mbox), MbAccepted s m 0x59 ∧ s.cae.staged ≠ none ∧ s.cae.relay = 0 ∧ (s.alive 0 && s.alive 1 && s.role 0 == 1 && s.role 1 == 1) = true ∧ s.coreBusy 1 = v) ∧
    (∃ (s : State) (m : Mbox) (f : Fin 8), MbAccepted s m 0x61 ∧ fld (mbArg s m 0) 2 0 = f.val ∧ headBound f.val = false ∧ s.cae.split[f].mode.getLsbD 0 = bit (mbArg s m 0) 3 ∧ s.cae.split[f].pend = 0) ∧
    (∃ (s : State) (m : Mbox) (f : Fin 8), MbAccepted s m 0x61 ∧ fld (mbArg s m 0) 2 0 = f.val ∧ headBound f.val = false ∧ f.val ≠ 3 ∧ f.val ≠ 5 ∧ s.anyRunning = false ∧
      (∀ h : Head, s.running h.val = false) ∧ s.cae.split[f].mode.getLsbD 0 ≠ bit (mbArg s m 0) 3) ∧
    (∃ (s : State) (m : Mbox) (f : Fin 8), MbAccepted s m 0x61 ∧ fld (mbArg s m 0) 2 0 = f.val ∧ headBound f.val = true ∧
      ((List.range 8).any fun h => (fld (mbArg s m 0) 23 16).testBit h && s.heads[Fin.ofNat 8 h].configured) = false) ∧
    (∃ (s : State) (m : Mbox) (c : Ctx), MbAccepted s m 0x70 ∧ c.val ≠ 0 ∧ mbArg s m 0 = wd c.val ∧ appletFits (s.imageWords (mbArg s m 1) 80) (mbArg s m 2).toNat = false) ∧
    (∃ (s : State) (m : Mbox) (c : Ctx), MbAccepted s m 0x70 ∧ c.val ≠ 0 ∧ mbArg s m 0 = wd c.val ∧ appletFits (s.imageWords (mbArg s m 1) 80) (mbArg s m 2).toNat = true ∧
      s.slotHolds (argAt (s.imageWords (mbArg s m 1) 80) 5).toNat (bytesOfWords (((s.imageWords (mbArg s m 1) 80).drop 16).take 32)) = false) :=
  let rom := fun (ws : List Nat) => ({ (posted .boot 15 ws).wr (aCore 0 0) 0 with reason := 1 } : State)
  let app := imageMem 0x415A4B 0x020064 0 0 0
  let staged := { State.reset.cae with staged := some (8192, 243, 1, 0x030000) }
  ⟨⟨rom [0x060200, 9, 0, 0xFFFFF, 5], 15, by unfold MbAccepted MbNext Sound NoFlips; decide +kernel⟩, ⟨rom [0x060300, 9, 0, 0xFFFFF, 5, 6], 15, by unfold MbAccepted MbNext Sound NoFlips; decide +kernel⟩,
    ⟨rom [0x070100, 9, 0, 80], 15, by unfold MbAccepted MbNext Sound NoFlips; decide +kernel⟩,
    ⟨rom [0x070100, 9, 0, 79], 15, by unfold MbAccepted MbNext Sound NoFlips; decide +kernel⟩, ⟨served .maint [0x510400, 9, 0, 3, 4, 0, 0x1FFF] [] [], 15, by unfold MbAccepted MbNext Sound NoFlips; decide +kernel, lem_badRegion _ _ _ _ (by decide +kernel)⟩,
    ⟨served .maint [0x520300, 9, 0, 0x2000, 1, 2] [] [], 15, by unfold MbAccepted MbNext Sound NoFlips; decide +kernel⟩,
    ⟨served .maint [0x530300, 9, 0, 52, 7, 0] [] [], 15, by unfold MbAccepted MbNext Sound NoFlips; decide +kernel⟩,
    ⟨served .maint [0x530300, 9, 0, 36, 2, 0] [] [], 15, by unfold MbAccepted MbNext Sound NoFlips; decide +kernel⟩,
    ⟨{ served .live [0x580200, 9, 0, 4, 243] [] (imageMem 0x435A4B 0x030001 0 0 0) with cae := { State.reset.cae with abi := 0x030005 } }, 15, by unfold MbAccepted MbNext Sound NoFlips; decide +kernel⟩,
    ⟨served .live [0x580200, 9, 0, 4, 242] [] (imageMem 0x435A4B 0x030001 0 0 0), 15, by unfold MbAccepted MbNext Sound NoFlips; decide +kernel⟩,
    ⟨served .live [0x590000, 9, 0] [] [], 15, by unfold MbAccepted MbNext Sound NoFlips; decide +kernel⟩,
    ⟨{ served .live [0x590000, 9, 0] [] [] with cae := staged }, 15, by unfold MbAccepted MbNext Sound NoFlips; decide +kernel⟩,
    fun v h => ⟨{ served .live [0x590000, 9, 0] [(aCore 0 0, 0x600000), (aCore 1 0, 0x600000), (aMbctl 0, if v then 0x630000 else 0)] [] with cae := staged }, 15, by
      revert v; unfold MbAccepted MbNext Sound NoFlips; decide +kernel⟩,
    ⟨served .live [0x610100, 9, 0, 0x000006] [] [], 15, 6, by unfold MbAccepted MbNext Sound NoFlips; decide +kernel⟩,
    ⟨served .live [0x610100, 9, 0, 0x00000E] [] [], 15, 6, by unfold MbAccepted MbNext Sound NoFlips; decide +kernel⟩,
    ⟨served .live [0x610100, 9, 0, 0xFF0000] [] [], 15, 0, by unfold MbAccepted MbNext Sound NoFlips; decide +kernel⟩,
    ⟨served .live [0x700300, 9, 0, 63, 4, 243] [] [], 15, 63, by unfold MbAccepted MbNext Sound NoFlips; decide +kernel⟩,
    ⟨served .live [0x700300, 9, 0, 63, 4, 243] [] app, 15, 63, by unfold MbAccepted MbNext Sound NoFlips; decide +kernel⟩⟩

/-- APPLOAD of that applet into context 63. -/
def loadsIt (st : Nat) : State := State.modCtx (slotted (served .live [0x700300, 9, 0, 63, 4, 243] [] appletMem)) 63 fun x => { x with st := st }

theorem witness_ServedImageCommands_applet : ∀ st ∈ [0, 1], ∃ (s : State) (m : Mbox) (c : Ctx), MbAccepted s m 0x70 ∧ c.val ≠ 0 ∧ mbArg s m 0 = wd c.val ∧ let h := s.imageWords (mbArg s m 1) 80
    appletFits h (mbArg s m 2).toNat = true ∧ s.slotHolds (argAt h 5).toNat (bytesOfWords ((h.drop 16).take 32)) = true ∧ s.cae.ctxs[c].st = st ∧
      fld (argAt h 2) 23 16 ≤ s.freePages.length ∧ s.budgets + fld (argAt h 2) 15 0 ≤ 400 := by
  intro st h
  refine ⟨loadsIt st, 15, 63, ?_⟩
  revert st; unfold MbAccepted MbNext Sound NoFlips; decide +kernel

theorem witness_ServedImageCommands_signed : let s := loadsIt 0; let h := s.imageWords (mbArg s 15 1) 80
    ecdsaVerify (bytesOfWords ((h.drop 16).take 32)) (bytesOfWords (h.take 48 ++ (s.imageWords (mbArg s 15 1) (80 + (argAt h 1).toNat)).drop 80)) (bytesOfWords (h.drop 48)) = true := by decide +kernel

/-- A debug certificate of level 3 for stepping A1, its key and slot 0's both the base point, answering a nonce of 7; both signatures are worked out outside the model. -/
def debugCert : List Byte := ascii "KZDC" ++ [3, 0] ++ bytesLE 3 0x240811 ++ zeros 23 ++ pubG ++ pubG ++
  bytesBE 48 0xd504020549ed484bf484328b5e4607f33b48e537a24f60ca3b1bd43f7ba616eec26cc3a38ab2a4e1163b3e3659eb3b47 ++
  bytesBE 48 0xc3243b48fd0139fb6b46e7ec2e41abcef3a9a9a26f1d35cb131c4b4ce5d4250273ecf4aa3947da1774b07f82b76808f4 ++
  bytesBE 48 0x2e3eb83e63f7bb52414b6ec9ada9f32b7fc9b6ee02de4ed0ab66fe924d86a367016ab9d2e1e47a3d386859a5d2aae953 ++
  bytesBE 48 0x36f331ed849dc8dc0491b8c95a5f260bb3c03f545347fca1cf845380552f2c6803abb4ebb1c318f96749ac97c2511797 ++ bytesBE 48 7

/-- A session at a level, the port in two-wire mode where asked. -/
def atLevel (n : Nat) (tw : Bool) : State := { State.reset.stWr 1 (wd (n * 2 ^ 21)) with pow := { State.reset.pow with straps := if tw then 4 else 0 } }

/-- The Stile verifies a buffer. -/
def verifying (b : List Byte) : State :=
  { State.reset.stWr 1 0x100000 with
    stile := { State.reset.stile with abuf := spWrite zeroW [] 0 (wordsOfBytes b), nonce := true }
    fuses := { State.reset.fuses with slots := #v[some (BitVec.ofNat 384 (ofBytesBE (sha384 pubG))), none, none, none] } }

theorem lem_cert_buffer : (verifying debugCert).authBytes = debugCert ++ zeros 16 := by decide +kernel

theorem lem_cert_parts : let b := debugCert ++ zeros 16
    (slice b 128 96 = pubG ∧ slice b 32 96 = pubG) ∧ (b.take 224 = debugCert.take 224 ∧ slice b 224 96 = slice debugCert 224 96) ∧
      (slice b 416 48 ++ b.take 320 = slice debugCert 416 48 ++ debugCert.take 320 ∧ slice b 320 96 = slice debugCert 320 96) := by decide +kernel

theorem lem_cert_signed : ecdsaVerify pubG (debugCert.take 224) (slice debugCert 224 96) = true := by decide +kernel

theorem lem_cert_answers : ecdsaVerify pubG (slice debugCert 416 48 ++ debugCert.take 320) (slice debugCert 320 96) = true := by decide +kernel

theorem witness_StileSessions :
    (∀ b ∈ [true, false], ∃ s : State, s.pow.straps.getLsbD 2 = b) ∧ (∀ b ∈ [true, false], ∃ s : State, s.pow.straps.getLsbD 2 = false ∧ s.pow.sysrstLow = b) ∧
    (∃ s : State, bit (s.stRd 0x01) 20 = false) ∧ (∃ s : State, bit (s.stRd 0x01) 20 = true ∧ s.authBytes.take 4 ≠ ascii "KZDC") ∧ (∃ s : State, ∀ h : Head, s.heads[h].phase ≠ .frozen) ∧
    (∃ s : State, bit (s.stRd 0x01) 20 = true ∧ let b := s.authBytes; let key := slice b 128 96; let target := wd (ofBytesLE (slice b 6 3)); let lvl := fld (spGet zeroW s.stile.abuf 1) 15 8
      (b.take 4 = ascii "KZDC" ∧ (slice b 20 12).any (fun x => x != 0) = false) ∧ (1 ≤ lvl ∧ lvl ≤ 3 ∧ lvl ≤ 3 - s.fuses.dbglvl.toNat) ∧
      (s.slotHolds (fld (spGet zeroW s.stile.abuf 1) 23 16) key = true ∧ ecdsaVerify key (b.take 224) (slice b 224 96) = true) ∧
      (fld target 23 4 = fld s.identity 23 4 ∧ fld target 3 0 ≤ fld s.identity 3 0 ∧ wd (ofBytesLE (slice b 9 3)) = 0) ∧
      ecdsaVerify (slice b 32 96) (slice b 416 48 ++ b.take 320) (slice b 320 96) = true ∧ s.stile.nonce = true ∧ s.stile.early = false) := by
  refine ⟨fun b h => ⟨atLevel 0 b, by revert b; decide +kernel⟩, fun b h => ⟨{ State.reset with pow := { State.reset.pow with sysrstLow := b } }, by revert b; decide +kernel⟩, ⟨State.reset, by decide +kernel⟩,
    ⟨verifying [], by decide +kernel⟩, ⟨State.reset, by decide +kernel⟩, verifying debugCert, by decide +kernel, ?_⟩
  simp only [lem_cert_buffer, lem_cert_parts.1.1, lem_cert_parts.1.2, lem_cert_parts.2.1.1, lem_cert_parts.2.1.2, lem_cert_parts.2.2.1, lem_cert_parts.2.2.2]
  exact ⟨by decide +kernel, by decide +kernel, ⟨by decide +kernel, lem_cert_signed⟩, by decide +kernel, lem_cert_answers, by decide +kernel, by decide +kernel⟩

/-- The debug master at a level, its bus master at an address of a space (DRAM where asked), busy where asked; DRAM is trained. -/
def debugs (level addr ctl : Nat) : State := ((atLevel level false).stWr 4 (wd addr) |>.stWr 7 (wd ctl)).wr (aDram 0) 0x800000 |>.wr (aDram 1) 0xFF8000

theorem witness_StileAccesses :
    (∃ s : State, s.level = 0) ∧ (∃ s : State, 1 ≤ s.level ∧ bit (s.stRd 0x07) 19 = true) ∧
    (let free := fun (s : State) => !bit (s.stRd 0x07) 19 && bit (s.stRd 0x07) 23
     let dramAt := fun (s : State) => (s.stRd 0x04).toNat + 2 ^ 24 * fld (s.stRd 0x05) 10 0
     (∃ s : State, free s = true ∧ s.level = 1) ∧
     (∃ s : State, free s = true ∧ s.level = 3 ∧ dramAt s + 3 ≤ s.dramCap ∧ (∀ k < 8, s.bget (aDram (0x10 + 3 * k)) 0 = false) ∧ FreshCycle s) ∧
     (∃ s : State, free s = true ∧ s.level = 3 ∧ s.dramCap = 32 * (dramAt s / 32))) ∧
    (∃ (s : State) (c : Chan) (r : DRead) (x : DirectRead), s.chans[c].reads.find? (·.issued) = some r ∧ s.dreads = [x] ∧ r.user = .debug ∧ x.user = .debug ∧ x.wait = [r.unit] ∧ x.got = [] ∧ r.chk = false ∧
      r.merge = false ∧ s.checkAddr (32 * r.unit) = none ∧ x.off / 32 = r.unit ∧ x.off % 32 + x.len = 32 ∧ 1 ≤ x.len ∧ Sound s) ∧
    (let free := fun (s : State) => decide (1 ≤ s.level) && !bit (s.stRd 0x07) 19 && !bit (s.stRd 0x07) 23 && plainReg (locOf (s.stRd 0x04).toNat) && !s.locOff (locOf (s.stRd 0x04).toNat)
     (∀ b ∈ [true, false], ∃ s : State, free s = true ∧ NoFlips s ∧ s.mayRead .debug (locOf (s.stRd 0x04).toNat) = b) ∧
     ∀ b ∈ [true, false], ∃ s : State, free s = true ∧ NoFlips s ∧ s.mayWrite .debug (locOf (s.stRd 0x04).toNat) = b ∧ s.cycNow = []) ∧
    (∀ b ∈ [true, false], ∃ s : State, 1 ≤ s.level ∧ bit (s.stRd 0x1A) 23 = b) ∧ (∃ s : State, s.level = 1 ∧ s.pow.straps.getLsbD 2 = false) ∧ (∃ s : State, s.level = 3 ∧ s.pow.straps.getLsbD 2 = false) ∧
    (∃ s : State, s.pow.straps.getLsbD 2 = true) := by
  refine ⟨⟨State.reset, by decide +kernel⟩, ⟨debugs 1 0 0x080000, by decide +kernel⟩,
    ⟨⟨debugs 1 0 0x800000, by decide +kernel⟩, ⟨debugs 3 0 0x800000, by decide +kernel, by decide +kernel, by decide +kernel, by decide +kernel, by unfold FreshCycle; decide +kernel⟩,
      ⟨(debugs 3 0 0x800000).stWr 5 0x80, by decide +kernel⟩⟩,
    ⟨{ chanWith [{ hostRead true with user := .debug }] 0 with dreads := [{ user := .debug, off := 29, len := 3, wait := [0], got := [] }] }, 0, { hostRead true with user := .debug },
      { user := .debug, off := 29, len := 3, wait := [0], got := [] }, by decide +kernel, by decide +kernel, by decide +kernel, by decide +kernel, by decide +kernel, by decide +kernel, by decide +kernel, by decide +kernel,
      by decide +kernel, by decide +kernel, by decide +kernel, by decide +kernel, by unfold Sound NoFlips; decide +kernel⟩,
    ⟨fun b h => ?_, fun b h => ?_⟩, fun b h => ⟨(debugs 1 0 0).stWr 0x1A (if b then 0x800000 else 0), by revert b; decide +kernel⟩, ⟨debugs 1 0 0, by decide +kernel⟩, ⟨debugs 3 0 0, by decide +kernel⟩,
    ⟨atLevel 0 true, by decide +kernel⟩⟩
  · refine ⟨debugs (if b then 3 else 1) (aDesc 7 7 15) 0, ?_⟩
    revert b; unfold NoFlips; decide +kernel
  · refine ⟨debugs (if b then 3 else 1) (aDesc 7 7 15) 0, ?_⟩
    revert b; unfold NoFlips; decide +kernel

theorem witness_StileHalts :
    (∃ s : State, s.level = 2) ∧ (∃ s : State, s.level = 3) ∧ (∃ s : State, s.level = 3 ∧ ∀ h : Head, s.heads[h].phase ≠ .frozen) ∧
    (∀ b ∈ [true, false], ∃ (s : State) (k : Core), s.level = 3 ∧ s.halted k = true ∧ s.bget (aCore k.val 2) 23 = b ∧ ∃ m : Mbox, s.mbPhase m = 1 ∧ s.mbClaimant m = 2 + k.val) ∧
    (∃ (s : State) (k : Core), s.level = 3 ∧ s.halted k = false) ∧
    (∃ (s : State) (c : Ctx), s.level = 2 ∧ c.val ≠ 0 ∧ s.stile.ctxmask.getLsbD c.val = false) ∧ (∃ (s : State) (c : Ctx), s.level = 2 ∧ c.val ≠ 0 ∧ s.stile.ctxmask.getLsbD c.val = true) ∧
    (∀ b ∈ [true, false], ∃ s : State, bit (s.stRd 0x09) 3 = b) ∧ (∃ s : State, s.tracing = false) ∧ (∃ s : State, s.tracing = true ∧ s.stile.lost = 0 ∧ s.stile.trace.length + 3 = 16384) :=
  let named : State := { debugs 2 0 0 with stile := { State.reset.stile with ctxmask := 0x8000000000000000 } }
  ⟨⟨debugs 2 0 0, by decide +kernel⟩, ⟨debugs 3 0 0, by decide +kernel⟩, ⟨debugs 3 0 0, by decide +kernel⟩,
    fun b h => ⟨((debugs 3 0 0).wr (aMbctl 15) 0x260000 |>.bset (aCore 1 0) 20 true).bset (aCore 1 2) 23 b, 1, by revert b; decide +kernel⟩, ⟨debugs 3 0 0, 0, by decide +kernel⟩,
    ⟨named, 1, by decide +kernel⟩, ⟨named, 63, by decide +kernel⟩, fun b h => ⟨State.reset.stWr 9 (if b then 8 else 0), by revert b; decide +kernel⟩, ⟨State.reset, by decide +kernel⟩,
    ⟨{ (debugs 1 0 0).stWr 0x11 0xA00000 with stile := { State.reset.stile with trace := List.replicate 16381 0 } }, by decide +kernel⟩⟩

/-- ARBRAISE of an image whose ARB is 255 waits in mailbox 15. -/
def raisesArb : State :=
  { served .maint [0x450100, 9, 0, 63] [(aImage 63 0, 0xF80000)] [] with
    keys := Vector.replicate 64 (some { key := zeros 32, streamId := zeros 16, sigslot := 0, arb := 255, segs := 1 }), pending := [.arbraise 15] }

theorem witness_FusesOnlySetFurther : ∃ s t : State, step s = .next t ∧ t.fuses.arbcnt ≠ s.fuses.arbcnt := by
  have k : (match step raisesArb with | .next t => t.fuses.arbcnt != raisesArb.fuses.arbcnt | _ => false) = true := by decide +kernel
  cases e : step raisesArb with
  | next t => rw [e] at k; exact ⟨raisesArb, t, e, by simpa using k⟩
  | fault f => rw [e] at k; exact absurd k (by simp)
  | refused r => rw [e] at k; exact absurd k (by simp)

/-- FLASHWRITE and FLASHBLK need a flash of some size, which is a free value (log entry 3): where it has three sectors of 4 KiB, both clauses are met. -/
theorem witness_ServedImageCommands_flash (h : 0x3000 ≤ 1024 * Config.flashKiB) (hs : Config.flashSector = 4096) :
    (∃ (s : State) (m : Mbox), MbAccepted s m 0x52 ∧ s.hostFn 6 = true ∧ (mbArg s m 0).toNat = 0x2000 ∧ (mbArg s m 0).toNat + 3 * (s.reqNarg m - 1) ≤ s.flashSize) ∧
    (∃ (s : State) (m : Mbox), MbAccepted s m 0x51 ∧ s.badRegion (fld (mbArg s m 0) 1 0) (mbArg s m 3).toNat (mbArg s m 2).toNat = false ∧ s.hostFn 6 = false ∧ 2 ≤ fld (mbArg s m 0) 1 0 ∧
      0x2000 ≤ (mbArg s m 3).toNat / max 1 Config.flashSector * max 1 Config.flashSector) := by
  refine ⟨⟨(served .maint [0x520300, 9, 0, 0x2000, 1, 2] [] []).modSplit 6 fun x => { x with mode := 1 }, 15, ?_, by decide +kernel, by decide +kernel, ?_⟩,
    ⟨served .maint [0x510400, 9, 0, 3, 4, 0x1000, 0x2000] [] [], 15, ?_, ?_, by decide +kernel, by decide +kernel, ?_⟩⟩
  · unfold MbAccepted MbNext Sound NoFlips; decide +kernel
  · have e : (mbArg ((served .maint [0x520300, 9, 0, 0x2000, 1, 2] [] []).modSplit 6 fun x => { x with mode := 1 }) 15 0).toNat + 3 *
        (((served .maint [0x520300, 9, 0, 0x2000, 1, 2] [] []).modSplit 6 fun x => { x with mode := 1 }).reqNarg 15 - 1) = 0x2006 := by decide +kernel
    have f : nbits ((served .maint [0x520300, 9, 0, 0x2000, 1, 2] [] []).modSplit 6 fun x => { x with mode := 1 }).pow.straps.toNat 1 0 ≠ 2 := by decide +kernel
    rw [e, State.flashSize, if_neg f]
    omega
  · unfold MbAccepted MbNext Sound NoFlips; decide +kernel
  · have e : (mbArg (served .maint [0x510400, 9, 0, 3, 4, 0x1000, 0x2000] [] []) 15 3).toNat = 0x2000 := by decide +kernel
    have e2 : (mbArg (served .maint [0x510400, 9, 0, 3, 4, 0x1000, 0x2000] [] []) 15 2).toNat = 0x1000 := by decide +kernel
    have f : nbits (served .maint [0x510400, 9, 0, 3, 4, 0x1000, 0x2000] [] []).pow.straps.toNat 1 0 ≠ 2 := by decide +kernel
    have d : (served .maint [0x510400, 9, 0, 3, 4, 0x1000, 0x2000] [] []).dirField (dirEntry (dirOther (fld (mbArg (served .maint [0x510400, 9, 0, 3, 4, 0x1000, 0x2000] [] []) 15 0) 1 0)) + 4) = 0 := by
      decide +kernel
    rw [e, e2]
    simp only [State.badRegion, State.flashSize, if_neg f, d]
    simp
    omega
  · have e : (mbArg (served .maint [0x510400, 9, 0, 3, 4, 0x1000, 0x2000] [] []) 15 3).toNat = 0x2000 := by decide +kernel
    rw [e, hs]
    decide

end Sys2Proof.Tests
end

section
/-! The canonical form of the memories through every step (O32). A state is canonical when each memory and register file is; an operation
that is made of others is canonical because they are. One lemma for each operation that a step can reach, in the order of the model. -/

-- The lemmas are many and small: elaborating them one after the other keeps the number of threads low.
set_option Elab.async false

namespace Sys2Proof.Machine

/-! ### The canonical form, as a predicate that steps keep -/

/-- The parts of a state that the canonical form speaks of, each in its form. -/
structure MemForm (ws hw stile : WMem) (dram lark flash : BMem) (abuf : WMem) (pads : Vector PadSt 16) : Prop where
  ws : spWf wsReset ws
  hw : spWf hwReset hw
  stile : spWf stileReset stile
  dram : spWf zeroB dram
  lark : spWf zeroB lark
  flash : spWf zeroB flash
  abuf : spWf zeroW abuf
  pads : ∀ p : Pad, spWf zeroW pads[p].cfg ∧ spWf zeroW pads[p].bm

/-- The memories and register files of a state are canonical. -/
def Canonical (s : State) : Prop := MemForm s.ws s.hw s.stileRegs s.dram s.larkMem s.flash s.stile.abuf s.pads

/-- The memories of a paddock are canonical. -/
def PadForm (x : PadSt) : Prop := spWf zeroW x.cfg ∧ spWf zeroW x.bm

/-- What an outcome goes on with is canonical. -/
def NextCanonical (o : Host.Outcome State Fault Refusal) : Prop := ∀ t, o = .next t → Canonical t

/-- The state that a served command leaves is canonical. -/
def ServedCanonical : Served → Prop
  | .done t _ _ => Canonical t
  | .held t => Canonical t

/-- t holds the same memories and register files as s. -/
structure MemSame (s t : State) : Prop where
  ws : t.ws = s.ws := by rfl
  hw : t.hw = s.hw := by rfl
  stileRegs : t.stileRegs = s.stileRegs := by rfl
  dram : t.dram = s.dram := by rfl
  lark : t.larkMem = s.larkMem := by rfl
  flash : t.flash = s.flash := by rfl
  abuf : t.stile.abuf = s.stile.abuf := by rfl
  pads : t.pads = s.pads := by rfl

theorem canonical_iff {s : State} : Canonical s ↔ Memory.wf s :=
  ⟨fun ⟨a, b, c, d, e, f, g, i⟩ => ⟨a, b, c, d, e, f, g, i⟩, fun ⟨a, b, c, d, e, f, g, i⟩ => ⟨a, b, c, d, e, f, g, i⟩⟩

theorem Canonical.wf {s : State} (hs : Canonical s) : Memory.wf s := canonical_iff.1 hs

theorem Canonical.congr {s t : State} (hs : Canonical s) (e : MemSame s t := by exact {}) : Canonical t := by
  obtain ⟨a, b, c, d, e, f, g, i⟩ := e
  unfold Canonical
  rw [a, b, c, d, e, f, g, i]
  exact hs

theorem Canonical.ite {s t : State} {c : Prop} [Decidable c] (hs : Canonical s) (ht : Canonical t) : Canonical (if c then s else t) := by
  split <;> assumption

/-- A step that is taken under a condition. -/
theorem Canonical.when {s t : State} {c : Prop} [Decidable c] (hs : Canonical s) (ht : Canonical s → Canonical t) : Canonical (if c then t else s) :=
  (ht hs).ite hs

theorem Canonical.dite {c : Prop} [Decidable c] {f : c → State} {g : ¬c → State} (hf : ∀ x, Canonical (f x)) (hg : ∀ x, Canonical (g x)) :
    Canonical (if x : c then f x else g x) := by
  split
  · exact hf _
  · exact hg _

theorem Canonical.iteFst {α : Type} {x y : State × α} {c : Prop} [Decidable c] (hx : Canonical x.1) (hy : Canonical y.1) :
    Canonical (if c then x else y).1 := by
  split <;> assumption

theorem Canonical.iteSnd {α : Type} {x y : α × State} {c : Prop} [Decidable c] (hx : Canonical x.2) (hy : Canonical y.2) :
    Canonical (if c then x else y).2 := by
  split <;> assumption

theorem Canonical.foldl {α : Type} {f : State → α → State} {s : State} {l : List α} (hs : Canonical s) (hf : ∀ t x, Canonical t → Canonical (f t x)) :
    Canonical (l.foldl f s) :=
  List.foldlRecOn l f hs fun t ht x _ => hf t x ht

theorem Canonical.next {s : State} (hs : Canonical s) : NextCanonical (.next s) := by
  rintro t ⟨⟩
  exact hs

theorem NextCanonical.ite {o u : Host.Outcome State Fault Refusal} {c : Prop} [Decidable c] (ho : NextCanonical o) (hu : NextCanonical u) :
    NextCanonical (if c then o else u) := by
  split <;> assumption

theorem Canonical.done {s : State} (hs : Canonical s) (c : Nat) (r : List Word) : ServedCanonical (.done s c r) := hs

theorem Canonical.held {s : State} (hs : Canonical s) : ServedCanonical (.held s) := hs

theorem ServedCanonical.ite {o u : Served} {c : Prop} [Decidable c] (ho : ServedCanonical o) (hu : ServedCanonical u) :
    ServedCanonical (if c then o else u) := by
  split <;> assumption

theorem Canonical.setWs {s : State} {m : WMem} (hs : Canonical s) (hm : spWf wsReset m) : Canonical { s with ws := m } :=
  canonical_iff.2 (Memory.wf_ws hs.wf hm)

theorem Canonical.setDram {s : State} {m : BMem} (hs : Canonical s) (hm : spWf zeroB m) : Canonical { s with dram := m } :=
  canonical_iff.2 (Memory.wf_dram hs.wf hm)

theorem Canonical.setFlash {s : State} {m : BMem} (hs : Canonical s) (hm : spWf zeroB m) : Canonical { s with flash := m } :=
  canonical_iff.2 (Memory.wf_flash hs.wf hm)

theorem Canonical.setPads {s : State} {v : Vector PadSt 16} (hs : Canonical s) (hv : ∀ p : Pad, PadForm v[p]) : Canonical { s with pads := v } :=
  { hs with pads := hv }

theorem Canonical.foldlFst {α β : Type} {f : State × α → β → State × α} {a : State × α} {l : List β} (ha : Canonical a.1)
    (hf : ∀ a x, Canonical a.1 → Canonical (f a x).1) : Canonical (l.foldl f a).1 :=
  List.foldlRecOn (motive := fun a => Canonical a.1) l f ha fun a h x _ => hf a x h

theorem Canonical.foldlSnd {α β : Type} {f : α × State → β → α × State} {a : α × State} {l : List β} (ha : Canonical a.2)
    (hf : ∀ a x, Canonical a.2 → Canonical (f a x).2) : Canonical (l.foldl f a).2 :=
  List.foldlRecOn (motive := fun a => Canonical a.2) l f ha fun a h x _ => hf a x h

theorem PadForm.ite {x y : PadSt} {c : Prop} [Decidable c] (hx : PadForm x) (hy : PadForm y) : PadForm (if c then x else y) := by
  split <;> assumption

theorem spWf_filter {α : Type} {d : Nat → α} {m : List (Nat × α)} (p : Nat × α → Bool) (h : spWf d m) : spWf d (m.filter p) :=
  ⟨h.1.filter _, fun e he => h.2 e (List.mem_of_mem_filter he)⟩

theorem spWf_ite {α : Type} {d : Nat → α} {m n : List (Nat × α)} {c : Prop} [Decidable c] (hm : spWf d m) (hn : spWf d n) :
    spWf d (if c then m else n) := by
  split <;> assumption

/-- After a reset the paddocks hold nothing. -/
theorem padForm_reset (p : Pad) : PadForm State.reset.pads[p] := by
  simp [State.reset, PadSt.reset, PadForm, spWf]

theorem spWf_bmPut {m : WMem} (h : spWf zeroW m) (off w v : Nat) : spWf zeroW (bmPut m off w v) := by
  unfold bmPut
  split
  · exact spWf_spSet _ _ _ h
  · exact spWf_spSet _ _ _ (spWf_spSet _ _ _ h)


/-! ### The memories of a paddock -/

section
variable {x : PadSt} (hx : PadForm x)
include hx

theorem PadForm.presentNext : PadForm x.presentNext :=
  hx

theorem PadForm.postTick : PadForm x.postTick := by
  unfold PadSt.postTick
  split
  · exact hx
  · exact hx
  · exact hx
  · exact hx

theorem PadForm.portEdge (s : State) (p : Pad) (k : Fin 2) : PadForm (s.portEdge p k x) := by
  unfold State.portEdge
  dsimp only
  split <;> exact hx

theorem PadForm.padRegs (s : State) (p : Pad) : PadForm (s.padRegs p x) := by
  unfold State.padRegs
  split
  · extract_lets gout order
    have written : spWf zeroW (order.foldl (fun m e => bmPut m e.2.1 e.2.2.1 e.2.2.2) x.bm) :=
      List.foldlRecOn (motive := spWf zeroW) _ _ hx.2 fun _ h _ _ => spWf_bmPut h _ _ _
    refine (PadForm.portEdge (PadForm.portEdge ?_ s p 0) s p 1).postTick.presentNext
    exact ⟨hx.1, written⟩
  · exact hx

theorem PadForm.padEdge (s : State) (p : Pad) : PadForm (s.padEdge p x) := by
  have taken := hx.padRegs s p
  unfold State.padEdge
  extract_lets y z
  have turned : PadForm z := PadForm.ite ⟨taken.1, taken.2⟩ taken
  exact ⟨turned.1, turned.2⟩

omit hx in
theorem PadForm.cleared (x : PadSt) : PadForm x.cleared := ⟨spWf_nil _, spWf_nil _⟩

end

section
variable {s : State} (hs : Canonical s)
include hs

/-! ### Machine/Ops -/

theorem Canonical.wr (a : Nat) (v : Word) : Canonical (s.wr a v) :=
  canonical_iff.2 (Memory.wf_wr hs.wf _ _)

theorem Canonical.fset (a hi lo v : Nat) : Canonical (s.fset a hi lo v) :=
  hs.wr _ _

theorem Canonical.bset (a n : Nat) (b : Bool) : Canonical (s.bset a n b) :=
  hs.fset _ _ _ _

theorem Canonical.inc (a hi lo : Nat) : Canonical (s.inc a hi lo) :=
  hs.wr _ _

theorem Canonical.incN (a hi lo n : Nat) : Canonical (s.incN a hi lo n) :=
  hs.fset _ _ _ _

theorem Canonical.put (a : Nat) (v : Word) : Canonical (s.put a v) :=
  hs.wr _ _

theorem Canonical.hwWr (off : Nat) (v : Word) : Canonical (s.hwWr off v) :=
  canonical_iff.2 (Memory.wf_hwWr hs.wf _ _)

theorem Canonical.stWr (n : Nat) (v : Word) : Canonical (s.stWr n v) :=
  canonical_iff.2 (Memory.wf_stWr hs.wf _ _)

theorem Canonical.modHead (h : Head) (f : HeadSt → HeadSt) : Canonical (s.modHead h f) :=
  hs.congr

theorem Canonical.modPad (p : Pad) {f : PadSt → PadSt} (hf : ∀ x, PadForm x → PadForm (f x)) : Canonical (s.modPad p f) := by
  refine hs.setPads fun q => ?_
  by_cases e : p.val = q.val
  · have : (vmod s.pads p f)[q] = f s.pads[p] := by simp [vmod, ← e]
    exact this ▸ hf _ (hs.pads p)
  · have : (vmod s.pads p f)[q] = s.pads[q] := Vector.getElem_set_ne _ _ e
    exact this ▸ hs.pads q

/-- A change of a paddock that leaves its configuration and block memories alone. -/
theorem Canonical.modPadSame {p : Pad} {f : PadSt → PadSt} (hf : ∀ x, (f x).cfg = x.cfg ∧ (f x).bm = x.bm := by exact fun _ => ⟨rfl, rfl⟩) :
    Canonical (s.modPad p f) :=
  hs.modPad p fun x hx => by
    obtain ⟨hc, hb⟩ := hf x
    unfold PadForm
    rwa [hc, hb]

theorem Canonical.draw : Canonical (s.draw).2 :=
  hs.congr

theorem Canonical.drawWords (n : Nat) : Canonical (s.drawWords n).2 :=
  hs.congr

theorem Canonical.msixRequest (n : Nat) : Canonical (s.msixRequest n) :=
  canonical_iff.2 (Memory.wf_msixRequest hs.wf _)

theorem Canonical.raise (n : Nat) : Canonical (s.raise n) :=
  canonical_iff.2 (Memory.wf_raise hs.wf _)

theorem Canonical.raisedOnce (u : State) (n : Nat) : Canonical (u.raisedOnce n s) :=
  hs.ite (hs.hwWr _ _)

theorem Canonical.raiseCause (off b n : Nat) : Canonical (s.raiseCause off b n) :=
  canonical_iff.2 (Memory.wf_raiseCause hs.wf _ _ _)

theorem Canonical.evSig (h : Nat) : Canonical (s.evSig h) :=
  hs.raise _

theorem Canonical.evDeadline (h : Nat) : Canonical (s.evDeadline h) :=
  hs.raise _

theorem Canonical.evOutput (h : Nat) : Canonical (s.evOutput h) :=
  hs.raise _

theorem Canonical.evHead (h kind : Nat) : Canonical (s.evHead h kind) :=
  hs.raiseCause _ _ _

theorem Canonical.evFabric (p : Nat) : Canonical (s.evFabric p) :=
  hs.raiseCause _ _ _

theorem Canonical.evConfig : Canonical s.evConfig :=
  hs.raise _

theorem Canonical.evDram : Canonical s.evDram :=
  hs.raise _

theorem Canonical.evLark : Canonical s.evLark :=
  hs.raise _

theorem Canonical.evWarden : Canonical s.evWarden :=
  hs.raise _

theorem Canonical.evIntegrity : Canonical s.evIntegrity :=
  hs.raise _

theorem Canonical.evPin (b : Nat) : Canonical (s.evPin b) :=
  hs.raiseCause _ _ _

theorem Canonical.evPinFault (b : Nat) : Canonical (s.evPinFault b) :=
  hs.raiseCause _ _ _

theorem Canonical.evTimer (t : Nat) : Canonical (s.evTimer t) :=
  hs.raiseCause _ _ _

theorem Canonical.evLink (b : Nat) : Canonical (s.evLink b) :=
  hs.raiseCause _ _ _

theorem Canonical.evFold : Canonical s.evFold :=
  hs.raise _

theorem Canonical.evHost : Canonical s.evHost :=
  hs.raise _

theorem Canonical.evPower : Canonical s.evPower :=
  hs.raise _

theorem Canonical.evState : Canonical s.evState :=
  hs.raise _

theorem Canonical.evMbox (m : Nat) : Canonical (s.evMbox m) :=
  hs.raise _

theorem Canonical.pad (p : Nat) : PadForm (s.pad p) := by
  unfold State.pad
  split
  · exact hs.pads ⟨p, ‹_›⟩
  · exact ⟨spWf_nil _, spWf_nil _⟩

theorem Canonical.toDev (d : DevState) (reason : BitVec 8) : Canonical (s.toDev d reason) :=
  (hs.congr.hwWr _ _).evState

theorem Canonical.accessFault (r : Requester) (a : Nat) : Canonical (s.accessFault r a) :=
  canonical_iff.2 (Memory.wf_accessFault hs.wf _ _)

theorem Canonical.cycNotes (who : Nat) (es : List CycWrite) : Canonical (s.cycNotes who es) :=
  hs.congr

theorem Canonical.cycNote (e : CycWrite) : Canonical (s.cycNote e) :=
  hs.cycNotes _ _

theorem Canonical.forgetCyc (key : Nat) : Canonical (s.forgetCyc key) :=
  hs.congr

theorem Canonical.directly (r : Requester) (a : Nat) (v : Word) {put : State → Nat → Word → State}
    (hf : ∀ t a v, Canonical t → Canonical (put t a v)) :
    Canonical (s.directly r a v put) :=
  (hf _ _ _ hs).ite (((hf _ _ _ hs).foldl (fun _ _ h => hf _ _ _ h)).cycNote _)

theorem Canonical.byQueue (h a : Nat) (v : Word) {put : State → Nat → Word → State} (hf : ∀ t a v, Canonical t → Canonical (put t a v)) :
    Canonical (s.byQueue h a v put) :=
  ((hf _ _ _ hs).foldl (fun _ _ h => hf _ _ _ h)).cycNote _

theorem Canonical.gated (r : Requester) (a : Nat) {f : State → State} (hf : ∀ t, Canonical t → Canonical (f t)) : Canonical (s.gated r a f) :=
  hs.ite ((hf _ hs.congr).ite (hs.accessFault _ _))

theorem Canonical.setShadow (r : Requester) (a : Nat) (v : Word) : Canonical (s.setShadow r a v) :=
  hs.congr

theorem Canonical.dropShadows : Canonical s.dropShadows :=
  hs.congr

theorem Canonical.countOor (us : List Nat) : Canonical (s.countOor us) :=
  hs.ite ((Canonical.foldl hs (fun _ _ h1 => h1.inc _ _ _)).evDram)

theorem Canonical.formCheck (g : Nat) : Canonical (s.formCheck g) :=
  canonical_iff.2 (Memory.wf_formCheck hs.wf _)

theorem Canonical.dramPut (a : Nat) (d : List Byte) : Canonical (s.dramPut a d) :=
  canonical_iff.2 (Memory.wf_dramPut hs.wf _ _)

theorem Canonical.larkPut (a : Nat) (d : List Byte) : Canonical (s.larkPut a d) :=
  canonical_iff.2 (Memory.wf_larkPut hs.wf _ _)

theorem Canonical.logPut (base k : Nat) (kind : Word) (e : List Word) : Canonical (s.logPut base k kind e).1 :=
  { hs with ws := spWf_spWrite _ _ _ _ hs.ws }

/-! ### Machine/Repair -/

theorem Canonical.setLedger (i : Nat) (v : Word) : Canonical (s.setLedger i v) :=
  hs.congr

theorem Canonical.ledgerInc (i : Nat) : Canonical (s.ledgerInc i) :=
  hs.setLedger _ _

theorem Canonical.ledgerInc48 (i : Nat) : Canonical (s.ledgerInc48 i) :=
  (hs.setLedger _ _).setLedger _ _

theorem Canonical.dirWrite (i : Nat) (d : List Byte) : Canonical (s.dirWrite i d) :=
  { hs with flash := spWf_spWrite _ _ _ _ (spWf_spWrite _ _ _ _ hs.flash) }

theorem Canonical.ledgerSave : Canonical s.ledgerSave :=
  (hs.setFlash (spWf_spWrite _ _ _ _ hs.flash)).ite hs

theorem Canonical.writeRecords : Canonical s.writeRecords :=
  Canonical.ite (hs.setFlash (spWf_spWrite _ _ _ _ hs.flash)).congr hs.congr

theorem Canonical.appendRecord (ws : List Word) (toFuse : Bool) : Canonical (s.appendRecord ws toFuse) := by
  have written := (hs.congr (t := { s with cae := { s.cae with records := s.cae.records ++ ws } })).writeRecords
  exact (written.congr.ite written.evIntegrity).ite written

theorem Canonical.markFailed (e : Nat) : Canonical (s.markFailed e) :=
  hs.ite (((hs.bset _ _ _).appendRecord _ _).ledgerInc _)

theorem Canonical.remapNote (r kind addr : Nat) (again : Bool) : Canonical (s.remapNote r kind addr again) :=
  hs.congr.ite hs

theorem Canonical.logError (r kind addr bitNo : Nat) : Canonical (s.logError r kind addr bitNo) := by
  have counted : Canonical (match kind with
      | 1 => s.inc (aRegion r 0) 23 12
      | 2 => s.inc (aRegion r 0) 11 0
      | _ => (s.inc (aRegion r 1) 23 16).evIntegrity) := by
    split
    · exact hs.inc _ _ _
    · exact hs.inc _ _ _
    · exact (hs.inc _ _ _).evIntegrity
  have logged := counted.logPut (aRegion r 0x10) 2 0xC00000
    [wd (kind * 2 ^ 22 + addr % 2 ^ 22), wd (bitNo * 2 ^ 19 + s.pow.seconds % 2 ^ 19)]
  exact (((logged.inc _ _ _).ite logged).fset _ _ _ _).remapNote _ _ _ _

theorem Canonical.healWord (r a : Nat) : Canonical (s.healWord r a) :=
  hs.congr

theorem Canonical.readCheck (r a : Nat) (e : MemErr) : Canonical (s.readCheck r a e).1 := by
  unfold State.readCheck
  split
  · exact hs.logError _ _ _ _
  · exact hs.logError _ _ _ _
  · exact hs.logError _ _ _ _
  · split
    · exact hs
    · split
      · exact hs.logError _ _ _ _
      · split
        · exact (hs.healWord _ _).logError _ _ _ _
        · exact hs.logError _ _ _ _

theorem Canonical.readBad (bad : List BadWord) : Canonical (s.readBad bad).1 :=
  Canonical.foldlFst hs (fun _ _ h1 => h1.readCheck _ _ _)

theorem Canonical.writeFlip (r a : Nat) : Canonical (s.writeFlip r a) :=
  (hs.healWord _ _).when (fun h1 => (h1.bset _ _ _).ite ((h1.bset _ _ _).congr))

theorem Canonical.passWord (a : Nat) : Canonical (s.passWord a).1 :=
  (hs.writeFlip _ _).readCheck _ _ _

theorem Canonical.invalidate (r a : Nat) : Canonical (s.invalidate r a) := by
  unfold State.invalidate
  split
  · exact hs.wr _ _
  · exact (hs.larkPut _ _).ite ((hs.modHead _ _).ite ((hs.modHead _ _).ite (Canonical.dite
      (fun _ => hs.modPad _ fun _ hx => ⟨hx.1, spWf_spSet _ _ _ hx.2⟩) (fun _ => (hs.congr.ite hs.congr).ite hs))))

theorem Canonical.remapWord (r a : Nat) : Canonical (s.remapWord r a) := by
  unfold State.remapWord
  extract_lets undue t g used
  have undued : ∀ u, Canonical u → Canonical (undue u) := fun u hu => hu.congr
  have taken : Canonical t := undued s hs
  have moved := (undued _ ((taken.readCheck r a .clean).when (c := (t.readCheck r a .clean).2) fun h => h.invalidate r a)).healWord r a
  exact ((taken.inc _ _ _).evIntegrity).ite ((((moved.congr).fset _ _ _ _).fset _ _ _ _).appendRecord _ _ |>.ledgerInc _)

theorem Canonical.remapDue : Canonical s.remapDue := by
  unfold State.remapDue
  split
  · exact hs
  · exact (hs.remapWord _ _).ite hs

/-! ### Machine/Beam -/

theorem Canonical.setPos (h line quad : Nat) : Canonical (s.setPos h line quad) :=
  hs.wr _ _

theorem Canonical.setEpoch (h : Nat) (e : BitVec 48) : Canonical (s.setEpoch h e) :=
  (hs.wr _ _).wr _ _

theorem Canonical.leadTrack (h : Head) : Canonical (s.leadTrack h) :=
  ((hs.modHead _ _).bset _ _ _).ite (hs.bset _ _ _)

theorem Canonical.setRaised (h : Head) (k : Nat) (r : Raised) : Canonical (s.setRaised h k r) :=
  hs.modHead _ _

theorem Canonical.sigFlag (h : Head) (n : Nat) : Canonical (s.sigFlag h n) :=
  hs.modHead _ _

theorem Canonical.openRecord (h : Head) (keyed firstFrame : Bool) : Canonical (s.openRecord h keyed firstFrame) :=
  hs.modHead _ _

theorem Canonical.closeRecord (h : Head) (short planned : Bool) : Canonical (s.closeRecord h short planned) :=
  hs.ite (hs.modHead _ _)

theorem Canonical.recordSettled (h : Head) (r : SigRec) : Canonical (s.recordSettled h r) :=
  hs.congr

theorem Canonical.recordsLate (h : Head) : Canonical (s.recordsLate h) :=
  Canonical.foldl hs (fun _ _ h1 => h1.recordSettled _ _)

theorem Canonical.endFrame (h : Head) : Canonical (s.endFrame h) :=
  hs.congr.modHead _ _

theorem Canonical.beginFrame (h : Head) : Canonical (s.beginFrame h) :=
  hs.congr.ite hs

theorem Canonical.writeRecord (h : Head) : Canonical (s.writeRecord h) := by
  unfold State.writeRecord
  split
  · exact hs
  · extract_lets a w rd full s1 n s2 s3 s4
    have made : Canonical s1 := ((hs.fset _ _ _ _).inc _ _ _).ite hs
    have written : Canonical s3 := (made.fset _ _ _ _).setWs (spWf_spWrite _ _ _ _ (made.fset _ _ _ _).ws)
    exact ((written.modHead h _).when fun h => h.recordSettled _ _).evSig _

/-! ### Machine/Queue -/

theorem Canonical.setQueue (h : Head) (q : List QEntry) : Canonical (s.setQueue h q) :=
  (hs.modHead _ _).fset _ _ _ _

theorem Canonical.dropEntry (h : Head) (idx : Nat) : Canonical (s.dropEntry h idx) :=
  (hs.setQueue _ _).modHead _ _

theorem Canonical.lateOne (h : Head) (e : QEntry) : Canonical (s.lateOne h e) :=
  ((hs.inc _ _ _).modHead _ _).ite ((hs.inc _ _ _).ite ((hs.inc _ _ _).dropEntry _ _))

theorem Canonical.lateAll (h : Head) (es : List QEntry) : Canonical (s.lateAll h es) :=
  hs.ite ((Canonical.foldl hs (fun _ _ h1 => h1.lateOne _ _)).evHead _ _)

theorem Canonical.sweepLate (h : Head) : Canonical (s.sweepLate h) :=
  hs.lateAll _ _

theorem Canonical.postLate (h : Head) (e : QEntry) : Canonical (s.postLate h e) :=
  (hs.lateAll _ _).ite hs

theorem Canonical.flush (h : Head) (keep : QEntry → Bool) : Canonical (s.flush h keep) :=
  hs.ite (((Canonical.foldl hs (fun _ _ h1 => h1.dropEntry _ _)).incN _ _ _ _).evHead _ _)

theorem Canonical.entryCheck (h : Head) (i : Nat) : Canonical (s.entryCheck h i).1 := by
  refine Canonical.foldlFst hs fun a w ha => ?_
  split
  · exact ha
  · exact ha.readCheck _ _ _

theorem Canonical.post (r : Requester) (h : Head) (w0 w1 w2 w3 : Word) : Canonical (s.post r h w0 w1 w2 w3).1 := by
  unfold State.post
  dsimp only
  split
  · exact (hs.evHead _ _).ite hs
  · exact (Canonical.foldl ((hs.setQueue _ _).modHead _ _) (fun _ _ h1 => h1.writeFlip _ _)).postLate _ _

theorem Canonical.cancel (r : Requester) (h : Head) (handle : Word) : Canonical (s.cancel r h handle).1 := by
  unfold State.cancel
  split
  · exact hs
  · split
    · exact hs
    · split
      · exact hs
      · exact hs.dropEntry _ _

theorem Canonical.postPortPut (r : Requester) (off : Nat) (v : Word) : Canonical (s.postPortPut r off v) := by
  unfold State.postPortPut
  dsimp only
  split
  · exact hs
  · split
    · exact hs.congr
    · exact hs.congr
    · exact hs.congr
    · exact hs.congr
    · exact (hs.post _ _ _ _ _ _).congr
    · exact (hs.cancel _ _ _).congr
    · exact hs

theorem Canonical.execQpPost (r : Requester) (v : Word) : NextCanonical (execQpPost r v s) :=
  (hs.postPortPut _ _ _).next

theorem Canonical.execQpCancel (r : Requester) (v : Word) : NextCanonical (execQpCancel r v s) :=
  (hs.postPortPut _ _ _).next

/-! ### Machine/Output -/

theorem Canonical.linkTrack (h : Head) : Canonical (s.linkTrack h) :=
  (hs.bset _ _ _).modHead _ _

theorem Canonical.outputOff (h : Head) : Canonical (s.outputOff h) :=
  ((hs.bset _ _ _).fset _ _ _ _).linkTrack _

theorem Canonical.outputCheck (h : Head) : Canonical (s.outputCheck h) :=
  (((hs.fset _ _ _ _).modHead _ _).linkTrack _).ite ((((hs.fset _ _ _ _).modHead _ _).outputOff _).evOutput _)

theorem Canonical.outputOn (h : Head) : Canonical (s.outputOn h) :=
  (hs.bset _ _ _).outputCheck _

theorem Canonical.outctlPut (h : Head) (v : Word) : Canonical (s.outctlPut h v) := by
  unfold State.outctlPut
  extract_lets o s1 s2
  have kept : Canonical s2 := (hs.bset _ _ _).ite ((hs.bset _ _ _).bset _ _ _)
  exact (kept.outputOn _).ite ((kept.outputOff _).ite (kept.linkTrack _))

theorem Canonical.dpctlPut (h : Head) (v : Word) : Canonical (s.dpctlPut h v) :=
  (((hs.ite (hs.fset _ _ _ _)).ite ((hs.ite (hs.fset _ _ _ _)).fset _ _ _ _)).bset _ _ _).linkTrack _

theorem Canonical.lvdsctlPut (h : Head) (v : Word) : Canonical (s.lvdsctlPut h v) :=
  hs.ite ((hs.put _ _).linkTrack _)

theorem Canonical.compctlPut (h : Nat) (v : Word) : Canonical (s.compctlPut h v) :=
  hs.ite (hs.put _ _)

theorem Canonical.execOutputEnable (h : Head) : NextCanonical (execOutputEnable h s) :=
  hs.next.ite ((hs.outputOn _).next)

theorem Canonical.execOutputDisable (h : Head) : NextCanonical (execOutputDisable h s) :=
  hs.next.ite ((hs.outputOff _).next)

theorem Canonical.execLaneShort (h : Head) (l : Fin 4) : NextCanonical (execLaneShort h l s) :=
  (((((((hs.bset _ _ _).bset _ _ _).bset _ _ _).linkTrack _).sigFlag _ _).evOutput _).next).ite hs.next

theorem Canonical.execHpdRise (h : Head) (lowUs : Nat) : NextCanonical (execHpdRise h lowUs s) :=
  hs.next.ite (((((hs.bset _ _ _).linkTrack _).evOutput _).next).ite (((hs.evOutput _).next).ite hs.next))

theorem Canonical.execUnplug (h : Head) : NextCanonical (execUnplug h s) :=
  ((((((hs.bset _ _ _).bset _ _ _).inc _ _ _).linkTrack _).evOutput _).next).ite hs.next

theorem Canonical.tapAdopt (h : Head) (t : TapSet) : Canonical (s.tapAdopt h t) :=
  ((hs.modHead _ _).bset _ _ _).bset _ _ _

theorem Canonical.tapSettle (h : Head) : Canonical (s.tapSettle h) := by
  unfold State.tapSettle
  dsimp only
  split
  · exact (hs.modHead _ _).tapAdopt _ _
  · exact hs.modHead _ _

theorem Canonical.tapctlPut (h : Head) (v : Word) : Canonical (s.tapctlPut h v) := by
  unfold State.tapctlPut
  extract_lets t s1 s2
  have kept : Canonical s2 := (hs.put _ _).ite ((hs.put _ _).bset _ _ _)
  exact (hs.evOutput _).ite ((kept.tapAdopt _ _).ite ((kept.modHead _ _).ite (kept.modHead _ _)))

theorem Canonical.execTapctlWrite (r : Requester) (h : Head) (v : Word) : NextCanonical (execTapctlWrite r h v s) :=
  (hs.gated _ _ (fun _ h1 => h1.tapctlPut _ _)).next

theorem Canonical.execSignatureRecordWrite (h : Head) : NextCanonical (execSignatureRecordWrite h s) :=
  (hs.writeRecord _).next

/-! ### Machine/Pins -/

theorem Canonical.modBank (b : Bank) (f : BankSt → BankSt) : Canonical (s.modBank b f) :=
  hs.congr

theorem Canonical.pinFlag (b : Bank) (n : Nat) : Canonical (s.pinFlag b n) := by
  unfold State.pinFlag
  dsimp only
  split
  · exact hs.ite ((hs.bset _ _ _).evPin _)
  · exact hs.ite ((hs.bset _ _ _).congr)
  · exact hs

theorem Canonical.pinsMove (b : Bank) (old : Word) (pins : List Nat) : Canonical (s.pinsMove b old pins) :=
  Canonical.foldl hs (fun _ _ h1 => (h1.pinFlag _ _).ite h1)

theorem Canonical.confTrack : Canonical s.confTrack :=
  (hs.fset _ _ _ _).ite (((hs.fset _ _ _ _).incN _ _ _ _).evPinFault _)

theorem Canonical.lvdsFault (h : Head) : Canonical (s.lvdsFault h) :=
  (((hs.bset _ _ _).sigFlag _ _).linkTrack _).evOutput _

theorem Canonical.lvdsLose (h : Head) : Canonical (s.lvdsLose h) :=
  (hs.modHead _ _).lvdsFault _

theorem Canonical.bankLinks (b : Nat) : Canonical (s.bankLinks b) :=
  Canonical.foldl hs (fun _ _ h1 => (h1.linkTrack _).ite h1)

theorem Canonical.pinChanged (b : Bank) (n : Nat) (old : Word) : Canonical (s.pinChanged b n old) :=
  hs.ite (hs.modBank _ _)

theorem Canonical.pinsTake (b : Bank) : Canonical (s.pinsTake b) := by
  unfold State.pinsTake
  extract_lets x lost s1 s2 s3 s4
  have levelled : Canonical s1 := hs.modBank _ _
  have paired : Canonical s2 := levelled.ite (levelled.foldl fun _ _ h => h.fset _ _ _ _)
  have taken : Canonical s3 := paired.modBank _ _
  have tracked : Canonical s4 := taken.ite taken.confTrack
  exact tracked.foldl fun _ _ h => (h.lvdsLose _).ite h

theorem Canonical.padsTake (b : Bank) : Canonical (s.padsTake b) :=
  (hs.wr _ _).modBank _ _

theorem Canonical.bankEdge (b : Bank) : Canonical (s.bankEdge b) :=
  (((hs.pinsTake _).ite ((hs.pinsTake _).padsTake _)).modBank _ _).pinsMove _ _ _

theorem Canonical.pincfgPut (r : Requester) (b : Bank) (n : PinNo) (v : Word) : Canonical (s.pincfgPut r b n v) :=
  (hs.accessFault _ _).ite (hs.ite ((hs.wr _ _).pinChanged _ _ _))

theorem Canonical.pinGive (b : Bank) (n kind idx : Nat) : Canonical (s.pinGive b n kind idx) :=
  Canonical.foldl hs (fun _ _ h1 => (h1.wr _ _).pinChanged _ _ _)

theorem Canonical.holdRelease (b : Bank) : Canonical (s.holdRelease b) :=
  ((hs.bset _ _ _).modBank _ _).ite hs

theorem Canonical.bankcfgPut (b : Bank) (v : Word) : Canonical (s.bankcfgPut b v) :=
  ((((((hs.bset _ _ _).bset _ _ _).fset _ _ _ _).fset _ _ _ _).ite ((((hs.bset _ _ _).bset _ _ _).fset _ _ _ _).evPinFault _)).when
    (fun h1 => h1.holdRelease _)).bankLinks _

theorem Canonical.outOp (b : Nat) (m : Word) (op : Nat) (v : Word) : Canonical (s.outOp b m op v) :=
  hs.wr _ _

theorem Canonical.outBy (who rank b : Nat) (m : Word) (op : Nat) (v : Word) : Canonical (s.outBy who rank b m op v) :=
  (((hs.wr _ _).outOp _ _ _ _).wr _ _).cycNotes _ _

theorem Canonical.outDirect (r : Requester) (b op : Nat) (v : Word) : Canonical (s.outDirect r b op v) :=
  hs.outBy _ _ _ _ _ _

theorem Canonical.iflagPut (r : Requester) (b : Nat) (v : Word) : Canonical (s.iflagPut r b v) :=
  hs.wr _ _

theorem Canonical.contPut (b : Bank) (v : Word) : Canonical (s.contPut b v) :=
  ((hs.put _ _).modBank _ _).bankLinks _

theorem Canonical.probeGo (r : Requester) (b : Bank) : Canonical (s.probeGo r b) :=
  hs.ite ((hs.bset _ _ _).modBank _ _)

theorem Canonical.execBankcfgWrite (r : Requester) (b : Bank) (v : Word) : NextCanonical (execBankcfgWrite r b v s) :=
  (hs.gated _ _ (fun _ h1 => h1.bankcfgPut _ _)).next

theorem Canonical.execHoldrel (r : Requester) (b : Bank) : NextCanonical (execHoldrel r b s) :=
  (hs.gated _ _ (fun _ h1 => h1.holdRelease _)).next

theorem Canonical.execPgoodFall (b : Bank) : NextCanonical (execPgoodFall b s) :=
  (((hs.bset _ _ _).next).ite (((((hs.bset _ _ _).modBank _ _).inc _ _ _).evPinFault _).next)).ite hs.next

theorem Canonical.execPgoodRise (b : Bank) (sup : Fin 6) : NextCanonical (execPgoodRise b sup s) :=
  (((hs.bset _ _ _).fset _ _ _ _).modBank _ _).next

theorem Canonical.execPincfgWrite (r : Requester) (b : Bank) (n : PinNo) (v : Word) : NextCanonical (execPincfgWrite r b n v s) :=
  (hs.gated _ _ (fun _ h1 => h1.pincfgPut _ _ _ _)).next

theorem Canonical.execOutWrite (r : Requester) (b : Bank) (v : Word) : NextCanonical (execOutWrite r b v s) :=
  (hs.outDirect _ _ _ _).next

theorem Canonical.execOset (r : Requester) (b : Bank) (v : Word) : NextCanonical (execOset r b v s) :=
  (hs.outDirect _ _ _ _).next

theorem Canonical.execOclr (r : Requester) (b : Bank) (v : Word) : NextCanonical (execOclr r b v s) :=
  (hs.outDirect _ _ _ _).next

theorem Canonical.execOtgl (r : Requester) (b : Bank) (v : Word) : NextCanonical (execOtgl r b v s) :=
  (hs.outDirect _ _ _ _).next

theorem Canonical.execPinInput (b : Bank) (n : PinNo) (lvl : Bool) : NextCanonical (execPinInput b n lvl s) :=
  ((Canonical.foldl hs (fun _ _ h1 => h1.modBank _ _)).pinsMove _ _ _).next

theorem Canonical.execDebounce (b : Bank) (n : PinNo) : NextCanonical (execDebounce b n s) :=
  ((hs.modBank _ _).pinsMove _ _ _).next

theorem Canonical.execContention (b : Bank) (n : PinNo) : NextCanonical (execContention b n s) := by
  unfold Machine.execContention
  dsimp only
  split
  · split
    · exact (((((hs.bset _ _ _).inc _ _ _).evPinFault _).when (fun h1 => h1.modBank _ _)).lvdsFault _).next
    · exact ((((hs.bset _ _ _).inc _ _ _).evPinFault _).when (fun h1 => h1.modBank _ _)).next
  · exact hs.next

theorem Canonical.execOpenProbe (r : Requester) (b : Bank) : NextCanonical (execOpenProbe r b s) :=
  (hs.gated _ _ (fun _ h1 => h1.probeGo _ _)).next

theorem Canonical.execOpenProbeDone (b : Bank) (up down : Word) : NextCanonical (execOpenProbeDone b up down s) :=
  (((((hs.wr _ _).bset _ _ _).modBank _ _).pinsMove _ _ _).next).ite hs.next

/-! ### Machine/Dram -/

theorem Canonical.modChan (c : Chan) (f : ChanSt → ChanSt) : Canonical (s.modChan c f) :=
  hs.congr

theorem Canonical.setReads (c : Chan) (l : List DRead) : Canonical (s.setReads c l) :=
  (hs.modChan _ _).fset _ _ _ _

theorem Canonical.dramCycle (q : DramUser) : Canonical (s.dramCycle q) :=
  hs.congr.ite hs.congr

theorem Canonical.askUnit (q : DramUser) (u deadline line : Nat) (standIn merge : Bool) : Canonical (s.askUnit q u deadline line standIn merge) := by
  unfold State.askUnit
  dsimp only
  split
  · exact (hs.dramCycle _).setReads _ _
  · exact (((hs.dramCycle _).setReads _ _).modChan _ _).ite (((hs.dramCycle _).setReads _ _).setReads _ _)

theorem Canonical.dramAsk (q : DramUser) (u deadline line : Nat) (standIn : Bool) : Canonical (s.dramAsk q u deadline line standIn).1 := by
  unfold State.dramAsk
  split
  · exact hs.countOor _
  · exact hs.askUnit _ _ _ _ _ _

theorem Canonical.takePiece (q : DramUser) (a : Nat) (d : List Byte) : Canonical (s.takePiece q a d) :=
  (((hs.askUnit _ _ _ _ _ _).ite hs).modChan _ _).modChan _ _

theorem Canonical.queueWrite (q : DramUser) (a : Nat) (d : List Byte) : Canonical (s.queueWrite q a d) :=
  (Canonical.foldl (hs.dramCycle _) (fun _ _ h1 => h1.takePiece _ _ _)).countOor _

theorem Canonical.drain (c : Chan) : Canonical (s.drain c) :=
  (Canonical.foldl hs (fun _ _ h1 => (h1.dramPut _ _).modChan _ _)).modChan _ _

theorem Canonical.drcfgPut (v : Word) : Canonical (s.drcfgPut v) :=
  hs.ite (hs.put _ _)

theorem Canonical.tagresPut (v : Word) : Canonical (s.tagresPut v) :=
  hs.evDram.ite (Canonical.foldl (hs.put _ _) (fun _ _ h1 => h1.setReads _ _))

theorem Canonical.sharePut (v : Word) : Canonical (s.sharePut v) :=
  hs.evDram.ite (hs.put _ _)

theorem Canonical.eccPut (r w : Nat) (v : Word) : Canonical (s.eccPut r w v) := by
  unfold State.eccPut
  dsimp only
  split
  · exact (hs.ite (hs.bset _ _ _)).ite ((hs.fset _ _ _ _).when (fun h1 => hs.evDram.ite (h1.bset _ _ _)))
  · exact hs.ite (hs.put _ _)

theorem Canonical.dramRegPut (off : Nat) (v : Word) : Canonical (s.dramRegPut off v) := by
  unfold State.dramRegPut
  split
  · exact hs.drcfgPut _
  · exact hs.tagresPut _
  · exact hs.sharePut _
  · exact hs.put _ _
  · exact (hs.eccPut _ _ _).ite hs

theorem Canonical.trained (ok : BitVec 4) (cap : Nat) : Canonical (s.trained ok cap) :=
  (hs.wr _ _).ite ((hs.wr _ _).wr _ _)

theorem Canonical.repairRows : Canonical s.repairRows :=
  Canonical.foldl hs (fun _ _ h1 => h1.appendRecord _ _)

theorem Canonical.stopApplets : Canonical s.stopApplets :=
  hs.congr

theorem Canonical.toSafe (reason : BitVec 8) : Canonical (s.toSafe reason) :=
  ((hs.toDev _ _).stopApplets).ledgerSave

theorem Canonical.execDramTraining (ok : BitVec 4) (cap : Fitted) : NextCanonical (execDramTraining ok cap s) :=
  hs.next.ite (((((hs.trained _ _).repairRows).congr).when (fun h1 => h1.toSafe _)).next)

theorem Canonical.execDramReadIssue (c : Chan) : NextCanonical (execDramReadIssue c s) := by
  unfold Machine.execDramReadIssue
  split
  · exact hs.next
  · exact (hs.modChan _ _).next

theorem Canonical.execDramWriteRequest (q : DramUser) (a : BitVec 35) (d : List Byte) : NextCanonical (execDramWriteRequest q a d s) :=
  (hs.queueWrite _ _ _).next

theorem Canonical.execWriteQueueDrain (c : Draining) : NextCanonical (execWriteQueueDrain c s) :=
  (((hs.drain _).when (fun h1 => h1.incN _ _ _ _)).next).ite hs.next

theorem Canonical.execRefresh (c : Chan) (sub : Bool) (mr4 : Fin 32) : NextCanonical (execRefresh c sub mr4 s) :=
  ((hs.modChan _ _).next).ite hs.next

theorem Canonical.execDrcfgWrite (r : Requester) (v : Word) : NextCanonical (execDrcfgWrite r v s) :=
  (hs.gated _ _ (fun _ h1 => h1.drcfgPut _)).next

theorem Canonical.execTagresWrite (r : Requester) (v : Word) : NextCanonical (execTagresWrite r v s) :=
  (hs.gated _ _ (fun _ h1 => h1.tagresPut _)).next

theorem Canonical.execShareWrite (r : Requester) (v : Word) : NextCanonical (execShareWrite r v s) :=
  (hs.gated _ _ (fun _ h1 => h1.sharePut _)).next

theorem Canonical.execEccRegionEnable (r : Requester) (n : Fin 8) (v : Word) : NextCanonical (execEccRegionEnable r n v s) :=
  (hs.gated _ _ (fun _ h1 => h1.eccPut _ _ _)).next

/-! ### Machine/Split -/

theorem Canonical.modSplit (f : Fin 8) (g : SplitFn → SplitFn) : Canonical (s.modSplit f g) :=
  hs.congr

theorem Canonical.splitBoundary (h : Nat) : Canonical (s.splitBoundary h) :=
  Canonical.foldl hs (fun _ _ h1 => h1.modSplit _ _)

theorem Canonical.splitStart (h : Nat) : Canonical (s.splitStart h) :=
  Canonical.foldl hs (fun _ _ h1 => h1.modSplit _ _)

theorem Canonical.splitStop (h : Nat) : Canonical (s.splitStop h) :=
  Canonical.foldl hs (fun _ _ h1 => h1.modSplit _ _)

theorem Canonical.splitLate (f : Fin 8) : Canonical (s.splitLate f) :=
  hs.modSplit _ _

theorem Canonical.splitSet (f : Fin 8) (mask : BitVec 8) (want : Bool) : Canonical (s.splitSet f mask want).1 := by
  unfold State.splitSet
  extract_lets x same p t p'
  split
  · split
    · exact hs
    · split <;> exact hs.modSplit _ _
  · split
    · exact hs
    · split
      · exact (hs.modSplit _ _)
      · exact (hs.modSplit _ _)

/-! ### Machine/Layers -/

theorem Canonical.modEng (e : Nat) (f : EngSt → EngSt) : Canonical (s.modEng e f) :=
  Canonical.dite (fun _ => hs.congr) (fun _ => hs)

theorem Canonical.replaceEngine (h n : Nat) : Canonical (s.replaceEngine h n) := by
  unfold State.replaceEngine
  split
  · split
    · exact hs.fset _ _ _ _
    · exact hs
  · exact hs

theorem Canonical.latchEngine (h : Head) (n : Slot) : Canonical (s.latchEngine h n) := by
  have taken := hs.replaceEngine h.val n.val
  unfold State.latchEngine
  dsimp only
  split
  · exact (((((taken.modEng _ _).ite taken).modEng _ _).ite ((taken.modEng _ _).ite taken)).modHead _ _)
  · exact ((taken.modEng _ _).ite taken).modHead _ _

theorem Canonical.countDesc (h : Head) (l : Latched) : Canonical (s.countDesc h l) :=
  Canonical.ite (Canonical.foldl hs (fun _ _ h1 => h1.inc _ _ _)) (((Canonical.foldl hs (fun _ _ h1 => h1.inc _ _ _)).setRaised _ _ _).evHead _ _)

theorem Canonical.latchLine (h : Head) (k : Nat) : Canonical (s.latchLine h k) :=
  (Canonical.foldl hs (fun _ _ h1 => h1.latchEngine _ _)).when (fun h1 => (h1.modHead _ _).countDesc _ _)

theorem Canonical.rotAbort : Canonical s.rotAbort :=
  ((hs.fset _ _ _ _).inc _ _ _).congr

theorem Canonical.slotPut (h : Head) (n : Slot) (v : Word) : Canonical (s.slotPut h n v) :=
  (((((hs.rotAbort.ite hs).fset _ _ _ _).ite (((hs.rotAbort.ite hs).fset _ _ _ _).fset _ _ _ _)).bset _ _ _).when
    (fun h1 => h1.modHead _ _)).when (fun h1 => h1.evHead _ _)

theorem Canonical.layctlPut (h : Head) (v : Word) : Canonical (s.layctlPut h v) :=
  hs.ite ((hs.rotAbort.ite hs).put _ _)

theorem Canonical.palswap (h a b : Nat) : Canonical (s.palswap h a b) :=
  (hs.fset _ _ _ _).fset _ _ _ _

theorem Canonical.execSlotWrite (r : Requester) (h : Head) (n : Slot) (v : Word) : NextCanonical (execSlotWrite r h n v s) :=
  (hs.gated _ _ (fun _ h1 => h1.directly _ _ _ (fun _ _ _ h2 => h2.slotPut _ _ _))).next

theorem Canonical.execCinv (r : Requester) (h : Head) (n : Slot) : NextCanonical (execCinv r h n s) :=
  (hs.gated _ _ (fun _ h1 => h1.modHead _ _)).next

theorem Canonical.execNslotWrite (r : Requester) (h : Head) (v : Word) : NextCanonical (execNslotWrite r h v s) :=
  (hs.gated _ _ (fun _ h1 => h1.layctlPut _ _)).next

/-! ### Machine/Objects -/

theorem Canonical.scanChecks (ps : List Plane) : Canonical (s.scanChecks ps).1 :=
  Canonical.foldlFst hs (fun _ _ h1 => h1.readCheck _ _ _)

theorem Canonical.countLine (h : Head) (k : Nat) (f : LineCounts → LineCounts) : Canonical (s.countLine h k f) :=
  hs.modHead _ _

theorem Canonical.evaluate (h : Head) (k : Nat) : Canonical (s.evaluate h k) := by
  unfold State.evaluate
  extract_lets r budget f
  split
  next ps cut _ =>
  have scanned := hs.scanChecks ps
  split
  next s0 skip e =>
  rw [e] at scanned
  extract_lets all seen bad cands kept scan made isCut took drop s1 s2 s3 s4 s5 s6 up s7
  have counted : Canonical s2 := (scanned.modHead _ _).countLine _ _ _
  have planed : Canonical s4 := (counted.when fun h => h.inc _ _ _).incN _ _ _ _
  have dropped : Canonical s5 := planed.ite ((planed.incN _ _ _ _).sigFlag _ _)
  have raised : Canonical s7 := (dropped.when fun h => h.inc _ _ _).setRaised _ _ _
  exact raised.when fun h => h.evHead _ _

theorem Canonical.execObjectEvaluation (h : Head) : NextCanonical (execObjectEvaluation h s) :=
  ((hs.evaluate _ _).next).ite hs.next

/-! ### Machine/Render -/

theorem Canonical.modLine (h : Head) (k : Nat) (f : LineWork → LineWork) : Canonical (s.modLine h k f) :=
  hs.modHead _ _

theorem Canonical.engineCheck (e : Nat) : Canonical (s.engineCheck e).1 :=
  ((hs.writeFlip _ _).ite hs).readBad _

theorem Canonical.askAll (h : Head) (n : Slot) (us : List Nat) (deadline line : Nat) (standIn : Bool) : Canonical
    (s.askAll h n us deadline line standIn).1 :=
  Canonical.foldlFst hs (fun _ _ h1 => h1.dramAsk _ _ _ _ _)

theorem Canonical.resolveWork (h : Head) (pmap : List Word) (w : EngWork) : Canonical (s.resolveWork h pmap w).1 :=
  hs.readBad _

theorem Canonical.fillCache (w : EngWork) : Canonical (s.fillCache w).1 := by
  unfold State.fillCache
  dsimp only
  split
  · split
    · exact (hs.modEng _ _).modEng _ _
    · exact hs.modEng _ _
  · exact hs.modEng _ _

theorem Canonical.workOn (h : Head) (pmap : List Word) (w : EngWork) : Canonical (s.workOn h pmap w).1 :=
  (hs.resolveWork _ _ _).fillCache _

theorem Canonical.setSlot (h : Head) (k : Nat) (n : Slot) (x : SlotLine) : Canonical (s.setSlot h k n x) :=
  hs.modLine _ _ _

theorem Canonical.beginWork (h : Head) (w : LineWork) (n : Slot) (eng : Nat) (standIn : Bool) : Canonical (s.beginWork h w n eng standIn).1 :=
  ((hs.modEng _ _).askAll _ _ _ _ _ _).workOn _ _ _

theorem Canonical.mirrorSlot (h : Head) (w : LineWork) (n : Slot) : Canonical (s.mirrorSlot h w n) := by
  unfold State.mirrorSlot
  split
  · exact hs
  · exact (((hs.engineCheck _).modEng _ _).markFailed _).ite (((hs.engineCheck _).beginWork _ _ _ _ _).modHead _ _)

theorem Canonical.fetchSlot (h : Head) (w : LineWork) (n : Slot) : Canonical (s.fetchSlot h w n) := by
  unfold State.fetchSlot
  have checked := fun e => hs.engineCheck e
  refine Canonical.ite ((((checked _).modEng _ _).markFailed _).setSlot _ _ _ _) ?_
  have counted := fun e w' => ((((checked e).beginWork h w' n e false)).countLine h w'.lat.line)
  exact Canonical.mirrorSlot (Canonical.setSlot ((counted _ _ _).ite
    (((counted _ _ _).incN _ _ _ _).ite ((((counted _ _ _).incN _ _ _ _).setRaised _ _ _).evHead _ _))) _ _ _ _) _ _ _

theorem Canonical.drawn (h : Head) : Canonical (s.drawn h) :=
  hs.modHead _ _

theorem Canonical.execEngineLineBegin (h : Head) (n : Slot) : NextCanonical (execEngineLineBegin h n s) := by
  unfold Machine.execEngineLineBegin
  dsimp only
  split
  · exact (hs.drawn _).next
  · exact ((hs.drawn _).next).ite ((((hs.drawn _).fetchSlot _ _ _).next).ite (((hs.drawn _).setSlot _ _ _ _).next))

theorem Canonical.execOcclusionDelivery (h : Head) : NextCanonical (execOcclusionDelivery h s) := by
  unfold Machine.execOcclusionDelivery
  dsimp only
  split
  · exact hs.next
  · exact (Canonical.foldl (hs.modLine _ _ _) (fun _ _ h1 => (h1.fetchSlot _ _ _).ite h1)).next

/-! ### Machine/Compose -/

theorem Canonical.countMiss (h : Head) (k mask : Nat) : Canonical (s.countMiss h k mask) := by
  unfold State.countMiss
  extract_lets x s1 s2 s2'
  have counted : Canonical s1 := (hs.inc _ _ _).fset _ _ _ _
  have flagged : Canonical s2 := (counted.sigFlag _ _).modHead _ _
  have ahead : Canonical s2' := counted.modHead _ _
  exact (flagged.ite (flagged.evDeadline _)).ite ((ahead.evDeadline _).ite ahead)

theorem Canonical.orphanReads (h : Head) (p : DRead → Bool) : Canonical (s.orphanReads h p) :=
  hs.congr

theorem Canonical.miss (h : Head) (w : LineWork) : Canonical (s.miss h w) :=
  ((hs.orphanReads _ _).modLine _ _ _).countMiss _ _ _

theorem Canonical.deadline (h : Head) (w : LineWork) : Canonical (s.deadline h w) :=
  hs.ite (hs.miss _ _)

theorem Canonical.execLineDeadline (h : Head) : NextCanonical (execLineDeadline h s) := by
  unfold Machine.execLineDeadline
  dsimp only
  split
  · exact (hs.drawn _).next
  · exact (((hs.drawn _).deadline _ _).next).ite ((hs.drawn _).next)

theorem Canonical.mirrorMismatch (h : Head) (n : Slot) : Canonical (s.mirrorMismatch h n) :=
  ((hs.inc _ _ _).evIntegrity).congr

theorem Canonical.mirrorCheck (h : Head) : Canonical (s.mirrorCheck h) :=
  (Canonical.foldl hs (fun _ _ h1 => (h1.mirrorMismatch _ _).ite h1)).modHead _ _

theorem Canonical.mirrorOwn (h : Head) (w : LineWork) : Canonical (s.mirrorOwn h w) :=
  (hs.modHead _ _).mirrorCheck _

theorem Canonical.lineCheck (h k n : Nat) : Canonical (s.lineCheck h k n).1 :=
  (hs.congr.when (fun h1 => h1.writeFlip _ _)).readBad _

theorem Canonical.compose (h : Head) (w : LineWork) : Canonical (s.compose h w) :=
  (((hs.mirrorOwn _ _).lineCheck _ _ _).when (fun h1 => h1.countMiss _ _ _)).modHead _ _

theorem Canonical.execComposeLine (h : Head) : NextCanonical (execComposeLine h s) := by
  unfold Machine.execComposeLine
  dsimp only
  split
  · exact (hs.drawn _).next
  · split
    · exact ((hs.drawn _).compose _ _).next
    · split
      · split
        · exact (((hs.drawn _).deadline _ _).compose _ _).next
        · exact ((hs.drawn _).deadline _ _).next
      · exact (hs.drawn _).next

/-! ### Machine/Cells -/

theorem Canonical.glWrite (i : Nat) (v : Word) : Canonical (s.glWrite i v) :=
  ((hs.wr _ _).writeFlip _ _).congr

theorem Canonical.swapFreeze (p : Pad) : Canonical (s.swapFreeze p) :=
  (((hs.modPadSame.bset _ _ _).bset _ _ _).bset _ _ _).glWrite _ _

theorem Canonical.fabricEdge : Canonical s.fabricEdge := by
  unfold State.fabricEdge
  extract_lets s1 s2 s3
  have edged := hs.setPads (v := Vector.ofFn fun p => s.padEdge p s.pads[p]) fun p => by
    have := PadForm.padEdge (hs.pads p) s p
    simpa only [Fin.getElem_fin, Vector.getElem_ofFn]
  have latched : Canonical s1 := edged.congr
  have frozen : Canonical s2 := Canonical.foldl latched fun _ _ h => (h.swapFreeze _).ite h
  exact ((Canonical.foldl frozen fun _ _ h => h.bankEdge _).raisedOnce _ _).raisedOnce _ _

theorem Canonical.present (p : Pad) (id : Nat) (v : Word) : Canonical (s.present p id v) :=
  hs.modPadSame

theorem Canonical.cellPut (p : Pad) (n : Cell) (c : CellSt) : Canonical (s.cellPut p n c) :=
  ((hs.drawWords _).modPadSame).ite hs.modPadSame

theorem Canonical.bmWordRead (p : Pad) (a : Nat) (e : MemErr) : Canonical (s.bmWordRead p a e).1 := by
  have read := hs.readCheck p.val a e
  unfold State.bmWordRead
  dsimp only
  split
  · exact read
  · split
    · exact read
    · exact read.drawWords _

theorem Canonical.bmPresent (p : Pad) (m : Fin 96) (k : Fin 2) (w : Nat) (lo hi : Word) (err : Bool) : Canonical (s.bmPresent p m k w lo hi err) :=
  ((hs.present _ _ _).present _ _ _).present _ _ _

theorem Canonical.bmAccess (p : Pad) (m : Fin 96) (k : Fin 2) (e : MemErr) : Canonical (s.bmAccess p m k e) := by
  unfold State.bmAccess
  extract_lets x sel word wire
  split
  next ab w _ =>
  extract_lets off a
  have read := hs.bmWordRead p a e
  split
  next s1 w0 e0 h1 =>
  rw [h1] at read
  have both := (read.bmWordRead p (a + 1) .clean).iteFst (c := w = 48) (y := (s1, spGet zeroW x.bm (a + 1), false)) read
  split
  next s2 w1 e1 h2 =>
  rw [h2] at both
  have drawn := (both.drawWords 4).iteSnd (c := wire = true) (y := ([], s2)) both
  split
  next fr s3 h3 =>
  rw [h3] at drawn
  extract_lets v s4 s5 data t s6
  have shown : Canonical s5 := (drawn.bmPresent _ _ _ _ _ _ _).when fun h => h.evFabric _
  have written : Canonical s6 := by
    refine Canonical.ite ?_ shown
    refine Canonical.modPadSame ?_
    exact (shown.writeFlip _ _).when fun h => h.writeFlip _ _
  exact Canonical.modPadSame written

/-! ### Machine/Ports -/

theorem Canonical.modPort (p : Pad) (k : Fin 2) (f : List MReq → List MReq) : Canonical (s.modPort p k f) :=
  hs.modPadSame

theorem Canonical.didAct (p : Pad) (k : Nat) : Canonical (s.didAct p k) :=
  hs.modPadSame

theorem Canonical.portRequest (p : Pad) (k : Fin 2) : Canonical (s.portRequest p k) := by
  unfold State.portRequest
  extract_lets cmd u n bad id r s1
  have queued : Canonical s1 := (hs.modPort _ _ _).modPadSame
  refine ((hs.inc _ _ _).evFabric _).ite (((queued.inc _ _ _).evFabric _).ite (queued.ite ?_))
  exact queued.foldl fun _ _ h => (h.dramAsk _ _ _ _ _).ite ((h.dramAsk _ _ _ _ _).modPort _ _ _)

theorem Canonical.portData (p : Pad) (k : Fin 2) : Canonical (s.portData p k) := by
  unfold State.portData
  dsimp only
  split
  · exact hs
  · split
    · exact hs
    · exact (((hs.present _ _ _).present _ _ _).when (fun h1 => h1.inc _ _ _)).modPort _ _ _

theorem Canonical.portWrite (p : Pad) (k : Fin 2) : Canonical (s.portWrite p k) := by
  unfold State.portWrite
  dsimp only
  split
  · exact hs
  · exact ((hs.queueWrite _ _ _).ite hs).modPort _ _ _

theorem Canonical.busDone (r : Requester) (v : Word) : Canonical (s.busDone r v) := by
  unfold State.busDone
  dsimp only
  split
  · exact ((hs.congr.stWr _ _).stWr _ _).congr
  · exact hs.congr

theorem Canonical.busAccess (r : Requester) (p : Pad) (a : PadAccess) : Canonical (s.busAccess r p a) := by
  have shown := fun wba wbd => (((hs.present p 0x5EC wba).present p 0x5ED wbd).modPad p
    (f := fun x => { x with wb := some { req := r, acc := a } }) fun _ hx => hx)
  unfold State.busAccess
  split
  · exact hs.accessFault _ _
  · split
    · split
      · exact (hs.stWr _ _).congr
      · exact hs
    · dsimp only
      split
      · exact (shown _ _).stWr _ _
      · exact shown _ _

theorem Canonical.execWardensBusAccess (r : Requester) (p : Pad) (acc : PadAccess) : NextCanonical (execWardensBusAccess r p acc s) :=
  hs.congr.next.ite (((hs.busAccess _ _ _).next).ite ((hs.accessFault _ _).next))

theorem Canonical.busAck (p : Pad) : Canonical (s.busAck p).1 := by
  unfold State.busAck
  dsimp only
  split
  · exact hs
  · split
    · exact hs
    · split
      · exact ((hs.modPadSame.inc _ _ _).busDone _ _).accessFault _ _
      · exact hs.modPadSame.busDone _ _

theorem Canonical.busTimeout (p : Pad) : Canonical (s.busTimeout p).1 := by
  unfold State.busTimeout
  dsimp only
  split
  · exact hs
  · exact (((hs.modPadSame.inc _ _ _).busDone _ _).accessFault _ _).evFabric _

theorem Canonical.execPaddockPost (p : Pad) : NextCanonical (execPaddockPost p s) :=
  (((hs.post _ _ _ _ _ _).modPadSame).next).ite hs.next

theorem Canonical.execPaddockCancel (p : Pad) : NextCanonical (execPaddockCancel p s) :=
  (((hs.cancel _ _ _).modPadSame).next).ite hs.next

theorem Canonical.tapSend (h : Head) (next : Bool) : Canonical (s.tapSend h next) := by
  unfold State.tapSend
  dsimp only
  split
  · exact hs
  · exact hs.ite (((((((((hs.bset _ _ _).ite hs).present _ _ _).present _ _ _).present _ _ _).present _ _ _).present _ _ _).present _ _ _).modHead _ _)

theorem Canonical.execTapTransfer (h : Head) : NextCanonical (execTapTransfer h s) :=
  (((hs.tapSend _ _).tapSend _ _).next).ite hs.next

theorem Canonical.tapStray (h : Head) (p : Pad) (tag : Word) : Canonical (s.tapStray h p tag) :=
  (hs.modHead _ _).ite (hs.inc _ _ _)

theorem Canonical.tapTake (h : Head) (p : Pad) (tag : Word) (d : List Word) : Canonical (s.tapTake h p tag d) := by
  unfold State.tapTake
  split
  · exact (hs.modHead _ _).ite (hs.tapStray _ _ _)
  · exact hs.tapStray _ _ _

theorem Canonical.padSrst (p : Pad) : Canonical (s.padSrst p) :=
  hs.modPadSame

theorem Canonical.clkenPut (p : Pad) (on : Bool) : Canonical (s.clkenPut p on) :=
  hs.bset _ _ _

theorem Canonical.pctlPut (p : Pad) (v : Word) : Canonical (s.pctlPut p v) :=
  ((hs.padSrst _).ite hs).clkenPut _ _

theorem Canonical.execSrst (r : Requester) (p : Pad) : NextCanonical (execSrst r p s) :=
  (hs.gated _ _ (fun _ h1 => h1.padSrst _)).next

theorem Canonical.execClkenWrite (r : Requester) (p : Pad) (on : Bool) : NextCanonical (execClkenWrite r p on s) :=
  (hs.gated _ _ (fun _ h1 => h1.clkenPut _ _)).next

theorem Canonical.execProbeSelect (r : Requester) (p : Pad) (n : Fin 16) (v : Word) : NextCanonical (execProbeSelect r p n v s) :=
  (hs.gated _ _ (fun _ h1 => h1.put _ _)).next

/-! ### Machine/Loader -/

theorem Canonical.tapsBypass (p : Nat) : Canonical (s.tapsBypass p) :=
  Canonical.foldl hs (fun _ _ h1 => ((h1.modHead _ _).bset _ _ _).ite h1)

theorem Canonical.modJob (f : IcpJob → IcpJob) : Canonical (s.modJob f) :=
  hs.congr

theorem Canonical.icpAsk (img : Nat) : Canonical (s.icpAsk img) :=
  Canonical.foldl hs (fun _ _ h1 => (h1.dramAsk _ _ _ _ _).modJob _)

theorem Canonical.icpTake : Canonical s.icpTake := by
  unfold State.icpTake
  dsimp only
  split
  · exact ((hs.modJob _).icpAsk _).ite hs
  · exact hs

theorem Canonical.icpNext : Canonical s.icpNext := by
  unfold State.icpNext
  split
  · exact hs.congr.icpTake
  · exact hs.congr.bset _ _ _

theorem Canonical.icpAdd (j : IcpJob) : Canonical (s.icpAdd j) := by
  unfold State.icpAdd
  dsimp only
  split
  · exact hs.congr.icpTake.bset _ _ _
  · exact hs.congr.bset _ _ _

theorem Canonical.repairsOff (p : Pad) : Canonical (s.repairsOff p) := by
  unfold State.repairsOff
  dsimp only
  split
  · exact hs.congr.when (fun h1 => h1.dropEntry _ _)
  · exact hs.congr

theorem Canonical.glSkip (p : Nat) : Canonical (s.glSkip p) :=
  hs.congr.ite hs

theorem Canonical.swapStart (p : Pad) (img : Nat) (planned : Bool) (mbox : Option Nat) : Canonical (s.swapStart p img planned mbox) := by
  have off := hs.repairsOff p
  unfold State.swapStart
  extract_lets s1
  have begun : Canonical s1 := off.modPadSame
  exact ((begun.glSkip _).tapsBypass _).icpAdd _

theorem Canonical.swapUndo (p : Pad) : Canonical (s.swapUndo p) := by
  unfold State.swapUndo
  refine hs.ite ?_
  extract_lets mine s1 s2
  have left : Canonical s2 := by
    unfold s2
    split
    · exact hs.congr.icpNext.ite hs.congr
    · exact hs.congr
  exact Canonical.foldl left.modPadSame fun _ _ h => (h.bset _ _ _).ite h

theorem Canonical.swapReject (p : Pad) : Canonical (s.swapReject p) :=
  (hs.inc _ _ _).evConfig

theorem Canonical.swapAction (p : Pad) (img : Nat) (planned : Bool) (mbox : Option Nat) : Canonical (s.swapAction p img planned mbox) :=
  (hs.swapReject _).ite (hs.swapStart _ _ _ _)

theorem Canonical.dropUpsets (p : Nat) (f : Upset → Bool) : Canonical (s.dropUpsets p f) :=
  hs.congr

theorem Canonical.designTrack (p : Nat) : Canonical (s.designTrack p) :=
  hs.wr _ _

theorem Canonical.padClear (p : Pad) : Canonical (s.padClear p) := by
  have cleared : Canonical (s.modPad p PadSt.cleared) := hs.modPad p fun x _ => PadForm.cleared x
  have dropped : Canonical ((s.modPad p PadSt.cleared).dropUpsets p.val fun _ => true) := cleared.congr
  exact ((dropped.congr.bset _ _ _).fset _ _ _ _).designTrack _

theorem Canonical.loadRead (v : DramView) : Canonical (s.loadRead v) :=
  hs.modJob _

theorem Canonical.loadClear (j : IcpJob) {read : State → State} (hf : ∀ t, Canonical t → Canonical (read t)) : Canonical (s.loadClear j read) := by
  have cleared := (hs.padClear (Fin.ofNat 16 j.pad)).modJob fun x => { x with begun := true }
  unfold State.loadClear
  dsimp only
  split
  · exact cleared.modJob _
  · split
    · exact (cleared.bset _ _ _).modJob _
    · exact hf _ ((cleared.bset _ _ _).foldl (fun _ _ h => h.wr _ _))

theorem Canonical.icpHas : Canonical s.icpHas := by
  unfold State.icpHas
  split
  · exact (hs.loadRead _).ite hs
  · exact hs

theorem Canonical.loadBegin (j : IcpJob) : Canonical (s.loadBegin j) :=
  hs.loadClear _ (fun _ h1 => (h1.icpAsk _).icpHas)

theorem Canonical.loaderUnit (u : Nat) (d : List Byte) (bad : Bool) : Canonical (s.loaderUnit u d bad) := by
  unfold State.loaderUnit
  split
  · exact ((hs.modJob _).when (fun h1 => h1.icpHas)).ite hs
  · exact hs

theorem Canonical.execPad : NextCanonical (execPad s) := by
  unfold Machine.execPad
  split
  · split
    · exact ((hs.modJob _).next).ite hs.next
    · exact hs.next
  · exact hs.next

theorem Canonical.writeFrame (p f : Nat) (ws : List Word) : Canonical (s.writeFrame p f ws) :=
  have written := (hs.modPad (Fin.ofNat 16 p) (f := fun x => { x with cfg := spWrite zeroW x.cfg (96 * f) ws })
    fun _ hx => ⟨spWf_spWrite _ _ _ _ hx.1, hx.2⟩).dropUpsets p fun u => u.frame.val == f
  (written.designTrack _).ite written

theorem Canonical.framesRecord (j : IcpJob) (f n : Nat) : Canonical (s.framesRecord j f n) :=
  (hs.modJob _).ite ((hs.modJob _).ite ((Canonical.foldl hs (fun _ _ h1 => h1.writeFrame _ _ _)).modJob _))

theorem Canonical.execFrames : NextCanonical (execFrames s) := by
  unfold Machine.execFrames
  split
  · split
    · exact ((hs.framesRecord _ _ _).next).ite hs.next
    · exact hs.next
  · exact hs.next

theorem Canonical.writeBmem (p : Pad) (a : Nat) (ws : List Word) : Canonical (s.writeBmem p a ws) :=
  have written := hs.modPad p (f := fun x => { x with bm := spWrite zeroW x.bm a ws }) fun _ hx => ⟨hx.1, spWf_spWrite _ _ _ _ hx.2⟩
  Canonical.foldl written fun _ _ h => h.writeFlip _ _

theorem Canonical.execBmem : NextCanonical (execBmem s) := by
  unfold Machine.execBmem
  split
  · split
    · exact hs.next.ite (((hs.modJob _).next).ite (((hs.modJob _).next).ite (((hs.writeBmem _ _ _).modJob _).next)))
    · exact hs.next
  · exact hs.next

theorem Canonical.execEndRecord : NextCanonical (execEndRecord s) := by
  unfold Machine.execEndRecord
  split
  · split
    · exact hs.next.ite (((hs.modJob _).next).ite ((hs.modJob _).next))
    · exact hs.next
  · exact hs.next

theorem Canonical.loadRuns (j : IcpJob) : Canonical (s.loadRuns j) :=
  ((((((((((hs.draw.iteSnd hs).modPadSame).modPadSame).wr _ _).bset _ _ _).bset _ _ _).fset _ _ _ _).wr _ _).designTrack _).glWrite _ _).modJob _

theorem Canonical.execLoadComplete : NextCanonical (execLoadComplete s) := by
  unfold Machine.execLoadComplete
  split
  · exact ((hs.loadRuns _).next).ite hs.next
  · exact hs.next

theorem Canonical.rewriteFrame (j : IcpJob) : Canonical (s.rewriteFrame j).1 := by
  unfold State.rewriteFrame
  dsimp only
  split
  · exact hs
  · exact (hs.writeFrame _ _ _).iteFst hs

theorem Canonical.readFrame (p f : Nat) : Canonical (s.readFrame p f).1 :=
  Canonical.iteFst { hs with ws := spWf_spWrite _ _ _ _ hs.ws } { hs with ws := spWf_spWrite _ _ _ _ hs.ws }

theorem Canonical.loadFailed (j : IcpJob) : Canonical (s.loadFailed j) :=
  (hs.padClear _).bset _ _ _

theorem Canonical.icpFinish (j : IcpJob) (code : Nat) : Canonical (s.icpFinish j code) := by
  unfold State.icpFinish
  extract_lets s1 s2 s3 s4
  have noted : Canonical s2 := (hs.fset _ _ _ _).when fun h => h.fset _ _ _ _
  have failed : Canonical s3 := noted.when fun h => h.loadFailed _
  have told : Canonical s4 := failed.ite failed.evConfig
  exact told.icpNext

theorem Canonical.icpEnd : Canonical (s.icpEnd).1 := by
  unfold State.icpEnd
  dsimp only
  split
  · exact hs
  · split
    · split
      · exact hs.icpFinish _ _
      · exact hs
    · split
      · exact hs
      · exact (hs.rewriteFrame _).icpFinish _ _
    · exact (hs.readFrame _ _).icpFinish _ _

theorem Canonical.icpGo (op : IcpOp) (p img f : Nat) : Canonical (s.icpGo op p img f) := by
  unfold State.icpGo
  split
  · exact hs
  · split
    · exact hs.swapStart _ _ _ _
    · exact hs.icpAdd _

theorem Canonical.icpctlPut (v : Word) : Canonical (s.icpctlPut v) := by
  unfold State.icpctlPut
  split
  · exact hs
  · split
    · exact hs.icpGo _ _ _ _
    · exact hs.icpGo _ _ _ _
    · exact hs.icpGo _ _ _ _
    · exact hs

theorem Canonical.imagePut (e : Fin 64) (w : Nat) (v : Word) : Canonical (s.imagePut e w v) :=
  (hs.ite (hs.put _ _)).ite (((hs.put _ _).ite hs).ite ((hs.put _ _).when (fun h1 => hs.ite h1.congr)))

theorem Canonical.execLoad (r : Requester) (p : Pad) (img : Fin 64) : NextCanonical (execLoad r p img s) :=
  (hs.gated _ _ (fun _ h1 => h1.icpGo _ _ _ _)).next

theorem Canonical.execRewrite (r : Requester) (p : Pad) (f : BitVec 10) : NextCanonical (execRewrite r p f s) :=
  (hs.gated _ _ (fun _ h1 => h1.icpGo _ _ _ _)).next

theorem Canonical.execRead (r : Requester) (p : Pad) (f : BitVec 10) : NextCanonical (execRead r p f s) :=
  (hs.gated _ _ (fun _ h1 => h1.icpGo _ _ _ _)).next

theorem Canonical.execImageEntryWrite (r : Requester) (e : Fin 64) (w : Fin 4) (v : Word) : NextCanonical (execImageEntryWrite r e w v s) :=
  (hs.gated _ _ (fun _ h1 => h1.imagePut _ _ _)).next

/-! ### Machine/Gleaner -/

theorem Canonical.flipConfig (u : Upset) : Canonical (s.flipConfig u) := by
  have flipped : Canonical (s.modPad u.pad fun x => { x with
      cfg := spSet zeroW x.cfg (96 * u.frame.val + u.word.val) (spGet zeroW x.cfg (96 * u.frame.val + u.word.val) ^^^ u.mask) }) :=
    hs.modPad _ fun _ hx => ⟨spWf_spSet _ _ _ hx.1, hx.2⟩
  exact flipped.when fun h => h.designTrack _

theorem Canonical.strike (ups : List Upset) : Canonical (s.strike ups) :=
  Canonical.foldl hs (fun _ _ h1 => (h1.flipConfig _).congr)

theorem Canonical.spareRecord (u : Upset) : Canonical (s.spareRecord u) :=
  (hs.ite (hs.appendRecord _ _)).ite hs

theorem Canonical.glLog (u : Upset) (ess : Bool) (kind : Nat) : Canonical (s.glLog u ess kind) :=
  (hs.logPut _ _ _ _).spareRecord _

theorem Canonical.glReload (p : Pad) : Canonical (s.glReload p) :=
  (hs.swapAction _ _ _ _).ite ((hs.post _ _ _ _ _ _).when (fun h1 => h1.modPadSame))

theorem Canonical.scrubFrame (host : Bool) (p : Pad) (f : Nat) : Canonical (s.scrubFrame host p f) := by
  unfold State.scrubFrame
  extract_lets us bad crc lates ess anyEss corr s1 s2 again _ s3 s4
  have logged : Canonical s1 := Canonical.foldl hs fun _ _ h => h.glLog _ _ _
  clear_value bad us
  have noted : Canonical s2 := by
    unfold s2
    split
    · exact logged.glLog _ _ _
    · exact logged
  clear_value s2
  have struck : Canonical s3 := Canonical.strike noted.congr _
  clear_value s3
  refine struck.ite (Canonical.ite ?_ ?_)
  · split
    next left back _ =>
    extract_lets t _ u v
    have mended : Canonical t := Canonical.foldl struck fun _ _ h => h.flipConfig _
    clear_value t
    have counted : Canonical v := Canonical.incN (mended.congr (t := u)) _ _ _ _
    exact counted.when fun h => h.evConfig
  · have counted : Canonical s4 := struck.inc _ _ _
    exact counted.evConfig.ite ((counted.evConfig.glReload _).ite (counted.icpAdd _))

theorem Canonical.glReset : Canonical s.glReset :=
  (hs.congr.inc _ _ _).wr _ _

theorem Canonical.glRestore : Canonical s.glRestore := by
  refine Canonical.foldl ?_ fun _ _ h => h.writeFlip _ _
  exact hs.setWs (spWf_spWrite _ _ _ _ hs.ws)

theorem Canonical.glProgram : Canonical s.glProgram :=
  (((hs.readBad _).glRestore).glReset).ite ((hs.readBad _).ite (((hs.readBad _).glRestore).evConfig))

theorem Canonical.roundBegin : Canonical s.roundBegin := by
  unfold State.roundBegin
  extract_lets d s0 s1 s2 s3
  have split : Canonical s1 := (hs.congr.incN _ _ _ _).splitLate _
  have voted : Canonical s2 := split.congr
  exact voted.glProgram.congr

theorem Canonical.roundEnd : Canonical s.roundEnd :=
  (((hs.strike _).congr).wr _ _).wr _ _

theorem Canonical.roundWaits : Canonical s.roundWaits :=
  hs.wr _ _

omit hs in
theorem Canonical.roundGo : ∀ (n : Nat) {s : State}, Canonical s → Canonical (State.roundGo n s)
  | 0, _, hs => hs.roundEnd
  | n + 1, s, hs => by
    unfold State.roundGo
    split
    · exact hs.roundWaits
    · split
      · exact hs.roundEnd
      · exact Canonical.roundGo n (hs.scrubFrame _ _ _).congr

theorem Canonical.roundRun : Canonical s.roundRun :=
  (hs.roundGo _).ite ((((hs.roundGo _).congr).roundBegin).roundGo _)

theorem Canonical.glResume : Canonical s.glResume :=
  hs.roundRun.ite hs

theorem Canonical.glRoundGo (ups : List Upset) : Canonical (s.glRoundGo ups) :=
  ((hs.strike _).congr.inc _ _ _).congr.ite (hs.roundBegin.strike _).congr.roundRun

theorem Canonical.execGleanerRound (ups : List Upset) : NextCanonical (execGleanerRound ups s) :=
  ((hs.glRoundGo _).next).ite hs.next

theorem Canonical.execHeartbeatTimeout : NextCanonical (execHeartbeatTimeout s) :=
  hs.glReset.evConfig.next

theorem Canonical.execGrst (r : Requester) : NextCanonical (execGrst r s) :=
  (hs.gated _ _ (fun _ h1 => h1.glReset)).next

/-! ### Machine/Lark -/

theorem Canonical.modVoice (v : Fin 256) (f : VoiceSt → VoiceSt) : Canonical (s.modVoice v f) :=
  hs.congr

theorem Canonical.roundDiv (i d : Int) : Canonical (s.roundDiv i d).2 := by
  unfold State.roundDiv
  split
  · exact hs
  · exact hs.draw

theorem Canonical.larkStore (a : Nat) (d : List Byte) : Canonical (s.larkStore a d) :=
  Canonical.foldl (hs.larkPut _ _) (fun _ _ h1 => h1.writeFlip _ _)

theorem Canonical.larkLoad (a n : Nat) : Canonical (s.larkLoad a n).2.2 :=
  Canonical.foldlFst hs (fun _ _ h1 => h1.readCheck _ _ _)

theorem Canonical.sampleBytes (x : VoiceSt) (i : Nat) : Canonical (s.sampleBytes x i).2.2.2 := by
  unfold State.sampleBytes
  dsimp only
  split
  · exact hs
  · exact hs.larkLoad _ _

theorem Canonical.countStarve (missing : Bool) : Canonical (s.countStarve missing) :=
  (hs.inc _ _ _).ite hs

theorem Canonical.pcmSample (x : VoiceSt) (i : Nat) : Canonical (s.pcmSample x i).2 :=
  ((hs.sampleBytes _ _).countStarve _).iteSnd ((hs.sampleBytes _ _).countStarve _)

theorem Canonical.imaNext (x : VoiceSt) : Canonical (s.imaNext x).2 := by
  have read := (hs.sampleBytes x x.decoded).countStarve (s.sampleBytes x x.decoded).2.1
  unfold State.imaNext
  dsimp only
  split
  · exact read.draw
  · exact read

omit hs in
theorem Canonical.imaRun : ∀ (k : Nat) {s : State} (_ : Canonical s) (x : VoiceSt) (n : Nat), Canonical (State.imaRun k s x n).2
  | 0, _, hs, _, _ => hs
  | k + 1, s, hs, x, n => by
    unfold State.imaRun
    split
    · exact Canonical.imaRun k (hs.imaNext x) _ n
    · exact hs

theorem Canonical.imaLoop (x : VoiceSt) : Canonical (s.imaLoop x).2 := by
  unfold State.imaLoop
  split
  · exact hs.imaRun _ _ _
  · exact hs

theorem Canonical.samplePair (x : VoiceSt) : Canonical (s.samplePair x).2.2.2 := by
  have run := fun k n => Canonical.imaRun k (hs.imaLoop x) (s.imaLoop x).1 n
  have first := hs.pcmSample x (x.pos / 2 ^ 20)
  unfold State.samplePair
  dsimp only
  split
  · split
    · exact run _ _
    · split
      · exact (run _ _).imaNext _
      · exact run _ _
  · split
    · exact first
    · exact first.pcmSample _ _

theorem Canonical.voiceAsk (v : Fin 256) (us : List Nat) : Canonical (s.voiceAsk v us) :=
  Canonical.foldl hs (fun _ _ h1 => (h1.dramAsk _ _ _ _ _).modVoice _ _)

theorem Canonical.keyApply (k : KeyCmd) : Canonical (s.keyApply k) := by
  unfold State.keyApply
  dsimp only
  split
  · exact ((hs.inc _ _ _).evLark).ite (hs.modVoice _ _)
  · exact hs.modVoice _ _
  · exact hs.modVoice _ _
  · exact hs

theorem Canonical.keyGather (v : Fin 256) (op back : Nat) : Canonical (s.keyGather v op back) :=
  hs.ite (hs.congr.when (fun h1 => h1.voiceAsk _ _))

theorem Canonical.keyBy (who rank : Nat) (v : Fin 256) (op : Nat) : Canonical (s.keyBy who rank v op) :=
  (hs.keyGather _ _ _).cycNote _

theorem Canonical.vkeyPut (r : Requester) (v : Word) : Canonical (s.vkeyPut r v) :=
  (hs.accessFault _ _).ite ((hs.keyGather _ _ _).ite (hs.keyBy _ _ _ _))

theorem Canonical.filter (v : VoiceSt) (w8 : Word) (x : Int) : Canonical (s.filter v w8 x).2.2 :=
  (hs.roundDiv _ _).roundDiv _ _

theorem Canonical.voicePeriod (v : Fin 256) (m : MixSum) : Canonical (s.voicePeriod v m).2 := by
  unfold State.voicePeriod
  dsimp only
  split
  · exact hs.ite (hs.modVoice _ _)
  · exact (((((hs.samplePair _).filter _ _ _).modVoice _ _).when (fun h1 => h1.evLark)).modVoice _ _).voiceAsk _ _

theorem Canonical.busReturn (x : Fin 4) (n : Nat) (send : Int) : Canonical (s.busReturn x n send).2 := by
  unfold State.busReturn
  dsimp only
  split
  · exact hs
  · exact (hs.larkLoad _ _).larkStore _ _

theorem Canonical.adoptReturn (x : Fin 4) (b : Nat) : Canonical (s.adoptReturn x b) := by
  unfold State.adoptReturn
  dsimp only
  split
  · exact hs.congr
  · split
    · exact hs.congr.ite ((hs.congr.inc _ _ _).evLark)
    · exact (hs.congr.inc _ _ _).evLark

theorem Canonical.lineUnlock : Canonical s.lineUnlock :=
  (hs.congr.bset _ _ _).evLark

theorem Canonical.lineSeek : Canonical s.lineSeek :=
  hs.congr.ite hs.lineUnlock

theorem Canonical.lockPeriod : Canonical s.lockPeriod :=
  hs.ite ((hs.congr.when (fun h1 => h1.bset _ _ _)).ite (hs.lineUnlock.ite hs))

theorem Canonical.larkUnlock (h : Nat) : Canonical (s.larkUnlock h) :=
  hs.lineUnlock.ite hs

theorem Canonical.larkResume (h : Nat) : Canonical (s.larkResume h) :=
  hs.lineSeek.ite hs

theorem Canonical.period : Canonical s.period := by
  unfold State.period
  extract_lets n _ s0 s1 s2 whole
  have keyed : Canonical s1 := Canonical.foldl (Canonical.splitLate hs.congr _) fun _ _ h => h.keyApply _
  have adopted : Canonical s2 := keyed.when fun h => Canonical.foldl h fun _ _ h => h.adoptReturn _ _
  clear_value s2
  split
  next m s3 e3 =>
  have mixed : Canonical s3 := by
    rw [← show _ = s3 from congrArg Prod.snd e3]
    exact Canonical.foldlSnd adopted fun _ _ h => h.voicePeriod _ _
  split
  next sends s4 e4 =>
  have sent : Canonical s4 := by
    rw [← show _ = s4 from congrArg Prod.snd e4]
    exact Canonical.foldlSnd mixed fun _ _ h => h.roundDiv _ _
  split
  next ch s5 e5 =>
  have returned : Canonical s5 := by
    rw [← show _ = s5 from congrArg Prod.snd e5]
    exact Canonical.foldlSnd sent fun _ _ h => h.busReturn _ _ _
  split
  next out s6 e6 =>
  have mastered : Canonical s6 := by
    rw [← show _ = s6 from congrArg Prod.snd e6]
    exact Canonical.foldlSnd returned fun _ _ h => h.roundDiv _ _
  extract_lets send done _ s7 s8
  have counted : Canonical s7 := mastered.congr
  exact ((counted.wr _ _).wr _ _).lockPeriod

theorem Canonical.execSamplePeriod : NextCanonical (execSamplePeriod s) :=
  hs.period.next.ite hs.next

theorem Canonical.execKeyOn (r : Requester) (v : Fin 256) : NextCanonical (execKeyOn r v s) :=
  (hs.vkeyPut _ _).next

theorem Canonical.execKeyOff (r : Requester) (v : Fin 256) : NextCanonical (execKeyOff r v s) :=
  (hs.vkeyPut _ _).next

theorem Canonical.execVoiceStop (r : Requester) (v : Fin 256) : NextCanonical (execVoiceStop r v s) :=
  (hs.vkeyPut _ _).next

theorem Canonical.copySends : Canonical s.copySends :=
  (Canonical.foldl hs (fun _ _ h1 => h1.queueWrite _ _ _)).congr

theorem Canonical.askReturn (x : Fin 4) (n : Nat) : Canonical (s.askReturn x n) := by
  unfold State.askReturn
  extract_lets us
  split
  next t wait got e =>
  have asked : Canonical t := by
    rw [← show _ = t from congrArg Prod.fst e]
    refine Canonical.foldlFst hs fun a u h => ?_
    have read := h.dramAsk (.larkReturn x) u 0 n false
    dsimp only
    split <;> exact read
  exact asked.congr

theorem Canonical.execLarkBlock : NextCanonical (execLarkBlock s) :=
  hs.next.ite ((Canonical.foldl hs.copySends.congr (fun _ _ h1 => (h1.askReturn _ _).ite h1)).next)

theorem Canonical.larkStop : Canonical s.larkStop :=
  hs.congr

theorem Canonical.lctlPut (v : Word) : Canonical (s.lctlPut v) :=
  hs.ite ((((hs.bset _ _ _).larkStop).wr _ _).ite ((hs.put _ _).when (fun h1 => (((h1.congr.wr _ _).wr _ _).wr _ _).when (fun h2 => h2.lineSeek))))

theorem Canonical.lmRead (peek : Bool) : Canonical (s.lmRead peek).2.2 :=
  (hs.larkLoad _ _).ite ((hs.larkLoad _ _).fset _ _ _ _)

theorem Canonical.lmWrite (v : Word) : Canonical (s.lmWrite v) :=
  (hs.larkStore _ _).fset _ _ _ _

theorem Canonical.larkRegPut (r : Requester) (off : Nat) (v : Word) : Canonical (s.larkRegPut r off v) := by
  unfold State.larkRegPut
  split
  · exact hs.lctlPut _
  · exact hs.ite (hs.put _ _)
  · exact hs.lmWrite _
  · exact hs.vkeyPut _ _
  · exact hs.ite (hs.put _ _)
  · exact hs.ite (hs.put _ _)

theorem Canonical.execLctlWrite (r : Requester) (v : Word) : NextCanonical (execLctlWrite r v s) :=
  (hs.gated _ _ (fun _ h1 => h1.lctlPut _)).next

theorem Canonical.execLmdataAccess (r : Requester) (w : Option Word) : NextCanonical (execLmdataAccess r w s) := by
  unfold Machine.execLmdataAccess
  split
  · exact (hs.gated _ _ (fun _ h1 => h1.lmWrite _)).next
  · exact ((((hs.lmRead _).accessFault _ _).ite ((hs.lmRead _).congr)).next).ite ((hs.accessFault _ _).next)

/-! ### Machine/Timers -/

theorem Canonical.modTmr (t : Tmr) (f : TimerSt → TimerSt) : Canonical (s.modTmr t f) :=
  hs.congr

theorem Canonical.tIrq (t : Tmr) (enable : Bool) : Canonical (s.tIrq t enable) := by
  unfold State.tIrq
  split
  · exact hs
  · split
    · exact hs.evTimer _
    · exact Canonical.foldl hs (fun _ _ h1 => h1.congr)

theorem Canonical.tMatch (t : Tmr) : Canonical (s.tMatch t) :=
  (hs.bset _ _ _).tIrq _ _

theorem Canonical.tWrap (t : Tmr) : Canonical (s.tWrap t) :=
  (hs.bset _ _ _).tIrq _ _

theorem Canonical.tOut (t : Tmr) (b : Bool) : Canonical (s.tOut t b) :=
  hs.bset _ _ _

theorem Canonical.tickOut (t : Tmr) (m w own : Bool) : Canonical (s.tickOut t m w own) := by
  unfold State.tickOut
  dsimp only
  split
  · exact (((hs.tWrap _).ite hs).when (fun h1 => h1.tMatch _)).when (fun h1 => h1.tOut _ _)
  · exact ((((hs.tWrap _).ite hs).when (fun h1 => h1.tMatch _)).tOut _ _).ite
      ((((hs.tWrap _).ite hs).when (fun h1 => h1.tMatch _)).when (fun h1 => h1.tOut _ _))
  · exact ((((hs.tWrap _).ite hs).when (fun h1 => h1.tMatch _)).tOut _ _).ite
      ((((hs.tWrap _).ite hs).when (fun h1 => h1.tMatch _)).when (fun h1 => h1.tOut _ _))
  · exact (((hs.tWrap _).ite hs).when (fun h1 => h1.tMatch _)).tOut _ _

theorem Canonical.tickOne (t : Tmr) : Canonical (s.tickOne t) :=
  (((((hs.wr _ _).wr _ _).tickOut _ _ _ _).tickOut _ _ _ _).raisedOnce _ _).ite (((hs.wr _ _).tickOut _ _ _ _).raisedOnce _ _)

theorem Canonical.execTick (t : Tmr) : NextCanonical (execTick t s) :=
  (((hs.tickOne _).modTmr _ _).next).ite hs.next

theorem Canonical.reloadOne (t : Tmr) : Canonical (s.reloadOne t) :=
  ((hs.wr _ _).modTmr _ _).tOut _ _

theorem Canonical.timerOp (t0 : Tmr) (op : Nat) : Canonical (s.timerOp t0 op) := by
  unfold State.timerOp
  dsimp only
  split
  · exact hs.bset _ _ _
  · exact hs.bset _ _ _
  · exact ((hs.reloadOne _).when (fun h1 => h1.reloadOne _)).bset _ _ _
  · exact hs

theorem Canonical.lowresAt (t : Tmr) : Canonical (s.lowresAt t) :=
  ((hs.bset _ _ _).modTmr _ _).ite ((hs.bset _ _ _).when (fun h1 => h1.modTmr _ _))

theorem Canonical.lowresTrack : Canonical s.lowresTrack :=
  Canonical.foldl hs (fun _ _ h1 => h1.lowresAt _)

theorem Canonical.timerBy (who rank : Nat) (ts : List Tmr) (op : Nat) : Canonical (s.timerBy who rank ts op) :=
  (Canonical.foldl (Canonical.foldl hs (fun _ _ h1 => (h1.timerOp _ _).ite ((h1.timerOp _ _).bset _ _ _))) (fun _ _ h1 => h1.lowresAt _)).cycNotes _ _

theorem Canonical.tgoPut (r : Requester) (v : Word) : Canonical (s.tgoPut r v) :=
  hs.ite ((hs.timerBy _ _ _ _).ite ((hs.timerBy _ _ _ _).accessFault _ _))

theorem Canonical.execTimerStart (r : Requester) (mask : BitVec 16) : NextCanonical (execTimerStart r mask s) :=
  (hs.tgoPut _ _).next

theorem Canonical.execTimerStop (r : Requester) (mask : BitVec 16) : NextCanonical (execTimerStop r mask s) :=
  (hs.tgoPut _ _).next

theorem Canonical.execTimerReloadAndStart (r : Requester) (mask : BitVec 16) : NextCanonical (execTimerReloadAndStart r mask s) :=
  (hs.tgoPut _ _).next

theorem Canonical.capRise (t : Tmr) : Canonical (s.capRise t) :=
  (hs.bset _ _ _).tIrq _ _

theorem Canonical.captureOne (t : Tmr) : Canonical (s.captureOne t) :=
  ((hs.wr _ _).capRise _).ite ((((hs.modTmr _ _).bset _ _ _).tIrq _ _).ite ((hs.modTmr _ _).bset _ _ _))

theorem Canonical.execCapture (t : Tmr) : NextCanonical (execCapture t s) :=
  ((hs.captureOne _).next).ite hs.next

theorem Canonical.tcapTake (t : Tmr) : Canonical (s.tcapTake t).2 := by
  unfold State.tcapTake
  dsimp only
  split
  · exact (((hs.bset _ _ _).wr _ _).bset _ _ _).capRise _
  · exact hs.bset _ _ _

theorem Canonical.execTcapRead (r : Requester) (t : Tmr) : NextCanonical (execTcapRead r t s) :=
  (((hs.tcapTake _).congr).next).ite ((hs.accessFault _ _).next)

theorem Canonical.tcntTake (r : Requester) (t : Tmr) : Canonical (s.tcntTake r t).2 := by
  unfold State.tcntTake
  dsimp only
  split
  · exact hs.setShadow _ _ _
  · split
    · exact hs
    · exact hs

theorem Canonical.execTcntRead (r : Requester) (t : Tmr) : NextCanonical (execTcntRead r t s) :=
  (((hs.tcntTake _ _).congr).next).ite ((hs.accessFault _ _).next)

theorem Canonical.lowresOne (t : Tmr) : Canonical (s.lowresOne t) :=
  ((((((hs.wr _ _).modTmr _ _).tickOut _ _ _ _).wr _ _).tickOut _ _ _ _).raisedOnce _ _).ite
    ((((hs.wr _ _).modTmr _ _).tickOut _ _ _ _).raisedOnce _ _)

theorem Canonical.execLowresStep (t : Tmr) : NextCanonical (execLowresStep t s) :=
  ((hs.lowresOne _).next).ite hs.next

theorem Canonical.tctlPut (r : Requester) (t : Tmr) (v : Word) : Canonical (s.tctlPut r t v) :=
  hs.ite (((((hs.put _ _).when (fun h1 => h1.tOut _ _)).bset _ _ _).lowresTrack).cycNote _)

theorem Canonical.timerRegPut (r : Requester) (t : Tmr) (off : Nat) (v : Word) : Canonical (s.timerRegPut r t off v) := by
  unfold State.timerRegPut
  split
  · exact hs.tctlPut _ _ _
  · exact hs.ite (hs.put _ _)
  · exact hs.ite (hs.put _ _)
  · exact hs.put _ _

/-! ### Machine/Links -/

theorem Canonical.modLink (g : Link) (f : LinkSt → LinkSt) : Canonical (s.modLink g f) :=
  hs.congr

theorem Canonical.pump (g : Link) : Canonical (s.pump g) :=
  (hs.modLink _ _).ite hs

theorem Canonical.linkSend (g : Link) (p : Packet) : Canonical (s.linkSend g p) :=
  ((hs.modLink _ _).pump _).ite hs

theorem Canonical.sendTo (dest : Word) (p : Packet) : Canonical (s.sendTo dest p) := by
  unfold State.sendTo
  split
  · exact hs.linkSend _ _
  · exact hs

/-! ### Machine/Mailbox -/

theorem Canonical.modMbox (m : Mbox) (f : MboxSt → MboxSt) : Canonical (s.modMbox m f) :=
  hs.congr

theorem Canonical.mbFree (m : Mbox) : Canonical (s.mbFree m) :=
  (hs.fset _ _ _ _).modMbox _ _

theorem Canonical.claimSet (m : Mbox) (c : Nat) : Canonical (s.claimSet m c) :=
  (hs.fset _ _ _ _).fset _ _ _ _

theorem Canonical.mbClaim (q : Claimant) (m : Mbox) : Canonical (s.mbClaim q m) :=
  (((hs.claimSet _ _).ite hs).cycNote _).ite hs

theorem Canonical.mbPost (q : Claimant) (m : Mbox) : Canonical (s.mbPost q m) :=
  (((hs.fset _ _ _ _).congr).cycNote _).ite hs

theorem Canonical.mbRelease (q : Claimant) (m : Mbox) : Canonical (s.mbRelease q m) :=
  (hs.mbFree _).ite hs

theorem Canonical.mbctlPut (q : Claimant) (m : Mbox) (v : Word) : Canonical (s.mbctlPut q m v) := by
  unfold State.mbctlPut
  split
  · exact hs.mbClaim _ _
  · exact hs.mbPost _ _
  · exact hs.mbRelease _ _
  · exact hs

theorem Canonical.execClaim (q : Claimant) (m : Mbox) : NextCanonical (execClaim q m s) :=
  (hs.mbClaim _ _).next

theorem Canonical.execPost (q : Claimant) (m : Mbox) : NextCanonical (execPost q m s) :=
  (hs.mbPost _ _).next

theorem Canonical.execRelease (q : Claimant) (m : Mbox) : NextCanonical (execRelease q m s) :=
  (hs.mbRelease _ _).next

theorem Canonical.claimFirst (m : Mbox) : Canonical (s.claimFirst m) := by
  unfold State.claimFirst
  split
  · exact hs.claimSet _ _
  · exact hs

theorem Canonical.execClaimExpiry (m : Mbox) : NextCanonical (execClaimExpiry m s) :=
  ((((hs.mbFree _).evMbox _).claimFirst _).next).ite hs.next

theorem Canonical.mbufPut (m : Mbox) (w : Nat) (v : Word) : Canonical (s.mbufPut m w v) :=
  (hs.wr _ _).writeFlip _ _

theorem Canonical.putResponse (m : Mbox) (ws : List Word) : Canonical (s.putResponse m ws) :=
  Canonical.foldl hs (fun _ _ h1 => h1.mbufPut _ _ _)

theorem Canonical.mbDeliver (m : Mbox) (ws : List Word) : Canonical (s.mbDeliver m ws) := by
  unfold State.mbDeliver
  dsimp only
  split
  · exact (((hs.putResponse _ _).modMbox _ _).mbFree _).sendTo _ _
  · exact ((((hs.putResponse _ _).modMbox _ _).mbFree _).ite (((hs.putResponse _ _).modMbox _ _).fset _ _ _ _)).evMbox _

theorem Canonical.mbFinish (m : Mbox) (code : Nat) (res : List Word) : Canonical (s.mbFinish m code res) :=
  (hs.ite (hs.modMbox _ _)).mbDeliver _ _

theorem Canonical.mbFinishRaw (m : Mbox) (ws : List Word) : Canonical (s.mbFinishRaw m ws) :=
  (hs.modMbox _ _).mbDeliver _ _

theorem Canonical.seqAccept (m : Mbox) : Canonical (s.seqAccept m) :=
  (hs.wr _ _).modMbox _ _

theorem Canonical.journalCommit (m : Mbox) : Canonical (s.journalCommit m) :=
  hs.modMbox _ _

theorem Canonical.toService (m : Mbox) : Canonical (s.toService m) := by
  unfold State.toService
  dsimp only
  split <;> exact ((hs.congr.fset _ _ _ _).bset _ _ _).modMbox _ _

theorem Canonical.reqLost (m : Mbox) : Canonical (s.reqLost m).1 := by
  refine Canonical.foldlFst hs fun a i ha => ?_
  split
  · exact ha
  · exact ha.readCheck _ _ _

theorem Canonical.forward (m : Mbox) : Canonical (s.forward m) := by
  unfold State.forward
  dsimp only
  split
  · exact hs.mbFinish _ _ _
  · split
    · exact hs.mbFinish _ _ _
    · exact (hs.mbFinish _ _ _).ite ((hs.modMbox _ _).linkSend _ _)

theorem Canonical.checked (m : Mbox) (known : Bool) (lo hi : Nat) (legal : State → Bool) {f : State → Served}
    (hf : ∀ t, Canonical t → ServedCanonical (f t)) :
    Canonical (s.checked m known lo hi legal f) := by
  have served := hf s hs
  unfold State.checked
  refine (hs.mbFinish _ _ _).ite ((hs.mbFinish _ _ _).ite ?_)
  generalize f s = r at served
  cases r with
  | done t c ws => exact (Canonical.dropShadows served).mbFinish _ _ _
  | held t => exact served

theorem Canonical.serve (m : Mbox) (mine : Nat → Word → Bool) (lo hi : Nat) (legal : State → Bool) {f : List Word → State → Served}
    (hf : ∀ a t, Canonical t → ServedCanonical (f a t)) : Canonical (s.serve m mine lo hi legal f) := by
  have taken := (hs.toService m).reqLost m
  unfold State.serve
  extract_lets c s1
  split
  · exact hs
  · split
    next s2 lost e =>
    rw [e] at taken
    refine (taken.mbFinish _ _ _).ite ?_
    split
    · exact taken.mbDeliver _ _
    · exact taken.mbFinish _ _ _
    · exact ((taken.seqAccept _).forward _).ite ((taken.seqAccept _).checked _ _ _ _ _ fun t h => hf _ t h)

theorem Canonical.execForwardTimeout (m : Mbox) : NextCanonical (execForwardTimeout m s) := by
  unfold Machine.execForwardTimeout
  split
  · exact (hs.mbFinish _ _ _).next
  · exact hs.next

/-! ### Machine/Golmon -/

theorem Canonical.modCopy (n : Fin 8) (f : CopySt → CopySt) : Canonical (s.modCopy n f) :=
  hs.congr

theorem Canonical.copyEnd (n : Fin 8) (code : Nat) : Canonical (s.copyEnd n code) :=
  (((hs.bset _ _ _).fset _ _ _ _).modCopy _ _).ite ((((hs.bset _ _ _).fset _ _ _ _).modCopy _ _).evLink _)

theorem Canonical.copyAcked (n : Fin 8) (k : Nat) : Canonical (s.copyAcked n k) :=
  hs.incN _ _ _ _

theorem Canonical.copyAskOne (n : Fin 8) : Canonical (s.copyAskOne n) :=
  hs.ite (((hs.modCopy _ _).dramAsk _ _ _ _ _).ite (((hs.modCopy _ _).dramAsk _ _ _ _ _).modCopy _ _))

theorem Canonical.copySent (n : Fin 8) : Canonical (s.copySent n) :=
  hs.ite ((hs.modCopy _ _).ite ((hs.copyEnd _ _).ite hs))

theorem Canonical.copyPut (n : Fin 8) (data : List (List Byte)) : Canonical (s.copyPut n data) :=
  ((((hs.modCopy _ _).queueWrite _ _ _).copyAcked _ _).copySent _).ite ((((hs.modCopy _ _).modCopy _ _).sendTo _ _).copySent _)

theorem Canonical.copyOne (n : Fin 8) : Canonical (s.copyOne n) :=
  hs.ite ((hs.copyPut _ _).ite (((hs.ite (hs.copyPut _ _)).copyEnd _ _).ite hs))

theorem Canonical.copyPump (n : Fin 8) : Canonical (s.copyPump n) :=
  Canonical.foldl (Canonical.foldl hs (fun _ _ h1 => h1.copyAskOne _)) (fun _ _ h1 => h1.copyOne _)

theorem Canonical.copyUnit (n : Fin 8) (u : Nat) (d : List Byte) (bad : Bool) : Canonical (s.copyUnit n u d bad) :=
  ((hs.modCopy _ _).copyPump _).ite hs

theorem Canonical.copyStart (n : Fin 8) (stream : Bool) : Canonical (s.copyStart n stream) := by
  unfold State.copyStart
  extract_lets s1 _ s2 live
  have cleared : Canonical s2 := (((hs.bset _ _ _).fset _ _ _ _).wr _ _).modCopy _ _
  exact hs.ite ((cleared.copyEnd _ _).ite (cleared.ite (cleared.copyPump _)))

theorem Canonical.copyHalt (n : Fin 8) : Canonical (s.copyHalt n) :=
  hs.ite ((hs.copyEnd _ _).ite (hs.modCopy _ _))

theorem Canonical.ccmdPut (n : Fin 8) (v : Word) : Canonical (s.ccmdPut n v) :=
  ((hs.put _ _).when (fun h1 => h1.copyHalt _)).when (fun h1 => h1.copyStart _ _)

theorem Canonical.streamStrobe (h : Head) (b : Nat) : Canonical (s.streamStrobe h b) :=
  Canonical.foldl hs (fun _ _ h1 => h1.ite ((h1.inc _ _ _).ite ((h1.modCopy _ _).copyPump _)))

theorem Canonical.streamStop (h : Head) : Canonical (s.streamStop h) :=
  Canonical.foldl hs (fun _ _ h1 => (h1.copyEnd _ _).ite h1)

theorem Canonical.ccmdGo (n : Fin 8) (strm : Bool) : Canonical (s.ccmdGo n strm) :=
  hs.ccmdPut _ _

theorem Canonical.execCopyGo (r : Requester) (n : Fin 8) : NextCanonical (execCopyGo r n s) :=
  (hs.gated _ _ (fun _ h1 => h1.ccmdGo _ _)).next

theorem Canonical.execCopyStop (r : Requester) (n : Fin 8) : NextCanonical (execCopyStop r n s) :=
  (hs.gated _ _ (fun _ h1 => h1.copyHalt _)).next

theorem Canonical.execStreamArm (r : Requester) (n : Fin 8) : NextCanonical (execStreamArm r n s) :=
  (hs.gated _ _ (fun _ h1 => h1.ccmdGo _ _)).next

theorem Canonical.foldTrack : Canonical s.foldTrack :=
  (((hs.congr.bset _ _ _).ite hs).bset _ _ _).when (fun h1 => (h1.inc _ _ _).evFold)

theorem Canonical.linkSet (g : Link) (st : Nat) : Canonical (s.linkSet g st) :=
  (hs.fset _ _ _ _).bset _ _ _

theorem Canonical.linkTrain (g : Link) : Canonical (s.linkTrain g) :=
  hs.ite (((((hs.linkSet _ _).fset _ _ _ _).fset _ _ _ _).modLink _ _).foldTrack)

theorem Canonical.linkRetrain (g : Link) : Canonical (s.linkRetrain g) :=
  (hs.inc _ _ _).linkTrain _

theorem Canonical.linkLost (g : Link) : Canonical (s.linkLost g) := by
  refine Canonical.raisedOnce (Canonical.foldl (Canonical.foldl hs fun t m h => ?_) fun t n h => (h.copyEnd _ _).ite h) _ _
  refine Canonical.ite (h.mbFree m).congr ?_
  split
  · exact (h.mbFinish _ _ _).ite h
  · exact h

theorem Canonical.linkClear (g : Link) : Canonical (s.linkClear g) :=
  hs.modLink _ _

theorem Canonical.linkDown (g : Link) : Canonical (s.linkDown g) :=
  (((((((hs.linkSet _ _).fset _ _ _ _).inc _ _ _).linkClear _).linkLost _).foldTrack).evLink _).raisedOnce _ _

theorem Canonical.linkFault (g : Link) (code : Nat) : Canonical (s.linkFault g code) :=
  (((hs.linkSet _ _).fset _ _ _ _).foldTrack).evLink _

theorem Canonical.linkUpNow (g : Link) : Canonical (s.linkUpNow g) :=
  (((((((hs.linkSet _ _).fset _ _ _ _).fset _ _ _ _).fset _ _ _ _).modLink _ _).pump _).foldTrack).evLink _

theorem Canonical.linkDecide (g : Link) : Canonical (s.linkDecide g) := by
  unfold State.linkDecide
  extract_lets x s1
  have ready : Canonical s1 := hs.modLink _ _
  have fault := fun code => ready.linkFault g code
  exact hs.ite ((fault 3).ite (ready.ite ((fault 1).ite ((fault 2).ite ((fault 3).ite (ready.linkUpNow _))))))

theorem Canonical.tsBlock (g : Link) (l : Fin 4) (b0 : BitVec 64) : Canonical (s.tsBlock g l b0) :=
  hs.ite ((hs.modLink _ _).ite (((((((hs.modLink _ _).modLink _ _).when (fun h1 => h1.bset _ _ _)).bset _ _ _).wr _ _).fset _ _ _ _).linkDecide _))

theorem Canonical.execTs (g : Link) (l : Fin 4) (blk : BitVec 64) : NextCanonical (execTs g l blk s) :=
  (hs.tsBlock _ _ _).next

theorem Canonical.execAlign (g : Link) (l : Fin 4) (blk : BitVec 64) : NextCanonical (execAlign g l blk s) :=
  ((hs.modLink _ _).next).ite hs.next

theorem Canonical.execAlignSend (g : Link) : NextCanonical (execAlignSend g s) :=
  ((hs.modLink _ _).next).ite hs.next

theorem Canonical.execIdle (_g : Link) (_blk : BitVec 64) : NextCanonical (execIdle _g _blk s) :=
  hs.next

theorem Canonical.execBlockLock (g : Link) (l : Fin 4) : NextCanonical (execBlockLock g l s) :=
  ((hs.modLink _ _).next).ite hs.next

theorem Canonical.execLaneLockTimeout (g : Link) : NextCanonical (execLaneLockTimeout g s) :=
  (((hs.modLink _ _).linkDecide _).next).ite hs.next

theorem Canonical.execTrainTimeout (g : Link) : NextCanonical (execTrainTimeout g s) :=
  ((hs.linkDown _).next).ite hs.next

theorem Canonical.execTrainRetry (g : Link) : NextCanonical (execTrainRetry g s) :=
  ((hs.linkTrain _).next).ite hs.next

theorem Canonical.execTxShort (g : Link) (l : Fin 4) : NextCanonical (execTxShort g l s) :=
  hs.next.ite (((hs.bset _ _ _).when (fun h1 => h1.linkRetrain _)).next)

theorem Canonical.execShortRetest (g : Link) (l : Fin 4) (short : Bool) : NextCanonical (execShortRetest g l short s) :=
  hs.next.ite ((hs.bset _ _ _).next)

theorem Canonical.execLaneRecovery (g : Link) : NextCanonical (execLaneRecovery g s) :=
  ((hs.linkRetrain _).next).ite hs.next

theorem Canonical.prbsOn (g : Link) (k : Nat) : Canonical (s.prbsOn g k) :=
  (hs.fset _ _ _ _).when (fun h1 => ((((h1.linkSet _ _).fset _ _ _ _).linkClear _).linkLost _).foldTrack)

theorem Canonical.prbsOff (g : Link) : Canonical (s.prbsOff g) :=
  (hs.fset _ _ _ _).ite (((hs.fset _ _ _ _).linkTrain _).ite ((hs.fset _ _ _ _).linkDown _))

theorem Canonical.prbsPut (g : Link) (k : Nat) : Canonical (s.prbsPut g k) :=
  hs.ite ((hs.prbsOff _).ite (hs.prbsOn _ _))

theorem Canonical.linkEnPut (g : Link) (on : Bool) : Canonical (s.linkEnPut g on) :=
  ((hs.bset _ _ _).when (fun h1 => h1.linkTrain _)).ite ((hs.bset _ _ _).when (fun h1 => h1.linkDown _))

theorem Canonical.lkctlPut (g : Link) (v : Word) : Canonical (s.lkctlPut g v) :=
  ((hs.ite ((hs.ite (hs.fset _ _ _ _)).fset _ _ _ _)).linkEnPut _ _).ite
    (((hs.ite ((hs.ite (hs.fset _ _ _ _)).fset _ _ _ _)).linkEnPut _ _).prbsPut _ _)

theorem Canonical.execLinkEnable (r : Requester) (g : Link) : NextCanonical (execLinkEnable r g s) :=
  (hs.gated _ _ (fun _ h1 => h1.linkEnPut _ _)).next

theorem Canonical.execLinkDisable (r : Requester) (g : Link) : NextCanonical (execLinkDisable r g s) :=
  (hs.gated _ _ (fun _ h1 => h1.linkEnPut _ _)).next

theorem Canonical.execPrbsTest (r : Requester) (g : Link) (v : Fin 8) : NextCanonical (execPrbsTest r g v s) :=
  hs.next.ite ((hs.gated _ _ (fun _ h1 => h1.prbsPut _ _)).next)

theorem Canonical.execPrbsStop (r : Requester) (g : Link) : NextCanonical (execPrbsStop r g s) :=
  (hs.gated _ _ (fun _ h1 => h1.prbsPut _ _)).next

theorem Canonical.execPrbsBitError (g : Link) (l : Fin 4) : NextCanonical (execPrbsBitError g l s) :=
  ((hs.inc _ _ _).next).ite hs.next

theorem Canonical.tailIn (g : Link) (p : Packet) : Canonical (s.tailIn g p) :=
  ((((hs.modLink _ _).ite hs).when (fun h1 => (h1.modLink _ _).incN _ _ _ _)).pump _).when (fun h1 => (h1.modLink _ _).linkRetrain _)

theorem Canonical.linkReceive (g : Link) (p : Packet) : Canonical (s.linkReceive g p).1 := by
  unfold State.linkReceive
  dsimp only
  split
  · exact (hs.modLink _ _).tailIn _ _
  · exact (hs.inc _ _ _).modLink _ _

theorem Canonical.noRoute : Canonical s.noRoute :=
  hs.inc _ _ _

theorem Canonical.packetIn (g : Link) (p : Packet) (k : Nat) {f : State → State} (hf : ∀ t, Canonical t → Canonical (f t)) : Canonical
    (s.packetIn g p k f) :=
  have received := hs.linkReceive g p
  hs.ite (received.ite (received.noRoute.ite (hf _ received)))

theorem Canonical.deliver (p : Packet) {here lost : State → State} (hh : ∀ t, Canonical t → Canonical (here t))
    (hl : ∀ t, Canonical t → Canonical (lost t)) :
    Canonical (s.deliver p here lost) := by
  refine Canonical.ite (hl _ hs.noRoute) ?_
  split
  · exact hh _ hs
  · split
    · exact hs.linkSend _ _
    · exact hl _ hs.noRoute

theorem Canonical.sendEpoch (but : Option Link) (e t : BitVec 48) : Canonical (s.sendEpoch but e t) :=
  Canonical.foldl hs (fun _ _ h1 => (h1.linkSend _ _).ite h1)

theorem Canonical.inFold {f : State → State} (hf : ∀ t, Canonical t → Canonical (f t)) : Canonical (s.inFold f) :=
  (hf _ hs).ite hs.noRoute

theorem Canonical.epochIn (g : Link) (p : Packet) : Canonical (s.epochIn g p) :=
  hs.ite (hs.congr.foldTrack.sendEpoch _ _ _)

theorem Canonical.execEpoch (g : Link) (pkt : Packet) : NextCanonical (execEpoch g pkt s) :=
  (hs.packetIn _ _ _ (fun _ h1 => h1.inFold (fun _ h2 => h2.epochIn _ _))).next

theorem Canonical.epochSource (h : Head) (e : BitVec 48) : Canonical (s.epochSource h e) := by
  unfold State.epochSource
  dsimp only
  split
  · exact hs
  · split
    · exact hs.evFold
    · split
      · exact hs.congr
      · exact hs.congr.congr.foldTrack.sendEpoch _ _ _

theorem Canonical.execEpochTimeout : NextCanonical (execEpochTimeout s) :=
  hs.congr.foldTrack.next

theorem Canonical.execTsyncRequest : NextCanonical (execTsyncRequest s) := by
  unfold Machine.execTsyncRequest
  split
  · exact hs.next
  · split
    · exact hs.next
    · exact ((hs.congr.linkSend _ _).next).ite hs.next

theorem Canonical.tsyncAnswer (g : Link) (p : Packet) : Canonical (s.tsyncAnswer g p) := by
  unfold State.tsyncAnswer
  split
  · exact hs
  · exact hs.ite ((((hs.congr.wr _ _).wr _ _).bset _ _ _).foldTrack)

theorem Canonical.tsyncIn (g : Link) (p : Packet) : Canonical (s.tsyncIn g p) :=
  (hs.linkSend _ _).ite (hs.tsyncAnswer _ _)

theorem Canonical.execTsync (g : Link) (pkt : Packet) : NextCanonical (execTsync g pkt s) :=
  (hs.packetIn _ _ _ (fun _ h1 => h1.inFold (fun _ h2 => h2.tsyncIn _ _))).next

theorem Canonical.mbreqHere (g : Link) (p : Packet) : Canonical (s.mbreqHere g p) := by
  unfold State.mbreqHere
  dsimp only
  split
  · exact hs.sendTo _ _
  · exact (Canonical.foldl ((hs.mbClaim _ _).modMbox _ _) (fun _ _ h1 => h1.mbufPut _ _ _)).mbPost _ _

theorem Canonical.execMbreq (g : Link) (pkt : Packet) : NextCanonical (execMbreq g pkt s) :=
  (hs.packetIn _ _ _ (fun _ h1 => h1.deliver _ (fun _ h2 => h2.mbreqHere _ _) (fun _ h2 => h2.sendTo _ _))).next

theorem Canonical.mbrspHere (p : Packet) : Canonical (s.mbrspHere p) := by
  unfold State.mbrspHere
  dsimp only
  split
  · exact (hs.mbFinishRaw _ _).ite hs
  · exact hs

theorem Canonical.execMbrsp (g : Link) (pkt : Packet) : NextCanonical (execMbrsp g pkt s) :=
  (hs.packetIn _ _ _ (fun _ h1 => h1.deliver _ (fun _ h2 => h2.mbrspHere _) (fun _ h2 => h2))).next

theorem Canonical.dataHere (g : Link) (p : Packet) : Canonical (s.dataHere g p) :=
  ((hs.queueWrite _ _ _).sendTo _ _).ite (hs.sendTo _ _)

theorem Canonical.dataLost (p : Packet) : Canonical (s.dataLost p) :=
  hs.sendTo _ _

theorem Canonical.execCpydata (g : Link) (pkt : Packet) : NextCanonical (execCpydata g pkt s) :=
  (hs.packetIn _ _ _ (fun _ h1 => h1.deliver _ (fun _ h2 => h2.dataHere _ _) (fun _ h2 => h2.dataLost _))).next

theorem Canonical.execStrdata (g : Link) (pkt : Packet) : NextCanonical (execStrdata g pkt s) :=
  (hs.packetIn _ _ _ (fun _ h1 => h1.deliver _ (fun _ h2 => h2.dataHere _ _) (fun _ h2 => h2.dataLost _))).next

theorem Canonical.cpyackHere (p : Packet) : Canonical (s.cpyackHere p) :=
  hs.ite ((hs.copyEnd _ _).ite ((((hs.copyAcked _ _).modCopy _ _).copyEnd _ _).ite ((((hs.copyAcked _ _).modCopy _ _).copyPump _).copySent _)))

theorem Canonical.execCpyack (g : Link) (pkt : Packet) : NextCanonical (execCpyack g pkt s) :=
  (hs.packetIn _ _ _ (fun _ h1 => h1.deliver _ (fun _ h2 => h2.cpyackHere _) (fun _ h2 => h2))).next

theorem Canonical.execAck (g : Link) (pkt : Packet) : NextCanonical (execAck g pkt s) :=
  (hs.packetIn _ _ _ (fun _ h1 => h1)).next

theorem Canonical.execAckDue (g : Link) : NextCanonical (execAckDue g s) :=
  ((hs.linkSend _ _).next).ite hs.next

theorem Canonical.foldPut (off : Nat) (v : Word) : Canonical (s.foldPut off v) := by
  unfold State.foldPut
  split
  · exact hs.ite (hs.put _ _)
  · exact (hs.put _ _).foldTrack
  · exact hs.put _ _

theorem Canonical.ftimelTake (r : Requester) : Canonical (s.ftimelTake r).2 :=
  hs.setShadow _ _ _

theorem Canonical.execFtimelRead (r : Requester) : NextCanonical (execFtimelRead r s) :=
  (hs.congr.next).ite ((hs.accessFault _ _).next)

/-! ### Machine/Deliver -/

theorem Canonical.markRow (c : Chan) (entry : Word) : Canonical (s.markRow c entry) :=
  (hs.appendRecord _ _).ite hs

theorem Canonical.chanLog (c : Chan) (kind u : Nat) : Canonical (s.chanLog c kind u) :=
  (hs.logPut _ _ _ _).markRow _ _

theorem Canonical.countCheck (c : Chan) (u : Nat) (k : Checked) : Canonical (s.countCheck c u k) := by
  unfold State.countCheck
  extract_lets s1 s2 s3 s4 s5
  have h1 : Canonical s1 := hs.when fun h => (h.inc _ _ _).chanLog _ _ _
  have h2 : Canonical s2 := h1.when fun h => h.inc _ _ _
  have h3 : Canonical s3 := h2.when fun h => h.inc _ _ _
  have h4 : Canonical s4 := h3.when fun h => (h.inc _ _ _).chanLog _ _ _
  have h5 : Canonical s5 := h4.when fun h => h.inc _ _ _
  exact h5.when fun h => h.evDram

theorem Canonical.slotUnit (h : Head) (n : Slot) (line u : Nat) (bad standIn : Bool) : Canonical (s.slotUnit h n line u bad standIn) := by
  unfold State.slotUnit
  split
  · split
    · exact hs
    · exact (((hs.workOn _ _ _).modHead _ _).mirrorCheck _).ite hs
  · split
    · exact hs
    · exact ((hs.workOn _ _ _).setSlot _ _ _ _).ite hs

theorem Canonical.voiceUnit (v : Fin 256) (u : Nat) (d : List Byte) (bad : Bool) : Canonical (s.voiceUnit v u d bad) :=
  hs.modVoice _ _

theorem Canonical.returnUnit (x : Fin 4) (block u : Nat) (d : List Byte) (bad : Bool) : Canonical (s.returnUnit x block u d bad) :=
  hs.congr

theorem Canonical.portUnit (p : Pad) (k : Fin 2) (serial u : Nat) (d : List Byte) (bad : Bool) : Canonical (s.portUnit p k serial u d bad) :=
  (hs.modPort _ _ _).ite (hs.modPort _ _ _)

theorem Canonical.directEnd (x : DirectRead) : Canonical (s.directEnd x) := by
  unfold State.directEnd
  dsimp only
  split
  · exact ((hs.busDone _ _).accessFault _ _).ite (hs.busDone _ _)
  · exact hs.congr

theorem Canonical.directRead (q : DramUser) (a n : Nat) : Canonical (s.directRead q a n) := by
  unfold State.directRead
  extract_lets r t
  have asked : Canonical r.1 := Canonical.foldlFst hs fun _ _ h => h.dramAsk _ _ _ _ _
  have raised : Canonical t := asked.raisedOnce _ _
  exact (raised.directEnd _).ite raised.congr

theorem Canonical.directUnit (q : DramUser) (u : Nat) (d : List Byte) (bad : Bool) : Canonical (s.directUnit q u d bad) := by
  unfold State.directUnit
  dsimp only
  split
  · split
    · exact (hs.accessFault _ _).ite (hs.stWr _ _)
    · exact hs.congr
  · exact (hs.congr.directEnd _).ite hs.congr

theorem Canonical.handOver (r : DRead) (bad : Bool) : Canonical (s.handOver r bad) := by
  unfold State.handOver
  dsimp only
  split
  · exact hs.slotUnit _ _ _ _ _ _
  · exact hs.voiceUnit _ _ _ _
  · exact hs.returnUnit _ _ _ _ _
  · exact hs.portUnit _ _ _ _ _ _
  · exact (hs.accessFault _ _).ite hs.congr
  · exact hs.directUnit _ _ _ _
  · exact hs.directUnit _ _ _ _
  · exact (hs.passWord _).copyUnit _ _ _ _
  · exact hs
  · exact hs.loaderUnit _ _ _

theorem Canonical.complete (c : Chan) (r : DRead) (o : ReadOutcome) : Canonical (s.complete c r o) :=
  (((hs.setReads _ _).countCheck _ _ _).modChan _ _).ite
    ((((((hs.setReads _ _).countCheck _ _ _).congr).passWord _).modChan _ _).ite
      (((((hs.setReads _ _).countCheck _ _ _).congr).passWord _).handOver _ _))

theorem Canonical.execDramReadRequest (q : DramUser) (u : BitVec 30) : NextCanonical (execDramReadRequest q u s) :=
  ((hs.dramAsk _ _ _ _ _).next).ite (((hs.dramAsk _ _ _ _ _).handOver _ _).next)

theorem Canonical.execDramReadComplete (c : Chan) (o : ReadOutcome) : NextCanonical (execDramReadComplete c o s) := by
  unfold Machine.execDramReadComplete
  split
  · exact hs.next
  · exact (hs.complete _ _ _).next

/-! ### Machine/Wardens -/

theorem Canonical.modCore (k : Core) (f : CoreSt → CoreSt) : Canonical (s.modCore k f) :=
  hs.congr

theorem Canonical.setRole (k : Core) (r : Nat) : Canonical (s.setRole k r) :=
  hs.fset _ _ _ _

theorem Canonical.setAlive (k : Core) (b : Bool) : Canonical (s.setAlive k b) :=
  hs.bset _ _ _

theorem Canonical.setLeft (k : Core) (n : Nat) : Canonical (s.setLeft k n) :=
  (hs.modCore _ _).wr _ _

theorem Canonical.reload (k : Core) : Canonical (s.reload k) :=
  hs.setLeft _ _

theorem Canonical.noteReset : Canonical s.noteReset :=
  hs.congr.when (fun h1 => h1.toSafe _)

theorem Canonical.coreReset (k : Core) : Canonical (s.coreReset k) :=
  (((hs.setRole _ _).setAlive _ _).modCore _ _).noteReset

theorem Canonical.moveCtxs (j k : Core) (lost : Bool) : Canonical (s.moveCtxs j k lost) :=
  hs.congr

theorem Canonical.faultServed (j : Core) : Canonical (s.faultServed j) := by
  refine Canonical.foldl hs fun t m h => Canonical.ite ?_ h
  split
  · exact h
  · exact h.mbFinish _ _ _

theorem Canonical.relayMove (j k : Core) (step : Nat) : Canonical (s.relayMove j k step) :=
  (Canonical.foldl (((((hs.setRole _ _).setRole _ _).moveCtxs _ _ _).setAlive _ _).modCore _ _) (fun _ _ h1 => (h1.bset _ _ _).ite h1)).congr

theorem Canonical.relayEnd (code : Nat) (res : List Word) : Canonical (s.relayEnd code res) := by
  unfold State.relayEnd
  dsimp only
  split
  · exact hs.congr.mbFinish _ _ _
  · exact hs.congr

theorem Canonical.relayStep : Canonical s.relayStep :=
  hs.ite ((hs.relayEnd _ _).ite (hs.ite (hs.relayMove _ _ _)))

theorem Canonical.takeOver (k : Core) : Canonical (s.takeOver k) :=
  (((((hs.setRole _ _).evWarden).moveCtxs _ _ _).faultServed _).ledgerInc _).relayStep

theorem Canonical.execPeerTakeover (k : Core) : NextCanonical (execPeerTakeover k s) :=
  (((hs.coreReset _).takeOver _).next).ite hs.next

theorem Canonical.watchdogFire (k : Core) : Canonical (s.watchdogFire k) :=
  ((((hs.setLeft _ _).inc _ _ _).coreReset _).evWarden).when (fun h1 => h1.takeOver _)

theorem Canonical.execWatchdogExpiry (k : Core) : NextCanonical (execWatchdogExpiry k s) :=
  ((hs.watchdogFire _).next).ite hs.next

theorem Canonical.execPeerrst (k : Core) : NextCanonical (execPeerrst k s) :=
  ((hs.coreReset _).next).ite hs.next

theorem Canonical.seqEnd (k : Core) (bad : Bool) : Canonical (s.seqEnd k bad) :=
  (hs.modCore _ _).when (fun h1 => h1.inc _ _ _)

theorem Canonical.seqOpen (k : Core) (q : KeySeq) : Canonical (s.seqOpen k q) :=
  hs.modCore _ _

theorem Canonical.wdkeyPut (k : Core) (v : Word) : Canonical (s.wdkeyPut k v) := by
  unfold State.wdkeyPut
  split
  · exact ((hs.reload _).seqEnd _ _).ite (hs.seqEnd _ _)
  · exact hs.seqEnd _ _
  · exact (hs.seqOpen _ _).ite ((hs.seqOpen _ _).ite (hs.seqEnd _ _))

theorem Canonical.wdcfgPut (k : Core) (v : Word) : Canonical (s.wdcfgPut k v) := by
  unfold State.wdcfgPut
  split
  · exact (hs.fset _ _ _ _).seqEnd _ _
  · exact hs.seqEnd _ _
  · exact hs

theorem Canonical.execKick (k : Core) : NextCanonical (execKick k s) :=
  (((hs.wdkeyPut _ _).wdkeyPut _ _).next).ite hs.next

theorem Canonical.execWdcfgUnlock (k : Core) (v : Word) : NextCanonical (execWdcfgUnlock k v s) :=
  (((hs.wdkeyPut _ _).wdcfgPut _ _).next).ite hs.next

theorem Canonical.execKeySequenceLapse (k : Core) : NextCanonical (execKeySequenceLapse k s) :=
  ((hs.seqEnd _ _).next).ite hs.next

theorem Canonical.modCtx (c : Ctx) (f : CtxSt → CtxSt) : Canonical (s.modCtx c f) :=
  hs.congr

theorem Canonical.execBudgetExhausted (c : Ctx) : NextCanonical (execBudgetExhausted c s) :=
  ((hs.modCtx _ _).next).ite hs.next

theorem Canonical.execBudgetWindow : NextCanonical (execBudgetWindow s) :=
  hs.congr.next

theorem Canonical.runStaged : Canonical s.runStaged := by
  unfold State.runStaged
  split
  · exact hs.congr
  · exact hs

theorem Canonical.coreUp (k : Core) : Canonical (s.coreUp k) :=
  ((((hs.setAlive _ _).reload _).setRole _ _).setRole _ _).ite (((hs.setAlive _ _).reload _).setRole _ _)

theorem Canonical.execRelayTimeout (k : Core) : NextCanonical (execRelayTimeout k s) :=
  ((((hs.coreReset _).modCore _ _).relayEnd _ _).next).ite ((((((hs.setRole _ _).runStaged).relayEnd _ _).next).ite hs.congr.next).ite hs.next)

/-! ### Machine/Trace -/

theorem Canonical.traceLose : Canonical s.traceLose :=
  hs.congr.stWr _ _

theorem Canonical.tracePut (kind src ctx : Nat) (data : Word) : Canonical (s.tracePut kind src ctx data) :=
  hs.ite (hs.congr.ite hs.traceLose)

theorem Canonical.traceFrame (h : Nat) : Canonical (s.traceFrame h) :=
  (hs.tracePut _ _ _ _).ite hs

theorem Canonical.traceOne (x : List (Nat × Nat × Nat × Word)) : Canonical (s.traceOne x) := by
  unfold State.traceOne
  split
  · exact hs
  · exact Canonical.foldl (hs.tracePut _ _ _ _) (fun _ _ h1 => h1.traceLose.ite h1)

theorem Canonical.traceProbes : Canonical s.traceProbes :=
  hs.congr.traceOne _

theorem Canonical.execTraceSync : NextCanonical (execTraceSync s) :=
  (hs.tracePut _ _ _ _).next

/-! ### Machine/Strobes -/

theorem Canonical.setPower (p : PowState) : Canonical (s.setPower p) :=
  (hs.congr.hwWr _ _).evPower

theorem Canonical.powTrack : Canonical s.powTrack :=
  (hs.setPower _).ite hs

theorem Canonical.rasterBegin (h : Head) (kind : Begun) (line quad : Nat) : Canonical (s.rasterBegin h kind line quad) :=
  (((hs.orphanReads _ _).setPos _ _ _).modHead _ _).bset _ _ _

theorem Canonical.lateRender (h : Head) : Canonical (s.lateRender h) :=
  (hs.modHead _ _).lateAll _ _

theorem Canonical.cutFrame (h : Head) (planned : Bool) : Canonical (s.cutFrame h planned) :=
  (hs.closeRecord _ _ _).endFrame _

theorem Canonical.pllTrack (h : Head) : Canonical (s.pllTrack h) :=
  (hs.bset _ _ _).ite hs

theorem Canonical.rasterEnd (h : Head) (phase : HeadPhase) (planned : Bool) : Canonical (s.rasterEnd h phase planned) :=
  ((((((((hs.cutFrame _ _).orphanReads _ _).modHead _ _).bset _ _ _).bset _ _ _).splitStop _).streamStop _).larkUnlock _).powTrack

theorem Canonical.stopNow (h : Head) (begun : Bool) : Canonical (s.stopNow h begun) :=
  ((((((((hs.rasterEnd _ _ _).ite (hs.modHead _ _)).flush _ _).when
    (fun h1 => h1.setEpoch _ _)).modHead _ _).leadTrack _).tapSettle _).pllTrack _).when (fun h1 => h1.pllTrack _)

theorem Canonical.headStart (h : Head) (byHost : Bool) : Canonical (s.headStart h byHost) :=
  hs.ite (((hs.fset _ _ _ _).evHead _ _).ite ((((hs.fset _ _ _ _).bset _ _ _).modHead _ _).flush _ _))

theorem Canonical.headStop (h : Head) (byHost : Bool) : Canonical (s.headStop h byHost) := by
  unfold State.headStop
  dsimp only
  split
  · exact hs
  · split
    · exact (((hs.rotAbort.ite hs).bset _ _ _).modHead _ _).stopNow _ _
    · exact (((hs.rotAbort.ite hs).bset _ _ _).modHead _ _).stopNow _ _
    · exact (((hs.rotAbort.ite hs).bset _ _ _).modHead _ _).modHead _ _
    · exact ((hs.rotAbort.ite hs).bset _ _ _).modHead _ _

theorem Canonical.execHeadStart (h : Head) : NextCanonical (execHeadStart h s) :=
  (hs.headStart _ _).next

theorem Canonical.execHeadStop (h : Head) : NextCanonical (execHeadStop h s) :=
  (hs.headStop _ _).next

theorem Canonical.rasterGo (h : Head) : Canonical (s.rasterGo h) :=
  (((((((hs.bset _ _ _).bset _ _ _).rasterBegin _ _ _ _).modHead _ _).bset _ _ _).splitStart _).larkResume _).when (fun h1 => h1.outputCheck _)

theorem Canonical.execPllLock (h : Head) : NextCanonical (execPllLock h s) :=
  ((hs.rasterGo _).next).ite (((hs.bset _ _ _).next).ite hs.next)

theorem Canonical.execRasterStop (h : Head) : NextCanonical (execRasterStop h s) :=
  ((hs.stopNow _ _).next).ite hs.next

theorem Canonical.execHeadFreeze (h : Head) : NextCanonical (execHeadFreeze h s) :=
  (((hs.lateRender _).rasterEnd _ _ _).next).ite hs.next

theorem Canonical.headRelease (h : Head) : Canonical (s.headRelease h) :=
  (((((hs.rasterBegin _ _ _ _).modHead _ _).bset _ _ _).splitStart _).larkResume _).ite hs

theorem Canonical.execDotClockLockLoss (h : Head) : NextCanonical (execDotClockLockLoss h s) :=
  (((hs.bset _ _ _).larkUnlock _).next).ite hs.next

theorem Canonical.snapRestart (h : Head) : Canonical (s.snapRestart h) :=
  (((hs.lateRender _).cutFrame _ _).rasterBegin _ _ _ _).modHead _ _

theorem Canonical.refArrive (h : Head) : Canonical (s.refArrive h) :=
  (hs.modHead _ _).when (fun h1 => h1.snapRestart _)

theorem Canonical.execGenlockIn : NextCanonical (execGenlockIn s) :=
  (Canonical.foldl hs (fun _ _ h1 => (h1.refArrive _).ite h1)).next

theorem Canonical.execFoldFrameBoundary : NextCanonical (execFoldFrameBoundary s) :=
  ((Canonical.foldl hs (fun _ _ h1 => (h1.modHead _ _).when (fun h2 => h2.refArrive _))).next).ite hs.next

theorem Canonical.lockLost (h : Head) : Canonical (s.lockLost h) :=
  ((hs.bset _ _ _).modHead _ _).sigFlag _ _

theorem Canonical.steerStep (h : Head) : Canonical (s.steerStep h) :=
  hs.draw.modHead _ _

theorem Canonical.lockTrack (h : Head) : Canonical (s.lockTrack h) := by
  unfold State.lockTrack
  dsimp only
  split
  · exact hs.modHead _ _
  · exact (((hs.steerStep _).modHead _ _).bset _ _ _).ite (((hs.steerStep _).modHead _ _).when (fun h1 => (h1.lockLost _).evHead _ _))

theorem Canonical.execReferenceTimeout (h : Head) : NextCanonical (execReferenceTimeout h s) :=
  (((hs.modHead _ _).when (fun h1 => h1.lockLost _)).next).ite hs.next

theorem Canonical.epochBegin (h : Head) : Canonical (s.epochBegin h) := by
  unfold State.epochBegin
  dsimp only
  split
  · exact ((hs.ite (hs.setEpoch _ _)).setEpoch _ _).modHead _ _
  · exact hs.ite (hs.setEpoch _ _)

theorem Canonical.tapBoundary (h : Head) : Canonical (s.tapBoundary h) := by
  unfold State.tapBoundary
  dsimp only
  split
  · exact (hs.modHead _ _).tapAdopt _ _
  · exact hs.modHead _ _

theorem Canonical.classBytes (h : Head) : Canonical (s.classBytes h) :=
  Canonical.ite ((Canonical.foldl hs (fun _ _ h1 => h1.wr _ _)).congr) hs

theorem Canonical.rotTake (h : Head) (e : Nat) : Canonical (s.rotTake h e) :=
  (hs.fset _ _ _ _).congr

theorem Canonical.mirrorBegin (h : Head) : Canonical (s.mirrorBegin h) :=
  (hs.modEng _ _).congr

theorem Canonical.rotBoundary (h : Head) : Canonical (s.rotBoundary h) := by
  unfold State.rotBoundary
  dsimp only
  split
  · exact hs
  · split
    · exact (((hs.rotTake _ _).congr).fset _ _ _ _).ite (hs.mirrorBegin _)
    · exact (((hs.rotTake _ _).congr).fset _ _ _ _).ite (((hs.rotTake _ _).congr).fset _ _ _ _)
    · exact ((hs.rotTake _ _).fset _ _ _ _).ite (hs.mirrorBegin _)
    · exact hs

theorem Canonical.beamStrobe (h : Head) (b : Nat) : Canonical (s.beamStrobe h b) :=
  (Canonical.foldl hs (fun _ _ h1 => h1.present _ _ _)).modHead _ _

theorem Canonical.markBeam (h : Head) : Canonical (s.markBeam h) :=
  hs.modHead _ _

theorem Canonical.frameBegin (h : Head) : Canonical (s.frameBegin h) := by
  unfold State.frameBegin
  extract_lets kind s1 s2 s3 s4
  have ended : Canonical s2 := (((hs.epochBegin _).splitBoundary _).endFrame _).modHead _ _
  have opened : Canonical s3 := (((ended.beginFrame _).openRecord _ _ _).tapBoundary _).lockTrack _
  have sourced : Canonical s4 := (((opened.classBytes _).epochSource _ _).rotBoundary _).powTrack
  exact (((sourced.beamStrobe _ _).sweepLate _).markBeam _).traceFrame _

theorem Canonical.execFrameStrobe (h : Head) : NextCanonical (execFrameStrobe h s) :=
  ((hs.frameBegin _).next).ite hs.next

theorem Canonical.evalCut (h : Head) (k : Nat) : Canonical (s.evalCut h k) :=
  (((hs.inc _ _ _).modHead _ _).ite ((((hs.inc _ _ _).modHead _ _).setRaised _ _ _).evHead _ _)).ite hs

theorem Canonical.latchDue (h : Head) (k : Nat) : Canonical (s.latchDue h k) := by
  unfold State.latchDue
  dsimp only
  split
  · exact hs
  · split
    · exact ((((hs.modHead _ _).ite hs).evalCut _ _).latchLine _ _).when (fun h1 => h1.miss _ _)
    · exact (((hs.modHead _ _).ite hs).evalCut _ _).latchLine _ _

theorem Canonical.leadAdopt (h : Head) : Canonical (s.leadAdopt h) :=
  Canonical.foldl ((hs.modHead _ _).leadTrack _) (fun _ _ h1 => ((h1.evaluate _ _).ite h1).latchDue _ _)

theorem Canonical.latchNext (h : Head) : Canonical (s.latchNext h) :=
  hs.ite ((hs.latchDue _ _).when (fun h1 => h1.leadAdopt _))

theorem Canonical.markRender (h : Head) : Canonical (s.markRender h) :=
  hs.ite (hs.modHead _ _)

theorem Canonical.execLineStrobe (h : Head) : NextCanonical (execLineStrobe h s) :=
  (((((((hs.frameBegin _).ite hs).beamStrobe _ _).latchNext _).markRender _).streamStrobe _ _).next).ite hs.next

theorem Canonical.execHblankStrobe (h : Head) : NextCanonical (execHblankStrobe h s) :=
  ((hs.beamStrobe _ _).next).ite hs.next

theorem Canonical.execHsyncStrobe (h : Head) : NextCanonical (execHsyncStrobe h s) :=
  ((hs.beamStrobe _ _).next).ite hs.next

theorem Canonical.execVsyncStrobe (h : Head) : NextCanonical (execVsyncStrobe h s) :=
  ((hs.beamStrobe _ _).next).ite hs.next

theorem Canonical.frameCounts (h : Head) : Canonical (s.frameCounts h) :=
  ((((Canonical.foldl hs (fun _ _ h1 => h1.wr _ _)).fset _ _ _ _).fset _ _ _ _).fset _ _ _ _).modHead _ _

theorem Canonical.execVblankStrobe (h : Head) : NextCanonical (execVblankStrobe h s) :=
  ((((hs.closeRecord _ _ _).frameCounts _).beamStrobe _ _).next).ite hs.next

theorem Canonical.tapLate (h : Head) : Canonical (s.tapLate h) :=
  hs.ite (((hs.inc _ _ _).modHead _ _).ite (((hs.inc _ _ _).modHead _ _).evDeadline _))

theorem Canonical.tapped (h : Head) (k q : Nat) : Canonical (s.tapped h k q).2 := by
  unfold State.tapped
  dsimp only
  split
  · exact hs
  · split
    · exact hs.sigFlag _ _
    · split
      · exact (hs.modHead _ _).tapLate _
      · exact hs.modHead _ _
      · split
        · exact (hs.modHead _ _).tapLate _
        · exact hs.modHead _ _

theorem Canonical.lineMismatch (h : Head) : Canonical (s.lineMismatch h) :=
  ((hs.inc _ _ _).evIntegrity).modHead _ _

theorem Canonical.sendQuad (h : Head) : Canonical (s.sendQuad h) :=
  hs.ite (((((hs.tapped _ _ _).modHead _ _).ite (((hs.tapped _ _ _).modHead _ _).sigFlag _ _)).when (fun h1 => h1.sigFlag _ _)).when
    (fun h1 => h1.lineMismatch _))

theorem Canonical.leaveLine (h : Head) : Canonical (s.leaveLine h) :=
  (hs.lateRender _).modHead _ _

theorem Canonical.enterLine (h : Head) (k : Nat) : Canonical (s.enterLine h k) := by
  unfold State.enterLine
  dsimp only
  split
  · exact ((hs.drawn _).mirrorCheck _).modHead _ _
  · split
    · exact ((((hs.drawn _).mirrorCheck _).modHead _ _).deadline _ _).compose _ _
    · exact (((hs.drawn _).mirrorCheck _).modHead _ _).deadline _ _

theorem Canonical.advance (h : Head) : Canonical (s.advance h) := by
  unfold State.advance
  extract_lets r k q s1 k' s2
  have sent : Canonical s1 := (hs.sendQuad _).modHead _ _
  have turned : Canonical s2 := ((sent.leaveLine _).setPos _ _ _).enterLine _ _
  exact ((sent.setPos _ _ _).markBeam _).ite (turned.ite (turned.markBeam _))

theorem Canonical.advanceAll (h : Head) : Canonical (s.advanceAll h) :=
  Canonical.foldl hs (fun _ _ h1 => (h1.advance _).ite h1)

theorem Canonical.snapFollow (h : Head) : Canonical (s.snapFollow h) :=
  Canonical.foldl hs (fun _ _ h1 => (h1.snapRestart _).ite h1)

theorem Canonical.execBeamAdvance (h : Head) : NextCanonical (execBeamAdvance h s) :=
  hs.next.ite (((hs.advanceAll _).snapFollow _).next)

/-! ### Machine/Bus -/

theorem Canonical.answer (v : Word) : Canonical (s.answer v) :=
  hs.congr

theorem Canonical.regRead (a : Nat) (peek : Bool) : Canonical (s.regRead a peek) :=
  (hs.answer _).ite ((hs.wr _ _).answer _)

theorem Canonical.epochRead (r : Requester) (h : Nat) (high peek : Bool) : Canonical (s.epochRead r h high peek) :=
  (hs.answer _).ite ((hs.answer _).ite ((hs.answer _).setShadow _ _ _))

theorem Canonical.memRead (r : Requester) (a region idx : Nat) (e : MemErr) : Canonical (s.memRead r a region idx e) :=
  ((hs.readCheck _ _ _).accessFault _ _).ite ((hs.readCheck _ _ _).answer _)

theorem Canonical.locRead (r : Requester) (a : Nat) (peek : Bool) (e : MemErr) : Canonical (s.locRead r a peek e) := by
  unfold State.locRead
  dsimp only
  split
  · exact hs.epochRead _ _ _ _
  · exact hs.epochRead _ _ _ _
  · exact hs.answer _
  · exact hs.answer _
  · exact (hs.answer _).ite ((hs.tcntTake _ _).answer _)
  · exact (hs.answer _).ite ((hs.tcapTake _).answer _)
  · exact hs.answer _
  · exact hs.answer _
  · exact hs.answer _
  · exact hs.answer _
  · exact (hs.answer _).ite ((hs.ftimelTake _).answer _)
  · exact hs.answer _
  · exact ((hs.lmRead _).accessFault _ _).ite ((hs.lmRead _).answer _)
  · exact hs.answer _
  · exact (hs.answer _).ite ((hs.answer _).stWr _ _)
  · exact hs.busAccess _ _ _
  · split
    · exact hs.memRead _ _ _ _ _
    · exact hs.regRead _ _

theorem Canonical.busRead (r : Requester) (a0 : Nat) (peek : Bool) (e : MemErr) : Canonical (s.busRead r a0 peek e) :=
  (hs.answer _).ite ((hs.locRead _ _ _ _).ite (hs.accessFault _ _))

theorem Canonical.hctlPut (r : Requester) (h : Head) (v : Word) : Canonical (s.hctlPut r h v) :=
  ((((hs.fset _ _ _ _).bset _ _ _).leadTrack _).ite ((((hs.fset _ _ _ _).bset _ _ _).leadTrack _).headStop _ _)).ite
    (((hs.put _ _).leadTrack _).when (fun h1 => h1.headStart _ _))

theorem Canonical.headRegPut (r : Requester) (h : Head) (off : Nat) (v : Word) : Canonical (s.headRegPut r h off v) := by
  unfold State.headRegPut
  dsimp only
  split
  · exact hs.hctlPut _ _ _
  · split
    · exact hs.ite (hs.put _ _)
    · split
      · exact hs.slotPut _ _ _
      · split
        · exact hs.layctlPut _ _
        · exact hs.compctlPut _ _
        · exact hs.tapctlPut _ _
        · exact hs.outctlPut _ _
        · exact hs.dpctlPut _ _
        · exact hs.lvdsctlPut _ _
        · exact hs.put _ _

theorem Canonical.coreRegPut (r : Requester) (k : Core) (off : Nat) (v : Word) : Canonical (s.coreRegPut r k off v) := by
  unfold State.coreRegPut
  split
  · split
    · split
      · exact hs.wdkeyPut _ _
      · exact hs.wdcfgPut _ _
      · exact hs.put _ _
    · exact hs
  · exact hs

theorem Canonical.peerrstPut (r : Requester) (v : Word) : Canonical (s.peerrstPut r v) := by
  unfold State.peerrstPut
  split
  · exact (hs.coreReset _).ite hs
  · exact hs

theorem Canonical.bpPut (k i : Nat) (v : Word) : Canonical (s.bpPut k i v) :=
  (hs.put _ _).ite (hs.ite (hs.put _ _))

theorem Canonical.stimPut (r : Requester) (n : Nat) (v : Word) : Canonical (s.stimPut r n v) :=
  (hs.tracePut _ _ _ _).ite hs

theorem Canonical.vtoutcPut (v : Word) : Canonical (s.vtoutcPut v) :=
  (hs.stWr _ _).ite ((hs.stWr _ _).congr)

theorem Canonical.mbbufPut (r : Requester) (m : Mbox) (w : Nat) (v : Word) : Canonical (s.mbbufPut r m w v) :=
  (hs.mbufPut _ _ _).ite (hs.accessFault _ _)

theorem Canonical.logClear (r : Nat) : Canonical (s.logClear r) :=
  Canonical.foldl (hs.fset _ _ _ _) (fun _ _ h1 => h1.wr _ _)

theorem Canonical.regionPut (r off : Nat) (v : Word) : Canonical (s.regionPut r off v) := by
  unfold State.regionPut
  split
  · exact (hs.logClear _).ite hs
  · exact (hs.remapWord _ _).ite hs
  · exact hs.put _ _

theorem Canonical.bankRegPut (r : Requester) (b : Bank) (off : Nat) (v : Word) : Canonical (s.bankRegPut r b off v) := by
  unfold State.bankRegPut
  split
  · exact hs.bankcfgPut _ _
  · exact hs.outDirect _ _ _ _
  · exact hs.outDirect _ _ _ _
  · exact hs.outDirect _ _ _ _
  · exact hs.outDirect _ _ _ _
  · exact hs.iflagPut _ _ _
  · exact hs.contPut _ _
  · exact (hs.probeGo _ _).ite hs
  · exact (hs.pincfgPut _ _ _ _).ite (hs.put _ _)

theorem Canonical.gmodePut (v : Word) : Canonical (s.gmodePut v) :=
  hs.congr

theorem Canonical.memPut (a region idx : Nat) (v : Word) : Canonical (s.memPut a region idx v) :=
  (hs.put _ _).writeFlip _ _

theorem Canonical.locWrite (r : Requester) (a : Nat) (v : Word) : Canonical (s.locWrite r a v) := by
  unfold State.locWrite
  split
  · exact hs.headRegPut _ _ _ _
  · exact hs.postPortPut _ _ _
  · exact hs.bankRegPut _ _ _ _
  · exact hs.timerRegPut _ _ _ _
  · exact hs.tgoPut _ _
  · exact hs.dramRegPut _ _
  · exact hs.pctlPut _ _
  · exact hs.gmodePut _
  · exact hs.glReset.ite hs
  · exact hs.glWrite _ _
  · exact hs.icpctlPut _
  · exact hs.imagePut _ _ _
  · exact hs.bpPut _ _ _
  · exact hs.stimPut _ _ _
  · exact hs.vtoutcPut _
  · exact hs.coreRegPut _ _ _ _
  · exact hs.peerrstPut _ _
  · split
    · exact hs.mbctlPut _ _ _
    · exact hs
  · exact hs.lkctlPut _ _
  · exact hs.foldPut _ _
  · exact hs.ccmdPut _ _
  · exact hs.larkRegPut _ _ _
  · exact hs.regionPut _ _ _
  · exact hs.busAccess _ _ _
  · split
    · exact hs.memPut _ _ _ _
    · exact hs.put _ _

theorem Canonical.busWrite (r : Requester) (a0 : Nat) (v : Word) : Canonical (s.busWrite r a0 v) := by
  unfold State.busWrite
  dsimp only
  split
  · exact (hs.congr.mbbufPut _ _ _ _).ite (hs.accessFault _ _)
  · split
    · exact hs.congr.when (fun h1 => h1.locWrite _ _ _)
    · exact (hs.congr.locWrite _ _ _).ite (hs.accessFault _ _)
  · exact hs.congr.ite (Canonical.ite (hs.congr.directly _ _ _ (fun _ _ _ h1 => h1.locWrite _ _ _)) (hs.accessFault _ _))

theorem Canonical.execEpochlRead (r : Requester) (h : Head) : NextCanonical (execEpochlRead r h s) :=
  (hs.busRead _ _ _ _).next

theorem Canonical.execLogClear (q : Requester) (r : Region) : NextCanonical (execLogClear q r s) :=
  (hs.busWrite _ _ _).next

theorem Canonical.execStimulusWrite (r : Requester) (n : Fin 32) (v : Word) : NextCanonical (execStimulusWrite r n v s) :=
  (hs.busWrite _ _ _).next

theorem Canonical.execVtoutcWrite (v : Word) : NextCanonical (execVtoutcWrite v s) :=
  (hs.vtoutcPut _).next

theorem Canonical.execVtincRead : NextCanonical (execVtincRead s) :=
  ((hs.answer _).stWr _ _).next

/-! ### Machine/Actions -/

theorem Canonical.takeDue (h : Head) (e : QEntry) : Canonical (s.takeDue h e) :=
  (hs.dropEntry _ _).ite (hs.modHead _ _)

theorem Canonical.issue (h : Head) (k : Nat) {f : State → QEntry → State} (hf : ∀ t e, Canonical t → Canonical (f t e)) : Canonical
    (s.issue h k f) := by
  unfold State.issue
  split
  · exact hs
  · next e _ =>
    have checked := hs.entryCheck h e.idx
    exact hs.ite (((checked.dropEntry _ _).evHead _ _).ite ((((checked.dropEntry _ _).inc _ _ _).evHead _ _).ite (hf _ _ (checked.takeDue _ _))))

theorem Canonical.execMark (h : Head) : NextCanonical (execMark h s) :=
  (hs.issue _ _ (fun _ _ h1 => ((h1.wr _ _).wr _ _).evHead _ _)).next

theorem Canonical.execWrite (h : Head) : NextCanonical (execWrite h s) :=
  (hs.issue _ _ (fun _ _ h1 => h1.byQueue _ _ _ (fun _ _ _ h2 => h2.locWrite _ _ _))).next

theorem Canonical.execPalswap (h : Head) : NextCanonical (execPalswap h s) :=
  (hs.issue _ _ (fun _ _ h1 => h1.palswap _ _ _)).next

theorem Canonical.execVoice (h : Head) : NextCanonical (execVoice h s) :=
  (hs.issue _ _ (fun _ _ h1 => h1.keyBy _ _ _ _)).next

theorem Canonical.execTimer (h : Head) : NextCanonical (execTimer h s) :=
  (hs.issue _ _ (fun _ _ h1 => h1.timerBy _ _ _ _)).next

theorem Canonical.execPin (h : Head) : NextCanonical (execPin h s) :=
  (hs.issue _ _ (fun _ _ h1 => h1.outBy _ _ _ _ _ _)).next

theorem Canonical.execStrobe (h : Head) : NextCanonical (execStrobe h s) :=
  (hs.issue _ _ (fun _ _ h1 => ((h1.present _ _ _).present _ _ _).cycNote _)).next

theorem Canonical.execSwap (h : Head) : NextCanonical (execSwap h s) :=
  (hs.issue _ _ (fun _ _ h1 => ((((((h1.swapUndo _).swapReject _).forgetCyc _).ite h1).swapReject _).ite
    (((((h1.swapUndo _).swapReject _).forgetCyc _).ite h1).swapAction _ _ _ _)).cycNote _)).next

/-! ### Machine/Serve -/

theorem Canonical.command (m : Mbox) (c : Nat) (sel : Word → Bool) {f : List Word → State → Served}
    (hf : ∀ a t, Canonical t → ServedCanonical (f a t)) :
    Canonical (s.command m c sel f) :=
  hs.serve _ _ _ _ _ hf

theorem Canonical.execIdent (m : Mbox) : NextCanonical (execIdent m s) :=
  (hs.command _ _ _ (fun _ _ h1 => h1.done _ _)).next

theorem Canonical.execStatus (m : Mbox) : NextCanonical (execStatus m s) :=
  (hs.command _ _ _ (fun _ _ h1 => h1.done _ _)).next

theorem Canonical.execSeqsync (m : Mbox) : NextCanonical (execSeqsync m s) :=
  (hs.command _ _ _ (fun _ _ h1 => h1.done _ _)).next

theorem Canonical.enterDev (d : DevState) (reason : BitVec 8) : Canonical (s.enterDev d reason) :=
  ((hs.toDev _ _).ledgerSave).when (fun h1 => h1.bset _ _ _)

theorem Canonical.execSetstate (m : Mbox) : NextCanonical (execSetstate m s) := by
  refine (hs.command m 0x04 anyReq fun a t h => ?_).next
  split
  · exact (h.enterDev _ _).done _ _
  · exact h.done _ _

theorem Canonical.execReset (m : Mbox) : NextCanonical (execReset m s) :=
  (hs.command _ _ _ (fun _ _ h1 => h1.congr.done _ _)).next

theorem Canonical.execHeadcfg (m : Mbox) : NextCanonical (execHeadcfg m s) :=
  (hs.command _ _ _ (fun _ _ h1 => (h1.done _ _).ite (((Canonical.foldl h1 (fun _ _ h2 => h2.headRegPut _ _ _ _)).hctlPut _ _ _).done _ _))).next

theorem Canonical.execHeadrun (m : Mbox) : NextCanonical (execHeadrun m s) := by
  refine (hs.command _ _ _ fun a t ht => ?_).next
  extract_lets h run was r t1 t2 t3
  have epoched : Canonical t1 := (ht.headRegPut _ _ _ _).headRegPut _ _ _ _
  have moved : Canonical t2 := (epoched.headStart _ _).ite (epoched.when fun h => h.headStop _ _)
  exact (ht.done _ _).ite ((moved.modHead _ _).done _ _)

theorem Canonical.execCreg (m : Mbox) : NextCanonical (execCreg m s) := by
  refine (hs.command m 0x12 anyReq fun a t h => ?_).next
  dsimp only
  split
  · exact (h.done _ _).ite (h.done _ _)
  · exact (h.done _ _).ite ((h.done _ _).ite (((h.busWrite _ _ _).busRead _ _ _ _).done _ _))

theorem Canonical.execDptrain (m : Mbox) (o : TrainOutcome) : NextCanonical (execDptrain m o s) :=
  (hs.command _ _ _ (fun _ _ h1 => (h1.done _ _).ite
    (((((((h1.bset _ _ _).linkTrack _).fset _ _ _ _).put _ _).bset _ _ _).linkTrack _).done _ _))).next

theorem Canonical.execAuxRead (m : Mbox) (d : List Byte) : NextCanonical (execAuxRead m d s) :=
  (hs.command _ _ _ (fun _ _ h1 => (h1.done _ _).ite ((h1.drawWords _).done _ _))).next

theorem Canonical.execAuxWrite (m : Mbox) : NextCanonical (execAuxWrite m s) :=
  (hs.command _ _ _ (fun _ _ h1 => (h1.done _ _).ite ((h1.drawWords _).done _ _))).next

omit hs in
theorem Canonical.wreadGo (m : Mbox) (base : Nat) : ∀ (n : Nat) {s : State} (_ : Canonical s) (done : List Word), ServedCanonical
    (s.wreadGo m base n done)
  | 0, _, hs, _ => hs.done _ _
  | n + 1, s, hs, done => by
    unfold State.wreadGo
    dsimp only
    split
    · exact (((hs.busAccess _ _ _).ite hs).modMbox _ _).held
    · exact ((hs.busRead _ _ _ _).done _ _).ite (Canonical.wreadGo m base n (hs.busRead _ _ _ _) _)

omit hs in
theorem Canonical.wwriteGo (m : Mbox) (base : Nat) : ∀ (l : List Word) {s : State} (_ : Canonical s) (done : List Word), ServedCanonical
    (s.wwriteGo m base l done)
  | [], _, hs, _ => hs.done _ _
  | v :: l, s, hs, done => by
    unfold State.wwriteGo
    dsimp only
    split
    · exact (((hs.busAccess _ _ _).ite hs).modMbox _ _).held
    · exact ((hs.busWrite _ _ _).done _ _).ite (Canonical.wwriteGo m base l (hs.busWrite _ _ _) _)

theorem Canonical.execWread (m : Mbox) : NextCanonical (execWread m s) :=
  (hs.command _ _ _ (fun _ _ h1 => (h1.done _ _).ite ((h1.done _ _).ite (h1.wreadGo _ _ _ _)))).next

theorem Canonical.execWwrite (m : Mbox) : NextCanonical (execWwrite m s) :=
  (hs.command _ _ _ (fun _ _ h1 => (h1.done _ _).ite (h1.wwriteGo _ _ _ _))).next

theorem Canonical.windowDone (m : Mbox) (done : List Word) (fault : Bool) : Canonical (s.windowDone m done fault) := by
  unfold State.windowDone
  extract_lets a base r
  have served : ServedCanonical r := (hs.done _ _).ite ((Canonical.wreadGo m _ _ hs _).ite (Canonical.wwriteGo m _ _ hs _))
  clear_value r
  cases r with
  | done t c ws => exact (Canonical.dropShadows served).mbFinish _ _ _
  | held t => exact served

theorem Canonical.windowTurn (m : Mbox) (done : List Word) : Canonical (s.windowTurn m done) := by
  unfold State.windowTurn
  extract_lets a base r
  have served : ServedCanonical r := (Canonical.wreadGo m _ _ hs _).ite (Canonical.wwriteGo m _ _ hs _)
  clear_value r
  cases r with
  | done t c ws => exact (Canonical.dropShadows served).mbFinish _ _ _
  | held t => exact served

theorem Canonical.debugTurn (p : Pad) : Canonical (s.debugTurn p) := by
  unfold State.debugTurn
  split
  · exact (hs.congr.busAccess _ _ _).ite hs
  · exact hs

theorem Canonical.windowNext (p : Pad) (e : Option BusEnd) : Canonical (s.windowNext p e) := by
  have turned : ∀ t : State, Canonical t → Canonical (if t.pads[p].wb.isSome then t
      else match (t.windowWaits p).find? fun w => !w.2.2 with
        | some (m, done, _) => t.windowTurn m done
        | none => t.debugTurn p) := fun t ht => by
    refine ht.ite ?_
    split
    · exact ht.windowTurn _ _
    · exact ht.debugTurn _
  unfold State.windowNext
  split
  · exact hs
  · refine turned _ (hs.ite ?_)
    split
    · exact hs.windowDone _ _ _
    · exact hs

theorem Canonical.execWardensBusAck (p : Pad) : NextCanonical (execWardensBusAck p s) :=
  (((hs.busAck _).windowNext _ _).relayStep).next

theorem Canonical.execWardensBusTimeout (p : Pad) : NextCanonical (execWardensBusTimeout p s) :=
  (((hs.busTimeout _).windowNext _ _).relayStep).next

theorem Canonical.portTake (k : Core) (h : Nat) (ws : List Word) (status : Word) : Canonical (s.portTake k h ws status) :=
  hs.congr

theorem Canonical.qpostCmd (r : Requester) (k : Core) (a : List Word) : ServedCanonical (s.qpostCmd r k a) :=
  (hs.done _ _).ite (((hs.post _ _ _ _ _ _).portTake _ _ _ _).done _ _)

theorem Canonical.qcancelCmd (r : Requester) (k : Core) (a : List Word) : ServedCanonical (s.qcancelCmd r k a) :=
  (hs.done _ _).ite (((hs.cancel _ _ _).portTake _ _ _ _).done _ _)

theorem Canonical.execQpost (m : Mbox) : NextCanonical (execQpost m s) :=
  (hs.command _ _ _ (fun _ _ h1 => h1.qpostCmd _ _ _)).next

theorem Canonical.execQcancel (m : Mbox) : NextCanonical (execQcancel m s) :=
  (hs.command _ _ _ (fun _ _ h1 => h1.qcancelCmd _ _ _)).next

theorem Canonical.ungrant (x : Grant) : Canonical (s.ungrant x) :=
  hs.congr.when (fun h1 => h1.pinGive _ _ _ _)

theorem Canonical.grant (x : Grant) : Canonical (s.grant x) :=
  hs.congr.when (fun h1 => h1.pinGive _ _ _ _)

theorem Canonical.grantCmd (on : Bool) (x : Grant) : ServedCanonical (s.grantCmd on x) :=
  (hs.done _ _).ite ((hs.done _ _).ite ((hs.done _ _).ite ((hs.done _ _).ite ((hs.done _ _).ite (((hs.grant _).ite (hs.ungrant _)).done _ _)))))

theorem Canonical.execGrantOn (m : Mbox) : NextCanonical (execGrantOn m s) :=
  (hs.command _ _ _ (fun _ _ h1 => h1.grantCmd _ _)).next

theorem Canonical.execGrantOff (m : Mbox) : NextCanonical (execGrantOff m s) :=
  (hs.command _ _ _ (fun _ _ h1 => h1.grantCmd _ _)).next

theorem Canonical.execGrantlist (m : Mbox) : NextCanonical (execGrantlist m s) :=
  (hs.command _ _ _ (fun _ _ h1 => (h1.done _ _).ite (h1.done _ _))).next

/-! ### Machine/Streams -/

theorem Canonical.stagePart (q : DramUser) (x : Stream) (k0 : List Byte) (p : StagePart) (u : Nat) (e : Fin 64) : Canonical
    (s.stagePart q x k0 p u e) :=
  ((((Canonical.foldl ((((hs.queueWrite _ _ _).queueWrite _ _ _).queueWrite _ _ _).congr)
    (fun _ _ h1 => h1.glWrite _ _)).wr _ _).wr _ _).wr _ _).wr _ _

omit hs in
theorem Canonical.stageParts (q : DramUser) (x : Stream) (k0 : List Byte) : ∀ (ps : List StagePart) {s : State} (_ : Canonical s)
    (es : List Nat) (u : Nat),
    Canonical (s.stageParts q x k0 ps es u)
  | p :: ps, _, hs, e :: es, u => Canonical.stageParts q x k0 ps (hs.stagePart q x k0 p u (Fin.ofNat 64 e)) es (u + p.units)
  | [], _, hs, _, _ => by unfold State.stageParts; exact hs
  | _ :: _, _, hs, [], _ => hs

theorem Canonical.stageBase (units : Nat) : Canonical (s.stageBase units).2 :=
  hs.draw

theorem Canonical.stageGo (q : DramUser) (x : Stream) (g : Nat → Nat → List Byte) (k0 : List Byte) (map : List Word) :
    Canonical (s.stageGo q x g k0 map).1 := by
  have based := hs.stageBase ((x.parts g map).map StagePart.units).sum
  exact based.stageParts q x k0 _ _ _

theorem Canonical.caeRead (w : Word) (n : Nat) : Canonical (s.caeRead w n) :=
  (hs.countOor _).congr

theorem Canonical.execStage (m : Mbox) : NextCanonical (execStage m s) := by
  unfold Machine.execStage
  apply Canonical.next
  apply hs.command
  intro a t0 h
  extract_lets t g x bytes map room
  have read : Canonical t := (h.caeRead _ _).caeRead _ _
  clear_value t g x bytes map room
  refine (read.done _ _).ite ((read.done _ _).ite ((read.done _ _).ite ?_))
  split
  · exact read.done _ _
  · refine ServedCanonical.ite (read.done _ _) ?_
    exact (read.stageGo _ _ _ _ _).done _ _

theorem Canonical.execUnstage (m : Mbox) : NextCanonical (execUnstage m s) :=
  (hs.command _ _ _ (fun _ _ h1 => (h1.done _ _).ite ((h1.done _ _).ite ((h1.imagePut _ _ _).done _ _)))).next

theorem Canonical.heldLoad (m : Mbox) : Canonical (s.heldLoad m) :=
  (hs.modMbox _ _).journalCommit _

theorem Canonical.execPload (m : Mbox) : NextCanonical (execPload m s) :=
  (hs.command _ _ _ (fun _ _ h1 => (h1.done _ _).ite ((h1.done _ _).ite (((h1.swapStart _ _ _ _).heldLoad _).held)))).next

theorem Canonical.execPloadTimed (m : Mbox) : NextCanonical (execPloadTimed m s) :=
  (hs.command _ _ _ (fun _ _ h1 => (h1.done _ _).ite ((h1.post _ _ _ _ _ _).done _ _))).next

theorem Canonical.execGleanreqRewrite (m : Mbox) : NextCanonical (execGleanreqRewrite m s) :=
  (hs.command _ _ _ (fun _ _ h1 => (h1.done _ _).ite ((h1.done _ _).ite (((h1.icpAdd _).heldLoad _).held)))).next

theorem Canonical.execGleanreqReload (m : Mbox) : NextCanonical (execGleanreqReload m s) :=
  (hs.command _ _ _ (fun _ _ h1 => (h1.done _ _).ite (((h1.done _ _).ite (((h1.swapStart _ _ _ _).heldLoad _).held)).ite
    ((h1.post _ _ _ _ _ _).done _ _)))).next

theorem Canonical.icpDone (j : IcpJob) : Canonical (s.icpDone j) := by
  unfold State.icpDone
  dsimp only
  split
  · exact hs
  · exact (hs.mbFinish _ _ _).ite hs

theorem Canonical.execIcpOperationComplete : NextCanonical (execIcpOperationComplete s) := by
  have ended := hs.icpEnd
  unfold Machine.execIcpOperationComplete
  dsimp only
  split
  · exact (ended.icpDone _).glResume.relayStep.next
  · exact ended.next

theorem Canonical.execBind (m : Mbox) : NextCanonical (execBind m s) := by
  unfold Machine.execBind
  apply Canonical.next
  apply hs.command
  intro a t0 h
  extract_lets g x t
  have read : Canonical t := h.caeRead _ _
  clear_value t g x
  refine (read.done _ _).ite ((read.done _ _).ite ?_)
  split
  · exact read.done _ _
  · refine ServedCanonical.ite (read.done _ _) ?_
    exact (read.queueWrite _ _ _).done _ _

theorem Canonical.execArbraise (m : Mbox) : NextCanonical (execArbraise m s) := by
  refine (hs.command m 0x45 anyReq fun a t h => ?_).next
  split
  · exact h.congr.done _ _
  · exact h.done _ _

theorem Canonical.execFamkey (m : Mbox) : NextCanonical (execFamkey m s) :=
  (hs.command _ _ _ (fun _ _ h1 => (h1.done _ _).ite ((h1.done _ _).ite (h1.congr.done _ _)))).next

theorem Canonical.execRevoke (m : Mbox) : NextCanonical (execRevoke m s) := by
  refine (hs.command m 0x47 anyReq fun a t h => ?_).next
  dsimp only
  split
  · exact (h.done _ _).ite ((h.done _ _).ite (h.congr.done _ _))
  · exact h.done _ _

theorem Canonical.execAttkey (m : Mbox) (de : BitVec 384) : NextCanonical (execAttkey m de s) :=
  (hs.command _ _ _ (fun _ _ h1 => (h1.done _ _).ite ((h1.done _ _).ite (h1.done _ _)))).next

/-! ### Machine/Integrity -/

theorem Canonical.execPageRebuild (r : Region) (a : BitVec 22) : NextCanonical (execPageRebuild r a s) := by
  unfold Machine.execPageRebuild
  split
  · exact ((hs.readCheck _ _ _).next).ite hs.next
  · exact hs.next

theorem Canonical.execRemap (r : Region) (a : BitVec 22) : NextCanonical (execRemap r a s) :=
  (hs.remapWord _ _).next

theorem Canonical.loadRecords : Canonical s.loadRecords :=
  hs.ite (hs.congr.ite hs.evIntegrity)

theorem Canonical.rmStat (r : Nat) : Canonical (s.rmStat r) :=
  (hs.fset _ _ _ _).fset _ _ _ _

theorem Canonical.loadRemaps : Canonical s.loadRemaps :=
  Canonical.foldl hs.congr (fun _ _ h1 => h1.rmStat _)

theorem Canonical.markFailedEngines : Canonical s.markFailedEngines :=
  Canonical.foldl hs (fun _ _ h1 => h1.bset _ _ _)

theorem Canonical.rehome (h n : Nat) : Canonical (s.rehome h n) :=
  hs.ite (hs.draw.fset _ _ _ _)

theorem Canonical.rehomeAll : Canonical s.rehomeAll :=
  Canonical.foldl hs (fun _ _ h1 => Canonical.foldl h1 (fun _ _ h2 => h2.rehome _ _))

theorem Canonical.bistFail (e : Nat) : Canonical (s.bistFail e) :=
  (hs.markFailed _).inc _ _ _

theorem Canonical.checkerBad (r : Nat) : Canonical (s.checkerBad r) :=
  (hs.bistFail _).ite hs.evIntegrity

theorem Canonical.regionClear (r : Nat) : Canonical (s.regionClear r) :=
  { hs with ws := spWf_spClear _ _ _ (spWf_spClear _ _ _ hs.ws) }

theorem Canonical.execCheckerTest (bad : List Region) : NextCanonical (execCheckerTest bad s) :=
  hs.next.ite (((((Canonical.foldl (Canonical.foldl hs (fun _ _ h1 => h1.checkerBad _))
    (fun _ _ h1 => h1.regionClear _)).markFailedEngines).rehomeAll).congr).next)

theorem Canonical.execRotation : NextCanonical (execRotation s) := by
  unfold Machine.execRotation
  split
  · exact hs.next
  · split
    · exact ((hs.wr _ _).congr).next
    · exact hs.next

theorem Canonical.rotGo (step : Nat) (retry : Bool) : Canonical (s.rotGo step retry) :=
  (hs.fset _ _ _ _).congr

theorem Canonical.execSelfTestComplete (pass : Bool) : NextCanonical (execSelfTestComplete pass s) := by
  unfold Machine.execSelfTestComplete
  split
  · exact hs.next
  · exact (((hs.bistFail _).rotGo _ _).next).ite (((hs.rotGo _ _).next).ite ((((hs.markFailed _).rotGo _ _).next).ite ((hs.rotGo _ _).next)))

/-! ### Machine/Ledger -/

theorem Canonical.msCounted : Canonical s.msCounted :=
  (hs.ledgerInc48 _).when (fun h1 => h1.ledgerInc _)

theorem Canonical.msUnavailable (cause : BitVec 6) : Canonical (s.msUnavailable cause) :=
  Canonical.foldl ((hs.ledgerInc48 _).ledgerInc _) (fun _ _ h1 => (h1.ledgerInc _).ite h1)

theorem Canonical.msLost : Canonical s.msLost :=
  hs.msCounted.msUnavailable _

theorem Canonical.msDecide (m : MsRec) : Canonical (s.msDecide m) :=
  (hs.ledgerInc48 _).ite ((hs.msCounted.when (fun h1 => h1.msUnavailable _)).ite hs)

theorem Canonical.msTally : Canonical s.msTally := by
  unfold State.msTally
  extract_lets u l t
  have decided : Canonical t := Canonical.foldl (Canonical.foldl hs fun _ _ h => h.recordsLate _) fun _ _ h => h.msDecide _
  clear_value t
  exact decided.congr

theorem Canonical.secondTick : Canonical s.secondTick :=
  hs.congr.when (fun h1 => ((h1.setLedger _ _).setLedger _ _).setLedger _ _)

theorem Canonical.execLedgerTick : NextCanonical (execLedgerTick s) := by
  unfold Machine.execLedgerTick
  refine hs.next.ite ?_
  extract_lets n _ _ s1 s2
  have counted : Canonical s1 := hs.congr
  have ticked : Canonical s2 := counted.when fun h => h.secondTick
  clear_value s2
  exact ticked.next.ite (ticked.msLost.next.ite (Canonical.next (Canonical.msTally ticked.congr)))

theorem Canonical.execLedgerWrite : NextCanonical (execLedgerWrite s) :=
  hs.ledgerSave.next.ite hs.next

theorem Canonical.ledgerLoad : Canonical s.ledgerLoad := by
  unfold State.ledgerLoad
  extract_lets l _ t cause t1 t2 t3
  have loaded : Canonical t := hs.congr
  have set : Canonical t2 := (loaded.when fun h => h.ledgerInc _).setLedger _ _
  have lost : Canonical t3 := set.when fun h => Canonical.foldl h fun _ _ h => h.msLost
  clear_value t3
  exact lost.congr

/-! ### Machine/Images -/

theorem Canonical.execFlashinfo (m : Mbox) : NextCanonical (execFlashinfo m s) :=
  (hs.command _ _ _ (fun _ _ h1 => h1.done _ _)).next

theorem Canonical.flashErase (a n : Nat) : Canonical (s.flashErase a n) :=
  { hs with flash := spWf_spWrite _ _ _ _ hs.flash }

theorem Canonical.flashPut (a : Nat) (d : List Byte) : Canonical (s.flashPut a d) :=
  { hs with flash := spWf_spWrite _ _ _ _ hs.flash }

theorem Canonical.execFlashwrite (m : Mbox) (ok : Bool) : NextCanonical (execFlashwrite m ok s) := by
  refine (hs.command _ _ _ fun a t ht => ?_).next
  extract_lets target n off u
  have written : Canonical u := ht.ite (((ht.caeRead _ _).flashErase _ _).flashPut _ _)
  exact (ht.done _ _).ite (((written.dirWrite _ _).done _ _).ite (written.done _ _))

theorem Canonical.execFlashblk (m : Mbox) : NextCanonical (execFlashblk m s) :=
  (hs.command _ _ _ (fun _ _ h1 => (h1.done _ _).ite ((((h1.flashErase _ _).ite h1).flashPut _ _).done _ _))).next

theorem Canonical.execFlashdir (m : Mbox) : NextCanonical (execFlashdir m s) :=
  (hs.command _ _ _ (fun _ _ h1 => (((h1.dirWrite _ _).done _ _).ite (h1.done _ _)).ite (((h1.dirWrite _ _).done _ _).ite (h1.done _ _)))).next

theorem Canonical.caerunoRuns (version abi : Word) : Canonical (s.caerunoRuns version abi) :=
  (((((hs.coreUp _).coreUp _).loadRecords).loadRemaps).ledgerLoad).congr

theorem Canonical.execFwput (m : Mbox) : NextCanonical (execFwput m s) :=
  (hs.command _ _ _ (fun _ _ h1 => (h1.done _ _).ite ((Canonical.foldl h1 (fun _ _ h2 => (h2.wr _ _).writeFlip _ _)).done _ _))).next

theorem Canonical.execFwboot (m : Mbox) (ok : Bool) : NextCanonical (execFwboot m ok s) :=
  (hs.command _ _ _ (fun _ _ h1 => (h1.done _ _).ite (((h1.caerunoRuns _ _).done _ _).ite (h1.done _ _)))).next

theorem Canonical.execFwstage (m : Mbox) (ok : Bool) : NextCanonical (execFwstage m ok s) :=
  (hs.command _ _ _ (fun _ _ h1 => ((h1.caeRead _ _).done _ _).ite (((h1.caeRead _ _).done _ _).ite (((h1.caeRead _ _).congr).done _ _)))).next

theorem Canonical.execFwrelay (m : Mbox) : NextCanonical (execFwrelay m s) :=
  (hs.command _ _ _ (fun _ _ h1 => (h1.done _ _).ite ((h1.done _ _).ite h1.congr.relayStep.held))).next

theorem Canonical.execCoreRejoin (k : Core) : NextCanonical (execCoreRejoin k s) := by
  have up := fun k => (hs.coreUp k).modCore k
  refine hs.next.ite (NextCanonical.ite ?_ (NextCanonical.ite ?_ ?_))
  · exact ((up _ _).relayMove _ _ _).next.ite hs.next
  · exact ((up _ _).runStaged.relayEnd _ _).next.ite hs.next
  · exact (up _ _).next.ite hs.next

theorem Canonical.execSplitget (m : Mbox) : NextCanonical (execSplitget m s) :=
  (hs.command _ _ _ (fun _ _ h1 => h1.done _ _)).next

theorem Canonical.execSplitset (m : Mbox) : NextCanonical (execSplitset m s) :=
  (hs.command _ _ _ (fun _ _ h1 => (h1.done _ _).ite ((h1.splitSet _ _ _).done _ _))).next

theorem Canonical.placeBody (pages : List Nat) (body : List Word) : Canonical (s.placeBody pages body) :=
  Canonical.foldl hs (fun _ _ h1 => (h1.wr _ _).writeFlip _ _)

theorem Canonical.coreFor : Canonical s.coreFor.2 := by
  unfold State.coreFor
  split
  · exact hs.draw
  · exact hs

theorem Canonical.execAppload (m : Mbox) : NextCanonical (execAppload m s) := by
  refine (hs.command _ _ _ fun a t0 h => ?_).next
  have read := fun n => h.caeRead (argAt a 1) n
  have placed := fun n pages body => ((read n).placeBody pages body).coreFor
  exact ((read _).done _ _).ite (((read _).done _ _).ite (((read _).done _ _).ite (((read _).done _ _).ite (((placed _ _ _).modCtx _ _).done _ _))))

theorem Canonical.appctl (m : Mbox) (op : Nat) {f : Ctx → State → Served} (hf : ∀ c t, Canonical t → ServedCanonical (f c t)) : Canonical
    (s.appctl m op f) :=
  hs.command _ _ _ fun _ _ h => (h.done _ _).ite (hf _ _ h)

theorem Canonical.ctxRun (c : Ctx) (again : Bool) : Canonical (s.ctxRun c again) :=
  hs.modCtx _ _

theorem Canonical.execAppctlStart (m : Mbox) : NextCanonical (execAppctlStart m s) :=
  (hs.appctl _ _ (fun _ _ h1 => (h1.ite (h1.ctxRun _ _)).done _ _)).next

theorem Canonical.execAppctlStop (m : Mbox) : NextCanonical (execAppctlStop m s) :=
  (hs.appctl _ _ (fun _ _ h1 => ((h1.modCtx _ _).done _ _).ite (h1.done _ _))).next

theorem Canonical.ctxClear (c : Ctx) : Canonical (s.ctxClear c) := by
  refine Canonical.foldl (Canonical.foldl hs fun _ _ h => h.ungrant _) fun t p h => ?_
  exact (h.setWs (spWf_spClear _ _ _ h.ws)).congr

theorem Canonical.execAppctlUnload (m : Mbox) : NextCanonical (execAppctlUnload m s) :=
  (hs.appctl _ _ (fun _ _ h1 => ((h1.ctxClear _).modCtx _ _).done _ _)).next

theorem Canonical.execAppctlRestart (m : Mbox) : NextCanonical (execAppctlRestart m s) :=
  (hs.appctl _ _ (fun _ _ h1 => (h1.ctxRun _ _).done _ _)).next

theorem Canonical.execAppstat (m : Mbox) : NextCanonical (execAppstat m s) :=
  (hs.command _ _ _ (fun _ _ h1 => (h1.done _ _).ite (h1.done _ _))).next

theorem Canonical.execLedger (m : Mbox) : NextCanonical (execLedger m s) :=
  (hs.command _ _ _ (fun _ _ h1 => (h1.done _ _).ite (h1.done _ _))).next

theorem Canonical.trapServe (k : Core) (c : Ctx) (cmd : Nat) (a : List Word) : ServedCanonical (s.trapServe k c cmd a) := by
  unfold State.trapServe
  split
  · exact hs.done _ _
  · split
    · exact hs.done _ _
    · split
      · exact hs.done _ _
      · exact hs.done _ _
      · exact hs.qpostCmd _ _ _
      · exact hs.qcancelCmd _ _ _
      · exact hs.done _ _
      · exact (hs.done _ _).ite ((hs.done _ _).ite (hs.done _ _))
      · exact hs.done _ _

theorem Canonical.execServiceTrap (k : Core) (c : Ctx) (msg : List Word) : NextCanonical (execServiceTrap k c msg s) := by
  refine NextCanonical.ite hs.next ?_
  have served : ServedCanonical (if nth 0 msg 2 ≠ 0 ∧ nth 0 msg 2 ≠ s.unit then Served.done s (if s.foldSet then 3 else 2) []
      else s.trapServe k c (fld (nth 0 msg 0) 23 16) ((List.range (fld (nth 0 msg 0) 13 8)).map fun i => nth 0 msg (3 + i))) :=
    (hs.done _ _).ite (hs.trapServe _ _ _ _)
  dsimp only
  split
  · next e => rw [e] at served; exact (Canonical.modCtx served _ _).next
  · next e => rw [e] at served; exact Canonical.next served

/-! ### Machine/Power -/

theorem Canonical.bankKeep (u : State) (held : Bool) : Canonical (u.bankKeep held s) :=
  Canonical.foldl hs (fun _ _ h1 => ((h1.bset _ _ _).fset _ _ _ _).when (fun h2 => (h2.bset _ _ _).modBank _ _))

theorem Canonical.resetDevice (k : Scope) : Canonical (s.resetDevice k) := by
  unfold State.resetDevice
  extract_lets b keepW _ _ _ _ t
  have kept : Canonical t :=
    ⟨spWf_filter _ hs.ws, spWf_ite (spWf_filter _ hs.hw) (spWf_nil _), spWf_ite hs.stile (spWf_nil _), spWf_ite (spWf_nil _) hs.dram,
      spWf_ite (spWf_nil _) hs.lark, hs.flash, by unfold t; dsimp only; split; exacts [hs.abuf, spWf_nil _], padForm_reset⟩
  exact kept.bankKeep _ _

theorem Canonical.noteCause (live : Bool) (cause : Nat) : Canonical (s.noteCause live cause) :=
  (hs.hwWr _ _).congr

theorem Canonical.execPorN (straps : BitVec 4) : NextCanonical (execPorN straps s) := by
  unfold Machine.execPorN
  extract_lets t
  have reset : Canonical t := hs.resetDevice _
  clear_value t
  exact reset.congr.next

theorem Canonical.execSysrstN : NextCanonical (execSysrstN s) :=
  (((hs.resetDevice _).noteCause _ _).congr).next

theorem Canonical.execDeviceResetAfterResponse : NextCanonical (execDeviceResetAfterResponse s) :=
  (((hs.resetDevice _).noteCause _ _).next).ite hs.next

theorem Canonical.wakeRest (src : Word) : Canonical (s.wakeRest src) :=
  ((((Canonical.foldl hs (fun _ _ h1 => h1.clkenPut _ _)).bset _ _ _).hwWr _ _).setPower _).lowresTrack

theorem Canonical.powAccept (p : PowState) : Canonical (s.powAccept p) :=
  (((hs.hwWr _ _).hwWr _ _).congr).ite (((((hs.hwWr _ _).hwWr _ _).congr).hwWr _ _).powTrack)

theorem Canonical.powRequest (p : PowState) : Canonical (s.powRequest p) :=
  ((((hs.wakeRest _).ite hs).hwWr _ _).evPower).ite (((hs.wakeRest _).ite hs).powAccept _)

theorem Canonical.execPwrctlRun : NextCanonical (execPwrctlRun s) :=
  (hs.ite (hs.powRequest _)).next

theorem Canonical.execPwrctlDim : NextCanonical (execPwrctlDim s) :=
  (hs.ite (hs.powRequest _)).next

theorem Canonical.execPwrctlRest : NextCanonical (execPwrctlRest s) :=
  (hs.ite (hs.powRequest _)).next

theorem Canonical.execPwrctlKeep : NextCanonical (execPwrctlKeep s) :=
  (hs.ite (hs.powRequest _)).next

theorem Canonical.execRestEntry : NextCanonical (execRestEntry s) :=
  NextCanonical.ite (((((Canonical.foldl hs.congr (fun _ _ h1 => h1.clkenPut _ _)).bset _ _ _).setPower _).lowresTrack).next) hs.next

theorem Canonical.padsHold : Canonical s.padsHold :=
  Canonical.foldl hs (fun _ _ h1 => h1.ite ((h1.bset _ _ _).modBank _ _))

theorem Canonical.keepOff (cause : Nat) : Canonical (s.keepOff cause) :=
  ((((hs.padsHold.resetDevice _).noteCause _ _).congr).hwWr _ _).lowresTrack

theorem Canonical.execKeepEntry : NextCanonical (execKeepEntry s) :=
  (((((hs.ledgerSave.padsHold.setPower _).congr).lowresTrack).next).ite ((hs.ledgerSave.keepOff _).next)).ite hs.next

theorem Canonical.execWake (w : WakeSrc) : NextCanonical (execWake w s) := by
  unfold Machine.execWake
  split
  · split
    · exact (hs.wakeRest _).next
    · exact hs.next
  · split
    · exact hs.next.ite (((((hs.resetDevice _).noteCause _ _).hwWr _ _).next).ite ((((hs.congr.hwWr _ _).hwWr _ _).lowresTrack).next))
    · exact hs.next
  · exact hs.next

theorem Canonical.execThermUpdate (t : Byte) : NextCanonical (execThermUpdate t s) :=
  (((hs.hwWr _ _).congr).next).ite ((((((hs.hwWr _ _).congr).hwWr _ _).evPower).next).ite (((hs.hwWr _ _).congr).next))

theorem Canonical.thermPut (v : Word) : Canonical (s.thermPut v) :=
  (hs.hwWr _ _).ite ((hs.hwWr _ _).congr)

theorem Canonical.execThermalTrip : NextCanonical (execThermalTrip s) :=
  hs.next.ite ((((hs.keepOff _).hwWr _ _).congr).next)

theorem Canonical.lockOpen : Canonical s.lockOpen :=
  Canonical.foldl hs (fun _ _ h1 => Canonical.foldl (h1.fset _ _ _ _) (fun _ _ h2 => h2.fset _ _ _ _))

theorem Canonical.execFuseLoad (disagree : BitVec 12) : NextCanonical (execFuseLoad disagree s) :=
  hs.next.ite (((hs.congr.fset _ _ _ _).ite ((hs.congr.fset _ _ _ _).lockOpen)).next)

theorem Canonical.execCaerunoBoot (okA okB : Bool) : NextCanonical (execCaerunoBoot okA okB s) := by
  unfold Machine.execCaerunoBoot
  dsimp only
  split
  · exact hs.next
  · split
    · exact (hs.caerunoRuns _ _).next
    · exact (hs.toDev _ _).next

theorem Canonical.goOn {o : Host.Outcome State Fault Refusal} (ho : NextCanonical o) : Canonical (goOn s o) := by
  cases o with
  | next t => exact ho t rfl
  | fault r => exact hs
  | refused r => exact hs

theorem Canonical.loadStep : Canonical s.loadStep := by
  unfold State.loadStep
  split
  · exact hs
  · split
    · exact hs.loadClear _ (fun _ h1 => h1.loadRead _)
    · split
      · exact hs.icpEnd
      · split
        · exact hs.loadRuns _
        · split
          · exact hs.icpEnd
          · split
            · exact hs.goOn hs.execPad
            · exact hs.goOn hs.execFrames
            · exact hs.goOn hs.execBmem
            · exact hs.goOn hs.execEndRecord
            · exact hs.icpEnd

omit hs in
theorem Canonical.loadAll : ∀ (n : Nat) {s : State}, Canonical s → Canonical (s.loadAll n)
  | 0, _, hs => hs
  | n + 1, _, hs => hs.ite (Canonical.loadAll n hs.loadStep)

theorem Canonical.loadPad (p e : Nat) : Canonical (s.loadPad p e).1 :=
  ((hs.swapStart _ _ _ _).swapFreeze _).loadAll _

omit hs in
theorem Canonical.loadPads : ∀ (l : List (Nat × Nat)) {s : State}, Canonical s → Canonical (s.loadPads l).1
  | [], _, hs => hs
  | (p, e) :: l, _, hs => (Canonical.loadPads l (hs.loadPad p e)).iteFst (hs.loadPad p e)

theorem Canonical.unloadAll (es : List Nat) : Canonical (s.unloadAll es) :=
  Canonical.foldl (Canonical.foldl hs (fun _ _ h1 => (((h1.swapFreeze _).padClear _).bset _ _ _).modPadSame)) (fun _ _ h1 => (h1.bset _ _ _).congr)

theorem Canonical.tryImage (i : Nat) (x : Stream) : Canonical (s.tryImage i x).1 := by
  unfold State.tryImage
  split
  · exact hs
  next k0 _ =>
  extract_lets map room
  split
  · exact hs
  have staged := hs.stageGo (.core 0 0) x (s.imageBytes i) k0 map
  dsimp only
  have loaded := Canonical.loadPads (x.pads.zip (s.stageGo (.core 0 0) x (s.imageBytes i) k0 map).2) staged
  split
  · exact loaded
  · exact loaded.unloadAll _

omit hs in
theorem Canonical.tryImages : ∀ (l : List (Nat × Stream)) {s : State}, Canonical s → Canonical (s.tryImages l).1
  | [], _, hs => hs
  | (i, x) :: l, s, hs => by
    have tried := hs.tryImage i x
    unfold State.tryImages
    dsimp only
    split
    · exact tried
    · exact Canonical.tryImages l tried

theorem Canonical.execFabricLoad : NextCanonical (execFabricLoad s) :=
  hs.next.ite (hs.congr.next.ite (((((hs.tryImages _).congr).enterDev _ _).ite (((hs.tryImages _).congr).enterDev _ _)).next))

theorem Canonical.execCaerunoIntegrityFailure : NextCanonical (execCaerunoIntegrityFailure s) :=
  hs.next.ite ((hs.toSafe _).next)

theorem Canonical.hostLost (m : Mbox) : Canonical (s.hostLost m) :=
  hs.ite ((hs.mbFree _).ite (hs.modMbox _ _))

theorem Canonical.execPciePerstN : NextCanonical (execPciePerstN s) :=
  (Canonical.foldl (hs.congr.hwWr _ _) (fun _ _ h1 => h1.hostLost _)).next

theorem Canonical.execPciePerstNRise : NextCanonical (execPciePerstNRise s) :=
  hs.congr.next

/-! ### Machine/HostWin -/

theorem Canonical.badWrite : Canonical s.badWrite :=
  (hs.hwWr _ _).evHost

theorem Canonical.apFault : Canonical s.apFault :=
  (hs.hwWr _ _).evHost

theorem Canonical.hostTouch (off : Nat) : Canonical (s.hostTouch off) :=
  (hs.ite (hs.wr _ _)).ite (hs.hwWr _ _)

theorem Canonical.pendTrack (k : Nat) : Canonical (s.pendTrack k) :=
  hs.congr

theorem Canonical.hostPut (off : Nat) (v : Word) : Canonical (s.hostPut off v) :=
  (hs.mbctlPut _ _ _).ite ((hs.ite (hs.fset _ _ _ _)).ite
    ((hs.powRequest _).ite ((hs.thermPut _).ite ((hs.hwWr _ _).when (fun h1 => h1.pendTrack _)))))

theorem Canonical.bar0Read (off size : Nat) : Canonical (s.bar0Read off size) :=
  Canonical.foldl hs.congr (fun _ _ h1 => (h1.hostTouch _).ite h1)

theorem Canonical.msixPut (i : Nat) (v : BitVec 32) : Canonical (s.msixPut i v) :=
  hs.congr

theorem Canonical.bar0Write (off size : Nat) (v : BitVec 64) : Canonical (s.bar0Write off size v) :=
  ((hs.hostPut _ _).ite hs.badWrite).ite (((hs.msixPut _ _).ite (((hs.msixPut _ _).msixPut _ _).ite hs)).ite hs)

theorem Canonical.msixCtlPut (v : BitVec 32) : Canonical (s.msixCtlPut v) :=
  hs.congr

theorem Canonical.execMsixMessage (n : Fin 64) : NextCanonical (execMsixMessage n s) :=
  hs.congr.next.ite hs.next

theorem Canonical.wakeHostFor : Canonical s.wakeHostFor :=
  (hs.wakeRest _).ite hs

theorem Canonical.apAnswer (d : List Byte) (poison : Bool) : Canonical (s.apAnswer d poison) :=
  hs.congr

omit hs in
theorem Canonical.apRead : ∀ (l : List Nat) {s : State}, Canonical s → Canonical (s.apRead l).2.2
  | [], _, hs => hs
  | _ :: l, _, hs => Canonical.apRead l (hs.busRead _ _ _ _)

theorem Canonical.execApertureRead (off : BitVec 36) (len : Nat) : NextCanonical (execApertureRead off len s) := by
  unfold Machine.execApertureRead
  dsimp only
  split
  · exact hs.next
  · split
    · exact (hs.wakeHostFor.directRead _ _ _).next
    · exact ((hs.larkLoad _ _).apAnswer _ _).next
    · exact ((hs.apRead _).apAnswer _ _).next
    · exact (hs.apFault.apAnswer _ _).next

theorem Canonical.apWrite (a : Nat) (v : BitVec 32) : Canonical (s.apWrite a v) :=
  hs.apFault.ite (hs.busWrite _ _ _)

theorem Canonical.execApertureWrite (off : BitVec 36) (d : List Byte) : NextCanonical (execApertureWrite off d s) := by
  unfold Machine.execApertureWrite
  dsimp only
  split
  · exact hs.next
  · split
    · exact (hs.wakeHostFor.queueWrite _ _ _).next
    · exact (hs.larkStore _ _).next
    · exact ((hs.apWrite _ _).next).ite hs.apFault.next
    · exact hs.apFault.next

/-! ### Machine/Stile -/

theorem Canonical.selectIr (i : ScanIr) : Canonical (s.selectIr i) :=
  hs.ite hs.congr

theorem Canonical.execBypass : NextCanonical (execBypass s) :=
  (hs.selectIr _).next

theorem Canonical.execIdcode : NextCanonical (execIdcode s) :=
  (hs.selectIr _).next

theorem Canonical.preload (bits : List Bool) : Canonical (s.preload bits) :=
  hs.congr

theorem Canonical.execSamplePreload (bits : List Bool) : NextCanonical (execSamplePreload bits s) :=
  (hs.ite ((hs.selectIr _).preload _)).next

theorem Canonical.pinsScanned : Canonical s.pinsScanned :=
  Canonical.foldl hs (fun _ _ h1 => (h1.drawWords _).modBank _ _)

theorem Canonical.execExtest (bits : List Bool) : NextCanonical (execExtest bits s) :=
  (hs.ite ((((hs.selectIr _).preload _).pinsScanned).ite (hs.selectIr _))).next

theorem Canonical.execClamp : NextCanonical (execClamp s) :=
  (hs.ite (((hs.selectIr _).pinsScanned).ite (hs.selectIr _))).next

theorem Canonical.coreHalt (k : Core) : Canonical (s.coreHalt k) :=
  hs.bset _ _ _

theorem Canonical.coreResume (k : Core) : Canonical (s.coreResume k) :=
  ((hs.bset _ _ _).reload _).ite hs

theorem Canonical.freeze (frz : Word) (pads : Nat) : Canonical (s.freeze frz pads) := by
  unfold State.freeze
  extract_lets s1 s2 s3
  have halted : Canonical s2 := (hs.when fun h => h.coreHalt 0).when fun h => h.coreHalt 1
  have timed : Canonical s3 := halted.when fun h => Canonical.lowresTrack h.congr
  have marked := timed.setPads (v := Vector.ofFn fun p => if pads.testBit p.val then { s3.pads[p] with freezing := true } else s3.pads[p]) fun p => by
    have kept : PadForm s3.pads[p] := timed.pads p
    simp only [Fin.getElem_fin, Vector.getElem_ofFn]
    exact PadForm.ite ⟨kept.1, kept.2⟩ kept
  clear_value s3
  exact marked.congr

theorem Canonical.resumeAll : Canonical s.resumeAll := by
  unfold State.resumeAll
  extract_lets s1 _ _ _ s2
  have resumed : Canonical s1 := (hs.coreResume 0).coreResume 1
  have thawed := resumed.setPads (v := s1.pads.map fun x => { x with frozen := false, freezing := false }) fun p => by
    have kept : PadForm s1.pads[p] := resumed.pads p
    simpa [PadForm] using kept
  have cleared : Canonical s2 := thawed.congr
  exact (Canonical.foldl cleared fun _ _ h => h.headRelease _).lowresTrack

theorem Canonical.coreAbort (k : Core) : Canonical (s.coreAbort k) :=
  hs.ite (Canonical.foldl (hs.seqEnd _ _) (fun _ _ h1 => ((h1.mbFree _).evMbox _).ite h1))

theorem Canonical.coreStep (k : Core) : Canonical (s.coreStep k) :=
  hs.ite ((hs.draw.modCore _ _).ite (((hs.draw.modCore _ _).watchdogFire _).ite ((hs.draw.modCore _ _).setLeft _ _)))

theorem Canonical.haltPut (v : Word) : Canonical (s.haltPut v) := by
  unfold State.haltPut
  extract_lets s1 s2 s3 s4 s5 s6
  have h1 : Canonical s1 := hs.when fun h => h.coreHalt _
  have h2 : Canonical s2 := h1.when fun h => h.coreHalt _
  have h3 : Canonical s3 := h2.when fun h => h.coreAbort _
  have h4 : Canonical s4 := h3.when fun h => h.coreAbort _
  have h5 : Canonical s5 := h4.when fun h => h.coreStep _
  have h6 : Canonical s6 := h5.when fun h => h.coreStep _
  exact h6.when fun h => h.resumeAll

theorem Canonical.ctxhaltPut (v : Word) : Canonical (s.ctxhaltPut v) := by
  unfold State.ctxhaltPut
  dsimp only
  split
  · exact hs
  · split
    · exact hs.modCtx _ _
    · exact hs.modCtx _ _
    · exact hs

theorem Canonical.authPut (i : Nat) (d : List Byte) : Canonical (s.authPut i d) :=
  { hs with abuf := spWf_spWrite _ _ _ _ (spWf_nil _) }

theorem Canonical.sessionEnd : Canonical s.sessionEnd := by
  unfold State.sessionEnd
  extract_lets s1 s2 s3 s4
  have disarmed : Canonical s2 := Canonical.foldl hs.resumeAll fun _ _ h => Canonical.foldl h fun _ _ h => h.fset _ _ _ _
  have closed : Canonical s4 := ((((disarmed.stWr _ _).stWr _ _).stWr _ _).stWr _ _).stWr _ _
  clear_value s4
  exact closed.congr

theorem Canonical.chalPut (nonce : BitVec 384) : Canonical (s.chalPut nonce) := by
  unfold State.chalPut
  extract_lets t
  have put : Canonical t := hs.authPut _ _
  clear_value t
  exact put.congr

theorem Canonical.verifyPut : Canonical s.verifyPut :=
  hs.ite ((hs.stWr _ _).congr)

theorem Canonical.verifyEnd : Canonical s.verifyEnd := by
  unfold State.verifyEnd
  extract_lets c _ t0 t lvl w _ u v
  have opened : Canonical t0 := hs.congr
  have coded : Canonical t := opened.stWr _ _
  have leveled : Canonical w := coded.stWr _ _
  have counted : Canonical v := coded.sessionEnd.stWr _ _
  clear_value t v
  exact leveled.congr.ite counted.congr

theorem Canonical.execVerifyComplete : NextCanonical (execVerifyComplete s) :=
  hs.verifyEnd.next.ite hs.next

theorem Canonical.bmNext : Canonical s.bmNext :=
  hs.ite ((hs.stWr _ _).ite ((hs.stWr _ _).stWr _ _))

theorem Canonical.bmFault : Canonical s.bmFault :=
  hs.stWr _ _

theorem Canonical.bmDataAccess (w : Option Word) : Canonical (s.bmDataAccess w).2 := by
  unfold State.bmDataAccess
  dsimp only
  split
  · split
    · exact hs.bmFault.bmNext
    · split
      · exact ((hs.stWr _ _).directRead _ _ _).bmNext
      · exact (hs.queueWrite _ _ _).bmNext
  · split
    · exact (hs.busRead _ _ _ _).bmNext
    · exact (hs.busWrite _ _ _).bmNext

theorem Canonical.abufNext : Canonical s.abufNext :=
  hs.stWr _ _

theorem Canonical.abufPut (v : Word) : Canonical (s.abufPut v) := by
  have put : Canonical { s with stile := { s.stile with abuf := spSet zeroW s.stile.abuf (fld (s.stRd 0x02) 7 0) v } } :=
    { hs with abuf := spWf_spSet _ _ _ hs.abuf }
  exact (put.ite hs).abufNext

theorem Canonical.trPop : Canonical (s.trPop).2 := by
  unfold State.trPop
  split
  · exact hs.congr
  · exact hs

theorem Canonical.vtinPut (v : Word) : Canonical (s.vtinPut v) :=
  (hs.stWr _ _).ite ((hs.stWr _ _).congr)

theorem Canonical.vtoutTake : Canonical (s.vtoutTake).2 :=
  hs.stWr _ _

theorem Canonical.stGet (n : Nat) : Canonical (s.stGet n).2 := by
  unfold State.stGet
  split
  · exact hs
  · exact hs.abufNext
  · exact (hs.bmDataAccess _).stWr _ _
  · exact hs
  · exact hs
  · exact hs.stWr _ _
  · exact hs.trPop
  · exact hs.vtoutTake
  · exact hs.stWr _ _

theorem Canonical.sessPut (v : Word) : Canonical (s.sessPut v) :=
  ((hs.sessionEnd.ite hs).when (fun h1 => (h1.drawWords _).chalPut _)).when (fun h1 => h1.verifyPut)

theorem Canonical.stPut (n : Nat) (v : Word) : Canonical (s.stPut n v) := by
  unfold State.stPut
  split
  · exact hs.sessPut _
  · exact hs.abufPut _
  · exact (hs.stWr _ _).bmDataAccess _
  · exact hs.haltPut _
  · exact (hs.stWr _ _).freeze _ _
  · exact (hs.stWr _ _).freeze _ _
  · exact hs.ctxhaltPut _
  · exact hs.vtinPut _
  · exact hs.stWr _ _

theorem Canonical.stAnswer (ack : BitVec 3) (d : Option Word) : Canonical (s.stAnswer ack d) := by
  unfold State.stAnswer
  split
  · exact hs.congr
  · exact hs.congr

theorem Canonical.stAccess (n : Nat) (w : Option Word) : Canonical (s.stAccess n w) := by
  unfold State.stAccess
  split
  · exact hs.stAnswer _ _
  · split
    · exact hs.stAnswer _ _
    · split
      · exact (hs.stPut _ _).stAnswer _ _
      · exact (hs.stGet _).stAnswer _ _

theorem Canonical.dpUpdate (w : BitVec 32) : Canonical (s.dpUpdate w) :=
  hs.stAccess _ _

theorem Canonical.execDpacc (w : BitVec 32) : NextCanonical (execDpacc w s) :=
  (hs.ite ((hs.selectIr _).dpUpdate _)).next

theorem Canonical.execTwoWireTransaction (w : BitVec 32) (par : Bool) : NextCanonical (execTwoWireTransaction w par s) :=
  (hs.ite ((hs.stAnswer _ _).ite (hs.dpUpdate _))).next

theorem Canonical.portReset : Canonical s.portReset := by
  unfold State.portReset
  extract_lets t
  have ended : Canonical t := hs.sessionEnd
  clear_value t
  exact ended.congr

theorem Canonical.execTwoWireReset : NextCanonical (execTwoWireReset s) :=
  (hs.portReset.ite hs).next

theorem Canonical.execTrstN : NextCanonical (execTrstN s) :=
  (hs.ite hs.portReset).next

theorem Canonical.execChal (nonce : BitVec 384) : NextCanonical (execChal nonce s) :=
  (hs.chalPut _).next

theorem Canonical.execVerify : NextCanonical (execVerify s) :=
  hs.verifyPut.next

theorem Canonical.execLogout : NextCanonical (execLogout s) :=
  hs.sessionEnd.next

theorem Canonical.execAbufdAccess (w : Option Word) : NextCanonical (execAbufdAccess w s) :=
  (hs.stAccess _ _).next

theorem Canonical.execBmdataAccess (w : Option Word) : NextCanonical (execBmdataAccess w s) :=
  (hs.stAccess _ _).next

theorem Canonical.execHalt (k : Core) : NextCanonical (execHalt k s) :=
  (hs.stAccess _ _).next

theorem Canonical.execResume : NextCanonical (execResume s) :=
  (hs.stAccess _ _).next

theorem Canonical.execStep (k : Core) : NextCanonical (execStep k s) :=
  (hs.stAccess _ _).next

theorem Canonical.execAbort (k : Core) : NextCanonical (execAbort k s) :=
  (hs.stAccess _ _).next

theorem Canonical.execContextHalt (c : Ctx) : NextCanonical (execContextHalt c s) :=
  (hs.stAccess _ _).next

theorem Canonical.execContextResume (c : Ctx) : NextCanonical (execContextResume c s) :=
  (hs.stAccess _ _).next

theorem Canonical.execContextStep (c : Ctx) : NextCanonical (execContextStep c s) :=
  (hs.stAccess _ _).next

theorem Canonical.execFreeze (frz frzpad : Word) : NextCanonical (execFreeze frz frzpad s) :=
  ((hs.stAccess _ _).stAccess _ _).next

theorem Canonical.execCrossTrigger (x : XtSource) : NextCanonical (execCrossTrigger x s) := by
  unfold Machine.execCrossTrigger
  extract_lets t
  have frozen : Canonical t := hs.freeze _ _
  clear_value t
  exact frozen.congr.next.ite hs.next

theorem Canonical.execTrdataRead : NextCanonical (execTrdataRead s) :=
  (hs.stAccess _ _).next

theorem Canonical.execVtinWrite (v : Word) : NextCanonical (execVtinWrite v s) :=
  (hs.stAccess _ _).next

theorem Canonical.execVtoutRead : NextCanonical (execVtoutRead s) :=
  (hs.stAccess _ _).next

/-! ### Machine/Access -/

theorem Canonical.bpHalt (k : Core) (c : Ctx) : Canonical (s.bpHalt k c) :=
  (hs.modCtx _ _).ite (hs.coreHalt _)

theorem Canonical.bpFire (k : Core) (c : Ctx) (i : Nat) : Canonical (s.bpFire k c i) :=
  (hs.bset _ _ _).when (fun h1 => h1.bpHalt _ _)

theorem Canonical.bpCheck (k : Core) (c : Ctx) (acc : Access) (d : Word) (behind : List (Nat × Nat × Nat × Word)) : Canonical
    (s.bpCheck k c acc d behind) :=
  ((Canonical.foldl hs (fun _ _ h1 => h1.bpFire _ _ _)).traceOne _).congr

theorem Canonical.fetchLost (k : Core) (c : Ctx) (a : Nat) : Canonical (s.fetchLost k c a) :=
  ((hs.coreReset _).when (fun h1 => h1.takeOver _)).ite (hs.accessFault _ _)

theorem Canonical.fetch (k : Core) (c : Ctx) (a : Nat) (e : MemErr) : Canonical (s.fetch k c a e) := by
  unfold State.fetch
  split
  · exact hs.accessFault _ _
  · split
    · exact ((hs.readCheck _ _ _).fetchLost _ _ _).ite ((hs.readCheck _ _ _).answer _)
    · exact hs.busRead _ _ _ _

theorem Canonical.execWardenAccess (k : Core) (c : Ctx) (acc : Access) (e : MemErr) : NextCanonical (execWardenAccess k c acc e s) := by
  unfold Machine.execWardenAccess
  dsimp only
  split
  · exact hs.next
  · split
    · exact ((hs.fetch _ _ _ _).bpCheck _ _ _ _ _).next
    · exact ((hs.busRead _ _ _ _).bpCheck _ _ _ _ _).next
    · exact (((hs.busWrite _ _ _).ite hs.congr).bpCheck _ _ _ _ _).next

theorem Canonical.execRegisterWrite (t : RegTarget) (v : BitVec 64) : NextCanonical (execRegisterWrite t v s) := by
  unfold Machine.execRegisterWrite
  split
  · exact (hs.busWrite _ _ _).next
  · exact (hs.ite (hs.bar0Write _ _ _)).next
  · exact (hs.ite (hs.msixCtlPut _)).next
  · exact (hs.stAccess _ _).next

theorem Canonical.execRcRead (t : RegTarget) : NextCanonical (execRcRead t s) := by
  unfold Machine.execRcRead
  split
  · exact (hs.busRead _ _ _ _).next
  · exact (hs.ite (hs.bar0Read _ _)).next
  · exact hs.next
  · exact (hs.stAccess _ _).next

/-! ### Machine/Tick -/

theorem Canonical.watchdogTick (k : Core) : Canonical (s.watchdogTick k) :=
  ((hs.watchdogFire _).ite (hs.setLeft _ _)).ite hs

theorem Canonical.keyTick (k : Core) : Canonical (s.keyTick k) :=
  hs.ite ((hs.seqEnd _ _).ite (hs.modCore _ _))

theorem Canonical.foldTick : Canonical s.foldTick :=
  hs.congr

theorem Canonical.tick : Canonical s.tick :=
  hs.ite ((hs.congr.foldTick.ite (((((hs.congr.foldTick.watchdogTick _).watchdogTick _).keyTick _).keyTick _).remapDue)).when
    (fun h1 => h1.fabricEdge.traceProbes))

/-! ### Machine/Fabric -/

theorem Canonical.toEdge : Canonical s.toEdge :=
  hs.tick.ite hs.tick.tick

theorem Canonical.freshCycle (p : Pad) (k : Nat) : Canonical (s.freshCycle p k) :=
  hs.toEdge.ite hs

theorem Canonical.runOp (p : Pad) (n : Cell) (op : Nat) (f : State → Opnd → CellSt) : Canonical (s.runOp p n op f) :=
  ((hs.freshCycle _ _).cellPut _ _ _).ite hs

theorem Canonical.execHold (p : Pad) (n : Cell) : NextCanonical (execHold p n s) :=
  (hs.runOp _ _ _ _).next

theorem Canonical.execPass (p : Pad) (n : Cell) : NextCanonical (execPass p n s) :=
  (hs.runOp _ _ _ _).next

theorem Canonical.execAdd (p : Pad) (n : Cell) : NextCanonical (execAdd p n s) :=
  (hs.runOp _ _ _ _).next

theorem Canonical.execSub (p : Pad) (n : Cell) : NextCanonical (execSub p n s) :=
  (hs.runOp _ _ _ _).next

theorem Canonical.execLogic (p : Pad) (n : Cell) : NextCanonical (execLogic p n s) :=
  (hs.runOp _ _ _ _).next

theorem Canonical.execCmp (p : Pad) (n : Cell) : NextCanonical (execCmp p n s) :=
  (hs.runOp _ _ _ _).next

theorem Canonical.execShl (p : Pad) (n : Cell) : NextCanonical (execShl p n s) :=
  (hs.runOp _ _ _ _).next

theorem Canonical.execShr (p : Pad) (n : Cell) : NextCanonical (execShr p n s) :=
  (hs.runOp _ _ _ _).next

theorem Canonical.execSar (p : Pad) (n : Cell) : NextCanonical (execSar p n s) :=
  (hs.runOp _ _ _ _).next

theorem Canonical.execRol (p : Pad) (n : Cell) : NextCanonical (execRol p n s) :=
  (hs.runOp _ _ _ _).next

theorem Canonical.execSelc (p : Pad) (n : Cell) : NextCanonical (execSelc p n s) :=
  (hs.runOp _ _ _ _).next

theorem Canonical.execMinu (p : Pad) (n : Cell) : NextCanonical (execMinu p n s) :=
  (hs.runOp _ _ _ _).next

theorem Canonical.execMaxu (p : Pad) (n : Cell) : NextCanonical (execMaxu p n s) :=
  (hs.runOp _ _ _ _).next

theorem Canonical.execMins (p : Pad) (n : Cell) : NextCanonical (execMins p n s) :=
  (hs.runOp _ _ _ _).next

theorem Canonical.execMaxs (p : Pad) (n : Cell) : NextCanonical (execMaxs p n s) :=
  (hs.runOp _ _ _ _).next

theorem Canonical.execAddsu (p : Pad) (n : Cell) : NextCanonical (execAddsu p n s) :=
  (hs.runOp _ _ _ _).next

theorem Canonical.execAddss (p : Pad) (n : Cell) : NextCanonical (execAddss p n s) :=
  (hs.runOp _ _ _ _).next

theorem Canonical.execSubsu (p : Pad) (n : Cell) : NextCanonical (execSubsu p n s) :=
  (hs.runOp _ _ _ _).next

theorem Canonical.execSubss (p : Pad) (n : Cell) : NextCanonical (execSubss p n s) :=
  (hs.runOp _ _ _ _).next

theorem Canonical.execSatu (p : Pad) (n : Cell) : NextCanonical (execSatu p n s) :=
  (hs.runOp _ _ _ _).next

theorem Canonical.execSats (p : Pad) (n : Cell) : NextCanonical (execSats p n s) :=
  (hs.runOp _ _ _ _).next

theorem Canonical.execMulu (p : Pad) (n : Cell) : NextCanonical (execMulu p n s) :=
  (hs.runOp _ _ _ _).next

theorem Canonical.execMuls (p : Pad) (n : Cell) : NextCanonical (execMuls p n s) :=
  (hs.runOp _ _ _ _).next

theorem Canonical.execMacu (p : Pad) (n : Cell) : NextCanonical (execMacu p n s) :=
  (hs.runOp _ _ _ _).next

theorem Canonical.execMacs (p : Pad) (n : Cell) : NextCanonical (execMacs p n s) :=
  (hs.runOp _ _ _ _).next

theorem Canonical.execGmux (p : Pad) (n : Cell) : NextCanonical (execGmux p n s) :=
  (hs.runOp _ _ _ _).next

theorem Canonical.execCellReset (p : Pad) (n : Cell) : NextCanonical (execCellReset p n s) :=
  (((hs.freshCycle _ _).cellPut _ _ _).next).ite hs.next

theorem Canonical.execCeHold (p : Pad) (n : Cell) : NextCanonical (execCeHold p n s) :=
  (((hs.freshCycle _ _).cellPut _ _ _).next).ite hs.next

theorem Canonical.execBlockMemoryAccess (p : Pad) (m : Fin 96) (k : Fin 2) (e : MemErr) : NextCanonical (execBlockMemoryAccess p m k e s) :=
  (((hs.freshCycle _ _).bmAccess _ _ _ _).next).ite hs.next

theorem Canonical.execMemoryPortRequest (p : Pad) (k : Fin 2) : NextCanonical (execMemoryPortRequest p k s) :=
  ((((hs.freshCycle _ _).portRequest _ _).didAct _ _).next).ite hs.next

theorem Canonical.execMemoryPortReadData (p : Pad) (k : Fin 2) : NextCanonical (execMemoryPortReadData p k s) :=
  ((((hs.freshCycle _ _).portData _ _).didAct _ _).next).ite hs.next

theorem Canonical.execMemoryPortWriteWord (p : Pad) (k : Fin 2) : NextCanonical (execMemoryPortWriteWord p k s) :=
  ((((hs.freshCycle _ _).portWrite _ _).didAct _ _).next).ite hs.next

theorem Canonical.execTapReturn (p : Pad) : NextCanonical (execTapReturn p s) := by
  unfold Machine.execTapReturn
  dsimp only
  split
  · exact ((((hs.freshCycle _ _).tapTake _ _ _ _).didAct _ _).next).ite hs.next
  · exact hs.next

theorem Canonical.execConfigLoad : NextCanonical (execConfigLoad s) := by
  unfold Machine.execConfigLoad
  split
  · exact (((hs.toEdge.ite hs).loadBegin _).next).ite hs.next
  · exact hs.next

/-! ### Machine/Dispatch -/

theorem Canonical.exec (i : Instr) : NextCanonical (exec i s) :=
  match i with
  | .beamAdvance _ => hs.execBeamAdvance _
  | .lineStrobe _ => hs.execLineStrobe _
  | .frameStrobe _ => hs.execFrameStrobe _
  | .hblankStrobe _ => hs.execHblankStrobe _
  | .vblankStrobe _ => hs.execVblankStrobe _
  | .hsyncStrobe _ => hs.execHsyncStrobe _
  | .vsyncStrobe _ => hs.execVsyncStrobe _
  | .headStart _ => hs.execHeadStart _
  | .headStop _ => hs.execHeadStop _
  | .pllLock _ => hs.execPllLock _
  | .rasterStop _ => hs.execRasterStop _
  | .referenceTimeout _ => hs.execReferenceTimeout _
  | .genlockIn => hs.execGenlockIn
  | .qpPost _ _ => hs.execQpPost _ _
  | .qpCancel _ _ => hs.execQpCancel _ _
  | .paddockPost _ => hs.execPaddockPost _
  | .paddockCancel _ => hs.execPaddockCancel _
  | .mark _ => hs.execMark _
  | .write _ => hs.execWrite _
  | .palswap _ => hs.execPalswap _
  | .voice _ => hs.execVoice _
  | .timer _ => hs.execTimer _
  | .pin _ => hs.execPin _
  | .strobe _ => hs.execStrobe _
  | .swap _ => hs.execSwap _
  | .slotWrite _ _ _ _ => hs.execSlotWrite _ _ _ _
  | .cinv _ _ _ => hs.execCinv _ _ _
  | .nslotWrite _ _ _ => hs.execNslotWrite _ _ _
  | .engineLineBegin _ _ => hs.execEngineLineBegin _ _
  | .occlusionDelivery _ => hs.execOcclusionDelivery _
  | .objectEvaluation _ => hs.execObjectEvaluation _
  | .lineDeadline _ => hs.execLineDeadline _
  | .composeLine _ => hs.execComposeLine _
  | .tapTransfer _ => hs.execTapTransfer _
  | .tapReturn _ => hs.execTapReturn _
  | .tapctlWrite _ _ _ => hs.execTapctlWrite _ _ _
  | .signatureRecordWrite _ => hs.execSignatureRecordWrite _
  | .outputEnable _ => hs.execOutputEnable _
  | .outputDisable _ => hs.execOutputDisable _
  | .laneShort _ _ => hs.execLaneShort _ _
  | .hpdRise _ _ => hs.execHpdRise _ _
  | .unplug _ => hs.execUnplug _
  | .dramTraining _ _ => hs.execDramTraining _ _
  | .dramReadRequest _ _ => hs.execDramReadRequest _ _
  | .dramReadIssue _ => hs.execDramReadIssue _
  | .dramReadComplete _ _ => hs.execDramReadComplete _ _
  | .dramWriteRequest _ _ _ => hs.execDramWriteRequest _ _ _
  | .writeQueueDrain _ => hs.execWriteQueueDrain _
  | .refresh _ _ _ => hs.execRefresh _ _ _
  | .drcfgWrite _ _ => hs.execDrcfgWrite _ _
  | .tagresWrite _ _ => hs.execTagresWrite _ _
  | .shareWrite _ _ => hs.execShareWrite _ _
  | .eccRegionEnable _ _ _ => hs.execEccRegionEnable _ _ _
  | .hold _ _ => hs.execHold _ _
  | .pass _ _ => hs.execPass _ _
  | .add _ _ => hs.execAdd _ _
  | .sub _ _ => hs.execSub _ _
  | .logic _ _ => hs.execLogic _ _
  | .cmp _ _ => hs.execCmp _ _
  | .shl _ _ => hs.execShl _ _
  | .shr _ _ => hs.execShr _ _
  | .sar _ _ => hs.execSar _ _
  | .rol _ _ => hs.execRol _ _
  | .selc _ _ => hs.execSelc _ _
  | .minu _ _ => hs.execMinu _ _
  | .maxu _ _ => hs.execMaxu _ _
  | .mins _ _ => hs.execMins _ _
  | .maxs _ _ => hs.execMaxs _ _
  | .addsu _ _ => hs.execAddsu _ _
  | .addss _ _ => hs.execAddss _ _
  | .subsu _ _ => hs.execSubsu _ _
  | .subss _ _ => hs.execSubss _ _
  | .satu _ _ => hs.execSatu _ _
  | .sats _ _ => hs.execSats _ _
  | .mulu _ _ => hs.execMulu _ _
  | .muls _ _ => hs.execMuls _ _
  | .macu _ _ => hs.execMacu _ _
  | .macs _ _ => hs.execMacs _ _
  | .gmux _ _ => hs.execGmux _ _
  | .cellReset _ _ => hs.execCellReset _ _
  | .ceHold _ _ => hs.execCeHold _ _
  | .blockMemoryAccess _ _ _ _ => hs.execBlockMemoryAccess _ _ _ _
  | .memoryPortRequest _ _ => hs.execMemoryPortRequest _ _
  | .memoryPortReadData _ _ => hs.execMemoryPortReadData _ _
  | .memoryPortWriteWord _ _ => hs.execMemoryPortWriteWord _ _
  | .wardensBusAccess _ _ _ => hs.execWardensBusAccess _ _ _
  | .wardensBusAck _ => hs.execWardensBusAck _
  | .wardensBusTimeout _ => hs.execWardensBusTimeout _
  | .srst _ _ => hs.execSrst _ _
  | .clkenWrite _ _ _ => hs.execClkenWrite _ _ _
  | .probeSelect _ _ _ _ => hs.execProbeSelect _ _ _ _
  | .load _ _ _ => hs.execLoad _ _ _
  | .rewrite _ _ _ => hs.execRewrite _ _ _
  | .read _ _ _ => hs.execRead _ _ _
  | .icpOperationComplete => hs.execIcpOperationComplete
  | .configLoad => hs.execConfigLoad
  | .pad => hs.execPad
  | .frames => hs.execFrames
  | .bmem => hs.execBmem
  | .endRecord => hs.execEndRecord
  | .loadComplete => hs.execLoadComplete
  | .imageEntryWrite _ _ _ _ => hs.execImageEntryWrite _ _ _ _
  | .gleanerRound _ => hs.execGleanerRound _
  | .heartbeatTimeout => hs.execHeartbeatTimeout
  | .grst _ => hs.execGrst _
  | .samplePeriod => hs.execSamplePeriod
  | .keyOn _ _ => hs.execKeyOn _ _
  | .keyOff _ _ => hs.execKeyOff _ _
  | .voiceStop _ _ => hs.execVoiceStop _ _
  | .larkBlock => hs.execLarkBlock
  | .lctlWrite _ _ => hs.execLctlWrite _ _
  | .lmdataAccess _ _ => hs.execLmdataAccess _ _
  | .wardenAccess _ _ _ _ => hs.execWardenAccess _ _ _ _
  | .peerTakeover _ => hs.execPeerTakeover _
  | .coreRejoin _ => hs.execCoreRejoin _
  | .watchdogExpiry _ => hs.execWatchdogExpiry _
  | .kick _ => hs.execKick _
  | .wdcfgUnlock _ _ => hs.execWdcfgUnlock _ _
  | .keySequenceLapse _ => hs.execKeySequenceLapse _
  | .peerrst _ => hs.execPeerrst _
  | .budgetExhausted _ => hs.execBudgetExhausted _
  | .budgetWindow => hs.execBudgetWindow
  | .serviceTrap _ _ _ => hs.execServiceTrap _ _ _
  | .claim _ _ => hs.execClaim _ _
  | .post _ _ => hs.execPost _ _
  | .release _ _ => hs.execRelease _ _
  | .claimExpiry _ => hs.execClaimExpiry _
  | .ident _ => hs.execIdent _
  | .status _ => hs.execStatus _
  | .seqsync _ => hs.execSeqsync _
  | .setstate _ => hs.execSetstate _
  | .reset _ => hs.execReset _
  | .deviceResetAfterResponse => hs.execDeviceResetAfterResponse
  | .fwput _ => hs.execFwput _
  | .fwboot _ _ => hs.execFwboot _ _
  | .headcfg _ => hs.execHeadcfg _
  | .headrun _ => hs.execHeadrun _
  | .creg _ => hs.execCreg _
  | .dptrain _ _ => hs.execDptrain _ _
  | .auxRead _ _ => hs.execAuxRead _ _
  | .auxWrite _ => hs.execAuxWrite _
  | .wread _ => hs.execWread _
  | .wwrite _ => hs.execWwrite _
  | .qpost _ => hs.execQpost _
  | .qcancel _ => hs.execQcancel _
  | .grantOn _ => hs.execGrantOn _
  | .grantOff _ => hs.execGrantOff _
  | .grantlist _ => hs.execGrantlist _
  | .stage _ => hs.execStage _
  | .unstage _ => hs.execUnstage _
  | .pload _ => hs.execPload _
  | .ploadTimed _ => hs.execPloadTimed _
  | .gleanreqRewrite _ => hs.execGleanreqRewrite _
  | .gleanreqReload _ => hs.execGleanreqReload _
  | .bind _ => hs.execBind _
  | .arbraise _ => hs.execArbraise _
  | .famkey _ => hs.execFamkey _
  | .revoke _ => hs.execRevoke _
  | .attkey _ _ => hs.execAttkey _ _
  | .flashinfo _ => hs.execFlashinfo _
  | .flashwrite _ _ => hs.execFlashwrite _ _
  | .flashblk _ => hs.execFlashblk _
  | .flashdir _ => hs.execFlashdir _
  | .fwstage _ _ => hs.execFwstage _ _
  | .fwrelay _ => hs.execFwrelay _
  | .relayTimeout _ => hs.execRelayTimeout _
  | .splitget _ => hs.execSplitget _
  | .splitset _ => hs.execSplitset _
  | .appload _ => hs.execAppload _
  | .appctlStart _ => hs.execAppctlStart _
  | .appctlStop _ => hs.execAppctlStop _
  | .appctlUnload _ => hs.execAppctlUnload _
  | .appctlRestart _ => hs.execAppctlRestart _
  | .appstat _ => hs.execAppstat _
  | .ledger _ => hs.execLedger _
  | .forwardTimeout _ => hs.execForwardTimeout _
  | .pageRebuild _ _ => hs.execPageRebuild _ _
  | .remap _ _ => hs.execRemap _ _
  | .logClear _ _ => hs.execLogClear _ _
  | .checkerTest _ => hs.execCheckerTest _
  | .rotation => hs.execRotation
  | .selfTestComplete _ => hs.execSelfTestComplete _
  | .bankcfgWrite _ _ _ => hs.execBankcfgWrite _ _ _
  | .holdrel _ _ => hs.execHoldrel _ _
  | .pgoodFall _ => hs.execPgoodFall _
  | .pgoodRise _ _ => hs.execPgoodRise _ _
  | .pincfgWrite _ _ _ _ => hs.execPincfgWrite _ _ _ _
  | .outWrite _ _ _ => hs.execOutWrite _ _ _
  | .oset _ _ _ => hs.execOset _ _ _
  | .oclr _ _ _ => hs.execOclr _ _ _
  | .otgl _ _ _ => hs.execOtgl _ _ _
  | .pinInput _ _ _ => hs.execPinInput _ _ _
  | .debounce _ _ => hs.execDebounce _ _
  | .contention _ _ => hs.execContention _ _
  | .openProbe _ _ => hs.execOpenProbe _ _
  | .openProbeDone _ _ _ => hs.execOpenProbeDone _ _ _
  | .timerStart _ _ => hs.execTimerStart _ _
  | .timerStop _ _ => hs.execTimerStop _ _
  | .timerReloadAndStart _ _ => hs.execTimerReloadAndStart _ _
  | .tick _ => hs.execTick _
  | .capture _ => hs.execCapture _
  | .tcapRead _ _ => hs.execTcapRead _ _
  | .tcntRead _ _ => hs.execTcntRead _ _
  | .lowresStep _ => hs.execLowresStep _
  | .linkEnable _ _ => hs.execLinkEnable _ _
  | .linkDisable _ _ => hs.execLinkDisable _ _
  | .ts _ _ _ => hs.execTs _ _ _
  | .align _ _ _ => hs.execAlign _ _ _
  | .alignSend _ => hs.execAlignSend _
  | .idle g blk => hs.execIdle g blk
  | .laneLockTimeout _ => hs.execLaneLockTimeout _
  | .trainTimeout _ => hs.execTrainTimeout _
  | .trainRetry _ => hs.execTrainRetry _
  | .txShort _ _ => hs.execTxShort _ _
  | .shortRetest _ _ _ => hs.execShortRetest _ _ _
  | .laneRecovery _ => hs.execLaneRecovery _
  | .epoch _ _ => hs.execEpoch _ _
  | .foldFrameBoundary => hs.execFoldFrameBoundary
  | .epochTimeout => hs.execEpochTimeout
  | .tsyncRequest => hs.execTsyncRequest
  | .tsync _ _ => hs.execTsync _ _
  | .mbreq _ _ => hs.execMbreq _ _
  | .mbrsp _ _ => hs.execMbrsp _ _
  | .cpydata _ _ => hs.execCpydata _ _
  | .cpyack _ _ => hs.execCpyack _ _
  | .strdata _ _ => hs.execStrdata _ _
  | .ack _ _ => hs.execAck _ _
  | .ackDue _ => hs.execAckDue _
  | .copyGo _ _ => hs.execCopyGo _ _
  | .copyStop _ _ => hs.execCopyStop _ _
  | .streamArm _ _ => hs.execStreamArm _ _
  | .prbsTest _ _ _ => hs.execPrbsTest _ _ _
  | .prbsStop _ _ => hs.execPrbsStop _ _
  | .ftimelRead _ => hs.execFtimelRead _
  | .registerWrite _ _ => hs.execRegisterWrite _ _
  | .rcRead _ => hs.execRcRead _
  | .epochlRead _ _ => hs.execEpochlRead _ _
  | .apertureRead _ _ => hs.execApertureRead _ _
  | .apertureWrite _ _ => hs.execApertureWrite _ _
  | .msixMessage _ => hs.execMsixMessage _
  | .pciePerstN => hs.execPciePerstN
  | .pwrctlRun => hs.execPwrctlRun
  | .pwrctlDim => hs.execPwrctlDim
  | .pwrctlRest => hs.execPwrctlRest
  | .pwrctlKeep => hs.execPwrctlKeep
  | .restEntry => hs.execRestEntry
  | .keepEntry => hs.execKeepEntry
  | .wake _ => hs.execWake _
  | .thermUpdate _ => hs.execThermUpdate _
  | .thermalTrip => hs.execThermalTrip
  | .porN _ => hs.execPorN _
  | .sysrstN => hs.execSysrstN
  | .fuseLoad _ => hs.execFuseLoad _
  | .caerunoBoot _ _ => hs.execCaerunoBoot _ _
  | .fabricLoad => hs.execFabricLoad
  | .ledgerTick => hs.execLedgerTick
  | .ledgerWrite => hs.execLedgerWrite
  | .bypass => hs.execBypass
  | .idcode => hs.execIdcode
  | .samplePreload _ => hs.execSamplePreload _
  | .extest _ => hs.execExtest _
  | .clamp => hs.execClamp
  | .dpacc _ => hs.execDpacc _
  | .twoWireTransaction _ _ => hs.execTwoWireTransaction _ _
  | .twoWireReset => hs.execTwoWireReset
  | .trstN => hs.execTrstN
  | .chal _ => hs.execChal _
  | .verify => hs.execVerify
  | .verifyComplete => hs.execVerifyComplete
  | .logout => hs.execLogout
  | .abufdAccess _ => hs.execAbufdAccess _
  | .bmdataAccess _ => hs.execBmdataAccess _
  | .halt _ => hs.execHalt _
  | .resume => hs.execResume
  | .step _ => hs.execStep _
  | .abort _ => hs.execAbort _
  | .contextHalt _ => hs.execContextHalt _
  | .contextResume _ => hs.execContextResume _
  | .contextStep _ => hs.execContextStep _
  | .freeze _ _ => hs.execFreeze _ _
  | .crossTrigger _ => hs.execCrossTrigger _
  | .headFreeze _ => hs.execHeadFreeze _
  | .traceSync => hs.execTraceSync
  | .trdataRead => hs.execTrdataRead
  | .stimulusWrite _ _ _ => hs.execStimulusWrite _ _ _
  | .vtoutcWrite _ => hs.execVtoutcWrite _
  | .vtincRead => hs.execVtincRead
  | .vtinWrite _ => hs.execVtinWrite _
  | .vtoutRead => hs.execVtoutRead
  | .dotClockLockLoss _ => hs.execDotClockLockLoss _
  | .caerunoIntegrityFailure => hs.execCaerunoIntegrityFailure
  | .pciePerstNRise => hs.execPciePerstNRise
  | .blockLock _ _ => hs.execBlockLock _ _
  | .prbsBitError _ _ => hs.execPrbsBitError _ _

/-! ### Any step -/

theorem Canonical.step : NextCanonical (step s) := by
  unfold Machine.step
  split
  · exact hs.tick.next
  · exact hs.congr.exec _

end

end Sys2Proof.Machine

open Sys2Proof.Machine in
/-- Settles O32: a state is canonical exactly when `Memory.wf` holds of it, and every operation that a step is made of keeps that. -/
theorem memoryFormKept : Obligations.MemoryFormKept :=
  fun _ t wf run => canonical_iff.1 ((canonical_iff.2 wf).step t run)

end

section
namespace Sys2Proof.Machine

/-! ### The state after reset, part by part -/

/-- After a reset every memory and register file is empty. -/
theorem Memory.wf_reset : Memory.wf State.reset := by
  simp [Memory.wf, State.reset, PadSt.reset, StileSt.reset, spWf]

theorem reset_head (h : Head) : State.reset.heads[h].phase = .stopped ∧ State.reset.heads[h].queue = [] ∧
    State.reset.rd (aHead h.val 0) = resetOf (fieldsOf (.head h.val 0)) ∧ State.reset.bget (aHead h.val 0) 23 = false ∧
    State.reset.running h.val = false := by
  revert h
  decide +kernel

theorem reset_hostWindow : let s := State.reset
    s.hwRd 0x004 = 0 ∧ s.hwRd 0x0AC = 0xFFFFFF ∧ s.hwRd 0x0B0 = 0xFFFFFF ∧ s.hwRd 0x0B4 = 0x00FFFF ∧ s.hwRd 0x0A0 = 0 ∧
      s.hwRd 0x020 = 0x00A900 ∧ s.hwRd 0x024 = 0 ∧ s.hwRd 0x014 = 0 := by
  decide +kernel

theorem reset_timers (n : Tmr) : State.reset.bget (aTimer n.val 0) 23 = false := by revert n; decide +kernel
theorem reset_paddocks (p : Pad) : State.reset.fget (aPad p.val 1) 23 22 = 0 := by revert p; decide +kernel
theorem reset_mailboxes (m : Mbox) : State.reset.mbPhase m = 0 := by revert m; decide +kernel
theorem reset_cores (k : Core) : State.reset.alive k = false := by revert k; decide +kernel
theorem reset_links (g : Link) : State.reset.fget (aLink g.val 1) 23 21 = 0 := by revert g; decide +kernel

end Sys2Proof.Machine

open Sys2Proof.Machine in
/-- Settles O31: the reset state evaluates to it, part by part. -/
theorem resetState : Obligations.ResetState :=
  ⟨rfl, rfl, rfl, by decide +kernel, Memory.wf_reset, reset_head, reset_hostWindow, reset_timers, reset_paddocks, reset_mailboxes, reset_cores,
    reset_links, by decide +kernel, by decide +kernel, rfl, rfl⟩

end

section
namespace Sys2Proof.Machine

/-! ### Words by their bits and fields -/

theorem word_ext {u w : Word} (h : ∀ j < 24, bit u j = bit w j) : u = w := BitVec.eq_of_getLsbD_eq h

theorem fld_testBit (w : Word) (hi lo j : Nat) : (fld w hi lo).testBit j = (decide (j < hi + 1 - lo) && bit w (lo + j)) := by
  simp [fld, nbits, bit, BitVec.getLsbD, Nat.testBit_mod_two_pow, Nat.testBit_shiftRight]

theorem fld_congr {u w : Word} {hi lo : Nat} (h : ∀ j, lo ≤ j → j ≤ hi → bit u j = bit w j) : fld u hi lo = fld w hi lo := by
  refine Nat.eq_of_testBit_eq fun j => ?_
  rw [fld_testBit, fld_testBit]
  by_cases hj : j < hi + 1 - lo
  · rw [h (lo + j) (by omega) (by omega)]
  · simp [hj]

theorem fld_zero (hi lo : Nat) : fld 0 hi lo = 0 := by simp [fld, nbits]

theorem fld_eq_zero {w : Word} {hi lo : Nat} (h : ∀ j, lo ≤ j → j ≤ hi → bit w j = false) : fld w hi lo = 0 :=
  (fld_congr (w := 0) fun j h1 h2 => by rw [h j h1 h2]; simp [bit]).trans (fld_zero hi lo)

/-! ### Masks -/

/-- The fields of a register lie within the word, and no two overlap. -/
def FieldsApart (fs : List Field) : Prop :=
  (∀ f ∈ fs, f.lo ≤ f.hi ∧ f.hi < 24) ∧ fs.Pairwise fun f g => f.hi < g.lo ∨ g.hi < f.lo

theorem bit_fieldMask {f : Field} (h : f.lo ≤ f.hi ∧ f.hi < 24) (j : Nat) : bit f.mask j = decide (f.lo ≤ j ∧ j ≤ f.hi) := by
  unfold Field.mask bit wd
  rw [BitVec.getLsbD_ofNat, Nat.testBit_shiftLeft, Nat.testBit_two_pow_sub_one]
  by_cases h1 : f.lo ≤ j <;> by_cases h2 : j ≤ f.hi <;> simp [h1, h2] <;> omega

/-- A bit is in the mask of the fields that p selects when one of those fields holds it. -/
theorem bit_maskOf (p : Acc → Bool) {fs : List Field} (h : ∀ f ∈ fs, f.lo ≤ f.hi ∧ f.hi < 24) (j : Nat) :
    bit (maskOf p fs) j = fs.any fun f => p f.acc && decide (f.lo ≤ j ∧ j ≤ f.hi) := by
  have gather : ∀ (fs : List Field) (m : Word), (∀ f ∈ fs, f.lo ≤ f.hi ∧ f.hi < 24) →
      bit (fs.foldl (fun m f => if p f.acc then m ||| f.mask else m) m) j =
        (bit m j || fs.any fun f => p f.acc && decide (f.lo ≤ j ∧ j ≤ f.hi)) := by
    intro fs
    induction fs with
    | nil => simp
    | cons f fs ih =>
      intro m hfs
      obtain ⟨hf, hfs⟩ := List.forall_mem_cons.1 hfs
      rw [List.foldl_cons, ih _ hfs, List.any_cons]
      cases hp : p f.acc with
      | true => simp only [if_true, bit_or, bit_fieldMask hf, Bool.true_and, Bool.or_assoc]
      | false => simp
  simpa [maskOf, bit] using gather fs 0 h

/-- A bit of a field is in the mask exactly when the field's access is selected. -/
theorem bit_maskOf_of_mem {fs : List Field} (h : FieldsApart fs) {f : Field} (hf : f ∈ fs) (p : Acc → Bool) {j : Nat} (h1 : f.lo ≤ j) (h2 : j ≤ f.hi) :
    bit (maskOf p fs) j = p f.acc := by
  obtain ⟨inside, apart⟩ := h
  rw [bit_maskOf p inside, Bool.eq_iff_iff, List.any_eq_true]
  have only : ∀ g ∈ fs, g.lo ≤ j → j ≤ g.hi → g = f := by
    intro g hg g1 g2
    by_contra ne
    have : Std.Symm fun f g : Field => f.hi < g.lo ∨ g.hi < f.lo := ⟨fun _ _ => Or.symm⟩
    have := apart.forall hg hf ne
    omega
  constructor
  · rintro ⟨g, hg, e⟩
    simp only [Bool.and_eq_true, decide_eq_true_eq] at e
    obtain ⟨e, g1, g2⟩ := e
    rwa [← only g hg g1 g2]
  · intro e
    exact ⟨f, hf, by simp [e, h1, h2]⟩

/-! ### What an access by the access types gives each field (R7 to R10) -/

section
variable {fs : List Field} (h : FieldsApart fs) {f : Field} (hf : f ∈ fs)
include h hf

theorem fld_writeView (old v : Word) : fld (writeView fs old v) f.hi f.lo = match f.acc with
    | .rw => fld v f.hi f.lo
    | .w1c => fld (old &&& ~~~v) f.hi f.lo
    | _ => fld old f.hi f.lo := by
  have hin := h.1 f hf
  have written : ∀ j, f.lo ≤ j → j ≤ f.hi → bit (writeView fs old v) j =
      ((bit old j && !decide (f.acc = .rw) || bit v j && decide (f.acc = .rw)) && !(bit v j && decide (f.acc = .w1c))) := by
    intro j h1 h2
    have hj : j < 24 := by omega
    simp only [writeView, bit_and, bit_or, bit_not _ hj, bit_maskOf_of_mem h hf _ h1 h2, beq_eq_decide]
  have field : ∀ u : Word, (∀ j, f.lo ≤ j → j ≤ f.hi → bit (writeView fs old v) j = bit u j) → fld (writeView fs old v) f.hi f.lo = fld u f.hi f.lo :=
    fun u e => fld_congr e
  cases e : f.acc with
  | rw => exact field v fun j h1 h2 => by simp [written j h1 h2, e]
  | w1c => exact field _ fun j h1 h2 => by simp [written j h1 h2, e, bit_not v (show j < 24 by omega)]
  | ro | wo | rc | rwl => exact field old fun j h1 h2 => by simp [written j h1 h2, e]

theorem fld_readView (w : Word) : fld (readView fs w) f.hi f.lo = match f.acc with
    | .wo => 0
    | _ => fld w f.hi f.lo := by
  have read : ∀ j, f.lo ≤ j → j ≤ f.hi → bit (readView fs w) j = (bit w j && f.acc != .wo) := fun j h1 h2 => by
    rw [readView, bit_and, bit_maskOf_of_mem h hf _ h1 h2]
  cases e : f.acc with
  | wo => exact fld_eq_zero fun j h1 h2 => by simp [read j h1 h2, e]
  | rw | ro | w1c | rc | rwl => exact fld_congr fun j h1 h2 => by simp [read j h1 h2, e]

theorem fld_rcView (w : Word) : fld (rcView fs w) f.hi f.lo = match f.acc with
    | .rc => 0
    | _ => fld w f.hi f.lo := by
  have hin := h.1 f hf
  have left : ∀ j, f.lo ≤ j → j ≤ f.hi → bit (rcView fs w) j = (bit w j && !(f.acc == .rc)) := fun j h1 h2 => by
    rw [rcView, bit_and, bit_not _ (by omega), bit_maskOf_of_mem h hf _ h1 h2]
  cases e : f.acc with
  | rc => exact fld_eq_zero fun j h1 h2 => by simp [left j h1 h2, e]
  | rw | ro | w1c | wo | rwl => exact fld_congr fun j h1 h2 => by simp [left j h1 h2, e]

end
end Sys2Proof.Machine
end

section
namespace Sys2Proof.Machine

/-! ### Bytes of a checked word -/

theorem ofBytesLE_bytesLE (k : Nat) : ∀ n, n < 256 ^ k → ofBytesLE (bytesLE k n) = n := by
  induction k with
  | zero => intro n h; simp [bytesLE, ofBytesLE] at *; omega
  | succ k ih =>
    intro n h
    rw [bytesLE, ofBytesLE, ih _ (Nat.div_lt_of_lt_mul (by rwa [Nat.pow_succ, Nat.mul_comm] at h)), BitVec.toNat_ofNat]
    omega

theorem toNat_checkedWord (x : Word) : ((checkCode x).append x).toNat = x.toNat + 2 ^ 24 * (checkCode x).toNat := by
  show (checkCode x ++ x).toNat = _
  rw [BitVec.toNat_append, ← Nat.shiftLeft_add_eq_or_of_lt x.isLt, Nat.shiftLeft_eq]
  omega

theorem bytesLE_length (k n : Nat) : (bytesLE k n).length = k := by
  induction k generalizing n with
  | zero => rfl
  | succ k ih => simp [bytesLE, ih]

/-- The word that a checked read of four bytes carries. -/
theorem word_of_checkedBytes (x : Word) : BitVec.ofNat 24 (ofBytesLE (bytesLE 4 ((checkCode x).append x).toNat)) = x := by
  have hc := (checkCode x).isLt
  have hx := x.isLt
  rw [toNat_checkedWord, ofBytesLE_bytesLE _ _ (by omega)]
  refine BitVec.eq_of_toNat_eq ?_
  rw [BitVec.toNat_ofNat]
  omega

/-! ### Host-window registers -/

theorem hwFields_apart (off : Nat) : FieldsApart (hwFields off) := by
  unfold hwFields
  split
  case h_25 =>
    split
    · simp [FieldsApart]
    · split <;> simp [FieldsApart]
  all_goals simp [FieldsApart, wordRO, wordRW]

/-- The views of the mailboxes and the signature pointers hold no fields of their own. -/
theorem hwFields_view {off : Nat} (h1 : 0x040 ≤ off) (h2 : off < 0x0A0) : hwFields off = [] := by
  unfold hwFields
  split
  case h_25 => rw [if_neg (by omega), if_neg (by omega)]
  all_goals omega

/-- The counts are read-to-clear. -/
theorem hwFields_count {off : Nat} (h1 : 0x0E0 ≤ off) (h2 : off < 0x138) : ∀ f ∈ hwFields off, f.acc = .rc := by
  unfold hwFields
  split
  case h_24 => decide
  case h_25 =>
    rw [if_neg (by omega)]
    split
    · decide
    · simp
  all_goals omega

/-- The registers from the event masks on, but for the flags, take a write by their access types alone. -/
theorem State.hostPut_of_ge (s : State) {off : Nat} (h : 0x0A0 ≤ off) (v : Word) : s.hostPut off v =
    if off ≤ 0x0A8 then (s.hwWr off (writeView (hwFields off) (s.hwRd off) v)).pendTrack ((off - 0x0A0) / 4)
    else s.hwWr off (writeView (hwFields off) (s.hwRd off) v) := by
  unfold State.hostPut
  simp [h, show ¬ off < 0x080 by omega, show ¬ off < 0x0A0 by omega, show off ≠ 0x010 by omega, show off ≠ 0x020 by omega]

theorem State.codeGood_setWidth (s : State) (v : BitVec 64) : s.codeGood (v.setWidth 32) =
    (!bit (s.hwRd 0x004) 23 || checkCode (v.setWidth 24) == BitVec.ofNat 8 (v.toNat / 2 ^ 24)) := by
  have low : (v.setWidth 32).setWidth 24 = v.setWidth 24 := BitVec.setWidth_setWidth_of_le v (by decide)
  have high : BitVec.ofNat 8 ((v.setWidth 32).toNat >>> 24) = BitVec.ofNat 8 (v.toNat / 2 ^ 24) := by
    refine BitVec.eq_of_toNat_eq ?_
    simp only [BitVec.toNat_ofNat, BitVec.toNat_setWidth, Nat.shiftRight_eq_div_pow]
    omega
  rw [State.codeGood, low, high]

/-- A write that is not one aligned word, or whose code is wrong, is refused. -/
theorem State.bar0Write_refused (s : State) {off size : Nat} {v : BitVec 64} (h : off < 0x1E0)
    (bad : size ≠ 4 ∨ off % 4 ≠ 0 ∨ s.codeGood (v.setWidth 32) = false) : s.bar0Write off size v = s.badWrite := by
  have : ((size == 4 && off % 4 == 0) && s.codeGood (v.setWidth 32)) = false := by
    rcases bad with e | e | e <;> simp [e]
  simp only [State.bar0Write, h, if_true, this, Bool.false_eq_true, if_false]

theorem State.bar0Write_accepted (s : State) {off : Nat} {v : BitVec 64} (h : off < 0x1E0) (aligned : off % 4 = 0)
    (good : s.codeGood (v.setWidth 32) = true) : s.bar0Write off 4 v = s.hostPut off (v.setWidth 24) := by
  have low : (v.setWidth 32).setWidth 24 = v.setWidth 24 := BitVec.setWidth_setWidth_of_le v (by decide)
  simp [State.bar0Write, h, aligned, good, low]

/-- A read of one aligned register. -/
theorem State.bar0Read_word (s : State) {off : Nat} (h : off < 0x1E0) (aligned : off % 4 = 0) : s.bar0Read off 4 =
    State.hostTouch { s with pcie := { s.pcie with
      rdata := bytesLE 4 ((checkCode (s.hostView off)).append (s.hostView off)).toNat, rpoison := false } } off := by
  obtain ⟨d, rfl⟩ : ∃ d, off = 4 * d := ⟨off / 4, by omega⟩
  have one : (4 * d + 4 + 3) / 4 - d = 1 := by omega
  have at_d : 4 * d / 4 = d := by omega
  simp only [State.bar0Read, at_d, one]
  simp [State.bar0Word, h, List.take_of_length_le, bytesLE_length]

/-! ### Events -/

section
variable (s : State) {n : Nat}

/-- The flag's and the count's registers are no mask's. -/
theorem State.msixOpen_hwWr_event (v w : Word) :
    ((s.hwWr (0x0A0 + 4 * (n / 24)) v).hwWr (0x0E0 + 4 * (n / 3)) w).msixOpen n = s.msixOpen n := by
  unfold State.msixOpen
  rw [State.hwRd_hwWr_ne _ _ (by omega), State.hwRd_hwWr_ne _ _ (by omega)]
  rfl

/-- A source raised from a flag at 0 asks for one message; from a flag at 1, for none. -/
theorem State.raise_pcie : (s.raise n).pcie = if s.evFlag n = true then s.pcie
    else if s.msixOpen n = true then { s.pcie with sent := s.pcie.sent ++ [n] } else { s.pcie with pending := s.pcie.pending ||| (1 <<< n) } := by
  unfold State.raise
  extract_lets off was s1 c s2
  split
  · rfl
  · unfold State.msixRequest
    rw [show s2.msixOpen n = s.msixOpen n from s.msixOpen_hwWr_event _ _]
    split <;> rfl

/-- The count of a source raised is one more, held at its largest value. -/
theorem State.raise_count : fld ((s.raise n).hwRd (0x0E0 + 4 * (n / 3))) (8 * (n % 3) + 7) (8 * (n % 3)) =
    min 255 (fld (s.hwRd (0x0E0 + 4 * (n / 3))) (8 * (n % 3) + 7) (8 * (n % 3)) + 1) := by
  unfold State.raise
  extract_lets off was s1 c s2
  have counted : fld (s2.hwRd c) (8 * (n % 3) + 7) (8 * (n % 3)) = min 255 (fld (s.hwRd c) (8 * (n % 3) + 7) (8 * (n % 3)) + 1) := by
    rw [State.hwRd_hwWr_same, fld_incFld _ (by omega) (by omega), State.hwRd_hwWr_ne _ _ (by omega)]
    rw [show 8 * (n % 3) + 7 + 1 - 8 * (n % 3) = 8 by omega]
    rfl
  split
  · exact counted
  · rw [State.msixRequest_hwRd]
    exact counted

end

theorem getLsbD_clearBit {w : Nat} (p : BitVec w) (n m : Nat) :
    (p &&& ~~~((1 : BitVec w) <<< n)).getLsbD m = (p.getLsbD m && decide (m ≠ n)) := by
  by_cases hm : m < w
  · have pos : 0 < w := by omega
    by_cases e : m < n
    · simp [hm, e, show m ≠ n by omega]
    · by_cases e' : m = n
      · simp [e', pos]
      · simp [hm, e, e', show m - n ≠ 0 by omega]
  · simp [BitVec.getLsbD_of_ge _ _ (Nat.le_of_not_lt hm)]

/-- Bits of a mask that a condition selects, cleared one after the other. -/
theorem getLsbD_clearEach {w : Nat} (c : Nat → Prop) [DecidablePred c] (b k : Nat) (p : BitVec w) (n : Nat) :
    ((List.range k).foldl (fun (m : BitVec w) i => if c i then m &&& ~~~((1 : BitVec w) <<< (b + i)) else m) p).getLsbD n =
      (p.getLsbD n && !decide (b ≤ n ∧ n < b + k ∧ c (n - b))) := by
  induction k with
  | zero => simp; omega
  | succ k ih =>
    rw [List.range_succ, List.foldl_append, List.foldl_cons, List.foldl_nil]
    by_cases e : n = b + k
    · have last : decide (b ≤ n ∧ n < b + (k + 1) ∧ c (n - b)) = decide (c k) := decide_eq_decide.2 (by simp [e])
      have none : decide (b ≤ n ∧ n < b + k ∧ c (n - b)) = false := decide_eq_false (by omega)
      rw [none] at ih
      rw [last]
      split
      · next h => rw [getLsbD_clearBit, ih]; simp [e, h]
      · next h => rw [ih]; simp [h]
    · have same : decide (b ≤ n ∧ n < b + (k + 1) ∧ c (n - b)) = decide (b ≤ n ∧ n < b + k ∧ c (n - b)) := decide_eq_decide.2 (by
        constructor <;> rintro ⟨h1, h2, h3⟩ <;> exact ⟨h1, by omega, h3⟩)
      rw [same, ← ih]
      split
      · rw [getLsbD_clearBit]; simp [e]
      · rfl

/-- A request stands after the flags of register k are written unless its flag, there, is 0. -/
theorem State.pendTrack_pending (s : State) {k n : Nat} (hn : n < 64) :
    (s.pendTrack k).pcie.pending.getLsbD n = (s.pcie.pending.getLsbD n && !(decide (n / 24 = k) && !s.evFlag n)) := by
  refine (getLsbD_clearEach (fun i => 24 * k + i < 64 ∧ (!s.evFlag (24 * k + i)) = true) (24 * k) 24 s.pcie.pending n).trans ?_
  by_cases e : n / 24 = k
  · have back : 24 * k + (n - 24 * k) = n := by omega
    have inside : 24 * k ≤ n ∧ n < 24 * k + 24 := by omega
    simp [e, back, inside, hn]
  · have outside : ¬ (24 * k ≤ n ∧ n < 24 * k + 24) := by omega
    simp [e]
    omega

/-! ### What each access of the window does -/

open Sys2Proof.Safety

theorem completes_of_eq {c : Instr} {s t : State} {P : State → Prop} (run : exec c s = .next t) (h : P t) : Completes c s P := ⟨t, run, h⟩

/-- A refused write counts, and raises the host event. -/
theorem State.badWrite_spec (s : State) : let t := s.badWrite
    fld (t.hwRd 0x00C) 23 16 = min 255 (fld (s.hwRd 0x00C) 23 16 + 1) ∧
      (HostKept s t (evRegs 43 ++ [0x00C]) ∧ t = { s with hw := t.hw, pcie := t.pcie }) ∧ t.evFlag 43 = true ∧
      fld (t.hwRd 0x118) 15 8 = min 255 (fld (s.hwRd 0x118) 15 8 + 1) ∧
      (s.evFlag 43 = true → t.pcie = s.pcie) ∧
      (s.evFlag 43 = false → s.msixOpen 43 = true → t.pcie = { s.pcie with sent := s.pcie.sent ++ [43] }) ∧
      (s.evFlag 43 = false → s.msixOpen 43 = false → t.pcie = { s.pcie with pending := s.pcie.pending ||| (1 <<< 43) }) := by
  intro t
  let u := s.hwWr 0x00C (incFld (s.hwRd 0x00C) 23 16)
  have raised : t = u.raise 43 := rfl
  have flag : u.evFlag 43 = s.evFlag 43 := by unfold State.evFlag; rw [State.hwRd_hwWr_ne _ _ (by decide)]
  have open_ : u.msixOpen 43 = s.msixOpen 43 := by unfold State.msixOpen; rw [State.hwRd_hwWr_ne _ _ (by decide)]; rfl
  have messages : t.pcie = if s.evFlag 43 = true then s.pcie else if s.msixOpen 43 = true then { s.pcie with sent := s.pcie.sent ++ [43] }
      else { s.pcie with pending := s.pcie.pending ||| (1 <<< 43) } := by
    rw [raised, State.raise_pcie, flag, open_]; rfl
  refine ⟨?_, ⟨?_, ?_⟩, u.raise_evFlag (by decide), ?_, fun e => ?_, fun e o => ?_, fun e o => ?_⟩
  · rw [raised, State.raise_hwRd_ne _ _ (by decide) (by decide), State.hwRd_hwWr_same, fld_incFld _ (by decide) (by decide)]
    rfl
  · intro k hk
    simp only [evRegs, List.cons_append, List.nil_append, List.mem_cons, List.not_mem_nil, or_false, not_or] at hk
    obtain ⟨h1, h2, h3⟩ := hk
    rw [raised, State.raise_hwRd_ne _ _ h1 h2, State.hwRd_hwWr_ne _ _ h3]
  · rw [raised, State.raise_eq]; rfl
  · have := State.raise_count u (n := 43)
    rwa [State.hwRd_hwWr_ne _ _ (by decide)] at this
  all_goals simp [messages, e]
  all_goals simp [o]

/-- A write of one register keeps the others. -/
theorem hostKept_hwWr (s : State) (off : Nat) (v : Word) : HostKept s (s.hwWr off v) [off] :=
  fun k hk => State.hwRd_hwWr_ne _ _ (by simpa using hk)

@[simp] theorem word_and_ones (w : Word) : w &&& 16777215#24 = w := BitVec.and_allOnes

/-- A register of one mask word takes the value written. -/
theorem writeView_maskWord (old v : Word) : writeView (wordRW "MASK" 0xFFFFFF) old v = v := by
  have rw_ : maskOf (fun a => a == .rw) (wordRW "MASK" 0xFFFFFF) = 0xFFFFFF := by decide
  have w1c : maskOf (fun a => a == .w1c) (wordRW "MASK" 0xFFFFFF) = 0 := by decide
  simp [writeView, rw_, w1c]

/-- A mask takes an accepted write. -/
theorem State.hostPut_mask (s : State) {off : Nat} (h1 : 0x0AC ≤ off) (h2 : off ≤ 0x0B4) (aligned : off % 4 = 0) (w : Word) :
    (s.hostPut off w).hwRd off = if off = 0x0B4 then (s.hwRd off &&& 0xFF0000) ||| (w &&& 0x00FFFF) else w := by
  rw [State.hostPut_of_ge _ (by omega), if_neg (by omega), State.hwRd_hwWr_same]
  obtain rfl | rfl | rfl : off = 0x0AC ∨ off = 0x0B0 ∨ off = 0x0B4 := by omega
  · exact writeView_maskWord _ _
  · exact writeView_maskWord _ _
  · have rw_ : maskOf (fun a => a == .rw) (hwFields 0x0B4) = 0x00FFFF := by decide
    have w1c : maskOf (fun a => a == .w1c) (hwFields 0x0B4) = 0 := by decide
    simp [writeView, rw_, w1c]

/-- The bits of a flag register that name sources clear where they are written 1. -/
theorem bit_writeView_flags {k : Nat} (hk : k < 3) (old v : Word) {j : Nat} (hj : j < 24) (named : 24 * k + j < 64) :
    bit (writeView (hwFields (0x0A0 + 4 * k)) old v) j = (bit old j && !bit v j) := by
  have rw_ : maskOf (fun a => a == .rw) (hwFields (0x0A0 + 4 * k)) = 0 := by
    interval_cases k <;> decide
  have w1c : bit (maskOf (fun a => a == .w1c) (hwFields (0x0A0 + 4 * k))) j = true := by
    rw [bit_maskOf _ (hwFields_apart _).1]
    interval_cases k <;> simp [hwFields] <;> omega
  simp only [writeView, rw_, w1c, bit_and, bit_or, bit_not _ hj]
  simp [bit]

/-- The flags after a write of flag register k. -/
theorem State.hostPut_flags (s : State) {k : Nat} (hk : k < 3) (w : Word) (n : Fin 64) : let t := s.hostPut (0x0A0 + 4 * k) w
    let hit := n.val / 24 == k && bit w (n.val % 24)
    t.evFlag n.val = (s.evFlag n.val && !hit) ∧ (hit = true → t.pcie.pending.getLsbD n.val = false) ∧
      (n.val / 24 ≠ k → t.pcie.pending.getLsbD n.val = s.pcie.pending.getLsbD n.val) := by
  intro t hit
  let u := s.hwWr (0x0A0 + 4 * k) (writeView (hwFields (0x0A0 + 4 * k)) (s.hwRd (0x0A0 + 4 * k)) w)
  have put : t = u.pendTrack k := by
    show s.hostPut _ _ = _
    rw [State.hostPut_of_ge _ (by omega), if_pos (by omega), show (0x0A0 + 4 * k - 0x0A0) / 4 = k by omega]
  have same : t.evFlag n.val = u.evFlag n.val := by rw [put]; rfl
  have flag : t.evFlag n.val = (s.evFlag n.val && !hit) := by
    rw [same]
    by_cases e : n.val / 24 = k
    · have named : 24 * k + n.val % 24 < 64 := by omega
      simp [u, hit, State.evFlag, e, bit_writeView_flags hk _ _ (Nat.mod_lt _ _) named]
    · have other : 0x0A0 + 4 * (n.val / 24) ≠ 0x0A0 + 4 * k := by omega
      simp [u, hit, State.evFlag, e, State.hwRd_hwWr_ne _ _ other]
  have pending : t.pcie.pending.getLsbD n.val = (s.pcie.pending.getLsbD n.val && !(decide (n.val / 24 = k) && !t.evFlag n.val)) := by
    rw [same, put, State.pendTrack_pending _ n.isLt]; rfl
  refine ⟨flag, fun hit_ => ?_, fun other => ?_⟩
  · have here : n.val / 24 = k := by simp [hit] at hit_; exact hit_.1
    rw [pending, flag, hit_]; simp [here]
  · rw [pending]; simp [other]

/-- What a cause register holds takes 1s as clears. -/
theorem fld_writeView_cause {off : Nat} (h1 : 0x0B8 ≤ off) (h2 : off ≤ 0x0D0) (aligned : off % 4 = 0) {f : Field} (hf : f ∈ hwFields off) (old v : Word) :
    fld (writeView (hwFields off) old v) f.hi f.lo = fld (old &&& ~~~v) f.hi f.lo := by
  have w1c : f.acc = .w1c := by
    obtain rfl | rfl | rfl | rfl | rfl | rfl | rfl : off = 0x0B8 ∨ off = 0x0BC ∨ off = 0x0C0 ∨ off = 0x0C4 ∨ off = 0x0C8 ∨ off = 0x0CC ∨ off = 0x0D0 := by
      omega
    all_goals revert f; decide
  rw [fld_writeView (hwFields_apart _) hf, w1c]

/-- A register that is no view of other state reads as its fields. -/
theorem State.hostView_field (s : State) {off : Nat} {f : Field} (hf : f ∈ hwFields off) (readable : f.acc ≠ .wo) (h0 : off ≠ 0) (h8 : off ≠ 8) :
    fld (s.hostView off) f.hi f.lo = fld (s.hwRd off) f.hi f.lo := by
  have own : ¬ (0x040 ≤ off ∧ off < 0x0A0) := fun h => by simp [hwFields_view h.1 h.2] at hf
  have no_mailbox : ¬ (0x040 ≤ off ∧ off < 0x080) := by omega
  have no_signature : ¬ (0x080 ≤ off ∧ off < 0x0A0) := by omega
  rw [State.hostView, if_neg h0, if_neg h8, if_neg no_mailbox, if_neg no_signature, fld_readView (hwFields_apart _) hf]
  split
  · contradiction
  · rfl

/-- The counts clear when they are read. -/
theorem fld_rcView_count {off : Nat} (h1 : 0x0E0 ≤ off) (h2 : off < 0x138) {f : Field} (hf : f ∈ hwFields off) (w : Word) :
    fld (rcView (hwFields off) w) f.hi f.lo = 0 := by
  rw [fld_rcView (hwFields_apart _) hf, hwFields_count h1 h2 f hf]

/-- A read of a register changes its own word at most, or a head's. -/
theorem State.hostTouch_eq (s : State) (off : Nat) : s.hostTouch off = { s with ws := (s.hostTouch off).ws, hw := (s.hostTouch off).hw } := by
  unfold State.hostTouch
  split
  · dsimp only
    split <;> rfl
  · rfl

theorem State.hostTouch_kept (s : State) (off : Nat) : HostKept s (s.hostTouch off) [off] := by
  intro k hk
  unfold State.hostTouch
  split
  · dsimp only
    split <;> rfl
  · exact hostKept_hwWr _ _ _ k hk

theorem State.hostTouch_count (s : State) {off : Nat} (h1 : 0x0E0 ≤ off) (h2 : off < 0x138) {f : Field} (hf : f ∈ hwFields off) :
    fld ((s.hostTouch off).hwRd off) f.hi f.lo = 0 := by
  rw [State.hostTouch, if_neg (by omega), State.hwRd_hwWr_same]
  exact fld_rcView_count h1 h2 hf _

/-- A write of a register from the event masks on changes that register, and messages at most. -/
theorem State.hostPut_kept (s : State) {off : Nat} (h : 0x0A0 ≤ off) (w : Word) :
    HostKept s (s.hostPut off w) [off] ∧ s.hostPut off w = { s with hw := (s.hostPut off w).hw, pcie := (s.hostPut off w).pcie } := by
  rw [State.hostPut_of_ge _ h]
  split
  · exact ⟨hostKept_hwWr _ _ _, rfl⟩
  · exact ⟨hostKept_hwWr _ _ _, rfl⟩

theorem State.hostPut_sent (s : State) {off : Nat} (h : 0x0A0 ≤ off) (w : Word) : (s.hostPut off w).pcie.sent = s.pcie.sent := by
  rw [State.hostPut_of_ge _ h]
  split <;> rfl

theorem State.hostPut_pcie (s : State) {off : Nat} (h : 0x0A8 < off) (w : Word) : (s.hostPut off w).pcie = s.pcie := by
  rw [State.hostPut_of_ge _ (by omega), if_neg (by omega)]
  rfl

end Sys2Proof.Machine

open Sys2Proof.Machine Sys2Proof.Safety in
/-- Settles O21: refused writes are `State.badWrite`, accepted ones `State.hostPut`, reads `State.hostTouch` after the checked word. -/
theorem hostWindow : Obligations.HostWindow := by
  intro s off v w good same write kept
  have written : s.hostGone = false → good = true → off.toNat < 0x1E0 → off.toNat % 4 = 0 →
      exec (.registerWrite (.bar0 off 4) v) s = .next (s.hostPut off.toNat w) := fun here isGood inside al => by
    show Host.Outcome.next (if s.hostGone = true then s else s.bar0Write off.toNat 4 v) = _
    rw [here, s.bar0Write_accepted inside al (by rwa [s.codeGood_setWidth])]
    rfl
  refine ⟨fun gone => ?_, fun here => ⟨fun size inside bad => ?_, fun isGood => ⟨fun h1 h2 al => ?_, fun h1 h2 al => ?_, fun h1 h2 al => ?_⟩,
    fun al inside => ?_, ?_⟩, fun n => ⟨fun e => ?_, fun e => ?_⟩⟩
  · have stays : ∀ u : State, (.next (if s.hostGone = true then s else u) : Host.Outcome State Fault Refusal) = .next s :=
      fun _ => congrArg _ (if_pos gone)
    exact ⟨completes_of_eq (stays _) rfl, completes_of_eq (stays _) rfl, completes_of_eq (stays _) rfl⟩
  · have refused : s.bar0Write off.toNat size v = s.badWrite := by
      refine s.bar0Write_refused inside ?_
      rwa [s.codeGood_setWidth]
    refine completes_of_eq (t := s.badWrite) ?_ s.badWrite_spec
    show Host.Outcome.next _ = _
    rw [here, refused]; rfl
  · exact completes_of_eq (written here isGood (by omega) al) ⟨s.hostPut_kept (by omega) w, s.hostPut_pcie (by omega) w, s.hostPut_mask h1 h2 al w⟩
  · obtain ⟨k, hk, e⟩ : ∃ k < 3, off.toNat = 0x0A0 + 4 * k := ⟨off.toNat / 4 - 0x28, by omega, by omega⟩
    refine completes_of_eq (written here isGood (by omega) al) ⟨s.hostPut_kept (by omega) w, fun n => ?_, s.hostPut_sent (by omega) w⟩
    have flags := s.hostPut_flags hk w n
    rwa [← e, show k = off.toNat / 4 - 0x28 by omega] at flags
  · refine completes_of_eq (written here isGood (by omega) al) ⟨s.hostPut_kept (by omega) w, s.hostPut_pcie (by omega) w, fun f hf => ?_⟩
    rw [s.hostPut_of_ge (by omega), if_neg (by omega), State.hwRd_hwWr_same, fld_writeView_cause h1 h2 al hf]
  · have run : exec (.rcRead (.bar0 off 4)) s = .next (s.bar0Read off.toNat 4) := congrArg _ (if_neg (by simp [here]))
    rw [s.bar0Read_word inside al] at run
    refine completes_of_eq run ?_
    rw [State.hostTouch_eq]
    intro x
    have view : x = s.hostView off.toNat := word_of_checkedBytes _
    refine ⟨by rw [view, ← toNat_checkedWord], fun e => ?_, fun f hf a h0 h8 => ?_, fun h1 h2 f hf => State.hostTouch_count _ h1 h2 hf, State.hostTouch_kept _ _, rfl⟩
    · rw [view, State.hostView, e]; rfl
    · rw [view]; exact s.hostView_field hf a h0 h8
  · refine completes_of_eq (congrArg Host.Outcome.next (if_neg (by simp [here]))) ?_
    simp [State.msixCtlPut]
  · exact completes_of_eq (if_neg (by rw [e]; decide)) rfl
  · refine completes_of_eq (if_pos e) ⟨rfl, ?_, fun m ne => ?_, rfl⟩
    · exact (getLsbD_clearBit _ _ _).trans (by simp)
    · exact (getLsbD_clearBit _ _ _).trans (by simp [Fin.val_ne_of_ne ne])

end

section
namespace Sys2Proof.Machine

/-- A KZ2404 after reset whose checkers of paddock 8, which its fuses disable, have logged one error. -/
def disabledLog : State := ({ State.reset with fuses := { State.reset.fuses with is2404 := true } } : State).wr (aRegion 8 2) 1

theorem disabledLog_sound : Safety.Sound disabledLog := by
  refine ⟨rfl, ?_⟩
  unfold Safety.NoFlips
  decide +kernel

/-- A write of a disabled region's block is ignored (R2). -/
theorem State.busWrite_region_off (s : State) (r : Requester) (v : Word) {a g off : Nat} (named : locOf a = .region g off)
    (disabled : s.locOff (.region g off) = true) : s.busWrite r a v = { s with rfault := false } := by
  have own : ownAddr r a = a := by
    unfold ownAddr
    rw [named]
    cases r <;> rfl
  simp only [State.busWrite, own, named, disabled, if_true]

/-- The write is ignored: the log stands. -/
theorem logClear_disabled : exec (.logClear (.core 0 0) 8) disabledLog = .next { disabledLog with rfault := false } :=
  congrArg _ (State.busWrite_region_off _ _ _ (g := 8) (off := 2) (by decide) (by decide))

end Sys2Proof.Machine

open Sys2Proof.Machine Sys2Proof.Safety in
/-- Refutes O20: the clause on the log's clear holds of every region, also of one whose paddock is disabled by fuse (R2). On a KZ2404,
Caeruno's clear of region 8 is ignored, and NLOG stays 1. -/
theorem not_registerAccesses : ¬ Obligations.RegisterAccesses := by
  intro h
  obtain ⟨-, -, -, -, -, -, -, clears, -⟩ := h disabledLog (.core 0 0) 0 0 disabledLog_sound
  obtain ⟨t, run, empty, -⟩ := clears 8 (by decide +kernel)
  rw [logClear_disabled] at run
  cases run
  exact absurd empty (by decide +kernel)

end

section
namespace Sys2Proof.Machine

/-- The words of a READY device in which core W0 serves alone and mailbox 0 holds a posted QCANCEL of head 0 with a handle of head 4. -/
def cancelWords : List (Nat × Word) :=
  [(aCore 0 0, wd (2 * 2 ^ 22 + 2 ^ 21)), (aMbctl 0, wd (2 * 2 ^ 21)), (aMbbuf 0 0, wd (0x23 * 2 ^ 16 + 2 * 2 ^ 8)), (aMbbuf 0 4, wd (4 * 2 ^ 18))]

/-- A KZ2404, whose head 4 its fuses disable, about to serve that request. -/
def cancelDisabled : State :=
  cancelWords.foldl (fun s e => s.wr e.1 e.2)
    { State.reset with fuses := { State.reset.fuses with is2404 := true }, dev := .ready, mbOrder := [0] }

open Safety in
theorem cancelDisabled_accepted : MbAccepted cancelDisabled 0 0x23 := by
  have sound : Sound cancelDisabled := ⟨rfl, by unfold NoFlips; decide +kernel⟩
  refine ⟨⟨?_, ?_, ?_, ?_, rfl, rfl, sound⟩, ?_, ?_, ?_, ?_, ?_⟩
  all_goals decide +kernel

/-- The state that serving it leaves. -/
def cancelServed : State := cancelDisabled.command 0 0x23 anyReq fun a t => t.qcancelCmd .host (t.server 0) a

theorem exec_qcancel_disabled : exec (.qcancel 0) cancelDisabled = .next cancelServed := rfl

theorem cancelServed_code : fld (cancelServed.rd (aMbbuf 0 0x40)) 15 12 = 2 := by decide +kernel

end Sys2Proof.Machine

open Sys2Proof.Machine Sys2Proof.Safety in
/-- Refutes O14: its clause on QCANCEL bars a disabled head in the command's first argument alone. A handle names a head too, and on a KZ2404
QCANCEL of head 0 with a handle of head 4 completes ARG (R2), with no status. -/
theorem not_servedRegisterCommands : ¬ Obligations.ServedRegisterCommands := by
  intro h
  obtain ⟨-, heads, -⟩ := h cancelDisabled 0
  obtain ⟨-, -, -, -, -, cancels⟩ := heads 0 (by decide)
  obtain ⟨t, run, ⟨⟨-, -, head, -⟩, -⟩, -⟩ := cancels cancelDisabled_accepted (by decide +kernel)
  rw [exec_qcancel_disabled] at run
  have served : cancelServed = t := Host.Outcome.next.inj run
  rw [← served] at head
  have answered : fld (cancelServed.rd (aMbbuf 0 0x40)) 15 12 = 0 := by
    have cmd : cancelDisabled.reqCmd 0 = 0x23 := by decide +kernel
    have dev : cancelServed.dev = .ready := by decide +kernel
    refine (congrArg (fld · 15 12) head).trans ?_
    rw [cmd, dev]
    decide
  rw [cancelServed_code] at answered
  exact absurd answered (by decide)

end

section
/-! What the work of one head changes of the registers and states of the heads: the operations that an edge or a strobe of head h is made of
write nothing that decides where another head stands, and of h's own registers none that its raster uses. One lemma for each of them, in
the order of the model. -/

-- The lemmas are many and small: elaborating them one after the other keeps the number of threads low.
set_option Elab.async false

namespace Sys2Proof.Machine

theorem getElem_vmod_same {α : Type} {n : Nat} (v : Vector α n) (i : Fin n) (f : α → α) : (vmod v i f)[i] = f v[i] := by simp [vmod]

theorem getElem_vmod_ne {α : Type} {n : Nat} (v : Vector α n) {i j : Fin n} (f : α → α) (e : j ≠ i) : (vmod v i f)[j] = v[j] :=
  Vector.getElem_set_ne _ _ fun h => e (Fin.ext h.symm)

/-! ### What work on a head's lines, queue and records keeps -/

/-- Words that such work of head h may write: no register of another head, and none of h's that its raster uses. -/
def ScratchOf (h : Head) (a : Nat) : Prop := a < 0xC40000 ∨ 0xC40200 ≤ a ∨ aHead h.val 0x0C ≤ a ∧ a < aHead h.val 0x40

/-- What of a head's state says where its beam stands. -/
def beamPart (x : HeadSt) : HeadPhase × Vector Word 9 × BitVec 48 × BitVec 6 := (x.phase, x.held, x.heldEpoch, x.strobed)

/-- From s to t head h has worked on its lines, queue and records alone: what is presented to the paddocks, the other heads, and the raster of
h are as before. -/
structure HeadQuiet (h : Head) (s t : State) : Prop where
  pads : t.pads = s.pads
  halt : t.stile.haltHead = s.stile.haltHead
  others : ∀ g : Head, g ≠ h → t.heads[g] = s.heads[g]
  own : beamPart t.heads[h] = beamPart s.heads[h]
  words : ∀ a, ¬ ScratchOf h a → a ≠ aHead h.val 1 → t.rd a = s.rd a
  running : t.running h.val = s.running h.val

theorem HeadQuiet.refl (h : Head) (s : State) : HeadQuiet h s s := ⟨rfl, rfl, fun _ _ => rfl, rfl, fun _ _ _ => rfl, rfl⟩

section
variable {h : Head} {s t : State} (q : HeadQuiet h s t)
include q

/-- A change that concerns neither registers nor heads nor paddocks. -/
theorem HeadQuiet.congr {u : State} (ws : u.ws = t.ws := by rfl) (heads : u.heads = t.heads := by rfl) (pads : u.pads = t.pads := by rfl)
    (halt : u.stile.haltHead = t.stile.haltHead := by rfl) : HeadQuiet h s u := by
  have rd : ∀ a, u.rd a = t.rd a := fun a => by rw [State.rd, ws, State.rd]
  exact ⟨pads.trans q.pads, halt.trans q.halt, fun g e => by rw [heads, q.others g e], by rw [heads, q.own], fun a x y => (rd a).trans (q.words a x y),
    by rw [← q.running, State.running, State.bget, rd, State.running, State.bget]⟩

theorem HeadQuiet.ite {u : State} {c : Prop} [Decidable c] (qu : HeadQuiet h s u) : HeadQuiet h s (if c then t else u) := by
  split <;> assumption

/-- A step that is taken under a condition. -/
theorem HeadQuiet.when {u : State} {c : Prop} [Decidable c] (f : HeadQuiet h s t → HeadQuiet h s u) : HeadQuiet h s (if c then u else t) :=
  (f q).ite q

theorem HeadQuiet.foldl {α : Type} {f : State → α → State} {l : List α} (hf : ∀ u x, x ∈ l → HeadQuiet h s u → HeadQuiet h s (f u x)) :
    HeadQuiet h s (l.foldl f t) :=
  List.foldlRecOn l f q fun u hu x hx => hf u x hx hu

omit q in
theorem HeadQuiet.foldlFst {α β : Type} {f : State × α → β → State × α} {a : State × α} {l : List β} (q : HeadQuiet h s a.1)
    (hf : ∀ a x, HeadQuiet h s a.1 → HeadQuiet h s (f a x).1) : HeadQuiet h s (l.foldl f a).1 :=
  List.foldlRecOn (motive := fun a => HeadQuiet h s a.1) l f q fun a h x _ => hf a x h

/-! ### Machine/Ops -/

/-- Words of scratch registers and of the rest of the address space take other values. -/
theorem HeadQuiet.setWs {m : WMem} (hm : ∀ a, ¬ ScratchOf h a → spGet wsReset m a = t.rd a) : HeadQuiet h s { t with ws := m } := by
  refine ⟨q.pads, q.halt, q.others, q.own, fun a x y => (hm a x).trans (q.words a x y), ?_⟩
  rw [← q.running]
  exact congrArg (bit · 23) (hm (aHead h.val 1) (by unfold ScratchOf aHead; omega))

theorem HeadQuiet.wr (a : Nat) (v : Word) (ha : ScratchOf h a := by simp only [ScratchOf, aHead, aObj, aChan, aCopy, aRot, aRegion]; omega) :
    HeadQuiet h s (t.wr a v) :=
  q.setWs fun _ hb => State.rd_wr_ne t v fun e => hb (e ▸ ha)

theorem HeadQuiet.fset (a hi lo v : Nat) (ha : ScratchOf h a := by simp only [ScratchOf, aHead, aObj, aChan, aCopy, aRot, aRegion]; omega) :
    HeadQuiet h s (t.fset a hi lo v) :=
  q.wr _ _ ha

theorem HeadQuiet.bset (a n : Nat) (b : Bool) (ha : ScratchOf h a := by simp only [ScratchOf, aHead, aObj, aChan, aCopy, aRot, aRegion]; omega) :
    HeadQuiet h s (t.bset a n b) :=
  q.wr _ _ ha

theorem HeadQuiet.inc (a hi lo : Nat) (ha : ScratchOf h a := by simp only [ScratchOf, aHead, aObj, aChan, aCopy, aRot, aRegion]; omega) :
    HeadQuiet h s (t.inc a hi lo) :=
  q.wr _ _ ha

theorem HeadQuiet.incN (a hi lo n : Nat) (ha : ScratchOf h a := by simp only [ScratchOf, aHead, aObj, aChan, aCopy, aRot, aRegion]; omega) :
    HeadQuiet h s (t.incN a hi lo n) :=
  q.wr _ _ ha

theorem HeadQuiet.modHead {f : HeadSt → HeadSt} (hf : ∀ x, beamPart (f x) = beamPart x := by exact fun _ => rfl) :
    HeadQuiet h s (t.modHead h f) :=
  ⟨q.pads, q.halt, fun g e => (getElem_vmod_ne _ _ e).trans (q.others g e),
    ((congrArg beamPart (getElem_vmod_same _ _ _)).trans (hf _)).trans q.own, q.words, q.running⟩

theorem HeadQuiet.raise (n : Nat) : HeadQuiet h s (t.raise n) :=
  q.congr (by simp) (by simp) (by simp) (by simp)

theorem HeadQuiet.raiseCause (off b n : Nat) : HeadQuiet h s (t.raiseCause off b n) :=
  q.congr (by simp) (by simp) (by simp) (by simp)

theorem HeadQuiet.evDeadline (n : Nat) : HeadQuiet h s (t.evDeadline n) := q.raise _
theorem HeadQuiet.evHead (n kind : Nat) : HeadQuiet h s (t.evHead n kind) := q.raiseCause _ _ _
theorem HeadQuiet.evIntegrity : HeadQuiet h s t.evIntegrity := q.raise _
theorem HeadQuiet.evDram : HeadQuiet h s t.evDram := q.raise _
theorem HeadQuiet.evLink (n : Nat) : HeadQuiet h s (t.evLink n) := q.raiseCause _ _ _

theorem HeadQuiet.countOor (us : List Nat) : HeadQuiet h s (t.countOor us) :=
  q.ite ((HeadQuiet.foldl q fun _ _ _ h1 => h1.inc _ _ _).evDram)

theorem HeadQuiet.logPut (r : Nat) (kind : Word) (e : List Word) : HeadQuiet h s (t.logPut (aRegion r 0x10) 2 kind e).1 :=
  q.setWs fun a ha => by
    rw [spGet_spWrite, dif_neg]
    · rfl
    · unfold ScratchOf at ha
      simp only [aRegion]
      omega

/-! ### Machine/Repair -/

theorem HeadQuiet.logError (r kind addr bitNo : Nat) : HeadQuiet h s (t.logError r kind addr bitNo) := by
  have counted : HeadQuiet h s (match kind with
      | 1 => t.inc (aRegion r 0) 23 12
      | 2 => t.inc (aRegion r 0) 11 0
      | _ => (t.inc (aRegion r 1) 23 16).evIntegrity) := by
    split
    · exact q.inc _ _ _
    · exact q.inc _ _ _
    · exact (q.inc _ _ _).evIntegrity
  have logged := counted.logPut r 0xC00000 [wd (kind * 2 ^ 22 + addr % 2 ^ 22), wd (bitNo * 2 ^ 19 + t.pow.seconds % 2 ^ 19)]
  exact ((logged.when fun h1 => h1.inc (aRegion r 1) 15 8).fset (aRegion r 2) 4 0 _).when fun h1 => h1.congr

theorem HeadQuiet.readCheck (r a : Nat) (e : MemErr) : HeadQuiet h s (t.readCheck r a e).1 := by
  unfold State.readCheck
  split
  · exact q.logError _ _ _ _
  · exact q.logError _ _ _ _
  · exact q.logError _ _ _ _
  · split
    · exact q
    · split
      · exact q.logError _ _ _ _
      · split
        · exact (q.congr (u := t.healWord r a)).logError _ _ _ _
        · exact q.logError _ _ _ _

theorem HeadQuiet.readBad (bad : List BadWord) : HeadQuiet h s (t.readBad bad).1 :=
  HeadQuiet.foldlFst q fun _ _ h1 => h1.readCheck _ _ _

theorem HeadQuiet.writeFlip (r a : Nat) : HeadQuiet h s (t.writeFlip r a) :=
  (q.congr (u := t.healWord r a)).when fun h1 => (h1.bset (aRegion r 3) 23 false).ite (h1.bset (aRegion r 3) 23 false).congr

/-! ### Machine/Beam -/

/-- LEADPEND is a bit of HSTAT beside RUNNING. -/
theorem HeadQuiet.leadPend (b : Bool) : HeadQuiet h s (t.bset (aHead h.val 1) 20 b) := by
  refine ⟨q.pads, q.halt, q.others, q.own, fun a x y => (State.rd_wr_ne t _ y).trans (q.words a x y), ?_⟩
  rw [← q.running, State.running, State.bget, State.bset_rd, if_pos rfl, bit_putBit _ _ (by omega), if_neg (by omega), State.running, State.bget]

theorem HeadQuiet.leadTrack : HeadQuiet h s (t.leadTrack h) :=
  (q.modHead.leadPend _).ite (q.leadPend _)

theorem HeadQuiet.setRaised (k : Nat) (r : Raised) : HeadQuiet h s (t.setRaised h k r) := q.modHead

theorem HeadQuiet.sigFlag (n : Nat) : HeadQuiet h s (t.sigFlag h n) :=
  q.modHead fun x => by split <;> rfl

/-! ### Machine/Queue -/

theorem HeadQuiet.setQueue (l : List QEntry) : HeadQuiet h s (t.setQueue h l) :=
  q.modHead.fset _ _ _ _

theorem HeadQuiet.dropEntry (idx : Nat) : HeadQuiet h s (t.dropEntry h idx) := (q.setQueue _).modHead

theorem HeadQuiet.lateOne (e : QEntry) : HeadQuiet h s (t.lateOne h e) :=
  ((q.inc _ _ _).modHead).ite ((q.inc _ _ _).ite ((q.inc _ _ _).dropEntry _))

theorem HeadQuiet.lateAll (es : List QEntry) : HeadQuiet h s (t.lateAll h es) :=
  q.ite ((HeadQuiet.foldl q fun _ _ _ h1 => h1.lateOne _).evHead _ _)

theorem HeadQuiet.sweepLate : HeadQuiet h s (t.sweepLate h) := q.lateAll _

/-! ### Machine/Dram -/

theorem HeadQuiet.setReads (c : Chan) (l : List DRead) : HeadQuiet h s (t.setReads c l) :=
  (q.congr (u := t.modChan c _)).fset _ _ _ _

theorem HeadQuiet.dramCycle (u : DramUser) : HeadQuiet h s (t.dramCycle u) :=
  q.congr.ite q.congr

theorem HeadQuiet.askUnit (d : DramUser) (u deadline line : Nat) (standIn merge : Bool) : HeadQuiet h s (t.askUnit d u deadline line standIn merge) := by
  have asked := fun c l => (q.dramCycle d).setReads c l
  unfold State.askUnit
  dsimp only
  split
  · exact asked _ _
  · exact (asked _ _).congr.ite ((asked _ _).setReads _ _)

theorem HeadQuiet.dramAsk (d : DramUser) (u deadline line : Nat) (standIn : Bool) : HeadQuiet h s (t.dramAsk d u deadline line standIn).1 := by
  unfold State.dramAsk
  split
  · exact q.countOor _
  · exact q.askUnit _ _ _ _ _ _

theorem HeadQuiet.takePiece (d : DramUser) (a : Nat) (l : List Byte) : HeadQuiet h s (t.takePiece d a l) :=
  (q.when fun h1 => h1.askUnit _ _ _ _ _ _).congr

theorem HeadQuiet.queueWrite (d : DramUser) (a : Nat) (l : List Byte) : HeadQuiet h s (t.queueWrite d a l) :=
  ((q.dramCycle d).foldl fun _ _ _ h1 => h1.takePiece _ _ _).countOor _

/-! ### Machine/Layers and Machine/Objects -/

theorem HeadQuiet.modEng (e : Nat) (f : EngSt → EngSt) : HeadQuiet h s (t.modEng e f) := by
  unfold State.modEng
  split
  · exact q.congr
  · exact q

theorem HeadQuiet.replaceEngine (n : Slot) : HeadQuiet h s (t.replaceEngine h.val n.val) := by
  unfold State.replaceEngine
  split
  · split
    · exact q.fset _ _ _ _
    · exact q
  · exact q

theorem HeadQuiet.latchEngine (n : Slot) : HeadQuiet h s (t.latchEngine h n) := by
  have taken := q.replaceEngine n
  have emptied := taken.when (c := (t.replaceEngine h.val n.val).startsEmpty h n = true) fun h1 =>
    h1.modEng ((t.replaceEngine h.val n.val).engOf h.val n.val) EngSt.emptied
  unfold State.latchEngine
  dsimp only
  split
  · exact (emptied.when fun h1 => h1.modEng _ _).modHead
  · exact emptied.modHead

theorem HeadQuiet.countDesc (l : Latched) : HeadQuiet h s (t.countDesc h l) := by
  have counted : HeadQuiet h s (((List.range 8).filter fun n => l.on n && l.invalid n).foldl
      (fun (t : State) n => t.inc (aHead h.val (0x20 + n)) 23 16) t) :=
    q.foldl fun _ n hn h1 => by
      have := List.mem_range.1 (List.mem_of_mem_filter hn)
      exact h1.inc _ _ _
  exact counted.ite ((counted.setRaised _ _).evHead _ _)

theorem HeadQuiet.latchLine (k : Nat) : HeadQuiet h s (t.latchLine h k) :=
  (HeadQuiet.foldl q fun _ _ _ h1 => h1.latchEngine _).when fun h1 => h1.modHead.countDesc _

theorem HeadQuiet.countLine (k : Nat) (f : LineCounts → LineCounts) : HeadQuiet h s (t.countLine h k f) :=
  q.modHead fun x => by split <;> rfl

theorem HeadQuiet.evaluate (k : Nat) : HeadQuiet h s (t.evaluate h k) := by
  unfold State.evaluate
  extract_lets r budget f
  split
  next ps cut _ =>
  have scanned : HeadQuiet h s (t.scanChecks ps).1 := HeadQuiet.foldlFst q fun _ _ h1 => h1.readCheck _ _ _
  split
  next s0 skip e =>
  rw [e] at scanned
  extract_lets all seen bad cands kept scan made isCut took drop s1 s2 s3 s4 s5 s6 up s7
  have counted : HeadQuiet h s s2 := scanned.modHead.countLine _ _
  have planed : HeadQuiet h s s4 := (counted.when fun h1 => h1.inc _ _ _).incN _ _ _ _
  have dropped : HeadQuiet h s s5 := planed.ite ((planed.incN _ _ _ _).sigFlag _)
  have raised : HeadQuiet h s s7 := (dropped.when fun h1 => h1.inc _ _ _).setRaised _ _
  exact raised.when fun h1 => h1.evHead _ _

/-! ### Machine/Render and Machine/Compose -/

theorem HeadQuiet.drawn : HeadQuiet h s (t.drawn h) := q.modHead

theorem HeadQuiet.orphanReads (p : DRead → Bool) : HeadQuiet h s (t.orphanReads h p) := q.congr

theorem HeadQuiet.countMiss (k mask : Nat) : HeadQuiet h s (t.countMiss h k mask) := by
  unfold State.countMiss
  extract_lets x s1 s2 s2'
  have counted : HeadQuiet h s s1 := (q.inc _ _ _).fset _ _ _ _
  have flagged : HeadQuiet h s s2 := (counted.sigFlag _).modHead
  have ahead : HeadQuiet h s s2' := counted.modHead
  exact (flagged.ite (flagged.evDeadline _)).ite ((ahead.evDeadline _).ite ahead)

theorem HeadQuiet.miss (w : LineWork) : HeadQuiet h s (t.miss h w) :=
  (HeadQuiet.modHead (q.orphanReads _)).countMiss _ _

theorem HeadQuiet.deadline (w : LineWork) : HeadQuiet h s (t.deadline h w) := q.ite (q.miss _)

theorem HeadQuiet.mirrorMismatch (n : Slot) : HeadQuiet h s (t.mirrorMismatch h n) :=
  ((q.inc (aRot 2) 23 16).evIntegrity).congr

theorem HeadQuiet.mirrorCheck : HeadQuiet h s (t.mirrorCheck h) :=
  (HeadQuiet.foldl q fun _ _ _ h1 => h1.when fun h2 => h2.mirrorMismatch _).modHead

theorem HeadQuiet.mirrorOwn (w : LineWork) : HeadQuiet h s (t.mirrorOwn h w) := q.modHead.mirrorCheck

theorem HeadQuiet.lineCheck (n k m : Nat) : HeadQuiet h s (t.lineCheck n k m).1 :=
  (q.congr.when fun h1 => h1.writeFlip _ _).readBad _

theorem HeadQuiet.compose (w : LineWork) : HeadQuiet h s (t.compose h w) :=
  (((q.mirrorOwn _).lineCheck _ _ _).when fun h1 => h1.countMiss _ _).modHead

/-! ### Copies that a head paces (Machine/Golmon) -/

theorem HeadQuiet.sendTo (dest : Word) (p : Packet) : HeadQuiet h s (t.sendTo dest p) := by
  have pumped : ∀ g, HeadQuiet h s (t.linkSend g p) := fun g => q.when fun h1 => (h1.congr (u := t.modLink g _)).when fun h2 => h2.congr
  unfold State.sendTo
  split
  · exact pumped _
  · exact q

theorem HeadQuiet.modCopy (n : Fin 8) (f : CopySt → CopySt) : HeadQuiet h s (t.modCopy n f) := q.congr

theorem HeadQuiet.copyEnd (n : Fin 8) (code : Nat) : HeadQuiet h s (t.copyEnd n code) := by
  have ended := ((q.bset (aCopy n.val 5) 23 false).fset (aCopy n.val 5) 22 20 code).modCopy n fun _ => CopySt.reset
  exact ended.ite (ended.evLink _)

theorem HeadQuiet.copyAskOne (n : Fin 8) : HeadQuiet h s (t.copyAskOne n) := by
  have asked := fun f u => (q.modCopy n f).dramAsk (.copy n) u 0 0 false
  exact q.ite ((asked _ _).ite ((asked _ _).modCopy _ _))

theorem HeadQuiet.copySent (n : Fin 8) : HeadQuiet h s (t.copySent n) :=
  q.ite ((q.modCopy _ _).ite ((q.copyEnd _ _).ite q))

theorem HeadQuiet.copyPut (n : Fin 8) (data : List (List Byte)) : HeadQuiet h s (t.copyPut n data) :=
  ((((q.modCopy _ _).queueWrite _ _ _).incN _ _ _ _).copySent _).ite ((((q.modCopy _ _).modCopy _ _).sendTo _ _).copySent _)

theorem HeadQuiet.copyOne (n : Fin 8) : HeadQuiet h s (t.copyOne n) :=
  q.ite ((q.copyPut _ _).ite (((q.ite (q.copyPut _ _)).copyEnd _ _).ite q))

theorem HeadQuiet.copyPump (n : Fin 8) : HeadQuiet h s (t.copyPump n) :=
  (HeadQuiet.foldl q fun _ _ _ h1 => h1.copyAskOne _).foldl fun _ _ _ h1 => h1.copyOne _

theorem HeadQuiet.streamStrobe (b : Nat) : HeadQuiet h s (t.streamStrobe h b) :=
  HeadQuiet.foldl q fun _ _ _ h1 => h1.ite ((h1.inc _ _ _).ite ((h1.modCopy _ _).copyPump _))

/-! ### Machine/Trace and Machine/Strobes -/

theorem HeadQuiet.traceFrame (n : Nat) : HeadQuiet h s (t.traceFrame n) :=
  q.when fun h1 => h1.ite (h1.congr.ite (h1.congr (u := t.traceLose)))

theorem HeadQuiet.lateRender : HeadQuiet h s (t.lateRender h) := q.modHead.lateAll _

theorem HeadQuiet.markBeam : HeadQuiet h s (t.markBeam h) := q.modHead

theorem HeadQuiet.markRender : HeadQuiet h s (t.markRender h) := q.ite q.modHead

theorem HeadQuiet.evalCut (k : Nat) : HeadQuiet h s (t.evalCut h k) := by
  have cut := (q.inc (aObj h.val 1) 23 12).modHead (f := fun x => { x with evals := x.evals ++ [{ line := k, slivers := [] }] })
  exact (cut.ite ((cut.setRaised _ _).evHead _ _)).ite q

theorem HeadQuiet.latchDue (k : Nat) : HeadQuiet h s (t.latchDue h k) := by
  have latched := ((q.when (c := k = 0) fun h1 => h1.modHead (f := fun x => { x with dimLatch := t.wantDim })).evalCut k).latchLine k
  unfold State.latchDue
  dsimp only
  split
  · exact q
  · split
    · exact latched.when fun h1 => h1.miss _
    · exact latched

theorem HeadQuiet.leadAdopt : HeadQuiet h s (t.leadAdopt h) :=
  q.modHead.leadTrack.foldl fun _ _ _ h1 => (h1.when fun h2 => h2.evaluate _).latchDue _

theorem HeadQuiet.latchNext : HeadQuiet h s (t.latchNext h) :=
  q.ite ((q.latchDue _).when fun h1 => h1.leadAdopt)

theorem HeadQuiet.tapLate : HeadQuiet h s (t.tapLate h) := by
  have late := (q.inc (aHead h.val 0x36) 15 8).modHead (f := fun y =>
    { y with
      tapLine := true
      sig := if y.sig.isOpen then { y.sig with taplines := y.sig.taplines + 1 } else y.sig
      fr := { y.fr with tapRaised := true } })
  exact q.ite (late.ite (late.evDeadline _))

theorem HeadQuiet.tapped (k n : Nat) : HeadQuiet h s (t.tapped h k n).2 := by
  unfold State.tapped
  dsimp only
  split
  · exact q
  · split
    · exact q.sigFlag _
    · split
      · exact q.modHead.tapLate
      · exact q.modHead
      · split
        · exact q.modHead.tapLate
        · exact q.modHead

theorem HeadQuiet.sendQuad : HeadQuiet h s (t.sendQuad h) :=
  q.ite ((((q.tapped _ _).modHead.ite ((q.tapped _ _).modHead.sigFlag _)).when fun h1 => h1.sigFlag _).when fun h1 => ((h1.inc _ _ _).evIntegrity).modHead)

theorem HeadQuiet.leaveLine : HeadQuiet h s (t.leaveLine h) := q.lateRender.modHead

theorem HeadQuiet.enterLine (k : Nat) : HeadQuiet h s (t.enterLine h k) := by
  have checked := fun b => q.drawn.mirrorCheck.modHead (f := fun x => { x with blank := b })
  unfold State.enterLine
  dsimp only
  split
  · exact checked _
  · split
    · exact ((checked _).deadline _).compose _
    · exact (checked _).deadline _

end

end Sys2Proof.Machine
end

section
/-! Where the beam of a head stands after an edge, and what a strobe presents (O35). -/

namespace Sys2Proof.Machine

/-! ### What stays of a head while others work -/

/-- From s to t nothing has changed that says where head f stands: its state, its registers, the Stile's request to halt it. -/
structure HeadApart (f : Head) (s t : State) : Prop where
  head : t.heads[f] = s.heads[f]
  words : ∀ off < 64, t.rd (aHead f.val off) = s.rd (aHead f.val off)
  halt : t.stile.haltHead = s.stile.haltHead

theorem HeadApart.refl (f : Head) (s : State) : HeadApart f s s := ⟨rfl, fun _ _ => rfl, rfl⟩

theorem HeadApart.trans {f : Head} {s t u : State} (p : HeadApart f s t) (q : HeadApart f t u) : HeadApart f s u :=
  ⟨q.head.trans p.head, fun off h => (q.words off h).trans (p.words off h), q.halt.trans p.halt⟩

theorem HeadApart.foldl {α : Type} {f : Head} {g : State → α → State} {s : State} {l : List α}
    (hg : ∀ t x, x ∈ l → HeadApart f s t → HeadApart f t (g t x)) : HeadApart f s (l.foldl g s) :=
  List.foldlRecOn l g (HeadApart.refl f s) fun t ht x hx => ht.trans (hg t x hx ht)

section
variable {h f : Head} (ne : f ≠ h)
include ne

/-- What is quiet for head h leaves every other head as it was. -/
theorem HeadQuiet.apart {s t : State} (q : HeadQuiet h s t) : HeadApart f s t := by
  have ne' : f.val ≠ h.val := fun e => ne (Fin.ext e)
  refine ⟨q.others f ne, fun off lt => q.words _ ?_ ?_, q.halt⟩ <;> simp only [ScratchOf, aHead] <;> omega

theorem HeadApart.modHead (s : State) (x : HeadSt → HeadSt) : HeadApart f s (s.modHead h x) :=
  ⟨getElem_vmod_ne _ _ ne, fun _ _ => rfl, rfl⟩

/-- A register of head h takes a value. -/
theorem HeadApart.wr (s : State) {off : Nat} (small : off < 64) (v : Word) : HeadApart f s (s.wr (aHead h.val off) v) := by
  have ne' : f.val ≠ h.val := fun e => ne (Fin.ext e)
  exact ⟨rfl, fun k lt => State.rd_wr_ne s v (by simp only [aHead]; omega), rfl⟩

theorem HeadApart.cutFrame (s : State) (planned : Bool) : HeadApart f s (s.cutFrame h planned) := by
  have closed : HeadApart f s (s.closeRecord h true planned) := by
    unfold State.closeRecord
    dsimp only
    split
    · exact HeadApart.refl f s
    · exact HeadApart.modHead ne s _
  exact closed.trans ⟨getElem_vmod_ne _ _ ne, fun _ _ => rfl, rfl⟩

theorem HeadApart.rasterBegin (s : State) (kind : Begun) (line quad : Nat) : HeadApart f s (s.rasterBegin h kind line quad) :=
  have orphaned : HeadApart f s (s.orphanReads h fun _ => true) := ⟨rfl, fun _ _ => rfl, rfl⟩
  ((orphaned.trans (wr ne _ (by decide) _)).trans (modHead ne _ _)).trans (wr ne _ (by decide) _)

theorem HeadApart.snapRestart (s : State) : HeadApart f s (s.snapRestart h) :=
  ((((HeadQuiet.refl h s).lateRender.apart ne).trans (cutFrame ne _ _)).trans (rasterBegin ne _ _ _ _)).trans (modHead ne _ _)

theorem HeadApart.advance (s : State) : HeadApart f s (s.advance h) := by
  have sent : HeadApart f s ((s.sendQuad h).modHead h fun x => { x with strobed := 0, sinceRef := x.sinceRef.map (· + 1) }) :=
    ((HeadQuiet.refl h s).sendQuad.apart ne).trans (modHead ne _ _)
  have moved := fun (t : State) k q => wr ne (off := 9) t (by decide) (packBeam k q)
  have marked := fun t : State => (HeadQuiet.refl h t).markBeam.apart ne
  unfold State.advance
  extract_lets r k q s1 k' s2
  have turned : HeadApart f s s2 :=
    ((sent.trans ((HeadQuiet.refl h s1).leaveLine.apart ne)).trans (moved _ k' 0)).trans ((HeadQuiet.refl h _).enterLine k' |>.apart ne)
  split
  · exact (sent.trans (moved _ k (q + 1))).trans (marked _)
  · split
    · exact turned
    · exact turned.trans (marked _)

end

/-! ### Where a beam stands -/

/-- What of a head's state its raster and epoch read. -/
def rasterPart (x : HeadSt) : HeadPhase × Vector Word 9 × BitVec 48 := (x.phase, x.held, x.heldEpoch)

/-- From s to t the raster of head h, its epoch and RUNNING are as before. -/
structure RasterKept (h : Head) (s t : State) : Prop where
  own : rasterPart t.heads[h] = rasterPart s.heads[h]
  words : ∀ off < 0x0C, off ≠ 1 → off ≠ 9 → t.rd (aHead h.val off) = s.rd (aHead h.val off)
  running : t.running h.val = s.running h.val

/-- … and its beam stands at line k, quad q. -/
structure StandsAt (h : Head) (s t : State) (k q : Nat) : Prop extends RasterKept h s t where
  pos : t.rd (aHead h.val 9) = packBeam k q

section
variable {h : Head} {s t u : State}

theorem RasterKept.trans (p : RasterKept h s t) (q : RasterKept h t u) : RasterKept h s u :=
  ⟨q.own.trans p.own, fun off a b c => (q.words off a b c).trans (p.words off a b c), q.running.trans p.running⟩

theorem HeadQuiet.rasterKept (q : HeadQuiet h s t) : RasterKept h s t := by
  refine ⟨congrArg (fun p => (p.1, p.2.1, p.2.2.1)) q.own, fun off lt ne _ => q.words _ ?_ ?_, q.running⟩ <;>
    simp only [ScratchOf, aHead] <;> omega

theorem HeadApart.rasterKept (q : HeadApart h s t) : RasterKept h s t :=
  ⟨congrArg rasterPart q.head, fun off lt _ _ => q.words off (by omega), congrArg (bit · 23) (q.words 1 (by decide))⟩

theorem HeadQuiet.stands (q : HeadQuiet h t u) {k n : Nat} (p : StandsAt h s t k n) : StandsAt h s u k n :=
  ⟨p.trans q.rasterKept, (q.words _ (by simp only [ScratchOf, aHead]; omega) (by simp only [aHead]; omega)).trans p.pos⟩

theorem HeadApart.stands (q : HeadApart h t u) {k n : Nat} (p : StandsAt h s t k n) : StandsAt h s u k n :=
  ⟨p.trans q.rasterKept, (q.words 9 (by decide)).trans p.pos⟩

theorem RasterKept.setPos (p : RasterKept h s t) (k n : Nat) : StandsAt h s (t.setPos h.val k n) k n := by
  refine ⟨⟨p.own, fun off lt a b => (State.rd_wr_ne t _ ?_).trans (p.words off lt a b), ?_⟩, State.rd_wr_same t _ _⟩
  · simp only [aHead]; omega
  · exact (congrArg (bit · 23) (State.rd_wr_ne t _ (by simp only [aHead]; omega))).trans p.running

/-- The beam of an edge: a quad further, or at quad 0 of the next line, or at line 0 after the last (R14, R24). -/
theorem State.advance_stands (s : State) (h : Head) :
    let r := s.raster h.val
    let k := s.posLine h.val
    let q := s.posQuad h.val
    StandsAt h s (s.advance h) (if q + 1 < r.htotal then k else if k + 1 < r.vtotal then k + 1 else 0) (if q + 1 < r.htotal then q + 1 else 0) := by
  unfold State.advance
  extract_lets r k q s1 k' s2
  have sent : RasterKept h s s1 := (HeadQuiet.refl h s).sendQuad.rasterKept.trans
    ⟨(congrArg rasterPart (getElem_vmod_same (s.sendQuad h).heads h _)).trans rfl, fun _ _ _ _ => rfl, rfl⟩
  have marked : ∀ {t : State} {k n}, StandsAt h s t k n → StandsAt h s (t.markBeam h) k n := (HeadQuiet.refl h _).markBeam.stands
  by_cases last : q + 1 < r.htotal
  · simp only [if_pos last]
    exact marked (sent.setPos k (q + 1))
  · simp only [if_neg last]
    have turned : StandsAt h s s2 k' 0 :=
      ((HeadQuiet.refl h _).enterLine k').stands ((sent.trans (HeadQuiet.refl h s1).leaveLine.rasterKept).setPos k' 0)
    split
    · exact turned
    · exact marked turned

/-! ### What the position, the raster and the epoch read -/

theorem getElem_ofNat_val {α : Type} (v : Vector α 8) (h : Head) : v[Fin.ofNat 8 h.val] = v[h] :=
  congrArg (fun g : Head => v[g]) (Fin.ext (Nat.mod_eq_of_lt h.isLt))

theorem RasterKept.setup (p : RasterKept h s t) {off : Nat} (lt : off < 9) (ne : off ≠ 1) : t.setup h.val off = s.setup h.val off := by
  have phase : t.heads[h].phase = s.heads[h].phase := congrArg (·.1) p.own
  have held : t.heads[h].held = s.heads[h].held := congrArg (·.2.1) p.own
  simp only [State.setup, getElem_ofNat_val, phase, held, p.words off (by omega) ne (by omega)]

theorem RasterKept.raster (p : RasterKept h s t) : t.raster h.val = s.raster h.val := by
  simp only [State.raster, p.setup (off := 2) (by decide) (by decide), p.setup (off := 3) (by decide) (by decide),
    p.setup (off := 4) (by decide) (by decide), p.setup (off := 5) (by decide) (by decide)]

theorem RasterKept.syncMode (p : RasterKept h s t) : t.syncMode h.val = s.syncMode h.val := by
  simp only [State.syncMode, p.setup (off := 0) (by decide) (by decide)]

theorem RasterKept.epoch (p : RasterKept h s t) : t.epoch h.val = s.epoch h.val := by
  have phase : t.heads[h].phase = s.heads[h].phase := congrArg (·.1) p.own
  have held : t.heads[h].heldEpoch = s.heads[h].heldEpoch := congrArg (·.2.2) p.own
  simp only [State.epoch, getElem_ofNat_val, phase, held, p.words 0x0A (by decide) (by decide) (by decide),
    p.words 0x0B (by decide) (by decide) (by decide)]

theorem HeadApart.beamHeld (q : HeadApart h s t) : t.beamHeld h = s.beamHeld h := by
  simp only [State.beamHeld, State.lineEnd, State.posQuad, State.fget, q.words 9 (by decide), q.rasterKept.raster, q.head, q.halt]

theorem HeadApart.posLine (q : HeadApart h s t) : t.posLine h.val = s.posLine h.val := congrArg (fld · 23 12) (q.words 9 (by decide))
theorem HeadApart.posQuad (q : HeadApart h s t) : t.posQuad h.val = s.posQuad h.val := congrArg (fld · 11 0) (q.words 9 (by decide))

theorem StandsAt.posLine {k q : Nat} (p : StandsAt h s t k q) (hk : k < 4096) : t.posLine h.val = k := by
  rw [State.posLine, State.fget, p.pos]
  simp only [fld, nbits, packBeam, wd, BitVec.toNat_ofNat, Nat.shiftRight_eq_div_pow]
  omega

theorem StandsAt.posQuad {k q : Nat} (p : StandsAt h s t k q) (hq : q < 4096) : t.posQuad h.val = q := by
  rw [State.posQuad, State.fget, p.pos]
  simp only [fld, nbits, packBeam, wd, BitVec.toNat_ofNat, Nat.shiftRight_eq_div_pow]
  omega

end

/-! ### An edge of head h, with the heads that follow it -/

/-- Head g does not move with an edge of h, nor restart at it (R33, R37). -/
def State.runsFree (s : State) (g : Head) : Prop := s.syncMode g.val = 0 ∨ s.syncMode g.val = 3

section
variable (s : State) {h g : Head}

theorem State.advanceAll_apart (ne : g ≠ h) (free : s.runsFree g) : HeadApart g s (s.advanceAll h) := by
  refine HeadApart.foldl fun t x _ _ => ?_
  split
  next moves =>
    have : g ≠ x := by
      rintro rfl
      simp only [State.exactSlave, beq_false_of_ne ne, Bool.false_or, Bool.and_eq_true, beq_iff_eq] at moves
      unfold State.runsFree at free
      omega
    exact HeadApart.advance this t
  · exact HeadApart.refl g t

/-- The fold over the heads moves h once. -/
theorem State.advanceAll_stands (held : s.beamHeld h = false) :
    let r := s.raster h.val
    let k := s.posLine h.val
    let q := s.posQuad h.val
    StandsAt h s (s.advanceAll h) (if q + 1 < r.htotal then k else if k + 1 < r.vtotal then k + 1 else 0) (if q + 1 < r.htotal then q + 1 else 0) := by
  intro r k q
  obtain ⟨before, after, split⟩ := List.append_of_mem (List.mem_finRange h)
  have once : h ∉ before ∧ h ∉ after := by
    have := List.nodup_finRange 8
    rw [split, List.nodup_middle, List.nodup_cons, List.mem_append, not_or] at this
    exact this.1
  have others : ∀ (t : State) (l : List Head), h ∉ l → HeadApart h t (l.foldl (fun (t : State) g =>
      if (g == h || s.exactSlave h g) && !t.beamHeld g then t.advance g else t) t) := by
    intro t l out
    refine HeadApart.foldl fun u x hx _ => ?_
    split
    · exact HeadApart.advance (ne_of_mem_of_not_mem hx out).symm u
    · exact HeadApart.refl h u
  unfold State.advanceAll
  rw [split, List.foldl_append, List.foldl_cons]
  refine (others _ after once.2).stands ?_
  have kept := others s before once.1
  generalize before.foldl _ s = u at kept ⊢
  have moved := u.advance_stands h
  simp only [kept.posLine, kept.posQuad, kept.rasterKept.raster] at moved
  simp only [beq_self_eq_true, Bool.true_or, kept.beamHeld, held, Bool.not_false, Bool.and_self, if_true]
  exact ⟨kept.rasterKept.trans moved.toRasterKept, moved.pos⟩

theorem State.snapFollow_apart_self : HeadApart h s (s.snapFollow h) := by
  refine HeadApart.foldl fun t x _ _ => ?_
  split
  next snaps =>
    have : h ≠ x := by
      rintro rfl
      simp at snaps
    exact HeadApart.snapRestart this t
  · exact HeadApart.refl h t

theorem State.snapFollow_apart (free : s.runsFree g) : HeadApart g s (s.snapFollow h) := by
  refine HeadApart.foldl fun t x _ kept => ?_
  split
  next snaps =>
    have : g ≠ x := by
      rintro rfl
      simp only [Bool.and_eq_true, beq_iff_eq, kept.rasterKept.syncMode] at snaps
      unfold State.runsFree at free
      omega
    exact HeadApart.snapRestart this t
  · exact HeadApart.refl g t

end

end Sys2Proof.Machine
end

section
namespace Sys2Proof.Machine

/-! ### What a strobe presents -/

theorem PadSt.coming_presented (x : PadSt) (id : Nat) (v : Word) : ({ x with nextSrc := x.nextSrc ++ [(id, v)] } : PadSt).coming id = v := by
  simp [PadSt.coming]

section
variable (s : State) (id : Nat) (w : Word)

/-- Paddock p is to be presented w beside what source id has to come. -/
def State.presentBits (p : Pad) : State := s.present p id (s.pads[p].coming id ||| w)

theorem State.presentBits_pads_same (p : Pad) :
    (s.presentBits id w p).pads[p] = { s.pads[p] with nextSrc := s.pads[p].nextSrc ++ [(id, s.pads[p].coming id ||| w)] } :=
  getElem_vmod_same s.pads p _

theorem State.presentBits_coming (p : Pad) : (s.presentBits id w p).pads[p].coming id = s.pads[p].coming id ||| w := by
  rw [State.presentBits_pads_same, PadSt.coming_presented]

theorem State.presentBits_pads_ne {p x : Pad} (ne : p ≠ x) : (s.presentBits id w x).pads[p] = s.pads[p] := getElem_vmod_ne s.pads _ ne

/-- A bit that a paddock is to be presented stays, whatever else is presented. -/
theorem State.presentBits_keeps {p : Pad} {n : Nat} (given : bit (s.pads[p].coming id) n = true) (x : Pad) :
    bit ((s.presentBits id w x).pads[p].coming id) n = true := by
  by_cases e : p = x
  · subst e
    rw [State.presentBits_coming, bit_or, given, Bool.true_or]
  · rwa [State.presentBits_pads_ne s id w e]

/-- Every paddock is to be presented w. -/
def State.presentAll : State := (List.finRange 16).foldl (fun (t : State) x => t.presentBits id w x) s

/-- Only sources to come change. -/
theorem State.presentAll_only : let t := s.presentAll id w
    t = { s with pads := t.pads } ∧ ∀ p : Pad, t.pads[p] = { s.pads[p] with nextSrc := t.pads[p].nextSrc } := by
  refine List.foldlRecOn (motive := fun t : State => t = { s with pads := t.pads } ∧ ∀ p : Pad, t.pads[p] = { s.pads[p] with nextSrc := t.pads[p].nextSrc })
    (List.finRange 16) _ ⟨rfl, fun _ => rfl⟩ fun t ⟨whole, pads⟩ x _ => ⟨?_, fun p => ?_⟩
  · exact congrArg (fun u : State => { u with pads := (t.presentBits id w x).pads }) whole
  · by_cases e : p = x
    · subst e
      rw [State.presentBits_pads_same]
      exact congrArg (fun y : PadSt => { y with nextSrc := t.pads[p].nextSrc ++ [(id, t.pads[p].coming id ||| w)] }) (pads p)
    · rw [State.presentBits_pads_ne t id w e]
      exact pads p

theorem State.presentAll_bit {n : Nat} (hw : bit w n = true) (p : Pad) : bit ((s.presentAll id w).pads[p].coming id) n = true := by
  unfold State.presentAll
  obtain ⟨before, after, split⟩ := List.append_of_mem (List.mem_finRange p)
  rw [split, List.foldl_append, List.foldl_cons]
  refine List.foldlRecOn (motive := fun t : State => bit (t.pads[p].coming id) n = true) after _ ?_ fun t given x _ => t.presentBits_keeps id w given x
  rw [State.presentBits_coming, bit_or, hw, Bool.or_true]

end

section
variable {s t : State} {h : Head} {b : Nat}

/-- Strobe b of head h has been given at this position, and every paddock is presented its bit in the next fabric cycle (R168). -/
def State.strobeGiven (s : State) (h : Head) (b : Nat) : Prop :=
  s.heads[h].strobed.getLsbD b = true ∧ ∀ p : Pad, bit (s.pads[p].coming (0x5D8 + h.val / 4)) (6 * (h.val % 4) + b) = true

/-- From s to t a strobe of head h has been given, and nothing else has changed. -/
def StrobeOnly (h : Head) (s t : State) : Prop :=
  t = { s with heads := t.heads, pads := t.pads } ∧ (∀ g : Head, g ≠ h → t.heads[g] = s.heads[g]) ∧
    t.heads[h] = { s.heads[h] with strobed := t.heads[h].strobed } ∧ ∀ p : Pad, t.pads[p] = { s.pads[p] with nextSrc := t.pads[p].nextSrc }

/-- A strobe presents its bit to every paddock, and is noted as given. -/
theorem State.beamStrobe_eq (s : State) (h : Head) (b : Nat) : s.beamStrobe h b =
    (s.presentAll (0x5D8 + h.val / 4) (wd (2 ^ (6 * (h.val % 4) + b)))).modHead h fun x => { x with strobed := x.strobed ||| (1 <<< b) } := rfl

theorem State.beamStrobe_given (s : State) (h : Head) (hb : b < 6) : (s.beamStrobe h b).strobeGiven h b := by
  rw [State.beamStrobe_eq]
  refine ⟨(congrArg (fun x : HeadSt => x.strobed.getLsbD b) (getElem_vmod_same _ h _)).trans ?_, fun p => ?_⟩
  · rw [BitVec.getLsbD_or, BitVec.natCast_eq_ofNat, BitVec.getLsbD_ofNat, Nat.one_shiftLeft, Nat.testBit_two_pow_self]
    simp [hb]
  · rw [State.modHead_pads]
    exact s.presentAll_bit _ _ (by rw [bit_pow _ (by omega), decide_eq_true rfl]) p

theorem State.beamStrobe_only (s : State) (h : Head) (b : Nat) : StrobeOnly h s (s.beamStrobe h b) := by
  obtain ⟨whole, pads⟩ := s.presentAll_only (0x5D8 + h.val / 4) (wd (2 ^ (6 * (h.val % 4) + b)))
  rw [State.beamStrobe_eq]
  generalize s.presentAll _ _ = u at whole pads ⊢
  obtain ⟨v, rfl⟩ : ∃ v, u = { s with pads := v } := ⟨_, whole⟩
  refine ⟨rfl, fun g ne => getElem_vmod_ne s.heads _ ne, ?_, pads⟩
  have given : ∀ x : HeadSt → HeadSt, (State.modHead { s with pads := v } h x).heads[h] = x s.heads[h] := fun x => getElem_vmod_same s.heads h x
  rw [given]

/-- What work on a head's lines, queue and records leaves of a strobe. -/
theorem HeadQuiet.strobeGiven (q : HeadQuiet h s t) (given : s.strobeGiven h b) : t.strobeGiven h b := by
  obtain ⟨strobed, presented⟩ := given
  refine ⟨(congrArg (fun p => p.2.2.2.getLsbD b) q.own).trans strobed, fun p => ?_⟩
  rw [q.pads]
  exact presented p

theorem State.frameBegin_given (s : State) (h : Head) : (s.frameBegin h).strobeGiven h 1 :=
  (HeadQuiet.refl h _).sweepLate.markBeam.traceFrame h.val |>.strobeGiven (State.beamStrobe_given _ h (by decide))

end

/-! ### The strobes and the edge as commands -/

open Safety

/-- A command that acts where a condition holds and changes nothing elsewhere. -/
theorem completes_where {c : Instr} {s t : State} {here : Bool} {P : State → Prop} (run : exec c s = if here then .next t else .next s) (after : P t) :
    (here = true → Completes c s P) ∧ (here = false → Completes c s fun t => t = s) :=
  ⟨fun e => ⟨t, by rw [run, if_pos e], after⟩, fun e => ⟨s, by rw [run, if_neg (by simp [e])], rfl⟩⟩

section
variable (s : State) (h : Head)

theorem lineStrobe_where : let here := s.strobeFree h 0 && s.posQuad h.val == 0
    (here = true → Completes (.lineStrobe h) s fun t => t.strobeGiven h 0 ∧ (false = true → StrobeOnly h s t)) ∧
      (here = false → Completes (.lineStrobe h) s fun t => t = s) :=
  completes_where rfl ⟨HeadQuiet.strobeGiven ((HeadQuiet.refl h _).latchNext.markRender.streamStrobe _) (State.beamStrobe_given _ h (by decide)), nofun⟩

theorem frameStrobe_where : let here := s.strobeFree h 1 && (s.posLine h.val == 0 && s.posQuad h.val == 0)
    (here = true → Completes (.frameStrobe h) s fun t => t.strobeGiven h 1 ∧ (false = true → StrobeOnly h s t)) ∧
      (here = false → Completes (.frameStrobe h) s fun t => t = s) := by
  rw [← Bool.and_assoc]
  exact completes_where rfl ⟨s.frameBegin_given h, nofun⟩

theorem vblankStrobe_where : let here := s.strobeFree h 3 && (s.posLine h.val == (s.raster h.val).vact && s.posQuad h.val == 0)
    (here = true → Completes (.vblankStrobe h) s fun t => t.strobeGiven h 3 ∧ (false = true → StrobeOnly h s t)) ∧
      (here = false → Completes (.vblankStrobe h) s fun t => t = s) := by
  rw [Bool.and_comm (s.posLine h.val == (s.raster h.val).vact), ← Bool.and_assoc]
  exact completes_where rfl ⟨State.beamStrobe_given _ h (by decide), nofun⟩

/-- HBLANK, HSYNC and VSYNC do nothing but give their strobe. -/
theorem bareStrobe_where {c : Instr} {b : Nat} {here : Bool} (hb : b < 6)
    (run : exec c s = if s.strobeFree h b && here then .next (s.beamStrobe h b) else .next s) :
    ((s.strobeFree h b && here) = true → Completes c s fun t => t.strobeGiven h b ∧ (true = true → StrobeOnly h s t)) ∧
      ((s.strobeFree h b && here) = false → Completes c s fun t => t = s) :=
  completes_where run ⟨s.beamStrobe_given h hb, fun _ => s.beamStrobe_only h b⟩

theorem vsyncStrobe_run : exec (.vsyncStrobe h) s =
    if s.strobeFree h 5 && (s.posLine h.val == (s.raster h.val).vss && s.posQuad h.val == (s.raster h.val).hss) then .next (s.beamStrobe h 5) else .next s := by
  rw [Bool.and_comm (s.posLine h.val == _), ← Bool.and_assoc]
  rfl

variable {s h}

theorem beamAdvance_completes (run : s.running h.val = true) (exact : s.followsExactly h = false) (held : s.beamHeld h = false) :
    let r := s.raster h.val
    let k := s.posLine h.val
    let q := s.posQuad h.val
    Completes (.beamAdvance h) s fun t =>
      t.posQuad h.val = (if q + 1 < r.htotal then q + 1 else 0) ∧
      t.posLine h.val = (if q + 1 < r.htotal then k else if k + 1 < r.vtotal then k + 1 else 0) ∧
      t.epoch h.val = s.epoch h.val ∧ t.running h.val = true ∧
      (∀ g : Head, g ≠ h → (s.syncMode g.val = 0 ∨ s.syncMode g.val = 3) → t.heads[g] = s.heads[g] ∧
        ∀ off < 64, t.rd (aHead g.val off) = s.rd (aHead g.val off)) := by
  intro r k q
  have moved : exec (.beamAdvance h) s = .next ((s.advanceAll h).snapFollow h) := by
    change execBeamAdvance h s = _
    simp [execBeamAdvance, run, exact, held]
  have stands := (State.snapFollow_apart_self (s.advanceAll h)).stands (s.advanceAll_stands held)
  have htotal : (s.raster h.val).htotal < 4096 := fld_lt _ 23 12
  have vtotal : (s.raster h.val).vtotal < 4096 := fld_lt _ 23 12
  have line : s.posLine h.val < 4096 := fld_lt _ 23 12
  refine ⟨_, moved, stands.posQuad (by split <;> omega), stands.posLine (by split <;> (try split) <;> omega), stands.epoch, stands.running.trans run,
    fun g ne free => ?_⟩
  have first := s.advanceAll_apart ne free
  have still := first.trans ((s.advanceAll h).snapFollow_apart (h := h) (by rwa [State.runsFree, first.rasterKept.syncMode]))
  exact ⟨still.head, still.words⟩

end
end Sys2Proof.Machine

open Sys2Proof.Machine in
/-- Settles O35: the edge moves h by `State.advance_stands` and every other head that runs free not at all; a strobe presents its bit by
`State.beamStrobe_given`, and what follows it in the same command leaves that. -/
theorem beamPosition : Obligations.BeamPosition :=
  ⟨fun _ _ run exact held => beamAdvance_completes run exact held, fun s h =>
    ⟨lineStrobe_where s h, frameStrobe_where s h, bareStrobe_where s h (by decide) rfl, vblankStrobe_where s h, bareStrobe_where s h (by decide) rfl,
      bareStrobe_where s h (by decide) (vsyncStrobe_run s h)⟩⟩

end

section
/-! How a mailbox command that passes the checks of R252 is taken, and what its answer leaves (R254, R257, R259): the layer that the statements
about single commands stand on. -/

namespace Sys2Proof.Machine

open Safety

/-! ### Writes of checked words -/

section
variable {s : State}

/-- With no flip armed and no wrong bit, a write leaves a word as it writes it (R281). -/
theorem State.writeFlip_sound (sound : Sound s) {r : Nat} (hr : r < 91) (a : Nat) : s.writeFlip r a = s := by
  obtain ⟨good, noFlips⟩ := sound
  have healed : s.healWord r a = s := by
    have : s.repair.bad.filter (fun b => !(b.region == r && b.addr == a)) = s.repair.bad := by rw [good]; rfl
    rw [State.healWord, this]
  simp only [State.writeFlip, healed, noFlips r hr, Bool.false_and]
  rfl

/-- Words that an answer depends on: the mailboxes' registers and buffers, and the armed flips. -/
def AnswerWord (a : Nat) : Prop := 0xC7E100 ≤ a ∧ a < 0xC7F800 ∨ 0xCB0000 ≤ a ∧ a % 0x40 = 3

theorem sound_of_words (sound : Sound s) {t : State} (bad : t.repair.bad = s.repair.bad) (flips : ∀ r < 91, t.rd (aRegion r 3) = s.rd (aRegion r 3)) :
    Sound t :=
  ⟨bad.trans sound.1, fun r hr => (congrArg (bit · 23) (flips r hr)).trans (sound.2 r hr)⟩

/-- Word f i takes the i-th of a list. -/
def State.wrAll (s : State) (f : Nat → Nat) (l : List Word) : State := l.zipIdx.foldl (fun (t : State) e => t.wr (f e.2) e.1) s

variable {f : Nat → Nat} {l : List Word}

theorem State.wrAll_concat (v : Word) : s.wrAll f (l ++ [v]) = (s.wrAll f l).wr (f l.length) v := by
  simp [State.wrAll, List.zipIdx_append]

theorem State.wrAll_eq (s : State) (f : Nat → Nat) (l : List Word) : s.wrAll f l = { s with ws := (s.wrAll f l).ws } :=
  List.foldlRecOn (motive := fun t : State => t = { s with ws := t.ws }) l.zipIdx _ rfl fun _ ht e _ => congrArg (fun u : State => u.wr (f e.2) e.1) ht

theorem State.wrAll_rd_ne {a : Nat} (h : ∀ i < l.length, a ≠ f i) : (s.wrAll f l).rd a = s.rd a := by
  induction l using List.reverseRecOn with
  | nil => rfl
  | append_singleton l v ih =>
    rw [List.length_append, List.length_singleton] at h
    rw [State.wrAll_concat, State.rd_wr_ne _ _ (h _ (by omega)), ih fun i hi => h i (by omega)]

theorem State.wrAll_rd {i : Nat} (inj : ∀ i < l.length, ∀ j < l.length, f i = f j → i = j) (hi : i < l.length) :
    (s.wrAll f l).rd (f i) = nth 0 l i := by
  induction l using List.reverseRecOn with
  | nil => exact absurd hi (by simp)
  | append_singleton l v ih =>
    rw [List.length_append, List.length_singleton] at inj hi
    rw [State.wrAll_concat]
    by_cases last : i = l.length
    · subst last
      rw [State.rd_wr_same, nth, List.getD_append_right _ _ _ _ (by omega)]
      simp
    · have ne : f i ≠ f l.length := fun e => last (inj _ hi _ (by omega) e)
      rw [State.rd_wr_ne _ _ ne, ih (fun i hi j hj => inj i (by omega) j (by omega)) (by omega), nth, nth, List.getD_append _ _ _ _ (by omega)]

/-- Writes through the checkers of a region, none of which is armed, are writes. -/
theorem State.wrAll_of_flips (sound : Sound s) {r : Nat} (hr : r < 91) (a : Nat → Nat) (below : ∀ i < l.length, f i < 0xCB0000) :
    l.zipIdx.foldl (fun (t : State) e => (t.wr (f e.2) e.1).writeFlip r (a e.2)) s = s.wrAll f l := by
  induction l using List.reverseRecOn with
  | nil => rfl
  | append_singleton l v ih =>
    rw [List.length_append, List.length_singleton] at below
    rw [List.zipIdx_append, List.foldl_append, ih fun i hi => below i (by omega), State.wrAll_concat]
    have written : Sound ((s.wrAll f l).wr (f l.length) v) := by
      refine sound_of_words sound (by rw [State.wrAll_eq]; rfl) fun k _ => ?_
      have apart : ∀ i < l.length + 1, aRegion k 3 ≠ f i := fun i hi => by have := below i hi; simp only [aRegion]; omega
      rw [State.rd_wr_ne _ _ (apart _ (by omega)), State.wrAll_rd_ne fun i hi => apart i (by omega)]
    simp only [List.zipIdx_cons, List.zipIdx_nil, List.foldl_cons, List.foldl_nil, Nat.zero_add]
    exact State.writeFlip_sound written hr _

end

/-! ### What serving leaves, from state to state -/

section
variable {s t u : State} {m : Mbox} {A B : List Nat}

theorem mbKept_trans (p : MbKept s t m A) (q : MbKept t u m B) : MbKept s u m (A ++ B) := by
  obtain ⟨pw, pm, pe⟩ := p
  obtain ⟨qw, qm, qe⟩ := q
  refine ⟨fun a ha => ?_, fun n hn => (qm n hn).trans (pm n hn), ?_⟩
  · simp only [List.mem_append, not_or] at ha
    rw [qw a (by simp [ha]), pw a (by simp [ha])]
  · rw [pe] at qe
    exact qe

/-- v with what serving a mailbox changes beside warden words of other units as w has it. -/
def State.bookkept (v w : State) : State :=
  { v with freeCtr := w.freeCtr, ws := w.ws, hw := w.hw, pcie := w.pcie, mboxes := w.mboxes, mbOrder := w.mbOrder, shadows := w.shadows }

/-- A change of other fields carries over. -/
theorem mbKept_map (p : MbKept s t m A) (g : State → State)
    (beside : ∀ v w : State, g (v.bookkept w) = (g v).bookkept w := by exact fun _ _ => rfl) : MbKept (g s) (g t) m A := by
  obtain ⟨pw, pm, pe⟩ := p
  have same : ∀ v : State, g v = (g v).bookkept v := fun v => beside v v
  have turned : g t = (g s).bookkept t := (congrArg g pe).trans (beside s t)
  refine ⟨fun a ha => ?_, fun n hn => ?_, ?_⟩
  · rw [turned, same s]
    exact pw a ha
  · rw [turned, same s]
    exact pm n hn
  · rw [turned]
    rfl

end

/-! ### The answer -/

/-- In t, which serving m's request of s has reached, the request may be answered. -/
structure Serves (s : State) (m : Mbox) (t : State) : Prop where
  sound : Sound t
  req : ∀ i < 3, t.reqWord m i = s.reqWord m i
  seq : t.rd (aMbseq m.val) = s.reqWord m 1 + 1
  inbound : t.mboxes[m].inbound = none
  orphan : t.mboxes[m].orphan = false
  order : m.val ∉ t.mbOrder

section
variable {s t : State} {m : Mbox}

/-- A meaning that keeps the mailboxes and the checkers leaves the request to be answered. -/
theorem Serves.keep {u : State} (serves : Serves s m t) (words : ∀ a, AnswerWord a → u.rd a = t.rd a) (mboxes : u.mboxes = t.mboxes := by rfl)
    (mbOrder : u.mbOrder = t.mbOrder := by rfl) (bad : u.repair.bad = t.repair.bad := by rfl) : Serves s m u where
  sound := sound_of_words serves.sound bad fun r _ => words _ (by simp only [AnswerWord, aRegion]; omega)
  req i hi := (words _ (by simp only [AnswerWord, aMbbuf]; omega)).trans (serves.req i hi)
  seq := (words _ (by simp only [AnswerWord, aMbseq]; omega)).trans serves.seq
  inbound := by rw [mboxes, serves.inbound]
  orphan := by rw [mboxes, serves.orphan]
  order := by rw [mbOrder]; exact serves.order

theorem State.modMbox_same (s : State) (m : Mbox) (f : MboxSt → MboxSt) : (s.modMbox m f).mboxes[m] = f s.mboxes[m] := by
  simp [State.modMbox, vmod]

theorem State.modMbox_ne (s : State) {m n : Mbox} (f : MboxSt → MboxSt) (ne : n ≠ m) : (s.modMbox m f).mboxes[n] = s.mboxes[n] := by
  have : m.val ≠ n.val := fun e => ne (Fin.ext e.symm)
  simp [State.modMbox, vmod, Vector.getElem_set_ne, this]

theorem mbKept_modMbox (s : State) (m : Mbox) (f : MboxSt → MboxSt) : MbKept s (s.modMbox m f) m [] :=
  ⟨fun _ _ => rfl, fun _ ne => s.modMbox_ne f ne, rfl⟩

/-- Words of mailbox m itself. -/
theorem mbKept_ws {ws : WMem} (kept : ∀ a, a ∉ mbWords m → spGet wsReset ws a = t.rd a) : MbKept t { t with ws := ws } m [] :=
  ⟨fun a ha => kept a (by simpa using ha), fun _ _ => rfl, rfl⟩

theorem mbKept_fset_mbctl (s : State) (m : Mbox) (hi lo v : Nat) : MbKept s (s.fset (aMbctl m.val) hi lo v) m [] :=
  mbKept_ws fun _ ha => State.rd_wr_ne _ _ fun e => ha (e ▸ List.mem_cons_self)

theorem mbKept_raise (s : State) (m : Mbox) (n : Nat) : MbKept s (s.raise n) m [] := by
  rw [State.raise_eq]
  exact ⟨fun _ _ => rfl, fun _ _ => rfl, rfl⟩

theorem aMbbuf_mem_mbWords (m : Mbox) {i : Nat} (hi : i < 64) : aMbbuf m.val (0x40 + i) ∈ mbWords m :=
  List.mem_cons_of_mem _ (List.mem_cons_of_mem _ (List.mem_map.2 ⟨i, List.mem_range.2 hi, rfl⟩))

/-- The response buffer takes words, none of which is armed to flip. -/
theorem State.putResponse_sound (sound : Sound s) (m : Mbox) {l : List Word} (hl : l.length ≤ 64) :
    s.putResponse m l = s.wrAll (fun i => aMbbuf m.val (0x40 + i)) l :=
  State.wrAll_of_flips (f := fun i => aMbbuf m.val (0x40 + i)) (r := 24) sound (by decide) (fun i => 0x2000 + 0x80 * m.val + (0x40 + i))
    fun i hi => by simp only [aMbbuf]; omega

theorem mbKept_putResponse (sound : Sound s) (m : Mbox) {l : List Word} (hl : l.length ≤ 64) : MbKept s (s.putResponse m l) m [] := by
  rw [State.putResponse_sound sound m hl, State.wrAll_eq]
  exact mbKept_ws fun a ha => State.wrAll_rd_ne fun i hi e => ha (e ▸ aMbbuf_mem_mbWords m (by omega))

theorem State.putResponse_rd (sound : Sound s) (m : Mbox) {l : List Word} (hl : l.length ≤ 64) {i : Nat} (hi : i < l.length) :
    (s.putResponse m l).rd (aMbbuf m.val (0x40 + i)) = nth 0 l i := by
  rw [State.putResponse_sound sound m hl]
  exact State.wrAll_rd (f := fun i => aMbbuf m.val (0x40 + i)) (fun i _ j _ e => by simp only [aMbbuf] at e; omega) hi

/-- A response that is for this device's host is there with DONE and the mailbox event (R254). -/
theorem State.mbDeliver_eq (inbound : s.mboxes[m].inbound = none) (orphan : s.mboxes[m].orphan = false) (l : List Word) :
    s.mbDeliver m l = (((s.putResponse m l).modMbox m fun x => { x with hold := .none, journal := none }).fset (aMbctl m.val) 23 21 4).evMbox m.val := by
  unfold State.mbDeliver
  rw [inbound, orphan]
  rfl

/-- Delivery of a response changes what a served mailbox may change, and leaves DONE and the mailbox event. -/
theorem State.mbDeliver_spec (sound : Sound s) (inbound : s.mboxes[m].inbound = none) (orphan : s.mboxes[m].orphan = false) {l : List Word}
    (hl : l.length ≤ 64) : let t := s.mbDeliver m l
    MbKept s t m [] ∧ t.mbPhase m = 4 ∧ t.evFlag (48 + m.val) = true ∧ t.mbOrder = s.mbOrder ∧
      ∀ a, a ≠ aMbctl m.val → t.rd a = (s.putResponse m l).rd a := by
  rw [State.mbDeliver_eq inbound orphan, State.evMbox]
  have freed := mbKept_modMbox (s.putResponse m l) m fun x => { x with hold := .none, journal := none }
  refine ⟨mbKept_trans (mbKept_putResponse sound m hl) (mbKept_trans freed (mbKept_trans (mbKept_fset_mbctl _ m 23 21 4) (mbKept_raise _ m _))), ?_,
    State.raise_evFlag _ (by omega), ?_, fun a ha => ?_⟩
  · rw [State.mbPhase, State.fget, State.raise_rd, State.fset_rd, if_pos rfl, fld_putFld _ _ (by decide) (by decide)]
    rfl
  · rw [State.raise_mbOrder, State.fset, State.wr_mbOrder, State.modMbox_mbOrder, State.putResponse_sound sound m hl, State.wrAll_eq]
  · rw [State.raise_rd, State.fset_rd, if_neg ha, State.modMbox_rd]

/-- The words of a response (R257). -/
def State.response (t : State) (m : Mbox) (code : Nat) (res : List Word) : List Word :=
  [t.rspHead (t.reqCmd m) code res.length, t.reqWord m 1, t.reqWord m 2] ++ res

theorem State.response_length (t : State) (m : Mbox) (code : Nat) (res : List Word) : (t.response m code res).length = res.length + 3 := by
  simp [State.response]

/-- A completion delivers its response once it has been kept for delivery again (R259). -/
theorem State.mbFinish_eq (s : State) (m : Mbox) (code : Nat) (res : List Word) : ∃ f : MboxSt → MboxSt,
    (∀ x, (f x).inbound = x.inbound ∧ (f x).orphan = x.orphan) ∧ s.mbFinish m code res = (s.modMbox m f).mbDeliver m (s.response m code res) := by
  unfold State.mbFinish
  by_cases c : code = 5
  · refine ⟨id, fun _ => ⟨rfl, rfl⟩, ?_⟩
    have same : s.modMbox m id = s := by simp [State.modMbox, vmod]
    simp only [c, if_true, same]
    rfl
  · exact ⟨fun x => { x with lastRsp := s.response m code res }, fun _ => ⟨rfl, rfl⟩, by simp only [c, if_false]; rfl⟩

/-- A completion changes what a served mailbox may change, and leaves the response, DONE and the mailbox event. -/
theorem State.mbFinish_spec (sound : Sound s) (inbound : s.mboxes[m].inbound = none) (orphan : s.mboxes[m].orphan = false) (code : Nat) {res : List Word}
    (hl : res.length ≤ 61) : let t := s.mbFinish m code res
    MbKept s t m [] ∧ t.mbPhase m = 4 ∧ t.evFlag (48 + m.val) = true ∧ t.mbOrder = s.mbOrder ∧ t.rd (aMbseq m.val) = s.rd (aMbseq m.val) ∧
      ∀ i < res.length + 3, t.rd (aMbbuf m.val (0x40 + i)) = nth 0 (s.response m code res) i := by
  obtain ⟨f, hf, finished⟩ := s.mbFinish_eq m code res
  have short : (s.response m code res).length ≤ 64 := by rw [State.response_length]; omega
  have good : Sound (s.modMbox m f) := sound
  have box := s.modMbox_same m f
  obtain ⟨kept, phase, event, order, words⟩ := State.mbDeliver_spec (m := m) good (by rw [box, (hf _).1, inbound]) (by rw [box, (hf _).2, orphan]) short
  rw [finished]
  refine ⟨mbKept_trans (mbKept_modMbox s m f) kept, phase, event, order, ?_, fun i hi => ?_⟩
  · rw [words _ (by simp only [aMbseq, aMbctl]; omega), State.putResponse_sound good m short,
      State.wrAll_rd_ne fun i _ => by simp only [aMbseq, aMbbuf]; omega, State.modMbox_rd]
  · rw [words _ (by simp only [aMbbuf, aMbctl]; omega)]
    exact State.putResponse_rd good m short (by rw [State.response_length]; exact hi)

/-- What answering m's request, which t has served, leaves: the response, and beside it what a served mailbox may change. -/
theorem Serves.done (serves : Serves s m t) (code : Nat) {res : List Word} (hl : res.length ≤ 61) :
    MbDone s (t.dropShadows.mbFinish m code res) m code res ∧ MbKept t (t.dropShadows.mbFinish m code res) m [] := by
  obtain ⟨sound, req, seq, inbound, orphan, order⟩ := serves
  have dropped : MbKept t t.dropShadows m [] := ⟨fun _ _ => rfl, fun _ _ => rfl, rfl⟩
  obtain ⟨kept, phase, event, ordered, next, words⟩ := State.mbFinish_spec (s := t.dropShadows) sound inbound orphan code hl
  have cmd : t.reqCmd m = s.reqCmd m := congrArg (fld · 23 16) (req 0 (by decide))
  have dev : (t.dropShadows.mbFinish m code res).dev = t.dev := by
    obtain ⟨-, -, beside⟩ := kept
    rw [beside]
    rfl
  refine ⟨⟨⟨phase, event, ?_, ?_, ?_, fun i hi => ?_, ?_⟩, next.trans seq⟩, mbKept_trans dropped kept⟩
  · rw [words 0 (by omega), dev, ← cmd]
    rfl
  · rw [words 1 (by omega), ← req 1 (by decide)]
    rfl
  · rw [words 2 (by omega), ← req 2 (by decide)]
    rfl
  · rw [show 0x43 + i = 0x40 + (i + 3) by omega, words (i + 3) (by omega)]
    rfl
  · rw [ordered]
    exact order

end

/-! ### Into service -/

section
variable {s : State} {m : Mbox} {cmd : Nat}

/-- Mailbox m goes into service and its request is accepted. -/
def State.taken (s : State) (m : Mbox) : State := (s.toService m).seqAccept m

/-- Beside the mailbox's own state, going into service takes it from the order of posting and may draw a free value (R260). -/
theorem State.toService_eq (s : State) (m : Mbox) : ∃ (n : Nat) (core : Bool), s.toService m =
    (((({ s with mbOrder := s.mbOrder.filter (· != m.val), freeCtr := n } : State).fset (aMbctl m.val) 23 21 3).bset (aMbctl m.val) 16 core).modMbox m
      fun x => { x with journal := some false }) := by
  unfold State.toService
  dsimp only
  split
  · exact ⟨s.freeCtr, _, rfl⟩
  · exact ⟨s.freeCtr, _, rfl⟩
  · exact ⟨s.freeCtr + 1, _, rfl⟩

theorem State.toService_rd_ne (s : State) (m : Mbox) {a : Nat} (ne : a ≠ aMbctl m.val) : (s.toService m).rd a = s.rd a := by
  obtain ⟨n, core, eq⟩ := s.toService_eq m
  rw [eq, State.modMbox_rd, State.bset_rd, if_neg ne, State.fset_rd, if_neg ne]
  rfl

theorem State.toService_kept (s : State) (m : Mbox) : MbKept s (s.toService m) m [] := by
  refine ⟨fun a ha => s.toService_rd_ne m fun e => ha (e ▸ List.mem_cons_self), fun n ne => ?_, ?_⟩ <;> obtain ⟨n, core, eq⟩ := s.toService_eq m <;> rw [eq]
  · exact State.modMbox_ne _ _ ne
  · rfl

theorem State.toService_mbox (s : State) (m : Mbox) : (s.toService m).mboxes[m] = { s.mboxes[m] with journal := some false } := by
  obtain ⟨n, core, eq⟩ := s.toService_eq m
  rw [eq, State.modMbox_same]
  rfl

theorem State.toService_reqWord (s : State) (m : Mbox) {i : Nat} (hi : i < 64) : (s.toService m).reqWord m i = s.reqWord m i :=
  s.toService_rd_ne m (by simp only [aMbbuf, aMbctl]; omega)

theorem State.taken_rd_ne (s : State) (m : Mbox) {a : Nat} (ne : a ≠ aMbctl m.val) (ne' : a ≠ aMbseq m.val) : (s.taken m).rd a = s.rd a := by
  rw [State.taken, State.seqAccept, State.modMbox_rd, State.rd_wr_ne _ _ ne', State.toService_rd_ne s m ne]

theorem State.taken_kept (s : State) (m : Mbox) : MbKept s (s.taken m) m [] := by
  have words : MbKept (s.toService m) ((s.toService m).wr (aMbseq m.val) ((s.toService m).reqWord m 1 + 1)) m [] :=
    mbKept_ws fun _ ha => State.rd_wr_ne _ _ fun e => ha (e ▸ List.mem_cons_of_mem _ List.mem_cons_self)
  exact mbKept_trans (s.toService_kept m) (mbKept_trans words (mbKept_modMbox _ m _))

theorem State.taken_mbOrder (s : State) (m : Mbox) : (s.taken m).mbOrder = s.mbOrder.filter (· != m.val) := by
  obtain ⟨n, core, eq⟩ := s.toService_eq m
  rw [State.taken, State.seqAccept, State.modMbox_mbOrder, State.wr_mbOrder, eq]
  rfl

theorem State.taken_mbPhase (s : State) (m : Mbox) : (s.taken m).mbPhase m = 3 := by
  obtain ⟨n, core, eq⟩ := s.toService_eq m
  rw [State.mbPhase, State.fget, State.taken, State.seqAccept, State.modMbox_rd, State.rd_wr_ne _ _ (by simp only [aMbctl, aMbseq]; omega), eq,
    State.modMbox_rd, State.bset, State.fset_rd, if_pos rfl, fld_putFld_apart _ _ (by decide) (by decide), State.fset_rd, if_pos rfl,
    fld_putFld _ _ (by decide) (by decide)]
  rfl

/-- An accepted request may be answered. -/
theorem State.taken_serves (acc : MbAccepted s m cmd) : Serves s m (s.taken m) := by
  obtain ⟨⟨-, -, -, -, inbound, orphan, sound⟩, -⟩ := acc
  obtain ⟨-, -, beside⟩ := s.taken_kept m
  have box : (s.taken m).mboxes[m] = { s.mboxes[m] with journal := some false, isSet := true, lastReq := (s.toService m).reqKey m } := by
    rw [State.taken, State.seqAccept, State.modMbox_same, State.wr_mboxes, State.toService_mbox]
  have bad : (s.taken m).repair.bad = s.repair.bad := by rw [beside]
  refine ⟨sound_of_words sound bad fun r _ => ?_, fun i hi => ?_, ?_, ?_, ?_, ?_⟩
  · exact s.taken_rd_ne m (by simp only [aRegion, aMbctl]; omega) (by simp only [aRegion, aMbseq]; omega)
  · exact s.taken_rd_ne m (by simp only [aMbbuf, aMbctl]; omega) (by simp only [aMbbuf, aMbseq]; omega)
  · rw [State.taken, State.seqAccept, State.modMbox_rd, State.rd_wr_same, State.toService_reqWord s m (by decide)]
  · rw [box]; exact inbound
  · rw [box]; exact orphan
  · rw [State.taken_mbOrder]; simp

end

end Sys2Proof.Machine
end

section
/-! An accepted command is served by its meaning (R252): what a command of the model does in a state that `Safety.MbAccepted` describes. -/

namespace Sys2Proof.Machine

open Safety

section
variable {s : State} {m : Mbox} {cmd : Nat}

/-- No word of a request is lost where no stored word is wrong (R283). -/
theorem State.reqLost_sound (good : s.repair.bad = []) : s.reqLost m = (s, false) := by
  have sound : ∀ a, s.badAt 24 a = none := fun a => by rw [State.badAt, good]; rfl
  exact List.foldlRecOn (motive := fun a : State × Bool => a = (s, false)) (List.range 64) _ rfl fun a ha i _ => by
    subst ha
    simp only [sound]

theorem State.taken_reqArgs (s : State) (m : Mbox) : (s.taken m).reqArgs m = s.reqArgs m := by
  have words : ∀ i, (s.taken m).reqWord m i = s.reqWord m i := fun i =>
    s.taken_rd_ne m (by simp only [aMbbuf, aMbctl]; omega) (by simp only [aMbbuf, aMbseq]; omega)
  simp only [State.reqArgs, State.reqNarg, words]

theorem State.toService_seqCheck (s : State) (m : Mbox) : (s.toService m).seqCheck m = s.seqCheck m := by
  have words : ∀ i, (s.toService m).reqWord m i = s.reqWord m i := fun i => s.toService_rd_ne m (by simp only [aMbbuf, aMbctl]; omega)
  have exp : (s.toService m).rd (aMbseq m.val) = s.rd (aMbseq m.val) := s.toService_rd_ne m (by simp only [aMbseq, aMbctl]; omega)
  have args : (s.toService m).reqKey m = s.reqKey m := by simp only [State.reqKey, State.reqArgs, State.reqNarg, words]
  simp only [State.seqCheck, State.reqCmd, words, exp, args, State.toService_mbox]
  rfl

/-- What a state tells of a device that serves mailboxes. -/
theorem mbKept_cmdLegal {t : State} (kept : MbKept s t m []) (c : Nat) : t.cmdLegal c = s.cmdLegal c := by
  obtain ⟨words, -, beside⟩ := kept
  have core : ∀ k < 2, t.rd (aCore k 0) = s.rd (aCore k 0) := fun k hk => words _ fun h => by
    simp only [mbWords, List.append_nil, List.mem_cons, List.mem_map, List.mem_range, aCore, aMbctl, aMbseq, aMbbuf] at h
    omega
  have dev : t.dev = s.dev := by rw [beside]
  have reason : t.reason = s.reason := by rw [beside]
  simp only [State.cmdLegal, State.romServes, State.bget, dev, reason, core 0 (by decide), core 1 (by decide)]

/-- The state that a command's answer or its wait leaves. -/
def Served.end (m : Mbox) : Served → State
  | .done t c r => t.dropShadows.mbFinish m c r
  | .held t => t

/-- An accepted command is served by its meaning, with the request's arguments. -/
theorem State.command_eq (acc : MbAccepted s m cmd) (f : List Word → State → Served) :
    s.command m cmd anyReq f = (f (s.reqArgs m) (s.taken m)).end m := by
  have serves := State.taken_serves acc
  obtain ⟨⟨next, posted, named, unit, -, -, good, -⟩, accept, known, most, least, legal⟩ := acc
  have serviceGood : (s.toService m).repair.bad = [] := by
    obtain ⟨-, -, beside⟩ := s.toService_kept m
    rw [beside]
    exact good
  have lost := State.reqLost_sound (s := s.toService m) (m := m) serviceGood
  have here : ¬ ((s.taken m).reqWord m 2 ≠ 0 ∧ (s.taken m).reqWord m 2 ≠ (s.taken m).unit) := by
    rw [serves.req 2 (by decide), unit]
    simp
  have inRange : ((!knownCmd (s.reqCmd m)) || decide ((s.taken m).reqNarg m < (cmdArgs cmd).1 ∨ (cmdArgs cmd).2 < (s.taken m).reqNarg m)) = false := by
    rw [named, known, State.reqNarg, serves.req 0 (by decide), ← State.reqNarg]
    simp
    omega
  have legalHere : (!(s.taken m).cmdLegal cmd) = false := by rw [mbKept_cmdLegal (s.taken_kept m), legal]; rfl
  unfold State.command State.serve
  rw [if_neg (by simp [next, posted, named, anyReq])]
  simp only [lost, State.toService_seqCheck, accept]
  rw [← State.taken, if_neg here, State.checked]
  simp only [inRange, legalHere, Bool.false_eq_true, if_false, State.taken_reqArgs]
  rfl

/-! ### The request's arguments -/

theorem mbAccepted_arg (acc : MbAccepted s m cmd) {i : Nat} (hi : i < (cmdArgs cmd).1) : argAt (s.reqArgs m) i = mbArg s m i := by
  obtain ⟨-, -, -, most, -⟩ := acc
  have : i < s.reqNarg m := by omega
  simp [argAt, nth, State.reqArgs, mbArg, this]

theorem reqArgs_length (s : State) (m : Mbox) : (s.reqArgs m).length = s.reqNarg m := by simp [State.reqArgs]

/-- The arguments after the first. -/
theorem reqArgs_drop_one (s : State) (m : Mbox) : (s.reqArgs m).drop 1 = (List.range (s.reqNarg m - 1)).map fun i => mbArg s m (1 + i) := by
  refine List.ext_getElem (by simp [State.reqArgs]) fun i _ _ => ?_
  simp [State.reqArgs, mbArg, Nat.add_comm 1 i]

/-! ### The command's end -/

/-- What serving a mailbox does not change. -/
theorem mbKept_same {t : State} {A : List Nat} {α : Type} (kept : MbKept s t m A) (p : State → α)
    (beside : ∀ v w : State, p (v.bookkept w) = p v := by exact fun _ _ => rfl) : p t = p s := by
  obtain ⟨-, -, eq⟩ := kept
  exact (congrArg p eq).trans (beside s t)

theorem mem_mbWords {a : Nat} (h : a ∈ mbWords m) : 0xC7E100 ≤ a ∧ a < 0xC7F800 := by
  simp only [mbWords, List.mem_cons, List.mem_map, List.mem_range] at h
  obtain rfl | rfl | ⟨i, hi, rfl⟩ := h
  · simp only [aMbctl]; omega
  · simp only [aMbseq]; omega
  · simp only [aMbbuf]; omega

theorem mbKept_rd {t : State} {A : List Nat} {a : Nat} (kept : MbKept s t m A) (hA : a ∉ A) (apart : a < 0xC7E100 ∨ 0xC7F800 ≤ a) : t.rd a = s.rd a :=
  kept.1 a fun h => (List.mem_append.1 h).elim (fun h => by have := mem_mbWords h; omega) hA

theorem mbKept_mono {t : State} {A B : List Nat} (kept : MbKept s t m A) (sub : ∀ a ∈ A, a ∈ B) : MbKept s t m B := by
  obtain ⟨words, others, beside⟩ := kept
  refine ⟨fun a ha => words a fun h => ha ?_, others, beside⟩
  exact List.mem_append.2 ((List.mem_append.1 h).imp_right (sub a))

/-- The answer carries over beside a change of other fields. -/
theorem mbKept_after {t u : State} {A : List Nat} (g : State → State) (before : MbKept s (g t) m A) (answered : MbKept t u m [])
    (beside : ∀ v w : State, g (v.bookkept w) = (g v).bookkept w := by exact fun _ _ => rfl) : MbKept s (g u) m A := by
  have := mbKept_trans before (mbKept_map answered g beside)
  rwa [List.append_nil] at this

/-- A command that its meaning answers completes. -/
theorem completes_command (acc : MbAccepted s m cmd) {i : Instr} {f : List Word → State → Served} (run : exec i s = .next (s.command m cmd anyReq f))
    {t : State} {code : Nat} {res : List Word} (meaning : f (s.reqArgs m) (s.taken m) = .done t code res) (serves : Serves s m t) (short : res.length ≤ 61)
    {P : State → Prop} (holds : ∀ u, MbDone s u m code res → MbKept t u m [] → P u) : Completes i s P := by
  obtain ⟨done, kept⟩ := serves.done code short
  refine ⟨_, run, ?_⟩
  rw [State.command_eq acc, meaning]
  exact holds _ done kept

/-- A command whose meaning changes nothing. -/
theorem completes_unchanged (acc : MbAccepted s m cmd) {i : Instr} {f : List Word → State → Served} (run : exec i s = .next (s.command m cmd anyReq f))
    {code : Nat} {res : List Word} (meaning : f (s.reqArgs m) (s.taken m) = .done (s.taken m) code res) (short : res.length ≤ 61) :
    Completes i s fun u => MbDone s u m code res ∧ MbKept s u m [] :=
  completes_command acc run meaning (State.taken_serves acc) short fun _ done kept => ⟨done, mbKept_trans (s.taken_kept m) kept⟩

end

/-! ### Reads of DRAM (R130, R141) -/

section
variable {s : State} {m : Mbox}

/-- The words that count reads beyond the capacity. -/
def oorWords : List Nat := (List.range 4).map fun c => aChan c 1

theorem State.countOor_eq (s : State) (us : List Nat) : s.countOor us = { s with
    ws := (s.countOor us).ws
    hw := (s.countOor us).hw
    pcie := (s.countOor us).pcie } := by
  unfold State.countOor
  dsimp only
  split
  · rfl
  · rw [State.evDram, State.raise_eq]
    have counted : ∀ (l : List Nat), l.foldl (fun (t : State) u => t.inc (aChan (s.chanOf (32 * u)).val 1) 15 8) s =
        { s with ws := (l.foldl (fun (t : State) u => t.inc (aChan (s.chanOf (32 * u)).val 1) 15 8) s).ws } := fun l =>
      List.foldlRecOn (motive := fun t : State => t = { s with ws := t.ws }) l _ rfl fun t ht u _ =>
        congrArg (fun v : State => v.inc (aChan (s.chanOf (32 * u)).val 1) 15 8) ht
    rw [counted]

theorem State.countOor_rd (s : State) (us : List Nat) {a : Nat} (ha : a ∉ oorWords) : (s.countOor us).rd a = s.rd a := by
  have apart : ∀ c : Chan, a ≠ aChan c.val 1 := fun c e => ha (e ▸ List.mem_map.2 ⟨c.val, List.mem_range.2 c.isLt, rfl⟩)
  unfold State.countOor
  dsimp only
  split
  · rfl
  · rw [State.evDram, State.raise_rd]
    exact List.foldlRecOn (motive := fun t : State => t.rd a = s.rd a) _ _ rfl fun t ht u _ => by
      rw [State.inc_rd, if_neg (apart _), ht]

theorem State.caeRead_rd (s : State) (w : Word) (n : Nat) {a : Nat} (ha : a ∉ oorWords) : (s.caeRead w n).rd a = s.rd a :=
  s.countOor_rd _ ha

/-- A read of DRAM by Caeruno counts, and changes nothing else. -/
theorem State.caeRead_kept (s : State) (m : Mbox) (w : Word) (n : Nat) : MbKept s { s.caeRead w n with clsBytes := s.clsBytes } m oorWords := by
  refine ⟨fun a ha => s.caeRead_rd w n fun h => ha (List.mem_append_right _ h), fun k _ => ?_, ?_⟩ <;> rw [State.caeRead, State.countOor_eq]

theorem answerWord_not_oor {a : Nat} (h : AnswerWord a) : a ∉ oorWords := by
  simp only [oorWords, List.mem_map, List.mem_range, aChan, AnswerWord] at *
  omega

theorem Serves.caeRead {t : State} (serves : Serves s m t) (w : Word) (n : Nat) : Serves s m (t.caeRead w n) := by
  have eq : t.caeRead w n = { t with
      ws := (t.caeRead w n).ws
      hw := (t.caeRead w n).hw
      pcie := (t.caeRead w n).pcie
      clsBytes := (t.caeRead w n).clsBytes } := by
    rw [State.caeRead, State.countOor_eq]
  exact serves.keep (fun a ha => t.caeRead_rd w n (answerWord_not_oor ha)) (by rw [eq]) (by rw [eq]) (by rw [eq])

theorem mbKept_dramAt {t : State} {A : List Nat} (kept : MbKept s t m A) (h0 : aDram 0 ∉ A) (h1 : aDram 1 ∉ A) : t.dramAt = s.dramAt := by
  have used := mbKept_rd kept h0 (by decide)
  have span := mbKept_rd kept h1 (by decide)
  have dram := mbKept_same kept (·.dram)
  have chans := mbKept_same kept (·.chans)
  have chan : t.chanOf = s.chanOf := by funext a; unfold State.chanOf State.fget; rw [used]
  have cap : t.dramCap = s.dramCap := by unfold State.dramCap State.nch State.fget State.bget; rw [used, span]
  funext w o n
  simp only [State.dramAt, State.nowBytes, State.unitNow, State.dramBytes, chan, cap, dram, chans]

theorem State.taken_dramAt (s : State) (m : Mbox) : (s.taken m).dramAt = s.dramAt := mbKept_dramAt (s.taken_kept m) (by simp) (by simp)

theorem State.taken_imageWords (s : State) (m : Mbox) : (s.taken m).imageWords = s.imageWords := by
  funext w n
  simp only [State.imageWords, State.taken_dramAt]

theorem State.caeRead_imageWords (s : State) (m : Mbox) (w : Word) (n : Nat) : (s.caeRead w n).imageWords = s.imageWords := by
  have : (s.caeRead w n).dramAt = s.dramAt := mbKept_dramAt (t := { s.caeRead w n with clsBytes := s.clsBytes }) (s.caeRead_kept m w n) (by decide) (by decide)
  funext x k
  simp only [State.imageWords, this]

/-- A command whose meaning only reads DRAM. -/
theorem completes_read {cmd : Nat} (acc : MbAccepted s m cmd) {i : Instr} {f : List Word → State → Served}
    (run : exec i s = .next (s.command m cmd anyReq f)) {code : Nat} {w : Word} {n : Nat}
    (meaning : f (s.reqArgs m) (s.taken m) = .done ((s.taken m).caeRead w n) code []) :
    Completes i s fun u => MbDone s u m code [] ∧ MbKept s { u with clsBytes := s.clsBytes } m oorWords := by
  refine completes_command acc run meaning ((State.taken_serves acc).caeRead w n) (by decide) fun u done kept => ⟨done, ?_⟩
  have taken := s.taken_kept m
  have read := (s.taken m).caeRead_kept m w n
  rw [mbKept_same taken (·.clsBytes)] at read
  exact mbKept_after (fun t => { t with clsBytes := s.clsBytes }) (mbKept_trans taken read) kept

end

end Sys2Proof.Machine
end

section
/-! Bytes of flash and the directory (R200, R268): what a write leaves there, and that a directory written is a good one. -/

namespace Sys2Proof.Machine

open Safety

/-! ### Runs of values in a sparse map -/

section
variable {α : Type} [DecidableEq α] (d : Nat → α)

theorem spGet_spWrite_nth (m : List (Nat × α)) (k : Nat) (l : List α) {i : Nat} (h : i < l.length) (z : α) : spGet d (spWrite d m k l) (k + i) = nth z l i := by
  simp [spGet_spWrite, nth, h]

/-- What was written reads back, run by run. -/
theorem spRead_spWrite (m : List (Nat × α)) (k : Nat) (l : List α) {j n : Nat} (h : j + n ≤ l.length) :
    spRead d (spWrite d m k l) (k + j) n = (l.drop j).take n := by
  refine List.ext_getElem (by simp [spRead]; omega) fun i h₁ _ => ?_
  have hi : i < n := by simpa [spRead] using h₁
  have in' : j + i < l.length := by omega
  simp only [spRead, List.getElem_map, List.getElem_range, List.getElem_take, List.getElem_drop, Nat.add_assoc k j i]
  rw [spGet_spWrite_nth d m k l in' (d 0), nth, List.getD_eq_getElem _ _ in']

theorem spRead_spWrite_apart (m : List (Nat × α)) (k : Nat) (l : List α) {j n : Nat} (h : j + n ≤ k ∨ k + l.length ≤ j) :
    spRead d (spWrite d m k l) j n = spRead d m j n :=
  List.map_congr_left fun i hi => by
    have := List.mem_range.1 hi
    rw [spGet_spWrite, dif_neg (by omega)]

end

theorem spRead_length {α : Type} (d : Nat → α) (m : List (Nat × α)) (k n : Nat) : (spRead d m k n).length = n := by simp [spRead]

theorem spRead_take {α : Type} (d : Nat → α) (m : List (Nat × α)) (k : Nat) {i n : Nat} (h : i ≤ n) : (spRead d m k n).take i = spRead d m k i := by
  simp [spRead, ← List.map_take, List.take_range, h]

/-! ### The directory -/

section
variable {s : State} {i : Nat} {d : List Byte}

theorem State.dirGood_of_flash {t : State} (h : t.flash = s.flash) (b : Nat) : t.dirGood b = s.dirGood b := by
  unfold State.dirGood State.flashBytes
  rw [h]

theorem State.dirField_of_flash {t : State} (h : t.flash = s.flash) (o : Nat) : t.dirField o = s.dirField o := by
  unfold State.dirField State.dirBase State.dirGood State.flashBytes
  rw [h]

/-- The directory in force, or an empty one with its mark. -/
def State.dirOld (s : State) : List Byte := match s.dirBase with
  | some b => s.flashBytes b 60
  | none => ascii "KZFD" ++ List.replicate 56 0

theorem State.dirGood_of_dirBase {b : Nat} (h : s.dirBase = some b) : s.dirGood b = true := by
  unfold State.dirBase at h
  split at h
  · cases h; assumption
  · split at h
    · cases h; assumption
    · cases h

theorem State.dirOld_length (s : State) : s.dirOld.length = 60 := by
  unfold State.dirOld
  split
  · exact spRead_length _ _ _ _
  · decide

theorem State.dirOld_mark (s : State) : s.dirOld.take 4 = ascii "KZFD" := by
  unfold State.dirOld
  split
  next b hb =>
    have good := State.dirGood_of_dirBase hb
    rw [State.dirGood, Bool.and_eq_true, beq_iff_eq] at good
    rw [State.flashBytes, spRead_take _ _ _ (by decide)]
    exact good.1
  · decide

/-- The directory's fields with some replaced. -/
def State.dirFields (s : State) (i : Nat) (d : List Byte) : List Byte := s.dirOld.take i ++ d ++ s.dirOld.drop (i + d.length)

theorem State.dirFields_length (s : State) (h : i + d.length ≤ 60) : (s.dirFields i d).length = 60 := by
  simp [State.dirFields, State.dirOld_length]
  omega

theorem State.dirFields_mark (s : State) (h : 4 ≤ i) : (s.dirFields i d).take 4 = ascii "KZFD" := by
  rw [State.dirFields, List.append_assoc, List.take_append_of_le_length (by simp [State.dirOld_length]; omega), List.take_take,
    Nat.min_eq_left h, State.dirOld_mark]

theorem State.dirFields_new (s : State) (h : i ≤ 60) {j n : Nat} (hj : j + n ≤ d.length) :
    ((s.dirFields i d).drop (i + j)).take n = (d.drop j).take n := by
  have first : (s.dirOld.take i).length = i := by simp [State.dirOld_length]; omega
  have new : (s.dirFields i d).drop i = d ++ s.dirOld.drop (i + d.length) := by rw [State.dirFields, List.append_assoc, List.drop_left' first]
  rw [← List.drop_drop, new, List.drop_append_of_le_length (by omega), List.take_append_of_le_length (by simp; omega)]

/-- Everything of the directory but the CRC: the fields, and GEN raised by one. -/
def State.dirCovered (s : State) (i : Nat) (d : List Byte) : List Byte :=
  (s.dirFields i d).take 56 ++ bytesLE 4 (ofBytesLE (((s.dirFields i d).drop 56).take 4) + 1)

theorem State.dirCovered_length (s : State) (h : i + d.length ≤ 60) : (s.dirCovered i d).length = 60 := by
  simp [State.dirCovered, State.dirFields_length s h, bytesLE_length]

theorem State.dirImage_eq (s : State) (i : Nat) (d : List Byte) : s.dirImage i d = s.dirCovered i d ++ bytesLE 4 (crc32c (s.dirCovered i d)).toNat := rfl

theorem State.dirImage_length (s : State) (h : i + d.length ≤ 60) : (s.dirImage i d).length = 64 := by
  rw [State.dirImage_eq, List.length_append, State.dirCovered_length s h, bytesLE_length]

theorem State.dirImage_fields (s : State) (h : i + d.length ≤ 60) {j n : Nat} (hj : j + n ≤ 56) :
    ((s.dirImage i d).drop j).take n = ((s.dirFields i d).drop j).take n := by
  have long := s.dirFields_length h
  rw [State.dirImage_eq, State.dirCovered, List.append_assoc, List.drop_append_of_le_length (by simp; omega),
    List.take_append_of_le_length (by simp; omega), List.drop_take, List.take_take, Nat.min_eq_left (by omega)]

/-- Where the directory and its copy stand. -/
theorem State.dirWrite_bytes (s : State) (h : i + d.length ≤ 60) {b : Nat} (hb : b = 0 ∨ b = 0x1000) {j n : Nat} (hj : j + n ≤ 64) :
    (s.dirWrite i d).flashBytes (b + j) n = ((s.dirImage i d).drop j).take n := by
  have long := s.dirImage_length h
  rw [State.flashBytes, State.dirWrite]
  rcases hb with rfl | rfl
  · rw [spRead_spWrite_apart _ _ _ _ (by omega), spRead_spWrite _ _ _ _ (by omega)]
  · rw [spRead_spWrite _ _ _ _ (by omega)]

theorem State.dirWrite_byte_beyond (s : State) (h : i + d.length ≤ 60) {a : Nat} (ha : 0x1040 ≤ a) :
    spGet zeroB (s.dirWrite i d).flash a = spGet zeroB s.flash a := by
  have long := s.dirImage_length h
  rw [State.dirWrite, spGet_spWrite, dif_neg (by omega), spGet_spWrite, dif_neg (by omega)]

/-- A directory written is good, in both places (R200). -/
theorem State.dirWrite_good (s : State) (h : i + d.length ≤ 60) (mark : 4 ≤ i) {b : Nat} (hb : b = 0 ∨ b = 0x1000) : (s.dirWrite i d).dirGood b = true := by
  have covered := s.dirCovered_length h
  have marked : (s.dirWrite i d).flashBytes b 4 = ascii "KZFD" := by
    rw [← Nat.add_zero b, s.dirWrite_bytes h hb (by decide), s.dirImage_fields h (by decide), List.drop_zero, s.dirFields_mark mark]
  have body : (s.dirWrite i d).flashBytes b 60 = s.dirCovered i d := by
    rw [← Nat.add_zero b, s.dirWrite_bytes h hb (by decide), List.drop_zero, State.dirImage_eq, List.take_append_of_le_length (by omega), ← covered,
      List.take_length]
  have sum : (s.dirWrite i d).flashBytes (b + 60) 4 = bytesLE 4 (crc32c (s.dirCovered i d)).toNat := by
    rw [s.dirWrite_bytes h hb (by decide), State.dirImage_eq, List.drop_append_of_le_length (by omega), ← covered, List.drop_length, List.nil_append,
      List.take_of_length_le (by rw [bytesLE_length])]
  rw [State.dirGood, marked, body, sum, ofBytesLE_bytesLE 4 _ (crc32c _).isLt]
  simp

/-- A field written reads back. -/
theorem State.dirWrite_field (s : State) (h : i + d.length ≤ 56) (mark : 4 ≤ i) {j : Nat} (hj : j + 4 ≤ d.length) :
    (s.dirWrite i d).dirField (i + j) = ofBytesLE ((d.drop j).take 4) := by
  have base : (s.dirWrite i d).dirBase = some 0 := by rw [State.dirBase, s.dirWrite_good (by omega) mark (.inl rfl), if_pos rfl]
  rw [State.dirField, base]
  show ofBytesLE ((s.dirWrite i d).flashBytes (0 + (i + j)) 4) = _
  rw [s.dirWrite_bytes (by omega) (.inl rfl) (by omega), s.dirImage_fields (by omega) (by omega), s.dirFields_new (by omega) hj]

end

end Sys2Proof.Machine
end

section
/-! The commands that write flash, on an accepted request (R268). -/

namespace Sys2Proof.Machine

open Safety

theorem completes_mono {i : Instr} {s : State} {P Q : State → Prop} (h : Completes i s P) (imp : ∀ t, P t → Q t) : Completes i s Q := by
  obtain ⟨t, run, p⟩ := h
  exact ⟨t, run, imp t p⟩

/-! ### What Caeruno reads from DRAM is as long as it asks -/

section
variable (s : State)

theorem State.dramBytes_length (a n : Nat) : (s.dramBytes a n).length = n := by simp [State.dramBytes]

theorem State.unitNow_length (u : Nat) : 32 ≤ (s.unitNow u).length := by
  unfold State.unitNow
  dsimp only
  refine List.foldlRecOn (motive := fun b : List Byte => 32 ≤ b.length) _ _ (by rw [State.dramBytes_length]) fun b hb w _ => ?_
  simp only [List.length_append, List.length_take, List.length_drop]
  omega

theorem State.nowBytes_length (a n : Nat) : (s.nowBytes a n).length = n := by
  have long : 32 * (unitsOf a n).length ≤ ((unitsOf a n).map fun u => s.unitNow u).flatten.length := by
    induction unitsOf a n with
    | nil => simp
    | cons u us ih =>
      have := s.unitNow_length u
      simp only [List.map_cons, List.flatten_cons, List.length_append, List.length_cons]
      omega
  have units : (unitsOf a n).length = (a % 32 + n + 31) / 32 := by
    simp only [unitsOf, List.length_map, List.length_range]
    omega
  rw [State.nowBytes, List.length_take, List.length_drop]
  omega

theorem State.dramAt_length (w : Word) (off n : Nat) : (s.dramAt w off n).length = n := s.nowBytes_length _ _

end

/-! ### Flash commands -/

section
variable {s : State} {m : Mbox} {cmd : Nat}

/-- A command whose meaning writes flash alone. -/
theorem completes_flash (acc : MbAccepted s m cmd) {i : Instr} {f : List Word → State → Served} (run : exec i s = .next (s.command m cmd anyReq f))
    {t : State} {code : Nat} (meaning : f (s.reqArgs m) (s.taken m) = .done t code []) (only : t = { s.taken m with flash := t.flash }) :
    Completes i s fun u => MbDone s u m code [] ∧ u.flash = t.flash ∧ MbKept s { u with flash := s.flash } m [] := by
  have taken := s.taken_kept m
  have serves : Serves s m t := by
    rw [only]
    exact (State.taken_serves acc).keep fun _ _ => rfl
  refine completes_command acc run meaning serves (by decide) fun u done kept => ⟨done, mbKept_same kept (·.flash), ?_⟩
  refine mbKept_after (fun v => { v with flash := s.flash }) ?_ kept
  rw [only]
  show MbKept s { s.taken m with flash := s.flash } m []
  rw [← mbKept_same taken (·.flash)]
  exact taken

/-- A command whose meaning reads DRAM and writes flash. -/
theorem completes_read_flash (acc : MbAccepted s m cmd) {i : Instr} {f : List Word → State → Served} (run : exec i s = .next (s.command m cmd anyReq f))
    {t : State} {code : Nat} {w : Word} {n : Nat} (meaning : f (s.reqArgs m) (s.taken m) = .done t code [])
    (only : t = { (s.taken m).caeRead w n with flash := t.flash }) :
    Completes i s fun u => MbDone s u m code [] ∧ u.flash = t.flash ∧ MbKept s { u with flash := s.flash, clsBytes := s.clsBytes } m oorWords := by
  have taken := s.taken_kept m
  have read := (s.taken m).caeRead_kept m w n
  have serves : Serves s m t := by
    rw [only]
    exact ((State.taken_serves acc).caeRead w n).keep fun _ _ => rfl
  refine completes_command acc run meaning serves (by decide) fun u done kept => ⟨done, mbKept_same kept (·.flash), ?_⟩
  refine mbKept_after (fun v => { v with flash := s.flash, clsBytes := s.clsBytes }) ?_ kept
  rw [only]
  have := mbKept_map (mbKept_trans taken read) fun v => { v with flash := s.flash }
  rwa [mbKept_same taken (·.clsBytes)] at this

/-- FLASHBLK (R268). -/
theorem flashblk_completes (acc : MbAccepted s m 0x52) : let off := (mbArg s m 0).toNat
    let d := bytesOfWords ((List.range (s.reqNarg m - 1)).map fun i => mbArg s m (1 + i))
    ((s.hostFn 6 = false ∨ off < 0x2000 ∨ s.flashSize < off + d.length) →
      Completes (.flashblk m) s fun t => MbDone s t m 2 [] ∧ MbKept s t m []) ∧
    (s.hostFn 6 = true → 0x2000 ≤ off → off + d.length ≤ s.flashSize → Completes (.flashblk m) s fun t => MbDone s t m 0 [] ∧
      (∀ i < d.length, spGet zeroB t.flash (off + i) = nth 0 d i) ∧ MbKept s { t with flash := s.flash } m []) := by
  intro off d
  have arg : argAt (s.reqArgs m) 0 = mbArg s m 0 := mbAccepted_arg acc (by decide)
  have host : (s.taken m).hostFn 6 = s.hostFn 6 := mbKept_same (s.taken_kept m) (·.hostFn 6)
  have size : (s.taken m).flashSize = s.flashSize := mbKept_same (s.taken_kept m) (·.flashSize)
  have words := reqArgs_drop_one s m
  refine ⟨fun unfit => ?_, fun assisted low high => ?_⟩
  · refine completes_unchanged acc rfl ?_ (by decide)
    simp only [arg, host, size, words]
    rw [if_pos (by simpa [off, d, or_assoc] using unfit)]
  · refine completes_mono (completes_flash acc rfl (code := 0) (t := (if off % sectorBytes = 0 then (s.taken m).flashErase off 1 else s.taken m).flashPut off d) ?_ ?_)
      fun t h => ?_
    · simp only [arg, host, size, words]
      change (if (!s.hostFn 6 || decide (off < 0x2000) || decide (s.flashSize < off + d.length)) = true then _ else _) = _
      exact if_neg (by simp only [assisted, Bool.or_eq_true, Bool.not_true, Bool.false_eq_true, false_or, decide_eq_true_eq]; omega)
    · split <;> rfl
    · obtain ⟨done, flash, kept⟩ := h
      refine ⟨done, fun i hi => ?_, kept⟩
      rw [flash]
      exact spGet_spWrite_nth zeroB _ off d hi 0

/-- FLASHDIR (R268). -/
theorem flashdir_completes (acc : MbAccepted s m 0x53) : let o := (mbArg s m 0).toNat
    let v := (mbArg s m 1).toNat + 2 ^ 24 * fld (mbArg s m 2) 7 0
    ((o ≠ 36 ∧ o ≠ 40 ∧ o ≠ 44 ∧ o ≠ 48 ∧ o ≠ 52 ∨ o = 36 ∧ 2 ≤ v) → Completes (.flashdir m) s fun t => MbDone s t m 2 [] ∧ MbKept s t m []) ∧
    ((o = 40 ∨ o = 44 ∨ o = 48 ∨ o = 52) → Completes (.flashdir m) s fun t => MbDone s t m 0 [] ∧ t.dirField o = v ∧ t.dirGood 0 = true ∧
      t.dirGood 0x1000 = true ∧ MbKept s { t with flash := s.flash } m []) := by
  intro o v
  have arg0 : argAt (s.reqArgs m) 0 = mbArg s m 0 := mbAccepted_arg acc (by decide)
  have arg1 : argAt (s.reqArgs m) 1 = mbArg s m 1 := mbAccepted_arg acc (by decide)
  have arg2 : argAt (s.reqArgs m) 2 = mbArg s m 2 := mbAccepted_arg acc (by decide)
  refine ⟨fun unfit => ?_, fun named => ?_⟩
  · refine completes_unchanged acc rfl ?_ (by decide)
    simp only [arg0, arg1, arg2]
    split
    · rw [if_neg (by omega)]
    · rw [if_neg (by omega)]
  · have len := bytesLE_length 4 v
    have small : v < 256 ^ 4 := by
      have := (mbArg s m 1).isLt
      have := fld_lt (mbArg s m 2) 7 0
      omega
    have field : ((s.taken m).dirWrite o (bytesLE 4 v)).dirField o = v := by
      have := (s.taken m).dirWrite_field (i := o) (d := bytesLE 4 v) (by omega) (by omega) (j := 0) (by omega)
      rwa [Nat.add_zero, List.drop_zero, List.take_of_length_le (by omega), ofBytesLE_bytesLE 4 v small] at this
    refine completes_mono (completes_flash acc rfl (code := 0) (t := (s.taken m).dirWrite o (bytesLE 4 v)) ?_ rfl) fun t h => ?_
    · simp only [arg0, arg1, arg2]
      rw [if_neg (by omega), if_pos (by omega)]
    · obtain ⟨done, flash, kept⟩ := h
      have good : ∀ b, b = 0 ∨ b = 0x1000 → t.dirGood b = true := fun b hb => by
        rw [State.dirGood_of_flash flash, State.dirWrite_good _ (by omega) (by omega) hb]
      exact ⟨done, (State.dirField_of_flash flash o).trans field, good 0 (.inl rfl), good 0x1000 (.inr rfl), kept⟩

/-- Sectors erased, bytes put and the directory rewritten are all of flash. -/
theorem State.flashPut_flashErase_eq (s : State) (off n : Nat) (d : List Byte) : (s.flashErase off n).flashPut off d =
    { s with flash := ((s.flashErase off n).flashPut off d).flash } := rfl

theorem State.dirWrite_flashPut_flashErase_eq (s : State) (off n : Nat) (d : List Byte) (i : Nat) (e : List Byte) :
    ((s.flashErase off n).flashPut off d).dirWrite i e = { s with flash := (((s.flashErase off n).flashPut off d).dirWrite i e).flash } := rfl

/-- FLASHWRITE of one of Caeruno's copies, without a host (R268). The sectors erased hold nothing that the claim is about. -/
theorem flashwrite_completes (acc : MbAccepted s m 0x51) (ok : Bool) : let target := fld (mbArg s m 0) 1 0
    let n := (mbArg s m 2).toNat
    let off := (mbArg s m 3).toNat
    let d := s.dramAt (mbArg s m 1) 0 n
    (s.badRegion target off n = true → Completes (.flashwrite m ok) s fun t =>
      MbDone s t m 2 [] ∧ MbKept s { t with clsBytes := s.clsBytes } m oorWords) ∧
    (s.badRegion target off n = false → s.hostFn 6 = false → 2 ≤ target → Completes (.flashwrite m ok) s fun t =>
      MbDone s t m (if ok then 0 else 4) [] ∧ (∀ i < n, spGet zeroB t.flash (off + i) = nth 0 d i) ∧
        (ok = true → t.dirField (dirEntry target) = off % 2 ^ 32 ∧ t.dirField (dirEntry target + 4) = n % 2 ^ 32) ∧
        MbKept s { t with flash := s.flash, clsBytes := s.clsBytes } m oorWords) := by
  intro target n off d
  have arg0 : argAt (s.reqArgs m) 0 = mbArg s m 0 := mbAccepted_arg acc (by decide)
  have arg1 : argAt (s.reqArgs m) 1 = mbArg s m 1 := mbAccepted_arg acc (by decide)
  have arg2 : argAt (s.reqArgs m) 2 = mbArg s m 2 := mbAccepted_arg acc (by decide)
  have arg3 : argAt (s.reqArgs m) 3 = mbArg s m 3 := mbAccepted_arg acc (by decide)
  have bad : (s.taken m).badRegion target off n = s.badRegion target off n := mbKept_same (s.taken_kept m) (·.badRegion target off n)
  have host : (s.taken m).hostFn 6 = s.hostFn 6 := mbKept_same (s.taken_kept m) (·.hostFn 6)
  refine ⟨fun unfit => ?_, fun fit alone caeruno => ?_⟩
  · refine completes_mono (completes_unchanged acc rfl ?_ (by decide)) fun t h => ⟨h.1, ?_⟩
    · simp only [arg0, arg1, arg2, arg3]
      exact if_pos (bad.trans unfit)
    · exact mbKept_mono (mbKept_map h.2 fun v => { v with clsBytes := s.clsBytes }) (by simp)
  · let written := (((s.taken m).caeRead (mbArg s m 1) n).flashErase off n).flashPut off d
    have beyond : 0x2000 ≤ off := by
      simp only [State.badRegion, Bool.or_eq_false_iff, decide_eq_false_iff_not] at fit
      omega
    have entry : dirEntry target = 20 ∨ dirEntry target = 28 := by
      have := fld_lt (mbArg s m 0) 1 0
      rw [dirEntry, if_neg (by omega)]
      omega
    have stored : ∀ i < n, spGet zeroB written.flash (off + i) = nth 0 d i := fun i hi =>
      spGet_spWrite_nth zeroB _ off d (by rwa [State.dramAt_length]) 0
    have served : ∀ u c, (if ok then (written.dirWrite (dirEntry target) (bytesLE 4 off ++ bytesLE 4 n), 0) else (written, 4)) = (u, c) →
        ∃ f, exec (.flashwrite m ok) s = .next (s.command m 0x51 anyReq f) ∧ f (s.reqArgs m) (s.taken m) = .done u c [] := fun u c e => by
      refine ⟨_, rfl, ?_⟩
      have caerunos : ¬ target < 2 := by omega
      simp only [arg0, arg1, arg2, arg3, s.taken_dramAt m, host, alone]
      rw [if_neg (by rw [bad, fit]; decide)]
      simp only [Bool.false_eq_true, if_false, State.flashVerified]
      rw [if_neg caerunos]
      cases ok <;> cases e <;> rfl
    cases ok with
    | false =>
      obtain ⟨f, run, meaning⟩ := served _ _ rfl
      refine completes_mono (completes_read_flash acc run (w := mbArg s m 1) (n := n) meaning (State.flashPut_flashErase_eq _ off n d)) fun t h => ?_
      obtain ⟨done, flash, kept⟩ := h
      exact ⟨done, fun i hi => by rw [flash, stored i hi], nofun, kept⟩
    | true =>
      obtain ⟨f, run, meaning⟩ := served _ _ rfl
      refine completes_mono (completes_read_flash acc run (w := mbArg s m 1) (n := n) meaning
        (State.dirWrite_flashPut_flashErase_eq _ off n d (dirEntry target) (bytesLE 4 off ++ bytesLE 4 n))) fun t h => ?_
      obtain ⟨done, flash, kept⟩ := h
      have len : (bytesLE 4 off ++ bytesLE 4 n).length = 8 := by simp [bytesLE_length]
      refine ⟨done, fun i hi => ?_, fun _ => ?_, kept⟩
      · rw [flash, State.dirWrite_byte_beyond _ (by omega) (by omega), stored i hi]
      · have first := written.dirWrite_field (i := dirEntry target) (d := bytesLE 4 off ++ bytesLE 4 n) (by omega) (by omega) (j := 0) (by omega)
        have second := written.dirWrite_field (i := dirEntry target) (d := bytesLE 4 off ++ bytesLE 4 n) (by omega) (by omega) (j := 4) (by omega)
        have firstBytes : ((bytesLE 4 off ++ bytesLE 4 n).drop 0).take 4 = bytesLE 4 off := List.take_left' (bytesLE_length 4 off)
        have secondBytes : ((bytesLE 4 off ++ bytesLE 4 n).drop 4).take 4 = bytesLE 4 n := by
          rw [List.drop_left' (bytesLE_length 4 off), List.take_of_length_le (by rw [bytesLE_length])]
        have offSmall : off < 2 ^ 24 := (mbArg s m 3).isLt
        have lenSmall : n < 2 ^ 24 := (mbArg s m 2).isLt
        rw [firstBytes, ofBytesLE_bytesLE 4 off (by omega)] at first
        rw [secondBytes, ofBytesLE_bytesLE 4 n (by omega)] at second
        exact ⟨((State.dirField_of_flash flash _).trans first).trans (Nat.mod_eq_of_lt (by omega)).symm,
          ((State.dirField_of_flash flash _).trans second).trans (Nat.mod_eq_of_lt (by omega)).symm⟩

end

end Sys2Proof.Machine
end

section
/-! Caeruno's image: FWPUT places it, FWBOOT starts it (R270, R273). -/

namespace Sys2Proof.Machine

open Safety

section
variable {s t u : State} {m : Mbox}

/-! ### Words placed in system SRAM -/

theorem mbKept_wrAll (s : State) (m : Mbox) {f : Nat → Nat} {l : List Word} {A : List Nat} (inside : ∀ i < l.length, f i ∈ A) :
    MbKept s (s.wrAll f l) m A := by
  refine ⟨fun a ha => State.wrAll_rd_ne fun i hi e => ha (List.mem_append_right _ (e ▸ inside i hi)), fun n _ => ?_, ?_⟩ <;> rw [State.wrAll_eq]

theorem Serves.wrAll (serves : Serves s m t) {f : Nat → Nat} {l : List Word} (below : ∀ i < l.length, f i < 0xC7E100) : Serves s m (t.wrAll f l) := by
  refine serves.keep (fun a ha => State.wrAll_rd_ne fun i hi e => ?_) (by rw [State.wrAll_eq]) (by rw [State.wrAll_eq]) (by rw [State.wrAll_eq])
  have := below i hi
  simp only [AnswerWord] at ha
  omega

/-- FWPUT (R273). -/
theorem fwput_completes (acc : MbAccepted s m 0x06) : let o := (mbArg s m 0).toNat
    let n := s.reqNarg m - 1
    (2 ^ 20 < o + n → Completes (.fwput m) s fun t => MbDone s t m 2 [] ∧ MbKept s t m []) ∧
    (o + n ≤ 2 ^ 20 → Completes (.fwput m) s fun t => MbDone s t m 0 [] ∧ (∀ i < n, t.rd (aSram (o + i)) = mbArg s m (1 + i)) ∧
      MbKept s t m ((List.range n).map fun i => aSram (o + i))) := by
  intro o n
  have arg : argAt (s.reqArgs m) 0 = mbArg s m 0 := mbAccepted_arg acc (by decide)
  have len : (s.reqArgs m).length = s.reqNarg m := reqArgs_length s m
  refine ⟨fun far => ?_, fun fits => ?_⟩
  · refine completes_unchanged acc rfl ?_ (by decide)
    simp only [arg, len]
    exact if_pos far
  · have serves := State.taken_serves acc
    let words := (s.reqArgs m).drop 1
    have long : words.length = n := by simp [words, len, n]
    have put : words.zipIdx.foldl (fun (u : State) e => (u.wr (aSram (o + e.2)) e.1).writeFlip 18 (o + e.2)) (s.taken m) =
        (s.taken m).wrAll (fun i => aSram (o + i)) words :=
      State.wrAll_of_flips (f := fun i => aSram (o + i)) (r := 18) serves.sound (by decide) (fun i => o + i) fun i hi => by simp only [aSram]; omega
    have placed : MbKept (s.taken m) ((s.taken m).wrAll (fun i => aSram (o + i)) words) m ((List.range n).map fun i => aSram (o + i)) :=
      mbKept_wrAll _ m fun i hi => List.mem_map.2 ⟨i, List.mem_range.2 (by omega), rfl⟩
    refine completes_command acc rfl (t := (s.taken m).wrAll (fun i => aSram (o + i)) words) (code := 0) (res := []) ?_
      (serves.wrAll fun i hi => by simp only [aSram]; omega) (by decide) fun t done kept => ⟨done, fun i hi => ?_, ?_⟩
    · simp only [arg, len]
      rw [if_neg (by omega)]
      exact congrArg (Served.done · 0 []) put
    · rw [mbKept_rd kept (by simp) (by simp only [aSram]; omega),
        State.wrAll_rd (f := fun i => aSram (o + i)) (fun i _ j _ e => by simp only [aSram] at e; omega) (by omega)]
      simp only [words, reqArgs_drop_one, nth]
      simp [hi, n]
    · have all := mbKept_trans (s.taken_kept m) (mbKept_trans placed kept)
      simpa using all

/-! ### A core comes up -/

theorem State.coreUp_beside (s : State) (k : Core) :
    (s.coreUp k).mboxes = s.mboxes ∧ (s.coreUp k).mbOrder = s.mbOrder ∧ (s.coreUp k).repair = s.repair := by
  unfold State.coreUp
  dsimp only
  split <;> simp [State.setRole, State.reload, State.setLeft, State.setAlive, State.bset, State.fset]

theorem State.coreUp_rd (s : State) (k : Core) {a : Nat} (ha : a < 0xC7E000 ∨ 0xC7E020 ≤ a) : (s.coreUp k).rd a = s.rd a := by
  have near : ∀ j : Core, ∀ off < 16, a ≠ aCore j.val off := fun j off h => by simp only [aCore]; omega
  have up : ((s.setAlive k true).reload k).rd a = s.rd a := by
    simp only [State.reload, State.setLeft, State.setAlive]
    rw [State.rd_wr_ne _ _ (near k 3 (by decide)), State.modCore_rd, State.bset_rd, if_neg (near k 0 (by decide))]
  unfold State.coreUp
  dsimp only
  split <;> simp only [State.setRole, State.fset_rd, if_neg (near _ 0 (by decide)), up]

theorem State.setAlive_reload_alive (s : State) (k j : Core) : ((s.setAlive k true).reload k).alive j = (j == k || s.alive j) := by
  simp only [State.reload, State.setLeft, State.setAlive, State.alive, State.bget]
  rw [State.rd_wr_ne _ _ (by simp only [aCore]; omega), State.modCore_rd, State.bset_rd]
  by_cases same : j = k
  · subst same
    simp [bit_putBit_same]
  · have : aCore j.val 0 ≠ aCore k.val 0 := by
      have : j.val ≠ k.val := fun e => same (Fin.ext e)
      simp only [aCore]
      omega
    simp [this, same]

theorem State.setRole_alive (s : State) (k j : Core) (r : Nat) : (s.setRole k r).alive j = s.alive j := by
  simp only [State.setRole, State.alive, State.bget, State.fset_rd]
  split
  next e => rw [bit_putFld _ _ (by decide), if_neg (by omega), e]
  next => rfl

theorem State.setRole_role (s : State) (k j : Core) {r : Nat} (hr : r < 4) : (s.setRole k r).role j = if j = k then r else s.role j := by
  simp only [State.setRole, State.role, State.fget, State.fset_rd]
  by_cases same : j = k
  · subst same
    rw [if_pos rfl, if_pos rfl, fld_putFld _ _ (by decide) (by decide)]
    omega
  · have : aCore j.val 0 ≠ aCore k.val 0 := by
      have : j.val ≠ k.val := fun e => same (Fin.ext e)
      simp only [aCore]
      omega
    rw [if_neg this, if_neg same]

/-- A core that comes up is alive, and so is who was. -/
theorem State.coreUp_alive (s : State) (k j : Core) : (s.coreUp k).alive j = (j == k || s.alive j) := by
  unfold State.coreUp
  dsimp only
  split <;> simp only [State.setRole_alive, State.setAlive_reload_alive]

theorem eq_peer_or_eq (j k : Core) : j = peer k ∨ j = k := by revert j k; decide

/-- A core that comes up beside its peer takes both to DUPLEX. -/
theorem State.coreUp_duplex (s : State) (k j : Core) (beside : s.alive (peer k) = true) : (s.coreUp k).role j = 1 := by
  unfold State.coreUp
  dsimp only
  rw [if_pos (by rw [State.setAlive_reload_alive, beside, Bool.or_true]), State.setRole_role _ _ _ (by decide), State.setRole_role _ _ _ (by decide)]
  rcases eq_peer_or_eq j k with e | e <;> simp [e]

/-! ### What Caeruno reads when it starts (R289, R290, R297) -/

/-- Words of the device before the checkers' registers, and what else of it serves mailboxes, are the same; of the checkers' registers, RMSTAT may
differ. -/
def KeepsServing (s t : State) : Prop :=
  (∀ a, a < 0xCB0000 ∨ a % 0x40 = 3 → t.rd a = s.rd a) ∧ t.mboxes = s.mboxes ∧ t.mbOrder = s.mbOrder ∧ t.repair.bad = s.repair.bad

theorem KeepsServing.refl (s : State) : KeepsServing s s := ⟨fun _ _ => rfl, rfl, rfl, rfl⟩

theorem KeepsServing.trans (p : KeepsServing s t) (q : KeepsServing t u) : KeepsServing s u := by
  obtain ⟨pw, pm, po, pb⟩ := p
  obtain ⟨qw, qm, qo, qb⟩ := q
  exact ⟨fun a ha => (qw a ha).trans (pw a ha), qm.trans pm, qo.trans po, qb.trans pb⟩

theorem KeepsServing.foldl {α : Type} (f : State → α → State) (keeps : ∀ t e, KeepsServing t (f t e)) (l : List α) (s : State) :
    KeepsServing s (l.foldl f s) :=
  List.foldlRecOn (motive := KeepsServing s) l f (.refl s) fun _ ht e _ => ht.trans (keeps _ e)

theorem KeepsServing.ite {p : Prop} [Decidable p] (ht : KeepsServing s t) (hu : KeepsServing s u) : KeepsServing s (if p then t else u) := by
  split <;> assumption

theorem KeepsServing.setLedger (s : State) (i : Nat) (v : Word) : KeepsServing s (s.setLedger i v) := ⟨fun _ _ => rfl, rfl, rfl, rfl⟩

theorem KeepsServing.ledgerInc (s : State) (i : Nat) : KeepsServing s (s.ledgerInc i) := .setLedger s i _

theorem KeepsServing.ledgerInc48 (s : State) (i : Nat) : KeepsServing s (s.ledgerInc48 i) := (KeepsServing.setLedger s i _).trans (.setLedger _ (i + 1) _)

theorem KeepsServing.msCounted (s : State) : KeepsServing s s.msCounted := by
  unfold State.msCounted
  exact (KeepsServing.ledgerInc48 s 0).trans (.ite (.ledgerInc _ _) (.refl _))

theorem KeepsServing.msUnavailable (s : State) (cause : BitVec 6) : KeepsServing s (s.msUnavailable cause) := by
  unfold State.msUnavailable
  exact ((KeepsServing.ledgerInc48 s 2).trans (.ledgerInc _ _)).trans (.foldl _ (fun t _ => .ite (.ledgerInc t _) (.refl t)) _ _)

theorem KeepsServing.msLost (s : State) : KeepsServing s s.msLost := (KeepsServing.msCounted s).trans (.msUnavailable _ 32)

/-- Caeruno's own memory. -/
theorem KeepsServing.cae (s : State) (x : CaeSt) : KeepsServing s { s with cae := x } := ⟨fun _ _ => rfl, rfl, rfl, rfl⟩

theorem KeepsServing.ledgerLoad (s : State) : KeepsServing s s.ledgerLoad := by
  unfold State.ledgerLoad
  dsimp only
  refine KeepsServing.trans ?_ (.cae _ _)
  refine KeepsServing.trans ?_ (.ite (.foldl _ (fun u _ => .msLost u) _ _) (.refl _))
  refine KeepsServing.trans ?_ (.setLedger _ 16 _)
  exact KeepsServing.trans (.cae s _) (.ite (.ledgerInc _ 12) (.refl _))

theorem KeepsServing.loadRecords (s : State) : KeepsServing s s.loadRecords := by
  unfold State.loadRecords
  dsimp only
  split
  · exact .refl s
  · split
    · exact .cae s _
    · rw [State.evIntegrity, State.raise_eq]
      exact ⟨fun _ _ => rfl, rfl, rfl, rfl⟩

theorem KeepsServing.rmStat (s : State) {r : Nat} : KeepsServing s (s.rmStat r) := by
  refine ⟨fun a ha => ?_, rfl, rfl, rfl⟩
  have apart : a ≠ aRegion r 7 := by simp only [aRegion]; omega
  simp only [State.rmStat, State.fset_rd, if_neg apart]

theorem KeepsServing.remaps (s : State) (ms : List Remap) : KeepsServing s { s with repair := { s.repair with remaps := ms } } :=
  ⟨fun _ _ => rfl, rfl, rfl, rfl⟩

theorem KeepsServing.loadRemaps (s : State) : KeepsServing s s.loadRemaps := by
  unfold State.loadRemaps
  exact KeepsServing.trans (.remaps s _) (.foldl _ (fun t _ => .rmStat t) _ _)

/-- The image of a version and ABI runs. -/
def State.imageRuns (s : State) (version abi : Word) : State := { s with start := .booted, cae := { s.cae with version := version, abi := abi } }

theorem State.caerunoRuns_eq (s : State) (version abi : Word) :
    s.caerunoRuns version abi = ((((s.coreUp 0).coreUp 1).loadRecords).loadRemaps.ledgerLoad).imageRuns version abi := by
  unfold State.caerunoRuns State.imageRuns
  rfl

theorem KeepsServing.imageRuns (s : State) (version abi : Word) : KeepsServing s (s.imageRuns version abi) := ⟨fun _ _ => rfl, rfl, rfl, rfl⟩

/-- Caeruno running on both cores serves on. -/
theorem KeepsServing.caerunoRuns (s : State) (version abi : Word) : KeepsServing ((s.coreUp 0).coreUp 1) (s.caerunoRuns version abi) := by
  rw [State.caerunoRuns_eq]
  exact (KeepsServing.loadRecords _).trans ((KeepsServing.loadRemaps _).trans ((KeepsServing.ledgerLoad _).trans (.imageRuns _ version abi)))

theorem Serves.keepsServing (serves : Serves s m t) (keeps : KeepsServing t u) : Serves s m u := by
  obtain ⟨words, mboxes, order, bad⟩ := keeps
  exact serves.keep (fun a ha => words a (by simp only [AnswerWord] at ha; omega)) mboxes order bad

theorem Serves.coreUp (serves : Serves s m t) (k : Core) : Serves s m (t.coreUp k) := by
  obtain ⟨mboxes, order, repair⟩ := t.coreUp_beside k
  exact serves.keep (fun a ha => t.coreUp_rd k (by simp only [AnswerWord] at ha; omega)) mboxes order (congrArg RepairSt.bad repair)

/-- FWBOOT (R273, R394). -/
theorem fwboot_completes (acc : MbAccepted s m 0x07) (ok : Bool) : let n := (mbArg s m 0).toNat
    ((n < 80 ∨ 2 ^ 20 < n) → Completes (.fwboot m ok) s fun t => MbDone s t m 2 [] ∧ MbKept s t m []) ∧
    (80 ≤ n → n ≤ 2 ^ 20 → (ok && s.fuses.flock) = false → Completes (.fwboot m ok) s fun t => MbDone s t m 4 [] ∧ MbKept s t m []) ∧
    (80 ≤ n → n ≤ 2 ^ 20 → (ok && s.fuses.flock) = true → Completes (.fwboot m ok) s fun t => MbDone s t m 0 [] ∧ t.alive 0 = true ∧ t.alive 1 = true ∧
      t.role 0 = 1 ∧ t.role 1 = 1 ∧ t.cae.version = s.rd (aSram 6) ∧ t.start = .booted) := by
  intro n
  have arg : argAt (s.reqArgs m) 0 = mbArg s m 0 := mbAccepted_arg acc (by decide)
  have lock : (s.taken m).fuses.flock = s.fuses.flock := mbKept_same (s.taken_kept m) (·.fuses.flock)
  refine ⟨fun unfit => ?_, fun low high bad => ?_, fun low high good => ?_⟩
  · refine completes_unchanged acc rfl ?_ (by decide)
    simp only [arg]
    exact if_pos unfit
  · refine completes_unchanged acc rfl ?_ (by decide)
    simp only [arg, lock, bad]
    rw [if_neg (by omega)]
    rfl
  · let v := (s.taken m).rd (aSram 6)
    let abi := (s.taken m).rd (aSram 2)
    have version : v = s.rd (aSram 6) := mbKept_rd (s.taken_kept m) (by simp) (by decide)
    have up := ((State.taken_serves acc).coreUp 0).coreUp 1
    have quiet := KeepsServing.caerunoRuns (s.taken m) v abi
    refine completes_command acc rfl (t := (s.taken m).caerunoRuns v abi) (code := 0) (res := []) ?_ (up.keepsServing quiet) (by decide)
      fun t done kept => ⟨done, ?_⟩
    · simp only [arg, lock]
      rw [if_neg (by omega), if_pos good]
    · obtain ⟨words, -⟩ := quiet
      have core : ∀ k : Core, t.rd (aCore k.val 0) = (((s.taken m).coreUp 0).coreUp 1).rd (aCore k.val 0) := fun k =>
        (mbKept_rd kept (by simp) (by simp only [aCore]; omega)).trans (words _ (by simp only [aCore]; omega))
      have alive : ∀ k, t.alive k = (((s.taken m).coreUp 0).coreUp 1).alive k := fun k => by simp only [State.alive, State.bget, core k]
      have role : ∀ k, t.role k = (((s.taken m).coreUp 0).coreUp 1).role k := fun k => by simp only [State.role, State.fget, core k]
      have beside : ((s.taken m).coreUp 0).alive (peer 1) = true := by rw [State.coreUp_alive]; rfl
      refine ⟨?_, ?_, ?_, ?_, ?_, ?_⟩
      · rw [alive, State.coreUp_alive, State.coreUp_alive]; rfl
      · rw [alive, State.coreUp_alive]; rfl
      · rw [role, State.coreUp_duplex _ 1 0 beside]
      · rw [role, State.coreUp_duplex _ 1 1 beside]
      · rw [mbKept_same kept (·.cae.version), State.caerunoRuns_eq, ← version]; rfl
      · rw [mbKept_same kept (·.start), State.caerunoRuns_eq]; rfl

end

end Sys2Proof.Machine
end

section
/-! FWSTAGE and APPLOAD: images that Caeruno reads from DRAM (R247, R249, R271). -/

namespace Sys2Proof.Machine

open Safety

section
variable {s : State} {m : Mbox}

/-- An accepted request for which DRAM has been read. -/
theorem State.taken_caeRead_kept (s : State) (m : Mbox) (w : Word) (n : Nat) :
    MbKept s { (s.taken m).caeRead w n with clsBytes := s.clsBytes } m oorWords := by
  have taken := s.taken_kept m
  have read := (s.taken m).caeRead_kept m w n
  rw [mbKept_same taken (·.clsBytes)] at read
  exact mbKept_trans taken read

/-- FWSTAGE (R271). -/
theorem fwstage_completes (acc : MbAccepted s m 0x58) (ok : Bool) : let h := s.imageWords (mbArg s m 0) 80
    let n := (mbArg s m 1).toNat
    let fits := argAt h 0 == 0x435A4B && decide (3 * (80 + (argAt h 1).toNat) ≤ n) && fld (argAt h 2) 23 16 == fld s.cae.abi 23 16
    let orRead := fun (t : State) (code : Nat) => MbDone s t m code [] ∧ MbKept s { t with clsBytes := s.clsBytes } m oorWords
    (fits = false → Completes (.fwstage m ok) s fun t => orRead t 2) ∧
    (fits = true → ok = false → Completes (.fwstage m ok) s fun t => orRead t 4) ∧
    (fits = true → ok = true → Completes (.fwstage m ok) s fun t => MbDone s t m 0 [argAt h 6, argAt h 2] ∧
      t.cae = { s.cae with staged := some (2048 * (mbArg s m 0).toNat, n, argAt h 6, argAt h 2) } ∧
      MbKept s { t with cae := s.cae, clsBytes := s.clsBytes } m oorWords) := by
  intro h n fits orRead
  have arg0 : argAt (s.reqArgs m) 0 = mbArg s m 0 := mbAccepted_arg acc (by decide)
  have arg1 : argAt (s.reqArgs m) 1 = mbArg s m 1 := mbAccepted_arg acc (by decide)
  let r := (s.taken m).caeRead (mbArg s m 0) (max 240 n)
  have read : MbKept s { r with clsBytes := s.clsBytes } m oorWords := s.taken_caeRead_kept m _ _
  have cae : r.cae = s.cae := mbKept_same read (·.cae)
  have check : (!caerunoFits h n || fld (argAt h 2) 23 16 != fld s.cae.abi 23 16) = !fits := by simp [fits, caerunoFits, bne]
  have meaning : ∃ f, exec (.fwstage m ok) s = .next (s.command m 0x58 anyReq f) ∧ f (s.reqArgs m) (s.taken m) =
      if (!fits) = true then .done r 2 [] else if (!ok) = true then .done r 4 [] else
        .done { r with cae := { s.cae with staged := some (2048 * (mbArg s m 0).toNat, n, argAt h 6, argAt h 2) } } 0 [argAt h 6, argAt h 2] := by
    refine ⟨_, rfl, ?_⟩
    simp only [arg0, arg1, s.taken_imageWords m]
    rw [← check, ← cae]
  obtain ⟨f, run, meaning⟩ := meaning
  refine ⟨fun bad => ?_, fun good fails => ?_, fun good passes => ?_⟩
  · exact completes_read acc run (meaning.trans (if_pos (by rw [bad]; rfl)))
  · exact completes_read acc run (meaning.trans ((if_neg (by rw [good]; decide)).trans (if_pos (by rw [fails]; rfl))))
  · have served := meaning.trans ((if_neg (by rw [good]; decide)).trans (if_neg (by rw [passes]; decide)))
    refine completes_command acc run served (((State.taken_serves acc).caeRead _ _).keep fun _ _ => rfl) (by simp)
      fun u done kept => ⟨done, mbKept_same kept (·.cae), ?_⟩
    refine mbKept_after (fun v => { v with cae := s.cae, clsBytes := s.clsBytes }) ?_ kept
    have := mbKept_map read fun v => { v with cae := s.cae }
    exact this

/-! ### Pages of system SRAM -/

theorem wordsOfBytes_length : ∀ l : List Byte, (wordsOfBytes l).length = (l.length + 2) / 3
  | [] => rfl
  | [_] => by simp [wordsOfBytes]
  | [_, _] => by simp [wordsOfBytes]
  | _ :: _ :: _ :: t => by
    have := wordsOfBytes_length t
    simp only [wordsOfBytes, List.length_cons, this]
    omega

theorem State.imageWords_length (s : State) (w : Word) (n : Nat) : (s.imageWords w n).length = n := by
  rw [State.imageWords, wordsOfBytes_length, State.dramAt_length]
  omega

/-- Pages given out are in range and each given once. -/
theorem State.freePages_take (s : State) (n : Nat) : (∀ p ∈ s.freePages.take n, p < 192) ∧ (s.freePages.take n).Nodup := by
  refine ⟨fun p hp => ?_, (List.Nodup.filter _ List.nodup_range).sublist (List.take_sublist _ _)⟩
  have := List.mem_of_mem_filter (List.mem_of_mem_take hp)
  exact List.mem_range.1 this

theorem pageWord_lt {pages : List Nat} (inside : ∀ p ∈ pages, p < 192) {i : Nat} (hi : i < 4096 * pages.length) : pageWord pages i < 192 * 4096 := by
  have hp : i / 4096 < pages.length := by omega
  have := inside _ (List.getElem_mem hp)
  rw [pageWord, nth, List.getD_eq_getElem _ _ hp]
  omega

theorem pageWord_inj {pages : List Nat} (once : pages.Nodup) {i j : Nat} (hi : i < 4096 * pages.length) (hj : j < 4096 * pages.length)
    (same : pageWord pages i = pageWord pages j) : i = j := by
  have hp : i / 4096 < pages.length := by omega
  have hq : j / 4096 < pages.length := by omega
  rw [pageWord, pageWord, nth, nth, List.getD_eq_getElem _ _ hp, List.getD_eq_getElem _ _ hq] at same
  have page : pages[i / 4096] = pages[j / 4096] := by omega
  have := (List.Nodup.getElem_inj_iff once).1 page
  omega

/-- The word of system SRAM that word i of an applet's body goes to. -/
def bodyWord (pages : List Nat) (i : Nat) : Nat := aSram (0x40000 + pageWord pages i)

theorem bodyWord_lt {pages : List Nat} (inside : ∀ p ∈ pages, p < 192) {i : Nat} (hi : i < 4096 * pages.length) : bodyWord pages i < 0x200000 := by
  have := pageWord_lt inside hi
  simp only [bodyWord, aSram]
  omega

theorem State.placeBody_eq (sound : Sound s) {pages : List Nat} {body : List Word} (inside : ∀ p ∈ pages, p < 192)
    (room : body.length ≤ 4096 * pages.length) : s.placeBody pages body = s.wrAll (bodyWord pages) body :=
  State.wrAll_of_flips (f := bodyWord pages) (r := 18) sound (by decide) (fun i => 0x40000 + pageWord pages i) fun i hi => by
    have := bodyWord_lt inside (i := i) (by omega)
    omega

theorem State.placeBody_rd (s : State) {pages : List Nat} {body : List Word} (once : pages.Nodup) (room : body.length ≤ 4096 * pages.length) {i : Nat}
    (hi : i < body.length) : (s.wrAll (bodyWord pages) body).rd (bodyWord pages i) = nth 0 body i :=
  State.wrAll_rd (fun i hi j hj e => pageWord_inj once (by omega) (by omega) (by simpa [bodyWord, aSram] using e)) hi

/-! ### An applet is loaded -/

/-- What APPLOAD makes of its context. -/
def appletCtx (h : List Word) (k : Core) (pages : List Nat) : CtxSt :=
  { CtxSt.reset with
    st := 1, core := k, pages := pages, budget := fld (argAt h 2) 15 0
    entry := (argAt h 3).toNat, restart := (argAt h 4).toNat }

/-- What APPLOAD makes of a request: code and state. -/
theorem appload_meaning (acc : MbAccepted s m 0x70) {c : Ctx} (hc : c.val ≠ 0) (named : mbArg s m 0 = wd c.val) : let h := s.imageWords (mbArg s m 1) 80
    let body := (s.imageWords (mbArg s m 1) (80 + (argAt h 1).toNat)).drop 80
    let pub := bytesOfWords ((h.drop 16).take 32)
    let need := fld (argAt h 2) 23 16
    let r := (s.taken m).caeRead (mbArg s m 1) (if appletFits h (mbArg s m 2).toNat then (mbArg s m 2).toNat else 240)
    let pages := s.freePages.take need
    let placed := (r.placeBody pages body).coreFor
    ∃ f, exec (.appload m) s = .next (s.command m 0x70 anyReq f) ∧ f (s.reqArgs m) (s.taken m) =
      if (!appletFits h (mbArg s m 2).toNat) = true then .done r 2 [] else if (!s.slotHolds (argAt h 5).toNat pub) = true then .done r 3 []
      else if s.cae.ctxs[c].st ≠ 0 ∨ pages.length < need ∨ 400 < s.budgets + fld (argAt h 2) 15 0 then .done r 6 []
      else if (!ecdsaVerify pub (bytesOfWords (h.take 48 ++ body)) (bytesOfWords (h.drop 48))) = true then .done r 4 []
      else .done (placed.2.modCtx c fun _ => appletCtx h placed.1 pages) 0 [] := by
  intro h body pub need r pages placed
  have arg0 : argAt (s.reqArgs m) 0 = mbArg s m 0 := mbAccepted_arg acc (by decide)
  have arg1 : argAt (s.reqArgs m) 1 = mbArg s m 1 := mbAccepted_arg acc (by decide)
  have arg2 : argAt (s.reqArgs m) 2 = mbArg s m 2 := mbAccepted_arg acc (by decide)
  have number : (wd c.val).toNat = c.val := by simp [wd]; omega
  have read : MbKept s { r with clsBytes := s.clsBytes } m oorWords := s.taken_caeRead_kept m _ _
  have slots : r.slotHolds (argAt h 5).toNat pub = s.slotHolds (argAt h 5).toNat pub := mbKept_same read (·.slotHolds (argAt h 5).toNat pub)
  have free : r.freePages = s.freePages := mbKept_same read (·.freePages)
  have budgets : r.budgets = s.budgets := mbKept_same read (·.budgets)
  have state : r.cae.ctxs[c].st = s.cae.ctxs[c].st := mbKept_same read (·.cae.ctxs[c].st)
  have images : r.imageWords = s.imageWords := (State.caeRead_imageWords _ m _ _).trans (s.taken_imageWords m)
  have which : Fin.ofNat 64 (argAt (s.reqArgs m) 0).toNat = c := by rw [arg0, named, number]; simp
  have inRange : ctxNamed c.val = true := by
    have := c.isLt
    simp only [ctxNamed, decide_eq_true_eq]
    omega
  refine ⟨_, rfl, ?_⟩
  simp only [which]
  simp only [arg0, arg1, arg2, named, number, s.taken_imageWords m]
  rw [images, slots, free, budgets, state, inRange]
  rfl

/-- The core that a context is assigned to may be a free choice, which is drawn (R241). -/
theorem State.coreFor_eq (s : State) : ∃ n, s.coreFor.2 = { s with freeCtr := n } := by
  unfold State.coreFor
  split
  · exact ⟨s.freeCtr + 1, rfl⟩
  · exact ⟨s.freeCtr, rfl⟩

theorem State.coreFor_cae (s : State) : s.coreFor.2.cae = s.cae := by
  obtain ⟨n, eq⟩ := s.coreFor_eq
  rw [eq]

theorem State.coreFor_rd (s : State) (a : Nat) : s.coreFor.2.rd a = s.rd a := by
  obtain ⟨n, eq⟩ := s.coreFor_eq
  rw [eq]
  rfl

theorem Serves.coreFor {t : State} (serves : Serves s m t) : Serves s m t.coreFor.2 := by
  obtain ⟨n, eq⟩ := t.coreFor_eq
  rw [eq]
  exact serves.keep fun _ _ => rfl

theorem mbKept_coreFor (s : State) (m : Mbox) : MbKept s s.coreFor.2 m [] := by
  obtain ⟨n, eq⟩ := s.coreFor_eq
  rw [eq]
  exact ⟨fun _ _ => rfl, fun _ _ => rfl, rfl⟩

/-- A context changed. -/
theorem State.modCtx_same (s : State) (c : Ctx) (f : CtxSt → CtxSt) : (s.modCtx c f).cae.ctxs[c] = f s.cae.ctxs[c] := by
  simp [State.modCtx, vmod]

theorem State.modCtx_ne (s : State) {c d : Ctx} (f : CtxSt → CtxSt) (ne : d ≠ c) : (s.modCtx c f).cae.ctxs[d] = s.cae.ctxs[d] := by
  have : c.val ≠ d.val := fun e => ne (Fin.ext e.symm)
  simp [State.modCtx, vmod, Vector.getElem_set_ne, this]

/-- APPLOAD (R247, R249). -/
theorem appload_completes (acc : MbAccepted s m 0x70) (c : Ctx) (hc : c.val ≠ 0) (named : mbArg s m 0 = wd c.val) : let h := s.imageWords (mbArg s m 1) 80
    let body := (s.imageWords (mbArg s m 1) (80 + (argAt h 1).toNat)).drop 80
    let pub := bytesOfWords ((h.drop 16).take 32)
    let need := fld (argAt h 2) 23 16
    let orRead := fun (t : State) (code : Nat) => MbDone s t m code [] ∧ MbKept s { t with clsBytes := s.clsBytes } m oorWords
    (appletFits h (mbArg s m 2).toNat = false → Completes (.appload m) s fun t => orRead t 2) ∧
    (appletFits h (mbArg s m 2).toNat = true → s.slotHolds (argAt h 5).toNat pub = false → Completes (.appload m) s fun t => orRead t 3) ∧
    (appletFits h (mbArg s m 2).toNat = true → s.slotHolds (argAt h 5).toNat pub = true →
      (s.cae.ctxs[c].st ≠ 0 ∨ s.freePages.length < need ∨ 400 < s.budgets + fld (argAt h 2) 15 0) → Completes (.appload m) s fun t => orRead t 6) ∧
    (appletFits h (mbArg s m 2).toNat = true → s.slotHolds (argAt h 5).toNat pub = true → s.cae.ctxs[c].st = 0 → need ≤ s.freePages.length →
      s.budgets + fld (argAt h 2) 15 0 ≤ 400 → ecdsaVerify pub (bytesOfWords (h.take 48 ++ body)) (bytesOfWords (h.drop 48)) = true →
      Completes (.appload m) s fun t => MbDone s t m 0 [] ∧ t.cae.ctxs[c].st = 1 ∧ t.cae.ctxs[c].pages = s.freePages.take need ∧
        t.cae.ctxs[c].budget = fld (argAt h 2) 15 0 ∧ (∀ i < body.length, t.rd (bodyWord (s.freePages.take need) i) = nth 0 body i) ∧
        (∀ d : Ctx, d ≠ c → t.cae.ctxs[d] = s.cae.ctxs[d]) ∧
        MbKept s { t with cae := s.cae, clsBytes := s.clsBytes } m (oorWords ++ (List.range body.length).map (bodyWord (s.freePages.take need)))) := by
  intro h body pub need orRead
  obtain ⟨f, run, meaning⟩ := appload_meaning acc hc named
  have few : (s.freePages.take need).length < need ↔ s.freePages.length < need := by rw [List.length_take]; omega
  refine ⟨fun unfit => ?_, fun fits unkeyed => ?_, fun fits keyed full => ?_, fun fits keyed empty room budget signed => ?_⟩
  · exact completes_read acc run (meaning.trans (if_pos (by rw [unfit]; rfl)))
  · rw [if_neg (by rw [fits]; decide), if_pos (by rw [unkeyed]; rfl)] at meaning
    exact completes_read acc run meaning
  · rw [if_neg (by rw [fits]; decide), if_neg (by rw [keyed]; decide), if_pos (full.imp_right (.imp_left few.2))] at meaning
    exact completes_read acc run meaning
  · have free : ¬ (s.cae.ctxs[c].st ≠ 0 ∨ (s.freePages.take need).length < need ∨ 400 < s.budgets + fld (argAt h 2) 15 0) := by
      rw [few]
      omega
    rw [if_neg (by rw [fits]; decide), if_neg (by rw [keyed]; decide), if_neg free, if_neg (by rw [signed]; decide)] at meaning
    let pages := s.freePages.take need
    let r := (s.taken m).caeRead (mbArg s m 1) (if appletFits h (mbArg s m 2).toNat then (mbArg s m 2).toNat else 240)
    have read : MbKept s { r with clsBytes := s.clsBytes } m oorWords := s.taken_caeRead_kept m _ _
    have serves : Serves s m r := (State.taken_serves acc).caeRead _ _
    obtain ⟨inside, once⟩ : (∀ p ∈ pages, p < 192) ∧ pages.Nodup := s.freePages_take need
    have held : pages.length = need := List.length_take_of_le room
    have space : body.length ≤ 4096 * pages.length := by
      have len : body.length = (argAt h 1).toNat := by simp [body, State.imageWords_length]
      simp only [appletFits, Bool.and_eq_true, decide_eq_true_eq] at fits
      omega
    let written := r.wrAll (bodyWord pages) body
    have placed : r.placeBody pages body = written := State.placeBody_eq serves.sound inside space
    have same : written = { r with ws := written.ws } := State.wrAll_eq _ _ _
    have cae : written.cae = s.cae := (congrArg State.cae same).trans (mbKept_same read (·.cae))
    let A := (List.range body.length).map (bodyWord pages)
    have wrote : MbKept r written m A := mbKept_wrAll r m fun i hi => List.mem_map.2 ⟨i, List.mem_range.2 hi, rfl⟩
    have ready : Serves s m written := serves.wrAll fun i hi => by
      have := bodyWord_lt inside (i := i) (by omega)
      omega
    let x := appletCtx h written.coreFor.1 pages
    have answered : f (s.reqArgs m) (s.taken m) = .done (written.coreFor.2.modCtx c fun _ => x) 0 [] := by
      rw [meaning]
      show Served.done ((r.placeBody pages body).coreFor.2.modCtx c fun _ => appletCtx h (r.placeBody pages body).coreFor.1 pages) 0 [] = _
      rw [placed]
    refine completes_command acc run answered (ready.coreFor.keep fun _ _ => rfl) (by decide) fun t done kept => ?_
    have ctx : t.cae.ctxs[c] = x := (mbKept_same kept (·.cae.ctxs[c])).trans (State.modCtx_same _ c _)
    refine ⟨done, ?_, ?_, ?_, fun i hi => ?_, fun d ne => ?_, ?_⟩
    · rw [ctx]; rfl
    · rw [ctx]; rfl
    · rw [ctx]; rfl
    · have low := bodyWord_lt inside (i := i) (by omega)
      rw [mbKept_rd kept (by simp) (.inl (low.trans (by decide))), State.modCtx_rd, State.coreFor_rd]
      exact State.placeBody_rd r once space hi
    · rw [mbKept_same kept (·.cae.ctxs[d]), State.modCtx_ne _ _ ne, State.coreFor_cae, cae]
    · refine mbKept_after (fun v => { v with cae := s.cae, clsBytes := s.clsBytes }) ?_ kept
      have first := mbKept_map read fun v => { v with cae := s.cae }
      have second := mbKept_map (mbKept_trans wrote (mbKept_coreFor written m)) fun v => { v with cae := s.cae, clsBytes := s.clsBytes }
      have both := mbKept_trans first second
      rwa [List.append_nil] at both

end

end Sys2Proof.Machine
end

section
/-! SPLITSET (R16, R17, R269). -/

namespace Sys2Proof.Machine

open Safety

section
variable {s : State} {m : Mbox}

theorem namesConfigured_eq (s : State) (mask : Nat) : s.namesConfigured mask = (List.range 8).any fun h => mask.testBit h && s.heads[Fin.ofNat 8 h].configured := by
  rfl

/-- Function f turned to the mode wanted at once, on no running head. -/
def SplitFn.turned (x : SplitFn) (want : Bool) : SplitFn :=
  ({ x with pend := if x.mode.getLsbD 0 = want then 0 else 1, want := want, skip := 0, passed := false, ref := none } : SplitFn).apply 0xFF

theorem SplitFn.turned_mode (x : SplitFn) (want : Bool) : (x.turned want).mode.getLsbD 0 = want := by
  unfold SplitFn.turned SplitFn.apply
  by_cases same : x.mode.getLsbD 0 = want
  · rw [if_pos same]
    cases want <;> simpa using same
  · rw [if_neg same]
    cases want <;> simp

theorem SplitFn.turned_pend (x : SplitFn) (want : Bool) : (x.turned want).pend = 0 := by
  unfold SplitFn.turned SplitFn.apply
  dsimp only
  split <;> decide

/-- A function of the device with nothing to change (R269). -/
theorem State.splitSet_same {f : Fin 8} (device : headBound f.val = false) (mask : BitVec 8) {want : Bool} (mode : s.cae.split[f].mode.getLsbD 0 = want)
    (pend : s.cae.split[f].pend = 0) : s.splitSet f mask want = (s, true, 0) := by
  unfold State.splitSet
  dsimp only
  rw [if_neg (by rw [device]; decide), if_pos (by rw [mode, pend]; simp)]

/-- A function of the device that changes while no head runs (R17). -/
theorem State.splitSet_still {f : Fin 8} (device : headBound f.val = false) (prompt : delayed f.val = false) (still : ∀ h : Head, s.running h.val = false)
    (mask : BitVec 8) {want : Bool} (change : ¬ (s.cae.split[f].mode.getLsbD 0 = want ∧ s.cae.split[f].pend = 0)) :
    s.splitSet f mask want = (s.modSplit f fun x => x.turned want, true, 0) := by
  have noRef : s.refHead = none := by simp [State.refHead, still]
  have noLow : s.lowRunning = none := List.find?_eq_none.2 fun h hh => by
    have := still ⟨h, List.mem_range.1 hh⟩
    simp [this]
  unfold State.splitSet
  dsimp only
  rw [if_neg (by rw [device]; decide), if_neg (by simpa only [Bool.and_eq_true, beq_iff_eq] using change), noRef, noLow, prompt]
  rfl

theorem State.modSplit_same (s : State) (f : Fin 8) (g : SplitFn → SplitFn) : (s.modSplit f g).cae.split[f] = g s.cae.split[f] := by
  simp [State.modSplit, vmod]

theorem State.modSplit_ne (s : State) {e f : Fin 8} (g : SplitFn → SplitFn) (ne : e ≠ f) : (s.modSplit f g).cae.split[e] = s.cae.split[e] := by
  have : f.val ≠ e.val := fun h => ne (Fin.ext h.symm)
  simp [State.modSplit, vmod, Vector.getElem_set_ne, this]

/-- What SPLITSET makes of a request. -/
theorem splitset_meaning (acc : MbAccepted s m 0x61) {f : Fin 8} (named : fld (mbArg s m 0) 2 0 = f.val) : let mask := fld (mbArg s m 0) 23 16
    let r := (s.taken m).splitSet f (BitVec.ofNat 8 mask) (bit (mbArg s m 0) 3)
    ∃ g, exec (.splitset m) s = .next (s.command m 0x61 anyReq g) ∧ g (s.reqArgs m) (s.taken m) =
      if (headBound f.val && ((List.range 8).any (fun h => mask.testBit h && (s.taken m).headOff h) || !s.namesConfigured mask)) = true then
        .done (s.taken m) 2 []
      else .done r.1 0 [wd (b2n r.2.1 * 2 ^ 23), r.2.2] := by
  intro mask r
  have arg0 : argAt (s.reqArgs m) 0 = mbArg s m 0 := mbAccepted_arg acc (by decide)
  have which : Fin.ofNat 8 f.val = f := by simp
  have configured : (s.taken m).namesConfigured mask = s.namesConfigured mask := mbKept_same (s.taken_kept m) (·.namesConfigured mask)
  refine ⟨_, rfl, ?_⟩
  simp only [arg0, named, which]
  rw [← configured]

/-- SPLITSET (R16, R17, R269). -/
theorem splitset_completes (acc : MbAccepted s m 0x61) (f : Fin 8) (named : fld (mbArg s m 0) 2 0 = f.val) : let mask := fld (mbArg s m 0) 23 16
    let want := bit (mbArg s m 0) 3
    let x := s.cae.split[f]
    let answers := fun (t : State) (now : Bool) (ep : Word) => MbDone s t m 0 [wd (b2n now * 2 ^ 23), ep] ∧
      (∀ e : Fin 8, e ≠ f → t.cae.split[e] = s.cae.split[e]) ∧ MbKept s { t with cae := { t.cae with split := s.cae.split } } m []
    (headBound f.val = true → ((List.range 8).any fun h => mask.testBit h && s.heads[Fin.ofNat 8 h].configured) = false →
      Completes (.splitset m) s fun t => MbDone s t m 2 [] ∧ MbKept s t m []) ∧
    (headBound f.val = false → x.mode.getLsbD 0 = want → x.pend = 0 →
      Completes (.splitset m) s fun t => MbDone s t m 0 [0x800000, 0] ∧ MbKept s t m []) ∧
    (headBound f.val = false → f.val ≠ 3 → f.val ≠ 5 → s.anyRunning = false → (∀ h : Head, s.running h.val = false) →
      Completes (.splitset m) s fun t => answers t true 0 ∧ t.cae.split[f].mode.getLsbD 0 = want ∧ t.cae.split[f].pend = 0) := by
  intro mask want x answers
  have split : (s.taken m).cae.split = s.cae.split := mbKept_same (s.taken_kept m) (·.cae.split)
  obtain ⟨g, run, meaning⟩ := splitset_meaning acc named
  refine ⟨fun bound unnamed => ?_, fun device mode pend => ?_, fun device notMixing notGleaner _ still => ?_⟩
  · refine completes_unchanged acc run (meaning.trans (if_pos ?_)) (by decide)
    rw [bound, namesConfigured_eq, unnamed]
    simp
  · rw [if_neg (by rw [device]; simp), State.splitSet_same device _ (by rw [split]; exact mode) (by rw [split]; exact pend)] at meaning
    have now : wd (b2n true * 2 ^ 23) = 0x800000 := by simp [b2n, wd]
    dsimp only at meaning
    rw [now] at meaning
    exact completes_unchanged acc run meaning (by simp)
  · rw [if_neg (by rw [device]; simp)] at meaning
    have prompt : delayed f.val = false := by simp [delayed, notMixing, notGleaner]
    by_cases same : x.mode.getLsbD 0 = want ∧ x.pend = 0
    · obtain ⟨mode, pend⟩ := same
      rw [State.splitSet_same device _ (by rw [split]; exact mode) (by rw [split]; exact pend)] at meaning
      refine completes_mono (completes_unchanged acc run meaning (by simp)) fun t h => ?_
      obtain ⟨done, kept⟩ := h
      have stays : t.cae.split = s.cae.split := mbKept_same kept (·.cae.split)
      refine ⟨⟨done, fun e _ => by rw [stays], ?_⟩, by rw [stays]; exact mode, by rw [stays]; exact pend⟩
      exact mbKept_map kept fun v => { v with cae := { v.cae with split := s.cae.split } }
    · have stillTaken : ∀ h : Head, (s.taken m).running h.val = false := fun h => by
        rw [← still h, State.running, State.running, State.bget, State.bget, mbKept_rd (s.taken_kept m) (by simp) (by simp only [aHead]; omega)]
      rw [State.splitSet_still device prompt stillTaken _ (by rw [split]; exact same)] at meaning
      dsimp only at meaning
      refine completes_command acc run meaning ((State.taken_serves acc).keep fun _ _ => rfl) (by simp) fun t done kept => ?_
      have there : ∀ e : Fin 8, t.cae.split[e] = ((s.taken m).modSplit f fun y => y.turned want).cae.split[e] := fun e => mbKept_same kept (·.cae.split[e])
      refine ⟨⟨done, fun e ne => by rw [there, State.modSplit_ne _ _ ne, split], ?_⟩, ?_, ?_⟩
      · have before := mbKept_map (s.taken_kept m) fun v => { v with cae := { v.cae with split := s.cae.split } }
        refine mbKept_after (fun v => { v with cae := { v.cae with split := s.cae.split } }) ?_ kept
        exact before
      · rw [there, State.modSplit_same, SplitFn.turned_mode]
      · rw [there, State.modSplit_same, SplitFn.turned_pend]

end

end Sys2Proof.Machine
end

section
/-! FWRELAY: the first step of a relay (R271). -/

namespace Sys2Proof.Machine

open Safety

section
variable {s : State} {m : Mbox}

/-! ### A core leaves for a relay -/

theorem State.setAlive_role (s : State) (k j : Core) (b : Bool) : (s.setAlive k b).role j = s.role j := by
  simp only [State.setAlive, State.role, State.fget, State.bset, State.fset_rd]
  split
  next e => rw [fld_putFld_apart _ _ (by decide) (by decide), e]
  next => rfl

theorem State.setAlive_alive (s : State) (k : Core) (b : Bool) : (s.setAlive k b).alive k = b := by
  rw [State.setAlive, State.alive, State.bget, State.bset_rd, if_pos rfl, bit_putBit_same _ _ (by decide)]

/-- Mailboxes in service pass to a core (R271). -/
def State.servedBy (s : State) (b : Bool) (l : List Mbox) : State :=
  l.foldl (fun (t : State) m => if t.mbPhase m = 3 then t.bset (aMbctl m.val) 16 b else t) s

theorem State.servedBy_spec (s : State) (b : Bool) (l : List Mbox) : let t := s.servedBy b l
    (∀ a < 0xC7E100, t.rd a = s.rd a) ∧ (∀ n : Mbox, t.mbPhase n = s.mbPhase n) ∧ t.mboxes = s.mboxes ∧ t.cae = s.cae := by
  refine List.foldlRecOn (motive := fun t : State => (∀ a < 0xC7E100, t.rd a = s.rd a) ∧ (∀ n : Mbox, t.mbPhase n = s.mbPhase n) ∧
    t.mboxes = s.mboxes ∧ t.cae = s.cae) l _ ⟨fun _ _ => rfl, fun _ => rfl, rfl, rfl⟩ fun t ht k _ => ?_
  obtain ⟨words, phases, mboxes, cae⟩ := ht
  split
  · refine ⟨fun a ha => ?_, fun n => ?_, mboxes, cae⟩
    · rw [State.bset_rd, if_neg (by simp only [aMbctl]; omega), words a ha]
    · rw [← phases n, State.mbPhase, State.fget, State.bset, State.fset_rd]
      split
      next e => rw [fld_putFld_apart _ _ (by decide) (by decide), ← e]; rfl
      next => rfl
  · exact ⟨words, phases, mboxes, cae⟩

/-- Core j leaves and core k carries on alone (R271). -/
theorem State.relayMove_spec (s : State) {j k : Core} (apart : k ≠ j) (step : Nat) : let t := s.relayMove j k step
    t.role k = 2 ∧ t.role j = 3 ∧ t.alive j = false ∧ (∀ n : Mbox, t.mbPhase n = s.mbPhase n) ∧ t.mboxes = s.mboxes ∧ t.cae.relay = step ∧
      t.cae.ctxs = (s.moveCtxs j k false).cae.ctxs := by
  let s1 := ((s.setRole k 2).setRole j 3).moveCtxs j k false
  let s2 := (s1.setAlive j false).modCore j fun x => { x with seq := .none, seqAge := 0 }
  obtain ⟨words, phases, mboxes, cae⟩ := s2.servedBy_spec (k.val == 1) (List.finRange 16)
  have moved : s.relayMove j k step = { s2.servedBy (k.val == 1) (List.finRange 16) with
      cae := { (s2.servedBy (k.val == 1) (List.finRange 16)).cae with relay := step } } := rfl
  have core : ∀ i : Core, (s.relayMove j k step).rd (aCore i.val 0) = (s1.setAlive j false).rd (aCore i.val 0) := fun i => by
    rw [moved]
    exact words _ (by simp only [aCore]; omega)
  have role : ∀ i, (s.relayMove j k step).role i = ((s.setRole k 2).setRole j 3).role i := fun i => by
    rw [State.role, State.fget, core]
    exact s1.setAlive_role j i false
  refine ⟨?_, ?_, ?_, fun n => ?_, ?_, by rw [moved], ?_⟩
  · rw [role, State.setRole_role _ _ _ (by decide), if_neg apart, State.setRole_role _ _ _ (by decide), if_pos rfl]
  · rw [role, State.setRole_role _ _ _ (by decide), if_pos rfl]
  · rw [State.alive, State.bget, core]
    exact s1.setAlive_alive j false
  · rw [moved]
    refine (phases n).trans ?_
    have far : ∀ (i : Core), aMbctl n.val ≠ aCore i.val 0 := fun i => by simp only [aMbctl, aCore]; omega
    refine congrArg (fld · 23 21) ?_
    simp only [s2, State.modCore_rd, State.setAlive, State.bset_rd, if_neg (far j)]
    show ((s.setRole k 2).setRole j 3).rd (aMbctl n.val) = s.rd (aMbctl n.val)
    simp only [State.setRole, State.fset_rd, if_neg (far _)]
  · rw [moved]
    exact mboxes
  · rw [moved]
    show (s2.servedBy (k.val == 1) (List.finRange 16)).cae.ctxs = _
    rw [cae]
    rfl

/-- Contexts of a core that leaves pass to its peer as they are (R271). -/
theorem State.moveCtxs_spec (s : State) (j k : Core) (c : Ctx) (loaded : s.cae.ctxs[c].st ≠ 0) (own : s.cae.ctxs[c].core = j) :
    let x := (s.moveCtxs j k false).cae.ctxs[c]
    x.core = k ∧ x.st = s.cae.ctxs[c].st := by
  have moved : (s.moveCtxs j k false).cae.ctxs[c] = { s.cae.ctxs[c] with core := k, atRestart := s.cae.ctxs[c].atRestart || (false && s.cae.ctxs[c].st == 2) } := by
    simp only [State.moveCtxs, Fin.getElem_fin, Vector.getElem_map]
    rw [if_pos ⟨loaded, own⟩]
  rw [moved]
  exact ⟨rfl, rfl⟩

/-! ### FWRELAY -/

/-- The relay's first step waits, its mailbox held. -/
def State.relayHeld (s : State) (m : Mbox) : State :=
  { s.modMbox m fun x => { x with hold := .relay } with cae := { s.cae with relay := 1 } }

theorem State.relayHeld_rd (s : State) (m : Mbox) (a : Nat) : (s.relayHeld m).rd a = s.rd a := rfl

theorem State.taken_relayHeld_mbPhase (s : State) (m : Mbox) : ((s.taken m).relayHeld m).mbPhase m = 3 := by
  rw [State.mbPhase, State.fget, State.relayHeld_rd]
  exact s.taken_mbPhase m

theorem State.taken_relayHeld_rd (s : State) (m : Mbox) {a : Nat} (ne : a ≠ aMbctl m.val) (ne' : a ≠ aMbseq m.val) :
    ((s.taken m).relayHeld m).rd a = s.rd a := by
  rw [State.relayHeld_rd, s.taken_rd_ne m ne ne']

/-- Both cores of a duplex pair stand as they did. -/
theorem relayHeld_duplex (pair : (s.alive 0 && s.alive 1 && s.role 0 == 1 && s.role 1 == 1) = true) : let t := (s.taken m).relayHeld m
    (t.alive 0 = true ∧ t.alive 1 = true) ∧ t.role 0 = 1 ∧ t.role 1 = 1 := by
  have core : ∀ k : Core, ((s.taken m).relayHeld m).rd (aCore k.val 0) = s.rd (aCore k.val 0) := fun k =>
    s.taken_relayHeld_rd m (by simp only [aCore, aMbctl]; omega) (by simp only [aCore, aMbseq]; omega)
  simp only [Bool.and_eq_true, beq_iff_eq] at pair
  obtain ⟨⟨⟨alive0, alive1⟩, role0⟩, role1⟩ := pair
  refine ⟨⟨?_, ?_⟩, ?_, ?_⟩
  · rwa [State.alive, State.bget, core]
  · rwa [State.alive, State.bget, core]
  · rwa [State.role, State.fget, core]
  · rwa [State.role, State.fget, core]

/-- A FWRELAY's own mailbox does not keep a core busy, and the others are as they were. -/
theorem State.taken_relayHeld_coreBusy (posted : s.mbPhase m = 2) (k : Core) : ((s.taken m).relayHeld m).coreBusy k = s.coreBusy k := by
  unfold State.coreBusy
  refine congrArg (fun p : Mbox → Bool => (List.finRange 16).any p) (funext fun n => ?_)
  by_cases own : n = m
  · subst own
    have held : ((s.taken n).relayHeld n).mboxes[n].hold = .relay := congrArg MboxSt.hold (State.modMbox_same _ _ _)
    rw [posted, held]
    simp
  · have apart : n.val ≠ m.val := fun e => own (Fin.ext e)
    have word : ((s.taken m).relayHeld m).rd (aMbctl n.val) = s.rd (aMbctl n.val) :=
      s.taken_relayHeld_rd m (by simp only [aMbctl]; omega) (by simp only [aMbctl, aMbseq]; omega)
    have box : ((s.taken m).relayHeld m).mboxes[n] = s.mboxes[n] := by
      obtain ⟨-, others, -⟩ := s.taken_kept m
      exact (State.modMbox_ne _ _ own).trans (others n own)
    rw [State.mbPhase, State.mbPhase, State.fget, State.fget, State.bget, State.bget, word, box]

/-- W1 serves a command: the relay waits. -/
theorem State.relayStep_busy (waits : s.cae.relay = 1) (pair : s.alive 0 = true ∧ s.alive 1 = true) (busy : s.coreBusy 1 = true) : s.relayStep = s := by
  obtain ⟨alive0, alive1⟩ := pair
  rw [State.relayStep, if_neg (by simp [waits]), if_neg (by simp [alive0, alive1]), if_pos busy]

/-- W1 serves none: W0 carries on alone. -/
theorem State.relayStep_free (waits : s.cae.relay = 1) (pair : s.alive 0 = true ∧ s.alive 1 = true) (free : s.coreBusy 1 = false) :
    s.relayStep = s.relayMove 1 0 2 := by
  obtain ⟨alive0, alive1⟩ := pair
  rw [State.relayStep, if_neg (by simp [waits]), if_neg (by simp [alive0, alive1]), if_neg (by simp [free])]

/-- A command that its meaning holds stays in service. -/
theorem completes_held {cmd : Nat} (acc : MbAccepted s m cmd) {i : Instr} {f : List Word → State → Served}
    (run : exec i s = .next (s.command m cmd anyReq f)) {t : State} (meaning : f (s.reqArgs m) (s.taken m) = .held t) {P : State → Prop} (holds : P t) :
    Completes i s P := by
  refine ⟨_, run, ?_⟩
  rw [State.command_eq acc, meaning]
  exact holds

/-- What FWRELAY makes of a request. -/
theorem fwrelay_meaning (_ : MbAccepted s m 0x59) : let duplex := s.alive 0 && s.alive 1 && s.role 0 == 1 && s.role 1 == 1
    ∃ f, exec (.fwrelay m) s = .next (s.command m 0x59 anyReq f) ∧ f (s.reqArgs m) (s.taken m) =
      if s.cae.staged.isNone then .done (s.taken m) 2 [] else if s.cae.relay ≠ 0 ∨ duplex = false then .done (s.taken m) 1 []
      else .held ((s.taken m).relayHeld m).relayStep := by
  intro duplex
  have cae : (s.taken m).cae = s.cae := mbKept_same (s.taken_kept m) (·.cae)
  have core : ∀ k : Core, (s.taken m).rd (aCore k.val 0) = s.rd (aCore k.val 0) := fun k =>
    s.taken_rd_ne m (by simp only [aCore, aMbctl]; omega) (by simp only [aCore, aMbseq]; omega)
  have alive : ∀ k, (s.taken m).alive k = s.alive k := fun k => by simp only [State.alive, State.bget, core k]
  have role : ∀ k, (s.taken m).role k = s.role k := fun k => by simp only [State.role, State.fget, core k]
  refine ⟨_, rfl, ?_⟩
  simp only [cae, alive, role]
  have unfit : (s.cae.relay ≠ 0 ∨ (!s.alive 0) = true ∨ (!s.alive 1) = true ∨ s.role 0 ≠ 1 ∨ s.role 1 ≠ 1) ↔ (s.cae.relay ≠ 0 ∨ duplex = false) := by
    simp only [duplex]
    cases s.alive 0 <;> cases s.alive 1 <;> simp [or_iff_not_imp_left]
  simp only [unfit]
  rfl

/-- FWRELAY (R271). -/
theorem fwrelay_completes (acc : MbAccepted s m 0x59) : let duplex := s.alive 0 && s.alive 1 && s.role 0 == 1 && s.role 1 == 1
    (s.cae.staged = none → Completes (.fwrelay m) s fun t => MbDone s t m 2 [] ∧ MbKept s t m []) ∧
    (s.cae.staged ≠ none → (s.cae.relay ≠ 0 ∨ duplex = false) → Completes (.fwrelay m) s fun t => MbDone s t m 1 [] ∧ MbKept s t m []) ∧
    (s.cae.staged ≠ none → s.cae.relay = 0 → duplex = true → s.coreBusy 1 = true → Completes (.fwrelay m) s fun t => t.mbPhase m = 3 ∧
      t.mboxes[m].hold = .relay ∧ t.cae.relay = 1 ∧ t.role 0 = 1 ∧ t.role 1 = 1) ∧
    (s.cae.staged ≠ none → s.cae.relay = 0 → duplex = true → s.coreBusy 1 = false → Completes (.fwrelay m) s fun t => t.mbPhase m = 3 ∧
      t.mboxes[m].hold = .relay ∧ t.role 0 = 2 ∧ t.role 1 = 3 ∧ t.alive 1 = false ∧ t.cae.relay = 2 ∧
      ∀ c : Ctx, s.cae.ctxs[c].st ≠ 0 → s.cae.ctxs[c].core = 1 → t.cae.ctxs[c].core = 0 ∧ t.cae.ctxs[c].st = s.cae.ctxs[c].st) := by
  intro duplex
  have posted : s.mbPhase m = 2 := by
    obtain ⟨⟨-, posted, -⟩, -⟩ := acc
    exact posted
  have hold : ((s.taken m).relayHeld m).mboxes[m].hold = .relay := congrArg MboxSt.hold (State.modMbox_same _ _ _)
  obtain ⟨f, run, meaning⟩ := fwrelay_meaning acc
  refine ⟨fun nothing => ?_, fun staged unfit => ?_, fun staged idle pair busy => ?_, fun staged idle pair free => ?_⟩
  · exact completes_unchanged acc run (meaning.trans (if_pos (by rw [nothing]; rfl))) (by decide)
  · rw [if_neg (by simpa using staged), if_pos unfit] at meaning
    exact completes_unchanged acc run meaning (by decide)
  · obtain ⟨alive, role0, role1⟩ := relayHeld_duplex (m := m) pair
    rw [if_neg (by simpa using staged), if_neg (not_or.2 ⟨fun h => h idle, fun h => Bool.false_ne_true (h.symm.trans pair)⟩),
      State.relayStep_busy rfl alive ((State.taken_relayHeld_coreBusy posted 1).trans busy)] at meaning
    exact completes_held acc run meaning ⟨s.taken_relayHeld_mbPhase m, hold, rfl, role0, role1⟩
  · obtain ⟨alive, -, -⟩ := relayHeld_duplex (m := m) pair
    rw [if_neg (by simpa using staged), if_neg (not_or.2 ⟨fun h => h idle, fun h => Bool.false_ne_true (h.symm.trans pair)⟩),
      State.relayStep_free rfl alive ((State.taken_relayHeld_coreBusy posted 1).trans free)] at meaning
    obtain ⟨role0, role1, dead, phase, mboxes, relay, ctxs⟩ := ((s.taken m).relayHeld m).relayMove_spec (j := 1) (k := 0) (by decide) 2
    refine completes_held acc run meaning ⟨(phase m).trans (s.taken_relayHeld_mbPhase m), by rw [mboxes]; exact hold, role0, role1, dead, relay, fun c loaded own => ?_⟩
    have same : ((s.taken m).relayHeld m).cae.ctxs = s.cae.ctxs := mbKept_same (s.taken_kept m) (·.cae.ctxs)
    have moved := ((s.taken m).relayHeld m).moveCtxs_spec 1 0 c (by rw [same]; exact loaded) (by rw [same]; exact own)
    rw [ctxs]
    rwa [same] at moved

end

end Sys2Proof.Machine
end

section

open Sys2Proof.Machine Sys2Proof.Safety in
/-- Settles O16, command by command: an accepted request runs the command's meaning in the state that service leaves (`State.command_eq`), whose
answer changes the mailbox's own words alone (`Serves.done`); what remains is what the meaning itself writes. -/
theorem servedImageCommands : Obligations.ServedImageCommands := by
  intro s m
  refine ⟨fwput_completes, fun ok acc => fwboot_completes acc ok, fun ok acc => ?_, flashblk_completes, flashdir_completes,
    fun ok acc => fwstage_completes acc ok, fwrelay_completes, splitset_completes, appload_completes⟩
  obtain ⟨unfit, writes⟩ := flashwrite_completes acc ok
  exact ⟨unfit, fun fit alone caeruno _ => writes fit alone caeruno⟩

end

section
/-! A queue that starts a timer (O41). -/

namespace Sys2Proof.Machine

/-- A TIMER action of Caeruno's that starts timer 0. -/
def startEntry : QEntry := { idx := 0, gen := 0, w0 := 0, w1 := 0x400000, w2 := 0, w3 := 0, req := .core 0 0 }

/-- Timer 0, whose KEEP is 1, is frozen and stopped, and head 0's queue is about to start it. -/
def frozenTimer : State :=
  let s := State.reset.modHead 0 fun x => { x with queue := [startEntry], dueBeam := [0] }
  ({ s with timers := vmod s.timers 0 fun x => { x with frozen := true } } : State).wr (aTimer 0 0) (wd (2 ^ 12))

/-- The state that its action leaves. -/
def frozenStarted : State := (frozenTimer.takeDue 0 startEntry).timerBy 32 4 [0] 0

theorem frozenTimer_starts : exec (.timer 0) frozenTimer = .next frozenStarted := by
  have due : frozenTimer.nextDue 0 = some startEntry := by decide +kernel
  have checked : frozenTimer.entryCheck 0 startEntry.idx = (frozenTimer, false) := by rfl
  have permitted : frozenTimer.actionRight (0 : Head).val startEntry = true := by decide +kernel
  change execTimer 0 frozenTimer = _
  unfold execTimer State.issue
  rw [due]
  simp only [checked, permitted]
  rfl

/-- LOWRES of the timer started shows that it runs at low resolution (R328). -/
theorem frozenStarted_lowres : frozenStarted.rd (aTimer 0 7) ≠ frozenTimer.rd (aTimer 0 7) := by decide +kernel

end Sys2Proof.Machine

open Sys2Proof.Machine in
/-- Refutes O41: its clause on TIMER lets a start change no word but QCOUNT and the timer's TCTL. Started while it is frozen with KEEP 1, a
timer runs at low resolution at once, and LOWRES of its TSTAT is set (R328). -/
theorem not_queueActions : ¬ Obligations.QueueActions := by
  intro h
  obtain ⟨-, permitted⟩ := h frozenTimer 0 startEntry (by decide +kernel) (by decide +kernel)
  obtain ⟨-, -, -, -, starts, -⟩ := permitted (by decide +kernel)
  obtain ⟨t, run, -, -, -, words, -⟩ := starts (by decide) (by decide) (by decide +kernel)
  rw [frozenTimer_starts] at run
  cases run
  exact frozenStarted_lowres (words (by decide) (aTimer 0 7) (by decide +kernel))

end

section
/-! What work leaves of the heads and what the work of one head leaves of the rest: two relations between states that the statements about
the beam share, each carried through the operations it is used for. -/

namespace Sys2Proof.Machine

open Safety

/-! ### Events -/

section
variable {s t u : State}

theorem evHead_rd (s : State) (h kind a : Nat) : (s.evHead h kind).rd a = s.rd a := State.raiseCause_rd _ _ _ _ _
theorem evHead_heads (s : State) (h kind : Nat) : (s.evHead h kind).heads = s.heads := State.raiseCause_heads _ _ _ _

/-- A source raised where no event has been before. -/
theorem eventRaised_raise (hw : u.hw = s.hw) {n : Nat} (hn : n < 64) : EventRaised s (u.raise n) n [] := by
  refine ⟨u.raise_evFlag hn, fun k hk => ?_⟩
  simp only [evRegs, List.append_nil, List.mem_cons, List.not_mem_nil, or_false, not_or] at hk
  rw [u.raise_hwRd_ne n hk.1 hk.2, State.hwRd, hw, State.hwRd]

/-- A head's event raised where no event has been before. -/
theorem eventRaised_evHead (hw : u.hw = s.hw) (h : Head) (kind : Nat) : EventRaised s (u.evHead h.val kind) (24 + h.val) [0x0B8, 0x0BC] := by
  refine ⟨u.raiseCause_evFlag _ _ (by omega), fun k hk => ?_⟩
  simp only [evRegs, List.cons_append, List.nil_append, List.mem_cons, List.not_mem_nil, or_false, not_or] at hk
  obtain ⟨flag, count, low, high⟩ := hk
  unfold State.evHead
  rw [u.raiseCause_hwRd_ne _ _ _ (by split <;> assumption) flag count, State.hwRd, hw, State.hwRd]

end

/-! ### What leaves the heads alone -/

/-- From s to t no head's state or register, no byte of DRAM and no fuse has changed. -/
structure HeadsKept (s t : State) : Prop where
  heads : t.heads = s.heads
  regs : ∀ a, 0xC40000 ≤ a → a < 0xC40200 → t.rd a = s.rd a
  dram : t.dram = s.dram
  fuses : t.fuses = s.fuses

theorem HeadsKept.refl (s : State) : HeadsKept s s := ⟨rfl, fun _ _ _ => rfl, rfl, rfl⟩

section
variable {s t : State} (q : HeadsKept s t)
include q

theorem HeadsKept.trans {u : State} (p : HeadsKept t u) : HeadsKept s u :=
  ⟨p.heads.trans q.heads, fun a l r => (p.regs a l r).trans (q.regs a l r), p.dram.trans q.dram, p.fuses.trans q.fuses⟩

/-- A change of other state. -/
theorem HeadsKept.congr {u : State} (ws : u.ws = t.ws := by rfl) (heads : u.heads = t.heads := by rfl) (dram : u.dram = t.dram := by rfl)
    (fuses : u.fuses = t.fuses := by rfl) : HeadsKept s u :=
  ⟨heads.trans q.heads, fun a l r => (by rw [State.rd, ws, State.rd] : u.rd a = t.rd a).trans (q.regs a l r), dram.trans q.dram, fuses.trans q.fuses⟩

theorem HeadsKept.wr {a : Nat} (v : Word) (ha : a < 0xC40000 ∨ 0xC40200 ≤ a) : HeadsKept s (t.wr a v) :=
  ⟨q.heads, fun b l r => (State.rd_wr_ne t v (by omega)).trans (q.regs b l r), q.dram, q.fuses⟩

theorem HeadsKept.raise (n : Nat) : HeadsKept s (t.raise n) := q.congr (by simp) (by simp) (by simp) (by simp)

theorem HeadsKept.raiseCause (off b n : Nat) : HeadsKept s (t.raiseCause off b n) := q.congr (by simp) (by simp) (by simp) (by simp)

theorem HeadsKept.ite {u : State} {c : Prop} [Decidable c] (p : HeadsKept s u) : HeadsKept s (if c then u else t) := by
  split <;> assumption

/-- A step that is taken under a condition. -/
theorem HeadsKept.when {u : State} {c : Prop} [Decidable c] (f : HeadsKept s t → HeadsKept s u) : HeadsKept s (if c then u else t) := q.ite (f q)

theorem HeadsKept.foldl {α : Type} {f : State → α → State} {l : List α} (hf : ∀ u x, HeadsKept s u → HeadsKept s (f u x)) :
    HeadsKept s (l.foldl f t) :=
  List.foldlRecOn l f q fun u hu x _ => hf u x hu

theorem HeadsKept.splitStart (h : Nat) : HeadsKept s (t.splitStart h) := q.foldl fun _ _ p => p.congr

theorem HeadsKept.splitStop (h : Nat) : HeadsKept s (t.splitStop h) := q.foldl fun _ _ p => p.congr

theorem HeadsKept.splitBoundary (h : Nat) : HeadsKept s (t.splitBoundary h) := q.foldl fun _ _ p => p.congr

theorem HeadsKept.lineUnlock : HeadsKept s t.lineUnlock :=
  HeadsKept.raise (HeadsKept.wr (HeadsKept.congr q) _ (by simp only [aLark]; omega)) _

theorem HeadsKept.larkUnlock (h : Nat) : HeadsKept s (t.larkUnlock h) := q.ite q.lineUnlock

theorem HeadsKept.larkResume (h : Nat) : HeadsKept s (t.larkResume h) := q.ite (q.lineUnlock.ite q.congr)

theorem HeadsKept.copyEnd (n : Fin 8) (code : Nat) : HeadsKept s (t.copyEnd n code) := by
  have ended := HeadsKept.congr (u := ((t.bset (aCopy n.val 5) 23 false).fset (aCopy n.val 5) 22 20 code).modCopy n fun _ => CopySt.reset)
    ((q.wr (a := aCopy n.val 5) _ (by simp only [aCopy]; omega)).wr (a := aCopy n.val 5) _ (by simp only [aCopy]; omega))
  exact (ended.raiseCause _ _ _).ite ended

theorem HeadsKept.streamStop (h : Head) : HeadsKept s (t.streamStop h) := q.foldl fun _ _ p => p.ite (p.copyEnd _ _)

theorem HeadsKept.setPower (p : PowState) : HeadsKept s (t.setPower p) := (HeadsKept.congr q).raise _

theorem HeadsKept.powTrack : HeadsKept s t.powTrack := q.ite (q.setPower _)

end

/-! ### The work of one head -/

/-- From s to t only words of A, registers of the host window, messages and the state of head h have changed. -/
structure HeadOnly (h : Head) (A : List Nat) (s t : State) : Prop where
  words : WordsKept s t A
  others : ∀ g : Head, g ≠ h → t.heads[g] = s.heads[g]
  only : t = { s with ws := t.ws, hw := t.hw, pcie := t.pcie, heads := t.heads }

theorem HeadOnly.refl (h : Head) (A : List Nat) (s : State) : HeadOnly h A s s := ⟨fun _ _ => rfl, fun _ _ => rfl, rfl⟩

section
variable {h : Head} {A : List Nat} {s t : State} (q : HeadOnly h A s t)
include q

/-- A change of the words, the host window, messages and heads. -/
theorem HeadOnly.change {ws hw pcie heads} (words : ∀ a, a ∉ A → spGet wsReset ws a = t.rd a) (others : ∀ g : Head, g ≠ h → heads[g] = t.heads[g]) :
    HeadOnly h A s { t with ws := ws, hw := hw, pcie := pcie, heads := heads } := by
  refine ⟨fun a ha => (words a ha).trans (q.words a ha), fun g e => (others g e).trans (q.others g e), ?_⟩
  exact congrArg (fun u : State => { u with ws := ws, hw := hw, pcie := pcie, heads := heads }) q.only

theorem HeadOnly.wr {a : Nat} (v : Word) (ha : a ∈ A) : HeadOnly h A s (t.wr a v) :=
  q.change (fun _ hb => State.rd_wr_ne t v fun e => hb (e ▸ ha)) fun _ _ => rfl

theorem HeadOnly.modHead (f : HeadSt → HeadSt) : HeadOnly h A s (t.modHead h f) :=
  q.change (fun _ _ => rfl) fun _ e => getElem_vmod_ne _ _ e

theorem HeadOnly.raise (n : Nat) : HeadOnly h A s (t.raise n) := by
  rw [State.raise_eq]
  exact q.change (fun _ _ => rfl) fun _ _ => rfl

theorem HeadOnly.raiseCause (off b n : Nat) : HeadOnly h A s (t.raiseCause off b n) := by
  rw [State.raiseCause_eq]
  exact q.change (fun _ _ => rfl) fun _ _ => rfl

theorem HeadOnly.ite {u : State} {c : Prop} [Decidable c] (p : HeadOnly h A s u) : HeadOnly h A s (if c then u else t) := by
  split <;> assumption

theorem HeadOnly.foldl {α : Type} {f : State → α → State} {l : List α} (hf : ∀ u x, HeadOnly h A s u → HeadOnly h A s (f u x)) :
    HeadOnly h A s (l.foldl f t) :=
  List.foldlRecOn l f q fun u hu x _ => hf u x hu

theorem HeadOnly.trans {u : State} (p : HeadOnly h A t u) : HeadOnly h A s u := by
  refine ⟨fun a ha => (p.words a ha).trans (q.words a ha), fun g e => (p.others g e).trans (q.others g e), ?_⟩
  exact p.only.trans (congrArg (fun v : State => { v with ws := u.ws, hw := u.hw, pcie := u.pcie, heads := u.heads }) q.only)

theorem HeadOnly.mono {B : List Nat} (sub : A ⊆ B) : HeadOnly h B s t := ⟨fun a ha => q.words a fun m => ha (sub m), q.others, q.only⟩

theorem HeadOnly.dram : t.dram = s.dram := by rw [q.only]
theorem HeadOnly.fuses : t.fuses = s.fuses := by rw [q.only]

end

/-! ### Entries leave the queue -/

section
variable {h : Head} {s t : State}

/-- What of a head's state is neither its queue nor a list of due entries. -/
def unqueued (x : HeadSt) : HeadSt := { x with queue := [], dueBeam := [], dueRender := [], dueLate := [] }

/-- The words that count a head's queue and its late, denied and flushed entries. -/
def queueWords (h : Head) : List Nat := [aHead h.val 0x0C, aHead h.val 0x0D]

theorem State.modHead_self (s : State) (h : Head) (f : HeadSt → HeadSt) : (s.modHead h f).heads[h] = f s.heads[h] := getElem_vmod_same _ _ _

/-- Two changes of a head are one. -/
theorem State.modHead_modHead (s : State) (h : Head) (f g : HeadSt → HeadSt) : (s.modHead h f).modHead h g = s.modHead h fun x => g (f x) := by
  simp only [State.modHead, vmod, Fin.getElem_fin, Vector.getElem_set_self, Vector.set_set]

/-- What a change makes of the head as it stands is all that counts. -/
theorem State.modHead_congr (s : State) (h : Head) {f g : HeadSt → HeadSt} (same : f s.heads[h] = g s.heads[h]) : s.modHead h f = s.modHead h g := by
  simp only [State.modHead, vmod, same]

theorem State.modHead_other (s : State) {h g : Head} (f : HeadSt → HeadSt) (ne : g ≠ h) : (s.modHead h f).heads[g] = s.heads[g] := getElem_vmod_ne _ _ ne

theorem State.setQueue_self (s : State) (h : Head) (l : List QEntry) : (s.setQueue h l).heads[h] = { s.heads[h] with queue := l } := s.modHead_self h _

theorem State.dropEntry_self (s : State) (h : Head) (i : Nat) : (s.dropEntry h i).heads[h] = { s.heads[h] with
    queue := s.heads[h].queue.filter fun e => e.idx != i
    dueBeam := s.heads[h].dueBeam.filter (· != i)
    dueRender := s.heads[h].dueRender.filter (· != i)
    dueLate := s.heads[h].dueLate.filter (· != i) } := by
  refine (State.modHead_self _ h _).trans ?_
  rw [State.setQueue_self]

theorem State.dropEntry_queue (s : State) (h : Head) (i : Nat) : (s.dropEntry h i).heads[h].queue = s.heads[h].queue.filter fun e => e.idx != i := by
  rw [State.dropEntry_self]

theorem State.dropEntry_unqueued (s : State) (h : Head) (i : Nat) : unqueued (s.dropEntry h i).heads[h] = unqueued s.heads[h] := by
  rw [State.dropEntry_self]; rfl

/-- QCOUNT follows the queue. -/
theorem State.setQueue_count (s : State) (h : Head) (l : List QEntry) : (s.setQueue h l).fget (aHead h.val 0x0C) 10 0 = l.length % 2048 := by
  rw [State.fget, State.setQueue, State.fset_rd, if_pos rfl, fld_putFld _ _ (by decide) (by decide)]
  rfl

theorem State.dropEntry_rd_ne (s : State) (h : Head) (i : Nat) {a : Nat} (ne : a ≠ aHead h.val 0x0C) : (s.dropEntry h i).rd a = s.rd a :=
  State.rd_wr_ne _ _ ne

theorem HeadOnly.dropEntry {A : List Nat} (q : HeadOnly h A s t) (i : Nat) (ha : aHead h.val 0x0C ∈ A) : HeadOnly h A s (t.dropEntry h i) :=
  ((q.modHead _).wr _ ha).modHead _

/-- Entries dropped one after the other: what stays has none of their indexes. -/
theorem State.foldl_dropEntry_queue (l : List QEntry) : ∀ s : State,
    (l.foldl (fun (t : State) e => t.dropEntry h e.idx) s).heads[h].queue = s.heads[h].queue.filter fun x => l.all fun e => x.idx != e.idx := by
  induction l with
  | nil => intro s; simp
  | cons e l ih => intro s; rw [List.foldl_cons, ih, State.dropEntry_queue, List.filter_filter]; simp [Bool.and_comm]

theorem State.foldl_dropEntry_unqueued (l : List QEntry) (s : State) :
    unqueued (l.foldl (fun (t : State) e => t.dropEntry h e.idx) s).heads[h] = unqueued s.heads[h] :=
  List.foldlRecOn (motive := fun t : State => unqueued t.heads[h] = unqueued s.heads[h]) l _ rfl fun t ht e _ => (t.dropEntry_unqueued h e.idx).trans ht

theorem State.foldl_dropEntry_only (l : List QEntry) (s : State) :
    HeadOnly h [aHead h.val 0x0C] s (l.foldl (fun (t : State) e => t.dropEntry h e.idx) s) :=
  (HeadOnly.refl h _ s).foldl fun _ e q => q.dropEntry e.idx (by simp)

theorem State.foldl_dropEntry_noEvent (l : List QEntry) (s : State) : NoEvent s (l.foldl (fun (t : State) e => t.dropEntry h e.idx) s) :=
  List.foldlRecOn (motive := fun t => NoEvent s t) l _ ⟨rfl, rfl⟩ fun _ ht _ _ => ht

/-! ### Late entries (R46) -/

theorem State.lateOne_queue (s : State) (h : Head) (e : QEntry) : (s.lateOne h e).heads[h].queue =
    if e.lateBit = true ∨ e.fmode = 2 then s.heads[h].queue else s.heads[h].queue.filter fun x => x.idx != e.idx := by
  unfold State.lateOne
  dsimp only
  by_cases late : e.lateBit = true
  · rw [if_pos late, if_pos (.inl late), State.modHead_self]; rfl
  · by_cases every : e.fmode = 2
    · rw [if_neg late, if_pos every, if_pos (.inr every)]; rfl
    · rw [if_neg late, if_neg every, if_neg (by simp [late, every]), State.dropEntry_queue]; rfl

theorem State.lateOne_unqueued (s : State) (h : Head) (e : QEntry) : unqueued (s.lateOne h e).heads[h] = unqueued s.heads[h] := by
  unfold State.lateOne
  dsimp only
  split
  · rw [State.modHead_self]; rfl
  · split
    · rfl
    · rw [State.dropEntry_unqueued]; rfl

theorem HeadOnly.lateOne {A : List Nat} (q : HeadOnly h A s t) (e : QEntry) (sub : queueWords h ⊆ A) : HeadOnly h A s (t.lateOne h e) := by
  have counted : HeadOnly h A s (t.inc (aHead h.val 0x0D) 23 16) := q.wr _ (sub (by simp [queueWords]))
  exact ((counted.dropEntry _ (sub (by simp [queueWords]))).ite counted).ite (counted.modHead _)

theorem HeadOnly.lateAll {A : List Nat} (q : HeadOnly h A s t) (es : List QEntry) (sub : queueWords h ⊆ A) : HeadOnly h A s (t.lateAll h es) :=
  HeadOnly.ite (HeadOnly.raiseCause (q.foldl fun _ _ p => p.lateOne _ sub) _ _ _) q

theorem State.lateAll_heads (s : State) (h : Head) (es : List QEntry) : (s.lateAll h es).heads = (es.foldl (fun (t : State) e => t.lateOne h e) s).heads := by
  unfold State.lateAll
  cases es with
  | nil => rfl
  | cons e es => exact evHead_heads _ _ _

theorem State.lateAll_unqueued (s : State) (h : Head) (es : List QEntry) : unqueued (s.lateAll h es).heads[h] = unqueued s.heads[h] := by
  rw [State.lateAll_heads]
  exact List.foldlRecOn (motive := fun t : State => unqueued t.heads[h] = unqueued s.heads[h]) es _ rfl fun t ht e _ => (t.lateOne_unqueued h e).trans ht

/-- Late entries may leave the queue; no other entry does, and none comes. -/
theorem State.lateAll_queue (s : State) (h : Head) (es : List QEntry) : (s.lateAll h es).heads[h].queue ⊆ s.heads[h].queue ∧
    ∀ x ∈ s.heads[h].queue, (∀ e ∈ es, x.idx ≠ e.idx) → x ∈ (s.lateAll h es).heads[h].queue := by
  rw [State.lateAll_heads]
  refine List.foldlRecOn (motive := fun t : State => t.heads[h].queue ⊆ s.heads[h].queue ∧
    ∀ x ∈ s.heads[h].queue, (∀ e ∈ es, x.idx ≠ e.idx) → x ∈ t.heads[h].queue) es _ ⟨fun _ m => m, fun _ m _ => m⟩ ?_
  intro t ⟨sub, stay⟩ e he
  rw [State.lateOne_queue]
  split
  · exact ⟨sub, stay⟩
  · exact ⟨fun x m => sub (List.mem_of_mem_filter m), fun x m ne => List.mem_filter.2 ⟨stay x m ne, by simpa using ne e he⟩⟩

end

end Sys2Proof.Machine
end

section
/-! Evaluation of an object line and composition of a finished line (O44). -/

namespace Sys2Proof.Machine

open Safety

/-! ### A part of a head's state -/

/-- From s to t neither the part p of head h's state nor DRAM has changed. -/
structure PartKept {α : Type} (p : HeadSt → α) (h : Head) (s t : State) : Prop where
  part : p t.heads[h] = p s.heads[h]
  dram : t.dram = s.dram

theorem PartKept.refl {α : Type} (p : HeadSt → α) (h : Head) (s : State) : PartKept p h s s := ⟨rfl, rfl⟩

section
variable {α : Type} {p : HeadSt → α} {h : Head} {s t : State} (q : PartKept p h s t)
include q

theorem PartKept.trans {u : State} (r : PartKept p h t u) : PartKept p h s u := ⟨r.part.trans q.part, r.dram.trans q.dram⟩

theorem PartKept.congr {u : State} (heads : u.heads = t.heads := by rfl) (dram : u.dram = t.dram := by rfl) : PartKept p h s u :=
  ⟨(congrArg (fun v : Vector HeadSt 8 => p v[h]) heads).trans q.part, dram.trans q.dram⟩

theorem PartKept.kept {u : State} (r : HeadsKept t u) : PartKept p h s u := q.congr r.heads r.dram

theorem PartKept.modHead {f : HeadSt → HeadSt} (hf : ∀ x, p (f x) = p x := by exact fun _ => rfl) : PartKept p h s (t.modHead h f) :=
  ⟨((congrArg p (t.modHead_self h f)).trans (hf _)).trans q.part, q.dram⟩

theorem PartKept.wr (a : Nat) (v : Word) : PartKept p h s (t.wr a v) := ⟨q.part, q.dram⟩

theorem PartKept.raise (n : Nat) : PartKept p h s (t.raise n) := q.congr (by simp) (by simp)

theorem PartKept.raiseCause (off b n : Nat) : PartKept p h s (t.raiseCause off b n) := q.congr (by simp) (by simp)

theorem PartKept.ite {u : State} {c : Prop} [Decidable c] (r : PartKept p h s u) : PartKept p h s (if c then u else t) := by
  split <;> assumption

/-- A step that is taken under a condition. -/
theorem PartKept.when {u : State} {c : Prop} [Decidable c] (f : PartKept p h s t → PartKept p h s u) : PartKept p h s (if c then u else t) := q.ite (f q)

end

/-! ### Checks of stored words -/

section
variable {s t : State} (q : HeadsKept s t)
include q

theorem HeadsKept.logPut (r : Nat) (kind : Word) (e : List Word) : HeadsKept s (t.logPut (aRegion r 0x10) 2 kind e).1 := by
  refine ⟨q.heads, fun a l u => Eq.trans ?_ (q.regs a l u), q.dram, q.fuses⟩
  refine (spGet_spWrite wsReset _ _ _ _).trans (dif_neg ?_)
  simp only [aRegion]
  omega

theorem HeadsKept.logError (r kind addr bitNo : Nat) : HeadsKept s (t.logError r kind addr bitNo) := by
  have region : ∀ {u : State} (off : Nat) (v : Word), HeadsKept s u → HeadsKept s (u.wr (aRegion r off) v) :=
    fun off v p => p.wr v (by simp only [aRegion]; omega)
  have counted : HeadsKept s (match kind with
      | 1 => t.inc (aRegion r 0) 23 12
      | 2 => t.inc (aRegion r 0) 11 0
      | _ => (t.inc (aRegion r 1) 23 16).evIntegrity) := by
    split
    · exact region _ _ q
    · exact region _ _ q
    · exact (region _ _ q).raise _
  have logged := counted.logPut r 0xC00000 [wd (kind * 2 ^ 22 + addr % 2 ^ 22), wd (bitNo * 2 ^ 19 + t.pow.seconds % 2 ^ 19)]
  exact (region 2 _ (logged.when (region 1 _))).when fun p => p.congr

theorem HeadsKept.readCheck (r a : Nat) (e : MemErr) : HeadsKept s (t.readCheck r a e).1 := by
  unfold State.readCheck
  split
  · exact q.logError _ _ _ _
  · exact q.logError _ _ _ _
  · exact q.logError _ _ _ _
  · split
    · exact q
    · split
      · exact q.logError _ _ _ _
      · split
        · exact (q.congr (u := t.healWord r a)).logError _ _ _ _
        · exact q.logError _ _ _ _

end

theorem State.scanChecks_kept (s : State) (ps : List Plane) : HeadsKept s (s.scanChecks ps).1 :=
  List.foldlRecOn (motive := fun a : State × List Nat => HeadsKept s a.1) _ _ (HeadsKept.refl s) fun _ p _ _ => p.readCheck _ _ _

/-! ### Evaluation (R79 to R88) -/

section
variable {h : Head} {s t : State}

theorem PartKept.sigFlag_evals (q : PartKept (·.evals) h s t) (n : Nat) : PartKept (·.evals) h s (t.sigFlag h n) :=
  q.modHead fun x => by split <;> rfl

theorem PartKept.countLine_evals (q : PartKept (·.evals) h s t) (k : Nat) (f : LineCounts → LineCounts) :
    PartKept (·.evals) h s (t.countLine h k f) :=
  q.modHead fun x => by split <;> rfl

/-- Evaluation of a line puts its slivers, at most 512, at the end. -/
theorem State.evaluate_evals (s : State) (h : Head) (k : Nat) : (s.evaluate h k).dram = s.dram ∧ ∃ e : EvalLine, e.line = k ∧ e.slivers.length ≤ 512 ∧
    (s.evaluate h k).heads[h].evals = (s.heads[h].evals.filter fun x => x.line != k) ++ [e] := by
  unfold State.evaluate
  extract_lets r budget f
  split
  next ps cut _ =>
  have scanned := s.scanChecks_kept ps
  split
  next s0 skip e =>
  rw [e] at scanned
  extract_lets all seen bad cands kept scan made isCut took drop s1 s2 s3 s4 s5 s6 up s7
  have counted : PartKept (·.evals) h s1 s2 := (PartKept.refl _ h s1).countLine_evals _ _
  have planed : PartKept (·.evals) h s1 s4 := (counted.when fun q => q.wr _ _).wr _ _
  have dropped : PartKept (·.evals) h s1 s5 := (PartKept.sigFlag_evals (planed.wr _ _) _).ite planed
  have raised : PartKept (·.evals) h s1 s7 := (dropped.when fun q => q.wr _ _).modHead
  have done : PartKept (·.evals) h s1 (if up = true then s7.evHead h.val 3 else s7) := raised.when fun q => q.raiseCause _ _ _
  have short : made.length ≤ 512 := by simp only [made, kept, List.length_take]; omega
  refine ⟨done.dram.trans scanned.dram, { line := k, slivers := made }, rfl, short, ?_⟩
  rw [done.part]
  refine (congrArg HeadSt.evals (s0.modHead_self h _)).trans ?_
  rw [scanned.heads]

end

/-! ### Composition (R93, R100 to R102) -/

section
variable {s : State} {h : Head}

theorem State.drawn_raster (s : State) (h : Head) : (s.drawn h).raster h.val = s.raster h.val := (HeadQuiet.refl h s).drawn.rasterKept.raster

theorem State.drawn_others (s : State) {h g : Head} (ne : g ≠ h) : (s.drawn h).heads[g] = s.heads[g] := s.modHead_other _ ne

theorem State.drawn_sound (sound : Sound s) (h : Head) : Sound (s.drawn h) := sound

/-- Without mirroring no line differs from its mirror's. -/
theorem State.mirrorCheck_unmirrored (off : s.repair.mirror = false) (h : Head) : s.mirrorCheck h =
    s.modHead h fun x => { x with mirrors := x.mirrors.filter fun m => !(s.mirrorDone h m || s.deadlinePassed h m.line) } := by
  have still : ∀ l : List MirrorLine, l.foldl (fun (t : State) m =>
      if s.mirrorDone h m && t.mirrored h.val m.slot.val && m.own != m.px then t.mirrorMismatch h m.slot else t) s = s := by
    intro l
    induction l with
    | nil => rfl
    | cons m l ih => rw [List.foldl_cons, if_neg (by simp [State.mirrored, off]), ih]
  unfold State.mirrorCheck
  dsimp only
  rw [still]

/-- Without mirroring a line that leaves the engines changes the list of mirrored lines at most. -/
theorem State.mirrorOwn_unmirrored (off : s.repair.mirror = false) (h : Head) (w : LineWork) :
    ∃ l : List MirrorLine, s.mirrorOwn h w = s.modHead h fun x => { x with mirrors := l } := by
  unfold State.mirrorOwn
  rw [State.mirrorCheck_unmirrored (s := s.modHead h _) off]
  rw [State.modHead_modHead]
  exact ⟨_, s.modHead_congr h rfl⟩

/-- No word of a composed-line buffer is found wrong where none is. -/
theorem State.lineCheck_sound (sound : Sound s) (h k n : Nat) : s.lineCheck h k n = (s, false) := by
  obtain ⟨good, flips⟩ := sound
  have whole : ({ s with repair := { s.repair with bad := [] } } : State) = s := by rw [← good]
  have unarmed := flips 23 (by decide)
  unfold State.lineCheck
  simp only [good, List.filter_nil, whole, unarmed, Bool.false_and, Bool.false_eq_true, if_false, State.badIn, List.foldr_nil, State.readBad, List.foldl_nil]

/-- What composition of a line makes of its head. -/
def HeadSt.lineLeft (x : HeadSt) (k : Nat) (out : List Word) : HeadSt :=
  { x with
    lines := x.lines.filter fun v => v.lat.line != k
    evals := x.evals.filter fun e => e.line != k
    composed := (x.composed.filter fun e => e.1 != k) ++ [(k, out)]
    lastLine := some out }

/-- With sound buffers and without mirroring a line is composed, and only its head changes. -/
theorem State.compose_sound (sound : Sound s) (off : s.repair.mirror = false) (h : Head) (w : LineWork) :
    ∃ l : List MirrorLine, s.compose h w = s.modHead h fun x => { x with mirrors := l }.lineLeft w.lat.line (s.composedOf h w) := by
  obtain ⟨l, own⟩ := State.mirrorOwn_unmirrored off h w
  have same : (s.modHead h fun x => { x with mirrors := l }).composedOf h w = s.composedOf h w := by
    unfold State.composedOf
    rw [(HeadQuiet.refl h s).modHead.rasterKept.raster, State.modHead_self]
  have sound' : Sound (s.modHead h fun x => { x with mirrors := l }) := sound
  refine ⟨l, ?_⟩
  unfold State.compose
  dsimp only
  rw [own, State.lineCheck_sound sound']
  simp only [Bool.false_and, Bool.false_eq_true, if_false, same]
  rw [State.modHead_modHead]
  rfl

/-- A pixel of a line composed: the finished slots in slot order over the latched backdrop, an occluded column and a slot without content
left out. -/
theorem composePx_eq (w : LineWork) (hact : Nat) : composePx w hact = (List.range (4 * hact)).map fun x =>
    rgbWord ((List.finRange 8).foldl (fun d (n : Slot) =>
      if w.lat.draws n.val && w.slots[n].phase == .finished && !inSpans (nth [] (w.occl.getD []) n.val) x then
        blendPx (w.lat.slot n.val) (inSpans (w.lat.certSpans n.val hact) x) (nth Px.clear w.slots[n].px x) d else d)
      (fld w.lat.backdrop 23 16, fld w.lat.backdrop 15 8, fld w.lat.backdrop 7 0)) := by
  have certs : ∀ n : Slot, nth [] ((List.range 8).map fun n => w.lat.certSpans n hact) n.val = w.lat.certSpans n.val hact := by
    intro n
    simp [nth, List.getD_eq_getElem?_getD, n.isLt]
  unfold composePx
  simp only [certs]

end

theorem objectEvaluation_completes (s : State) (h : Head) :
    let k := (s.posLine h.val + s.heads[h].lead + 1) % max 1 (s.raster h.val).vtotal
    let due := s.running h.val && s.heads[h].begun == .flow && s.heads[h].dueRender.isEmpty && decide (k < (s.raster h.val).vact) &&
      s.heads[h].evals.all fun e => e.line != k
    (due = true → Completes (.objectEvaluation h) s fun t =>
      (t.heads[h].evals.getLast?.map fun e => (e.line, decide (e.slivers.length ≤ 512))) = some (k, true) ∧
      t.heads[h].evals.length = s.heads[h].evals.length + 1 ∧ t.posLine h.val = s.posLine h.val ∧ t.dram = s.dram ∧
      (∀ g : Head, g ≠ h → t.heads[g] = s.heads[g])) ∧
    (due = false → Completes (.objectEvaluation h) s fun t => t = s) := by
  intro k due
  have here : (s.running h.val && s.heads[h].begun == .flow && s.heads[h].dueRender.isEmpty && decide (s.evalLineNo h < (s.raster h.val).vact)
      && !(s.heads[h].evals.any fun e => e.line == s.evalLineNo h)) = due := by
    rw [List.not_any_eq_all_not]
    rfl
  have run : exec (.objectEvaluation h) s = if due then .next (s.evaluate h k) else .next s := by
    change execObjectEvaluation h s = _
    unfold execObjectEvaluation
    dsimp only
    rw [show (s.evalLineNo h) = k from rfl] at here ⊢
    rw [here]
  refine ⟨fun e => ⟨_, run.trans (if_pos e), ?_⟩, fun e => ⟨_, run.trans (if_neg (by simp [e])), rfl⟩⟩
  obtain ⟨dram, x, line, short, evals⟩ := s.evaluate_evals h k
  have quiet := (HeadQuiet.refl h s).evaluate k
  have fresh : (s.heads[h].evals.filter fun x => x.line != k) = s.heads[h].evals := by
    simp only [due, Bool.and_eq_true, List.all_eq_true] at e
    exact List.filter_eq_self.2 e.2
  refine ⟨by rw [evals]; simp [line, short], by rw [evals, fresh]; simp, congrArg (fld · 23 12) (quiet.words (aHead h.val 9) (by simp only [ScratchOf, aHead]; omega) (by simp only [aHead]; omega)), dram, quiet.others⟩

/-- What a line composed leaves of its head, and that nothing else has changed. -/
theorem State.modHead_lineLeft (s : State) {h : Head} {f : HeadSt → HeadSt} {g : HeadSt → HeadSt} {k : Nat} {out : List Word}
    (e : ∀ x, f x = (g x).lineLeft k out) : let t := s.modHead h f
    t.heads[h].lastLine = some out ∧ t.heads[h].composed.getLast? = some (k, out) ∧
    (t.heads[h].lines.all fun v => v.lat.line != k) = true ∧ (∀ g : Head, g ≠ h → t.heads[g] = s.heads[g]) ∧ t = { s with heads := t.heads } := by
  intro t
  have self : t.heads[h] = (g s.heads[h]).lineLeft k out := (s.modHead_self h f).trans (e _)
  refine ⟨by rw [self]; rfl, by rw [self]; simp [HeadSt.lineLeft], ?_, fun g ne => s.modHead_other f ne, rfl⟩
  rw [self]
  simp [HeadSt.lineLeft]

/-- A slot that has finished drawing changes nothing of what a line is composed as. -/
theorem State.composedOf_drawn (s : State) (h : Head) (w : LineWork) : (s.drawn h).composedOf h w = s.composedOf h w := by
  have lastLine : (s.drawn h).heads[h].lastLine = s.heads[h].lastLine := by rw [State.drawn, State.modHead_self]
  unfold State.composedOf
  rw [s.drawn_raster h, lastLine]

theorem composeLine_completes (s : State) (h : Head) (w : LineWork) (rest : List LineWork) (oldest : (s.drawn h).heads[h].lines = w :: rest)
    (ready : w.ready = true) (off : s.repair.mirror = false) (sound : Sound s) : Completes (.composeLine h) s fun t =>
      t.heads[h].lastLine = some (s.composedOf h w) ∧ t.heads[h].composed.getLast? = some (w.lat.line, s.composedOf h w) ∧
      (t.heads[h].lines.all fun v => v.lat.line != w.lat.line) = true ∧
      (∀ g : Head, g ≠ h → t.heads[g] = s.heads[g]) ∧ t = { s with heads := t.heads } := by
  obtain ⟨l, composed⟩ := State.compose_sound (s.drawn_sound sound h) (h := h) off w
  have run : exec (.composeLine h) s = .next ((s.drawn h).compose h w) := by
    change execComposeLine h s = _
    simp only [execComposeLine, oldest, ready, if_true]
  refine ⟨_, run, ?_⟩
  rw [composed, s.composedOf_drawn]
  unfold State.drawn
  rw [State.modHead_modHead]
  exact s.modHead_lineLeft fun _ => rfl

end Sys2Proof.Machine

open Sys2Proof.Machine in
/-- Settles O44: the evaluated line is the last of the list, of at most 512 slivers, and a line composed without an unreadable word is the
model's own composition, whose pixels are those of the statement. -/
theorem lineComposition : Obligations.LineComposition := by
  intro s h
  refine ⟨objectEvaluation_completes s h, fun w rest oldest ready off sound => ?_⟩
  have done := composeLine_completes s h w rest oldest ready off sound
  unfold State.composedOf at done
  simp only [composePx_eq] at done
  exact done

end

section
/-! The engines' work on a latched line (O43). -/

namespace Sys2Proof.Machine

open Safety

/-! ### What the work of an engine leaves alone -/

/-- From s to t engines have worked for head h: beside what HeadQuiet says, the lines of h, the words found wrong, and the registers of the
DRAM service and from the paddocks on, but the channels' own, are as before. -/
structure EngineQuiet (h : Head) (s t : State) : Prop extends HeadQuiet h s t where
  lines : t.heads[h].lines = s.heads[h].lines
  repair : t.repair = s.repair
  regs : ∀ a, 0xC60000 ≤ a → a < 0xC60100 ∨ 0xC60200 ≤ a → t.rd a = s.rd a

theorem EngineQuiet.refl (h : Head) (s : State) : EngineQuiet h s s := ⟨HeadQuiet.refl h s, rfl, rfl, fun _ _ _ => rfl⟩

section
variable {h : Head} {s t : State} (q : EngineQuiet h s t)
include q

theorem EngineQuiet.congr {u : State} (ws : u.ws = t.ws := by rfl) (heads : u.heads = t.heads := by rfl) (pads : u.pads = t.pads := by rfl)
    (halt : u.stile.haltHead = t.stile.haltHead := by rfl) (repair : u.repair = t.repair := by rfl) : EngineQuiet h s u :=
  ⟨q.toHeadQuiet.congr ws heads pads halt, by rw [heads, q.lines], repair.trans q.repair,
    fun a l u => (by rw [State.rd, ws, State.rd] : _ = t.rd a).trans (q.regs a l u)⟩

theorem EngineQuiet.ite {u : State} {c : Prop} [Decidable c] (p : EngineQuiet h s u) : EngineQuiet h s (if c then u else t) := by
  split <;> assumption

/-- A step that is taken under a condition. -/
theorem EngineQuiet.when {u : State} {c : Prop} [Decidable c] (f : EngineQuiet h s t → EngineQuiet h s u) : EngineQuiet h s (if c then u else t) :=
  q.ite (f q)

/-- A register of a DRAM channel takes a value. -/
theorem EngineQuiet.chanWr (c : Chan) (off : Fin 4) (v : Word) : EngineQuiet h s (t.wr (aChan c.val off.val) v) :=
  ⟨q.toHeadQuiet.wr _ v, q.lines, q.repair, fun a l u => (State.rd_wr_ne t v (by simp only [aChan]; omega)).trans (q.regs a l u)⟩

/-- An error count of a slot takes a value. -/
theorem EngineQuiet.slotWr (n : Slot) (v : Word) : EngineQuiet h s (t.wr (aHead h.val (0x20 + n.val)) v) :=
  ⟨q.toHeadQuiet.wr _ v, q.lines, q.repair, fun a l u => (State.rd_wr_ne t v (by simp only [aHead]; omega)).trans (q.regs a l u)⟩

theorem EngineQuiet.modHead {f : HeadSt → HeadSt} (own : ∀ x, beamPart (f x) = beamPart x := by exact fun _ => rfl)
    (lines : ∀ x, (f x).lines = x.lines := by exact fun _ => rfl) : EngineQuiet h s (t.modHead h f) :=
  ⟨q.toHeadQuiet.modHead own, ((congrArg HeadSt.lines (t.modHead_self h f)).trans (lines _)).trans q.lines, q.repair, q.regs⟩

theorem EngineQuiet.raise (n : Nat) : EngineQuiet h s (t.raise n) := q.congr (by simp) (by simp) (by simp) (by simp) (by simp)

theorem EngineQuiet.raiseCause (off b n : Nat) : EngineQuiet h s (t.raiseCause off b n) :=
  q.congr (by simp) (by simp) (by simp) (by simp) (by simp)

theorem EngineQuiet.countOor (us : List Nat) : EngineQuiet h s (t.countOor us) := by
  have counted : EngineQuiet h s ((us.filter fun u => decide (t.dramCap ≤ 32 * u)).foldl
      (fun (v : State) u => v.inc (aChan (t.chanOf (32 * u)).val 1) 15 8) t) :=
    List.foldlRecOn (motive := fun v => EngineQuiet h s v) _ _ q fun _ p u _ => p.chanWr (t.chanOf (32 * u)) 1 _
  exact (counted.raise _).ite q

theorem EngineQuiet.setReads (c : Chan) (l : List DRead) : EngineQuiet h s (t.setReads c l) :=
  EngineQuiet.chanWr (t := t.modChan c _) q.congr c 2 _

theorem EngineQuiet.askUnit (d : DramUser) (u deadline line : Nat) (standIn merge : Bool) :
    EngineQuiet h s (t.askUnit d u deadline line standIn merge) := by
  have cycle : EngineQuiet h s (t.dramCycle d) := EngineQuiet.ite q.congr q.congr
  have asked := fun c l => cycle.setReads c l
  unfold State.askUnit
  dsimp only
  split
  · exact asked _ _
  · exact EngineQuiet.ite ((asked _ _).setReads _ _) (asked _ _).congr

theorem EngineQuiet.dramAsk (d : DramUser) (u deadline line : Nat) (standIn : Bool) : EngineQuiet h s (t.dramAsk d u deadline line standIn).1 := by
  unfold State.dramAsk
  split
  · exact q.countOor _
  · exact q.askUnit _ _ _ _ _ _

theorem EngineQuiet.modEng (e : Nat) (f : EngSt → EngSt) : EngineQuiet h s (t.modEng e f) := by
  unfold State.modEng
  split
  · exact q.congr
  · exact q

theorem EngineQuiet.fillCache (w : EngWork) : EngineQuiet h s (t.fillCache w).1 := by
  unfold State.fillCache
  dsimp only
  split
  · split
    · exact (q.modEng _ _).modEng _ _
    · exact q.modEng _ _
  · exact q.modEng _ _

theorem EngineQuiet.countLine (k : Nat) (f : LineCounts → LineCounts) : EngineQuiet h s (t.countLine h k f) :=
  q.modHead (fun x => by split <;> rfl) fun x => by split <;> rfl

/-- The capacity is the one it was. -/
theorem EngineQuiet.dramCap : t.dramCap = s.dramCap := by
  have zero := q.regs (aDram 0) (by simp [aDram]) (by simp [aDram])
  have one := q.regs (aDram 1) (by simp [aDram]) (by simp [aDram])
  have nch : t.nch = s.nch := by rw [State.nch, State.fget, zero, State.nch, State.fget]
  unfold State.dramCap State.bget State.fget
  rw [nch, zero, one]

/-- A pixel resolves to what it would have resolved to. -/
theorem EngineQuiet.resolve (g : Nat) (pmap : List Word) (r : RawPx) : t.resolve g pmap r = s.resolve g pmap r := by
  have pal : ∀ p i k, t.rd (aPal g p i k) = s.rd (aPal g p i k) := fun p i k => q.regs _ (by simp only [aPal]; omega) (by simp only [aPal]; omega)
  unfold State.resolve State.palette
  simp only [State.fget, pal]

theorem EngineQuiet.sound (sound : Sound s) : Sound t := by
  obtain ⟨good, flips⟩ := sound
  refine ⟨by rw [q.repair, good], fun r hr => ?_⟩
  rw [← flips r hr]
  exact congrArg (bit · 23) (q.regs _ (by simp only [aRegion]; omega) (by simp only [aRegion]; omega))

end

/-! ### What an engine asks for and draws -/

section
variable {s : State} {h : Head}

/-- Of the units asked for those below the capacity are still to come. -/
theorem EngineQuiet.askAll {t : State} (q : EngineQuiet h s t) (n : Slot) (us : List Nat) (deadline line : Nat) (standIn : Bool) :
    let r := t.askAll h n us deadline line standIn
    EngineQuiet h s r.1 ∧ r.2 = us.filter fun u => decide (32 * u < s.dramCap) := by
  have step : ∀ (us : List Nat) (a : State × List Nat), EngineQuiet h s a.1 →
      let r := us.foldl (fun (acc : State × List Nat) u =>
        let (t, more) := acc.1.dramAsk (.slot h n) u deadline line standIn
        (t, if more then acc.2 ++ [u] else acc.2)) a
      EngineQuiet h s r.1 ∧ r.2 = a.2 ++ us.filter fun u => decide (32 * u < s.dramCap) := by
    intro us
    induction us with
    | nil => exact fun a q => ⟨q, (List.append_nil a.2).symm⟩
    | cons u us ih =>
      intro a q
      have more : (a.1.dramAsk (.slot h n) u deadline line standIn).2 = decide (32 * u < s.dramCap) := by
        unfold State.dramAsk
        rw [q.dramCap]
        split <;> simp <;> omega
      obtain ⟨quiet, left⟩ := ih ((a.1.dramAsk (.slot h n) u deadline line standIn).1, if (a.1.dramAsk (.slot h n) u deadline line standIn).2 then a.2 ++ [u] else a.2)
        (q.dramAsk (.slot h n) u deadline line standIn)
      refine ⟨quiet, left.trans ?_⟩
      rw [more, List.filter_cons]
      split <;> simp
  exact step us (t, []) q

/-- Without wrong words nothing is read through its code. -/
theorem State.readBad_sound (sound : s.repair.bad = []) (p : BadWord → Bool) : s.readBad (s.badIn p) = (s, false) := by
  rw [State.badIn, sound]
  rfl

theorem State.engineCheck_sound (sound : Sound s) {e : Nat} (he : e < 66) : s.engineCheck e = (s, false) := by
  unfold State.engineCheck
  dsimp only
  rw [if_neg (by simp [sound.2 (25 + e) (by omega)])]
  exact s.readBad_sound sound.1 _

/-- A pixel of a line before it is resolved. -/
def Unresolved (l : List RawPx) : Prop := ∀ r ∈ l, r.out = none

theorem unresolved_map {α : Type} {l : List α} {f : α → RawPx} (hf : ∀ x, (f x).out = none) : Unresolved (l.map f) := by
  intro r hr
  obtain ⟨x, _, rfl⟩ := List.mem_map.1 hr
  exact hf x

theorem State.drawTiles_unresolved (l : Latched) (n : Nat) (cols : List (Nat × Nat × Nat)) (wait : List Nat) (g : Gather) :
    Unresolved (s.drawTiles l n cols wait g).2 := unresolved_map fun _ => rfl

theorem State.drawBitmap_unresolved (l : Latched) (n : Nat) (cols : List (Nat × Nat × Nat)) (wait : List Nat) (g : Gather) :
    Unresolved (s.drawBitmap l n cols wait g).2 := unresolved_map fun _ => rfl

theorem State.drawObjects_unresolved (hact : Nat) (occl : List (Nat × Nat)) (vs : List Sliver) (g : Gather) :
    Unresolved (s.drawObjects hact occl vs g).2 := by
  refine List.foldlRecOn (motive := fun a : Gather × List RawPx => Unresolved a.2) vs _ (by nofun) fun a known v _ r hr => ?_
  rcases List.mem_append.1 hr with old | new
  · exact known r old
  · exact unresolved_map (fun _ => rfl) r new

/-- No pixel that an engine gathers has been resolved. -/
theorem State.drawSlot_unresolved (w : LineWork) (n : Nat) (occl : List (Nat × Nat)) (eng : EngSt) :
    Unresolved (s.drawSlot h w n occl eng).2.1 := by
  unfold State.drawSlot
  dsimp only
  split
  · nofun
  · split
    · exact s.drawObjects_unresolved _ _ _ _
    · change Unresolved (ite _ _ _ : Gather × List RawPx).2
      split
      · exact s.drawTiles_unresolved _ _ _ _ _
      · exact s.drawBitmap_unresolved _ _ _ _ _

/-- Which units the pixels of a line waited for does not show. -/
theorem EngWork.line_congr {v w : EngWork} {l : List RawPx} {f g : RawPx → RawPx} (hv : v.raw = l.map f) (hw : w.raw = l.map g)
    (col : ∀ r ∈ l, (f r).col = (g r).col) (out : ∀ r ∈ l, (f r).out = (g r).out) (hact : Nat) : v.line hact = w.line hact := by
  have mine : ∀ x, (v.raw.filter fun r => r.col == x).filterMap (·.out) = (w.raw.filter fun r => r.col == x).filterMap (·.out) := by
    intro x
    rw [hv, hw]
    clear hv hw
    induction l with
    | nil => rfl
    | cons r l ih =>
      have rest := ih (fun r hr => col r (List.mem_cons_of_mem _ hr)) fun r hr => out r (List.mem_cons_of_mem _ hr)
      simp only [List.map_cons, List.filter_cons, col r List.mem_cons_self]
      split
      · simp only [List.filterMap_cons, out r List.mem_cons_self, rest]
      · exact rest
  have empty : v.raw.isEmpty = w.raw.isEmpty := by rw [hv, hw]; simp
  unfold EngWork.line
  simp only [mine, empty]

/-! ### An engine's line begun (R39, R99) -/

theorem State.fillCache_work (s : State) (w : EngWork) : let v := (s.fillCache w).2
    v.eng = w.eng ∧ v.units = w.units ∧ v.poisoned = w.poisoned ∧ v.raw = w.raw ∧ v.draw = w.draw := by
  unfold State.fillCache
  dsimp only
  split
  · split <;> exact ⟨rfl, rfl, rfl, rfl, rfl⟩
  · exact ⟨rfl, rfl, rfl, rfl, rfl⟩

theorem State.resolveWork_sound (sound : s.repair.bad = []) (pmap : List Word) (w : EngWork) : s.resolveWork h pmap w = (s, { w with
    raw := w.raw.map fun r => if r.units.isEmpty && r.out.isNone then { r with out := some (s.resolve h.val pmap r) } else r }) := by
  unfold State.resolveWork
  dsimp only
  rw [s.readBad_sound sound]
  simp only [Bool.or_false]

/-- Pixels that wait for nothing are resolved. -/
theorem State.resolveWork_done (sound : s.repair.bad = []) (pmap : List Word) (w : EngWork) (none : w.units = []) (fresh : Unresolved w.raw) :
    (s.resolveWork h pmap w.waiting).2.raw = w.raw.map fun r => { r with units := [], out := some (s.resolve h.val pmap r) } := by
  rw [State.resolveWork_sound sound]
  simp only [EngWork.waiting, none, List.map_map]
  refine List.map_congr_left fun r hr => ?_
  simp [fresh r hr]
  rfl

/-- An engine's work in sound memories goes on as far as its data has come: where none is to come its pixels are resolved. -/
theorem EngineQuiet.workOn {t : State} (q : EngineQuiet h s t) (sound : s.repair.bad = []) (pmap : List Word) (w : EngWork) (fresh : Unresolved w.raw) :
    let r := t.workOn h pmap w.waiting
    EngineQuiet h s r.1 ∧ r.2.units = w.units ∧ r.2.poisoned = w.poisoned ∧ r.2.draw = w.draw ∧
      (w.units = [] → r.2.raw = w.raw.map fun p => { p with units := [], out := some (s.resolve h.val pmap p) }) := by
  have good : t.repair.bad = [] := by rw [q.repair, sound]
  have done := fun none => State.resolveWork_done (h := h) good pmap w none fresh
  simp only [q.resolve] at done
  unfold State.workOn
  dsimp only
  have resolved := State.resolveWork_sound (h := h) good pmap w.waiting
  generalize t.resolveWork h pmap w.waiting = v at resolved done ⊢
  obtain ⟨_, v⟩ := v
  obtain ⟨rfl, rfl⟩ := Prod.mk.inj resolved
  obtain ⟨-, units, poisoned, raw, draw⟩ := State.fillCache_work _ _
  exact ⟨q.fillCache _, units, poisoned, draw, fun none => raw.trans (done none)⟩

/-- What slot n's engine gathers for a line: what it asks for, its pixels and the cycles of drawing. -/
def State.gathered (s : State) (h : Head) (w : LineWork) (n : Slot) (e : Nat) (standIn : Bool) : Gather × List RawPx × Nat :=
  s.drawSlot h w n.val (nth [] (w.occl.getD []) n.val) (if w.slots[n].fresh && !standIn then (s.engAtNo e).emptied else s.engAtNo e)

/-- What an engine gathers and asks for in sound memories: the units to come are those below the capacity, and a line for which none is to
come has its pixels resolved. -/
theorem State.beginWork_sound (sound : s.repair.bad = []) (w : LineWork) (n : Slot) (e : Nat) (standIn : Bool) :
    let r := s.beginWork h w n e standIn
    let got := s.gathered h w n e standIn
    EngineQuiet h s r.1 ∧ r.2.2 = got.1 ∧ r.2.1.units = (got.1.units.filter fun u => decide (32 * u < s.dramCap)) ∧ r.2.1.poisoned = false ∧
      r.2.1.draw = got.2.2 ∧ (r.2.1.units = [] →
        r.2.1.raw = got.2.1.map fun p => { p with units := [], out := some (s.resolve h.val w.lat.pmap p) }) := by
  have fresh : Unresolved (s.gathered h w n e standIn).2.1 := s.drawSlot_unresolved _ _ _ _
  revert fresh
  unfold State.beginWork State.gathered
  dsimp only
  generalize s.drawSlot h w n.val (nth [] (w.occl.getD []) n.val) (if w.slots[n].fresh && !standIn then (s.engAtNo e).emptied else s.engAtNo e) = got
  obtain ⟨g, raw, draw⟩ := got
  intro fresh
  dsimp only at fresh ⊢
  have placed := (EngineQuiet.refl h s).modEng e fun x => { x with cache := g.held.cache, mapKey := g.held.mapKey, mapRow := g.held.mapRow }
  generalize s.modEng e _ = s1 at placed ⊢
  obtain ⟨asked, left⟩ := placed.askAll n g.units (s.deadlineOf h w.lat.line) w.lat.line standIn
  generalize s1.askAll h n g.units (s.deadlineOf h w.lat.line) w.lat.line standIn = ask at asked left ⊢
  obtain ⟨quiet, units, poisoned, cycles, pixels⟩ := asked.workOn sound w.lat.pmap
    { eng := e, units := ask.2, poisoned := false, raw := raw, fills := g.fills, map := g.map, draw := draw } fresh
  exact ⟨quiet, rfl, units.trans left, poisoned, cycles, fun none => pixels (units.symm.trans none)⟩

/-- The stand-in's own copy of a line leaves the head's lines as they are. -/
theorem State.mirrorSlot_quiet (sound : Sound s) (w : LineWork) (n : Slot) (few : (w.slots[n].standIn.all fun y => decide (y < 66)) = true) :
    EngineQuiet h s (s.mirrorSlot h w n) := by
  unfold State.mirrorSlot
  split
  · exact EngineQuiet.refl h s
  · next y e =>
    rw [e] at few
    rw [State.engineCheck_sound sound (of_decide_eq_true few)]
    exact (State.beginWork_sound sound.1 w n y true).1.modHead

/-- A slot's line as an engine in sound memories leaves it that gathers `got` for it: it waits for units below the capacity, or all its pixels
are resolved. -/
def State.Asked (s : State) (h : Head) (pmap : List Word) (got : Gather × List RawPx × Nat) (x : SlotLine) : Prop :=
  (x.phase = .waiting ∧ x.work.units ≠ [] ∧ ∀ u ∈ x.work.units, u ∈ got.1.units ∧ 32 * u < s.dramCap) ∨
  (x.phase = (if got.2.2 = 0 then .finished else .drawing) ∧ (∀ u ∈ got.1.units, s.dramCap ≤ 32 * u) ∧
    x.px = EngWork.line { EngWork.idle 0 with raw := got.2.1.map fun r => { r with out := some (s.resolve h.val pmap r) } } (s.raster h.val).hact)

theorem EngineQuiet.asked {t : State} (q : EngineQuiet h s t) (pmap : List Word) (got : Gather × List RawPx × Nat) (k : Nat) (x : SlotLine)
    {w : EngWork} (units : w.units = got.1.units.filter fun u => decide (32 * u < s.dramCap)) (sane : w.poisoned = false) (draw : w.draw = got.2.2)
    (pixels : w.units = [] → w.raw = got.2.1.map fun p => { p with units := [], out := some (s.resolve h.val pmap p) }) :
    s.Asked h pmap got (t.slotAfter h k x w) := by
  unfold State.slotAfter
  by_cases none : w.units = []
  · right
    rw [if_neg (by simp [none]), if_neg (by simp [sane]), draw, q.toHeadQuiet.rasterKept.raster]
    refine ⟨rfl, fun u hu => ?_, EngWork.line_congr (g := fun r => { r with out := some (s.resolve h.val pmap r) }) (pixels none) rfl (fun _ _ => rfl) (fun _ _ => rfl) _⟩
    rw [units, List.filter_eq_nil_iff] at none
    simpa using none u hu
  · left
    rw [if_pos (by simp [none])]
    refine ⟨rfl, none, fun u hu => ?_⟩
    rw [show ({ x with phase := SlotPhase.waiting, work := w } : SlotLine).work.units = _ from units] at hu
    simpa using List.mem_filter.1 hu

/-- Slot n of the lines of number k becomes y. -/
def slotSet (k : Nat) (n : Slot) (y : SlotLine) (v : LineWork) : LineWork :=
  if v.lat.line = k then { v with slots := v.slots.set n.val y } else v

theorem slot_of_mem_slotSet {l : List LineWork} {k : Nat} {n : Slot} {y : SlotLine} {x : LineWork} (mem : x ∈ l.map (slotSet k n y))
    (here : x.lat.line = k) : x.slots[n] = y := by
  obtain ⟨v, _, rfl⟩ := List.mem_map.1 mem
  unfold slotSet at here ⊢
  split at here
  · rw [if_pos ‹_›]
    simp
  · exact absurd here ‹_›

theorem State.setSlot_lines (s : State) (h : Head) (k : Nat) (n : Slot) (y : SlotLine) :
    (s.setSlot h k n y).heads[h].lines = s.heads[h].lines.map (slotSet k n y) :=
  congrArg HeadSt.lines (s.modHead_self h _)

theorem State.drawn_length (s : State) (h : Head) : (s.drawn h).heads[h].lines.length = s.heads[h].lines.length := by
  rw [State.drawn, State.modHead_self]
  simp

/-- A slot's engine in sound memories asks for its line: that slot of the line changes, and of the other slots and lines none. -/
theorem State.fetchSlot_sound (sound : Sound s) (w : LineWork) (n : Slot) (few : w.slots[n].work.eng < 66)
    (spare : (w.slots[n].standIn.all fun y => decide (y < 66)) = true) : ∃ x : SlotLine,
    s.Asked h w.lat.pmap (s.gathered h w n w.slots[n].work.eng false) x ∧ (∀ g : Head, g ≠ h → (s.fetchSlot h w n).heads[g] = s.heads[g]) ∧
    (s.fetchSlot h w n).heads[h].lines = s.heads[h].lines.map (slotSet w.lat.line n x) := by
  obtain ⟨begun, -, units, sane, draw, pixels⟩ := State.beginWork_sound (h := h) sound.1 w n w.slots[n].work.eng false
  unfold State.fetchSlot
  dsimp only
  rw [State.engineCheck_sound sound few, if_neg (by simp)]
  generalize s.beginWork h w n w.slots[n].work.eng false = r at begun units sane draw pixels ⊢
  have left : ∀ t : State, EngineQuiet h s t → let x := t.slotAfter h w.lat.line w.slots[n] r.2.1
      let u := (t.setSlot h w.lat.line n x).mirrorSlot h w n
      ∃ x : SlotLine, s.Asked h w.lat.pmap (s.gathered h w n w.slots[n].work.eng false) x ∧ (∀ g : Head, g ≠ h → u.heads[g] = s.heads[g]) ∧
      u.heads[h].lines = s.heads[h].lines.map (slotSet w.lat.line n x) := by
    intro t q x u
    refine ⟨x, q.asked _ _ _ _ units sane draw pixels, ?_⟩
    have mirrored := State.mirrorSlot_quiet (h := h) (s := t.setSlot h w.lat.line n x) (q.sound sound) w n spare
    refine ⟨fun g ne => (mirrored.others g ne).trans ((t.modHead_other _ ne).trans (q.others g ne)), mirrored.lines.trans ?_⟩
    rw [← q.lines]
    exact t.setSlot_lines _ _ _ _
  have counted := fun f => begun.countLine w.lat.line f
  have bodies := fun f v => (counted f).slotWr n v
  exact left _ (EngineQuiet.ite (EngineQuiet.ite ((EngineQuiet.modHead (bodies _ _)).raiseCause _ _ _) (bodies _ _)) (counted _))

theorem engineLineBegin_waits (n : Slot) (w : LineWork) (next : nextLine (s.drawn h).heads[h].lines n = some w) (dark : w.occl = none)
    (whole : (s.engAtNo w.slots[n].work.eng).halted = false) : Completes (.engineLineBegin h n) s fun t =>
      (∀ x ∈ t.heads[h].lines, x.lat.line = w.lat.line → x.slots[n].phase = .begun) ∧
      t.heads[h].lines.length = s.heads[h].lines.length ∧ t.chans = s.chans ∧ (∀ g : Head, g ≠ h → t.heads[g] = s.heads[g]) ∧
      t = { s with heads := t.heads } := by
  have still : ((s.drawn h).engAtNo w.slots[n].work.eng).halted = false := whole
  have run : exec (.engineLineBegin h n) s = .next ((s.drawn h).setSlot h w.lat.line n { w.slots[n] with phase := .begun }) := by
    change execEngineLineBegin h n s = _
    simp only [execEngineLineBegin, next, still, dark, Option.isSome_none, Bool.false_eq_true, if_false]
  refine ⟨_, run, ?_⟩
  have lines := (s.drawn h).setSlot_lines h w.lat.line n { w.slots[n] with phase := .begun }
  refine ⟨fun x mem here => ?_, ?_, rfl, fun g ne => ((s.drawn h).modHead_other _ ne).trans (s.drawn_others ne), rfl⟩
  · rw [slot_of_mem_slotSet (lines ▸ mem) here]
  · exact (congrArg List.length lines).trans ((List.length_map _).trans (s.drawn_length h))

theorem engineLineBegin_fetches (n : Slot) (w : LineWork) (next : nextLine (s.drawn h).heads[h].lines n = some w) (lit : w.occl.isSome = true)
    (few : w.slots[n].work.eng < 66) (spare : (w.slots[n].standIn.all fun y => decide (y < 66)) = true)
    (whole : (s.engAtNo w.slots[n].work.eng).halted = false) (sound : Sound s) : Completes (.engineLineBegin h n) s fun t =>
      (∀ x ∈ t.heads[h].lines, x.lat.line = w.lat.line →
        (s.drawn h).Asked h w.lat.pmap ((s.drawn h).gathered h w n w.slots[n].work.eng false) x.slots[n]) ∧
      t.heads[h].lines.length = s.heads[h].lines.length ∧ ∀ g : Head, g ≠ h → t.heads[g] = s.heads[g] := by
  have still : ((s.drawn h).engAtNo w.slots[n].work.eng).halted = false := whole
  have run : exec (.engineLineBegin h n) s = .next ((s.drawn h).fetchSlot h w n) := by
    change execEngineLineBegin h n s = _
    simp only [execEngineLineBegin, next, still, lit, Bool.false_eq_true, if_false, if_true]
  obtain ⟨y, asked, others, lines⟩ := State.fetchSlot_sound (s.drawn_sound sound h) (h := h) w n few spare
  refine ⟨_, run, fun x mem here => ?_, ?_, fun g ne => (others g ne).trans (s.drawn_others ne)⟩
  · rw [slot_of_mem_slotSet (lines ▸ mem) here]
    exact asked
  · exact (congrArg List.length lines).trans ((List.length_map _).trans (s.drawn_length h))

/-! ### Occlusion (R97, R99) -/

/-- A column is occluded for a slot where the certified span of a higher one covers it. -/
theorem inSpans_occlusion (l : Latched) (hact : Nat) {n : Nat} (hn : n < 8) (c : Nat) : inSpans (nth [] (l.occlusion hact) n) c =
    (List.range 8).any fun m => decide (n < m) && inSpans (l.certSpans m hact) c := by
  simp [Latched.occlusion, nth, List.getD_eq_getElem?_getD, hn, inSpans, List.any_flatten, List.any_map, List.any_filter, Function.comp_def]

theorem occlusionDelivery_completes (w : LineWork) (oldest : (s.heads[h].lines.find? fun x => x.occl.isNone) = some w)
    (idle : ∀ n : Slot, w.slots[n].phase ≠ .begun) : Completes (.occlusionDelivery h) s fun t =>
      (∃ x ∈ t.heads[h].lines, x.lat = w.lat ∧ x.occl.isSome = true ∧ ∀ n < 8, ∀ c < 4 * (s.raster h.val).hact,
        inSpans (nth [] (x.occl.getD []) n) c = (List.range 8).any fun m => decide (n < m) && inSpans (w.lat.certSpans m (s.raster h.val).hact) c) ∧
      t = { s with heads := t.heads } := by
  let w' : LineWork := { w with occl := some (w.lat.occlusion (s.raster h.val).hact) }
  have none : ∀ (l : List Slot) (t : State), l.foldl (fun (t : State) n => if w.slots[n].phase = .begun then t.fetchSlot h w' n else t) t = t := by
    intro l t
    exact List.foldlRecOn (motive := fun u => u = t) l _ rfl fun u e n _ => (if_neg (idle n)).trans e
  have run : exec (.occlusionDelivery h) s = .next (s.modLine h w.lat.line fun _ => w') := by
    change execOcclusionDelivery h s = _
    simp only [execOcclusionDelivery, oldest]
    exact congrArg _ (none _ _)
  refine ⟨_, run, ⟨w', ?_, rfl, rfl, fun n hn c _ => inSpans_occlusion _ _ hn c⟩, rfl⟩
  rw [State.modLine, State.modHead_self]
  exact List.mem_map.2 ⟨w, List.mem_of_find?_eq_some oldest, if_pos rfl⟩

/-! ### The deadline (R100 to R103) -/

theorem State.drawn_deadlinePassed (s : State) (h : Head) (k : Nat) : (s.drawn h).deadlinePassed h k = s.deadlinePassed h k := by
  have quads : (s.drawn h).quadsTo h.val k = s.quadsTo h.val k := by
    unfold State.quadsTo
    rw [s.drawn_raster h]
    rfl
  have lead : (s.drawn h).deadlineLead h k = s.deadlineLead h k := by
    have tap : (s.drawn h).tapFor h k = s.tapFor h k := by
      unfold State.tapFor
      rw [State.drawn, State.modHead_self]
      rfl
    unfold State.deadlineLead
    rw [tap]
  unfold State.deadlinePassed
  rw [quads, lead]
  rfl

/-- A mask of slots shows each slot's bit. -/
theorem testBit_slotMask (f : Slot → Bool) (n : Slot) :
    ((List.finRange 8).map fun m : Slot => if f m = true then 2 ^ m.val else 0).sum.testBit n.val = f n := by
  have weight : ∀ m : Slot, (if f m = true then 2 ^ m.val else 0) = 2 ^ m.val * (f m).toNat := fun m => by cases f m <;> simp
  have bits : ((List.finRange 8).map fun m : Slot => if f m = true then 2 ^ m.val else 0).sum = Nat.ofBits f := by
    simp only [weight]
    simp [List.finRange, Nat.ofBits, Fin.foldr_succ]
    ring
  rw [bits]
  exact Nat.testBit_ofBits_lt f n.val n.isLt

/-- A missed line is counted, its late slots are shown, and the event is raised on the first of its frame. -/
theorem State.countMiss_spec (s : State) (h : Head) (k mask : Nat) : let t := s.countMiss h k mask
    HeadOnly h [aHead h.val 0x1F] s t ∧ t.rd (aHead h.val 0x1F) = putFld (incFld (s.rd (aHead h.val 0x1F)) 23 12) 7 0 mask ∧
    t.heads[h].lines = s.heads[h].lines ∧
    ((s.heads[h].sig.isOpen && decide (s.posLine h.val ≤ k)) = true →
      t.heads[h].sig.misses = s.heads[h].sig.misses + 1 ∧ t.heads[h].sig.flags.getLsbD 0 = true ∧
      (s.heads[h].fr.missRaised = false → EventRaised s t (8 + h.val) []) ∧ (s.heads[h].fr.missRaised = true → NoEvent s t)) := by
  have counted : HeadOnly h [aHead h.val 0x1F] s ((s.inc (aHead h.val 0x1F) 23 12).fset (aHead h.val 0x1F) 7 0 mask) :=
    ((HeadOnly.refl h _ s).wr _ (List.mem_singleton_self _)).wr _ (List.mem_singleton_self _)
  have word : ((s.inc (aHead h.val 0x1F) 23 12).fset (aHead h.val 0x1F) 7 0 mask).rd (aHead h.val 0x1F) =
      putFld (incFld (s.rd (aHead h.val 0x1F)) 23 12) 7 0 mask := by
    rw [State.fset_rd, if_pos rfl, State.inc_rd, if_pos rfl]
  have heads : ((s.inc (aHead h.val 0x1F) 23 12).fset (aHead h.val 0x1F) 7 0 mask).heads = s.heads := rfl
  have host : ((s.inc (aHead h.val 0x1F) 23 12).fset (aHead h.val 0x1F) 7 0 mask).hw = s.hw := rfl
  have sent : ((s.inc (aHead h.val 0x1F) 23 12).fset (aHead h.val 0x1F) 7 0 mask).pcie = s.pcie := rfl
  unfold State.countMiss
  dsimp only
  generalize (s.inc (aHead h.val 0x1F) 23 12).fset (aHead h.val 0x1F) 7 0 mask = s1 at counted word heads host sent ⊢
  by_cases here : (s.heads[h].sig.isOpen && decide (s.posLine h.val ≤ k)) = true
  · rw [if_pos here]
    have opened : s.heads[h].sig.isOpen = true := (Bool.and_eq_true _ _ ▸ here).1
    have own : ((s1.sigFlag h 0).modHead h fun y =>
        { y with sig := { y.sig with misses := y.sig.misses + 1 }, fr := { y.fr with missRaised := true } }).heads[h] =
        { s.heads[h] with
          sig := { s.heads[h].sig.setFlag 0 with misses := s.heads[h].sig.misses + 1 }, fr := { s.heads[h].fr with missRaised := true } } := by
      rw [State.modHead_self, State.sigFlag, State.modHead_self, heads, if_pos opened]
      rfl
    have quiet : HeadOnly h [aHead h.val 0x1F] s ((s1.sigFlag h 0).modHead h fun y =>
        { y with sig := { y.sig with misses := y.sig.misses + 1 }, fr := { y.fr with missRaised := true } }) := (counted.modHead _).modHead _
    have flag : (s.heads[h].sig.setFlag 0).flags.getLsbD 0 = true := by simp [SigAcc.setFlag]
    by_cases known : s.heads[h].fr.missRaised = true
    · rw [if_pos known]
      refine ⟨quiet, word, by rw [own], fun _ => ⟨by rw [own], by rw [own]; exact flag, fun c => ?_, fun _ => ⟨host, sent⟩⟩⟩
      rw [known] at c
      exact absurd c (by decide)
    · rw [if_neg known]
      refine ⟨quiet.raise _, ?_, ?_, fun _ => ⟨?_, ?_, fun _ => eventRaised_raise (by exact host) (by omega), fun c => absurd c known⟩⟩
      · exact (State.raise_rd _ _ _).trans word
      · rw [State.evDeadline, State.raise_heads, own]
      · rw [State.evDeadline, State.raise_heads, own]
      · rw [State.evDeadline, State.raise_heads, own]
        exact flag
  · rw [if_neg here]
    have lines : (s1.modHead h fun y => { y with missAhead := y.missAhead + 1 }).heads[h].lines = s.heads[h].lines := by
      rw [State.modHead_self, heads]
    by_cases first : s.heads[h].missAhead = 0
    · rw [if_pos first]
      exact ⟨(counted.modHead _).raise _, (State.raise_rd _ _ _).trans word, by rw [State.evDeadline, State.raise_heads, lines], fun c => absurd c here⟩
    · rw [if_neg first]
      exact ⟨counted.modHead _, word, lines, fun c => absurd c here⟩

/-- The reads of a line abandoned change but the line they are for. -/
theorem State.orphanReads_chans (s : State) (h : Head) (p : DRead → Bool) (c : Chan) : (s.orphanReads h p).chans[c].writes = s.chans[c].writes ∧
    ((s.orphanReads h p).chans[c].reads.map fun r => { r with line := 0 }) = s.chans[c].reads.map fun r => { r with line := 0 } := by
  unfold State.orphanReads
  simp only [Fin.getElem_fin, Vector.getElem_map, List.map_map, true_and]
  refine List.map_congr_left fun r _ => ?_
  simp only [Function.comp_apply]
  split
  · split <;> rfl
  · rfl

/-- The line as its deadline leaves it: the slots that have not finished are late. -/
def LineWork.overdue (w : LineWork) : LineWork :=
  { w with
    missed := true
    slots := w.slots.map fun x => if x.phase = .finished then x else { x with phase := .late, work := EngWork.idle x.work.eng, px := [] } }

theorem LineWork.overdue_slot (w : LineWork) (n : Slot) : w.overdue.slots[n] =
    if w.slots[n].phase = .finished then w.slots[n] else { w.slots[n] with phase := .late, work := EngWork.idle w.slots[n].work.eng, px := [] } := by
  simp [LineWork.overdue]

theorem LineWork.overdue_mask (w : LineWork) (n : Slot) : w.overdue.lateMask.testBit n.val = !(w.slots[n].phase == .finished) := by
  refine (?_ : _ = Nat.testBit ((List.finRange 8).map fun m : Slot => if (!(w.slots[m].phase == .finished)) = true then 2 ^ m.val else 0).sum n.val).trans
    (testBit_slotMask _ n)
  unfold LineWork.lateMask
  congr 2
  refine List.map_congr_left fun m _ => ?_
  rw [w.overdue_slot m]
  by_cases e : w.slots[m].phase = .finished
  · rw [if_pos e, if_neg (by rw [e]; decide), if_neg (by rw [e]; decide)]
  · rw [if_neg e, if_pos rfl, if_pos (by simpa using e)]

theorem lineDeadline_misses (w : LineWork) (rest : List LineWork) (oldest : (s.drawn h).heads[h].lines = w :: rest)
    (now : s.deadlinePassed h w.lat.line = true) (late : w.ready = false) : Completes (.lineDeadline h) s fun t =>
      t.fget (aHead h.val 0x1F) 23 12 = min 4095 (s.fget (aHead h.val 0x1F) 23 12 + 1) ∧
      (∀ n : Slot, t.bget (aHead h.val 0x1F) n.val = !(w.slots[n].phase == .finished)) ∧
      (t.heads[h].lines.head?.map fun x => (x.lat, x.missed)) = some (w.lat, true) ∧
      ((s.heads[h].sig.isOpen && decide (s.posLine h.val ≤ w.lat.line)) = true →
        t.heads[h].sig.misses = s.heads[h].sig.misses + 1 ∧ t.heads[h].sig.flags.getLsbD 0 = true ∧
        (s.heads[h].fr.missRaised = false → EventRaised s t (8 + h.val) []) ∧ (s.heads[h].fr.missRaised = true → NoEvent s t)) ∧
      (∀ c : Chan, t.chans[c].writes = s.chans[c].writes ∧
        (t.chans[c].reads.map fun r => { r with line := 0 }) = s.chans[c].reads.map fun r => { r with line := 0 }) ∧
      WordsKept s t [aHead h.val 0x1F] ∧
      t = { s with ws := t.ws, hw := t.hw, pcie := t.pcie, heads := t.heads, chans := t.chans } := by
  let m := (((s.drawn h).orphanReads h fun r => r.line == w.lat.line && !r.standIn).modLine h w.lat.line fun _ => w.overdue)
  have run : exec (.lineDeadline h) s = .next (m.countMiss h w.lat.line w.overdue.lateMask) := by
    change execLineDeadline h s = _
    simp only [execLineDeadline, oldest, s.drawn_deadlinePassed h, now, State.deadline, late, if_true, Bool.false_eq_true, if_false]
    rfl
  obtain ⟨only, word, lines, open_⟩ := m.countMiss_spec h w.lat.line w.overdue.lateMask
  have own : m.heads[h] = { (s.drawn h).heads[h] with lines := (w :: rest).map fun v => if v.lat.line = w.lat.line then w.overdue else v } := by
    rw [← oldest]
    exact State.modHead_self _ h _
  have kept : m.heads[h].sig = s.heads[h].sig ∧ m.heads[h].fr = s.heads[h].fr := by
    rw [own, State.drawn, State.modHead_self]
    exact ⟨rfl, rfl⟩
  rw [kept.1, kept.2] at open_
  have chans := congrArg State.chans only.only
  generalize m.countMiss h w.lat.line w.overdue.lateMask = t at run only word lines open_ chans
  refine ⟨t, run, ?_, fun n => ?_, ?_, open_, fun c => ?_, only.words, only.only.trans ?_⟩
  · exact (congrArg (fld · 23 12) word).trans ((fld_putFld_apart _ _ (by decide) (by decide)).trans (fld_incFld _ (by decide) (by decide)))
  · rw [← w.overdue_mask n]
    refine (congrArg (bit · n.val) word).trans ((bit_putFld _ _ (by decide) _).trans ?_)
    rw [if_pos (by omega), Nat.sub_zero]
  · rw [lines, own]
    simp [LineWork.overdue]
  · rw [chans]
    exact (s.drawn h).orphanReads_chans h _ c
  · rw [chans]
    rfl

theorem lineDeadline_ready (w : LineWork) (rest : List LineWork) (oldest : (s.drawn h).heads[h].lines = w :: rest) (ready : w.ready = true) :
    Completes (.lineDeadline h) s fun t => t = s.drawn h := by
  refine ⟨_, ?_, rfl⟩
  change execLineDeadline h s = _
  simp only [execLineDeadline, oldest, State.deadline, ready, if_true, ite_self]

end

end Sys2Proof.Machine

open Sys2Proof.Machine in
/-- Settles O43: a line begun in the dark waits; one begun with occlusion delivered asks for the units below the capacity and has its pixels
resolved where none is to come; delivery occludes by the certified spans of the higher slots; the deadline leaves a ready line alone and
misses any other. -/
theorem latchedLineWork : Obligations.LatchedLineWork := by
  intro s h
  refine ⟨fun n w => engineLineBegin_waits n w, fun n w next lit few spare whole sound => ?_, fun w => occlusionDelivery_completes w,
    fun w rest oldest now => ⟨fun ready => lineDeadline_ready w rest oldest ready, fun late => lineDeadline_misses w rest oldest now late⟩⟩
  have done := engineLineBegin_fetches n w next lit few spare whole sound
  simp only [State.Asked, State.gathered, Bool.not_false, Bool.and_true, s.drawn_raster h] at done
  exact done

end

section
/-! Posts and cancels through a post port (O39). -/

namespace Sys2Proof.Machine

open Safety

/-! ### Handles -/

/-- The lowest free index of a queue that is not full. -/
theorem freeIdx_spec {q : List QEntry} (room : q.length < 1024) :
    freeIdx q < 1024 ∧ (∀ x ∈ q, x.idx ≠ freeIdx q) ∧ ∀ j < freeIdx q, ∃ x ∈ q, x.idx = j := by
  cases free : (List.range 1024).find? fun i => !(q.any fun e => e.idx == i) with
  | none =>
    have all : List.range 1024 ⊆ q.map (·.idx) := fun i hi => by simpa using List.find?_eq_none.1 free i hi
    have := (List.nodup_range.subperm all).length_le
    simp only [List.length_range, List.length_map] at this
    omega
  | some i =>
    have here : freeIdx q = i := by rw [freeIdx, free]; rfl
    obtain ⟨none, small, below⟩ := List.find?_range_eq_some.1 free
    rw [here]
    exact ⟨List.mem_range.1 small, by simpa using none, by simpa using below⟩

/-- The parts of a handle as QP_STATUS shows it. -/
theorem handle_fields {h g i : Nat} (hh : h < 8) (hg : g < 256) (hi : i < 1024) : let w := wd (h * 2 ^ 18 + g * 2 ^ 10 + i)
    fld w 23 21 = 0 ∧ fld w 20 18 = h ∧ fld w 17 10 = g ∧ fld w 9 0 = i := by
  simp only [fld, nbits, wd, BitVec.toNat_ofNat, Nat.shiftRight_eq_div_pow]
  omega

theorem codeWord_fields {c : Nat} (hc : c < 8) : fld (wd (c * 2 ^ 21)) 23 21 = c ∧ fld (wd (c * 2 ^ 21)) 20 0 = 0 := by
  simp only [fld, nbits, wd, BitVec.toNat_ofNat, Nat.shiftRight_eq_div_pow]
  omega

section
variable {s t : State} {h : Head}

theorem State.postCode_lt (s : State) (h : Head) (e : QEntry) : s.postCode h e < 8 := by
  unfold State.postCode
  dsimp only
  repeat' split
  all_goals omega

/-- A head's queue is not full when it takes an entry. -/
theorem State.room_of_postCode {e : QEntry} (taken : s.postCode h e = 0) : s.heads[h].queue.length < 1024 := by
  unfold State.postCode at taken
  dsimp only at taken
  by_contra full
  rw [if_pos (show 1024 ≤ s.heads[h].queue.length by omega)] at taken
  repeat' split at taken
  all_goals omega

/-! ### The words of an entry are written -/

/-- Armed flips for the words written may take effect; nothing else changes. -/
theorem State.writeFlip_spec (s : State) {r : Nat} (hr : r < 91) (a : Nat) : let t := s.writeFlip r a
    t = { s with ws := t.ws, repair := t.repair } ∧ (∀ b, b ≠ aRegion r 3 → t.rd b = s.rd b) ∧ (NoFlips s → t.ws = s.ws) := by
  unfold State.writeFlip
  dsimp only
  split
  next armed =>
    rw [Bool.and_eq_true] at armed
    have never : ∀ {p : Prop}, NoFlips s → p := fun none => absurd (none r hr) (by rw [armed.1]; decide)
    split
    · exact ⟨rfl, fun b ne => State.rd_wr_ne _ _ ne, never⟩
    · exact ⟨rfl, fun b ne => State.rd_wr_ne _ _ ne, never⟩
  · exact ⟨rfl, fun _ _ => rfl, fun _ => rfl⟩

theorem State.writeFlips_spec (s : State) {r : Nat} (hr : r < 91) (l : List Nat) (f : Nat → Nat) : let t := l.foldl (fun (t : State) w => t.writeFlip r (f w)) s
    t = { s with ws := t.ws, repair := t.repair } ∧ (∀ b, b ≠ aRegion r 3 → t.rd b = s.rd b) ∧ (NoFlips s → t.ws = s.ws) := by
  refine List.foldlRecOn (motive := fun t : State => t = { s with ws := t.ws, repair := t.repair } ∧ (∀ b, b ≠ aRegion r 3 → t.rd b = s.rd b) ∧
    (NoFlips s → t.ws = s.ws)) l _ ⟨rfl, fun _ _ => rfl, fun _ => rfl⟩ ?_
  intro t ⟨only, words, unarmed⟩ w _
  obtain ⟨only', words', unarmed'⟩ := t.writeFlip_spec hr (f w)
  refine ⟨only'.trans (congrArg (fun u : State => { u with ws := (t.writeFlip r (f w)).ws, repair := (t.writeFlip r (f w)).repair }) only),
    fun b ne => (words' b ne).trans (words b ne), fun none => (unarmed' fun k hk => ?_).trans (unarmed none)⟩
  rw [← none k hk, State.bget, State.rd, unarmed none]
  rfl

/-! ### Posts (R43, R46) -/

/-- Whether an entry is late is as before. -/
theorem HeadQuiet.epochLate (q : HeadQuiet h s t) (lead : t.heads[h].lead = s.heads[h].lead) (posted : Bool) (e : QEntry) :
    t.epochLate h posted e = s.epochLate h posted e := by
  have pos : t.rd (aHead h.val 9) = s.rd (aHead h.val 9) := q.words _ (by simp only [ScratchOf, aHead]; omega) (by simp only [aHead]; omega)
  unfold State.epochLate State.xThisFrame State.xLine State.xBefore State.posLine State.posQuad State.fget
  rw [q.rasterKept.raster, q.rasterKept.epoch, lead, pos]

/-- An entry at the end of a head's queue, its index given. -/
def State.placed (s : State) (h : Head) (e : QEntry) : State :=
  (s.setQueue h (s.heads[h].queue ++ [e])).modHead h fun y => { y with gens := spSet (fun _ => 0) y.gens e.idx e.gen }

/-- … and its words written. -/
def State.entered (s : State) (h : Head) (e : QEntry) : State :=
  (List.range 4).foldl (fun (t : State) w => t.writeFlip 22 (queueWord h.val e.idx w)) (s.placed h e)

/-- The generation that an index takes next. -/
def State.nextGen (s : State) (h : Head) (i : Nat) : Nat := (spGet (fun _ => 0) s.heads[h].gens i + 1) % 256

theorem State.post_eq (r : Requester) {w0 w1 w2 w3 : Word} (taken : s.postCode h { idx := 0, gen := 0, w0, w1, w2, w3, req := r } = 0) :
    let i := freeIdx s.heads[h].queue
    let e : QEntry := { idx := i, gen := s.nextGen h i, w0, w1, w2, w3, req := r }
    s.post r h w0 w1 w2 w3 = ((s.entered h e).postLate h e, wd (h.val * 2 ^ 18 + s.nextGen h i * 2 ^ 10 + i)) := by
  unfold State.post
  dsimp only
  rw [if_neg (by simp [taken]), State.entered, State.placed, State.nextGen]

/-- An accepted entry takes the lowest free index, is placed at the end of the queue and is then found late or not. -/
theorem State.post_accepted (r : Requester) {w0 w1 w2 w3 : Word} (taken : s.postCode h { idx := 0, gen := 0, w0, w1, w2, w3, req := r } = 0) :
    ∃ i g, i < 1024 ∧ g < 256 ∧ (∀ x ∈ s.heads[h].queue, x.idx ≠ i) ∧ (∀ j < i, ∃ x ∈ s.heads[h].queue, x.idx = j) ∧
      s.post r h w0 w1 w2 w3 = ((s.entered h { idx := i, gen := g, w0, w1, w2, w3, req := r }).postLate h { idx := i, gen := g, w0, w1, w2, w3, req := r },
        wd (h.val * 2 ^ 18 + g * 2 ^ 10 + i)) := by
  obtain ⟨small, fresh, below⟩ := freeIdx_spec (State.room_of_postCode taken)
  exact ⟨_, _, small, Nat.mod_lt _ (by decide), fresh, below, State.post_eq r taken⟩

theorem State.post_refused (r : Requester) {w0 w1 w2 w3 : Word} {code : Nat} (is : s.postCode h { idx := 0, gen := 0, w0, w1, w2, w3, req := r } = code)
    (refused : code ≠ 0) : s.post r h w0 w1 w2 w3 = ((if code = 1 then s.evHead h.val 1 else s), wd (code * 2 ^ 21)) := by
  subst is
  unfold State.post
  dsimp only
  rw [if_pos refused]

/-- What an entry placed leaves of its head, and of the rest. -/
structure Entered (h : Head) (e : QEntry) (s t : State) : Prop extends HeadQuiet h s t where
  queue : t.heads[h].queue = s.heads[h].queue ++ [e]
  lead : t.heads[h].lead = s.heads[h].lead
  count : t.fget (aHead h.val 0x0C) 10 0 = (s.heads[h].queue.length + 1) % 2048
  counters : t.rd (aHead h.val 0x0D) = s.rd (aHead h.val 0x0D)
  unarmed : NoFlips s → WordsKept s t [aHead h.val 0x0C]
  only : t = { s with ws := t.ws, heads := t.heads, repair := t.repair }

theorem State.entered_spec (s : State) (h : Head) (e : QEntry) : Entered h e s (s.entered h e) := by
  obtain ⟨only, words, unarmed⟩ := (s.placed h e).writeFlips_spec (r := 22) (by decide) (List.range 4) (queueWord h.val e.idx)
  have quiet : HeadQuiet h s (s.entered h e) := HeadQuiet.foldl ((HeadQuiet.refl h s).setQueue _).modHead fun _ _ _ q => q.writeFlip _ _
  rw [State.entered] at quiet ⊢
  generalize (List.range 4).foldl (fun (t : State) w => t.writeFlip 22 (queueWord h.val e.idx w)) (s.placed h e) = t at only words unarmed quiet ⊢
  have heads : t.heads = (s.placed h e).heads := (congrArg State.heads only :)
  have own : (s.placed h e).heads[h] = { s.heads[h] with
      queue := s.heads[h].queue ++ [e], gens := spSet (fun _ => 0) s.heads[h].gens e.idx e.gen } := by
    rw [State.placed, State.modHead_self, State.setQueue_self]
  have apart : ∀ b, b ≠ aHead h.val 0x0C → (s.placed h e).rd b = s.rd b := fun b ne => State.rd_wr_ne _ _ ne
  have region : ∀ off < 64, aHead h.val off ≠ aRegion 22 3 := fun off lt => by simp only [aHead, aRegion]; omega
  refine ⟨quiet, by rw [heads, own], by rw [heads, own], ?_,
    (words _ (region _ (by decide))).trans (apart _ (by simp only [aHead]; omega)), fun none a ha => ?_, ?_⟩
  · refine (congrArg (fld · 10 0) (words _ (region _ (by decide)))).trans ((s.setQueue_count h _).trans ?_)
    rw [List.length_append]
    rfl
  · have flips : NoFlips (s.placed h e) := fun r hr =>
      (congrArg (bit · 23) (apart _ (by simp only [aHead, aRegion]; omega))).trans (none r hr)
    exact (congrArg (spGet wsReset · a) (unarmed flips)).trans (apart a (by simpa using ha))
  · rw [heads]
    exact only

theorem State.lateOne_noEvent (s : State) (h : Head) (e : QEntry) : NoEvent s (s.lateOne h e) := by
  unfold State.lateOne
  dsimp only
  repeat' split
  all_goals exact ⟨rfl, rfl⟩

/-- A late entry counts in LATE. -/
theorem State.lateOne_counts (s : State) (h : Head) (e : QEntry) :
    (s.lateOne h e).fget (aHead h.val 0x0D) 23 16 = min 255 (s.fget (aHead h.val 0x0D) 23 16 + 1) := by
  have counted : (s.inc (aHead h.val 0x0D) 23 16).fget (aHead h.val 0x0D) 23 16 = min 255 (s.fget (aHead h.val 0x0D) 23 16 + 1) := by
    rw [State.fget, State.inc_rd, if_pos rfl]
    exact fld_incFld _ (by decide) (by decide)
  rw [← counted]
  unfold State.lateOne
  dsimp only
  repeat' split
  · rfl
  · rfl
  · exact congrArg (fld · 23 16) (State.dropEntry_rd_ne _ _ _ (by simp only [aHead]; omega))

/-- What becomes of an entry placed, late or not. -/
theorem Entered.postLate {e : QEntry} (p : Entered h e s t) (fresh : ∀ x ∈ s.heads[h].queue, x.idx ≠ e.idx) :
    let late := s.running h.val && s.epochLate h true e
    let u := t.postLate h e
    (late = false → u.heads[h].queue = s.heads[h].queue ++ [e] ∧ u.fget (aHead h.val 0x0C) 10 0 = (s.heads[h].queue.length + 1) % 2048 ∧
      NoEvent s u ∧ (NoFlips s → WordsKept s u [aHead h.val 0x0C])) ∧
    (late = true → u.fget (aHead h.val 0x0D) 23 16 = min 255 (s.fget (aHead h.val 0x0D) 23 16 + 1) ∧
      EventRaised s u (24 + h.val) [0x0B8, 0x0BC] ∧
      u.heads[h].queue = (if e.lateBit then s.heads[h].queue ++ [e] else s.heads[h].queue.filter fun x => x.idx ≠ e.idx)) ∧
    u.ports = s.ports ∧ u.dram = s.dram ∧ u.fuses = s.fuses ∧ (∀ g : Head, g ≠ h → u.heads[g] = s.heads[g]) := by
  intro late u
  have same : u = if late then t.lateAll h [e] else t := by
    change (if t.running h.val && t.epochLate h true e then _ else _) = _
    rw [p.running, p.toHeadQuiet.epochLate p.lead]
  have host : NoEvent s t := by rw [p.only]; exact ⟨rfl, rfl⟩
  have rest : t.ports = s.ports ∧ t.dram = s.dram ∧ t.fuses = s.fuses := by rw [p.only]; exact ⟨rfl, rfl, rfl⟩
  obtain ⟨ports, dram, fuses⟩ := rest
  cases is : late with
  | false =>
    rw [is, if_neg (by decide)] at same
    rw [same]
    exact ⟨fun _ => ⟨p.queue, p.count, host, p.unarmed⟩, nofun, ports, dram, fuses, p.others⟩
  | true =>
    rw [is, if_pos rfl] at same
    have only : HeadOnly h (queueWords h) t (t.lateAll h [e]) := (HeadOnly.refl h _ t).lateAll [e] (List.Subset.refl _)
    have epoch : e.fmode = 1 := by
      have := (Bool.and_eq_true _ _ ▸ is : _ ∧ _).2
      unfold State.epochLate at this
      simp only [Bool.and_eq_true, beq_iff_eq] at this
      exact this.1
    rw [same]
    refine ⟨nofun, fun _ => ⟨?_, ?_, ?_⟩, ?_, only.dram.trans dram, only.fuses.trans fuses, fun g ne => (only.others g ne).trans (p.others g ne)⟩
    · refine (congrArg (fld · 23 16) (evHead_rd _ _ _ _)).trans ((t.lateOne_counts h e).trans ?_)
      rw [State.fget, p.counters, State.fget]
    · exact eventRaised_evHead ((t.lateOne_noEvent h e).1.trans host.1) h 1
    · rw [State.lateAll_heads]
      refine (t.lateOne_queue h e).trans ?_
      rw [p.queue]
      have keep : (s.heads[h].queue.filter fun x => x.idx != e.idx) = s.heads[h].queue :=
        List.filter_eq_self.2 fun x hx => by simpa using fresh x hx
      have keep' : (s.heads[h].queue.filter fun x => decide (x.idx ≠ e.idx)) = s.heads[h].queue :=
        List.filter_eq_self.2 fun x hx => by simpa using fresh x hx
      by_cases stays : e.lateBit = true
      · rw [if_pos (.inl stays), if_pos stays]
      · rw [if_neg (by simp [stays, epoch]), if_neg stays, List.filter_append, keep, keep']
        simp
    · exact (congrArg State.ports only.only).trans ports

/-! ### The post ports -/

theorem State.postPortPut_post {r : Requester} {i : Fin 3} (port : portOf r = some i) (v : Word) : let p := s.ports[i]
    let u := s.post r p.hd p.w0 p.w1 p.w2 v
    s.postPortPut r 4 v = { u.1 with ports := vmod u.1.ports i fun q => { q with w3 := v, status := u.2 } } := by
  unfold State.postPortPut
  rw [port]
  rfl

theorem State.postPortPut_cancel {r : Requester} {i : Fin 3} (port : portOf r = some i) (v : Word) :
    let u := s.cancel r s.ports[i].hd v
    s.postPortPut r 6 v = { u.1 with ports := vmod u.1.ports i fun q => { q with status := u.2 } } := by
  unfold State.postPortPut
  rw [port]
  rfl

/-- A post through a port leaves the port as it was but its words W3 and QP_STATUS. -/
theorem State.postPortPut_port {u : State} (same : u.ports = s.ports) (i : Fin 3) (v st : Word) :
    let t : State := { u with ports := vmod u.ports i fun q => { q with w3 := v, status := st } }
    t.ports[i] = { s.ports[i] with w3 := v, status := st } ∧ ∀ j : Fin 3, j ≠ i → t.ports[j] = s.ports[j] := by
  rw [← same]
  exact ⟨getElem_vmod_same _ _ _, fun j ne => getElem_vmod_ne _ _ ne⟩

theorem qpPost_completes (s : State) (r : Requester) (i : Fin 3) (v : Word) (port : portOf r = some i) :
      let p := s.ports[i]
      let h : Head := p.hd
      let e0 : QEntry := { idx := 0, gen := 0, w0 := p.w0, w1 := p.w1, w2 := p.w2, w3 := v, req := r }
      let q := s.heads[h].queue
      let code := s.postCode h e0
      Completes (.qpPost r v) s fun t =>
        fld t.ports[i].status 23 21 = code ∧ t.ports[i].w3 = v ∧ t.ports[i].head = p.head ∧
        (∀ j : Fin 3, j ≠ i → t.ports[j] = s.ports[j]) ∧
        (code ≠ 0 → t.heads = s.heads ∧ t.ws = s.ws ∧ fld t.ports[i].status 20 0 = 0 ∧
          (code = 1 → EventRaised s t (24 + h.val) [0x0B8, 0x0BC]) ∧ (code ≠ 1 → NoEvent s t)) ∧
        (code = 0 →
          let e : QEntry := { e0 with idx := fld t.ports[i].status 9 0, gen := fld t.ports[i].status 17 10 }
          fld t.ports[i].status 20 18 = h.val ∧ (∀ x ∈ q, x.idx ≠ e.idx) ∧
          (∀ j < e.idx, ∃ x ∈ q, x.idx = j) ∧
          ((s.running h.val && s.epochLate h true e) = false →
            t.heads[h].queue = q ++ [e] ∧ t.fget (aHead h.val 0x0C) 10 0 = (q.length + 1) % 2048 ∧ NoEvent s t ∧
            (NoFlips s → WordsKept s t [aHead h.val 0x0C])) ∧
          ((s.running h.val && s.epochLate h true e) = true →
            t.fget (aHead h.val 0x0D) 23 16 = min 255 (s.fget (aHead h.val 0x0D) 23 16 + 1) ∧
            EventRaised s t (24 + h.val) [0x0B8, 0x0BC] ∧
            t.heads[h].queue = (if e.lateBit then q ++ [e] else q.filter fun x => x.idx ≠ e.idx))) ∧
        (∀ g : Head, g ≠ h → t.heads[g] = s.heads[g]) ∧ t.dram = s.dram ∧ t.fuses = s.fuses := by
  intro p h e0 q code
  refine ⟨_, congrArg Host.Outcome.next (State.postPortPut_post port v), ?_⟩
  by_cases refused : code ≠ 0
  · rw [State.post_refused (code := code) r rfl refused]
    obtain ⟨shown, rest⟩ := codeWord_fields (s.postCode_lt h e0)
    have kept : (if code = 1 then s.evHead h.val 1 else s).ports = s.ports ∧ (if code = 1 then s.evHead h.val 1 else s).heads = s.heads ∧
        (if code = 1 then s.evHead h.val 1 else s).ws = s.ws ∧ (if code = 1 then s.evHead h.val 1 else s).dram = s.dram ∧
        (if code = 1 then s.evHead h.val 1 else s).fuses = s.fuses := by
      split <;> simp [State.evHead]
    obtain ⟨ports, heads, ws, dram, fuses⟩ := kept
    obtain ⟨own, other⟩ := State.postPortPut_port ports i v (wd (code * 2 ^ 21))
    refine ⟨by rw [own]; exact shown, by rw [own], by rw [own], other, fun _ => ⟨heads, ws, by rw [own]; exact rest, fun one => ?_, fun one => ?_⟩,
      fun none => absurd none refused, fun g _ => by rw [heads], dram, fuses⟩
    · rw [if_pos one]
      exact eventRaised_evHead (u := s) rfl h 1
    · rw [if_neg one]
      exact ⟨rfl, rfl⟩
  · have taken : code = 0 := not_not.1 refused
    obtain ⟨n, g, small, few, fresh, below, placed⟩ := State.post_accepted r taken
    have entered := s.entered_spec h { e0 with idx := n, gen := g }
    obtain ⟨shown, head, gen, idx⟩ := handle_fields h.isLt few small
    obtain ⟨early, late, ports, dram, fuses, others⟩ := entered.postLate fresh
    rw [placed]
    obtain ⟨own, other⟩ := State.postPortPut_port ports i v (wd (h.val * 2 ^ 18 + g * 2 ^ 10 + n))
    generalize (s.entered h { e0 with idx := n, gen := g }).postLate h { e0 with idx := n, gen := g } = u
      at early late ports dram fuses others own other ⊢
    clear_value code
    subst taken
    refine ⟨by rw [own]; exact shown, by rw [own], by rw [own], other, fun c => absurd c refused, fun _ => ?_, others, dram, fuses⟩
    rw [own]
    dsimp only
    rw [idx, gen]
    exact ⟨head, fresh, below, early, late⟩

/-- The code of a cancel. -/
def State.cancelCode (s : State) (r : Requester) (h : Head) (v : Word) : Nat :=
  match if fld v 20 18 = h.val then s.heads[h].queue.find? fun e => e.idx == fld v 9 0 && e.gen == fld v 17 10 else none with
  | none => 7
  | some e => if s.actionRight h.val { e with req := r } then 6 else 5

theorem State.cancel_eq (s : State) (r : Requester) (h : Head) (v : Word) : let code := s.cancelCode r h v
    s.cancel r h v = (if code = 6 then s.dropEntry h (fld v 9 0) else s, wd (code * 2 ^ 21)) := by
  unfold State.cancel State.cancelCode
  cases found : s.heads[h].queue.find? fun e => e.idx == fld v 9 0 && e.gen == fld v 17 10 with
  | none => simp
  | some e =>
    have idx : e.idx = fld v 9 0 := by
      have both := List.find?_some found
      simp only [Bool.and_eq_true, beq_iff_eq] at both
      exact both.1
    by_cases here : fld v 20 18 = h.val
    · by_cases right : s.actionRight h.val { e with req := r } = true
      · rw [← idx]
        simp [here, right]
      · simp [here, right]
    · simp [here]

/-- QCOUNT counts what a dropped entry leaves. -/
theorem State.dropEntry_count (s : State) (h : Head) (i : Nat) :
    (s.dropEntry h i).fget (aHead h.val 0x0C) 10 0 = (s.dropEntry h i).heads[h].queue.length % 2048 := by
  rw [State.dropEntry_queue]
  exact s.setQueue_count h _

theorem qpCancel_completes (s : State) (r : Requester) (i : Fin 3) (v : Word) (port : portOf r = some i) :
      let h : Head := s.ports[i].hd
      let code := s.cancelCode r h v
      Completes (.qpCancel r v) s fun t =>
        t.ports[i] = { s.ports[i] with status := wd (code * 2 ^ 21) } ∧ (∀ j : Fin 3, j ≠ i → t.ports[j] = s.ports[j]) ∧
        (code ≠ 6 → t.heads = s.heads ∧ t.ws = s.ws) ∧
        (code = 6 → t.heads[h].queue = (s.heads[h].queue.filter fun e => e.idx ≠ fld v 9 0) ∧
          t.fget (aHead h.val 0x0C) 10 0 = t.heads[h].queue.length % 2048) ∧
        (∀ g : Head, g ≠ h → t.heads[g] = s.heads[g]) ∧ WordsKept s t [aHead h.val 0x0C] ∧
        t = { s with ws := t.ws, heads := t.heads, ports := t.ports } := by
  intro h code
  refine ⟨_, congrArg Host.Outcome.next (State.postPortPut_cancel port v), ?_⟩
  rw [State.cancel_eq]
  change _ ∧ _
  dsimp only
  by_cases gone : code = 6
  · rw [if_pos gone]
    have only : HeadOnly h [aHead h.val 0x0C] s (s.dropEntry h (fld v 9 0)) := (HeadOnly.refl h _ s).dropEntry _ (List.mem_singleton_self _)
    refine ⟨getElem_vmod_same _ _ _, fun j ne => getElem_vmod_ne _ _ ne, fun ne => absurd gone ne, fun _ => ⟨?_, s.dropEntry_count h _⟩, only.others,
      only.words, rfl⟩
    refine (s.dropEntry_queue h _).trans (List.filter_congr fun x _ => ?_)
    rw [bne, decide_not, beq_eq_decide]
  · rw [if_neg gone]
    exact ⟨getElem_vmod_same _ _ _, fun j ne => getElem_vmod_ne _ _ ne, fun _ => ⟨rfl, rfl⟩, fun e => absurd e gone, fun _ _ => rfl, fun _ _ => rfl, rfl⟩

end

end Sys2Proof.Machine

open Sys2Proof.Machine in
/-- Settles O39: the statement's code is the model's own for posts and for cancels; an entry accepted is placed at the queue's end, its words
written, and then found late or not. -/
theorem queueCommands : Obligations.QueueCommands := by
  exact ⟨qpPost_completes, qpCancel_completes⟩

end

section
/-! What of a head's state, of its raster's registers and of memory stays through the work of a frame boundary, and the frame's epoch and
record (O36). -/

namespace Sys2Proof.Machine

open Safety

/-! ### A part of a head's state and its raster's registers -/

/-- The registers of a head's raster, position and epoch. -/
abbrev beamWords : List Nat := List.range 0x0C

/-- From s to t the part p of head h's state, its registers W, DRAM and the fuses are as before. -/
structure BeamKept {α : Type} (W : List Nat) (p : HeadSt → α) (h : Head) (s t : State) : Prop where
  part : p t.heads[h] = p s.heads[h]
  words : ∀ off ∈ W, t.rd (aHead h.val off) = s.rd (aHead h.val off)
  dram : t.dram = s.dram
  fuses : t.fuses = s.fuses

theorem BeamKept.refl {α : Type} {W : List Nat} (p : HeadSt → α) (h : Head) (s : State) : BeamKept W p h s s := ⟨rfl, fun _ _ => rfl, rfl, rfl⟩

section
variable {α : Type} {W : List Nat} {p : HeadSt → α} {h : Head} {s t : State} (q : BeamKept W p h s t)
include q

theorem BeamKept.trans {u : State} (r : BeamKept W p h t u) : BeamKept W p h s u :=
  ⟨r.part.trans q.part, fun off lt => (r.words off lt).trans (q.words off lt), r.dram.trans q.dram, r.fuses.trans q.fuses⟩

/-- A change of other state. -/
theorem BeamKept.congr {u : State} (ws : u.ws = t.ws := by rfl) (heads : u.heads = t.heads := by rfl) (dram : u.dram = t.dram := by rfl)
    (fuses : u.fuses = t.fuses := by rfl) : BeamKept W p h s u :=
  ⟨(congrArg (fun v : Vector HeadSt 8 => p v[h]) heads).trans q.part, fun off lt => (by rw [State.rd, ws, State.rd] : _ = t.rd _).trans (q.words off lt),
    dram.trans q.dram, fuses.trans q.fuses⟩

theorem BeamKept.kept {u : State} (r : HeadsKept t u)
    (small : ∀ off ∈ W, off < 64 := by simp only [List.mem_range, List.mem_cons, List.not_mem_nil, or_false]; omega) : BeamKept W p h s u :=
  ⟨(congrArg (fun v : Vector HeadSt 8 => p v[h]) r.heads).trans q.part,
    fun off lt => (r.regs _ (by simp only [aHead]; omega) (by have := small off lt; simp only [aHead]; omega)).trans (q.words off lt), r.dram.trans q.dram, r.fuses.trans q.fuses⟩

theorem BeamKept.only {A : List Nat} {u : State} (r : HeadOnly h A t u) (apart : ∀ off ∈ W, aHead h.val off ∉ A)
    (part : p u.heads[h] = p t.heads[h]) : BeamKept W p h s u :=
  ⟨part.trans q.part, fun off lt => (r.words _ (apart off lt)).trans (q.words off lt), r.dram.trans q.dram, r.fuses.trans q.fuses⟩

theorem BeamKept.modHead {f : HeadSt → HeadSt} (hf : ∀ x, p (f x) = p x := by exact fun _ => rfl) : BeamKept W p h s (t.modHead h f) :=
  ⟨((congrArg p (t.modHead_self h f)).trans (hf _)).trans q.part, q.words, q.dram, q.fuses⟩

theorem BeamKept.wr (a : Nat) (v : Word) (apart : ∀ off ∈ W, aHead h.val off ≠ a := by
    simp only [List.mem_range, List.mem_cons, List.not_mem_nil, or_false, aHead, aObj, aRot]; omega) :
    BeamKept W p h s (t.wr a v) :=
  ⟨q.part, fun off lt => (State.rd_wr_ne t v (apart off lt)).trans (q.words off lt), q.dram, q.fuses⟩

theorem BeamKept.raise (n : Nat) : BeamKept W p h s (t.raise n) := q.congr (by simp) (by simp) (by simp) (by simp)

theorem BeamKept.raiseCause (off b n : Nat) : BeamKept W p h s (t.raiseCause off b n) := q.congr (by simp) (by simp) (by simp) (by simp)

theorem BeamKept.ite {u : State} {c : Prop} [Decidable c] (r : BeamKept W p h s u) : BeamKept W p h s (if c then u else t) := by
  split <;> assumption

/-- A step that is taken under a condition. -/
theorem BeamKept.when {u : State} {c : Prop} [Decidable c] (f : BeamKept W p h s t → BeamKept W p h s u) : BeamKept W p h s (if c then u else t) := q.ite (f q)

theorem BeamKept.beamStrobe (b : Nat) (hp : ∀ x v, p { x with strobed := v } = p x := by exact fun _ _ => rfl) : BeamKept W p h s (t.beamStrobe h b) := by
  obtain ⟨whole, -, own, -⟩ := t.beamStrobe_only h b
  generalize t.beamStrobe h b = u at whole own
  refine ⟨(congrArg p own).trans ((hp _ _).trans q.part), ?_, ?_, ?_⟩ <;> rw [whole]
  · exact q.words
  · exact q.dram
  · exact q.fuses

/-- Entries found late concern the queue. -/
theorem BeamKept.lateAll (es : List QEntry) (hp : ∀ x, p (unqueued x) = p x := by exact fun _ => rfl)
    (apart : ∀ off ∈ W, aHead h.val off ∉ queueWords h := by
      simp only [List.mem_range, List.mem_cons, List.not_mem_nil, or_false, aHead, queueWords]; omega) : BeamKept W p h s (t.lateAll h es) := by
  refine q.only ((HeadOnly.refl h (queueWords h) t).lateAll es (List.Subset.refl _)) apart ?_
  exact (hp _).symm.trans ((congrArg p (t.lateAll_unqueued h es)).trans (hp _))

theorem BeamKept.modEng (e : Nat) (f : EngSt → EngSt) : BeamKept W p h s (t.modEng e f) := by
  unfold State.modEng
  split
  · exact q.congr
  · exact q

end

/-! ### What follows for other state at a frame boundary -/

section
variable {s t : State} (q : HeadsKept s t)
include q

theorem HeadsKept.foldTrack : HeadsKept s t.foldTrack := by
  unfold State.foldTrack
  extract_lets fold s1 v was s2
  have unlocked : HeadsKept s s1 := q.ite (HeadsKept.wr (HeadsKept.congr q) _ (by simp only [aFold]; omega))
  have valid : HeadsKept s s2 := unlocked.wr _ (by simp only [aFold]; omega)
  exact valid.when fun r => (r.wr (a := aFold 6) _ (by simp only [aFold]; omega)).raise _

theorem HeadsKept.linkSend (g : Link) (m : Packet) : HeadsKept s (t.linkSend g m) :=
  q.when fun r => (r.congr (u := t.modLink g _)).when fun r => r.congr

theorem HeadsKept.sendEpoch (but : Option Link) (e at48 : BitVec 48) : HeadsKept s (t.sendEpoch but e at48) :=
  q.foldl fun _ _ r => r.when fun r => r.linkSend _ _

theorem HeadsKept.epochSource (h : Head) (e : BitVec 48) : HeadsKept s (t.epochSource h e) := by
  unfold State.epochSource
  split
  · exact q
  · split
    · exact q.raise _
    · dsimp only
      split
      · exact q.congr
      · exact (HeadsKept.foldTrack (HeadsKept.congr q)).sendEpoch _ _ _

theorem HeadsKept.classBytes (h : Head) : HeadsKept s (t.classBytes h) := by
  have counted : HeadsKept s ((List.finRange 4).foldl (fun (u : State) i => u.wr (aDram (8 + i.val)) (wd (min 0xFFFFFF (t.clsBytes[i] / 1024)))) t) :=
    q.foldl fun _ i r => r.wr _ (by simp only [aDram]; omega)
  exact q.ite counted.congr

theorem HeadsKept.traceFrame (n : Nat) : HeadsKept s (t.traceFrame n) :=
  q.when fun r => HeadsKept.ite (HeadsKept.ite (HeadsKept.congr (u := t.traceLose) r) r.congr) r

theorem HeadsKept.mirrorBegin (h : Head) : HeadsKept s (t.mirrorBegin h) := by
  have emptied : HeadsKept s (t.modEng (t.mirrorEng h (Fin.ofNat 8 t.repair.rotSlot)) EngSt.emptied) := by
    unfold State.modEng
    split
    · exact q.congr
    · exact q
  exact emptied.congr

end

/-! ### The frame boundary (R32, R113) -/

/-- What of a head's state its raster, its epoch and its open record say. -/
def framePart (x : HeadSt) : (HeadPhase × Vector Word 9 × BitVec 48) × Begun × Bool × Word := (rasterPart x, x.begun, x.sig.isOpen, x.sig.frame)

section
variable {α : Type} {W : List Nat} {p : HeadSt → α} {h : Head} {s t : State}

theorem BeamKept.raster {t : State} (q : BeamKept beamWords p h s t) (hp : ∀ x y, p x = p y → rasterPart x = rasterPart y) : RasterKept h s t :=
  ⟨hp _ _ q.part, fun off lt _ _ => q.words off (List.mem_range.2 lt), congrArg (bit · 23) (q.words 1 (by decide))⟩

theorem BeamKept.rotTake (q : BeamKept beamWords framePart h s t) (e : Nat) : BeamKept beamWords framePart h s (t.rotTake h e) := by
  unfold State.rotTake
  extract_lets n f s1
  have taken : BeamKept beamWords framePart h s s1 := (q.wr _ _).modHead
  exact taken.congr

theorem BeamKept.rotBoundary (q : BeamKept beamWords framePart h s t) : BeamKept beamWords framePart h s (t.rotBoundary h) := by
  have test : ∀ {u : State} (e : Nat), BeamKept beamWords framePart h s u →
      BeamKept beamWords framePart h s (({ u with repair := { u.repair with testing := some e } } : State).fset (aRot 1) 23 21 3) := fun e r => r.congr.wr _ _
  have mirrors := q.kept ((HeadsKept.refl t).mirrorBegin h)
  unfold State.rotBoundary
  dsimp only
  split
  · exact q
  · split
    · exact mirrors.ite (test _ (q.rotTake _))
    · exact (test _ (q.rotTake _)).ite (test _ (q.rotTake _))
    · exact mirrors.ite ((q.rotTake _).wr _ _)
    · exact q

theorem BeamKept.tapBoundary (q : BeamKept beamWords framePart h s t) : BeamKept beamWords framePart h s (t.tapBoundary h) := by
  unfold State.tapBoundary
  dsimp only
  split
  · exact ((q.modHead.modHead).wr _ _).wr _ _
  · exact q.modHead

/-- A head that follows no reference tracks no lock. -/
theorem State.lockTrack_free (free : t.syncMode h.val = 0) : t.lockTrack h = t.modHead h fun x => { x with lockGood := 0 } := by
  have none : t.lockError h = none := by
    unfold State.lockError
    rw [free]
    rfl
  unfold State.lockTrack
  rw [none]

/-- An epoch set is the epoch. -/
theorem State.setEpoch_epoch (s : State) (h : Head) (e : BitVec 48) (runs : s.heads[h].phase ≠ .stopping) : (s.setEpoch h.val e).epoch h.val = e := by
  have high : (s.setEpoch h.val e).rd (aHead h.val 0x0B) = (e >>> 24).setWidth 24 := State.rd_wr_same _ _ _
  have low : (s.setEpoch h.val e).rd (aHead h.val 0x0A) = e.setWidth 24 :=
    (State.rd_wr_ne _ _ (by simp only [aHead]; omega)).trans (State.rd_wr_same _ _ _)
  have moving : (s.setEpoch h.val e).heads[Fin.ofNat 8 h.val].phase ≠ .stopping := by
    rw [getElem_ofNat_val]
    exact runs
  unfold State.epoch
  dsimp only
  rw [if_neg moving, high, low]
  apply BitVec.eq_of_getLsbD_eq
  intro i hi
  rw [BitVec.getLsbD_append]
  split
  · simp [*]
  · have high : i - 24 < 24 := by omega
    have here : 24 + (i - 24) = i := by omega
    simp [BitVec.getLsbD_ushiftRight, high, here]

/-- The epoch of a frame that begins, on a head that takes none from elsewhere. -/
theorem State.epochBegin_spec (free : s.syncMode h.val = 0) (runs : s.heads[h].phase ≠ .stopping) :
    (s.epochBegin h).epoch h.val = (if s.heads[h].begun = .start then s.epoch h.val else s.epoch h.val + 1) ∧ (s.epochBegin h).syncMode h.val = 0 := by
  have none : s.epochTaken h = none := by
    unfold State.epochTaken
    dsimp only
    rw [free]
    rfl
  unfold State.epochBegin
  rw [none]
  dsimp only
  split
  · exact ⟨rfl, free⟩
  · refine ⟨s.setEpoch_epoch h _ runs, ?_⟩
    have word : (s.setEpoch h.val (s.epoch h.val + 1)).rd (aHead h.val 0) = s.rd (aHead h.val 0) :=
      (State.rd_wr_ne _ _ (by simp only [aHead]; omega)).trans (State.rd_wr_ne _ _ (by simp only [aHead]; omega))
    rw [← free, State.syncMode, State.setup, word]
    rfl

/-- The frame that has begun, its record open. -/
def State.frameOpened (s1 : State) (h : Head) (f : HeadSt → HeadSt) (start : Bool) : State :=
  let s2 := (s1.endFrame h).modHead h f
  (s2.beginFrame h).openRecord h (!s2.hostMode 4 h.val) start

theorem BeamKept.beginFrame (q : BeamKept W p h s t) : BeamKept W p h s (t.beginFrame h) := q.ite q.congr

theorem State.frameOpened_spec (s1 : State) (h : Head) {f : HeadSt → HeadSt} (start : Bool) (keeps : ∀ x, rasterPart (f x) = rasterPart x)
    (flows : ∀ x, (f x).begun = .flow) : let t := s1.frameOpened h f start
    BeamKept beamWords rasterPart h s1 t ∧ t.heads[h].begun = .flow ∧ t.heads[h].sig.isOpen = true ∧ t.heads[h].sig.frame = (t.epoch h.val).setWidth 24 := by
  intro t
  have ended : BeamKept beamWords rasterPart h s1 (s1.endFrame h) := BeamKept.modHead ((BeamKept.refl rasterPart h s1).congr)
  have next : BeamKept beamWords rasterPart h s1 (((s1.endFrame h).modHead h f).beginFrame h) := (ended.modHead keeps).beginFrame
  have opened : BeamKept beamWords rasterPart h (((s1.endFrame h).modHead h f).beginFrame h) t := (BeamKept.refl rasterPart h _).modHead
  have own : t.heads[h] = _ := State.modHead_self _ h _
  have begun : (((s1.endFrame h).modHead h f).beginFrame h).heads[h].begun = .flow := by
    refine (show _ = ((s1.endFrame h).modHead h f).heads[h].begun from ?_).trans ?_
    · unfold State.beginFrame
      split <;> rfl
    · rw [State.modHead_self]
      exact flows _
  refine ⟨next.trans opened, ?_, ?_, ?_⟩
  · rw [own]
    exact begun
  · rw [own]
  · rw [own, (opened.raster fun _ _ e => e).epoch]

/-- What follows once the record is open. -/
def State.frameFollows (s : State) (h : Head) : State :=
  let s3 := (s.tapBoundary h).lockTrack h
  let s4 := (((s3.classBytes h).epochSource h (s3.epoch h.val)).rotBoundary h).powTrack
  (((s4.beamStrobe h 1).sweepLate h).markBeam h).traceFrame h.val

theorem State.frameFollows_kept (free : s.syncMode h.val = 0) : BeamKept beamWords framePart h s (s.frameFollows h) := by
  have tapped := (BeamKept.refl framePart h s).tapBoundary
  have still : (s.tapBoundary h).syncMode h.val = 0 := by
    rw [(tapped.raster fun _ _ e => congrArg (·.1) e).syncMode, free]
  unfold State.frameFollows
  dsimp only
  rw [State.lockTrack_free still]
  have tracked : BeamKept beamWords framePart h s ((s.tapBoundary h).modHead h fun x => { x with lockGood := 0 }) := tapped.modHead
  have sourced := fun e => tracked.kept (((HeadsKept.refl _).classBytes h).epochSource h e)
  have powered := fun e => (sourced e).rotBoundary.kept (HeadsKept.refl _).powTrack
  have strobed := fun e => (powered e).beamStrobe 1
  have swept := fun e => (strobed e).lateAll
  exact (BeamKept.modHead (swept _ _)).kept ((HeadsKept.refl _).traceFrame _)

/-- A head's state as a frame begins that has followed `kind`. -/
def HeadSt.frameTaken (x : HeadSt) (dim streaming : Bool) (kind : Begun) : HeadSt :=
  { x with
    first := kind != .flow, begun := .flow, dimFrame := if kind == .flow then x.dimLatch else dim
    dimLatch := if kind == .flow then x.dimLatch else dim, streaming := streaming }

theorem frameStrobe_completes (runs : s.running h.val = true) (fresh : s.heads[h].strobed.getLsbD 1 = false) (line : s.posLine h.val = 0)
    (quad : s.posQuad h.val = 0) (free : s.syncMode h.val = 0) (moves : s.heads[h].phase ≠ .stopping) :
    Completes (.frameStrobe h) s fun t =>
      t.epoch h.val = (if s.heads[h].begun = .start then s.epoch h.val else s.epoch h.val + 1) ∧
      t.heads[h].sig.isOpen = true ∧ t.heads[h].sig.frame = (t.epoch h.val).setWidth 24 ∧ t.heads[h].begun = .flow := by
  have run : exec (.frameStrobe h) s = .next (s.frameBegin h) := by
    change execFrameStrobe h s = _
    simp only [execFrameStrobe, State.strobeFree, runs, fresh, line, quad]
    rfl
  obtain ⟨counted, mode⟩ := State.epochBegin_spec free moves
  let f := fun x : HeadSt => x.frameTaken s.wantDim (s.bget (aHead h.val 0x31) 22) s.heads[h].begun
  have whole : s.frameBegin h =
      (((s.epochBegin h).splitBoundary h.val).frameOpened h f (s.heads[h].begun == .start || s.heads[h].begun == .release)).frameFollows h := rfl
  have split : BeamKept beamWords rasterPart h (s.epochBegin h) ((s.epochBegin h).splitBoundary h.val) :=
    (BeamKept.refl rasterPart h _).kept ((HeadsKept.refl _).splitBoundary _)
  obtain ⟨opened, flows, open_, frame⟩ := State.frameOpened_spec ((s.epochBegin h).splitBoundary h.val) h (f := f)
    (s.heads[h].begun == .start || s.heads[h].begun == .release) (fun _ => rfl) fun _ => rfl
  have raster := (split.trans opened).raster fun _ _ e => e
  refine ⟨_, run, ?_⟩
  rw [whole]
  generalize ((s.epochBegin h).splitBoundary h.val).frameOpened h f _ = o at opened flows open_ frame raster ⊢
  have after := o.frameFollows_kept (h := h) (raster.syncMode.trans mode)
  have epoch := (after.raster fun _ _ e => congrArg (·.1) e).epoch
  have part := after.part
  simp only [framePart, Prod.mk.injEq] at part
  obtain ⟨-, begun, isOpen, number⟩ := part
  exact ⟨by rw [epoch, raster.epoch, counted], isOpen.trans open_, by rw [number, epoch, frame], begun.trans flows⟩

/-- What of a head's state its raster, its epoch and its records say. -/
def recordPart (x : HeadSt) : (HeadPhase × Vector Word 9 × BitVec 48) × Bool × List SigRec := (rasterPart x, x.sig.isOpen, x.closed)

theorem State.frameCounts_kept (s : State) (h : Head) : BeamKept beamWords recordPart h s (s.frameCounts h) := by
  have counted : BeamKept beamWords recordPart h s ((List.finRange 8).foldl (fun (t : State) n =>
      t.wr (aHead h.val (0x28 + n.val)) (wd (min 0xFFFFFF (s.heads[h].fr.now.fetch[n] / 64)))) s) :=
    List.foldlRecOn (motive := fun t => BeamKept beamWords recordPart h s t) _ _ (BeamKept.refl _ h s) fun _ q n _ => q.wr _ _
  exact (((counted.wr _ _).wr _ _).wr _ _).modHead

/-- The record that closes has the frame and the flags of the open one. -/
theorem State.closeRecord_spec (s : State) (h : Head) (planned : Bool) (open_ : s.heads[h].sig.isOpen = true) : let t := s.closeRecord h false planned
    BeamKept beamWords rasterPart h s t ∧ t.heads[h].sig.isOpen = false ∧
      ∃ r : SigRec, t.heads[h].closed = s.heads[h].closed ++ [r] ∧ r.frame = s.heads[h].sig.frame ∧ r.flags = s.heads[h].sig.flags := by
  unfold State.closeRecord
  dsimp only
  rw [open_, if_neg (by decide)]
  refine ⟨(BeamKept.refl _ h s).modHead, by rw [State.modHead_self], _, by rw [State.modHead_self], rfl, rfl⟩

theorem vblankStrobe_completes (runs : s.running h.val = true) (fresh : s.heads[h].strobed.getLsbD 3 = false)
    (line : s.posLine h.val = (s.raster h.val).vact) (quad : s.posQuad h.val = 0) (open_ : s.heads[h].sig.isOpen = true) :
    Completes (.vblankStrobe h) s fun t =>
      t.heads[h].sig.isOpen = false ∧ t.heads[h].closed.length = s.heads[h].closed.length + 1 ∧
      (t.heads[h].closed.getLast?.map fun r => (r.frame, r.flags)) = some (s.heads[h].sig.frame, s.heads[h].sig.flags) ∧
      t.heads[h].closed.take s.heads[h].closed.length = s.heads[h].closed ∧ t.epoch h.val = s.epoch h.val := by
  have run : exec (.vblankStrobe h) s = .next (((s.closeRecord h false false).frameCounts h).beamStrobe h 3) := by
    change execVblankStrobe h s = _
    simp only [execVblankStrobe, State.strobeFree, runs, fresh, line, quad, beq_self_eq_true]
    rfl
  refine ⟨_, run, ?_⟩
  obtain ⟨closes, shut, r, closed, frame, flags⟩ := s.closeRecord_spec h false open_
  have after := ((s.closeRecord h false false).frameCounts_kept h).beamStrobe 3
  have epoch := ((closes.raster fun _ _ e => e).trans (after.raster fun _ _ e => congrArg (·.1) e)).epoch
  have part := after.part
  simp only [recordPart, Prod.mk.injEq] at part
  obtain ⟨-, isOpen, records⟩ := part
  rw [isOpen, records, closed, epoch, shut]
  simp [frame, flags]

end

end Sys2Proof.Machine

open Sys2Proof.Machine in
/-- Settles O36: the record opens with the epoch that the frame has begun with, and the rest of the boundary keeps both; the record that VBLANK
closes is the open one. -/
theorem frameEpochAndRecord : Obligations.FrameEpochAndRecord := by
  intro s h runs
  exact ⟨fun fresh line quad free moves => frameStrobe_completes runs fresh line quad free moves,
    fun fresh line quad open_ => vblankStrobe_completes runs fresh line quad open_⟩

end

section
/-! Start and stop of a head (O37). -/

namespace Sys2Proof.Machine

open Safety

section
variable {s t : State} {h : Head}

/-! ### Entries discarded (R30, R31) -/

/-- The entries that a flush discards. -/
def State.flushed (s : State) (h : Head) (keep : QEntry → Bool) : List QEntry := s.heads[h].queue.filter fun e => !keep e

/-- A flush drops the entries it discards, counts them and raises the beam-queue event, when there are any. -/
theorem State.flush_spec (s : State) (h : Head) (keep : QEntry → Bool) : let t := s.flush h keep
    let gone := s.flushed h keep
    HeadOnly h (queueWords h) s t ∧ unqueued t.heads[h] = unqueued s.heads[h] ∧
    t.heads[h].queue = (s.heads[h].queue.filter fun x => gone.all fun e => x.idx != e.idx) ∧
    t.fget (aHead h.val 0x0D) 7 0 = min 255 (s.fget (aHead h.val 0x0D) 7 0 + gone.length) ∧
    (gone ≠ [] → EventRaised s t (24 + h.val) [0x0B8, 0x0BC]) ∧ (gone = [] → NoEvent s t) := by
  intro t gone
  have is : t = if gone.isEmpty then s else
    ((gone.foldl (fun (t : State) e => t.dropEntry h e.idx) s).incN (aHead h.val 0x0D) 7 0 gone.length).evHead h.val 1 := rfl
  have small : s.fget (aHead h.val 0x0D) 7 0 ≤ 255 := Nat.le_of_lt_succ (fld_lt _ _ _)
  by_cases none : gone = []
  · rw [none, List.isEmpty_nil, if_pos rfl] at is
    rw [is, none]
    exact ⟨HeadOnly.refl h _ s, rfl, (List.filter_eq_self.2 fun _ _ => rfl).symm, by simp [small], fun c => absurd rfl c, fun _ => ⟨rfl, rfl⟩⟩
  · rw [if_neg (by simp [none])] at is
    have dropped := (s.foldl_dropEntry_only (h := h) gone).mono (B := queueWords h) (by simp [queueWords])
    have count : (gone.foldl (fun (t : State) e => t.dropEntry h e.idx) s).fget (aHead h.val 0x0D) 7 0 = s.fget (aHead h.val 0x0D) 7 0 :=
      congrArg (fld · 7 0) ((s.foldl_dropEntry_only (h := h) gone).words _ (by simp [aHead]))
    have queue := s.foldl_dropEntry_queue (h := h) gone
    have rest := s.foldl_dropEntry_unqueued (h := h) gone
    have quiet := s.foldl_dropEntry_noEvent (h := h) gone
    rw [is]
    generalize gone.foldl (fun (t : State) e => t.dropEntry h e.idx) s = u at dropped count queue rest quiet ⊢
    refine ⟨(dropped.wr _ (by simp [queueWords])).raiseCause _ _ _, ?_, ?_, ?_, fun _ => eventRaised_evHead (u := u.incN _ _ _ _) quiet.1 h 1,
      fun c => absurd c none⟩
    · rw [evHead_heads]
      exact rest
    · rw [evHead_heads]
      exact queue
    · rw [State.fget, evHead_rd]
      refine (congrArg (fld · 7 0) (State.rd_wr_same u (aHead h.val 0x0D) _)).trans ((fld_putFld _ _ (by decide) (by decide)).trans ?_)
      rw [count]
      omega

/-! ### Starts (R30) -/

theorem State.startCode_lt (s : State) (h : Nat) : s.startCode h < 16 := by
  unfold State.startCode
  dsimp only
  repeat' split
  all_goals decide

/-- A head that passes every check starts: CFGERR is 0, RUN 1, and it waits for its PLL. -/
def State.starts (s : State) (h : Head) : State :=
  ((s.fset (aHead h.val 1) 19 16 0).bset (aHead h.val 0) 23 true).modHead h fun x => { x with phase := .starting, byHost := false }

/-- An entry lies in a head's raster. -/
def State.inRaster (s : State) (h : Head) (e : QEntry) : Bool := decide (e.line < (s.raster h.val).vtotal ∧ e.quad < (s.raster h.val).htotal)

theorem State.headStart_refused (off : s.headOff h.val = true ∨ s.bget (aHead h.val 0) 23 = true ∨ s.heads[h].phase ≠ .stopped) :
    s.headStart h false = s := by
  unfold State.headStart
  rw [if_pos]
  rw [Bool.or_eq_true, Bool.or_eq_true, Bool.or_eq_true, bne_iff_ne]
  rcases off with off | runs | moves
  · exact .inl (.inl (.inl off))
  · exact .inl (.inr runs)
  · exact .inr moves

/-- A field of HSTAT below RUNNING does not concern the raster. -/
theorem State.hstat_raster (s : State) (h : Head) {hi lo : Nat} (v : Nat) (low : lo ≤ hi) (high : hi < 23) :
    RasterKept h s (s.fset (aHead h.val 1) hi lo v) := by
  refine ⟨rfl, fun off _ ne _ => State.rd_wr_ne _ _ (by simp only [aHead]; omega), ?_⟩
  rw [State.running, State.bget, State.fset_rd, if_pos rfl, bit_putFld _ _ low, if_neg (by omega)]
  rfl

theorem State.headStart_eq (on : s.headOff h.val = false) (lock : s.fuses.flock = true) (stands : s.bget (aHead h.val 0) 23 = false)
    (stopped : s.heads[h].phase = .stopped) : let code := s.startCode h.val
    s.headStart h false = if code ≠ 0 then (s.fset (aHead h.val 1) 19 16 code).evHead h.val 0 else (s.starts h).flush h (s.inRaster h) := by
  intro code
  have raster : (s.fset (aHead h.val 1) 19 16 code).raster h.val = s.raster h.val := (s.hstat_raster h code (by decide) (by decide)).raster
  unfold State.headStart
  rw [on, lock, stands, stopped, if_neg (by decide)]
  dsimp only
  rw [raster]
  by_cases none : code = 0
  · rw [if_neg (by simpa using none), if_neg (by simpa using none)]
    unfold State.starts State.inRaster
    rw [show s.startCode h.val = 0 from none]
  · rw [if_pos none, if_pos none]

theorem headStart_completes (on : s.headOff h.val = false) (lock : s.fuses.flock = true) (stands : s.bget (aHead h.val 0) 23 = false)
    (stopped : s.heads[h].phase = .stopped) : let code := s.startCode h.val
    let gone := s.flushed h (s.inRaster h)
    Completes (.headStart h) s fun t =>
      t.fget (aHead h.val 1) 19 16 = code ∧ t.fget (aHead h.val 1) 23 20 = s.fget (aHead h.val 1) 23 20 ∧
      t.bget (aHead h.val 0) 23 = (code == 0) ∧ t.fget (aHead h.val 0) 22 0 = s.fget (aHead h.val 0) 22 0 ∧
      (code ≠ 0 → EventRaised s t (24 + h.val) [0x0B8, 0x0BC] ∧ t.heads = s.heads) ∧
      (code = 0 → t.heads[h].phase = .starting ∧ (∀ e ∈ t.heads[h].queue, s.inRaster h e = true) ∧
        (∀ e ∈ s.heads[h].queue, (∀ g ∈ gone, g.idx ≠ e.idx) → e ∈ t.heads[h].queue) ∧
        t.fget (aHead h.val 0x0D) 7 0 = min 255 (s.fget (aHead h.val 0x0D) 7 0 + gone.length) ∧
        (gone ≠ [] → EventRaised s t (24 + h.val) [0x0B8, 0x0BC]) ∧ (gone = [] → NoEvent s t)) ∧
      (∀ g : Head, g ≠ h → t.heads[g] = s.heads[g]) ∧
      WordsKept s t [aHead h.val 0, aHead h.val 1, aHead h.val 0x0C, aHead h.val 0x0D] ∧
      t = { s with ws := t.ws, hw := t.hw, pcie := t.pcie, heads := t.heads } := by
  intro code gone
  refine ⟨_, congrArg Host.Outcome.next (State.headStart_eq on lock stands stopped), ?_⟩
  have apart : aHead h.val 0 ≠ aHead h.val 1 := by simp only [aHead]; omega
  have coded : ∀ v : Nat, fld (putFld (s.rd (aHead h.val 1)) 19 16 v) 23 20 = fld (s.rd (aHead h.val 1)) 23 20 := fun v =>
    fld_putFld_apart _ _ (by decide) (by decide)
  have shown : ∀ v < 16, fld (putFld (s.rd (aHead h.val 1)) 19 16 v) 19 16 = v := fun v small =>
    (fld_putFld _ _ (by decide) (by decide)).trans (Nat.mod_eq_of_lt small)
  by_cases none : code = 0
  · rw [if_neg (by simpa using none)]
    obtain ⟨only, rest, queue, count, raised, quiet⟩ := (s.starts h).flush_spec h (s.inRaster h)
    have own : (s.starts h).heads[h] = { s.heads[h] with phase := .starting, byHost := false } := State.modHead_self _ h _
    have discards : (s.starts h).flushed h (s.inRaster h) = gone := by rw [State.flushed, own]; rfl
    have first : (s.starts h).rd (aHead h.val 1) = putFld (s.rd (aHead h.val 1)) 19 16 0 := by
      refine (State.bset_rd _ _ _ _ _).trans ?_
      rw [if_neg apart.symm, State.fset_rd, if_pos rfl]
    have zeroth : (s.starts h).rd (aHead h.val 0) = putBit (s.rd (aHead h.val 0)) 23 true := by
      refine (State.bset_rd _ _ _ _ _).trans ?_
      rw [if_pos rfl, State.fset_rd, if_neg apart]
    have counter : (s.starts h).rd (aHead h.val 0x0D) = s.rd (aHead h.val 0x0D) :=
      (State.rd_wr_ne _ _ (by simp only [aHead]; omega)).trans (State.rd_wr_ne _ _ (by simp only [aHead]; omega))
    have whole : HeadOnly h [aHead h.val 0, aHead h.val 1, aHead h.val 0x0C, aHead h.val 0x0D] s ((s.starts h).flush h (s.inRaster h)) :=
      ((((HeadOnly.refl h _ s).wr _ (by simp)).wr _ (by simp)).modHead _).trans (only.mono (by simp [queueWords]))
    have kept : ∀ off < 2, ((s.starts h).flush h (s.inRaster h)).rd (aHead h.val off) = (s.starts h).rd (aHead h.val off) := fun off lt =>
      only.words _ (by simp only [queueWords, aHead, List.mem_cons, List.not_mem_nil, or_false]; omega)
    rw [discards] at count raised quiet queue
    rw [own] at queue rest
    generalize (s.starts h).flush h (s.inRaster h) = t at whole kept rest queue count raised quiet ⊢
    obtain ⟨words, others, all⟩ := whole
    refine ⟨?_, ?_, ?_, ?_, fun c => absurd none c, fun _ => ⟨?_, fun e he => ?_, fun e he apart => ?_, ?_, raised, quiet⟩, others, words, all⟩
    · rw [none, State.fget, kept 1 (by decide), first]
      exact shown 0 (by decide)
    · rw [State.fget, kept 1 (by decide), first]
      exact coded 0
    · rw [none, State.bget, kept 0 (by decide), zeroth, bit_putBit _ _ (by decide), if_pos rfl]
      rfl
    · rw [State.fget, kept 0 (by decide), zeroth]
      exact fld_putBit_apart _ _ (by decide)
    · exact (congrArg HeadSt.phase rest :)
    · rw [queue] at he
      obtain ⟨mem, out⟩ := List.mem_filter.1 he
      by_contra no
      have mine := List.all_eq_true.1 out e (List.mem_filter.2 ⟨mem, by simp [no]⟩)
      simp at mine
    · rw [queue]
      exact List.mem_filter.2 ⟨he, List.all_eq_true.2 fun g hg => by simpa using fun c => apart g hg c.symm⟩
    · rw [count, State.fget, counter, State.fget]
  · rw [if_pos none]
    have only : HeadOnly h [aHead h.val 0, aHead h.val 1, aHead h.val 0x0C, aHead h.val 0x0D] s ((s.fset (aHead h.val 1) 19 16 code).evHead h.val 0) :=
      ((HeadOnly.refl h _ s).wr _ (by simp)).raiseCause _ _ _
    have first : ((s.fset (aHead h.val 1) 19 16 code).evHead h.val 0).rd (aHead h.val 1) = putFld (s.rd (aHead h.val 1)) 19 16 code := by
      rw [evHead_rd, State.fset_rd, if_pos rfl]
    have zeroth : ((s.fset (aHead h.val 1) 19 16 code).evHead h.val 0).rd (aHead h.val 0) = s.rd (aHead h.val 0) := by
      rw [evHead_rd, State.fset_rd, if_neg apart]
    refine ⟨?_, ?_, ?_, ?_, fun _ => ⟨eventRaised_evHead (u := s.fset _ _ _ _) rfl h 0, evHead_heads _ _ _⟩, fun c => absurd c none, only.others, only.words,
      only.only⟩
    · rw [State.fget, first]
      exact shown code (s.startCode_lt h.val)
    · rw [State.fget, first]
      exact coded code
    · rw [State.bget, zeroth]
      exact stands.trans (beq_eq_false_iff_ne.2 none).symm
    · rw [State.fget, zeroth, State.fget]

/-! ### Stops (R31) -/

/-- A running head whose RUN falls keeps the registers it ran with to the end of its line. -/
def State.stops (s : State) (h : Head) : State :=
  ((s.bset (aHead h.val 0) 23 false).modHead h fun x => { x with byHost := false }).modHead h fun x =>
    { x with phase := .stopping, held := Vector.ofFn fun n => s.rd (aHead h.val n.val), heldEpoch := s.epoch h.val }

theorem State.headStop_stopped (stands : s.bget (aHead h.val 0) 23 = false) : s.headStop h false = s := by
  unfold State.headStop
  rw [stands, if_pos (by decide)]

theorem State.headStop_eq (runs : s.bget (aHead h.val 0) 23 = true) (moves : s.heads[h].phase = .running) (still : s.rotStep = 0) :
    s.headStop h false = s.stops h := by
  have phase : ((s.bset (aHead h.val 0) 23 false).modHead h fun x => { x with byHost := false }).heads[h].phase = .running := by
    rw [State.modHead_self]
    exact moves
  unfold State.headStop
  rw [runs, if_neg (by decide)]
  dsimp only
  rw [still, if_neg (by simp), phase]
  rfl

theorem State.stops_self (s : State) (h : Head) : (s.stops h).heads[h] = { s.heads[h] with
    byHost := false, phase := .stopping, held := Vector.ofFn fun n => s.rd (aHead h.val n.val), heldEpoch := s.epoch h.val } := by
  unfold State.stops
  rw [State.modHead_self, State.modHead_self]
  rfl

/-- The raster runs on as it was. -/
theorem State.stops_setup (moves : s.heads[h].phase = .running) {off : Nat} (small : off < 9) : (s.stops h).setup h.val off = s.setup h.val off := by
  have here : s.heads[h].phase ≠ .stopping := by rw [moves]; decide
  unfold State.setup
  dsimp only
  rw [getElem_ofNat_val, getElem_ofNat_val, State.stops_self, if_pos rfl, if_neg here]
  simp [Nat.mod_eq_of_lt small]

theorem headStop_completes (runs : s.bget (aHead h.val 0) 23 = true) (moves : s.heads[h].phase = .running) (still : s.rotStep = 0) :
    Completes (.headStop h) s fun t =>
      t.bget (aHead h.val 0) 23 = false ∧ t.heads[h].phase = .stopping ∧ t.heads[h].queue = s.heads[h].queue ∧
      t.raster h.val = s.raster h.val ∧ t.epoch h.val = s.epoch h.val ∧ WordsKept s t [aHead h.val 0] ∧
      t = { s with ws := t.ws, heads := t.heads } := by
  refine ⟨_, congrArg Host.Outcome.next (State.headStop_eq runs moves still), ?_, ?_, ?_, ?_, ?_, fun a ha => State.rd_wr_ne s _ (by simpa using ha), rfl⟩
  · refine (congrArg (bit · 23) (State.rd_wr_same s _ _)).trans ((bit_putBit _ _ (by decide) _).trans (if_pos rfl))
  · rw [State.stops_self]
  · rw [State.stops_self]
  · simp only [State.raster, State.stops_setup moves (off := 2) (by decide), State.stops_setup moves (off := 3) (by decide),
      State.stops_setup moves (off := 4) (by decide), State.stops_setup moves (off := 5) (by decide)]
  · rw [State.epoch, getElem_ofNat_val, State.stops_self]
    exact if_pos rfl

/-! ### The end of a raster (R31) -/

/-- What of a head's state a stop leaves to be read. -/
def stopPart (x : HeadSt) : HeadPhase × List QEntry := (x.phase, x.queue)

/-- RUN, position, epoch and the counts of entries. -/
abbrev stopWords : List Nat := [0, 9, 0x0A, 0x0B, 0x0D]

section
variable {α : Type} {W : List Nat} {p : HeadSt → α}

/-- A record that closes changes the records and the ledger's causes. -/
theorem BeamKept.closeRecord (q : BeamKept W p h s t) (short planned : Bool)
    (hp : ∀ x sig closed cause kind, p { x with sig := sig, closed := closed, ledCause := cause, ledPlanned := kind } = p x := by exact fun _ _ _ _ _ => rfl) :
    BeamKept W p h s (t.closeRecord h short planned) := by
  unfold State.closeRecord
  dsimp only
  split
  · exact q
  · exact q.modHead fun x => hp x _ _ _ _

theorem BeamKept.endFrame (q : BeamKept W p h s t)
    (hp : ∀ x sig closed cause kind, p { x with sig := sig, closed := closed, ledCause := cause, ledPlanned := kind } = p x := by exact fun _ _ _ _ _ => rfl) :
    BeamKept W p h s (t.endFrame h) :=
  BeamKept.modHead (BeamKept.congr q) fun x => hp x x.sig _ _ _

theorem BeamKept.cutFrame (q : BeamKept W p h s t) (planned : Bool)
    (hp : ∀ x sig closed cause kind, p { x with sig := sig, closed := closed, ledCause := cause, ledPlanned := kind } = p x := by exact fun _ _ _ _ _ => rfl) :
    BeamKept W p h s (t.cutFrame h planned) :=
  (q.closeRecord true planned hp).endFrame hp

end

/-- The raster of a head ends with its queue, its position and its epoch as they are. -/
theorem State.rasterEnd_spec (s : State) (h : Head) (phase : HeadPhase) (planned : Bool) : let t := s.rasterEnd h phase planned
    BeamKept stopWords HeadSt.queue h s t ∧ t.heads[h].phase = phase ∧ t.running h.val = false := by
  unfold State.rasterEnd
  extract_lets s1 s2
  have ends : BeamKept stopWords HeadSt.queue h s s1 := ((BeamKept.refl _ h s).cutFrame planned).congr.modHead
  have shown : BeamKept stopWords HeadSt.queue h s s2 := (ends.wr _ _).wr _ _
  have own : s1.heads[h].phase = phase := congrArg HeadSt.phase (State.modHead_self _ h _)
  have dark : s2.running h.val = false := by
    rw [State.running, State.bget, State.bset_rd, if_pos rfl, bit_putBit _ _ (by decide), if_neg (by decide), State.bset_rd, if_pos rfl,
      bit_putBit _ _ (by decide), if_pos rfl]
  have rest : HeadsKept s2 ((((s2.splitStop h.val).streamStop h).larkUnlock h.val).powTrack) :=
    ((((HeadsKept.refl s2).splitStop _).streamStop _).larkUnlock _).powTrack
  refine ⟨shown.kept rest, ?_, ?_⟩
  · rw [rest.heads]
    exact own
  · rw [← dark, State.running, State.bget, rest.regs _ (by simp only [aHead]; omega) (by simp only [aHead]; omega)]
    rfl

/-- From s to t a head that has stopped settles: its phase, queue, counts and RUNNING stay, and no event is raised. -/
structure StopKept (h : Head) (s t : State) : Prop extends BeamKept stopWords stopPart h s t where
  host : t.hw = s.hw
  running : t.running h.val = s.running h.val

section
variable (q : StopKept h s t)
include q

theorem StopKept.modHead {f : HeadSt → HeadSt} (hf : ∀ x, stopPart (f x) = stopPart x := by exact fun _ => rfl) : StopKept h s (t.modHead h f) :=
  ⟨q.toBeamKept.modHead hf, q.host, q.running⟩

/-- A bit of a head's HSTAT below RUNNING. -/
theorem StopKept.hstat (g : Head) (n : Nat) (b : Bool) (low : n < 23) : StopKept h s (t.bset (aHead g.val 1) n b) := by
  refine ⟨q.toBeamKept.wr _ _, q.host, ?_⟩
  rw [← q.running, State.running, State.bget, State.bset_rd]
  split
  · rw [bit_putBit _ _ (by omega), if_neg (by omega), State.running, State.bget, ‹aHead h.val 1 = aHead g.val 1›]
  · rfl

theorem StopKept.leadTrack : StopKept h s (t.leadTrack h) := by
  unfold State.leadTrack
  dsimp only
  split
  · exact q.modHead.hstat h 20 _ (by decide)
  · exact q.hstat h 20 _ (by decide)

theorem StopKept.tapctl (n : Nat) (b : Bool) : StopKept h s (t.bset (aHead h.val 0x36) n b) :=
  ⟨q.toBeamKept.wr _ _, q.host, (congrArg (bit · 23) (State.rd_wr_ne _ _ (by simp only [aHead]; omega))).trans q.running⟩

theorem StopKept.tapSettle : StopKept h s (t.tapSettle h) := by
  unfold State.tapSettle
  dsimp only
  split
  · exact ((q.modHead.modHead).tapctl _ _).tapctl _ _
  · exact q.modHead

theorem StopKept.pllTrack (g : Head) : StopKept h s (t.pllTrack g) := by
  unfold State.pllTrack
  split
  · exact q.hstat g 22 _ (by decide)
  · exact q

/-- What settles after a stop: the entries' lists, the lead window, the tap and the dot PLLs. -/
theorem StopKept.settles {f : HeadSt → HeadSt} (hf : ∀ x, stopPart (f x) = stopPart x) (c : Prop) [Decidable c] (g : Head) :
    StopKept h s (let u := (((t.modHead h f).leadTrack h).tapSettle h).pllTrack h; if c then u.pllTrack g else u) := by
  have settled := ((q.modHead hf).leadTrack.tapSettle).pllTrack h
  dsimp only
  split
  · exact settled.pllTrack g
  · exact settled

end

/-- A flush of the whole queue leaves none of it. -/
theorem State.flush_all (s : State) (h : Head) : (s.flush h fun _ => false).heads[h].queue = [] := by
  obtain ⟨-, -, queue, -⟩ := s.flush_spec h fun _ => false
  rw [queue, List.filter_eq_nil_iff]
  intro x mem all
  have mine := List.all_eq_true.1 all x (List.mem_filter.2 ⟨mem, rfl⟩)
  simp at mine

theorem State.flushed_all (s : State) (h : Head) : (s.flushed h fun _ => false) = s.heads[h].queue := List.filter_eq_self.2 fun _ _ => rfl

/-- The epoch of a head that is not at the end of its last line is what its registers hold. -/
theorem State.epoch_of_words (moves : s.heads[h].phase ≠ .stopping) (moves' : t.heads[h].phase ≠ .stopping)
    (low : t.rd (aHead h.val 0x0A) = s.rd (aHead h.val 0x0A)) (high : t.rd (aHead h.val 0x0B) = s.rd (aHead h.val 0x0B)) :
    t.epoch h.val = s.epoch h.val := by
  rw [State.epoch, State.epoch, getElem_ofNat_val, getElem_ofNat_val, low, high]
  rw [if_neg moves, if_neg moves']

theorem rasterStop_completes (stopping : s.heads[h].phase = .stopping) (last : s.posQuad h.val + 1 = (s.raster h.val).htotal) :
    Completes (.rasterStop h) s fun t =>
      t.running h.val = false ∧ t.heads[h].phase = .stopped ∧ t.heads[h].queue = [] ∧
      t.epoch h.val = s.epoch h.val + 1 ∧ t.posLine h.val = s.posLine h.val ∧ t.posQuad h.val = s.posQuad h.val ∧
      t.fget (aHead h.val 0x0D) 7 0 = min 255 (s.fget (aHead h.val 0x0D) 7 0 + s.heads[h].queue.length) ∧
      (s.heads[h].queue ≠ [] → t.evFlag (24 + h.val) = true) ∧ t.fuses = s.fuses ∧ t.dram = s.dram := by
  have run : exec (.rasterStop h) s = .next (s.stopNow h true) := by
    change execRasterStop h s = _
    unfold execRasterStop
    rw [if_pos (by simp [State.lineEnd, last]; exact stopping)]
  refine ⟨_, run, ?_⟩
  unfold State.stopNow
  dsimp only
  rw [if_pos rfl, if_pos rfl]
  obtain ⟨ends, phase, dark⟩ := s.rasterEnd_spec h .stopped s.heads[h].byHost
  generalize s.rasterEnd h .stopped s.heads[h].byHost = s1 at ends phase dark ⊢
  have queue : s1.heads[h].queue = s.heads[h].queue := ends.part
  obtain ⟨only, rest, -, count, raised, -⟩ := s1.flush_spec h fun _ => false
  have none := s1.flush_all h
  rw [s1.flushed_all, queue] at count raised
  generalize (s1.flush h fun _ => false) = s2 at only rest count raised none ⊢
  have settled := (StopKept.mk (BeamKept.refl stopPart h (s2.setEpoch h.val (s.epoch h.val + 1))) rfl rfl).settles
    (f := fun x => { x with dueLate := [], byHost := false }) (fun _ => rfl) (s.syncMode h.val = 1) (Fin.ofNat 8 (s.masterOf h.val))
  dsimp only at settled
  generalize (if s.syncMode h.val = 1 then _ else _ : State) = t at settled ⊢
  obtain ⟨⟨part, words, dram, fuses⟩, host, runs⟩ := settled
  have stopped : s2.heads[h].phase = .stopped := by
    rw [← phase]
    exact (congrArg HeadSt.phase rest :)
  have count_ : ∀ off, off ≠ 0x0C → off ≠ 0x0D → s2.rd (aHead h.val off) = s1.rd (aHead h.val off) := fun off c d =>
    only.words _ (by simp only [queueWords, aHead, List.mem_cons, List.not_mem_nil, or_false]; omega)
  have apart : ∀ off, off ≠ 0x0A → off ≠ 0x0B → (s2.setEpoch h.val (s.epoch h.val + 1)).rd (aHead h.val off) = s2.rd (aHead h.val off) := fun off l u =>
    (State.rd_wr_ne _ _ (by simp only [aHead]; omega)).trans (State.rd_wr_ne _ _ (by simp only [aHead]; omega))
  have pos : t.rd (aHead h.val 9) = s.rd (aHead h.val 9) :=
    (words 9 (by decide)).trans ((apart 9 (by decide) (by decide)).trans ((count_ 9 (by decide) (by decide)).trans (ends.words 9 (by decide))))
  simp only [stopPart, Prod.mk.injEq] at part
  obtain ⟨tphase, tqueue⟩ := part
  refine ⟨?_, tphase.trans stopped, tqueue.trans none, ?_, congrArg (fld · 23 12) pos, congrArg (fld · 11 0) pos, ?_, fun some => ?_,
    fuses.trans (only.fuses.trans ends.fuses), dram.trans (only.dram.trans ends.dram)⟩
  · rw [runs, ← dark]
    exact congrArg (bit · 23) ((apart 1 (by decide) (by decide)).trans (count_ 1 (by decide) (by decide)))
  · have moving : s2.heads[h].phase ≠ .stopping := by rw [stopped]; decide
    exact (State.epoch_of_words (s := s2.setEpoch h.val (s.epoch h.val + 1)) moving (by rw [tphase]; exact moving) (words 0x0A (by decide))
      (words 0x0B (by decide))).trans (s2.setEpoch_epoch h _ moving)
  · refine (congrArg (fld · 7 0) ((words 0x0D (by decide)).trans (apart 0x0D (by decide) (by decide)))).trans (count.trans ?_)
    rw [State.fget, ends.words 0x0D (by decide), State.fget]
  · rw [State.evFlag, State.hwRd, host]
    exact (raised some).1

theorem rasterStop_idle (idle : s.heads[h].phase ≠ .stopping ∨ s.posQuad h.val + 1 ≠ (s.raster h.val).htotal) :
    Completes (.rasterStop h) s fun t => t = s := by
  refine ⟨_, ?_, rfl⟩
  change execRasterStop h s = _
  unfold execRasterStop
  rw [if_neg]
  simp only [State.lineEnd, Bool.and_eq_true, decide_eq_true_eq, beq_iff_eq]
  rintro ⟨moves, last⟩
  exact idle.elim (fun c => c moves) fun c => c last

end

end Sys2Proof.Machine

open Sys2Proof.Machine in
/-- Settles O37: a start refused changes nothing, one checked shows its code and, passed, flushes what lies outside the raster; a stop keeps the
registers to the end of the line, where the raster ends, the queue is flushed and the epoch set. -/
theorem headControl : Obligations.HeadControl := by
  refine ⟨fun s h => ⟨fun off => ⟨_, congrArg Host.Outcome.next (State.headStart_refused off), rfl⟩, fun on lock stands stopped => ?_⟩,
    fun s h => ⟨headStop_completes, fun stands => ⟨_, congrArg Host.Outcome.next (State.headStop_stopped stands), rfl⟩, rasterStop_completes,
      rasterStop_idle⟩⟩
  have done := headStart_completes on lock stands stopped
  simp only [State.flushed, State.inRaster, Bool.decide_and] at done
  exact done

end

section
/-! The dot PLL and the references of a head (O38). -/

namespace Sys2Proof.Machine

open Safety

section
variable {s t : State} {h : Head}

/-! ### The raster begins (R30) -/

/-- HCTL, HSTAT, the position and the epoch of a head. -/
abbrev startWords : List Nat := [0, 1, 9, 0x0A, 0x0B]

/-- What of a head's state says how its raster began. -/
def startPart (x : HeadSt) : HeadPhase × Begun × Nat := (x.phase, x.begun, x.lead)

theorem BeamKept.linkTrack (q : BeamKept startWords startPart h s t) : BeamKept startWords startPart h s (t.linkTrack h) :=
  (q.wr (aHead h.val 0x31) _).modHead

theorem BeamKept.outputOff (q : BeamKept startWords startPart h s t) : BeamKept startWords startPart h s (t.outputOff h) :=
  ((q.wr (aHead h.val 0x30) _).wr (aHead h.val 0x31) _).linkTrack

theorem BeamKept.outputCheck (q : BeamKept startWords startPart h s t) : BeamKept startWords startPart h s (t.outputCheck h) := by
  unfold State.outputCheck
  extract_lets c s1
  have coded : BeamKept startWords startPart h s s1 := (q.wr (aHead h.val 0x31) _).modHead
  exact (coded.outputOff.raise _).ite coded.linkTrack

theorem HeadQuiet.linkTrack (q : HeadQuiet h s t) : HeadQuiet h s (t.linkTrack h) := (q.bset (aHead h.val 0x31) 22 _).modHead

theorem HeadQuiet.outputCheck (q : HeadQuiet h s t) : HeadQuiet h s (t.outputCheck h) := by
  unfold State.outputCheck
  extract_lets c s1
  have coded : HeadQuiet h s s1 := (q.fset (aHead h.val 0x31) 16 13 _).modHead
  have off : HeadQuiet h s (s1.outputOff h) := ((coded.bset (aHead h.val 0x30) 23 _).fset (aHead h.val 0x31) 20 17 _).linkTrack
  exact coded.linkTrack.ite (off.raise _)

/-- The raster begins at a position: its registers and what of the head says how. -/
theorem State.rasterBegin_spec (s : State) (h : Head) (kind : Begun) (line quad : Nat) : let t := s.rasterBegin h kind line quad
    t.heads[h].phase = .running ∧ t.heads[h].begun = kind ∧ t.rd (aHead h.val 9) = packBeam line quad ∧
    t.rd (aHead h.val 1) = putBit (s.rd (aHead h.val 1)) 23 true ∧ (∀ a, a ≠ aHead h.val 1 → a ≠ aHead h.val 9 → t.rd a = s.rd a) ∧
    (∀ g : Head, g ≠ h → t.heads[g] = s.heads[g]) := by
  have own : (s.rasterBegin h kind line quad).heads[h] = _ := State.modHead_self ((s.orphanReads h fun _ => true).setPos h.val line quad) h _
  refine ⟨by rw [own], by rw [own], ?_, ?_, fun a one nine => (State.rd_wr_ne _ _ one).trans (State.rd_wr_ne _ _ nine), fun g ne =>
    State.modHead_other ((s.orphanReads h fun _ => true).setPos h.val line quad) _ ne⟩
  · exact (State.rd_wr_ne _ _ (by simp only [aHead]; omega)).trans (State.rd_wr_same _ _ _)
  · refine (State.rd_wr_same _ _ _).trans (congrArg (putBit · 23 true) ?_)
    exact State.rd_wr_ne _ _ (by simp only [aHead]; omega)

/-- A raster begun at line 0, quad 0.0 stands there. -/
theorem State.pos_zero (zero : t.rd (aHead h.val 9) = packBeam 0 0) : t.posLine h.val = 0 ∧ t.posQuad h.val = 0 :=
  ⟨congrArg (fld · 23 12) zero, congrArg (fld · 11 0) zero⟩

/-- A head's state as its raster starts with a lead window. -/
def HeadSt.going (x : HeadSt) (lead : Nat) (snap : Bool) : HeadSt :=
  { x with lead := lead, lockGood := 0, sinceRef := none, steer := 0, epochSet := false, snapDue := snap }

/-- The raster of a head that follows no master exactly has begun. -/
def State.started (s : State) (h : Head) : State :=
  let s1 := ((s.bset (aHead h.val 1) 22 true).bset (aHead h.val 1) 21 false).rasterBegin h .start 0 0
  (s1.modHead h fun x => x.going (s.leadReg h.val) (s.snapFirst h)).bset (aHead h.val 1) 20 false

/-- What follows its beginning: split copies, Lark's lock and the output. -/
def State.resumed (s : State) (h : Head) : State :=
  let t := (s.splitStart h.val).larkResume h.val
  if t.bget (aHead h.val 0x30) 23 then t.outputCheck h else t

theorem State.rasterGo_eq (free : s.syncMode h.val ≠ 1) : s.rasterGo h = (s.started h).resumed h := by
  have mode : (s.syncMode h.val == 1) = false := beq_eq_false_iff_ne.2 free
  unfold State.rasterGo
  rw [mode]
  rfl

theorem State.started_spec (s : State) (h : Head) : let t := s.started h
    startPart t.heads[h] = (.running, .start, s.leadReg h.val) ∧ bit (t.rd (aHead h.val 1)) 23 = true ∧ bit (t.rd (aHead h.val 1)) 22 = true ∧
    t.rd (aHead h.val 9) = packBeam 0 0 ∧ (∀ off, off ≠ 1 → off ≠ 9 → t.rd (aHead h.val off) = s.rd (aHead h.val off)) ∧
    ∀ g : Head, g ≠ h → t.heads[g] = s.heads[g] := by
  unfold State.started
  dsimp only
  obtain ⟨phase, begun, pos, hstat, words, others⟩ := ((s.bset (aHead h.val 1) 22 true).bset (aHead h.val 1) 21 false).rasterBegin_spec h .start 0 0
  generalize ((s.bset (aHead h.val 1) 22 true).bset (aHead h.val 1) 21 false).rasterBegin h .start 0 0 = s1 at phase begun pos hstat words others ⊢
  have bits : ∀ n, 22 ≤ n → n ≤ 23 → bit (putBit (s1.rd (aHead h.val 1)) 20 false) n = true := by
    intro n low high
    rw [hstat, State.bset_rd, if_pos rfl, State.bset_rd, if_pos rfl]
    simp only [bit_putBit _ _ (show 20 < 24 by decide), bit_putBit _ _ (show 21 < 24 by decide), bit_putBit _ _ (show 22 < 24 by decide),
      bit_putBit _ _ (show 23 < 24 by decide)]
    rw [if_neg (show n ≠ 20 by omega)]
    by_cases top : n = 23
    · rw [if_pos top]
    · rw [if_neg top, if_neg (show n ≠ 21 by omega), if_pos (show n = 22 by omega)]
  refine ⟨?_, (congrArg (bit · 23) (State.rd_wr_same _ _ _)).trans (bits 23 (by decide) (by decide)),
    (congrArg (bit · 22) (State.rd_wr_same _ _ _)).trans (bits 22 (by decide) (by decide)),
    (State.rd_wr_ne _ _ (by simp only [aHead]; omega)).trans pos, fun off one nine => ?_, fun g ne => (State.modHead_other _ _ ne).trans (others g ne)⟩
  · refine (congrArg startPart (s1.modHead_self h _)).trans ?_
    simp only [startPart, HeadSt.going, phase, begun]
  · refine (State.rd_wr_ne _ _ (by simp only [aHead]; omega)).trans ((words _ (by simp only [aHead]; omega) (by simp only [aHead]; omega)).trans ?_)
    exact (State.rd_wr_ne _ _ (by simp only [aHead]; omega)).trans (State.rd_wr_ne _ _ (by simp only [aHead]; omega))

theorem State.resumed_spec (s : State) (h : Head) : BeamKept startWords startPart h s (s.resumed h) ∧
    ∀ g : Head, g ≠ h → (s.resumed h).heads[g] = s.heads[g] := by
  have resumed : HeadsKept s ((s.splitStart h.val).larkResume h.val) := ((HeadsKept.refl s).splitStart _).larkResume _
  unfold State.resumed
  dsimp only
  generalize (s.splitStart h.val).larkResume h.val = t at resumed ⊢
  have kept := (BeamKept.refl startPart h s (W := startWords)).kept resumed
  refine ⟨kept.when fun q => q.outputCheck, fun g ne => ?_⟩
  by_cases on : t.bget (aHead h.val 0x30) 23 = true
  · rw [if_pos on]
    exact ((HeadQuiet.refl h t).outputCheck.others g ne).trans (by rw [resumed.heads])
  · rw [if_neg on, resumed.heads]

theorem pllLock_completes (starting : s.heads[h].phase = .starting) (free : s.syncMode h.val ≠ 1) : Completes (.pllLock h) s fun t =>
      t.bget (aHead h.val 1) 23 = true ∧ t.bget (aHead h.val 1) 22 = true ∧ t.posLine h.val = 0 ∧ t.posQuad h.val = 0 ∧
      t.heads[h].phase = .running ∧ t.heads[h].begun = .start ∧ t.epoch h.val = s.epoch h.val ∧
      t.heads[h].lead = s.fget (aHead h.val 0) 14 12 + 1 ∧ ∀ g : Head, g ≠ h → t.heads[g] = s.heads[g] := by
  have run : exec (.pllLock h) s = .next ((s.started h).resumed h) := by
    change execPllLock h s = _
    unfold execPllLock
    rw [if_pos starting, State.rasterGo_eq free]
  refine ⟨_, run, ?_⟩
  obtain ⟨part, runs, locked, pos, words, others⟩ := s.started_spec h
  obtain ⟨kept, others'⟩ := (s.started h).resumed_spec h
  generalize s.started h = u at part runs locked pos words others kept others' ⊢
  generalize u.resumed h = t at kept others' ⊢
  have own := kept.part.trans part
  simp only [startPart, Prod.mk.injEq] at own
  obtain ⟨phase, begun, lead⟩ := own
  obtain ⟨line, quad⟩ := State.pos_zero ((kept.words 9 (by decide)).trans pos)
  refine ⟨(congrArg (bit · 23) (kept.words 1 (by decide))).trans runs, (congrArg (bit · 22) (kept.words 1 (by decide))).trans locked, line, quad, phase, begun,
    ?_, lead, fun g ne => (others' g ne).trans (others g ne)⟩
  exact State.epoch_of_words (by rw [starting]; decide) (by rw [phase]; decide)
    ((kept.words 0x0A (by decide)).trans (words 0x0A (by decide) (by decide))) ((kept.words 0x0B (by decide)).trans (words 0x0B (by decide) (by decide)))

/-! ### Loss of the dot clock's lock and of the reference (R36, R220) -/

theorem State.larkUnlock_words (s : State) (h : Nat) : WordsKept s (s.larkUnlock h) [aLark 1] := by
  intro a ha
  unfold State.larkUnlock
  split
  · rw [State.lineUnlock, State.evLark, State.raise_rd]
    exact State.rd_wr_ne _ _ (by simpa using ha)
  · rfl

theorem dotClockLockLoss_completes (runs : s.running h.val = true) : Completes (.dotClockLockLoss h) s fun t =>
      t.bget (aHead h.val 1) 22 = false ∧ t.running h.val = true ∧ t.heads = s.heads ∧ t.dram = s.dram ∧
      WordsKept s t [aHead h.val 1, aLark 0, aLark 1, aLark 2, aLark 3, aLark 4, aLark 5] := by
  have run : exec (.dotClockLockLoss h) s = .next ((s.bset (aHead h.val 1) 22 false).larkUnlock h.val) := by
    change execDotClockLockLoss h s = _
    unfold execDotClockLockLoss
    rw [if_pos runs]
  refine ⟨_, run, ?_⟩
  have kept : HeadsKept (s.bset (aHead h.val 1) 22 false) ((s.bset (aHead h.val 1) 22 false).larkUnlock h.val) := (HeadsKept.refl _).larkUnlock _
  have words := (s.bset (aHead h.val 1) 22 false).larkUnlock_words h.val
  generalize (s.bset (aHead h.val 1) 22 false).larkUnlock h.val = t at kept words ⊢
  have hstat : t.rd (aHead h.val 1) = putBit (s.rd (aHead h.val 1)) 22 false :=
    (kept.regs _ (by simp only [aHead]; omega) (by simp only [aHead]; omega)).trans (State.rd_wr_same _ _ _)
  refine ⟨?_, ?_, kept.heads, kept.dram, fun a ha => (words a ?_).trans (State.rd_wr_ne _ _ ?_)⟩
  · rw [State.bget, hstat, bit_putBit _ _ (by decide), if_pos rfl]
  · rw [State.running, State.bget, hstat, bit_putBit _ _ (by decide), if_neg (by decide)]
    exact runs
  · intro lark
    exact ha (by simp only [List.mem_singleton] at lark; simp [lark])
  · rintro rfl
    exact ha (by simp)

theorem referenceTimeout_completes (runs : s.running h.val = true) (mode : s.syncMode h.val = 3) (none : s.heads[h].sinceRef = none) :
    Completes (.referenceTimeout h) s fun t =>
      t.bget (aHead h.val 1) 21 = false ∧ WordsKept s t [aHead h.val 1] ∧ t = { s with ws := t.ws, heads := t.heads } := by
  have unseen : s.lockError h = .none := by
    unfold State.lockError
    rw [mode]
    exact congrArg (Option.bind · _) none
  let s1 := s.modHead h fun x => { x with sinceRef := .none, lockGood := 0 }
  have run : exec (.referenceTimeout h) s = .next (if s1.bget (aHead h.val 1) 21 then s1.lockLost h else s1) := by
    change execReferenceTimeout h s = _
    unfold execReferenceTimeout
    dsimp only
    rw [runs, mode, unseen]
    rfl
  refine ⟨_, run, ?_⟩
  by_cases locked : s1.bget (aHead h.val 1) 21 = true
  · rw [if_pos locked]
    refine ⟨?_, fun a ha => State.rd_wr_ne _ _ (by simpa using ha), rfl⟩
    exact (congrArg (bit · 21) (State.rd_wr_same s1 _ _)).trans ((bit_putBit _ _ (by decide) _).trans (if_pos rfl))
  · rw [if_neg locked]
    exact ⟨Bool.not_eq_true _ ▸ locked, fun _ _ => rfl, rfl⟩

/-! ### Freeze (R388) -/

/-- Of the entries of a queue only those of the line that ends, and that have not issued, may leave it. -/
theorem State.lateRender_spec (s : State) (h : Head) : let t := s.lateRender h
    HeadOnly h (queueWords h) s t ∧ unqueued t.heads[h] = unqueued s.heads[h] ∧
    (∀ e ∈ s.heads[h].queue, e.idx ∉ s.heads[h].dueRender → e ∈ t.heads[h].queue) ∧ (∀ e ∈ t.heads[h].queue, e ∈ s.heads[h].queue) ∧
    (s.heads[h].dueRender = [] → t.heads[h].queue = s.heads[h].queue) := by
  let late := s.heads[h].queue.filter fun e => s.heads[h].dueRender.contains e.idx
  let s1 := s.modHead h fun y => { y with dueRender := [] }
  have own : s1.heads[h] = { s.heads[h] with dueRender := [] } := s.modHead_self h _
  have queue : s1.heads[h].queue = s.heads[h].queue := by rw [own]
  change let t := s1.lateAll h late; _
  obtain ⟨sub, stay⟩ := s1.lateAll_queue h late
  rw [queue] at sub stay
  refine ⟨((HeadOnly.refl h _ s).modHead _).lateAll late (List.Subset.refl _), ?_, fun e he new => stay e he fun x hx same => new ?_, fun e he => sub he,
    fun empty => ?_⟩
  · refine (s1.lateAll_unqueued h late).trans ?_
    rw [own]
    rfl
  · rw [same]
    exact List.contains_iff_mem.1 (List.mem_filter.1 hx).2
  · have none : late = [] := List.filter_eq_nil_iff.2 fun e _ => by rw [empty]; exact Bool.false_ne_true
    have same : s.lateRender h = s1.lateAll h late := rfl
    rw [same, none]
    exact queue

theorem headFreeze_completes (moves : s.heads[h].phase = .running) (asked : s.stile.haltHead.getLsbD h.val = true) (last : s.lineEnd h = true) :
    Completes (.headFreeze h) s fun t => t.running h.val = false ∧ t.heads[h].phase = .frozen ∧
       t.bget (aHead h.val 0) 23 = s.bget (aHead h.val 0) 23 ∧ (∀ e ∈ s.heads[h].queue, e.idx ∉ s.heads[h].dueRender → e ∈ t.heads[h].queue) ∧
       (∀ e ∈ t.heads[h].queue, e ∈ s.heads[h].queue) ∧ (s.heads[h].dueRender = [] → t.heads[h].queue = s.heads[h].queue) ∧ t.epoch h.val = s.epoch h.val ∧
       t.posLine h.val = s.posLine h.val ∧ t.posQuad h.val = s.posQuad h.val ∧ t.dram = s.dram := by
  have run : exec (.headFreeze h) s = .next ((s.lateRender h).rasterEnd h .frozen false) := by
    change execHeadFreeze h s = _
    unfold execHeadFreeze
    rw [moves, asked, last, if_pos (by decide)]
  refine ⟨_, run, ?_⟩
  obtain ⟨only, -, stay, sub, all⟩ := s.lateRender_spec h
  obtain ⟨ends, phase, dark⟩ := (s.lateRender h).rasterEnd_spec h .frozen false
  have queue : ((s.lateRender h).rasterEnd h .frozen false).heads[h].queue = (s.lateRender h).heads[h].queue := ends.part
  have words : ∀ off ∈ stopWords, off ≠ 0x0D → ((s.lateRender h).rasterEnd h .frozen false).rd (aHead h.val off) = s.rd (aHead h.val off) :=
    fun off mem ne => (ends.words off mem).trans (only.words _ (by
      simp only [queueWords, aHead, List.mem_cons, List.not_mem_nil, or_false] at mem ⊢
      omega))
  generalize (s.lateRender h).rasterEnd h .frozen false = t at ends phase dark queue words ⊢
  refine ⟨dark, phase, congrArg (bit · 23) (words 0 (by decide) (by decide)), fun e he new => ?_, fun e he => ?_, fun empty => ?_, ?_,
    congrArg (fld · 23 12) (words 9 (by decide) (by decide)), congrArg (fld · 11 0) (words 9 (by decide) (by decide)), ends.dram.trans only.dram⟩
  · rw [queue]
    exact stay e he new
  · rw [queue] at he
    exact sub e he
  · rw [queue, all empty]
  · exact State.epoch_of_words (by rw [moves]; decide) (by rw [phase]; decide) (words 0x0A (by decide) (by decide)) (words 0x0B (by decide) (by decide))

theorem headFreeze_idle (idle : (s.heads[h].phase == .running && s.stile.haltHead.getLsbD h.val && s.lineEnd h) = false) :
    Completes (.headFreeze h) s fun t => t = s := by
  refine ⟨s, ?_, rfl⟩
  change execHeadFreeze h s = _
  unfold execHeadFreeze
  rw [if_neg]
  intro ends
  rw [beq_eq_decide, ends] at idle
  exact absurd idle (by decide)

/-! ### References (R35, R37, R345, R346) -/

/-- From s to t nothing has changed of where head g stands, nor of the fold's epoch and its validity. -/
structure Elsewhere (g : Head) (s t : State) : Prop extends HeadApart g s t where
  fold : t.fold = s.fold
  valid : t.rd (aFold 2) = s.rd (aFold 2)

theorem Elsewhere.refl (g : Head) (s : State) : Elsewhere g s s := ⟨HeadApart.refl g s, rfl, rfl⟩

theorem Elsewhere.trans {g : Head} {s t u : State} (p : Elsewhere g s t) (q : Elsewhere g t u) : Elsewhere g s u :=
  ⟨p.toHeadApart.trans q.toHeadApart, q.fold.trans p.fold, q.valid.trans p.valid⟩

theorem Elsewhere.modHead {g : Head} (ne : g ≠ h) (s : State) (f : HeadSt → HeadSt) : Elsewhere g s (s.modHead h f) :=
  ⟨HeadApart.modHead ne s f, rfl, rfl⟩

theorem HeadOnly.fold {A : List Nat} (q : HeadOnly h A s t) : t.fold = s.fold := by rw [q.only]

theorem State.cutFrame_fold (s : State) (h : Head) (planned : Bool) : (s.cutFrame h planned).fold = s.fold := by
  refine (show _ = (s.closeRecord h true planned).fold from rfl).trans ?_
  unfold State.closeRecord
  dsimp only
  split <;> rfl

theorem State.cutFrame_rd (s : State) (h : Head) (planned : Bool) (a : Nat) : (s.cutFrame h planned).rd a = s.rd a := by
  refine (show _ = (s.closeRecord h true planned).rd a from rfl).trans ?_
  unfold State.closeRecord
  dsimp only
  split <;> rfl

theorem State.rasterBegin_fold (s : State) (h : Head) (kind : Begun) (line quad : Nat) : (s.rasterBegin h kind line quad).fold = s.fold := rfl

theorem State.snapRestart_eq (s : State) (h : Head) : s.snapRestart h = (((s.lateRender h).cutFrame h s.heads[h].byHost).rasterBegin h .snap 0 0).modHead h
    fun x => { x with snapDue := false, lockGood := 0, byHost := false } := rfl

theorem Elsewhere.snapRestart {g : Head} (ne : g ≠ h) (s : State) : Elsewhere g s (s.snapRestart h) := by
  obtain ⟨only, -⟩ := s.lateRender_spec h
  obtain ⟨-, -, -, -, words, -⟩ := ((s.lateRender h).cutFrame h s.heads[h].byHost).rasterBegin_spec h .snap 0 0
  have apart := HeadApart.snapRestart ne s
  have cutFold : ((s.lateRender h).cutFrame h s.heads[h].byHost).fold = s.fold := ((s.lateRender h).cutFrame_fold h _).trans only.fold
  have cutValid : ((s.lateRender h).cutFrame h s.heads[h].byHost).rd (aFold 2) = s.rd (aFold 2) := ((s.lateRender h).cutFrame_rd h _ _).trans
    (only.words _ (by simp only [queueWords, aFold, aHead, List.mem_cons, List.not_mem_nil, or_false]; omega))
  rw [State.snapRestart_eq] at apart ⊢
  generalize (s.lateRender h).cutFrame h s.heads[h].byHost = u at apart words cutFold cutValid ⊢
  exact ⟨apart, (u.rasterBegin_fold h .snap 0 0).trans cutFold,
    (words (aFold 2) (by simp only [aFold, aHead]; omega) (by simp only [aFold, aHead]; omega)).trans cutValid⟩

theorem Elsewhere.refArrive {g : Head} (ne : g ≠ h) (s : State) : Elsewhere g s (s.refArrive h) := by
  unfold State.refArrive
  dsimp only
  split
  · exact (Elsewhere.modHead ne s _).trans (Elsewhere.snapRestart ne _)
  · exact Elsewhere.modHead ne s _

/-- What one head takes of a step that every head makes in turn, each apart from the others. -/
theorem foldl_heads {F : State → Head → State} (apart : ∀ t (x g : Head), g ≠ x → Elsewhere g t (F t x)) (s : State) (g : Head) :
    ∃ u, Elsewhere g s u ∧ Elsewhere g (F u g) ((List.finRange 8).foldl F s) := by
  obtain ⟨before, after, split⟩ := List.append_of_mem (List.mem_finRange g)
  have once := List.nodup_finRange 8
  rw [split, List.nodup_middle, List.nodup_cons] at once
  have others : ∀ l : List Head, (∀ x ∈ l, x ∈ before ++ after) → ∀ t, Elsewhere g t (l.foldl F t) := fun l sub t =>
    List.foldlRecOn (motive := fun u => Elsewhere g t u) l F (Elsewhere.refl g t) fun u p x hx =>
      p.trans (apart u x g fun e => once.1 (e ▸ sub x hx))
  rw [split, List.foldl_append, List.foldl_cons]
  exact ⟨before.foldl F s, others before (fun x hx => List.mem_append_left _ hx) s, others after (fun x hx => List.mem_append_right _ hx) _⟩

theorem RasterKept.genlocked (q : RasterKept h s t) (fold : Bool) : t.genlocked h fold = s.genlocked h fold := by
  unfold State.genlocked
  rw [q.running, q.syncMode, State.bget, q.words 0 (by decide) (by decide) (by decide), State.bget]

/-- What of a head's state says when its reference came. -/
def refPart (x : HeadSt) : Option Nat × Option (BitVec 48) := (x.sinceRef, x.refEpoch)

theorem State.snapRestart_spec (s : State) (h : Head) : let t := s.snapRestart h
    refPart t.heads[h] = refPart s.heads[h] ∧ t.heads[h].snapDue = false ∧ t.rd (aHead h.val 9) = packBeam 0 0 := by
  obtain ⟨-, part, -⟩ := s.lateRender_spec h
  have none : ∀ {a : Nat}, ∀ off ∈ ([] : List Nat), aHead h.val off ≠ a := fun _ m => absurd m List.not_mem_nil
  have cut := (BeamKept.refl refPart h (s.lateRender h) (W := [])).cutFrame s.heads[h].byHost
  have begun : BeamKept [] refPart h (s.lateRender h) (((s.lateRender h).cutFrame h s.heads[h].byHost).rasterBegin h .snap 0 0) :=
    BeamKept.wr (BeamKept.modHead (BeamKept.wr cut.congr _ _ none)) _ _ none
  obtain ⟨-, -, pos, -⟩ := ((s.lateRender h).cutFrame h s.heads[h].byHost).rasterBegin_spec h .snap 0 0
  exact ⟨begun.modHead.part.trans (show refPart (unqueued _) = refPart (unqueued _) from congrArg refPart part), congrArg HeadSt.snapDue (State.modHead_self _ h _), pos⟩

/-- The reference has come to a head; where it awaits a restart it begins anew at line 0, quad 0.0. -/
theorem State.refArrive_spec (s : State) (h : Head) : let t := s.refArrive h
    refPart t.heads[h] = (some 0, s.heads[h].refEpoch) ∧
    (s.heads[h].snapDue = true → t.posLine h.val = 0 ∧ t.posQuad h.val = 0 ∧ t.heads[h].snapDue = false) := by
  have own : (s.modHead h fun x => { x with sinceRef := some 0 }).heads[h] = { s.heads[h] with sinceRef := some 0 } := s.modHead_self h _
  obtain ⟨part, done, pos⟩ := (s.modHead h fun x => { x with sinceRef := some 0 }).snapRestart_spec h
  unfold State.refArrive
  dsimp only
  rw [own] at part ⊢
  by_cases due : s.heads[h].snapDue = true
  · rw [if_pos due]
    obtain ⟨line, quad⟩ := State.pos_zero pos
    exact ⟨part, fun _ => ⟨line, quad, done⟩⟩
  · rw [if_neg due, own]
    exact ⟨rfl, fun c => absurd c due⟩

theorem genlockIn_completes (s : State) : Completes .genlockIn s fun t => ∀ g : Head,
      (s.genlocked g false = true → t.heads[g].sinceRef = some 0 ∧
        (s.heads[g].snapDue = true → t.posLine g.val = 0 ∧ t.posQuad g.val = 0 ∧ t.heads[g].snapDue = false)) ∧
      (s.genlocked g false = false → t.heads[g] = s.heads[g]) := by
  refine ⟨_, rfl, fun g => ?_⟩
  obtain ⟨u, before, after⟩ := foldl_heads (F := fun (t : State) h => if t.genlocked h false then t.refArrive h else t) (fun t x g ne => by
    split
    · exact Elsewhere.refArrive ne t
    · exact Elsewhere.refl g t) s g
  rw [before.rasterKept.genlocked] at after
  refine ⟨fun locked => ?_, fun free => ?_⟩
  · rw [if_pos locked] at after
    obtain ⟨part, restart⟩ := u.refArrive_spec g
    rw [before.head] at restart
    rw [after.head, after.posLine, after.posQuad]
    exact ⟨congrArg Prod.fst part, restart⟩
  · rw [if_neg (by rw [free]; decide)] at after
    exact after.head.trans before.head

theorem foldFrameBoundary_idle (s : State) (idle : s.foldDue = false) : Completes .foldFrameBoundary s fun t => t = s := by
  refine ⟨s, ?_, rfl⟩
  change execFoldFrameBoundary s = _
  unfold execFoldFrameBoundary
  rw [if_neg (by rw [idle]; decide)]

/-- What the fold frame boundary is to one head. -/
def State.foldArrive (t : State) (h : Head) : State :=
  let u := t.modHead h fun x => { x with refEpoch := some t.fold.epoch }
  if u.bget (aFold 2) 23 && u.genlocked h true then u.refArrive h else u

theorem Elsewhere.foldArrive {g : Head} (ne : g ≠ h) (s : State) : Elsewhere g s (s.foldArrive h) := by
  unfold State.foldArrive
  dsimp only
  split
  · exact (Elsewhere.modHead ne s _).trans (Elsewhere.refArrive ne _)
  · exact Elsewhere.modHead ne s _

theorem State.foldArrive_spec (s : State) (h : Head) : let t := s.foldArrive h
    let takes := s.bget (aFold 2) 23 && s.genlocked h true
    t.heads[h].refEpoch = some s.fold.epoch ∧ (takes = true → t.heads[h].sinceRef = some 0) ∧
    (takes = false → t.heads[h] = { s.heads[h] with refEpoch := some s.fold.epoch }) := by
  have own := s.modHead_self h fun x => { x with refEpoch := some s.fold.epoch }
  obtain ⟨part, -⟩ := (s.modHead h fun x => { x with refEpoch := some s.fold.epoch }).refArrive_spec h
  simp only [refPart, own, Prod.mk.injEq] at part
  obtain ⟨since, epoch⟩ := part
  have still : RasterKept h s (s.modHead h fun x => { x with refEpoch := some s.fold.epoch }) := ⟨(congrArg rasterPart own).trans rfl, fun _ _ _ _ => rfl, rfl⟩
  unfold State.foldArrive
  dsimp only
  rw [still.genlocked, show ((s.modHead h fun x => { x with refEpoch := some s.fold.epoch }).bget (aFold 2) 23) = s.bget (aFold 2) 23 from rfl]
  cases s.bget (aFold 2) 23 && s.genlocked h true with
  | false => exact ⟨congrArg HeadSt.refEpoch own, fun c => absurd c (by decide), fun _ => own⟩
  | true => exact ⟨epoch, fun _ => since, fun c => absurd c (by decide)⟩

theorem foldFrameBoundary_completes (s : State) (due : s.foldDue = true) : Completes .foldFrameBoundary s fun t => ∀ g : Head,
      let takes := s.bget (aFold 2) 23 && s.genlocked g true
      t.heads[g].refEpoch = some s.fold.epoch ∧ (takes = true → t.heads[g].sinceRef = some 0) ∧
      (takes = false → t.heads[g] = { s.heads[g] with refEpoch := some s.fold.epoch }) := by
  have run : exec .foldFrameBoundary s = .next ((List.finRange 8).foldl State.foldArrive s) := by
    change execFoldFrameBoundary s = _
    unfold execFoldFrameBoundary
    rw [if_pos due]
    rfl
  refine ⟨_, run, fun g => ?_⟩
  obtain ⟨u, before, after⟩ := foldl_heads (F := State.foldArrive) (fun t x g ne => Elsewhere.foldArrive ne t) s g
  have spec := u.foldArrive_spec g
  dsimp only at spec ⊢
  rw [before.rasterKept.genlocked, before.fold, State.bget, before.valid, before.head] at spec
  rw [after.head]
  exact spec

end

end Sys2Proof.Machine

open Sys2Proof.Machine in
/-- Settles O38: the heads that take a reference take it one after the other, each apart from the rest; the other clauses are one head's. -/
theorem headReferences : Obligations.HeadReferences := by
  intro s h
  refine ⟨pllLock_completes, dotClockLockLoss_completes, referenceTimeout_completes, genlockIn_completes s, foldFrameBoundary_idle s,
    foldFrameBoundary_completes s, headFreeze_idle, fun ends => ?_⟩
  obtain ⟨both, last⟩ := Bool.and_eq_true_iff.1 ends
  obtain ⟨moves, asked⟩ := Bool.and_eq_true_iff.1 both
  exact headFreeze_completes (eq_of_beq moves) asked last

end

section
/-! Slots, LAYCTL and the tap setting of a head (O42). -/

namespace Sys2Proof.Machine

open Safety

/-! ### A head's registers -/

/-- The address of a head's register names it. -/
theorem locOf_aHead (h : Head) {off : Nat} (small : off < 64) : locOf (aHead h.val off) = .head h.val off := by
  have block : (aHead h.val off - 0xC40000) / 0x40 = h.val := by unfold aHead; omega
  have place : aHead h.val off % 0x40 = off := by unfold aHead; omega
  have low : 0xC40000 ≤ aHead h.val off := by unfold aHead; omega
  have high : aHead h.val off < 0xC40200 := by unfold aHead; omega
  generalize aHead h.val off = a at block place low high
  unfold locOf
  iterate 6 rw [if_neg (by omega)]
  rw [if_pos high, block, place]

/-- Two slots' registers are one when head and slot are. -/
theorem aHead_slot_ne {g h m n : Nat} (hm : m < 8) (hn : n < 8) (ne : ¬ (g = h ∧ m = n)) : aHead g (0x10 + m) ≠ aHead h (0x10 + n) := by
  unfold aHead
  omega

section
variable {s : State} {h : Head}

/-- A write of an enabled head's register by a requester with rights over it has its effect. -/
theorem State.gated_head {r : Requester} {off : Nat} (small : off < 64) (on : s.headOff h.val = false)
    (may : s.mayWrite r (locOf (aHead h.val off)) = true) (f : State → State) :
    s.gated r (aHead h.val off) f = f { s with rfault := false } :=
  s.gated_of_may (by rw [locOf_aHead h small]; exact on) may

/-- A direct write in a cycle in which none has landed has its effect alone. -/
theorem State.directly_fresh (fresh : s.cycNow = []) (r : Requester) (a : Nat) (v : Word) (put : State → Nat → Word → State) :
    s.directly r a v put = put s a v := by
  simp only [State.directly, fresh, List.isEmpty_nil, Bool.true_or, if_true]

/-- A read-write field's bits are the written ones (R7). -/
theorem bit_writeView_rw {fs : List Field} (apart : FieldsApart fs) {f : Field} (hf : f ∈ fs) (rw : f.acc = .rw) (old v : Word) {j : Nat}
    (h1 : f.lo ≤ j) (h2 : j ≤ f.hi) : bit (writeView fs old v) j = bit v j := by
  have small : j < 24 := by have := apart.1 f hf; omega
  simp [writeView, bit_not _ small, bit_maskOf_of_mem apart hf _ h1 h2, rw]

section
variable {α : Type} [DecidableEq α] (d : Nat → α) (m : List (Nat × α)) (k : Nat) (v w : α)

/-- A write leaves the entries below its key. -/
theorem spLow_spSet : spLow (spSet d m k v) k = spLow m k := by
  have apart (e : Nat × α) : ¬ (e.1 < k ∧ k < e.1) := by omega
  unfold spSet
  split <;> simp [spLow, spHigh, List.filter_filter, ← Bool.decide_and, apart]

/-- A write leaves the entries above its key. -/
theorem spHigh_spSet : spHigh (spSet d m k v) k = spHigh m k := by
  have apart (e : Nat × α) : ¬ (k < e.1 ∧ e.1 < k) := by omega
  unfold spSet
  split <;> simp [spLow, spHigh, List.filter_filter, ← Bool.decide_and, apart]

/-- Of two writes of one key the later stays. -/
theorem spSet_spSet : spSet d (spSet d m k v) k w = spSet d m k w := by
  rw [spSet, spLow_spSet, spHigh_spSet]
  rfl

end

theorem State.wr_wr (s : State) (a : Nat) (v w : Word) : (s.wr a v).wr a w = s.wr a w := by
  simp only [State.wr, spSet_spSet]

/-! ### A slot's register (R52, R73) -/

/-- What a write of v leaves of a SLOT register that held w: ENG is taken unless it is bad, EN becomes as given. -/
def slotLeft (w v : Word) (bad en : Bool) : Word :=
  let blended := putFld w 14 4 (fld v 14 4)
  putBit (if bad then blended else putFld blended 22 16 (fld v 22 16)) 23 en

theorem slotLeft_fields (w v : Word) (bad en : Bool) : let x := slotLeft w v bad en
    fld x 14 4 = fld v 14 4 ∧ fld x 22 16 = (if bad then fld w 22 16 else fld v 22 16) ∧ bit x 23 = en ∧ fld x 3 0 = fld w 3 0 := by
  have blend : fld v 14 4 < 2048 := fld_lt v 14 4
  have eng : fld v 22 16 < 128 := fld_lt v 22 16
  cases bad with
  | true => simp [slotLeft, fld_putBit_apart, fld_putFld_apart, fld_putFld, blend]
  | false => simp [slotLeft, fld_putBit_apart, fld_putFld_apart, fld_putFld, blend, eng]

-- Only the register of slot n of head h has changed: what other slots name, what is marked failed and the rotation stand.
section
variable {t : State} {n : Slot} (kept : WordsKept s t [aHead h.val (0x10 + n.val)])
include kept

theorem State.engBoundElse_kept (e : Nat) : t.engBoundElse h.val n.val e = s.engBoundElse h.val n.val e := by
  rw [Bool.eq_iff_iff]
  simp only [State.engBoundElse, List.any_eq_true, List.mem_range]
  refine exists_congr fun g => and_congr_right fun _ => exists_congr fun m => and_congr_right fun hm => ?_
  by_cases own : g = h.val ∧ m = n.val
  · simp [own]
  · have same : t.rd (aHead g (0x10 + m)) = s.rd (aHead g (0x10 + m)) := kept _ (by simpa using aHead_slot_ne hm n.isLt own)
    simp only [State.slotEn, State.engOf, State.bget, State.fget, same]

theorem State.engFailed_kept (e : Nat) : t.engFailed e = s.engFailed e := by
  have same : t.rd (aRot (4 + e / 24)) = s.rd (aRot (4 + e / 24)) := kept _ (by simp only [List.mem_singleton, aRot, aHead]; omega)
  simp only [State.engFailed, State.bget, same]

theorem State.rotStep_kept : t.rotStep = s.rotStep := by
  have same : t.rd (aRot 1) = s.rd (aRot 1) := kept _ (by simp only [List.mem_singleton, aRot, aHead]; omega)
  simp only [State.rotStep, State.fget, same]

end

/-- A write of ENG is refused (R52): no such engine, one that another enabled slot names, or one marked failed. -/
def State.engRefused (s : State) (h : Head) (n : Slot) (v : Word) : Bool :=
  decide (65 < fld v 22 16) || s.engBoundElse h.val n.val (fld v 22 16) || s.engFailed (fld v 22 16)

/-- The engine that the slot names once ENG is written. -/
def State.engTaken (s : State) (h : Head) (n : Slot) (v : Word) : Nat :=
  if s.engRefused h n v then s.engOf h.val n.val else fld v 22 16

/-- A write of EN is refused (R52): it enables a slot whose engine another enabled slot names, or is marked failed. -/
def State.enRefused (s : State) (h : Head) (n : Slot) (v : Word) : Bool :=
  bit v 23 && !s.slotEn h.val n.val && (s.engBoundElse h.val n.val (s.engTaken h n v) || s.engFailed (s.engTaken h n v))

theorem State.inRotation_idle (still : s.rotStep = 0) (e : Nat) : s.inRotation e = false := by simp [State.inRotation, still]

theorem State.engBad_idle (still : s.rotStep = 0) (on : s.headOff h.val = false) (n : Slot) (v : Word) :
    s.engBad h.val n.val (fld v 22 16) = s.engRefused h n v := by
  have model : (s.fuses.is2404 && decide (4 ≤ h.val)) = false := on
  simp [State.engBad, State.engRefused, State.inRotation_idle still, model]

/-- What is left of a slot's register by a write of v. -/
def State.slotWritten (s : State) (h : Head) (n : Slot) (v : Word) : Word :=
  slotLeft (s.rd (aHead h.val (0x10 + n.val))) v (s.engRefused h n v) (bit v 23 && !s.enRefused h n v)

/-- A write of SLOTn while no rotation runs: the register, CINV's mark, and the event of a refusal. -/
theorem State.slotPut_idle (still : s.rotStep = 0) (on : s.headOff h.val = false) (n : Slot) (v : Word) : s.slotPut h n v =
    let t := s.wr (aHead h.val (0x10 + n.val)) (s.slotWritten h n v)
    let u := if bit v 15 then t.modHead h fun x => { x with cinv := x.cinv ||| (1 <<< n.val) } else t
    if s.engRefused h n v || s.enRefused h n v then u.evHead h.val 2 else u := by
  have idle : ¬ (s.rotOn h.val n.val && (fld v 22 16 != s.engOf h.val n.val || !bit v 23)) = true := by simp [State.rotOn, still]
  unfold State.slotPut
  rw [if_neg idle]
  extract_lets a s0 bad s1 s2 e refuse s3 s4 t u
  have isBad : bad = s.engRefused h n v := State.engBad_idle still on n v
  let blended := putFld (s.rd a) 14 4 (fld v 14 4)
  have word : s2 = s.wr a (if bad then blended else putFld blended 22 16 (fld v 22 16)) := by
    cases e : bad <;> simp [s2, s1, s0, e, blended, State.fset, State.wr_wr]
  have kept : WordsKept s s2 [a] := fun b hb => by
    rw [word]
    exact State.rd_wr_ne _ _ (by simpa using hb)
  have names : e = s.engTaken h n v := by
    have eng : fld v 22 16 < 128 := fld_lt v 22 16
    rw [show e = fld (s2.rd a) 22 16 from rfl, word, State.rd_wr_same, isBad, State.engTaken]
    split
    · exact fld_putFld_apart _ _ (by decide) (by decide)
    · exact (fld_putFld _ _ (by decide) (by decide)).trans (Nat.mod_eq_of_lt eng)
  have isRefused : refuse = s.enRefused h n v := by
    simp only [refuse, s0, State.engBoundElse_kept kept, State.engFailed_kept kept, State.inRotation_idle ((State.rotStep_kept kept).trans still), Bool.or_false, names, State.enRefused]
  have left : s3 = t := by
    simp only [s3, State.bset, State.fset]
    rw [word, State.wr_wr, State.rd_wr_same, isBad, isRefused]
    rfl
  simp only [s4, u, left, isBad, isRefused]

/-- What a write of SLOTn does while no rotation runs. -/
theorem State.slotPut_spec (still : s.rotStep = 0) (on : s.headOff h.val = false) (n : Slot) (v : Word) :
    let a := aHead h.val (0x10 + n.val)
    let t := s.slotPut h n v
    let refused := s.engRefused h n v || s.enRefused h n v
    HeadOnly h [a] s t ∧ t.rd a = s.slotWritten h n v ∧
    t.heads[h] = { s.heads[h] with cinv := if bit v 15 then s.heads[h].cinv ||| (1 <<< n.val) else s.heads[h].cinv } ∧
    (refused = true → EventRaised s t (24 + h.val) [0x0B8, 0x0BC]) ∧ (refused = false → NoEvent s t) := by
  intro a t refused
  let w := s.wr a (s.slotWritten h n v)
  let u := if bit v 15 then w.modHead h fun x => { x with cinv := x.cinv ||| (1 <<< n.val) } else w
  have made : t = if refused then u.evHead h.val 2 else u := State.slotPut_idle still on n v
  have written : HeadOnly h [a] s w := (HeadOnly.refl h [a] s).wr _ List.mem_cons_self
  have only : HeadOnly h [a] s u := written.ite (written.modHead _)
  have word : u.rd a = s.slotWritten h n v := by
    refine Eq.trans ?_ (s.rd_wr_same a (s.slotWritten h n v))
    simp only [u]
    split <;> rfl
  have own : u.heads[h] = { s.heads[h] with cinv := if bit v 15 then s.heads[h].cinv ||| (1 <<< n.val) else s.heads[h].cinv } := by
    simp only [u]
    split
    · exact w.modHead_self h _
    · rfl
  have quiet : NoEvent s u := by
    simp only [u]
    split <;> exact ⟨rfl, rfl⟩
  rw [made]
  cases refused with
  | true => exact ⟨only.raiseCause _ _ _, (evHead_rd _ _ _ _).trans word, (congrArg (·[h]) (evHead_heads _ _ _)).trans own, fun _ => eventRaised_evHead quiet.1 h 2, nofun⟩
  | false => exact ⟨only, word, own, nofun, fun _ => quiet⟩

theorem slotWrite_completes {r : Requester} {n : Slot} {v : Word} (on : s.headOff h.val = false)
    (may : s.mayWrite r (locOf (aHead h.val (0x10 + n.val))) = true) (still : s.rotStep = 0) (fresh : s.cycNow = []) :
    let a := aHead h.val (0x10 + n.val)
    let bad := s.engRefused h n v
    let refuse := s.enRefused h n v
    Completes (.slotWrite r h n v) s fun t =>
      t.fget a 14 4 = fld v 14 4 ∧ t.fget a 22 16 = s.engTaken h n v ∧ t.bget a 23 = (bit v 23 && !refuse) ∧ t.fget a 3 0 = s.fget a 3 0 ∧
      ((bad || refuse) = true → EventRaised s t (24 + h.val) [0x0B8, 0x0BC]) ∧ ((bad || refuse) = false → NoEvent s t) ∧
      (∀ g : Head, g ≠ h → t.heads[g] = s.heads[g]) ∧ t.heads[h] = { s.heads[h] with cinv := t.heads[h].cinv } ∧
      t.heads[h].cinv = (if bit v 15 then s.heads[h].cinv ||| (1 <<< n.val) else s.heads[h].cinv) ∧
      WordsKept s t [a] ∧ t = { s with ws := t.ws, hw := t.hw, pcie := t.pcie, heads := t.heads, rfault := false } := by
  intro a bad refuse
  let u : State := { s with rfault := false }
  have run : exec (.slotWrite r h n v) s = .next (u.slotPut h n v) := by
    refine congrArg Host.Outcome.next ((State.gated_head (by omega) on may _).trans ?_)
    exact State.directly_fresh (s := u) fresh r a v fun t _ w => t.slotPut h n w
  obtain ⟨only, word, own, raised, quiet⟩ := State.slotPut_spec (s := u) still on n v
  obtain ⟨blend, eng, en, rest⟩ := slotLeft_fields (s.rd a) v bad (bit v 23 && !refuse)
  refine completes_of_eq run ⟨?_, ?_, ?_, ?_, raised, quiet, only.others, ?_, congrArg HeadSt.cinv own, only.words, only.only⟩
  · exact (congrArg (fld · 14 4) word).trans blend
  · exact (congrArg (fld · 22 16) word).trans eng
  · exact (congrArg (bit · 23) word).trans en
  · exact (congrArg (fld · 3 0) word).trans rest
  · rw [own]

/-! ### CINV and NSLOT (R51, R73) -/

/-- A bit set in a mask. -/
theorem getLsbD_setBit {w : Nat} (p : BitVec w) (n : Nat) {m : Nat} (small : m < w) :
    (p ||| ((1 <<< n : Nat) : BitVec w)).getLsbD m = (decide (m = n) || p.getLsbD m) := by
  have one : ((1 <<< n : Nat) : BitVec w).getLsbD m = decide (m = n) := by
    rw [BitVec.natCast_eq_ofNat, BitVec.getLsbD_ofNat, Nat.one_shiftLeft, Nat.testBit_two_pow]
    simp [small, eq_comm]
  rw [BitVec.getLsbD_or, one, Bool.or_comm]

theorem cinv_completes {r : Requester} {n : Slot} (on : s.headOff h.val = false) (may : s.mayWrite r (locOf (aHead h.val (0x10 + n.val))) = true) :
    Completes (.cinv r h n) s fun t =>
      (∀ m < 8, t.heads[h].cinv.getLsbD m = (decide (m = n.val) || s.heads[h].cinv.getLsbD m)) ∧
      t.heads[h] = { s.heads[h] with cinv := t.heads[h].cinv } ∧ (∀ g : Head, g ≠ h → t.heads[g] = s.heads[g]) ∧
      t = { s with heads := t.heads, rfault := false } := by
  let u : State := { s with rfault := false }
  have own := u.modHead_self h fun x => { x with cinv := x.cinv ||| (1 <<< n.val) }
  refine completes_of_eq (congrArg Host.Outcome.next (State.gated_head (by omega) on may _)) ⟨fun m hm => ?_, ?_, fun g ne => u.modHead_other _ ne, rfl⟩
  · exact (congrArg (fun x : HeadSt => x.cinv.getLsbD m) own).trans (getLsbD_setBit _ _ hm)
  · rw [own]

/-- A write of LAYCTL is ignored while the head runs, and for a number of slots that is not 2 to 8. -/
theorem nslotWrite_ignored {r : Requester} {v : Word} (on : s.headOff h.val = false) (may : s.mayWrite r (locOf (aHead h.val 0x18)) = true)
    (unfit : s.bget (aHead h.val 0) 23 = true ∨ fld v 23 20 < 2 ∨ 8 < fld v 23 20) :
    Completes (.nslotWrite r h v) s fun t => t = { s with rfault := false } := by
  refine completes_of_eq (congrArg Host.Outcome.next ((State.gated_head (by decide) on may _).trans (if_pos ?_))) rfl
  rw [Bool.or_eq_true, decide_eq_true_eq]
  exact unfit

theorem nslotWrite_completes {r : Requester} {v : Word} (on : s.headOff h.val = false) (may : s.mayWrite r (locOf (aHead h.val 0x18)) = true)
    (still : s.rotStep = 0) (stands : s.bget (aHead h.val 0) 23 = false) (low : 2 ≤ fld v 23 20) (high : fld v 23 20 ≤ 8) :
    Completes (.nslotWrite r h v) s fun t =>
      t.fget (aHead h.val 0x18) 23 20 = fld v 23 20 ∧ WordsKept s t [aHead h.val 0x18] ∧ t = { s with ws := t.ws, rfault := false } := by
  let u : State := { s with rfault := false }
  have taken : u.layctlPut h v = u.put (aHead h.val 0x18) v := by
    have fits : ¬ (u.bget (aHead h.val 0) 23 || decide (fld v 23 20 < 2 ∨ 8 < fld v 23 20)) = true := by
      simp [show u.bget (aHead h.val 0) 23 = false from stands, show 1 < fld v 23 20 from low, high]
    have idle : ¬ (u.rotStep != 0 && u.repair.rotHead == h.val && fld v 23 20 != u.fget (aHead h.val 0x18) 23 20) = true := by
      simp [show u.rotStep = 0 from still]
    unfold State.layctlPut
    rw [if_neg fits, if_neg idle]
  refine completes_of_eq (congrArg Host.Outcome.next ((State.gated_head (by decide) on may _).trans taken)) ⟨?_, fun a ha => u.rd_wr_ne _ (by simpa using ha), rfl⟩
  have field := fld_writeView (fs := [⟨"NSLOT", 23, 20, .rw, 8⟩]) (by simp [FieldsApart]) List.mem_cons_self (u.rd (aHead h.val 0x18)) v
  rw [State.fget, State.put, State.rd_wr_same, locOf_aHead h (by decide)]
  exact field

/-! ### The tap setting (R104) -/

/-- What TAPCTL asks for. -/
def tapAsked (v : Word) : TapSet := { en := bit v 23, pad := fld v 22 19, lat := fld v 18 9 }

/-- A write of TAPCTL is refused: TLAT below 4, a paddock disabled by fuse, or a tap port that another head holds. -/
def State.tapRefused (s : State) (h : Head) (v : Word) : Bool :=
  decide ((tapAsked v).lat < 4) || s.padOff (tapAsked v).pad || ((tapAsked v).en && s.tapHeld h (tapAsked v).pad)

theorem State.tapHeld_eq (s : State) (h : Head) (p : Nat) : s.tapHeld h p = (List.finRange 8).any fun g => g != h &&
    ((s.heads[g].tap.en && s.heads[g].tap.pad == p) || (s.heads[g].tapNext.any fun t => t.en && t.pad == p) ||
      (s.heads[g].tapThen.any fun t => t.en && t.pad == p)) := by
  simp [State.tapHeld, Bool.or_assoc]

theorem tapctlWrite_refused {r : Requester} {v : Word} (on : s.headOff h.val = false) (may : s.mayWrite r (locOf (aHead h.val 0x1E)) = true)
    (refused : s.tapRefused h v = true) : Completes (.tapctlWrite r h v) s fun t =>
      EventRaised s t (16 + h.val) [] ∧ t = { s with hw := t.hw, pcie := t.pcie, rfault := false } := by
  let u : State := { s with rfault := false }
  have ignored : u.tapctlPut h v = u.raise (16 + h.val) := if_pos refused
  exact completes_of_eq (congrArg Host.Outcome.next ((State.gated_head (by decide) on may _).trans ignored))
    ⟨eventRaised_raise rfl (by omega), u.raise_eq _⟩

/-- TEN, TPAD and TLAT are written. -/
theorem fld_tapctl (h : Head) (old v : Word) : fld (writeView (fieldsOf (locOf (aHead h.val 0x1E))) old v) 23 9 = fld v 23 9 := by
  rw [locOf_aHead h (by decide)]
  have apart : FieldsApart (headFields h.val 0x1E) := by simp [headFields, FieldsApart]
  refine fld_congr fun j low high => ?_
  rcases (by omega : j ≤ 18 ∨ (19 ≤ j ∧ j ≤ 22) ∨ 23 ≤ j) with lat | ⟨pad, pad'⟩ | en
  · exact bit_writeView_rw apart (f := ⟨"TLAT", 18, 9, .rw, 0x10⟩) (by simp [headFields]) rfl old v low lat
  · exact bit_writeView_rw apart (f := ⟨"TPAD", 22, 19, .rw, 0⟩) (by simp [headFields]) rfl old v pad pad'
  · exact bit_writeView_rw apart (f := ⟨"TEN", 23, 23, .rw, 0⟩) (by simp [headFields]) rfl old v en high

/-- ACTIVE does not depend on FORCED. -/
theorem State.active_forced (s : State) (h : Head) (b : Bool) : (s.bset (aHead h.val 0x36) 22 b).bget (aHead h.val 0x36) 23 = s.bget (aHead h.val 0x36) 23 := by
  rw [State.bget, State.bset_rd, if_pos rfl, bit_putBit _ _ (by decide)]
  rfl

/-- A setting comes into force, and ACTIVE follows. -/
theorem State.tapAdopt_spec (s : State) (h : Head) (x : TapSet) : let t := s.tapAdopt h x
    t.heads[h].tap = x ∧ t.bget (aHead h.val 0x36) 23 = x.en ∧ HeadOnly h [aHead h.val 0x36] s t ∧ NoEvent s t := by
  refine ⟨congrArg HeadSt.tap (s.modHead_self h _), ?_, ?_, rfl, rfl⟩
  · refine (State.active_forced _ h _).trans ?_
    rw [State.bget, State.bset_rd, if_pos rfl, bit_putBit_same _ _ (by decide)]
  · exact (((HeadOnly.refl h _ s).modHead _).wr _ List.mem_cons_self).wr _ List.mem_cons_self

/-- TAPCTL taken, and a bypass that no swap of the tapped paddock causes ended (R107, R210). -/
def State.tapTaken (s : State) (h : Head) (v : Word) : State :=
  let t := s.put (aHead h.val 0x1E) v
  if t.heads[h].tap.en && t.swapping t.heads[h].tap.pad then t else t.bset (aHead h.val 0x36) 22 false

theorem State.tapTaken_spec (s : State) (h : Head) (v : Word) : let t := s.tapTaken h v
    t.fget (aHead h.val 0x1E) 23 9 = fld v 23 9 ∧ t.bget (aHead h.val 0x36) 23 = s.bget (aHead h.val 0x36) 23 ∧ t.heads = s.heads ∧ NoEvent s t ∧
      HeadOnly h [aHead h.val 0x1E, aHead h.val 0x36] s t := by
  intro t
  let p := s.put (aHead h.val 0x1E) v
  have field : p.fget (aHead h.val 0x1E) 23 9 = fld v 23 9 :=
    (congrArg (fld · 23 9) (s.rd_wr_same _ _)).trans (fld_tapctl h _ v)
  have other : aHead h.val 0x36 ≠ aHead h.val 0x1E := by simp [aHead]
  have active : p.bget (aHead h.val 0x36) 23 = s.bget (aHead h.val 0x36) 23 := congrArg (bit · 23) (s.rd_wr_ne _ other)
  have only : HeadOnly h [aHead h.val 0x1E, aHead h.val 0x36] s p := (HeadOnly.refl h _ s).wr _ List.mem_cons_self
  unfold t State.tapTaken
  dsimp only
  split
  · exact ⟨field, active, rfl, ⟨rfl, rfl⟩, only⟩
  · refine ⟨?_, (p.active_forced h false).trans active, rfl, ⟨rfl, rfl⟩, only.wr _ (by simp)⟩
    exact (congrArg (fld · 23 9) (p.rd_wr_ne _ other.symm)).trans field

theorem State.tapctlPut_eq {v : Word} (accepted : s.tapRefused h v = false) : s.tapctlPut h v =
    let t := s.tapTaken h v
    if t.heads[h].phase = .stopped then t.tapAdopt h (tapAsked v)
    else if s.tapNear h (tapAsked v) then t.modHead h fun x => { x with tapThen := some (tapAsked v) }
    else t.modHead h fun x => { x with tapNext := some (tapAsked v), tapThen := none } :=
  if_neg (ne_true_of_eq_false accepted)

/-- What an accepted write of TAPCTL leaves: the register, and the setting in force or waiting. -/
structure TapAccepted (s t : State) (h : Head) (v : Word) : Prop where
  field : t.fget (aHead h.val 0x1E) 23 9 = fld v 23 9
  quiet : NoEvent s t
  only : HeadOnly h [aHead h.val 0x1E, aHead h.val 0x36] s t
  stopped : s.heads[h].phase = .stopped → t.heads[h].tap = tapAsked v ∧ t.bget (aHead h.val 0x36) 23 = (tapAsked v).en
  moving : s.heads[h].phase ≠ .stopped → t.heads[h].tap = s.heads[h].tap ∧ t.bget (aHead h.val 0x36) 23 = s.bget (aHead h.val 0x36) 23 ∧
    (t.heads[h].tapNext = some (tapAsked v) ∨ t.heads[h].tapThen = some (tapAsked v))

theorem TapAccepted.inForce (stopped : s.heads[h].phase = .stopped) (v : Word) :
    TapAccepted s ((s.tapTaken h v).tapAdopt h (tapAsked v)) h v := by
  obtain ⟨field, -, -, quiet, only⟩ := s.tapTaken_spec h v
  obtain ⟨force, follows, adopts, silent⟩ := (s.tapTaken h v).tapAdopt_spec h (tapAsked v)
  refine ⟨?_, ⟨silent.1.trans quiet.1, silent.2.trans quiet.2⟩, only.trans (adopts.mono (by simp)), fun _ => ⟨force, follows⟩, fun moves => absurd stopped moves⟩
  exact (congrArg (fld · 23 9) (adopts.words _ (by simp [aHead]))).trans field

theorem TapAccepted.waiting (moves : s.heads[h].phase ≠ .stopped) (v : Word) {f : HeadSt → HeadSt} (keeps : ∀ x, (f x).tap = x.tap)
    (waits : ∀ x, (f x).tapNext = some (tapAsked v) ∨ (f x).tapThen = some (tapAsked v)) : TapAccepted s ((s.tapTaken h v).modHead h f) h v := by
  obtain ⟨field, active, heads, quiet, only⟩ := s.tapTaken_spec h v
  refine ⟨field, quiet, only.modHead f, fun stopped => absurd stopped moves, fun _ => ⟨?_, active, ?_⟩⟩
  · rw [State.modHead_self, keeps, heads]
  · rw [State.modHead_self]
    exact waits _

theorem State.tapctlPut_accepted {v : Word} (accepted : s.tapRefused h v = false) : TapAccepted s (s.tapctlPut h v) h v := by
  rw [State.tapctlPut_eq accepted]
  obtain ⟨-, -, heads, -⟩ := s.tapTaken_spec h v
  dsimp only
  rw [heads]
  split
  case isTrue stopped => exact .inForce stopped v
  case isFalse moves =>
    split
    · exact .waiting moves v (fun _ => rfl) fun _ => .inr rfl
    · exact .waiting moves v (fun _ => rfl) fun _ => .inl rfl

theorem tapctlWrite_accepted {r : Requester} {v : Word} (on : s.headOff h.val = false) (may : s.mayWrite r (locOf (aHead h.val 0x1E)) = true)
    (accepted : s.tapRefused h v = false) : Completes (.tapctlWrite r h v) s fun t =>
      t.fget (aHead h.val 0x1E) 23 9 = fld v 23 9 ∧ NoEvent s t ∧ (∀ g : Head, g ≠ h → t.heads[g] = s.heads[g]) ∧
      (s.heads[h].phase = .stopped → t.heads[h].tap = tapAsked v ∧ t.bget (aHead h.val 0x36) 23 = (tapAsked v).en) ∧
      (s.heads[h].phase ≠ .stopped → t.heads[h].tap = s.heads[h].tap ∧ t.bget (aHead h.val 0x36) 23 = s.bget (aHead h.val 0x36) 23 ∧
        (t.heads[h].tapNext = some (tapAsked v) ∨ t.heads[h].tapThen = some (tapAsked v))) ∧
      WordsKept s t [aHead h.val 0x1E, aHead h.val 0x36] ∧ t = { s with ws := t.ws, heads := t.heads, rfault := false } := by
  let u : State := { s with rfault := false }
  obtain ⟨field, quiet, only, stopped, moves⟩ := State.tapctlPut_accepted (s := u) accepted
  refine completes_of_eq (congrArg Host.Outcome.next (State.gated_head (by decide) on may _)) ⟨field, quiet, only.others, stopped, moves, only.words, ?_⟩
  have whole := only.only
  rwa [quiet.1, quiet.2] at whole

end

end Sys2Proof.Machine

open Sys2Proof.Machine in
/-- Settles O42: a write with rights is the register's own rule (`State.slotPut_spec`, `State.layctlPut`, `State.tapctlPut_accepted`), which
changes the words and the head that it names. -/
theorem layerAndTapRegisters : Obligations.LayerAndTapRegisters := by
  refine ⟨fun s r h n v => slotWrite_completes, fun s r h on => ⟨fun n may => cinv_completes on may, fun v may still =>
    ⟨fun unfit => nslotWrite_ignored on may unfit, fun stands low high => nslotWrite_completes on may still stands low high⟩⟩, ?_⟩
  intro s r h v a on may set held refused
  have same : refused = s.tapRefused h v := by
    rw [State.tapRefused, State.tapHeld_eq]
    rfl
  rw [same]
  exact ⟨fun isRefused => tapctlWrite_refused on may isRefused, fun accepted => tapctlWrite_accepted on may accepted⟩

end

section
/-! A quad that its paddock returns after it has left (O45). -/

namespace Sys2Proof.Machine

open Safety

/-- A quad returned that is not the oldest one awaited, but one that has left as composed, is late: TAGERR does not count it (log entry 118). -/
theorem State.tapTake_late {s : State} {h : Head} {p : Pad} {tag : Word} {d : List Word}
    (stray : (s.heads[h].tapSent.find? fun e => e.1 == p.val).map (·.2) ≠ some tag) (late : s.heads[h].tapOld.contains (p.val, tag) = true) (a : Nat) :
    (s.tapTake h p tag d).rd a = s.rd a := by
  have left : (s.tapStray h p tag).rd a = s.rd a := by
    unfold State.tapStray
    rw [if_pos late, State.modHead_rd]
  unfold State.tapTake
  split
  case h_1 e oldest =>
    rw [oldest] at stray
    rwa [if_neg fun same => stray (congrArg some same)]
  case h_2 => exact left

theorem tapReturn_late {s : State} {h : Head} {p : Pad} (owner : s.tapOwner p.val = some h) (fresh : s.pads[p].acted.contains 2030 = false)
    (clocked : s.clocked p.val = true) (valid : bit (s.portSink p.val 5) 23 = true)
    (stray : (s.heads[h].tapSent.find? fun e => e.1 == p.val).map (·.2) ≠ some (s.portSink p.val 6))
    (late : s.heads[h].tapOld.contains (p.val, s.portSink p.val 6) = true) : Completes (.tapReturn p) s fun t => ∀ a, t.rd a = s.rd a := by
  have run : exec (.tapReturn p) s =
      .next ((s.tapTake h p (s.portSink p.val 6) ((List.range 4).map fun i => s.portSink p.val (7 + i))).didAct p 2030) := by
    change execTapReturn p s = _
    have same : s.freshCycle p 2030 = s := if_neg (ne_true_of_eq_false fresh)
    simp only [execTapReturn, same, owner, clocked, valid, Bool.and_self, if_true]
  exact completes_of_eq run fun a => (State.modPad_rd _ _ _ a).trans (State.tapTake_late stray late a)

/-- Paddock 15 runs, and its design returns a quad with tag 0 to head 7, whose tap awaits none: the quad with that tag has left as composed. -/
def lateReturn : State :=
  let s := (State.reset.wr (aPad 15 1) 0x800000).wr (aPad 15 0) 0x800000
  let designed := s.modPad 15 fun x => { x with cfg := [(96 * 796 + 5, 0x406)], src := [(0x406, 0x800000)] }
  designed.modHead 7 fun x => { x with tap := { en := true, pad := 15, lat := 4 }, tapOld := [(15, 0)] }

end Sys2Proof.Machine

open Sys2Proof Sys2Proof.Machine in
/-- Refutes O45: its last clause has TAGERR count each quad whose tag is not that of the oldest one awaited. One that has already left as
composed is late and not wrongly tagged (R106, log entry 118): TAGERR stays, and the quad leaves the list of those that have left. -/
theorem not_pixelTap : ¬ Obligations.PixelTap := by
  intro h
  obtain ⟨-, returns⟩ := h lateReturn 7
  have owner : lateReturn.tapOwner (15 : Pad).val = some 7 := by decide +kernel
  have fresh : lateReturn.pads[(15 : Pad)].acted.contains 2030 = false := by decide +kernel
  have clocked : lateReturn.clocked (15 : Pad).val = true := by decide +kernel
  have valid : bit (lateReturn.portSink (15 : Pad).val 5) 23 = true := by decide +kernel
  have stray : (lateReturn.heads[(7 : Head)].tapSent.find? fun e => e.1 == (15 : Pad).val).map (·.2) ≠ some (lateReturn.portSink (15 : Pad).val 6) := by
    decide +kernel
  obtain ⟨-, wrong⟩ := returns 15 owner fresh clocked valid
  obtain ⟨t, run, counted, -⟩ := wrong stray
  obtain ⟨u, run', kept⟩ := tapReturn_late owner fresh clocked valid stray (by decide +kernel)
  obtain rfl : t = u := Host.Outcome.next.inj (run.symm.trans run')
  have stands : t.fget (aHead 7 0x36) 7 0 = lateReturn.fget (aHead 7 0x36) 7 0 := congrArg (fld · 7 0) (kept _)
  exact absurd (stands.symm.trans counted) (by decide +kernel)

end

section
/-! The record that a millisecond awaits (O46). -/

namespace Sys2Proof.Machine

/-- A record of an ended frame is awaited no longer once it is written (R295). -/
theorem State.writeRecord_cae {s : State} {h : Head} {r : SigRec} {rest : List SigRec} (closed : s.heads[h].closed = r :: rest) (ended : r.ended = true) :
    (s.writeRecord h).cae.msOpen = s.cae.msOpen.map fun m => m.settle (h.val, r.frame) (s.recordLate r) := by
  unfold State.writeRecord
  simp only [closed, ended, if_true, State.evSig, State.raise_cae, State.recordSettled]
  split <;> rfl

/-- Head 0 has closed the record of an ended frame, frame 9. -/
def endedRecord : SigRec :=
  { frame := 9, flags := 0, misses := 0, regmask := 0, taplines := 0, fcrc := 0, rcrc := List.replicate 16 0, keyed := false, due := 1024, ended := true }

/-- A millisecond of the ledger that awaits that record alone. -/
def awaitsRecord : MsRec := { maint := false, live := true, safe := false, wait := 0, recs := [(0, 9)], cause := 0, planned := false }

/-- The record is about to be written. -/
def awaitedRecord : State :=
  let s := State.reset.modHead 0 fun x => { x with closed := [endedRecord] }
  { s with cae := { s.cae with msOpen := [awaitsRecord] } }

end Sys2Proof.Machine

open Sys2Proof Sys2Proof.Machine in
/-- Refutes O46: its frame keeps the ledger. Of a frame that has ended, the record written is awaited no longer by the open milliseconds that
the frame overlapped (R295), which Caeruno's state holds. -/
theorem not_signatureRing : ¬ Obligations.SignatureRing := by
  intro h
  have closed : awaitedRecord.heads[(0 : Head)].closed = [endedRecord] := rfl
  obtain ⟨-, written⟩ := h awaitedRecord 0
  obtain ⟨t, run, -, -, -, -, -, -, -, -, frame⟩ := written endedRecord [] closed rfl
  obtain rfl : awaitedRecord.writeRecord 0 = t := Host.Outcome.next.inj run
  have kept : (awaitedRecord.writeRecord 0).cae.msOpen = [awaitsRecord] := congrArg (fun t : State => t.cae.msOpen) frame
  rw [State.writeRecord_cae closed rfl] at kept
  exact absurd kept (by decide)

end

section
/-! The video stream of an output that goes off (O47). -/

namespace Sys2Proof.Machine

theorem State.linkUp_off {s : State} {h : Nat} (off : s.bget (aHead h 0x30) 23 = false) : s.linkUp h = false :=
  Bool.and_eq_false_imp.2 fun on => absurd on (ne_true_of_eq_false off)

theorem State.outputOff_streaming (s : State) (h : Head) : (s.outputOff h).heads[h].streaming = false := by
  let t := (s.bset (aHead h.val 0x30) 23 false).fset (aHead h.val 0x31) 20 17 0
  have down : t.linkUp h.val = false := by
    refine State.linkUp_off ?_
    rw [State.bget, State.fset_rd, if_neg (by simp [aHead]), State.bset_rd, if_pos rfl, bit_putBit_same _ _ (by decide)]
  have breaks : (t.linkTrack h).heads[h].streaming = (t.heads[h].streaming && t.linkUp h.val) := congrArg HeadSt.streaming (State.modHead_self _ h _)
  rw [State.outputOff, breaks, down, Bool.and_false]

/-- Head 0's DisplayPort output streams video over a trained link. -/
def streamsVideo : State :=
  let s := ((State.reset.wr (aHead 0 0x30) 0x800000).wr (aHead 0 0x31) 0xC00000).wr (aHead 0 0x32) 0x002000
  s.modHead 0 fun x => { x with streaming := true }

end Sys2Proof.Machine

open Sys2Proof Sys2Proof.Machine in
/-- Refutes O47: its frame of OEN written to 0 lets no part of the head's state but the note of a lost LVDS pin change. The output that goes off
takes LINKUP to 0, and the video stream in progress breaks off, to resume at a line 0 alone (R116). -/
theorem not_outputStates : ¬ Obligations.OutputStates := by
  intro h
  obtain ⟨heads, -⟩ := h
  obtain ⟨-, -, disables⟩ := heads streamsVideo 0
  obtain ⟨t, run, -, -, -, -, -, -, -, -, -, -, head, -⟩ := disables rfl
  obtain rfl : streamsVideo.outputOff 0 = t := Host.Outcome.next.inj run
  have kept : (streamsVideo.outputOff 0).heads[(0 : Head)].streaming = true := congrArg HeadSt.streaming head
  exact absurd ((State.outputOff_streaming _ _).symm.trans kept) (by decide)

end

section
/-! The scheduler's registers (R136, R139 to R141): who writes them, and what a write leaves there. -/

namespace Sys2Proof.Machine

open Safety

/-! ### Words written field by field -/

section
variable {fs : List Field} (apart : FieldsApart fs)
include apart

/-- Bits that read-write fields hold are the written ones (R7). -/
theorem fld_writeView_covered {hi lo : Nat} (high : hi < 24) (covered : ∀ j < 24, lo ≤ j → j ≤ hi → ∃ f ∈ fs, f.acc = .rw ∧ f.lo ≤ j ∧ j ≤ f.hi)
    (old v : Word) : fld (writeView fs old v) hi lo = fld v hi lo := by
  refine fld_congr fun j low small => ?_
  obtain ⟨f, hf, rw, h1, h2⟩ := covered j (by omega) low small
  exact bit_writeView_rw apart hf rw old v h1 h2

/-- A register of which every bit is read-write holds what is written. -/
theorem writeView_covered (covered : ∀ j < 24, ∃ f ∈ fs, f.acc = .rw ∧ f.lo ≤ j ∧ j ≤ f.hi) (old v : Word) : writeView fs old v = v := by
  refine word_ext fun j small => ?_
  obtain ⟨f, hf, rw, h1, h2⟩ := covered j small
  exact bit_writeView_rw apart hf rw old v h1 h2

end

/-! ### Addresses and rights -/

/-- The scheduler has a register at the offset. -/
abbrev DramNamed (off : Nat) : Prop := off < 5 ∨ (8 ≤ off ∧ off < 0xC) ∨ (0x10 ≤ off ∧ off < 0x28)

/-- The address of a scheduler register names it. -/
theorem locOf_aDram {off : Nat} (named : DramNamed off) : locOf (aDram off) = .dramReg off := by
  have place : aDram off - 0xC60000 = off := by unfold aDram; omega
  have low : aDram off % 0x100 = off := by unfold aDram DramNamed at *; omega
  have least : 0xC60000 ≤ aDram off := by unfold aDram; omega
  have high : aDram off < 0xC60028 := by unfold aDram DramNamed at *; omega
  generalize aDram off = a at place low least high
  unfold locOf
  iterate 23 rw [if_neg (by omega)]
  rw [if_pos high, if_pos (by unfold DramNamed at named; omega), place]

/-- Rights over the scheduler's registers are the same for all of them (R382). -/
theorem State.mayWrite_dramReg (s : State) (r : Requester) (off : Nat) : s.mayWrite r (.dramReg off) = s.mayWrite r (.dramReg 0) := by
  cases r <;> rfl

theorem dramFields_apart (off : Nat) : FieldsApart (dramFields off) := by
  unfold dramFields
  split
  case h_6 =>
    split
    · simp [FieldsApart, wordRO]
    · split
      · split <;> simp [FieldsApart]
      · simp [FieldsApart]
  all_goals simp [FieldsApart]

section
variable {s : State} {r : Requester} {v : Word}

/-- A write of a scheduler register by a requester with rights has its effect. -/
theorem State.gated_dram {off : Nat} (named : DramNamed off) (may : s.mayWrite r (.dramReg 0) = true) (f : State → State) :
    s.gated r (aDram off) f = f { s with rfault := false } :=
  s.gated_of_may (by rw [locOf_aDram named]; rfl) (by rw [locOf_aDram named, State.mayWrite_dramReg, may])

theorem State.put_dram (s : State) {off : Nat} (named : DramNamed off) (v : Word) :
    s.put (aDram off) v = s.wr (aDram off) (writeView (dramFields off) (s.rd (aDram off)) v) := by
  rw [State.put, locOf_aDram named]
  rfl

/-! ### What a write leaves -/

/-- The register at a, and nothing else, has been written, and no event raised. -/
def RegisterTakes (s t : State) (a : Nat) : Prop := NoEvent s t ∧ WordsKept s t [a] ∧ t = { s with ws := t.ws, rfault := false }

/-- The write has been refused: the registers keep, and the DRAM event is raised. -/
def RegisterRefuses (s t : State) : Prop := EventRaised s t 34 [] ∧ t = { s with hw := t.hw, pcie := t.pcie, rfault := false }

theorem State.wr_takes (s : State) (a : Nat) (w : Word) : RegisterTakes s (({ s with rfault := false } : State).wr a w) a :=
  ⟨⟨rfl, rfl⟩, fun _ ha => State.rd_wr_ne _ w (by simpa using ha), rfl⟩

theorem State.evDram_refuses (s : State) : RegisterRefuses s ({ s with rfault := false } : State).evDram :=
  ⟨eventRaised_raise rfl (by decide), State.raise_eq _ _⟩

/-! ### DRCFG and SHARE (R139, R141) -/

theorem drcfgWrite_ignored (may : s.mayWrite r (.dramReg 0) = true) (ignored : s.bget (aDram 1) 23 = true ∨ fld v 23 22 = 3 ∨ 4 < fld v 21 19) :
    Completes (.drcfgWrite r v) s fun t => t = { s with rfault := false } := by
  refine completes_of_eq (congrArg Host.Outcome.next ((State.gated_dram (by decide) may _).trans (if_pos ?_))) rfl
  simp only [Bool.or_eq_true, beq_iff_eq, decide_eq_true_eq, or_assoc]
  exact ignored

theorem drcfgWrite_taken (may : s.mayWrite r (.dramReg 0) = true) (undone : s.bget (aDram 1) 23 = false) (nch : fld v 23 22 ≠ 3) (cap : fld v 21 19 ≤ 4) :
    Completes (.drcfgWrite r v) s fun t => t.fget (aDram 0) 23 19 = fld v 23 19 ∧ RegisterTakes s t (aDram 0) := by
  let u : State := { s with rfault := false }
  have taken : u.drcfgPut v = u.put (aDram 0) v := by
    refine if_neg ?_
    simp [show u.bget (aDram 1) 23 = false from undone, nch, cap]
  rw [u.put_dram (by decide)] at taken
  refine completes_of_eq (congrArg Host.Outcome.next ((State.gated_dram (by decide) may _).trans taken)) ⟨?_, s.wr_takes _ _⟩
  rw [State.fget, State.rd_wr_same]
  exact fld_writeView_covered (dramFields_apart 0) (by decide) (by decide) _ v

theorem shareWrite_refused (may : s.mayWrite r (.dramReg 0) = true) (large : 128 < fld v 23 16 + fld v 15 8 + fld v 7 0) :
    Completes (.shareWrite r v) s (RegisterRefuses s) :=
  completes_of_eq (congrArg Host.Outcome.next ((State.gated_dram (by decide) may _).trans (if_pos large))) s.evDram_refuses

theorem shareWrite_taken (may : s.mayWrite r (.dramReg 0) = true) (fits : fld v 23 16 + fld v 15 8 + fld v 7 0 ≤ 128) :
    Completes (.shareWrite r v) s fun t => t.rd (aDram 3) = v ∧ RegisterTakes s t (aDram 3) := by
  let u : State := { s with rfault := false }
  have taken : u.sharePut v = u.wr (aDram 3) v := by
    rw [State.sharePut, if_neg (by omega), u.put_dram (by decide), writeView_covered (dramFields_apart 3) (by decide)]
  exact completes_of_eq (congrArg Host.Outcome.next ((State.gated_dram (by decide) may _).trans taken)) ⟨State.rd_wr_same _ _ _, s.wr_takes _ _⟩

end

end Sys2Proof.Machine
end

section
/-! Tags of reads (R131, R140): what giving tags out changes of a channel's reads, and which reads still wait after it. -/

namespace Sys2Proof.Machine

open Safety

/-! ### A read takes a tag -/

/-- y is the read x, with a tag that it may have taken. -/
def TakesTag (x y : DRead) : Prop := { x with tag := false, no := 0 } = { y with tag := false, no := 0 } ∧ (x.tag = true → y = x)

theorem TakesTag.refl (x : DRead) : TakesTag x x := ⟨rfl, fun _ => rfl⟩

theorem TakesTag.trans {x y z : DRead} (p : TakesTag x y) (q : TakesTag y z) : TakesTag x z :=
  ⟨p.1.trans q.1, fun tag => by obtain rfl := p.2 tag; exact q.2 tag⟩

theorem TakesTag.cls {x y : DRead} (p : TakesTag x y) : y.cls = x.cls := (congrArg DRead.cls p.1).symm

theorem TakesTag.tag {x y : DRead} (p : TakesTag x y) (tag : x.tag = true) : y.tag = true := by rwa [p.2 tag]

/-- The reads of a channel after some may have taken tags. -/
abbrev TagsGiven : List DRead → List DRead → Prop := List.Forall₂ TakesTag

theorem TagsGiven.refl (l : List DRead) : TagsGiven l l := List.forall₂_same.2 fun x _ => TakesTag.refl x

theorem TagsGiven.trans {l m n : List DRead} (p : TagsGiven l m) (q : TagsGiven m n) : TagsGiven l n := by
  induction p generalizing n with
  | nil => exact q
  | cons hxy _ ih =>
    obtain ⟨hyz, q⟩ | _ := q
    exact .cons (hxy.trans ‹_›) (ih ‹_›)

/-- What holds of a read and of it with a tag holds of no fewer reads after tags are given out. -/
theorem TagsGiven.countP_le {l m : List DRead} (given : TagsGiven l m) {p : DRead → Bool} (keeps : ∀ x y, TakesTag x y → p x = true → p y = true) :
    l.countP p ≤ m.countP p := by
  induction given with
  | nil => exact Nat.le_refl _
  | @cons x y l m hxy _ ih =>
    rw [List.countP_cons, List.countP_cons]
    cases holds : p x with
    | false => simpa using ih.trans (Nat.le_add_right _ _)
    | true => simpa [keeps x y hxy holds] using ih

/-! ### Tags that are free -/

section
variable {s : State} {l m : List DRead}

/-- Tags given out leave none free that was not (R131, R140). -/
theorem TagsGiven.tagFree (given : TagsGiven l m) {cls : Nat} (none : s.tagFree l cls = false) : s.tagFree m cls = false := by
  have holds (c : Nat) : held l c ≤ held m c := by
    unfold held
    rw [← List.countP_eq_length_filter, ← List.countP_eq_length_filter]
    refine given.countP_le fun x y p hx => ?_
    rw [Bool.and_eq_true] at hx ⊢
    exact ⟨p.tag hx.1, by rw [p.cls, hx.2]⟩
  have all : (l.filter (·.tag)).length ≤ (m.filter (·.tag)).length := by
    rw [← List.countP_eq_length_filter, ← List.countP_eq_length_filter]
    exact given.countP_le fun x y p hx => p.tag hx
  have h1 := holds 1
  have h2 := holds 2
  have h3 := holds 3
  have h4 := holds 4
  have h := holds cls
  rw [← Bool.not_eq_true] at none ⊢
  simp only [State.tagFree, List.map_cons, List.map_nil, List.sum_cons, List.sum_nil, Bool.and_eq_true, Bool.or_eq_true, decide_eq_true_eq] at none ⊢
  omega

/-- Which tags are free follows from TAGRES (R140). -/
theorem State.tagFree_congr {t : State} (h : t.rd (aDram 2) = s.rd (aDram 2)) : t.tagFree = s.tagFree := by
  have reserve : t.tagRes = s.tagRes := by
    funext cls
    rw [State.tagRes, State.fget, h]
    rfl
  funext l cls
  simp only [State.tagFree, reserve]

theorem State.tagAll_congr {t : State} (h : t.rd (aDram 2) = s.rd (aDram 2)) : t.tagAll = s.tagAll := by
  have first : t.tagFirst = s.tagFirst := by
    funext cls l
    simp only [State.tagFirst, State.tagFree_congr h]
  funext l
  simp only [State.tagAll, first]

/-! ### The first waiting read of a class -/

/-- Reads of a class that wait for a tag. -/
def waits (cls : Nat) (l : List DRead) : Nat := l.countP fun r => !r.tag && r.cls == cls

/-- Of a class either no read waits, or no tag is free for it, or its first waiting read takes one. -/
theorem State.tagFirst_cases (s : State) (cls : Nat) (l : List DRead) :
    (waits cls l = 0 ∧ s.tagFirst cls l = l) ∨ (s.tagFree l cls = false ∧ s.tagFirst cls l = l) ∨
    ∃ a x b, l = a ++ x :: b ∧ x.tag = false ∧ x.cls = cls ∧ s.tagFirst cls l = a ++ { x with tag := true, no := freeTag l } :: b := by
  unfold State.tagFirst
  split
  case h_2 found =>
    refine .inl ⟨?_, rfl⟩
    rw [waits, List.countP_eq_zero]
    exact fun x hx => ne_true_of_eq_false (List.findIdx?_eq_none_iff.1 found x hx)
  case h_1 i found =>
    obtain ⟨inside, first, -⟩ := List.findIdx?_eq_some_iff_getElem.1 found
    rw [Bool.and_eq_true, Bool.not_eq_true', beq_iff_eq] at first
    cases free : s.tagFree l cls with
    | false => exact .inr (.inl ⟨rfl, rfl⟩)
    | true =>
      refine .inr (.inr ⟨l.take i, l[i], l.drop (i + 1), ?_, first.1, first.2, ?_⟩)
      · rw [List.getElem_cons_drop, List.take_append_drop]
      · rw [if_pos rfl, List.modify_eq_take_cons_drop inside]

theorem State.tagFirst_given (s : State) (cls : Nat) (l : List DRead) : TagsGiven l (s.tagFirst cls l) := by
  obtain ⟨-, same⟩ | ⟨-, same⟩ | ⟨a, x, b, rfl, untagged, -, taken⟩ := s.tagFirst_cases cls l
  · rw [same]
    exact .refl l
  · rw [same]
    exact .refl l
  · rw [taken]
    exact List.rel_append (TagsGiven.refl a) (.cons ⟨rfl, fun tag => absurd (untagged.symm.trans tag) (by decide)⟩ (TagsGiven.refl b))

theorem State.tagFirst_waits (s : State) (cls : Nat) (l : List DRead) :
    s.tagFree (s.tagFirst cls l) cls = false ∨ waits cls (s.tagFirst cls l) = waits cls l - 1 := by
  obtain ⟨none, same⟩ | ⟨full, same⟩ | ⟨a, x, b, rfl, untagged, named, taken⟩ := s.tagFirst_cases cls l
  · right
    rw [same, none]
  · left
    rw [same, full]
  · right
    rw [taken]
    simp [waits, List.countP_append, untagged, named]

/-! ### Every waiting read -/

/-- No read of the class waits, or no tag is free for it. -/
def Settled (s : State) (cls : Nat) (l : List DRead) : Prop := s.tagFree l cls = false ∨ waits cls l = 0

/-- Tags given out leave a class settled. -/
theorem TagsGiven.waits_le (given : TagsGiven l m) (cls : Nat) : waits cls m ≤ waits cls l := by
  unfold waits
  induction given with
  | nil => exact Nat.le_refl _
  | @cons x y l m hxy _ ih =>
    rw [List.countP_cons, List.countP_cons, hxy.cls]
    cases tagged : x.tag with
    | true => simpa [hxy.tag tagged] using ih
    | false =>
      refine Nat.add_le_add ih ?_
      cases y.tag <;> simp

theorem Settled.given {cls : Nat} (h : Settled s cls l) (given : TagsGiven l m) : Settled s cls m :=
  h.imp given.tagFree fun settled => Nat.le_zero.1 ((given.waits_le cls).trans settled.le)

/-- The waiting reads of a class take tags while it may have one. -/
def State.tagClass (s : State) (cls : Nat) (l : List DRead) : List DRead := (List.range l.length).foldl (fun l _ => s.tagFirst cls l) l

theorem State.tagAll_eq (s : State) (l : List DRead) : s.tagAll l = s.tagClass 4 (s.tagClass 3 (s.tagClass 2 (s.tagClass 1 l))) := rfl

theorem State.tagClass_given (s : State) (cls : Nat) (l : List DRead) : TagsGiven l (s.tagClass cls l) :=
  List.foldlRecOn (motive := TagsGiven l) _ _ (.refl l) fun _ given _ _ => given.trans (s.tagFirst_given cls _)

theorem State.tagClass_settled (s : State) (cls : Nat) (l : List DRead) : Settled s cls (s.tagClass cls l) := by
  have rounds (k : Nat) : let m := (List.range k).foldl (fun l _ => s.tagFirst cls l) l
      s.tagFree m cls = false ∨ waits cls m ≤ waits cls l - k := by
    induction k with
    | zero => exact .inr (Nat.le_refl _)
    | succ k ih =>
      rw [List.range_succ, List.foldl_append, List.foldl_cons, List.foldl_nil]
      rcases ih with full | fewer
      · exact .inl ((s.tagFirst_given cls _).tagFree full)
      · exact (s.tagFirst_waits cls _).imp_right fun one => by omega
  refine (rounds l.length).imp_right fun fewer => Nat.le_zero.1 (fewer.trans ?_)
  have most : waits cls l ≤ l.length := List.countP_le_length
  omega

theorem State.tagAll_given (s : State) (l : List DRead) : TagsGiven l (s.tagAll l) :=
  (((s.tagClass_given 1 l).trans (s.tagClass_given 2 _)).trans (s.tagClass_given 3 _)).trans (s.tagClass_given 4 _)

theorem State.tagAll_settled (s : State) (l : List DRead) {cls : Nat} (low : 1 ≤ cls) (high : cls ≤ 4) : Settled s cls (s.tagAll l) := by
  rw [State.tagAll_eq]
  have given (c : Nat) (m : List DRead) := s.tagClass_given c m
  rcases (by omega : cls = 1 ∨ cls = 2 ∨ cls = 3 ∨ cls = 4) with rfl | rfl | rfl | rfl
  · exact (((s.tagClass_settled 1 l).given (given 2 _)).given (given 3 _)).given (given 4 _)
  · exact ((s.tagClass_settled 2 _).given (given 3 _)).given (given 4 _)
  · exact (s.tagClass_settled 3 _).given (given 4 _)
  · exact s.tagClass_settled 4 _

/-- A read that still waits is of no class, or no tag is free for its class (R131, R140). -/
theorem State.tagAll_waiting (s : State) (l : List DRead) {x : DRead} (hx : x ∈ s.tagAll l) :
    x.tag = true ∨ x.cls = 0 ∨ 4 < x.cls ∨ s.tagFree (s.tagAll l) x.cls = false := by
  by_cases named : 1 ≤ x.cls ∧ x.cls ≤ 4
  · obtain full | none := s.tagAll_settled l named.1 named.2
    · exact .inr (.inr (.inr full))
    · have tagged := List.countP_eq_zero.1 none x hx
      exact .inl (by simpa using tagged)
  · omega

end

end Sys2Proof.Machine
end

section
/-! TAGRES (R140): the reserves it takes, and the tags that its change frees. -/

namespace Sys2Proof.Machine

open Safety

/-! ### A channel's reads change -/

section
variable {s : State}

theorem State.setReads_eq (s : State) (c : Chan) (l : List DRead) : s.setReads c l = { s with
    ws := (s.setReads c l).ws
    chans := vmod s.chans c fun x => { x with reads := s.tagAll l } } := rfl

theorem State.setReads_rd_ne (s : State) (c : Chan) (l : List DRead) {a : Nat} (ne : a ≠ aChan c.val 2) : (s.setReads c l).rd a = s.rd a := by
  rw [State.setReads, State.fset_rd, if_neg ne]
  rfl

theorem State.setReads_same (s : State) (c : Chan) (l : List DRead) : (s.setReads c l).chans[c] = { s.chans[c] with reads := s.tagAll l } := by
  rw [State.setReads_eq]
  exact getElem_vmod_same _ _ _

theorem State.setReads_ne (s : State) {c d : Chan} (l : List DRead) (ne : d ≠ c) : (s.setReads c l).chans[d] = s.chans[d] := by
  rw [State.setReads_eq]
  exact getElem_vmod_ne _ _ ne

/-! ### Reads that wait take tags -/

/-- The waiting reads of channels take the tags that are free for them. -/
def State.retag (s : State) (l : List Chan) : State := l.foldl (fun (t : State) c => t.setReads c t.chans[c].reads) s

/-- The words that hold PEAKTAG. -/
def peakWords : List Nat := (List.range 4).map fun c => aChan c 2

theorem mem_peakWords (c : Chan) : aChan c.val 2 ∈ peakWords := List.mem_map.2 ⟨c.val, List.mem_range.2 c.isLt, rfl⟩

theorem State.retag_rd (s : State) (l : List Chan) {a : Nat} (ha : a ∉ peakWords) : (s.retag l).rd a = s.rd a :=
  List.foldlRecOn (motive := fun t : State => t.rd a = s.rd a) l _ rfl fun t ht c _ =>
    (t.setReads_rd_ne c _ fun e => ha (by rw [e]; exact mem_peakWords c)).trans ht

theorem State.retag_eq (s : State) (l : List Chan) : s.retag l = { s with ws := (s.retag l).ws, chans := (s.retag l).chans } :=
  List.foldlRecOn (motive := fun t : State => t = { s with ws := t.ws, chans := t.chans }) l _ rfl fun t ht c _ => by
    rw [State.setReads_eq, ht]

theorem State.retag_chans {l : List Chan} (once : l.Nodup) (s : State) (c : Chan) :
    (s.retag l).chans[c] = if c ∈ l then { s.chans[c] with reads := s.tagAll s.chans[c].reads } else s.chans[c] := by
  induction l generalizing s with
  | nil => rfl
  | cons d l ih =>
    obtain ⟨fresh, once⟩ := List.nodup_cons.1 once
    have step : s.retag (d :: l) = (s.setReads d s.chans[d].reads).retag l := rfl
    have reserve : (s.setReads d s.chans[d].reads).tagAll = s.tagAll :=
      State.tagAll_congr (s.setReads_rd_ne d _ (by unfold aDram aChan; omega))
    rw [step, ih once, reserve]
    by_cases same : c = d
    · subst same
      rw [if_neg fresh, if_pos List.mem_cons_self, State.setReads_same]
    · simp only [State.setReads_ne _ _ same, List.mem_cons, same, false_or]

end

/-! ### TAGRES -/

section
variable {s : State} {r : Requester} {v : Word}

theorem tagresWrite_refused (may : s.mayWrite r (.dramReg 0) = true) (large : 48 < fld v 23 18 + fld v 17 12 + fld v 11 6 + fld v 5 0) :
    Completes (.tagresWrite r v) s (RegisterRefuses s) :=
  completes_of_eq (congrArg Host.Outcome.next ((State.gated_dram (by decide) may _).trans (if_pos large))) s.evDram_refuses

/-- With a TAGRES that is taken, reads of channel c that wait take tags. -/
def Retagged (s t : State) (c : Chan) : Prop :=
  t.chans[c] = { s.chans[c] with reads := t.chans[c].reads } ∧
    (t.chans[c].reads.map fun x => { x with tag := false, no := 0 }) = (s.chans[c].reads.map fun x => { x with tag := false, no := 0 }) ∧
    (∀ e ∈ s.chans[c].reads.zip t.chans[c].reads, e.1.tag = true → e.2 = e.1) ∧
    ∀ x ∈ t.chans[c].reads, x.tag = true ∨ x.cls = 0 ∨ 4 < x.cls ∨ t.tagFree t.chans[c].reads x.cls = false

theorem TagsGiven.forgotten {l m : List DRead} (given : TagsGiven l m) :
    (m.map fun x => { x with tag := false, no := 0 }) = (l.map fun x => { x with tag := false, no := 0 }) := by
  induction given with
  | nil => rfl
  | cons h _ ih => rw [List.map_cons, List.map_cons, ih, h.1]

theorem retagged_of_tagAll {t u : State} {c : Chan} (same : u.chans = s.chans) (reserve : t.rd (aDram 2) = u.rd (aDram 2))
    (tagged : t.chans[c] = { u.chans[c] with reads := u.tagAll u.chans[c].reads }) : Retagged s t c := by
  have given := u.tagAll_given s.chans[c].reads
  rw [same] at tagged
  have reads : t.chans[c].reads = u.tagAll s.chans[c].reads := congrArg ChanSt.reads tagged
  unfold Retagged
  rw [reads, State.tagFree_congr reserve]
  exact ⟨tagged, given.forgotten, fun e he => (List.forall₂_zip given he).2, fun x hx => u.tagAll_waiting _ hx⟩

theorem tagresWrite_taken (may : s.mayWrite r (.dramReg 0) = true) (fits : fld v 23 18 + fld v 17 12 + fld v 11 6 + fld v 5 0 ≤ 48) :
    Completes (.tagresWrite r v) s fun t => t.rd (aDram 2) = v ∧ NoEvent s t ∧ (∀ c : Chan, Retagged s t c) ∧
      WordsKept s t (aDram 2 :: peakWords) ∧ t = { s with ws := t.ws, chans := t.chans, rfault := false } := by
  let u : State := ({ s with rfault := false } : State).wr (aDram 2) v
  have taken : ({ s with rfault := false } : State).tagresPut v = u.retag (List.finRange 4) := by
    rw [State.tagresPut, if_neg (by omega), State.put_dram _ (by decide), writeView_covered (dramFields_apart 2) (by decide)]
    rfl
  have only := u.retag_eq (List.finRange 4)
  have reserve : (u.retag (List.finRange 4)).rd (aDram 2) = u.rd (aDram 2) := u.retag_rd _ (by decide)
  refine completes_of_eq (congrArg Host.Outcome.next ((State.gated_dram (by decide) may _).trans taken)) ⟨?_, ?_, fun c => ?_, fun a ha => ?_, ?_⟩
  · rw [reserve, State.rd_wr_same]
  · rw [only]
    exact ⟨rfl, rfl⟩
  · refine retagged_of_tagAll (u := u) rfl reserve ?_
    rw [State.retag_chans (List.nodup_finRange 4), if_pos (List.mem_finRange c)]
  · obtain ⟨apart, ha⟩ := not_or.1 (mt List.mem_cons.2 ha)
    exact (u.retag_rd _ ha).trans (State.rd_wr_ne _ v apart)
  · exact only

end

end Sys2Proof.Machine
end

section
/-! The enable bit of an ECC region (R136). -/

namespace Sys2Proof.Machine

open Safety

section
variable {s t : State} {r : Requester} {n : Fin 8} {v : Word}

/-! ### What R136 refuses -/

/-- First byte, end and check base of region q, enabled or not. -/
def State.eccArea (s : State) (q : Nat) : Nat × Nat × Nat :=
  (s.fget (aDram (0x10 + 3 * q)) 23 9 * 2 ^ 20, (s.fget (aDram (0x11 + 3 * q)) 23 9 + 1) * 2 ^ 20, s.fget (aDram (0x12 + 3 * q)) 23 6 * 2 ^ 17)

/-- The check area from chk on, of a region of the bytes lo to hi, meets the bytes x to y. -/
def checkMeets (lo hi chk x y : Nat) : Bool := decide (chk < y ∧ x < chk + (hi - lo) / 8)

/-- R136 refuses region n when its base is the given one. -/
def State.eccRefused (s : State) (n base : Nat) : Bool :=
  let lo := base * 2 ^ 20
  let hi := (s.eccArea n).2.1
  let chk := (s.eccArea n).2.2
  let meets := checkMeets lo hi chk
  decide (s.fget (aDram (0x11 + 3 * n)) 23 9 < base) || meets lo hi || decide (s.dramCap < hi) || decide (s.dramCap < chk + (hi - lo) / 8) ||
    (List.range 8).any fun q => q != n && s.bget (aDram (0x10 + 3 * q)) 0 &&
      (meets (s.eccArea q).1 (s.eccArea q).2.1 || meets (s.eccArea q).2.2 ((s.eccArea q).2.2 + ((s.eccArea q).2.1 - (s.eccArea q).1) / 8))

/-- The capacity follows from DRCFG and DRSTAT (R139). -/
theorem State.dramCap_congr (cfg : t.rd (aDram 0) = s.rd (aDram 0)) (stat : t.rd (aDram 1) = s.rd (aDram 1)) : t.dramCap = s.dramCap := by
  unfold State.dramCap State.nch State.fget State.bget
  rw [cfg, stat]

theorem State.eccRegion_eq (s : State) (q : Nat) : s.eccRegion q = if s.bget (aDram (0x10 + 3 * q)) 0 then some (s.eccArea q) else none := rfl

theorem State.eccBad_eq (s : State) (n : Nat) : s.eccBad n = s.eccRefused n (s.fget (aDram (0x10 + 3 * n)) 23 9) := by
  have limit (x : Nat) : (x + 1) * 2 ^ 20 = x * 2 ^ 20 + 2 ^ 20 := Nat.succ_mul x _
  have order (x y : Nat) : decide (x * 2 ^ 20 < y * 2 ^ 20) = decide (x < y) := decide_eq_decide.2 (by omega)
  unfold State.eccBad State.eccRefused
  simp only [State.eccRegion_eq, State.eccArea, checkMeets, overlaps, limit, order]
  congr 2
  funext q
  cases s.bget (aDram (0x10 + 3 * q)) 0 <;> simp

/-- What R136 refuses does not depend on the first word of the region itself, but for its base. -/
theorem State.eccRefused_congr {n : Nat} (same : ∀ a, a ≠ aDram (0x10 + 3 * n) → t.rd a = s.rd a) (base : Nat) : t.eccRefused n base = s.eccRefused n base := by
  have limit (q : Nat) : t.rd (aDram (0x11 + 3 * q)) = s.rd (aDram (0x11 + 3 * q)) := same _ (by unfold aDram; omega)
  have check (q : Nat) : t.rd (aDram (0x12 + 3 * q)) = s.rd (aDram (0x12 + 3 * q)) := same _ (by unfold aDram; omega)
  have capacity : t.dramCap = s.dramCap := State.dramCap_congr (same _ (by unfold aDram; omega)) (same _ (by unfold aDram; omega))
  unfold State.eccRefused
  simp only [State.eccArea, State.fget, State.bget, limit, check, capacity]
  congr 2
  funext q
  by_cases own : q = n
  · simp [own]
  · rw [same (aDram (0x10 + 3 * q)) (by unfold aDram; omega)]

/-! ### The region's first word is written -/

/-- The first word of region n. -/
abbrev eccWord (n : Fin 8) : Nat := aDram (0x10 + 3 * n.val)

theorem dramNamed_ecc (n : Fin 8) : DramNamed (0x10 + 3 * n.val) := by omega

/-- ERBASE takes what is written while EN is 0. -/
def baseWritten (old v : Word) : Word := putFld old 23 9 (fld v 23 9)

theorem fld_baseWritten (old v : Word) : fld (baseWritten old v) 23 9 = fld v 23 9 := by
  rw [baseWritten, fld_putFld _ _ (by decide) (by decide), Nat.mod_eq_of_lt (fld_lt v 23 9)]

/-- The check of a region whose base has just been written is that of R136. -/
theorem State.eccBad_based (s : State) (n : Fin 8) (v : Word) :
    (s.wr (eccWord n) (baseWritten (s.rd (eccWord n)) v)).eccBad n.val = s.eccRefused n.val (fld v 23 9) := by
  rw [State.eccBad_eq, State.fget, State.rd_wr_same, fld_baseWritten]
  exact State.eccRefused_congr (fun a ne => s.rd_wr_ne _ ne) _

/-- A write that leaves EN as 1 changes nothing; one that clears it clears nothing else. -/
theorem State.eccPut_enabled (on : s.bget (eccWord n) 0 = true) (v : Word) :
    s.eccPut n.val 0 v = if bit v 0 then s else s.wr (eccWord n) (putBit (s.rd (eccWord n)) 0 false) := if_pos on

/-- While EN is 0 the base is written, and EN with it, unless R136 refuses the region. -/
theorem State.eccPut_disabled (off : s.bget (eccWord n) 0 = false) (set : bit v 0 = true) : s.eccPut n.val 0 v =
    if s.eccRefused n.val (fld v 23 9) then s.evDram else s.wr (eccWord n) (putBit (baseWritten (s.rd (eccWord n)) v) 0 true) := by
  have base : s.fset (eccWord n) 23 9 (fld v 23 9) = s.wr (eccWord n) (baseWritten (s.rd (eccWord n)) v) := rfl
  have enabled : (s.wr (eccWord n) (baseWritten (s.rd (eccWord n)) v)).bset (eccWord n) 0 true =
      s.wr (eccWord n) (putBit (baseWritten (s.rd (eccWord n)) v) 0 true) := by
    rw [State.bset, State.fset, State.rd_wr_same, State.wr_wr]
    rfl
  unfold State.eccPut
  dsimp only
  rw [if_neg (ne_true_of_eq_false off), if_pos set, base, State.eccBad_based, enabled]
  rfl

/-! ### ECC_REGION_ENABLE -/

theorem eccRegionEnable_refused (may : s.mayWrite r (.dramReg 0) = true) (off : s.bget (eccWord n) 0 = false) (set : bit v 0 = true)
    (bad : s.eccRefused n.val (fld v 23 9) = true) : Completes (.eccRegionEnable r n v) s (RegisterRefuses s) := by
  have put := (State.eccPut_disabled (s := { s with rfault := false }) off set).trans (if_pos bad)
  exact completes_of_eq (congrArg Host.Outcome.next ((State.gated_dram (dramNamed_ecc n) may _).trans put)) s.evDram_refuses

theorem eccRegionEnable_taken (may : s.mayWrite r (.dramReg 0) = true) (off : s.bget (eccWord n) 0 = false) (set : bit v 0 = true)
    (good : s.eccRefused n.val (fld v 23 9) = false) : Completes (.eccRegionEnable r n v) s fun t =>
      t.bget (eccWord n) 0 = true ∧ t.fget (eccWord n) 23 9 = fld v 23 9 ∧ t.fget (eccWord n) 8 1 = s.fget (eccWord n) 8 1 ∧
        RegisterTakes s t (eccWord n) := by
  have put := (State.eccPut_disabled (s := { s with rfault := false }) off set).trans (if_neg (ne_true_of_eq_false good))
  refine completes_of_eq (congrArg Host.Outcome.next ((State.gated_dram (dramNamed_ecc n) may _).trans put)) ⟨?_, ?_, ?_, s.wr_takes _ _⟩
  · rw [State.bget, State.rd_wr_same, bit_putBit_same _ _ (by decide)]
  · rw [State.fget, State.rd_wr_same, fld_putBit_apart _ _ (.inr (by decide)), fld_baseWritten]
  · rw [State.fget, State.rd_wr_same, fld_putBit_apart _ _ (.inr (by decide)), baseWritten, fld_putFld_apart _ _ (by decide) (.inl (by decide))]
    rfl

theorem eccRegionEnable_ignored (may : s.mayWrite r (.dramReg 0) = true) (on : s.bget (eccWord n) 0 = true) (set : bit v 0 = true) :
    Completes (.eccRegionEnable r n v) s fun t => t = { s with rfault := false } := by
  have put := (State.eccPut_enabled (s := { s with rfault := false }) on v).trans (if_pos set)
  exact completes_of_eq (congrArg Host.Outcome.next ((State.gated_dram (dramNamed_ecc n) may _).trans put)) rfl

theorem eccRegionEnable_clears (may : s.mayWrite r (.dramReg 0) = true) (on : s.bget (eccWord n) 0 = true) (clear : bit v 0 = false) :
    Completes (.eccRegionEnable r n v) s fun t =>
      t.bget (eccWord n) 0 = false ∧ t.fget (eccWord n) 23 1 = s.fget (eccWord n) 23 1 ∧ RegisterTakes s t (eccWord n) := by
  have put := (State.eccPut_enabled (s := { s with rfault := false }) on v).trans (if_neg (ne_true_of_eq_false clear))
  refine completes_of_eq (congrArg Host.Outcome.next ((State.gated_dram (dramNamed_ecc n) may _).trans put)) ⟨?_, ?_, s.wr_takes _ _⟩
  · rw [State.bget, State.rd_wr_same, bit_putBit_same _ _ (by decide)]
  · rw [State.fget, State.rd_wr_same, fld_putBit_apart _ _ (.inr (by decide))]
    rfl

end

end Sys2Proof.Machine
end

section
/-! DRAM training (R128, R139): what it leaves in DRSTAT and DRCFG, and the entry to SAFE when channel 0 fails. -/

namespace Sys2Proof.Machine

open Safety

/-! ### The words that training writes -/

/-- DRSTAT after training (R128). -/
def statWord (ok : BitVec 4) : Word := wd (2 ^ 23 + ok.toNat * 2 ^ 19 + (chosenSet ok).1 * 2 ^ 15)

/-- DRCFG after training (R139). -/
def cfgWord (ok : BitVec 4) (cap : Nat) : Word := wd ((chosenSet ok).2 * 2 ^ 22 + cap * 2 ^ 19)

theorem statWord_fields (ok : BitVec 4) : bit (statWord ok) 23 = true ∧ fld (statWord ok) 22 19 = ok.toNat ∧
    fld (statWord ok) 18 15 = (chosenSet ok).1 ∧ fld (statWord ok) 14 0 = 0 := by
  revert ok
  decide

theorem cfgWord_fields (ok : BitVec 4) (cap : Fin 5) : fld (cfgWord ok cap.val) 23 22 = (chosenSet ok).2 ∧ fld (cfgWord ok cap.val) 21 19 = cap.val := by
  revert ok cap
  decide

/-! The set in use is the largest of {C0}, {C0, C1} and {C0, C1, C2, C3} whose channels all trained (R128). -/

theorem chosenSet_pair {ok : BitVec 4} (part : ok ≠ 0xF) (first : ok.getLsbD 0 = true) (second : ok.getLsbD 1 = true) : chosenSet ok = (3, 1) := by
  revert ok
  decide

theorem chosenSet_one {ok : BitVec 4} (first : ok.getLsbD 0 = true) (second : ok.getLsbD 1 = false) : chosenSet ok = (1, 0) := by
  revert ok
  decide

theorem chosenSet_none {ok : BitVec 4} (first : ok.getLsbD 0 = false) : chosenSet ok = (0, 0) := by
  revert ok
  decide

theorem chosenSet_used {ok : BitVec 4} (first : ok.getLsbD 0 = true) : (chosenSet ok).1 ≠ 0 := by
  revert ok
  decide

section
variable {s : State} {ok : BitVec 4} {cap : Fitted}

theorem State.trained_eq (s : State) (ok : BitVec 4) (cap : Nat) : s.trained ok cap =
    if (chosenSet ok).1 = 0 then s.wr (aDram 1) (statWord ok) else (s.wr (aDram 1) (statWord ok)).wr (aDram 0) (cfgWord ok cap) := rfl

theorem State.trained_only (s : State) (ok : BitVec 4) (cap : Nat) : s.trained ok cap = { s with ws := (s.trained ok cap).ws } := by
  rw [State.trained_eq]
  split <;> rfl

theorem State.trained_rd_ne (s : State) (ok : BitVec 4) (cap : Nat) {a : Nat} (ha : a ∉ [aDram 0, aDram 1]) : (s.trained ok cap).rd a = s.rd a := by
  simp only [List.mem_cons, List.not_mem_nil, or_false, not_or] at ha
  rw [State.trained_eq]
  split <;> simp [State.rd_wr_ne, ha]

theorem State.trained_stat (s : State) (ok : BitVec 4) (cap : Nat) : (s.trained ok cap).rd (aDram 1) = statWord ok := by
  rw [State.trained_eq]
  split
  · exact State.rd_wr_same _ _ _
  · rw [State.rd_wr_ne _ _ (by decide), State.rd_wr_same]

theorem State.trained_cfg (s : State) {ok : BitVec 4} (used : (chosenSet ok).1 ≠ 0) (cap : Nat) : (s.trained ok cap).rd (aDram 0) = cfgWord ok cap := by
  rw [State.trained_eq, if_neg used, State.rd_wr_same]

/-- With no row marked for repair, training repairs none (R142). -/
theorem State.trained_repairRows (none : s.markedRows = []) (ok : BitVec 4) (cap : Nat) : (s.trained ok cap).repairRows = s.trained ok cap := by
  have same : (s.trained ok cap).markedRows = s.markedRows := by
    rw [State.trained_only]
    rfl
  rw [State.repairRows, same, none]
  rfl

/-- The state that training leaves while a channel is in use. -/
def State.trainedAt (s : State) (ok : BitVec 4) (cap : Fitted) : State := { s.trained ok cap.cap.val with start := .trained, drate := cap.rate.val }

/-! ### Entry to SAFE (R250, R251) -/

theorem State.toSafe_only (s : State) (reason : BitVec 8) : s.toSafe reason = { s with
    dev := .safe
    reason := reason
    hw := (s.toSafe reason).hw
    pcie := (s.toSafe reason).pcie
    flash := (s.toSafe reason).flash
    cae := (s.toSafe reason).cae } := by
  have entered : (s.toDev .safe reason).stopApplets = { s with
      dev := .safe
      reason := reason
      hw := (s.toDev .safe reason).hw
      pcie := (s.toDev .safe reason).pcie
      cae := (s.toDev .safe reason).stopApplets.cae } := by
    unfold State.toDev State.evState
    dsimp only
    rw [State.raise_eq]
    rfl
  unfold State.toSafe State.ledgerSave
  split <;> rw [entered]

/-! ### Training -/

theorem exec_dramTraining (booted : s.start = .booted) (unmarked : s.markedRows = []) : exec (.dramTraining ok cap) s =
    .next (if (chosenSet ok).1 = 0 then (s.trainedAt ok cap).toSafe 5 else s.trainedAt ok cap) := by
  have used : (s.trainedAt ok cap).fget (aDram 1) 18 15 = (chosenSet ok).1 := by
    obtain ⟨-, -, inuse, -⟩ := statWord_fields ok
    rw [← inuse, ← s.trained_stat ok cap.cap.val]
    rfl
  change execDramTraining ok cap s = _
  unfold execDramTraining
  rw [if_neg (not_not_intro booted), State.trained_repairRows unmarked]
  change Host.Outcome.next (if (s.trainedAt ok cap).fget (aDram 1) 18 15 = 0 then _ else _) = _
  rw [used]
  rfl

/-- What training leaves in DRSTAT and around it, whichever channels trained. -/
def TrainingDone (s t : State) (ok : BitVec 4) (cap : Fitted) : Prop :=
  t.start = .trained ∧ t.drate = cap.rate.val ∧ t.rd (aDram 1) = statWord ok ∧ WordsKept s t [aDram 0, aDram 1] ∧ t.dram = s.dram

theorem State.trainedAt_done (s : State) (ok : BitVec 4) (cap : Fitted) : TrainingDone s (s.trainedAt ok cap) ok cap := by
  refine ⟨rfl, rfl, s.trained_stat ok _, fun a ha => s.trained_rd_ne ok _ ha, ?_⟩
  rw [State.trainedAt, State.trained_only]

theorem TrainingDone.toSafe {t : State} (done : TrainingDone s t ok cap) (reason : BitVec 8) : TrainingDone s (t.toSafe reason) ok cap := by
  rw [State.toSafe_only]
  exact done

theorem TrainingDone.fields {t : State} (done : TrainingDone s t ok cap) : t.bget (aDram 1) 23 = true ∧ t.fget (aDram 1) 22 19 = ok.toNat ∧
    t.fget (aDram 1) 18 15 = (chosenSet ok).1 ∧ t.fget (aDram 1) 14 0 = 0 := by
  obtain ⟨-, -, stat, -⟩ := done
  rw [State.bget, State.fget, State.fget, State.fget, stat]
  exact statWord_fields ok

/-- The number of channels that a code of NCH names (R139). -/
def channelsOf : Nat → Nat
  | 1 => 2
  | 2 => 4
  | _ => 1

theorem State.nch_eq (s : State) : s.nch = channelsOf (s.fget (aDram 0) 23 22) := by
  unfold State.nch channelsOf
  rfl

theorem State.trainedAt_nch (s : State) (used : (chosenSet ok).1 ≠ 0) (cap : Fitted) :
    (s.trainedAt ok cap).nch = channelsOf (chosenSet ok).2 := by
  have cfg : (s.trainedAt ok cap).rd (aDram 0) = cfgWord ok cap.cap.val := s.trained_cfg used _
  rw [State.nch_eq, State.fget, cfg, (cfgWord_fields ok cap.cap).1]

/-- The capacity while channels are in use (R129, R139). -/
theorem State.trainedAt_dramCap (s : State) (used : (chosenSet ok).1 ≠ 0) (cap : Fitted) :
    (s.trainedAt ok cap).dramCap = (s.trainedAt ok cap).nch * (2 ^ 29 * 2 ^ cap.cap.val) := by
  obtain ⟨done, -, inuse, -⟩ := (s.trainedAt_done ok cap).fields
  have cfg : (s.trainedAt ok cap).rd (aDram 0) = cfgWord ok cap.cap.val := s.trained_cfg used _
  have fitted := (cfgWord_fields ok cap.cap).2
  rw [State.dramCap, done, inuse, State.fget, cfg, fitted, Nat.shiftLeft_eq]
  simp [used]

/-- With channel 0 trained the channels of the chosen set are in use (R128, R139). -/
theorem dramTraining_completes (booted : s.start = .booted) (unmarked : s.markedRows = []) (used : (chosenSet ok).1 ≠ 0) :
    Completes (.dramTraining ok cap) s fun t => TrainingDone s t ok cap ∧
      t.nch = channelsOf (chosenSet ok).2 ∧ t.dramCap = t.nch * (2 ^ 29 * 2 ^ cap.cap.val) ∧ NoEvent s t ∧
      t = { s with ws := t.ws, start := .trained, drate := cap.rate.val } := by
  have only : s.trainedAt ok cap = { s with ws := (s.trainedAt ok cap).ws, start := .trained, drate := cap.rate.val } := by
    rw [State.trainedAt, State.trained_only]
  refine completes_of_eq ((exec_dramTraining booted unmarked).trans (congrArg _ (if_neg used)))
    ⟨s.trainedAt_done ok cap, s.trainedAt_nch used cap, s.trainedAt_dramCap used cap, ?_, only⟩
  rw [only]
  exact ⟨rfl, rfl⟩

/-- With channel 0 failed no channel is in use, and the device is in SAFE (R128). -/
theorem dramTraining_fails (booted : s.start = .booted) (unmarked : s.markedRows = []) (failed : (chosenSet ok).1 = 0) :
    Completes (.dramTraining ok cap) s fun t => TrainingDone s t ok cap ∧ t.dramCap = 0 ∧ t.dev = .safe ∧ t.reason = 5 := by
  have done := (s.trainedAt_done ok cap).toSafe 5
  obtain ⟨-, -, inuse, -⟩ := done.fields
  refine completes_of_eq ((exec_dramTraining booted unmarked).trans (congrArg _ (if_pos failed))) ⟨done, ?_, ?_, ?_⟩
  · rw [State.dramCap, inuse, failed]
    simp
  · rw [State.toSafe_only]
  · rw [State.toSafe_only]

end

end Sys2Proof.Machine
end

section
/-! The scheduler's registers and DRAM training (O48). -/

open Sys2Proof Sys2Proof.Machine Sys2Proof.Safety

/-- Settles O48: each register's write is the completion that its rule gives it. What R140 says of the reads that wait rests on the tags of a
class running out for good while others take theirs (`TagsGiven.tagFree`). -/
theorem dramSetup : Obligations.DramSetup := by
  refine ⟨fun s r v may => ⟨drcfgWrite_ignored may, drcfgWrite_taken may, tagresWrite_refused may, tagresWrite_taken may, shareWrite_refused may,
    shareWrite_taken may, fun n => ⟨eccRegionEnable_refused may, eccRegionEnable_taken may, eccRegionEnable_ignored may, eccRegionEnable_clears may⟩⟩,
    fun s ok cap => ⟨fun early => ⟨s, if_pos early, rfl⟩, fun booted unmarked => ?_⟩⟩
  cases first : ok.getLsbD 0 with
  | true =>
    refine completes_mono (dramTraining_completes booted unmarked (chosenSet_used first)) fun t ⟨done, nch, capacity, quiet, only⟩ => ?_
    obtain ⟨marked, trained, inuse, rest⟩ := done.fields
    obtain ⟨start, rate, -, words, dram⟩ := done
    refine ⟨start, rate, marked, trained, rest, fun all => ?_, fun part _ second => ?_, fun _ second => ?_, fun _ => ⟨capacity, quiet, only⟩, nofun, words, dram⟩
    · subst all
      exact ⟨inuse, nch⟩
    · rw [chosenSet_pair part first second] at inuse nch
      exact ⟨inuse, nch⟩
    · rw [chosenSet_one first second] at inuse nch
      exact ⟨inuse, nch⟩
  | false =>
    have failed : (chosenSet ok).1 = 0 := congrArg Prod.fst (chosenSet_none first)
    refine completes_mono (dramTraining_fails booted unmarked failed) fun t ⟨done, capacity, dev, reason⟩ => ?_
    obtain ⟨marked, trained, inuse, rest⟩ := done.fields
    obtain ⟨start, rate, -, words, dram⟩ := done
    refine ⟨start, rate, marked, trained, rest, ?_, fun _ => nofun, nofun, nofun, fun _ => ⟨inuse.trans failed, capacity, dev, reason⟩, words, dram⟩
    rintro rfl
    exact absurd first (by decide)

end

section
/-! A write through the aperture after a queue's (O22). -/

namespace Sys2Proof.Machine

open Safety

/-- A WRITE action of head 0's queue, posted by Caeruno, has written 5 to a palette's colour in the present SCLK cycle (R42). -/
def queueWrote : State := State.reset.byQueue 0 (aPal 0 0 0 0) 5 fun t a v => t.locWrite (.core 0 0) a v

/-- Where the aperture shows that colour (R357). -/
def colourOff : BitVec 36 := BitVec.ofNat 36 (4 * (2 ^ 33 + aPal 0 0 0 0))

theorem queueWrote_sound : Sound queueWrote := by
  unfold Sound NoFlips
  decide +kernel

/-- The host's write of the colour. -/
def hostWrote : State := queueWrote.apWrite (aPal 0 0 0 0) 0

theorem apertureWrite_colour : exec (.apertureWrite colourOff [0, 0, 0, 0]) queueWrote = .next hostWrote := by
  rfl

/-- A queue's write is ordered after a direct one of its cycle (R50): the queue's value stands. -/
theorem hostWrote_colour : hostWrote.fget (aPal 0 0 0 0) 23 0 = 5 := by decide +kernel

end Sys2Proof.Machine

open Sys2Proof Sys2Proof.Machine in
/-- Refutes O22: its clause on a warden word written with a good code has every read-write field take the host's value, and nothing but that
word change. In a cycle in which a head's queue has written the word, the queue's write is ordered after the host's direct one (R50): the
queue's value stands, and the cycle's list of writes takes the host's. -/
theorem not_apertureAccesses : ¬ Obligations.ApertureAccesses := by
  intro h
  obtain ⟨-, -, -, -, words, -⟩ := h queueWrote colourOff [0, 0, 0, 0] queueWrote_sound (by decide +kernel) (by decide +kernel)
  obtain ⟨-, written, -⟩ := words (by decide +kernel) (by decide +kernel) (by decide +kernel) rfl (by decide +kernel)
  obtain ⟨t, run, fields, -⟩ := written (by decide +kernel) (.inl (by decide +kernel))
  obtain rfl : hostWrote = t := Host.Outcome.next.inj (apertureWrite_colour.symm.trans run)
  have colour : hostWrote.fget (aPal 0 0 0 0) 23 0 = 0 := fields ⟨"RGB", 23, 0, .rw, 0⟩ (by decide +kernel) rfl
  exact absurd (hostWrote_colour.symm.trans colour) (by decide)

end

section
/-! The third failure of a row's reads (O49). -/

namespace Sys2Proof.Machine

open Safety

/-- A host's read of unit 0, issued. -/
def failingRead : DRead :=
  { user := .host, unit := 0, line := 0, cls := 4, deadline := 0, data := List.replicate 32 0, chk := false, tag := true, issued := true, no := 0,
    standIn := false, merge := false, cyc := 0 }

/-- Channel 0 of four has the read under way with link ECC on, and its log holds two failures of the row that the unit lies in. -/
def failedTwice : State :=
  let s := (((State.reset.wr (aDram 0) 0x800000).wr (aDram 1) 0xFF8000).wr (aChan 0 0x10) 0x800000).wr (aChan 0 0x11) 0x800000
  ({ s with drate := 1 } : State).modChan 0 fun x => { x with reads := [failingRead] }

theorem failedTwice_sound : Sound failedTwice := by
  unfold Sound NoFlips
  decide +kernel

/-- The third failure has been counted and its entry logged. -/
def failedThrice : State := failedTwice.complete 0 failingRead .linkFailed

theorem dramReadComplete_thrice : exec (.dramReadComplete 0 .linkFailed) failedTwice = .next failedThrice := rfl

/-- The row's record: it is marked, in channel 0, subchannel A and bank 0, and it is row 0. -/
theorem failedThrice_records : failedThrice.cae.records = [0x400000, 0] := by decide +kernel

end Sys2Proof.Machine

open Sys2Proof Sys2Proof.Machine in
/-- Refutes O49: the frame of its clause on a completed read lets nothing of Caeruno's state but the ledger change. A read that fails as the
third of its row has the row marked for repair (R142): its record joins the repair records, which that state holds. -/
theorem not_dramAccesses : ¬ Obligations.DramAccesses := by
  intro h
  obtain ⟨reads, -⟩ := h
  obtain ⟨-, -, -, completes⟩ := reads failedTwice 0
  obtain ⟨t, run, -, -, -, -, -, -, -, -, -, -, -, -, frame⟩ := completes failingRead .linkFailed (by decide +kernel) (by decide +kernel) rfl rfl rfl rfl
    (by decide +kernel) failedTwice_sound
  obtain rfl : failedThrice = t := Host.Outcome.next.inj (dramReadComplete_thrice.symm.trans run)
  have kept : failedThrice.cae.records = [] := congrArg (fun t : State => t.cae.records) frame
  exact absurd (failedThrice_records.symm.trans kept) (by decide)

end

section
/-! What a fabric edge makes of a paddock: the pins, the events and the swaps of the other paddocks leave it as its own edge has (R145, R207,
R298). -/

namespace Sys2Proof.Machine

/-- From s to t paddock p has not changed. -/
structure PadKept (p : Pad) (s t : State) : Prop where
  pad : t.pads[p] = s.pads[p]

theorem PadKept.refl (p : Pad) (s : State) : PadKept p s s := ⟨rfl⟩

section
variable {p : Pad} {s t : State} (q : PadKept p s t)
include q

/-- A change of other state. -/
theorem PadKept.congr {u : State} (pads : u.pads = t.pads := by rfl) : PadKept p s u := ⟨by rw [pads, q.pad]⟩

theorem PadKept.ite {u : State} {c : Prop} [Decidable c] (r : PadKept p s u) : PadKept p s (if c then u else t) := by
  split <;> assumption

theorem PadKept.foldl {α : Type} {f : State → α → State} {l : List α} (hf : ∀ u x, PadKept p s u → PadKept p s (f u x)) :
    PadKept p s (l.foldl f t) :=
  List.foldlRecOn l f q fun u hu x _ => hf u x hu

theorem PadKept.modPad {o : Pad} (ne : p ≠ o) (f : PadSt → PadSt) : PadKept p s (t.modPad o f) := ⟨(getElem_vmod_ne _ f ne).trans q.pad⟩

/-! ### Events -/

theorem PadKept.raise (n : Nat) : PadKept p s (t.raise n) := q.congr (by simp)
theorem PadKept.raiseCause (off b n : Nat) : PadKept p s (t.raiseCause off b n) := q.congr (by simp)
theorem PadKept.raisedOnce (v : State) (n : Nat) : PadKept p s (v.raisedOnce n t) := PadKept.ite (PadKept.congr q) q

/-! ### The bank clock -/

theorem PadKept.pinFlag (b : Bank) (n : Nat) : PadKept p s (t.pinFlag b n) := by
  unfold State.pinFlag
  dsimp only
  split
  · exact PadKept.ite (PadKept.raiseCause (PadKept.congr q) _ _ _) q
  · exact PadKept.ite (PadKept.congr q) q
  · exact q

theorem PadKept.pinsMove (b : Bank) (old : Word) (pins : List Nat) : PadKept p s (t.pinsMove b old pins) :=
  q.foldl fun _ _ r => r.ite (r.pinFlag _ _)

theorem PadKept.confTrack : PadKept p s t.confTrack := PadKept.ite (PadKept.raiseCause (PadKept.congr q) _ _ _) (PadKept.congr q)

theorem PadKept.lvdsLose (h : Head) : PadKept p s (t.lvdsLose h) := PadKept.raise (PadKept.congr q) _

theorem PadKept.pinsTake (b : Bank) : PadKept p s (t.pinsTake b) := by
  unfold State.pinsTake
  extract_lets x lost s1 s2 s3 s4
  have paired : PadKept p s s2 := PadKept.ite (PadKept.foldl (PadKept.congr q) fun _ _ r => r.congr) (PadKept.congr q)
  have taken : PadKept p s s3 := PadKept.congr paired
  have tracked : PadKept p s s4 := taken.confTrack.ite taken
  exact tracked.foldl fun _ _ r => r.ite (r.lvdsLose _)

theorem PadKept.bankEdge (b : Bank) : PadKept p s (t.bankEdge b) := by
  have taken := q.pinsTake b
  have padded : PadKept p s ((t.pinsTake b).padsTake b) := taken.congr
  exact PadKept.pinsMove (PadKept.congr (padded.ite taken)) _ _ _

/-! ### Swaps of other paddocks -/

omit q in
theorem State.writeFlip_pads (s : State) (r a : Nat) : (s.writeFlip r a).pads = s.pads := by
  unfold State.writeFlip
  dsimp only
  split
  · split <;> rfl
  · rfl

theorem PadKept.swapFreeze {o : Pad} (ne : p ≠ o) : PadKept p s (t.swapFreeze o) := by
  unfold State.swapFreeze
  extract_lets s1 s2
  have closed : PadKept p s s1 := q.modPad ne _
  exact closed.congr (State.writeFlip_pads _ _ _)

end

/-- What a fabric edge makes of a paddock that no swap closes. -/
theorem State.fabricEdge_pad (s : State) {p : Pad} (stays : s.pads[p].closing = false) : s.fabricEdge.pads[p] = s.padEdge p s.pads[p] := by
  unfold State.fabricEdge
  extract_lets s1 s2 s3
  have own : s1.pads[p] = s.padEdge p s.pads[p] := by simp [s1]
  have frozen : PadKept p s1 s2 := (PadKept.refl p s1).foldl fun u o r => by
    by_cases here : p = o
    · subst here
      rwa [stays, if_neg (by decide)]
    · exact r.ite (r.swapFreeze here)
  have banks : PadKept p s1 s3 := frozen.foldl fun _ b r => r.bankEdge b
  exact ((banks.raisedOnce _ _).raisedOnce _ _).pad.trans own

end Sys2Proof.Machine
end

section
/-! Elements whose clock is off have no next edge (O52). -/

namespace Sys2Proof.Machine

theorem State.tick_of_clocksOff {s : State} (off : s.clocksOff = true) : s.tick = s := if_pos off

/-- Without a clock no fabric edge comes (R364, R366). -/
theorem State.toEdge_of_clocksOff {s : State} (off : s.clocksOff = true) : s.toEdge = s := by
  unfold State.toEdge
  simp only [State.tick_of_clocksOff off, ite_self]

/-- Cell 0 of P0 has acted, and the device is in Keep. -/
def actedInKeep : State := { State.reset.modPad 0 fun x => { x with acted := [0] } with pow := { PowSt.reset with st := .keep } }

theorem actedInKeep_clocksOff : actedInKeep.clocksOff = true := rfl

theorem actedInKeep_acted : actedInKeep.pads[(0 : Pad)].acted = [0] := rfl

end Sys2Proof.Machine

open Sys2Proof Sys2Proof.Machine in
/-- Refutes O52: its last part has an edge come for every cell that has acted. In Keep no clock runs (R364): SCLK does not run on, and a cell
that has acted stays so. -/
theorem not_cellControls : ¬ Obligations.CellControls := by
  intro h
  obtain ⟨-, -, again⟩ := h actedInKeep 0 0
  have cleared := (again (by rw [actedInKeep_acted]; rfl)).1
  rw [State.toEdge_of_clocksOff actedInKeep_clocksOff, actedInKeep_acted] at cleared
  exact absurd cleared (by decide)

end

section
/-! A reset of a paddock's cells by SRST comes at the fabric edge (O53, O55). -/

namespace Sys2Proof.Machine

theorem PadSt.initCells_cell (x : PadSt) (n : Cell) : x.initCells[n] = CellSt.atInit (x.init n.val) := by simp [PadSt.initCells]

/-- Once SRST has been written, every cell takes INIT at the edge (R183). -/
theorem State.fabricEdge_srst {s : State} {p : Pad} (stays : s.pads[p].closing = false) (due : s.pads[p].srst = true) :
    s.fabricEdge.pads[p].cells = s.pads[p].initCells := by
  rw [s.fabricEdge_pad stays]
  simp only [State.padEdge, due, if_true]

/-- P0 is loaded and clocked, and its cell 0, of INIT 0, holds 1. -/
def cellRan : State :=
  ((State.reset.wr (aPad 0 1) 0x800000).wr (aPad 0 0) 0x800000).modPad 0 fun x => { x with cells := x.cells.set 0 { CellSt.reset with q := 1 } }

theorem cellRan_cell : cellRan.pads[(0 : Pad)].cells[(0 : Cell)].q = 1 := rfl

theorem cellRan_init : cellRan.pads[(0 : Pad)].init 0 = 0 := rfl

/-- SRST of P0 has been written. -/
def srstWritten : State := ({ cellRan with rfault := false } : State).padSrst 0

theorem srst_cellRan : exec (.srst (.core 0 0) 0) cellRan = .next srstWritten :=
  congrArg Host.Outcome.next (State.gated_of_may _ (by decide +kernel) (by decide +kernel))

theorem srstWritten_clocked : srstWritten.clocked 0 = true := by decide +kernel

end Sys2Proof.Machine

open Sys2Proof Sys2Proof.Machine in
/-- Refutes O53: it has the edge leave a clocked paddock's cells what their operations gave them. Where SRST has been written in the cycle
(R183), they take INIT at the edge. -/
theorem not_blockMemories : ¬ Obligations.BlockMemories := by
  intro h
  obtain ⟨edge, -⟩ := h srstWritten 0
  obtain ⟨-, kept, -⟩ := edge srstWritten_clocked
  have reset : srstWritten.fabricEdge.pads[(0 : Pad)].cells = srstWritten.pads[(0 : Pad)].initCells := State.fabricEdge_srst rfl rfl
  have cells := congrArg (fun v : Vector CellSt 384 => v[(0 : Cell)]) (reset.symm.trans kept)
  have cell : (0 : Word) = 1 := congrArg CellSt.q ((PadSt.initCells_cell _ _).symm.trans cells)
  exact absurd cell (by decide)

open Sys2Proof Sys2Proof.Machine in
/-- Refutes O55: its clause on SRST has every cell at INIT once the write completes. The cells take INIT at the next fabric edge (R183): until
then they hold what they held. -/
theorem not_wardensBusAndRegisters : ¬ Obligations.WardensBusAndRegisters := by
  intro h
  obtain ⟨-, -, registers, -⟩ := h cellRan 0 (by decide +kernel)
  obtain ⟨⟨t, run, cells, -⟩, -⟩ := registers (.core 0 0) (by decide +kernel)
  obtain rfl : srstWritten = t := Host.Outcome.next.inj (srst_cellRan.symm.trans run)
  have cell : (1 : Word) = 0 := cellRan_cell.symm.trans ((congrArg CellSt.q (cells 0)).trans cellRan_init)
  exact absurd cell (by decide)

end

section
/-! Posts and cancels through a paddock's beam port (O40). -/

namespace Sys2Proof.Machine

open Safety

section
variable {s : State} {h : Head}

/-- What a post leaves of the paddocks and the other heads, the code that it answers, and the entry that it places. -/
theorem State.post_spec (s : State) (h : Head) (e : QEntry) (fresh : e.idx = 0 ∧ e.gen = 0) : let t := s.post e.req h e.w0 e.w1 e.w2 e.w3
    fld t.2 23 21 = s.postCode h e ∧ t.1.pads = s.pads ∧ (∀ g : Head, g ≠ h → t.1.heads[g] = s.heads[g]) ∧
    (s.postCode h e ≠ 0 → t.1.heads = s.heads) ∧
    (s.postCode h e = 0 → s.running h.val = false → ∃ i g, t.1.heads[h].queue = s.heads[h].queue ++ [{ e with idx := i, gen := g }]) := by
  obtain ⟨idx, gen, w0, w1, w2, w3, r⟩ := e
  obtain ⟨rfl, rfl⟩ := fresh
  intro t
  by_cases refused : s.postCode h { idx := 0, gen := 0, w0, w1, w2, w3, req := r } ≠ 0
  · have is : t = _ := State.post_refused r rfl refused
    have heads : t.1.heads = s.heads := by
      rw [is]
      dsimp only
      split <;> simp [State.evHead]
    have pads : t.1.pads = s.pads := by
      rw [is]
      dsimp only
      split <;> simp [State.evHead]
    refine ⟨?_, pads, fun g _ => by rw [heads], fun _ => heads, fun none => absurd none refused⟩
    rw [is]
    exact (codeWord_fields (s.postCode_lt h _)).1
  · have taken := not_not.1 refused
    obtain ⟨i, g, small, few, free, -, placed⟩ := State.post_accepted r taken
    have entered := s.entered_spec h { idx := i, gen := g, w0, w1, w2, w3, req := r }
    obtain ⟨early, -, -, -, -, others⟩ := entered.postLate free
    have quiet : HeadQuiet h s t.1 := by
      rw [show t = _ from placed]
      unfold State.postLate
      exact entered.toHeadQuiet.when fun q => q.lateAll _
    refine ⟨?_, quiet.pads, quiet.others, fun ne => absurd taken ne, fun _ still => ⟨i, g, ?_⟩⟩
    · rw [show t = _ from placed, taken]
      exact (handle_fields h.isLt few small).1
    · rw [show t = _ from placed]
      exact (early (by rw [still]; rfl)).1

/-- What a cancel leaves of the paddocks and the heads. -/
theorem State.cancel_spec (s : State) (r : Requester) (h : Head) (v : Word) : let t := s.cancel r h v
    fld t.2 23 21 = s.cancelCode r h v ∧ t.1.pads = s.pads ∧ (∀ g : Head, g ≠ h → t.1.heads[g] = s.heads[g]) ∧
    (s.cancelCode r h v ≠ 6 → t.1.heads = s.heads) ∧
    (s.cancelCode r h v = 6 → t.1.heads[h].queue = s.heads[h].queue.filter fun x => x.idx ≠ fld v 9 0) := by
  have small : s.cancelCode r h v < 8 := by
    unfold State.cancelCode
    repeat' split
    all_goals decide
  intro t
  have shown : fld t.2 23 21 = s.cancelCode r h v := by
    rw [show t = _ from s.cancel_eq r h v]
    exact (codeWord_fields small).1
  by_cases gone : s.cancelCode r h v = 6
  · have is : t.1 = s.dropEntry h (fld v 9 0) := by rw [show t = _ from s.cancel_eq r h v]; exact if_pos gone
    have only : HeadOnly h [aHead h.val 0x0C] s t.1 := by
      rw [is]
      exact (HeadOnly.refl h _ s).dropEntry _ (List.mem_singleton_self _)
    refine ⟨shown, by rw [only.only], only.others, fun ne => absurd gone ne, fun _ => ?_⟩
    rw [is]
    refine (s.dropEntry_queue h _).trans (List.filter_congr fun x _ => ?_)
    rw [bne, decide_not, beq_eq_decide]
  · have is : t.1 = s := by rw [show t = _ from s.cancel_eq r h v]; exact if_neg gone
    rw [is]
    exact ⟨shown, rfl, fun _ _ => rfl, fun _ => rfl, fun e => absurd e gone⟩

/-- The three fields of a handle that a beam port takes over (R170). -/
theorem handle_fields_wd (w : Word) : fld (wd (fld w 20 0)) 9 0 = fld w 9 0 ∧ fld (wd (fld w 20 0)) 17 10 = fld w 17 10 ∧
    fld (wd (fld w 20 0)) 20 18 = fld w 20 18 := by
  simp only [fld, nbits, wd, BitVec.toNat_ofNat, Nat.shiftRight_eq_div_pow]
  omega

theorem State.cancelCode_handle (s : State) (r : Requester) (h : Head) (w : Word) : s.cancelCode r h (wd (fld w 20 0)) = s.cancelCode r h w := by
  obtain ⟨idx, gen, head⟩ := handle_fields_wd w
  unfold State.cancelCode
  rw [idx, gen, head]

/-- The result of a post or a cancel is on its way for three cycles. -/
def State.awaitResult (s : State) (p : Pad) (st : Word) : State := s.modPad p fun x => { x with post := some (3, st) }

theorem State.awaitResult_pads {t : State} (same : t.pads = s.pads) (p : Pad) (st : Word) : let u := t.awaitResult p st
    (u.pads[p].post.map fun x => (x.1, fld x.2 23 21)) = some (3, fld st 23 21) ∧ ∀ o : Pad, o ≠ p → u.pads[o] = s.pads[o] := by
  refine ⟨?_, fun o ne => (getElem_vmod_ne _ _ ne).trans (by rw [same])⟩
  simp only [State.awaitResult, State.modPad, getElem_vmod_same, Option.map_some]

end

end Sys2Proof.Machine

open Sys2Proof Sys2Proof.Machine in
/-- Settles O40: the port's commands are `State.post` and `State.cancel` with the paddock as requester; their answer joins the paddock's state. -/
theorem paddockQueuePort : Obligations.PaddockQueuePort := by
  intro s p c h e post cancel
  refine ⟨fun given => ?_, fun none => ⟨s, if_neg (Bool.eq_false_iff.1 none), rfl⟩, fun given => ?_,
    fun none => ⟨s, if_neg (Bool.eq_false_iff.1 none), rfl⟩⟩
  · have run : exec (.paddockPost p) s = .next ((s.post e.req h e.w0 e.w1 e.w2 e.w3).1.awaitResult p (s.post e.req h e.w0 e.w1 e.w2 e.w3).2) :=
      if_pos given
    obtain ⟨shown, pads, others, refused, placed⟩ := s.post_spec h e ⟨rfl, rfl⟩
    generalize s.post e.req h e.w0 e.w1 e.w2 e.w3 = u at run shown pads others refused placed
    obtain ⟨awaited, rest⟩ := State.awaitResult_pads pads p u.2
    refine completes_of_eq run ⟨awaited.trans (by rw [shown]), rest, refused, fun taken still => ?_, others⟩
    obtain ⟨i, g, queue⟩ := placed taken still
    change (u.1.heads[h].queue.getLast?.map _) = _
    rw [queue, List.getLast?_concat]
    rfl
  · let v := s.portSink p.val 0
    have run : exec (.paddockCancel p) s = .next ((s.cancel (.paddock p) h (wd (fld v 20 0))).1.awaitResult p
        (s.cancel (.paddock p) h (wd (fld v 20 0))).2) := if_pos given
    obtain ⟨shown, pads, others, refused, gone⟩ := s.cancel_spec (.paddock p) h (wd (fld v 20 0))
    rw [State.cancelCode_handle] at shown refused gone
    rw [(handle_fields_wd _).1] at gone
    generalize s.cancel (.paddock p) h (wd (fld v 20 0)) = u at run shown pads others refused gone
    obtain ⟨awaited, rest⟩ := State.awaitResult_pads pads p u.2
    exact completes_of_eq run ⟨⟨awaited.trans (by rw [shown]; rfl), refused, gone⟩, rest, others⟩

end

section
/-! The macrocell operations (R150, R151): what each makes of its operands, as values and flags. -/

namespace Sys2Proof.Machine

open Safety

/-! ### Words as signed numbers -/

theorem sgn_cases (w : Word) : (w.toNat < 2 ^ 23 ∧ sgn w = w.toNat) ∨ (2 ^ 23 ≤ w.toNat ∧ sgn w = w.toNat - 2 ^ 24) := by
  have := w.isLt
  unfold sgn sext
  omega

/-- A number outside 24 bits is one that no word congruent to it has as its value. -/
theorem over24_eq {q : Word} {i : Int} (same : (q.toNat : Int) % 2 ^ 24 = i % 2 ^ 24) : over24 i = decide (sgn q ≠ i) := by
  have := q.isLt
  have := sgn_cases q
  unfold over24
  exact decide_eq_decide.2 (by omega)

theorem toNat_wd_umod {i : Int} (low : 0 ≤ i) (high : i ≤ 0xFFFFFF) : ((wd (umod 24 i)).toNat : Int) = i := by
  simp only [wd, umod, BitVec.toNat_ofNat]
  omega

theorem sgn_wd_umod {i : Int} (low : -0x800000 ≤ i) (high : i ≤ 0x7FFFFF) : sgn (wd (umod 24 i)) = i := by
  have := sgn_cases (wd (umod 24 i))
  have value : (wd (umod 24 i)).toNat = umod 24 i % 2 ^ 24 := BitVec.toNat_ofNat _ _
  simp only [umod] at *
  omega

theorem sext_umod {i : Int} (low : -2 ^ 47 ≤ i) (high : i < 2 ^ 47) : sext 48 (umod 48 i) = i := by
  unfold sext umod
  omega

/-- Of a 48-bit number, as of a word: it lies outside 48 bits where its residue does not give it back. -/
theorem over48_eq (i : Int) : over48 i = decide (sext 48 (umod 48 i) ≠ i) := by
  unfold over48 sext umod
  exact decide_eq_decide.2 (by omega)

/-! ### What a cell takes -/

/-- Z and N are of the result, C and V are given, and QH keeps (R150). -/
def WordFlags (o : Opnd) (x : CellSt) (c v : Bool) : Prop := x.z = (x.q == 0) ∧ x.n = bit x.q 23 ∧ x.c = c ∧ x.v = v ∧ x.qh = o.old.qh

theorem take_flags (o : Opnd) (q : Word) (c v : Bool) : WordFlags o (o.old.take q c v) c v := ⟨rfl, rfl, rfl, rfl, rfl⟩

/-- Z and N are of the 48 bits, C and V are given (R150). -/
def WideFlags (x : CellSt) (c v : Bool) : Prop := x.z = decide (x.q = 0 ∧ x.qh = 0) ∧ x.n = bit x.qh 23 ∧ x.c = c ∧ x.v = v

theorem take48_acc (x : CellSt) (r : Nat) (c v : Bool) : (x.take48 r c v).acc = r % 2 ^ 48 := by
  simp only [CellSt.acc, CellSt.take48, wd, BitVec.toNat_ofNat, Nat.shiftRight_eq_div_pow]
  omega

theorem take48_flags (x : CellSt) (r : Nat) (c v : Bool) : WideFlags (x.take48 r c v) c v := by
  refine ⟨?_, ?_, rfl, rfl⟩
  · change decide _ = decide _
    refine decide_eq_decide.2 ?_
    simp only [CellSt.take48, wd, ← BitVec.toNat_inj, BitVec.toNat_ofNat, Nat.shiftRight_eq_div_pow, BitVec.ofNat_eq_ofNat]
    omega
  · simp only [CellSt.take48, bit, wd, BitVec.getLsbD_ofNat, Nat.testBit_shiftRight, show decide (23 < 24) = true from rfl, Bool.true_and]

theorem clampI_eq {lo hi : Int} (order : lo ≤ hi) (i : Int) : clampI lo hi i = max lo (min i hi) := by
  unfold clampI
  split
  · omega
  · split <;> omega

/-- A result clamped to unsigned bounds, and whether it was. -/
theorem clamped_unsigned (o : Opnd) {lo hi : Int} (low : 0 ≤ lo) (order : lo ≤ hi) (high : hi ≤ 0xFFFFFF) (i : Int) : let x := o.old.clamped lo hi i
    (x.q.toNat : Int) = max lo (min i hi) ∧ WordFlags o x false (decide ((x.q.toNat : Int) ≠ i)) := by
  have value : ((wd (umod 24 (clampI lo hi i))).toNat : Int) = max lo (min i hi) := by
    rw [clampI_eq order]
    exact toNat_wd_umod (by omega) (by omega)
  refine ⟨value, ?_⟩
  have tells : decide (i < lo ∨ hi < i) = decide (((wd (umod 24 (clampI lo hi i))).toNat : Int) ≠ i) := decide_eq_decide.2 (by omega)
  exact tells ▸ take_flags o _ _ _

/-- A result clamped to signed bounds, and whether it was. -/
theorem clamped_signed (o : Opnd) {lo hi : Int} (low : -0x800000 ≤ lo) (order : lo ≤ hi) (high : hi ≤ 0x7FFFFF) (i : Int) : let x := o.old.clamped lo hi i
    sgn x.q = max lo (min i hi) ∧ WordFlags o x false (decide (sgn x.q ≠ i)) := by
  have value : sgn (wd (umod 24 (clampI lo hi i))) = max lo (min i hi) := by
    rw [clampI_eq order]
    exact sgn_wd_umod (by omega) (by omega)
  refine ⟨value, ?_⟩
  have tells : decide (i < lo ∨ hi < i) = decide (sgn (wd (umod 24 (clampI lo hi i))) ≠ i) := decide_eq_decide.2 (by omega)
  exact tells ▸ take_flags o _ _ _

/-! ### Sums and comparisons -/

section
variable (o : Opnd)

theorem b2n_le (b : Bool) : b2n b ≤ 1 := Bool.toNat_le b

theorem opAdd_spec : let x := opAdd o; let ci := b2n o.ci
    x.q.toNat = (o.a.toNat + o.b.toNat + ci) % 2 ^ 24 ∧
    WordFlags o x (decide (2 ^ 24 ≤ o.a.toNat + o.b.toNat + ci)) (decide (sgn x.q ≠ sgn o.a + sgn o.b + (ci : Int))) := by
  intro x ci
  have value : (wd (o.a.toNat + o.b.toNat + ci)).toNat = (o.a.toNat + o.b.toNat + ci) % 2 ^ 24 := BitVec.toNat_ofNat _ _
  refine ⟨value, ?_⟩
  have overflow : over24 (sgn o.a + sgn o.b + (ci : Int)) = decide (sgn x.q ≠ sgn o.a + sgn o.b + (ci : Int)) :=
    over24_eq (by
      have := sgn_cases o.a
      have := sgn_cases o.b
      have : x.q.toNat = _ := value
      omega)
  exact overflow ▸ take_flags o _ _ _

theorem opSub_spec : let x := opSub o; let ci := b2n o.ci
    x.q = o.a - o.b - wd ci ∧
    WordFlags o x (decide (o.a.toNat < o.b.toNat + ci)) (decide (sgn x.q ≠ sgn o.a - sgn o.b - (ci : Int))) := by
  intro x ci
  have one : ci ≤ 1 := b2n_le o.ci
  have value : (wd (o.a.toNat + 2 ^ 25 - o.b.toNat - ci)).toNat = (o.a.toNat + 2 ^ 25 - o.b.toNat - ci) % 2 ^ 24 := BitVec.toNat_ofNat _ _
  have ha := o.a.isLt
  have hb := o.b.isLt
  refine ⟨BitVec.eq_of_toNat_eq (value.trans ?_), ?_⟩
  · rw [BitVec.toNat_sub, BitVec.toNat_sub, wd, BitVec.toNat_ofNat]
    omega
  · have overflow : over24 (sgn o.a - sgn o.b - (ci : Int)) = decide (sgn x.q ≠ sgn o.a - sgn o.b - (ci : Int)) :=
      over24_eq (by
        have := sgn_cases o.a
        have := sgn_cases o.b
        have : x.q.toNat = _ := value
        omega)
    exact overflow ▸ take_flags o _ _ _

theorem opCmp_spec : let x := opCmp o
    x.q = o.old.q ∧ x.qh = o.old.qh ∧ x.z = (o.a == o.b) ∧ x.n = decide (sgn o.a < sgn o.b) ∧ x.c = decide (o.a.toNat < o.b.toNat) ∧ x.v = false :=
  ⟨rfl, rfl, rfl, rfl, rfl, rfl⟩

theorem opSelc_spec : let x := opSelc o; x.q = (if o.ci then o.a else o.b) ∧ WordFlags o x false false := ⟨rfl, take_flags o _ _ _⟩

theorem opMinu_spec : let x := opMinu o
    x.q.toNat = min o.a.toNat o.b.toNat ∧ WordFlags o x (decide (o.a.toNat < o.b.toNat)) false := by
  refine ⟨?_, take_flags o _ _ _⟩
  simp only [opMinu, CellSt.take, BitVec.lt_def]
  split <;> omega

theorem opMaxu_spec : let x := opMaxu o
    x.q.toNat = max o.a.toNat o.b.toNat ∧ WordFlags o x (decide (o.a.toNat < o.b.toNat)) false := by
  refine ⟨?_, take_flags o _ _ _⟩
  simp only [opMaxu, CellSt.take, BitVec.lt_def]
  split <;> omega

theorem opMins_spec : let x := opMins o
    sgn x.q = min (sgn o.a) (sgn o.b) ∧ WordFlags o x (decide (sgn o.a < sgn o.b)) false := by
  refine ⟨?_, take_flags o _ _ _⟩
  simp only [opMins, CellSt.take]
  split <;> omega

theorem opMaxs_spec : let x := opMaxs o
    sgn x.q = max (sgn o.a) (sgn o.b) ∧ WordFlags o x (decide (sgn o.a < sgn o.b)) false := by
  refine ⟨?_, take_flags o _ _ _⟩
  simp only [opMaxs, CellSt.take]
  split <;> omega

/-! ### Bits and shifts -/

/-- A number formed bit by bit. -/
theorem testBit_formed (f : Nat → Bool) (k : Nat) : let n := (List.range k).foldl (fun n i => if f i then n + 2 ^ i else n) 0
    n < 2 ^ k ∧ ∀ i, n.testBit i = (decide (i < k) && f i) := by
  induction k with
  | zero => simp
  | succ k ih =>
    obtain ⟨small, bits⟩ := ih
    simp only [List.range_succ, List.foldl_append, List.foldl_cons, List.foldl_nil]
    generalize (List.range k).foldl (fun n i => if f i then n + 2 ^ i else n) 0 = n at small bits ⊢
    have bound : (if f k then n + 2 ^ k else n) < 2 ^ (k + 1) := by
      rw [Nat.pow_succ]
      split <;> omega
    refine ⟨bound, fun i => ?_⟩
    rcases Nat.lt_trichotomy i k with below | rfl | above
    · have same : (if f k then n + 2 ^ k else n).testBit i = n.testBit i := by
        split
        · rw [Nat.add_comm, Nat.testBit_two_pow_add_gt below]
        · rfl
      rw [same, bits, decide_eq_true below, decide_eq_true (show i < k + 1 by omega)]
    · have top : n.testBit i = false := Nat.testBit_lt_two_pow small
      cases f i <;> simp [Nat.add_comm n, Nat.testBit_two_pow_add_eq, top]
    · rw [Nat.testBit_lt_two_pow (bound.trans_le (Nat.pow_le_pow_right (by decide) above))]
      simp [show ¬ i < k + 1 by omega]

theorem opLogic_spec : let x := opLogic o
    (∀ i < 24, bit x.q i = o.tt.getLsbD (2 * b2n (bit o.a i) + b2n (bit o.b i))) ∧ WordFlags o x false false := by
  refine ⟨fun i hi => ?_, take_flags o _ _ _⟩
  obtain ⟨-, bits⟩ := testBit_formed (fun i => o.tt.getLsbD (2 * b2n (bit o.a i) + b2n (bit o.b i))) 24
  simp only [opLogic, CellSt.take, wd, bit, BitVec.getLsbD_ofNat] at bits ⊢
  rw [bits, decide_eq_true hi]
  simp

theorem opShl_spec : let x := opShl o
    (∀ i < 24, bit x.q i = (decide (o.n ≤ i) && bit o.a (i - o.n))) ∧
    WordFlags o x (decide (0 < o.n ∧ o.n ≤ 24) && bit o.a (24 - o.n)) false := by
  refine ⟨fun i hi => ?_, take_flags o _ _ _⟩
  simp only [opShl, CellSt.take, bit, BitVec.getLsbD_shiftLeft, decide_eq_true hi, Bool.true_and]
  rw [← decide_not, decide_eq_decide.2 Nat.not_lt]

theorem opShr_spec : let x := opShr o
    (∀ i < 24, bit x.q i = bit o.a (i + o.n)) ∧ WordFlags o x (decide (0 < o.n) && bit o.a (o.n - 1)) false := by
  refine ⟨fun i _ => ?_, take_flags o _ _ _⟩
  simp only [opShr, CellSt.take, bit, BitVec.getLsbD_ushiftRight, Nat.add_comm]

theorem opSar_spec : let x := opSar o
    (∀ i < 24, bit x.q i = bit o.a (min 23 (i + o.n))) ∧ WordFlags o x (decide (0 < o.n) && bit o.a (min 23 (o.n - 1))) false := by
  refine ⟨fun i hi => ?_, take_flags o _ _ _⟩
  simp only [opSar, CellSt.take, bit, BitVec.getLsbD_sshiftRight, decide_eq_false (Nat.not_le.2 hi), Bool.not_false, Bool.true_and, BitVec.msb_eq_getLsbD_last]
  split
  · rw [Nat.min_eq_right (by omega), Nat.add_comm]
  · rw [Nat.min_eq_left (by omega)]

theorem opRol_spec : let x := opRol o
    (∀ i < 24, bit x.q ((i + o.n) % 24) = bit o.a i) ∧ WordFlags o x false false := by
  refine ⟨fun i hi => ?_, take_flags o _ _ _⟩
  simp only [opRol, CellSt.take, bit, BitVec.getLsbD_rotateLeft, Nat.mod_mod]
  by_cases wraps : i + o.n % 24 < 24
  · rw [decide_eq_false (by omega), decide_eq_true (by omega), cond_false, Bool.true_and]
    congr 1
    omega
  · rw [decide_eq_true (by omega), cond_true]
    congr 1
    omega

/-! ### Saturating operations -/

theorem opAddsu_spec : let x := opAddsu o
    x.q.toNat = min (o.a.toNat + o.b.toNat) 0xFFFFFF ∧ WordFlags o x false (decide (x.q.toNat ≠ o.a.toNat + o.b.toNat)) := by
  obtain ⟨value, flags⟩ := clamped_unsigned o (lo := 0) (hi := 0xFFFFFF) (by decide) (by decide) (by decide) (o.a.toNat + o.b.toNat : Nat)
  refine ⟨?_, ?_⟩
  · simp only [opAddsu]
    omega
  · have tells : decide (((opAddsu o).q.toNat : Int) ≠ (o.a.toNat + o.b.toNat : Nat)) = decide ((opAddsu o).q.toNat ≠ o.a.toNat + o.b.toNat) :=
      decide_eq_decide.2 (by omega)
    exact tells ▸ flags

theorem opAddss_spec : let x := opAddss o
    sgn x.q = max (-0x800000) (min (sgn o.a + sgn o.b) 0x7FFFFF) ∧ WordFlags o x false (decide (sgn x.q ≠ sgn o.a + sgn o.b)) :=
  clamped_signed o (by decide) (by decide) (by decide) _

theorem opSubsu_spec : let x := opSubsu o
    x.q.toNat = o.a.toNat - o.b.toNat ∧ WordFlags o x false (decide (o.a.toNat < o.b.toNat)) := by
  obtain ⟨value, flags⟩ := clamped_unsigned o (lo := 0) (hi := 0xFFFFFF) (by decide) (by decide) (by decide) ((o.a.toNat : Int) - o.b.toNat)
  have := o.a.isLt
  refine ⟨?_, ?_⟩
  · simp only [opSubsu]
    omega
  · have tells : decide (((opSubsu o).q.toNat : Int) ≠ (o.a.toNat : Int) - o.b.toNat) = decide (o.a.toNat < o.b.toNat) :=
      decide_eq_decide.2 (by simp only [opSubsu]; omega)
    exact tells ▸ flags

theorem opSubss_spec : let x := opSubss o
    sgn x.q = max (-0x800000) (min (sgn o.a - sgn o.b) 0x7FFFFF) ∧ WordFlags o x false (decide (sgn x.q ≠ sgn o.a - sgn o.b)) :=
  clamped_signed o (by decide) (by decide) (by decide) _

theorem opSatu_spec (width : o.m ≤ 24) : let x := opSatu o
    (x.q.toNat : Int) = max 0 (min (sgn o.a) (2 ^ o.m - 1)) ∧ WordFlags o x false (decide ((x.q.toNat : Int) ≠ sgn o.a)) := by
  have bound : 2 ^ o.m ≤ 2 ^ 24 := Nat.pow_le_pow_right (by decide) width
  have some : 1 ≤ 2 ^ o.m := Nat.one_le_two_pow
  have top : ((2 ^ o.m - 1 : Nat) : Int) = 2 ^ o.m - 1 := by push_cast [some]; rfl
  rw [← top]
  exact clamped_unsigned o (by decide) (by omega) (by omega) _

theorem opSats_spec (width : o.m ≤ 24) : let x := opSats o
    sgn x.q = max (-2 ^ (o.m - 1)) (min (sgn o.a) (2 ^ (o.m - 1) - 1)) ∧ WordFlags o x false (decide (sgn x.q ≠ sgn o.a)) := by
  have bound : 2 ^ (o.m - 1) ≤ 2 ^ 23 := Nat.pow_le_pow_right (by decide) (by omega)
  have some : 1 ≤ 2 ^ (o.m - 1) := Nat.one_le_two_pow
  have top : ((2 ^ (o.m - 1) - 1 : Nat) : Int) = 2 ^ (o.m - 1) - 1 := by push_cast [some]; rfl
  have bottom : ((2 ^ (o.m - 1) : Nat) : Int) = 2 ^ (o.m - 1) := by push_cast; rfl
  rw [← top, ← bottom]
  exact clamped_signed o (by omega) (by omega) (by omega) _

/-! ### Products -/

theorem opMulu_spec : let x := opMulu o; x.acc = o.a.toNat * o.b.toNat ∧ WideFlags x false false := by
  have small : o.a.toNat * o.b.toNat < 2 ^ 24 * 2 ^ 24 := Nat.mul_lt_mul'' o.a.isLt o.b.isLt
  exact ⟨(take48_acc _ _ _ _).trans (Nat.mod_eq_of_lt small), take48_flags _ _ _ _⟩

theorem umod_lt (i : Int) : umod 48 i < 2 ^ 48 := by
  unfold umod
  omega

/-- The product of two words fits 48 bits. -/
theorem sgn_mul_range (a b : Word) : -2 ^ 47 ≤ sgn a * sgn b ∧ sgn a * sgn b < 2 ^ 47 := by
  have ha : |sgn a| ≤ 2 ^ 23 := abs_le.2 (by have := a.isLt; have := sgn_cases a; omega)
  have hb : |sgn b| ≤ 2 ^ 23 := abs_le.2 (by have := b.isLt; have := sgn_cases b; omega)
  have product : |sgn a * sgn b| ≤ 2 ^ 23 * 2 ^ 23 := by
    rw [abs_mul]
    exact mul_le_mul ha hb (abs_nonneg _) (by decide)
  have := abs_le.1 product
  omega

theorem opMuls_spec : let x := opMuls o; sext 48 x.acc = sgn o.a * sgn o.b ∧ WideFlags x false false := by
  refine ⟨?_, take48_flags _ _ _ _⟩
  obtain ⟨low, high⟩ := sgn_mul_range o.a o.b
  exact (congrArg (sext 48) ((take48_acc _ _ _ _).trans (Nat.mod_eq_of_lt (umod_lt _)))).trans (sext_umod low high)

theorem opMacu_spec : let x := opMacu o; x.acc = (o.old.acc + o.a.toNat * o.b.toNat) % 2 ^ 48 ∧
    WideFlags x (decide (2 ^ 48 ≤ o.old.acc + o.a.toNat * o.b.toNat)) false :=
  ⟨(take48_acc _ _ _ _).trans (Nat.mod_mod _ _), take48_flags _ _ _ _⟩

theorem opMacs_spec : let x := opMacs o; let exact := sext 48 o.old.acc + sgn o.a * sgn o.b
    x.acc = umod 48 exact ∧ WideFlags x false (decide (sext 48 x.acc ≠ exact)) := by
  intro x sum
  have value : x.acc = umod 48 sum := (take48_acc o.old _ _ _).trans (Nat.mod_eq_of_lt (umod_lt _))
  refine ⟨value, ?_⟩
  rw [value, ← over48_eq]
  exact take48_flags o.old _ _ _

end

/-! ### A cell runs its operation -/

section
variable {s : State} {p : Pad} {n : Cell} (free : CellFree s p n)
include free

/-- Where R145 holds of a cell, its registers are what its operation gives, and nothing else changes. -/
theorem cellPut_takes {c : CellSt} {P : CellSt → Prop} (is : P c) : CellTakes s (s.cellPut p n c) p n P := by
  let f : PadSt → PadSt := fun x => { x with cells := x.cells.set n.val c, acted := n.val :: x.acted }
  have put : s.cellPut p n c = s.modPad p f := if_neg (Bool.eq_false_iff.1 free.2)
  have taken : (s.modPad p f).pads[p].cells[n] = c := by
    simp only [f, State.modPad, vmod, Fin.getElem_fin, Vector.getElem_set_self]
  rw [put, CellTakes, taken]
  exact ⟨is, rfl⟩

omit free in
/-- An element that has not acted acts in the present cycle. -/
theorem State.freshCycle_of_fresh {k : Nat} (fresh : s.pads[p].acted.contains k = false) : s.freshCycle p k = s := if_neg (Bool.eq_false_iff.1 fresh)

/-- A cell that runs an operation takes what the operation gives of its operands. -/
theorem runOp_takes {op : Nat} (runs : s.cellRuns p n op = true) {f : State → Opnd → CellSt} {P : CellSt → Prop} (is : P (f s (s.opnd p.val n))) :
    CellTakes s (s.runOp p n op f) p n P := by
  unfold State.runOp
  rw [State.freshCycle_of_fresh free.1]
  exact (if_pos runs).symm ▸ cellPut_takes free is

omit free in
/-- The width of a saturation (R150). -/
theorem State.opnd_width (s : State) (p : Nat) (n : Cell) : (s.opnd p n).m ≤ 24 := by
  unfold State.opnd
  dsimp only
  split <;> omega

end

end Sys2Proof.Machine

open Sys2Proof Sys2Proof.Machine in
/-- Settles O50: a cell that runs an operation takes what it gives (`runOp_takes`), and what that is each operation's own lemma says. -/
theorem cellWordOperations : Obligations.CellWordOperations := by
  intro s p n free o fl ci runs
  exact ⟨fun r => ⟨_, rfl, runOp_takes free r ⟨rfl, take_flags o _ _ _⟩⟩, fun r => ⟨_, rfl, runOp_takes free r (opAdd_spec o)⟩,
    fun r => ⟨_, rfl, runOp_takes free r (opSub_spec o)⟩, fun r => ⟨_, rfl, runOp_takes free r (opLogic_spec o)⟩,
    fun r => ⟨_, rfl, runOp_takes free r (opCmp_spec o)⟩, fun r => ⟨_, rfl, runOp_takes free r (opShl_spec o)⟩,
    fun r => ⟨_, rfl, runOp_takes free r (opShr_spec o)⟩, fun r => ⟨_, rfl, runOp_takes free r (opSar_spec o)⟩,
    fun r => ⟨_, rfl, runOp_takes free r (opRol_spec o)⟩, fun r => ⟨_, rfl, runOp_takes free r (opSelc_spec o)⟩,
    fun r => ⟨_, rfl, runOp_takes free r (opMinu_spec o)⟩, fun r => ⟨_, rfl, runOp_takes free r (opMaxu_spec o)⟩,
    fun r => ⟨_, rfl, runOp_takes free r (opMins_spec o)⟩, fun r => ⟨_, rfl, runOp_takes free r (opMaxs_spec o)⟩⟩

open Sys2Proof Sys2Proof.Machine in
/-- Settles O51, as O50: by each operation's own lemma. -/
theorem cellSaturationAndProducts : Obligations.CellSaturationAndProducts := by
  intro s p n free o fl fl48 runs total
  have width : o.m ≤ 24 := s.opnd_width p.val n
  exact ⟨fun r => ⟨_, rfl, runOp_takes free r (opAddsu_spec o)⟩, fun r => ⟨_, rfl, runOp_takes free r (opAddss_spec o)⟩,
    fun r => ⟨_, rfl, runOp_takes free r (opSubsu_spec o)⟩, fun r => ⟨_, rfl, runOp_takes free r (opSubss_spec o)⟩,
    fun r => ⟨_, rfl, runOp_takes free r (opSatu_spec o width)⟩, fun r => ⟨_, rfl, runOp_takes free r (opSats_spec o width)⟩,
    fun r => ⟨_, rfl, runOp_takes free r (opMulu_spec o)⟩, fun r => ⟨_, rfl, runOp_takes free r (opMuls_spec o)⟩,
    fun r => ⟨_, rfl, runOp_takes free r (opMacu_spec o)⟩, fun r => ⟨_, rfl, runOp_takes free r (opMacs_spec o)⟩⟩

end

section
/-! What accesses to DRAM leave while they wait in the scheduler: the paddocks, DRAM itself, and the reads that wait already (R131, R133). -/

namespace Sys2Proof.Machine

/-- A read of unit u by q waits on channel c. -/
def Reads (s : State) (c : Chan) (q : DramUser) (u : Nat) : Prop := ∃ x ∈ s.chans[c].reads, x.user = q ∧ x.unit = u

/-- From s to t paddocks, DRAM and its configuration are as before, and every read that waits still does. -/
structure ReadsGrow (s t : State) : Prop where
  pads : t.pads = s.pads
  dram : t.dram = s.dram
  config : ∀ off < 2, t.rd (aDram off) = s.rd (aDram off)
  reads : ∀ c q u, Reads s c q u → Reads t c q u

theorem ReadsGrow.refl (s : State) : ReadsGrow s s := ⟨rfl, rfl, fun _ _ => rfl, fun _ _ _ r => r⟩

/-- The channel of an address goes by DRCFG alone (R129). -/
theorem State.chanOf_congr {s t : State} (config : t.rd (aDram 0) = s.rd (aDram 0)) : t.chanOf = s.chanOf := by
  funext a
  unfold State.chanOf State.fget
  rw [config]

section
variable {s t : State} (g : ReadsGrow s t)
include g

theorem ReadsGrow.trans {u : State} (f : ReadsGrow t u) : ReadsGrow s u :=
  ⟨f.pads.trans g.pads, f.dram.trans g.dram, fun a h => (f.config a h).trans (g.config a h), fun c q n r => f.reads c q n (g.reads c q n r)⟩

theorem ReadsGrow.chanOf : t.chanOf = s.chanOf := State.chanOf_congr (g.config 0 (by decide))

theorem ReadsGrow.ite {u : State} {c : Prop} [Decidable c] (f : ReadsGrow s u) : ReadsGrow s (if c then u else t) := by
  split <;> assumption

theorem ReadsGrow.foldl {α : Type} {f : State → α → State} {l : List α} (hf : ∀ u x, ReadsGrow s u → ReadsGrow s (f u x)) :
    ReadsGrow s (l.foldl f t) :=
  List.foldlRecOn l f g fun u hu x _ => hf u x hu

/-- A change of other state. -/
theorem ReadsGrow.congr {u : State} (pads : u.pads = t.pads := by rfl) (dram : u.dram = t.dram := by rfl) (ws : u.ws = t.ws := by rfl)
    (chans : u.chans = t.chans := by rfl) : ReadsGrow s u :=
  g.trans ⟨pads, dram, fun _ _ => by rw [State.rd, ws, State.rd], fun c q n r => by rwa [Reads, chans]⟩

/-- A change of a channel that keeps its reads, but for what they will bring. -/
theorem ReadsGrow.modChan (d : Chan) {f : ChanSt → ChanSt} (hf : ∀ y : ChanSt, ∀ x ∈ y.reads, ∃ z ∈ (f y).reads, z.user = x.user ∧ z.unit = x.unit) :
    ReadsGrow s (t.modChan d f) := by
  refine g.trans ⟨rfl, rfl, fun _ _ => rfl, fun c q n ⟨x, hx, hq, hn⟩ => ?_⟩
  by_cases same : c = d
  · subst same
    obtain ⟨z, hz, zq, zn⟩ := hf _ x hx
    exact ⟨z, by rwa [State.modChan, getElem_vmod_same], zq.trans hq, zn.trans hn⟩
  · exact ⟨x, by rwa [State.modChan, getElem_vmod_ne _ _ same], hq, hn⟩

omit g in
/-- A read among those that a channel takes waits there. -/
theorem State.setReads_reads (s : State) (c : Chan) {l : List DRead} {x : DRead} (hx : x ∈ l) : Reads (s.setReads c l) c x.user x.unit := by
  obtain ⟨y, hy, takes⟩ : ∃ y ∈ s.tagAll l, TakesTag x y := by
    obtain ⟨i, hi, rfl⟩ := List.getElem_of_mem hx
    have given := s.tagAll_given l
    exact ⟨_, List.getElem_mem (given.length_eq ▸ hi), (List.forall₂_iff_get.1 given).2 i hi (given.length_eq ▸ hi)⟩
  refine ⟨y, by rwa [State.setReads_same], ?_, ?_⟩
  · exact (congrArg DRead.user takes.1).symm
  · exact (congrArg DRead.unit takes.1).symm

theorem ReadsGrow.setReads (c : Chan) {l : List DRead} (more : ∀ x ∈ t.chans[c].reads, x ∈ l) : ReadsGrow s (t.setReads c l) := by
  refine g.trans ⟨rfl, rfl, fun off small => t.setReads_rd_ne c l (by simp only [aDram, aChan]; omega), fun d q n ⟨x, hx, hq, hn⟩ => ?_⟩
  by_cases same : d = c
  · subst same
    exact hq ▸ hn ▸ t.setReads_reads d (more x hx)
  · exact ⟨x, by rwa [State.setReads_ne _ _ same], hq, hn⟩

theorem ReadsGrow.dramCycle (q : DramUser) : ReadsGrow s (t.dramCycle q) := g.congr.ite g.congr

/-- The unit asked for waits on its channel, and nothing else of the paddocks or DRAM changes. -/
theorem ReadsGrow.askUnit (q : DramUser) (u deadline line : Nat) (standIn merge : Bool) : ReadsGrow s (t.askUnit q u deadline line standIn merge) ∧
    Reads (t.askUnit q u deadline line standIn merge) (t.chanOf (32 * u)) q u := by
  have cycle := (ReadsGrow.refl t).dramCycle q
  rw [← cycle.chanOf]
  have more : ∀ (v : State) (c : Chan) (x : DRead), ∀ y ∈ v.chans[c].reads, y ∈ v.chans[c].reads ++ [x] := fun _ _ _ y hy => List.mem_append_left _ hy
  unfold State.askUnit
  extract_lets v c rd s1
  have asked : ReadsGrow s s1 := (g.trans cycle).setReads c (more v c rd)
  have here : Reads s1 c q u := v.setReads_reads c (x := rd) (List.mem_append_right _ (List.mem_singleton_self _))
  split
  · exact ⟨asked, here⟩
  · next a _ =>
    extract_lets cu d
    have kept : ∀ v : State, ReadsGrow s1 v → ReadsGrow s v ∧ Reads v c q u := fun v f => ⟨asked.trans f, f.reads _ _ _ here⟩
    split
    · exact kept _ ((ReadsGrow.refl s1).modChan d fun y x hx => ⟨x, hx, rfl, rfl⟩)
    · exact kept _ ((ReadsGrow.refl s1).setReads d (more s1 d _))

theorem ReadsGrow.countOor (us : List Nat) : ReadsGrow s (t.countOor us) := by
  refine g.trans ⟨by rw [State.countOor_eq], by rw [State.countOor_eq], fun off small => t.countOor_rd us ?_, fun c q n r => ?_⟩
  · simp only [oorWords, List.mem_map, List.mem_range, aDram, aChan]
    omega
  · rwa [Reads, State.countOor_eq]

theorem ReadsGrow.dramAsk (q : DramUser) (u deadline line : Nat) : ReadsGrow s (t.dramAsk q u deadline line).1 ∧
    (32 * u < t.dramCap → Reads (t.dramAsk q u deadline line).1 (t.chanOf (32 * u)) q u) := by
  unfold State.dramAsk
  split
  · exact ⟨g.countOor _, fun inside => absurd inside (by omega)⟩
  · obtain ⟨grow, here⟩ := g.askUnit q u deadline line false false
    exact ⟨grow, fun _ => here⟩

theorem ReadsGrow.takePiece (q : DramUser) (a : Nat) (d : List Byte) : ReadsGrow s (t.takePiece q a d) := by
  unfold State.takePiece
  extract_lets m s1 c s2 now
  have merged : ReadsGrow s s1 := ReadsGrow.ite g (g.askUnit _ _ _ _ _ _).1
  have taken : ReadsGrow s s2 := merged.modChan c fun y x hx => ⟨x, hx, rfl, rfl⟩
  refine taken.modChan c fun y x hx => ⟨_, List.mem_map_of_mem hx, ?_⟩
  split <;> exact ⟨rfl, rfl⟩

theorem ReadsGrow.queueWrite (q : DramUser) (a : Nat) (d : List Byte) : ReadsGrow s (t.queueWrite q a d) :=
  ((g.dramCycle q).foldl fun _ _ f => f.takePiece _ _ _).countOor _

end

end Sys2Proof.Machine
end

section
/-! The memory ports' commands (R172 to R175): requests, read data and write words. -/

namespace Sys2Proof.Machine

open Safety

/-! ### What a port's work leaves alone -/

/-- What of a paddock no memory port changes. -/
def offPorts (x : PadSt) : List Nat × Vector CellSt 384 × WMem × WMem := (x.acted, x.cells, x.bm, x.cfg)

/-- From s to t paddock p has worked at its ports alone. -/
structure PortWork (p : Pad) (s t : State) : Prop where
  others : ∀ o : Pad, o ≠ p → t.pads[o] = s.pads[o]
  own : offPorts t.pads[p] = offPorts s.pads[p]
  dram : t.dram = s.dram

/-- … and one of its elements has acted. -/
def PortActs (s t : State) (p : Pad) (e : Nat) : Prop :=
  t.pads[p].acted = e :: s.pads[p].acted ∧ (∀ o : Pad, o ≠ p → t.pads[o] = s.pads[o]) ∧
    t.pads[p].cells = s.pads[p].cells ∧ t.pads[p].bm = s.pads[p].bm ∧ t.pads[p].cfg = s.pads[p].cfg ∧ t.dram = s.dram

theorem State.modPad_own (s : State) (p : Pad) (f : PadSt → PadSt) : (s.modPad p f).pads[p] = f s.pads[p] := getElem_vmod_same _ _ _

theorem State.modPort_ports (s : State) (p : Pad) (k : Fin 2) (f : List MReq → List MReq) : (s.modPort p k f).pads[p].ports[k] = f s.pads[p].ports[k] := by
  rw [State.modPort, State.modPad_own]
  exact getElem_vmod_same _ _ _

theorem State.didAct_own (s : State) (p : Pad) (e : Nat) : (s.didAct p e).pads[p] = { s.pads[p] with acted := e :: s.pads[p].acted } := s.modPad_own p _

theorem PortWork.refl (p : Pad) (s : State) : PortWork p s s := ⟨fun _ _ => rfl, rfl, rfl⟩

section
variable {p : Pad} {s t : State} (w : PortWork p s t)
include w

theorem PortWork.trans {u : State} (v : PortWork p t u) : PortWork p s u :=
  ⟨fun o ne => (v.others o ne).trans (w.others o ne), v.own.trans w.own, v.dram.trans w.dram⟩

theorem PortWork.congr {u : State} (pads : u.pads = t.pads := by rfl) (dram : u.dram = t.dram := by rfl) : PortWork p s u :=
  ⟨fun o ne => by rw [pads, w.others o ne], by rw [pads, w.own], dram.trans w.dram⟩

theorem PortWork.modPad {f : PadSt → PadSt} (hf : ∀ x, offPorts (f x) = offPorts x := by exact fun _ => rfl) : PortWork p s (t.modPad p f) :=
  ⟨fun o ne => (getElem_vmod_ne _ f ne).trans (w.others o ne), by rw [State.modPad_own, hf, w.own], w.dram⟩

theorem PortWork.modPort (k : Fin 2) (f : List MReq → List MReq) : PortWork p s (t.modPort p k f) := w.modPad

theorem PortWork.didAct (e : Nat) : PortActs s (t.didAct p e) p e := by
  have own := w.own
  simp only [offPorts, Prod.mk.injEq] at own
  obtain ⟨acted, cells, bm, cfg⟩ := own
  refine ⟨?_, fun o ne => (getElem_vmod_ne _ _ ne).trans (w.others o ne), ?_, ?_, ?_, w.dram⟩ <;> rw [State.didAct_own]
  · rw [acted]
  · exact cells
  · exact bm
  · exact cfg

end

theorem ReadsGrow.portWork {s t : State} (g : ReadsGrow s t) (p : Pad) : PortWork p s t := ⟨fun o _ => by rw [g.pads], by rw [g.pads], g.dram⟩

/-- A count of a paddock's, and the fabric event with it. -/
theorem State.countFabric (s : State) (p : Pad) (a hi lo : Nat) : let t := (s.inc a hi lo).evFabric p.val
    (∀ b, t.rd b = (s.inc a hi lo).rd b) ∧ t.evFlag 32 = true ∧ t.pads = s.pads ∧ t.chans = s.chans ∧ t.dram = s.dram :=
  ⟨State.raiseCause_rd _ _ _ _, State.raiseCause_evFlag _ _ _ (by decide), State.raiseCause_pads _ _ _ _, State.raiseCause_chans _ _ _ _,
    State.raiseCause_dram _ _ _ _⟩

/-! ### Requests (R172, R175) -/

section
variable {s : State} {p : Pad} {k : Fin 2}

/-- What stands of a request but what its port still does with it. -/
def MReq.face (r : MReq) : Bool × Bool × Nat × Nat × Bool × Nat := (r.wr, r.pad, r.unit, r.n, r.refused, r.done)

/-- The request that a port's sinks form. -/
def State.newRequest (s : State) (p : Pad) (k : Fin 2) : MReq :=
  let cmd := s.mpSink p k 0
  let u := fld (s.mpSink p k 2) 5 0 * 2 ^ 24 + (s.mpSink p k 1).toNat
  let n := fld cmd 4 0 + 1
  { serial := s.pads[p].serial, wr := bit cmd 22, pad := bit cmd 21, unit := u, n := n, refused := s.outsideWindow p.val k.val u n, back := [], done := 0,
    part := [], told := false }

/-- … joins the port's requests. -/
def State.joined (s : State) (p : Pad) (k : Fin 2) : State :=
  (s.modPort p k fun q => q ++ [s.newRequest p k]).modPad p fun x => { x with serial := s.pads[p].serial + 1 }

/-- A unit that the request with serial number id reads is asked for; one beyond the capacity comes at once, as zeros. -/
def State.portAsk (s : State) (p : Pad) (k : Fin 2) (id u : Nat) : State :=
  let asked := s.dramAsk (.port p k) u 0 id
  if asked.2 then asked.1
  else asked.1.modPort p k fun q => q.map fun y => if y.serial = id then { y with back := y.back ++ [(u, List.replicate 32 0, false)] } else y

theorem State.portRequest_busy (busy : bit s.pads[p].mst[k] 20 = true) :
    s.portRequest p k = (s.inc (aPad p.val (2 + k.val)) 23 16).evFabric p.val := if_pos busy

theorem State.portRequest_taken (room : bit s.pads[p].mst[k] 20 = false) : s.portRequest p k =
    let r := s.newRequest p k
    if r.refused then ((s.joined p k).inc (aPad p.val (2 + k.val)) 15 8).evFabric p.val
    else if r.wr then s.joined p k
    else (List.range r.n).foldl (fun (t : State) i => t.portAsk p k r.serial (r.unit + i)) (s.joined p k) := if_neg (Bool.eq_false_iff.1 room)

/-- The window as R175 has it: both bounds in units of 1 MiB, the upper one inclusive. -/
theorem State.outsideWindow_eq (s : State) (p k u n : Nat) : s.outsideWindow p k u n = !(s.bget (aPad p (6 + 2 * k)) 0 &&
    decide (s.fget (aPad p (6 + 2 * k)) 23 9 * 2 ^ 20 ≤ 32 * u ∧ 32 * (u + n) ≤ (s.fget (aPad p (7 + 2 * k)) 23 9 + 1) * 2 ^ 20)) := by
  unfold State.outsideWindow
  rw [Bool.not_and, ← decide_not]
  congr 1
  exact decide_eq_decide.2 (by omega)

/-- The new request stands last among the port's. -/
def Joined (s t : State) (p : Pad) (k : Fin 2) : Prop :=
  t.pads[p].ports[k].length = s.pads[p].ports[k].length + 1 ∧ (t.pads[p].ports[k].getLast?.map MReq.face) = some (s.newRequest p k).face

theorem joined_of_faces {t : State} (faces : t.pads[p].ports[k].map MReq.face = (s.pads[p].ports[k] ++ [s.newRequest p k]).map MReq.face) :
    Joined s t p k := by
  refine ⟨?_, ?_⟩
  · have := congrArg List.length faces
    simpa using this
  · rw [← List.getLast?_map, faces, List.map_append, List.map_singleton, List.getLast?_concat]

theorem State.joined_ports (s : State) (p : Pad) (k : Fin 2) : (s.joined p k).pads[p].ports[k] = s.pads[p].ports[k] ++ [s.newRequest p k] := by
  rw [State.joined, State.modPad_own]
  exact s.modPort_ports p k _

theorem State.joined_work (s : State) (p : Pad) (k : Fin 2) : PortWork p s (s.joined p k) := ((PortWork.refl p s).modPort k _).modPad

/-- From s to t units have been asked for by port k of paddock p. -/
structure Asking (p : Pad) (k : Fin 2) (s t : State) : Prop where
  work : PortWork p s t
  faces : t.pads[p].ports[k].map MReq.face = s.pads[p].ports[k].map MReq.face
  config : ∀ off < 2, t.rd (aDram off) = s.rd (aDram off)
  reads : ∀ c q u, Reads s c q u → Reads t c q u

theorem Asking.refl (p : Pad) (k : Fin 2) (s : State) : Asking p k s s := ⟨PortWork.refl p s, rfl, fun _ _ => rfl, fun _ _ _ r => r⟩

theorem Asking.trans {t u : State} (f : Asking p k s t) (g : Asking p k t u) : Asking p k s u :=
  ⟨f.work.trans g.work, g.faces.trans f.faces, fun a h => (g.config a h).trans (f.config a h), fun c q n r => g.reads c q n (f.reads c q n r)⟩

theorem State.portAsk_spec (s : State) (p : Pad) (k : Fin 2) (id u : Nat) : Asking p k s (s.portAsk p k id u) ∧
    (32 * u < s.dramCap → Reads (s.portAsk p k id u) (s.chanOf (32 * u)) (.port p k) u) := by
  obtain ⟨grow, here⟩ := (ReadsGrow.refl s).dramAsk (.port p k) u 0 id
  unfold State.portAsk
  extract_lets asked
  have asking : Asking p k s asked.1 := ⟨grow.portWork p, by rw [grow.pads], grow.config, grow.reads⟩
  split
  · exact ⟨asking, here⟩
  · refine ⟨asking.trans ⟨(PortWork.refl p _).modPort k _, ?_, fun _ _ => rfl, fun _ _ _ r => r⟩, here⟩
    rw [State.modPort_ports, List.map_map]
    refine List.map_congr_left fun y _ => ?_
    simp only [Function.comp_apply]
    split <;> rfl

/-- All units of a request are asked for, and those within the capacity wait. -/
theorem portAsks_spec (id u : Nat) (l : List Nat) (s : State) : let t := l.foldl (fun (t : State) i => t.portAsk p k id (u + i)) s
    Asking p k s t ∧ ∀ i ∈ l, 32 * (u + i) < s.dramCap → Reads t (s.chanOf (32 * (u + i))) (.port p k) (u + i) := by
  induction l generalizing s with
  | nil => exact ⟨Asking.refl p k s, fun _ h => absurd h List.not_mem_nil⟩
  | cons i l ih =>
    obtain ⟨first, here⟩ := s.portAsk_spec p k id (u + i)
    obtain ⟨rest, there⟩ := ih (s.portAsk p k id (u + i))
    have cap : (s.portAsk p k id (u + i)).dramCap = s.dramCap := State.dramCap_congr (first.config 0 (by decide)) (first.config 1 (by decide))
    have chan : (s.portAsk p k id (u + i)).chanOf = s.chanOf := State.chanOf_congr (first.config 0 (by decide))
    rw [cap, chan] at there
    refine ⟨first.trans rest, fun j hj inside => ?_⟩
    obtain rfl | later := List.mem_cons.1 hj
    · exact rest.reads _ _ _ (here inside)
    · exact there j later inside

section
variable (clocked : s.clocked p.val = true) (fresh : s.pads[p].acted.contains (2000 + k.val) = false) (go : bit (s.mpSink p k 0) 23 = true)
include clocked fresh go

theorem exec_memoryPortRequest : exec (.memoryPortRequest p k) s = .next ((s.portRequest p k).didAct p (2000 + k.val)) := by
  refine Eq.trans (b := execMemoryPortRequest p k s) rfl ?_
  unfold execMemoryPortRequest
  rw [State.freshCycle_of_fresh fresh]
  exact if_pos (by rw [clocked, go]; rfl)

/-- A request made while the port presents BUSY is ignored and counted (R172). -/
theorem memoryPortRequest_busy (busy : bit s.pads[p].mst[k] 20 = true) : let a := aPad p.val (2 + k.val)
    Completes (.memoryPortRequest p k) s fun t => t.fget a 23 16 = min 255 (s.fget a 23 16 + 1) ∧
      t.fget a 15 0 = s.fget a 15 0 ∧ t.evFlag 32 = true ∧ t.pads[p].ports = s.pads[p].ports ∧ WordsKept s t [a] ∧ PortActs s t p (2000 + k.val) := by
  intro a
  obtain ⟨words, flag, pads, -, dram⟩ := s.countFabric p a 23 16
  refine completes_of_eq (exec_memoryPortRequest clocked fresh go) ?_
  rw [State.portRequest_busy busy]
  generalize (s.inc a 23 16).evFabric p.val = t at words flag pads dram
  have count : t.rd a = incFld (s.rd a) 23 16 := (words a).trans ((s.inc_rd _ _ _ _).trans (if_pos rfl))
  refine ⟨(congrArg (fld · 23 16) count).trans (fld_incFld _ (by decide) (by decide)),
    (congrArg (fld · 15 0) count).trans (fld_incFld_apart _ (by decide) (by decide)), flag, ?_, fun b hb => ?_,
    ((PortWork.refl p s).congr pads dram).didAct _⟩
  · rw [State.didAct_own, pads]
  · exact (words b).trans ((s.inc_rd _ _ _ _).trans (if_neg (by simpa using hb)))

/-- A request outside the window joins refused, and is counted (R175). -/
theorem memoryPortRequest_refused (room : bit s.pads[p].mst[k] 20 = false) (refused : (s.newRequest p k).refused = true) :
    let a := aPad p.val (2 + k.val)
    Completes (.memoryPortRequest p k) s fun t => Joined s t p k ∧ t.fget a 15 8 = min 255 (s.fget a 15 8 + 1) ∧
      t.fget a 23 16 = s.fget a 23 16 ∧ t.evFlag 32 = true ∧ t.chans = s.chans ∧ WordsKept s t [a] ∧ PortActs s t p (2000 + k.val) := by
  intro a
  obtain ⟨words, flag, pads, chans, dram⟩ := (s.joined p k).countFabric p a 15 8
  refine completes_of_eq (exec_memoryPortRequest clocked fresh go) ?_
  rw [State.portRequest_taken room]
  dsimp only
  rw [if_pos refused]
  generalize ((s.joined p k).inc a 15 8).evFabric p.val = t at words flag pads chans dram
  have count : t.rd a = incFld (s.rd a) 15 8 := (words a).trans ((s.inc_rd _ _ _ _).trans (if_pos rfl))
  refine ⟨joined_of_faces ?_, (congrArg (fld · 15 8) count).trans (fld_incFld _ (by decide) (by decide)),
    (congrArg (fld · 23 16) count).trans (fld_incFld_apart _ (by decide) (by decide)), flag, chans, fun b hb => ?_,
    ((s.joined_work p k).congr pads dram).didAct _⟩
  · rw [State.didAct_own]
    dsimp only
    rw [pads, State.joined_ports]
  · exact (words b).trans ((s.inc_rd _ _ _ _).trans (if_neg (by simpa using hb)))

/-- A request within the window joins; a read asks for its units at once (R172, R173). -/
theorem memoryPortRequest_accepted (room : bit s.pads[p].mst[k] 20 = false) (accepted : (s.newRequest p k).refused = false) :
    let r := s.newRequest p k
    Completes (.memoryPortRequest p k) s fun t => Joined s t p k ∧ PortActs s t p (2000 + k.val) ∧
      (r.wr = true → t.chans = s.chans ∧ t.ws = s.ws ∧ NoEvent s t) ∧
      (r.wr = false → ∀ i < r.n, 32 * (r.unit + i) < s.dramCap →
        (t.chans[s.chanOf (32 * (r.unit + i))].reads.any fun x => x.user == .port p k && x.unit == r.unit + i) = true) := by
  intro r
  refine completes_of_eq (exec_memoryPortRequest clocked fresh go) ?_
  rw [State.portRequest_taken room]
  dsimp only
  rw [if_neg (Bool.eq_false_iff.1 accepted)]
  by_cases writes : r.wr = true
  · rw [if_pos writes]
    refine ⟨joined_of_faces ?_, (s.joined_work p k).didAct _, fun _ => ⟨rfl, rfl, rfl, rfl⟩, fun reads => absurd writes (by rw [reads]; decide)⟩
    rw [State.didAct_own]
    exact congrArg (List.map MReq.face) (s.joined_ports p k)
  · rw [if_neg writes]
    obtain ⟨asking, waits⟩ := portAsks_spec (p := p) (k := k) r.serial r.unit (List.range r.n) (s.joined p k)
    generalize (List.range r.n).foldl (fun (t : State) i => t.portAsk p k r.serial (r.unit + i)) (s.joined p k) = t at asking waits
    refine ⟨joined_of_faces ?_, ((s.joined_work p k).trans asking.work).didAct _, fun is => absurd is writes, fun _ i hi inside => ?_⟩
    · rw [State.didAct_own]
      exact asking.faces.trans (congrArg (List.map MReq.face) (s.joined_ports p k))
    · obtain ⟨x, hx, user, unit⟩ := waits i (List.mem_range.2 hi) inside
      exact List.any_eq_true.2 ⟨x, hx, by rw [user, unit, beq_self_eq_true, beq_self_eq_true]; rfl⟩

end

end

end Sys2Proof.Machine
end

section
/-! The memory ports' data (R173, R174), and what a fabric edge makes of them. -/

namespace Sys2Proof.Machine

open Safety

section
variable {s : State} {p : Pad} {k : Fin 2}

/-! ### Read data -/

theorem PadSt.coming_presented_ne (x : PadSt) {id j : Nat} (v : Word) (ne : id ≠ j) :
    ({ x with nextSrc := x.nextSrc ++ [(j, v)] } : PadSt).coming id = x.coming id := by
  have other : ((j, v) : Nat × Word).1 ≠ id := Ne.symm ne
  simp [PadSt.coming, other]

/-- A word of read data is on its way: the word itself, and RV, RERR and RLAST beside what the port's status source has to come (R173). -/
def State.showWord (s : State) (p : Pad) (k : Fin 2) (w : Word) (err last : Bool) : State :=
  (s.present p (0x5E8 + 2 * k.val) w).present p (0x5E9 + 2 * k.val)
    (s.pads[p].coming (0x5E9 + 2 * k.val) ||| wd (2 ^ 23 + b2n err * 2 ^ 22 + b2n last * 2 ^ 21))

theorem State.showWord_coming (s : State) (p : Pad) (k : Fin 2) (w : Word) (err last : Bool) : let x := (s.showWord p k w err last).pads[p]
    x.coming (0x5E8 + 2 * k.val) = w ∧
    x.coming (0x5E9 + 2 * k.val) = s.pads[p].coming (0x5E9 + 2 * k.val) ||| wd (2 ^ 23 + b2n err * 2 ^ 22 + b2n last * 2 ^ 21) := by
  unfold State.showWord State.present
  rw [State.modPad_own, State.modPad_own]
  exact ⟨(PadSt.coming_presented_ne _ _ (by omega)).trans (PadSt.coming_presented _ _ _), PadSt.coming_presented _ _ _⟩

theorem State.showWord_work (s : State) (p : Pad) (k : Fin 2) (w : Word) (err last : Bool) : PortWork p s (s.showWord p k w err last) :=
  ((PortWork.refl p s).modPad).modPad

/-- A poisoned unit is counted once, as its first word is presented (R173). -/
def State.countPoison (s : State) (p : Pad) (k : Fin 2) (poisoned : Bool) : State := if poisoned then s.inc (aPad p.val (2 + k.val)) 7 0 else s

theorem State.countPoison_spec (s : State) (p : Pad) (k : Fin 2) (poisoned : Bool) : let t := s.countPoison p k poisoned
    let a := aPad p.val (2 + k.val)
    t.pads = s.pads ∧ t.dram = s.dram ∧ t.chans = s.chans ∧ (poisoned = false → t.ws = s.ws) ∧ WordsKept s t [a] ∧
    t.fget a 7 0 = if poisoned = true then min 255 (s.fget a 7 0 + 1) else s.fget a 7 0 := by
  unfold State.countPoison
  cases poisoned with
  | false => exact ⟨rfl, rfl, rfl, fun _ => rfl, fun _ _ => rfl, rfl⟩
  | true =>
    refine ⟨rfl, rfl, rfl, nofun, fun b hb => (s.inc_rd _ _ _ _).trans (if_neg (by simpa using hb)), ?_⟩
    exact (congrArg (fld · 7 0) ((s.inc_rd _ _ _ _).trans (if_pos rfl))).trans (fld_incFld _ (by decide) (by decide))

section
variable {r : MReq} {rest : List MReq}

theorem MReq.nextWord_refused (reads : r.wr = false) (refused : r.refused = true) : r.nextWord = some (0, true, r.done + 1 == r.n * r.wpu) := by
  simp [MReq.nextWord, reads, refused]

theorem MReq.nextWord_back (reads : r.wr = false) (accepted : r.refused = false) {u : Nat} {d : List Byte} {bad : Bool}
    (back : (r.back.find? fun e => e.1 == r.unit + r.done / r.wpu) = some (u, d, bad)) :
    r.nextWord = some (if bad then 0 else unitWord r.pad d (r.done % r.wpu), bad, r.done + 1 == r.n * r.wpu) := by
  simp [MReq.nextWord, reads, accepted, back]

theorem MReq.nextWord_awaited (reads : r.wr = false) (accepted : r.refused = false)
    (away : (r.back.find? fun e => e.1 == r.unit + r.done / r.wpu) = none) : r.nextWord = none := by
  simp [MReq.nextWord, reads, accepted, away]

theorem State.portData_word (oldest : s.pads[p].ports[k] = r :: rest) {w : Word} {err last : Bool} (word : r.nextWord = some (w, err, last)) :
    s.portData p k = ((s.showWord p k w err last).countPoison p k (err && !r.refused && r.done % r.wpu == 0)).modPort p k fun _ =>
      if last then rest else { r with done := r.done + 1 } :: rest := by
  unfold State.portData
  simp only [oldest, word]
  rfl

theorem State.portData_none (oldest : s.pads[p].ports[k] = r :: rest) (word : r.nextWord = none) : s.portData p k = s := by
  unfold State.portData
  simp only [oldest, word]

variable (clocked : s.clocked p.val = true) (fresh : s.pads[p].acted.contains (2010 + k.val) = false)
include clocked fresh

theorem exec_memoryPortReadData : exec (.memoryPortReadData p k) s = .next ((s.portData p k).didAct p (2010 + k.val)) := by
  refine Eq.trans (b := execMemoryPortReadData p k s) rfl ?_
  unfold execMemoryPortReadData
  rw [State.freshCycle_of_fresh fresh]
  exact if_pos clocked

/-- The oldest request's next word is presented, and the request leaves with the last (R173). -/
theorem memoryPortReadData_word (oldest : s.pads[p].ports[k] = r :: rest) {w : Word} {err last : Bool} (word : r.nextWord = some (w, err, last)) :
    let a := aPad p.val (2 + k.val)
    let poisoned := err && !r.refused && r.done % r.wpu == 0
    Completes (.memoryPortReadData p k) s fun t =>
      (t.pads[p].coming (0x5E8 + 2 * k.val) = w ∧
        t.pads[p].coming (0x5E9 + 2 * k.val) =
          s.pads[p].coming (0x5E9 + 2 * k.val) ||| wd (2 ^ 23 + b2n err * 2 ^ 22 + b2n last * 2 ^ 21) ∧
        t.pads[p].ports[k] = (if last then rest else { r with done := r.done + 1 } :: rest) ∧ PortActs s t p (2010 + k.val) ∧ t.chans = s.chans) ∧
      (poisoned = false → t.ws = s.ws) ∧ WordsKept s t [a] ∧
      t.fget a 7 0 = if poisoned = true then min 255 (s.fget a 7 0 + 1) else s.fget a 7 0 := by
  intro a poisoned
  refine completes_of_eq (exec_memoryPortReadData clocked fresh) ?_
  rw [State.portData_word oldest word]
  obtain ⟨first, second⟩ := s.showWord_coming p k w err last
  have shown := s.showWord_work p k w err last
  obtain ⟨pads, dram, chans, quiet, words, count⟩ := (s.showWord p k w err last).countPoison_spec p k poisoned
  refine ⟨⟨?_, ?_, ?_, ((shown.congr pads dram).modPort k _).didAct _, chans⟩, quiet, words, count⟩
  · rw [State.didAct_own, State.modPort, State.modPad_own]
    change (((s.showWord p k w err last).countPoison p k poisoned).pads[p]).coming _ = _
    rw [pads, first]
  · rw [State.didAct_own, State.modPort, State.modPad_own]
    change (((s.showWord p k w err last).countPoison p k poisoned).pads[p]).coming _ = _
    rw [pads, second]
  · rw [State.didAct_own]
    exact State.modPort_ports _ _ _ _

/-- Nothing is presented while the unit has not come. -/
theorem memoryPortReadData_awaited (oldest : s.pads[p].ports[k] = r :: rest) (word : r.nextWord = none) :
    Completes (.memoryPortReadData p k) s fun t => t.pads[p].ports = s.pads[p].ports ∧ t.ws = s.ws ∧ PortActs s t p (2010 + k.val) := by
  refine completes_of_eq (exec_memoryPortReadData clocked fresh) ?_
  rw [State.portData_none oldest word]
  exact ⟨by rw [State.didAct_own], rfl, (PortWork.refl p s).didAct _⟩

end

/-! ### Write words (R174) -/

/-- The request r of a list takes a word: its count rises, and with a whole unit the words gathered go. -/
def MReq.takes (r : MReq) (ws : List Word) (y : MReq) : MReq :=
  if y.serial = r.serial then { y with done := r.done + 1, part := if ws.length == r.wpu then [] else ws } else y

theorem State.portWrite_eq {r : MReq} (oldest : (s.pads[p].ports[k].find? fun y => y.wr && !y.full) = some r) : s.portWrite p k =
    let ws := r.part ++ [s.mpSink p k 3]
    (if ws.length == r.wpu && !r.refused then s.queueWrite (.port p k) (32 * (r.unit + r.done / r.wpu)) (unitBytes r.pad ws) else s).modPort p k
      (List.map (r.takes ws)) := by
  unfold State.portWrite
  simp only [oldest]
  rfl

/-- A word offered is taken for the oldest write request that lacks one; a whole unit enters the write queue. -/
theorem memoryPortWriteWord_taken (clocked : s.clocked p.val = true) (fresh : s.pads[p].acted.contains (2020 + k.val) = false)
    (offered : s.mwvSink p.val k.val = true) (room : bit s.pads[p].mst[k] 19 = false) {r : MReq}
    (oldest : (s.pads[p].ports[k].find? fun y => y.wr && !y.full) = some r) : let ws := r.part ++ [s.mpSink p k 3]
    let whole := ws.length == r.wpu
    Completes (.memoryPortWriteWord p k) s fun t => PortActs s t p (2020 + k.val) ∧
      t.chans = (if whole && !r.refused then (s.queueWrite (.port p k) (32 * (r.unit + r.done / r.wpu)) (unitBytes r.pad ws)).chans else s.chans) ∧
      { r with done := r.done + 1, part := if whole then [] else ws } ∈ t.pads[p].ports[k] ∧
      t.pads[p].ports[k].length = s.pads[p].ports[k].length ∧ t.pads[p].nextSrc = s.pads[p].nextSrc := by
  intro ws whole
  have run : exec (.memoryPortWriteWord p k) s = .next ((s.portWrite p k).didAct p (2020 + k.val)) := by
    refine Eq.trans (b := execMemoryPortWriteWord p k s) rfl ?_
    unfold execMemoryPortWriteWord
    rw [State.freshCycle_of_fresh fresh]
    exact if_pos (by rw [clocked, offered, room]; rfl)
  refine completes_of_eq run ?_
  rw [State.portWrite_eq oldest]
  have grow : ReadsGrow s (if whole && !r.refused then s.queueWrite (.port p k) (32 * (r.unit + r.done / r.wpu)) (unitBytes r.pad ws) else s) :=
    (ReadsGrow.refl s).ite ((ReadsGrow.refl s).queueWrite _ _ _)
  have chans := apply_ite State.chans ((whole && !r.refused) = true)
    (s.queueWrite (.port p k) (32 * (r.unit + r.done / r.wpu)) (unitBytes r.pad ws)) s
  dsimp only
  generalize (if whole && !r.refused then s.queueWrite (.port p k) (32 * (r.unit + r.done / r.wpu)) (unitBytes r.pad ws) else s) = t at grow chans
  refine ⟨((grow.portWork p).modPort k _).didAct _, chans, ?_, ?_, ?_⟩ <;> rw [State.didAct_own]
  · dsimp only
    rw [State.modPort_ports, grow.pads]
    exact List.mem_map.2 ⟨r, List.mem_of_find?_eq_some oldest, if_pos rfl⟩
  · dsimp only
    rw [State.modPort_ports, grow.pads, List.length_map]
  · rw [State.modPort, State.modPad_own, grow.pads]

/-! ### The fabric edge (R145, R172 to R174) -/

/-- What a source presents after an edge is what it was to present. -/
theorem PadSt.presentNext_src (x : PadSt) {id : Nat} (once : oneCycle id = true) : spGet zeroW x.presentNext.src id = x.coming id := by
  have given : ∀ l : List (Nat × Word), spGet zeroW (l.foldl (fun m e => spSet zeroW m e.1 e.2) (x.src.filter fun e => !oneCycle e.1)) id =
      ((l.reverse.find? fun e => e.1 == id).map (·.2)).getD 0 := by
    intro l
    induction l using List.reverseRecOn with
    | nil =>
      refine spGet_of_no_key zeroW _ fun e he is => ?_
      have := (List.mem_filter.1 he).2
      rw [is, once] at this
      exact absurd this (by decide)
    | append_singleton l e ih =>
      rw [List.foldl_append, List.foldl_cons, List.foldl_nil, List.reverse_append, List.reverse_singleton, List.singleton_append, List.find?_cons,
        spGet_spSet]
      by_cases here : e.1 = id
      · rw [if_pos here.symm, beq_iff_eq.2 here]
        rfl
      · rw [if_neg (Ne.symm here), beq_eq_false_iff_ne.2 here]
        exact ih
  refine (given x.nextSrc).trans ?_
  unfold PadSt.coming
  cases x.nextSrc.reverse.find? fun e => e.1 == id with
  | none => exact (if_pos once).symm
  | some e => rfl

/-- A request hears whether WDONE is given for it. -/
def MReq.hears (w : Option MReq) (r : MReq) : MReq := { r with told := r.told || (w.any fun v => v.serial == r.serial) }

/-- A port's requests after an edge at which WDONE is given for w: those that have been told leave, in order. -/
def stillHeld (w : Option MReq) (q : List MReq) : List MReq := (q.map (MReq.hears w)).dropWhile (·.told)

theorem MReq.tell_eq (v r : MReq) : MReq.tell v.serial r = MReq.hears (some v) r := by
  unfold MReq.tell MReq.hears
  by_cases same : r.serial = v.serial
  · simp [same]
  · rw [if_neg same]
    change r = { r with told := r.told || v.serial == r.serial }
    rw [beq_eq_false_iff_ne.2 (Ne.symm same), Bool.or_false]

theorem MReq.hears_none : MReq.hears none = id := by
  funext r
  simp [MReq.hears]

/-- Port k of a paddock turns at an edge: its requests, BUSY and WFULL, WDONE. -/
structure PortTurns (s : State) (p : Pad) (k : Fin 2) (y z : PadSt) : Prop where
  ports : z.ports[k] = stillHeld (y.ports[k].find? (s.writeEntered p k)) y.ports[k]
  mst : z.mst[k] = s.portStatus (stillHeld (y.ports[k].find? (s.writeEntered p k)) y.ports[k])
  done : bit (z.coming (0x5E9 + 2 * k.val)) 18 = ((y.ports[k].find? (s.writeEntered p k)).isSome || bit (y.coming (0x5E9 + 2 * k.val)) 18)

/-- What an edge of the other port, or of what is no port, leaves of port k. -/
structure PortStays (k : Fin 2) (y z : PadSt) : Prop where
  ports : z.ports[k] = y.ports[k]
  mst : z.mst[k] = y.mst[k]
  coming : z.coming (0x5E9 + 2 * k.val) = y.coming (0x5E9 + 2 * k.val)

theorem PortTurns.stays {x y z : PadSt} (turns : PortTurns s p k x y) (stays : PortStays k y z) : PortTurns s p k x z :=
  ⟨stays.ports.trans turns.ports, stays.mst.trans turns.mst, by rw [stays.coming, turns.done]⟩

theorem PortStays.turns {x y z : PadSt} (stays : PortStays k x y) (turns : PortTurns s p k y z) : PortTurns s p k x z := by
  obtain ⟨ports, mst, done⟩ := turns
  rw [stays.ports] at ports mst done
  rw [stays.coming] at done
  exact ⟨ports, mst, done⟩

/-- Before the told requests leave: every request has heard, and WDONE is to come. -/
def State.portTells (s : State) (p : Pad) (k : Fin 2) (x : PadSt) : PadSt :=
  match x.ports[k].find? (s.writeEntered p k) with
  | some r => { x with
      nextSrc := x.nextSrc ++ [(0x5E9 + 2 * k.val, x.coming (0x5E9 + 2 * k.val) ||| 0x040000)]
      ports := vmod x.ports k fun q => q.map (MReq.tell r.serial) }
  | none => x

theorem State.portEdge_eq (s : State) (p : Pad) (k : Fin 2) (x : PadSt) : s.portEdge p k x =
    let ports := vmod (s.portTells p k x).ports k fun q => q.dropWhile (·.told)
    { s.portTells p k x with ports := ports, mst := (s.portTells p k x).mst.set k.val (s.portStatus ports[k]) } := rfl

theorem State.portTells_spec (s : State) (p : Pad) (k : Fin 2) (x : PadSt) : let y := s.portTells p k x
    let w := x.ports[k].find? (s.writeEntered p k)
    y.ports[k] = x.ports[k].map (MReq.hears w) ∧ bit (y.coming (0x5E9 + 2 * k.val)) 18 = (w.isSome || bit (x.coming (0x5E9 + 2 * k.val)) 18) ∧
    ∀ j : Fin 2, j ≠ k → PortStays j x y := by
  unfold State.portTells
  cases found : x.ports[k].find? (s.writeEntered p k) with
  | none =>
    refine ⟨?_, rfl, fun j _ => ⟨rfl, rfl, rfl⟩⟩
    rw [MReq.hears_none, List.map_id]
  | some r =>
    refine ⟨?_, ?_, fun j ne => ⟨getElem_vmod_ne _ _ ne, rfl, PadSt.coming_presented_ne x _ ?_⟩⟩
    · refine (getElem_vmod_same _ _ _).trans (List.map_congr_left fun y _ => MReq.tell_eq r y)
    · refine (congrArg (bit · 18) (PadSt.coming_presented x _ _)).trans ?_
      rw [bit_or, Bool.or_comm]
      rfl
    · have : j.val ≠ k.val := Fin.val_ne_of_ne ne
      omega

theorem State.portEdge_turns (s : State) (p : Pad) (k : Fin 2) (x : PadSt) : PortTurns s p k x (s.portEdge p k x) := by
  obtain ⟨ports, done, -⟩ := s.portTells_spec p k x
  have left : (s.portEdge p k x).ports[k] = stillHeld (x.ports[k].find? (s.writeEntered p k)) x.ports[k] := by
    rw [State.portEdge_eq, stillHeld, ← ports]
    exact getElem_vmod_same _ _ _
  refine ⟨left, ?_, done⟩
  rw [← left, State.portEdge_eq]
  exact Vector.getElem_set_self _

theorem State.portEdge_stays (s : State) (p : Pad) {j k : Fin 2} (ne : j ≠ k) (x : PadSt) : PortStays j x (s.portEdge p k x) := by
  obtain ⟨-, -, others⟩ := s.portTells_spec p k x
  obtain ⟨ports, mst, coming⟩ := others j ne
  rw [State.portEdge_eq]
  exact ⟨(getElem_vmod_ne _ _ ne).trans ports, (Vector.getElem_set_ne k.isLt j.isLt (Fin.val_ne_of_ne ne.symm)).trans mst, coming⟩

/-- Both ports turn, each as if alone. -/
theorem State.portEdges_turn (s : State) (p : Pad) (k : Fin 2) (x : PadSt) : PortTurns s p k x (s.portEdge p 1 (s.portEdge p 0 x)) := by
  match k with
  | 0 => exact (s.portEdge_turns p 0 x).stays (s.portEdge_stays p (by decide) _)
  | 1 => exact (s.portEdge_stays p (by decide) x).turns (s.portEdge_turns p 1 _)

theorem PadSt.postTick_stays (x : PadSt) (k : Fin 2) : PortStays k x x.postTick := by
  have apart : ∀ (y : PadSt) (v : Word), ({ y with nextSrc := y.nextSrc ++ [(0x5DD, v)] } : PadSt).coming (0x5E9 + 2 * k.val) = y.coming (0x5E9 + 2 * k.val) :=
    fun y v => y.coming_presented_ne v (by omega)
  unfold PadSt.postTick
  split
  · exact ⟨rfl, rfl, apart x _⟩
  · exact ⟨rfl, rfl, apart x _⟩
  · next w _ _ _ =>
    have first := x.coming_presented_ne (id := 0x5E9 + 2 * k.val) (j := 0x5DC) w (by omega)
    have second := apart { x with nextSrc := x.nextSrc ++ [(0x5DC, w)] } 0x800000
    refine ⟨rfl, rfl, Eq.trans ?_ (second.trans first)⟩
    simp only [PadSt.coming, List.append_assoc]
    rfl
  · exact ⟨rfl, rfl, rfl⟩

/-- At the edge of a clocked paddock its ports turn, then the beam port and the sources that were to come. -/
theorem State.padRegs_clocked (s : State) (p : Pad) (clocked : s.clocked p.val = true) (x : PadSt) :
    ∃ z, (∀ k, PortStays k x z) ∧ s.padRegs p x = (s.portEdge p 1 (s.portEdge p 0 z)).postTick.presentNext := by
  refine ⟨_, ?_, if_pos clocked⟩
  exact fun _ => ⟨rfl, rfl, rfl⟩

theorem State.padRegs_turns (s : State) (p : Pad) (clocked : s.clocked p.val = true) (x : PadSt) (k : Fin 2) :
    let y := s.padRegs p x
    let w := x.ports[k].find? (s.writeEntered p k)
    y.ports[k] = stillHeld w x.ports[k] ∧ y.mst[k] = s.portStatus (stillHeld w x.ports[k]) ∧
    bit (spGet zeroW y.src (0x5E9 + 2 * k.val)) 18 = (w.isSome || bit (x.coming (0x5E9 + 2 * k.val)) 18) := by
  intro y w
  obtain ⟨z, same, run⟩ := s.padRegs_clocked p clocked x
  have once : oneCycle (0x5E9 + 2 * k.val) = true := decide_eq_true (by omega)
  obtain ⟨ports, mst, done⟩ := (same k).turns ((s.portEdges_turn p k z).stays (PadSt.postTick_stays _ k))
  rw [show y = _ from run, PadSt.presentNext_src _ once]
  exact ⟨ports, mst, done⟩

theorem State.portStatus_bits (s : State) (q : List MReq) : bit (s.portStatus q) 20 = decide (4 ≤ q.length) ∧ bit (s.portStatus q) 19 = s.portFull q := by
  unfold State.portStatus
  refine ⟨?_, bit_putBit_same _ _ (by decide)⟩
  rw [bit_putBit _ _ (by decide), if_neg (by decide), bit_putBit_same _ _ (by decide)]

/-- What a fabric edge makes of a clocked paddock's port (R145, R172 to R174). -/
theorem State.fabricEdge_turns (s : State) {p : Pad} (clocked : s.clocked p.val = true) (stays : s.pads[p].closing = false) (k : Fin 2) :
    let x := s.pads[p]
    let y := s.fabricEdge.pads[p]
    let w := x.ports[k].find? (s.writeEntered p k)
    let held := stillHeld w x.ports[k]
    y.ports[k] = held ∧ bit y.mst[k] 20 = decide (4 ≤ held.length) ∧ bit y.mst[k] 19 = s.portFull held ∧
    bit (spGet zeroW y.src (0x5E9 + 2 * k.val)) 18 = (w.isSome || bit (x.coming (0x5E9 + 2 * k.val)) 18) := by
  intro x y w held
  obtain ⟨ports, mst, done⟩ := s.padRegs_turns p clocked x k
  have edge : y.ports = (s.padRegs p x).ports ∧ y.mst = (s.padRegs p x).mst ∧ y.src = (s.padRegs p x).src := by
    rw [show y = _ from s.fabricEdge_pad stays]
    unfold State.padEdge
    dsimp only
    split <;> exact ⟨rfl, rfl, rfl⟩
  obtain ⟨samePorts, sameMst, sameSrc⟩ := edge
  obtain ⟨busy, full⟩ := s.portStatus_bits held
  rw [samePorts, sameMst, sameSrc, mst]
  exact ⟨ports, busy, full, done⟩

/-- A write request's last unit has entered its queue, as R174 has it. -/
theorem State.writeEntered_eq (s : State) (p : Pad) (k : Fin 2) : s.writeEntered p k = fun (r : MReq) => r.wr && r.done == r.n * r.wpu && !r.told &&
    (r.refused || (List.finRange 4).all fun c => s.chans[c].waiting.all fun w =>
      !(w.user == .port p k && decide (r.unit ≤ w.addr / 32 ∧ w.addr / 32 < r.unit + r.n))) := by
  funext r
  simp only [State.writeEntered, MReq.full, List.not_any_eq_all_not]

end

end Sys2Proof.Machine
end

section
/-! The memory ports (O54). -/

open Sys2Proof Sys2Proof.Machine Sys2Proof.Safety

/-- Settles O54: requests, read data and write words by the lemma of each command's case, the edge by `State.fabricEdge_turns`. -/
theorem memoryPorts : Obligations.MemoryPorts := by
  intro s p k clocked x q a sink acts per
  refine ⟨fun fresh go => ?_, fun fresh r rest oldest reads => ?_, fun fresh offered room r oldest _ _ => ?_, fun stays => ?_⟩
  · intro u n lo hi inside made
    have window : (s.newRequest p k).refused = !inside := s.outsideWindow_eq _ _ _ _
    have joins : ∀ t, Joined s t p k → made t := fun t ⟨length, last⟩ => ⟨length, by rw [← window]; exact last⟩
    refine ⟨memoryPortRequest_busy clocked fresh go, fun room out => ?_, fun room within => ?_⟩
    · have refused : (s.newRequest p k).refused = true := by rw [window, out]; rfl
      exact completes_mono (memoryPortRequest_refused clocked fresh go room refused) fun t ⟨joined, rest⟩ => ⟨joins t joined, rest⟩
    · have accepted : (s.newRequest p k).refused = false := by rw [window, within]; rfl
      exact completes_mono (memoryPortRequest_accepted clocked fresh go room accepted) fun t ⟨joined, rest⟩ => ⟨joins t joined, rest⟩
  · intro shows
    refine ⟨fun refused => ?_, fun accepted d bad back => ?_, fun accepted away => ?_⟩
    · refine completes_mono (memoryPortReadData_word clocked fresh oldest (MReq.nextWord_refused reads refused)) fun t ⟨shown, quiet, _⟩ =>
        ⟨shown, quiet ?_⟩
      rw [refused]
      rfl
    · have poisoned : (bad && !r.refused && r.done % r.wpu == 0) = true ↔ bad = true ∧ r.done % r.wpu = 0 := by simp [accepted]
      exact completes_mono (memoryPortReadData_word clocked fresh oldest (MReq.nextWord_back reads accepted back)) fun t ⟨shown, _, words, count⟩ =>
        ⟨shown, count.trans (if_congr poisoned rfl rfl), words⟩
    · exact memoryPortReadData_awaited clocked fresh oldest (MReq.nextWord_awaited reads accepted away)
  · intro w whole bytes
    refine completes_mono (memoryPortWriteWord_taken clocked fresh offered room oldest) fun t taken => ?_
    rw [beq_eq_decide] at taken
    exact taken
  · intro y entered w held
    have same : entered = s.writeEntered p k := (s.writeEntered_eq p k).symm
    have turned := s.fabricEdge_turns clocked stays k
    rw [← same] at turned
    exact turned

end

section
/-! The fuses through every step (O33). A property of the fuses that burning keeps holds after each operation that a step is made of; as for the
memories' form (O32), one lemma for each operation, in the order of the model. What burning makes of the fuses then says it of every step. -/

-- The lemmas are many and small: elaborating them one after the other keeps the number of threads low.
set_option Elab.async false

namespace Sys2Proof.Machine

open Sys2Proof.Safety

/-! ### What every burning keeps -/

/-- P holds of fuses whatever is burnt but ARBCNT: the words of repair records, the family's bits, a revocation (R196, R266, R291). -/
structure KeptByBurning (P : Fuses → Prop) : Prop where
  record : ∀ f ws, P f → P { f with repair := f.repair ++ ws }
  family : ∀ f id key lock, P f → P (f.setFamily id key lock)
  revoked : ∀ f n, P f → P (f.revoke n)

/-- P, which burning keeps, holds of the fuses of a state. -/
structure Fused (P : Fuses → Prop) (s : State) : Prop where
  kept : KeptByBurning P
  holds : P s.fuses

/-- P holds of the fuses of what an outcome goes on with. -/
def NextFused (P : Fuses → Prop) (o : Host.Outcome State Fault Refusal) : Prop := ∀ t, o = .next t → Fused P t

/-- P holds of the fuses of the state that a served command leaves. -/
def ServedFused (P : Fuses → Prop) : Served → Prop
  | .done t _ _ => Fused P t
  | .held t => Fused P t

variable {P : Fuses → Prop}

theorem Fused.congr {s t : State} (hs : Fused P s) (e : t.fuses = s.fuses := by rfl) : Fused P t := ⟨hs.kept, e ▸ hs.holds⟩

theorem Fused.ite {s t : State} {c : Prop} [Decidable c] (hs : Fused P s) (ht : Fused P t) : Fused P (if c then s else t) := by
  split <;> assumption

/-- A step that is taken under a condition. -/
theorem Fused.when {s t : State} {c : Prop} [Decidable c] (hs : Fused P s) (ht : Fused P s → Fused P t) : Fused P (if c then t else s) :=
  (ht hs).ite hs

theorem Fused.dite {c : Prop} [Decidable c] {f : c → State} {g : ¬c → State} (hf : ∀ x, Fused P (f x)) (hg : ∀ x, Fused P (g x)) :
    Fused P (if x : c then f x else g x) := by
  split
  · exact hf _
  · exact hg _

theorem Fused.iteFst {α : Type} {x y : State × α} {c : Prop} [Decidable c] (hx : Fused P x.1) (hy : Fused P y.1) :
    Fused P (if c then x else y).1 := by
  split <;> assumption

theorem Fused.iteSnd {α : Type} {x y : α × State} {c : Prop} [Decidable c] (hx : Fused P x.2) (hy : Fused P y.2) :
    Fused P (if c then x else y).2 := by
  split <;> assumption

theorem Fused.foldl {α : Type} {f : State → α → State} {s : State} {l : List α} (hs : Fused P s) (hf : ∀ t x, Fused P t → Fused P (f t x)) :
    Fused P (l.foldl f s) :=
  List.foldlRecOn l f hs fun t ht x _ => hf t x ht

theorem Fused.foldlFst {α β : Type} {f : State × α → β → State × α} {a : State × α} {l : List β} (ha : Fused P a.1)
    (hf : ∀ a x, Fused P a.1 → Fused P (f a x).1) : Fused P (l.foldl f a).1 :=
  List.foldlRecOn (motive := fun a => Fused P a.1) l f ha fun a h x _ => hf a x h

theorem Fused.foldlSnd {α β : Type} {f : α × State → β → α × State} {a : α × State} {l : List β} (ha : Fused P a.2)
    (hf : ∀ a x, Fused P a.2 → Fused P (f a x).2) : Fused P (l.foldl f a).2 :=
  List.foldlRecOn (motive := fun a => Fused P a.2) l f ha fun a h x _ => hf a x h

theorem Fused.next {s : State} (hs : Fused P s) : NextFused P (.next s) := by
  rintro t ⟨⟩
  exact hs

theorem NextFused.ite {o u : Host.Outcome State Fault Refusal} {c : Prop} [Decidable c] (ho : NextFused P o) (hu : NextFused P u) :
    NextFused P (if c then o else u) := by
  split <;> assumption

theorem Fused.done {s : State} (hs : Fused P s) (c : Nat) (r : List Word) : ServedFused P (.done s c r) := hs

theorem Fused.held {s : State} (hs : Fused P s) : ServedFused P (.held s) := hs

theorem ServedFused.ite {o u : Served} {c : Prop} [Decidable c] (ho : ServedFused P o) (hu : ServedFused P u) :
    ServedFused P (if c then o else u) := by
  split <;> assumption

section
variable {s : State} (hs : Fused P s)
include hs

/-! ### Machine/Ops -/

theorem Fused.wr (a : Nat) (v : Word) : Fused P (s.wr a v) := hs.congr
theorem Fused.fset (a hi lo v : Nat) : Fused P (s.fset a hi lo v) := hs.congr
theorem Fused.bset (a n : Nat) (b : Bool) : Fused P (s.bset a n b) := hs.congr
theorem Fused.inc (a hi lo : Nat) : Fused P (s.inc a hi lo) := hs.congr
theorem Fused.incN (a hi lo n : Nat) : Fused P (s.incN a hi lo n) := hs.congr
theorem Fused.put (a : Nat) (v : Word) : Fused P (s.put a v) := hs.congr
theorem Fused.hwWr (off : Nat) (v : Word) : Fused P (s.hwWr off v) := hs.congr
theorem Fused.stWr (n : Nat) (v : Word) : Fused P (s.stWr n v) := hs.congr
theorem Fused.modHead (h : Head) (f : HeadSt → HeadSt) : Fused P (s.modHead h f) := hs.congr
theorem Fused.modPad {p : Pad} {f : PadSt → PadSt} : Fused P (s.modPad p f) := hs.congr
theorem Fused.draw : Fused P (s.draw).2 := hs.congr
theorem Fused.drawWords (n : Nat) : Fused P (s.drawWords n).2 := hs.congr
theorem Fused.raise (n : Nat) : Fused P (s.raise n) := hs.congr (s.raise_fuses n)
theorem Fused.raisedOnce (u : State) (n : Nat) : Fused P (u.raisedOnce n s) := hs.ite (hs.hwWr _ _)
theorem Fused.raiseCause (off b n : Nat) : Fused P (s.raiseCause off b n) := hs.congr (s.raiseCause_fuses off b n)
theorem Fused.toDev (d : DevState) (reason : BitVec 8) : Fused P (s.toDev d reason) := (hs.congr.hwWr _ _).raise _

theorem Fused.accessFault (r : Requester) (a : Nat) : Fused P (s.accessFault r a) := by
  unfold State.accessFault
  dsimp only
  split
  · exact (hs.congr.raise _).ite (hs.congr.raise _)
  · exact hs.congr
  · exact hs.congr
  · exact hs.congr

theorem Fused.cycNotes (who : Nat) (es : List CycWrite) : Fused P (s.cycNotes who es) := hs.congr
theorem Fused.cycNote (e : CycWrite) : Fused P (s.cycNote e) := hs.congr
theorem Fused.forgetCyc (key : Nat) : Fused P (s.forgetCyc key) := hs.congr

theorem Fused.directly (r : Requester) (a : Nat) (v : Word) {put : State → Nat → Word → State}
    (hf : ∀ t a v, Fused P t → Fused P (put t a v)) :
    Fused P (s.directly r a v put) :=
  (hf _ _ _ hs).ite (((hf _ _ _ hs).foldl (fun _ _ h => hf _ _ _ h)).cycNote _)

theorem Fused.byQueue (h a : Nat) (v : Word) {put : State → Nat → Word → State} (hf : ∀ t a v, Fused P t → Fused P (put t a v)) :
    Fused P (s.byQueue h a v put) :=
  ((hf _ _ _ hs).foldl (fun _ _ h => hf _ _ _ h)).cycNote _

theorem Fused.gated (r : Requester) (a : Nat) {f : State → State} (hf : ∀ t, Fused P t → Fused P (f t)) : Fused P (s.gated r a f) :=
  hs.ite ((hf _ hs.congr).ite (hs.accessFault _ _))

theorem Fused.setShadow (r : Requester) (a : Nat) (v : Word) : Fused P (s.setShadow r a v) := hs.congr
theorem Fused.dropShadows : Fused P s.dropShadows := hs.congr
theorem Fused.countOor (us : List Nat) : Fused P (s.countOor us) := hs.ite ((Fused.foldl hs (fun _ _ h1 => h1.inc _ _ _)).raise _)

theorem Fused.formCheck (g : Nat) : Fused P (s.formCheck g) := by
  unfold State.formCheck
  split <;> exact hs.congr

theorem Fused.dramPut (a : Nat) (d : List Byte) : Fused P (s.dramPut a d) := hs.congr.ite (Fused.foldl hs.congr fun _ _ h => h.formCheck _)
theorem Fused.larkPut (a : Nat) (d : List Byte) : Fused P (s.larkPut a d) := hs.congr
theorem Fused.logPut (base k : Nat) (kind : Word) (e : List Word) : Fused P (s.logPut base k kind e).1 := hs.congr

/-! ### Machine/Repair -/

theorem Fused.setLedger (i : Nat) (v : Word) : Fused P (s.setLedger i v) := hs.congr
theorem Fused.ledgerInc (i : Nat) : Fused P (s.ledgerInc i) := hs.congr
theorem Fused.ledgerInc48 (i : Nat) : Fused P (s.ledgerInc48 i) := hs.congr
theorem Fused.dirWrite (i : Nat) (d : List Byte) : Fused P (s.dirWrite i d) := hs.congr
theorem Fused.ledgerSave : Fused P s.ledgerSave := hs.congr.ite hs
theorem Fused.writeRecords : Fused P s.writeRecords := hs.congr.ite hs.congr

theorem Fused.appendRecord (ws : List Word) (toFuse : Bool) : Fused P (s.appendRecord ws toFuse) := by
  have written := (hs.congr (t := { s with cae := { s.cae with records := s.cae.records ++ ws } })).writeRecords
  refine Fused.ite (Fused.ite ?_ (written.raise _)) written
  exact ⟨written.kept, written.kept.record _ ws written.holds⟩

theorem Fused.markFailed (e : Nat) : Fused P (s.markFailed e) := hs.ite (((hs.bset _ _ _).appendRecord _ _).ledgerInc _)
theorem Fused.remapNote (r kind addr : Nat) (again : Bool) : Fused P (s.remapNote r kind addr again) := hs.congr.ite hs

theorem Fused.logError (r kind addr bitNo : Nat) : Fused P (s.logError r kind addr bitNo) := by
  have counted : Fused P (match kind with
      | 1 => s.inc (aRegion r 0) 23 12
      | 2 => s.inc (aRegion r 0) 11 0
      | _ => (s.inc (aRegion r 1) 23 16).evIntegrity) := by
    split
    · exact hs.inc _ _ _
    · exact hs.inc _ _ _
    · exact (hs.inc _ _ _).raise _
  have logged := counted.logPut (aRegion r 0x10) 2 0xC00000
    [wd (kind * 2 ^ 22 + addr % 2 ^ 22), wd (bitNo * 2 ^ 19 + s.pow.seconds % 2 ^ 19)]
  exact (((logged.inc _ _ _).ite logged).fset _ _ _ _).remapNote _ _ _ _

theorem Fused.healWord (r a : Nat) : Fused P (s.healWord r a) := hs.congr

theorem Fused.readCheck (r a : Nat) (e : MemErr) : Fused P (s.readCheck r a e).1 := by
  unfold State.readCheck
  split
  · exact hs.logError _ _ _ _
  · exact hs.logError _ _ _ _
  · exact hs.logError _ _ _ _
  · split
    · exact hs
    · split
      · exact hs.logError _ _ _ _
      · split
        · exact (hs.healWord _ _).logError _ _ _ _
        · exact hs.logError _ _ _ _

theorem Fused.readBad (bad : List BadWord) : Fused P (s.readBad bad).1 := Fused.foldlFst hs (fun _ _ h1 => h1.readCheck _ _ _)
theorem Fused.writeFlip (r a : Nat) : Fused P (s.writeFlip r a) := (hs.healWord _ _).when (fun h1 => (h1.bset _ _ _).ite (h1.congr))
theorem Fused.passWord (a : Nat) : Fused P (s.passWord a).1 := (hs.writeFlip _ _).readCheck _ _ _

theorem Fused.invalidate (r a : Nat) : Fused P (s.invalidate r a) := by
  unfold State.invalidate
  split
  · exact hs.wr _ _
  · exact (hs.larkPut _ _).ite ((hs.modHead _ _).ite ((hs.modHead _ _).ite (Fused.dite
      (fun _ => hs.modPad) (fun _ => (hs.congr.ite hs.congr).ite hs))))

theorem Fused.remapWord (r a : Nat) : Fused P (s.remapWord r a) := by
  unfold State.remapWord
  extract_lets undue t g used
  have undued : ∀ u, Fused P u → Fused P (undue u) := fun u hu => hu.congr
  have taken : Fused P t := undued s hs
  have moved := (undued _ ((taken.readCheck r a .clean).when (c := (t.readCheck r a .clean).2) fun h => h.invalidate r a)).healWord r a
  exact ((taken.inc _ _ _).raise _).ite ((((moved.congr).fset _ _ _ _).fset _ _ _ _).appendRecord _ _ |>.ledgerInc _)

theorem Fused.remapDue : Fused P s.remapDue := by
  unfold State.remapDue
  split
  · exact hs
  · exact (hs.remapWord _ _).ite hs

/-! ### Machine/Beam -/

theorem Fused.setPos (h line quad : Nat) : Fused P (s.setPos h line quad) := hs.congr
theorem Fused.setEpoch (h : Nat) (e : BitVec 48) : Fused P (s.setEpoch h e) := hs.congr
theorem Fused.leadTrack (h : Head) : Fused P (s.leadTrack h) := ((hs.modHead _ _).bset _ _ _).ite (hs.bset _ _ _)
theorem Fused.setRaised (h : Head) (k : Nat) (r : Raised) : Fused P (s.setRaised h k r) := hs.congr
theorem Fused.sigFlag (h : Head) (n : Nat) : Fused P (s.sigFlag h n) := hs.congr
theorem Fused.openRecord (h : Head) (keyed firstFrame : Bool) : Fused P (s.openRecord h keyed firstFrame) := hs.congr
theorem Fused.closeRecord (h : Head) (short planned : Bool) : Fused P (s.closeRecord h short planned) := hs.ite (hs.modHead _ _)
theorem Fused.recordSettled (h : Head) (r : SigRec) : Fused P (s.recordSettled h r) := hs.congr
theorem Fused.recordsLate (h : Head) : Fused P (s.recordsLate h) := Fused.foldl hs (fun _ _ h1 => h1.recordSettled _ _)
theorem Fused.endFrame (h : Head) : Fused P (s.endFrame h) := hs.congr
theorem Fused.beginFrame (h : Head) : Fused P (s.beginFrame h) := hs.congr.ite hs

theorem Fused.writeRecord (h : Head) : Fused P (s.writeRecord h) := by
  unfold State.writeRecord
  split
  · exact hs
  · extract_lets a w rd full s1 n s2 s3 s4
    have made : Fused P s1 := ((hs.fset _ _ _ _).inc _ _ _).ite hs
    have written : Fused P s3 := made.congr
    exact ((written.modHead h _).when fun h => h.recordSettled _ _).raise _

/-! ### Machine/Queue -/

theorem Fused.setQueue (h : Head) (q : List QEntry) : Fused P (s.setQueue h q) := hs.congr
theorem Fused.dropEntry (h : Head) (idx : Nat) : Fused P (s.dropEntry h idx) := hs.congr
theorem Fused.lateOne (h : Head) (e : QEntry) : Fused P (s.lateOne h e) := ((hs.inc _ _ _).modHead _ _).ite ((hs.inc _ _ _).ite ((hs.inc _ _ _).dropEntry _ _))
theorem Fused.lateAll (h : Head) (es : List QEntry) : Fused P (s.lateAll h es) := hs.ite ((Fused.foldl hs (fun _ _ h1 => h1.lateOne _ _)).raiseCause _ _ _)
theorem Fused.sweepLate (h : Head) : Fused P (s.sweepLate h) := hs.lateAll _ _
theorem Fused.postLate (h : Head) (e : QEntry) : Fused P (s.postLate h e) := (hs.lateAll _ _).ite hs

theorem Fused.flush (h : Head) (keep : QEntry → Bool) : Fused P (s.flush h keep) :=
  hs.ite (((Fused.foldl hs (fun _ _ h1 => h1.dropEntry _ _)).incN _ _ _ _).raiseCause _ _ _)

theorem Fused.entryCheck (h : Head) (i : Nat) : Fused P (s.entryCheck h i).1 := by
  refine Fused.foldlFst hs fun a w ha => ?_
  split
  · exact ha
  · exact ha.readCheck _ _ _

theorem Fused.post (r : Requester) (h : Head) (w0 w1 w2 w3 : Word) : Fused P (s.post r h w0 w1 w2 w3).1 := by
  unfold State.post
  dsimp only
  split
  · exact (hs.raiseCause _ _ _).ite hs
  · exact (Fused.foldl ((hs.setQueue _ _).modHead _ _) (fun _ _ h1 => h1.writeFlip _ _)).postLate _ _

theorem Fused.cancel (r : Requester) (h : Head) (handle : Word) : Fused P (s.cancel r h handle).1 := by
  unfold State.cancel
  split
  · exact hs
  · split
    · exact hs
    · split
      · exact hs
      · exact hs.dropEntry _ _

theorem Fused.postPortPut (r : Requester) (off : Nat) (v : Word) : Fused P (s.postPortPut r off v) := by
  unfold State.postPortPut
  dsimp only
  split
  · exact hs
  · split
    · exact hs.congr
    · exact hs.congr
    · exact hs.congr
    · exact hs.congr
    · exact (hs.post _ _ _ _ _ _).congr
    · exact (hs.cancel _ _ _).congr
    · exact hs

/-! ### Machine/Output -/

theorem Fused.linkTrack (h : Head) : Fused P (s.linkTrack h) := hs.congr
theorem Fused.outputOff (h : Head) : Fused P (s.outputOff h) := hs.congr

theorem Fused.outputCheck (h : Head) : Fused P (s.outputCheck h) :=
  (((hs.fset _ _ _ _).modHead _ _).linkTrack _).ite ((((hs.fset _ _ _ _).modHead _ _).outputOff _).raise _)

theorem Fused.outputOn (h : Head) : Fused P (s.outputOn h) := (hs.bset _ _ _).outputCheck _

theorem Fused.outctlPut (h : Head) (v : Word) : Fused P (s.outctlPut h v) := by
  unfold State.outctlPut
  extract_lets o s1 s2
  have kept : Fused P s2 := (hs.bset _ _ _).ite ((hs.bset _ _ _).bset _ _ _)
  exact (kept.outputOn _).ite ((kept.outputOff _).ite (kept.linkTrack _))

theorem Fused.dpctlPut (h : Head) (v : Word) : Fused P (s.dpctlPut h v) :=
  (((hs.ite (hs.fset _ _ _ _)).ite ((hs.ite (hs.fset _ _ _ _)).fset _ _ _ _)).bset _ _ _).linkTrack _

theorem Fused.lvdsctlPut (h : Head) (v : Word) : Fused P (s.lvdsctlPut h v) := hs.ite ((hs.put _ _).linkTrack _)
theorem Fused.compctlPut (h : Nat) (v : Word) : Fused P (s.compctlPut h v) := hs.ite (hs.put _ _)
theorem Fused.tapAdopt (h : Head) (t : TapSet) : Fused P (s.tapAdopt h t) := hs.congr

theorem Fused.tapSettle (h : Head) : Fused P (s.tapSettle h) := by
  unfold State.tapSettle
  dsimp only
  split
  · exact (hs.modHead _ _).tapAdopt _ _
  · exact hs.modHead _ _

theorem Fused.tapctlPut (h : Head) (v : Word) : Fused P (s.tapctlPut h v) := by
  unfold State.tapctlPut
  extract_lets t s1 s2
  have kept : Fused P s2 := (hs.put _ _).ite ((hs.put _ _).bset _ _ _)
  exact (hs.raise _).ite ((kept.tapAdopt _ _).ite ((kept.modHead _ _).ite (kept.modHead _ _)))

/-! ### Machine/Pins -/

theorem Fused.modBank (b : Bank) (f : BankSt → BankSt) : Fused P (s.modBank b f) := hs.congr

theorem Fused.pinFlag (b : Bank) (n : Nat) : Fused P (s.pinFlag b n) := by
  unfold State.pinFlag
  dsimp only
  split
  · exact hs.ite ((hs.bset _ _ _).raiseCause _ _ _)
  · exact hs.ite (hs.congr)
  · exact hs

theorem Fused.pinsMove (b : Bank) (old : Word) (pins : List Nat) : Fused P (s.pinsMove b old pins) := Fused.foldl hs (fun _ _ h1 => (h1.pinFlag _ _).ite h1)
theorem Fused.confTrack : Fused P s.confTrack := (hs.fset _ _ _ _).ite (((hs.fset _ _ _ _).incN _ _ _ _).raiseCause _ _ _)
theorem Fused.lvdsFault (h : Head) : Fused P (s.lvdsFault h) := (((hs.bset _ _ _).sigFlag _ _).linkTrack _).raise _
theorem Fused.lvdsLose (h : Head) : Fused P (s.lvdsLose h) := (hs.modHead _ _).lvdsFault _
theorem Fused.bankLinks (b : Nat) : Fused P (s.bankLinks b) := Fused.foldl hs (fun _ _ h1 => (h1.linkTrack _).ite h1)
theorem Fused.pinChanged (b : Bank) (n : Nat) (old : Word) : Fused P (s.pinChanged b n old) := hs.ite (hs.modBank _ _)

theorem Fused.pinsTake (b : Bank) : Fused P (s.pinsTake b) := by
  unfold State.pinsTake
  extract_lets x lost s1 s2 s3 s4
  have levelled : Fused P s1 := hs.modBank _ _
  have paired : Fused P s2 := levelled.ite (levelled.foldl fun _ _ h => h.fset _ _ _ _)
  have taken : Fused P s3 := paired.modBank _ _
  have tracked : Fused P s4 := taken.ite taken.confTrack
  exact tracked.foldl fun _ _ h => (h.lvdsLose _).ite h

theorem Fused.padsTake (b : Bank) : Fused P (s.padsTake b) := hs.congr
theorem Fused.bankEdge (b : Bank) : Fused P (s.bankEdge b) := (((hs.pinsTake _).ite ((hs.pinsTake _).padsTake _)).modBank _ _).pinsMove _ _ _

theorem Fused.pincfgPut (r : Requester) (b : Bank) (n : PinNo) (v : Word) : Fused P (s.pincfgPut r b n v) :=
  (hs.accessFault _ _).ite (hs.ite ((hs.wr _ _).pinChanged _ _ _))

theorem Fused.pinGive (b : Bank) (n kind idx : Nat) : Fused P (s.pinGive b n kind idx) := Fused.foldl hs (fun _ _ h1 => (h1.wr _ _).pinChanged _ _ _)
theorem Fused.holdRelease (b : Bank) : Fused P (s.holdRelease b) := ((hs.bset _ _ _).modBank _ _).ite hs

theorem Fused.bankcfgPut (b : Bank) (v : Word) : Fused P (s.bankcfgPut b v) :=
  ((((((hs.bset _ _ _).bset _ _ _).fset _ _ _ _).fset _ _ _ _).ite ((((hs.bset _ _ _).bset _ _ _).fset _ _ _ _).raiseCause _ _ _)).when
    (fun h1 => h1.holdRelease _)).bankLinks _

theorem Fused.outBy (who rank b : Nat) (m : Word) (op : Nat) (v : Word) : Fused P (s.outBy who rank b m op v) := hs.congr
theorem Fused.outDirect (r : Requester) (b op : Nat) (v : Word) : Fused P (s.outDirect r b op v) := hs.congr
theorem Fused.iflagPut (r : Requester) (b : Nat) (v : Word) : Fused P (s.iflagPut r b v) := hs.congr
theorem Fused.contPut (b : Bank) (v : Word) : Fused P (s.contPut b v) := ((hs.put _ _).modBank _ _).bankLinks _
theorem Fused.probeGo (r : Requester) (b : Bank) : Fused P (s.probeGo r b) := hs.ite ((hs.bset _ _ _).modBank _ _)

theorem Fused.execContention (b : Bank) (n : PinNo) : NextFused P (execContention b n s) := by
  unfold Machine.execContention
  dsimp only
  split
  · split
    · exact (((((hs.bset _ _ _).inc _ _ _).raiseCause _ _ _).when (fun h1 => h1.modBank _ _)).lvdsFault _).next
    · exact ((((hs.bset _ _ _).inc _ _ _).raiseCause _ _ _).when (fun h1 => h1.modBank _ _)).next
  · exact hs.next

/-! ### Machine/Dram -/

theorem Fused.modChan (c : Chan) (f : ChanSt → ChanSt) : Fused P (s.modChan c f) := hs.congr
theorem Fused.setReads (c : Chan) (l : List DRead) : Fused P (s.setReads c l) := hs.congr
theorem Fused.dramCycle (q : DramUser) : Fused P (s.dramCycle q) := hs.congr.ite hs.congr

theorem Fused.askUnit (q : DramUser) (u deadline line : Nat) (standIn merge : Bool) : Fused P (s.askUnit q u deadline line standIn merge) := by
  unfold State.askUnit
  dsimp only
  split
  · exact (hs.dramCycle _).setReads _ _
  · exact (((hs.dramCycle _).setReads _ _).modChan _ _).ite (((hs.dramCycle _).setReads _ _).setReads _ _)

theorem Fused.dramAsk (q : DramUser) (u deadline line : Nat) (standIn : Bool) : Fused P (s.dramAsk q u deadline line standIn).1 := by
  unfold State.dramAsk
  split
  · exact hs.countOor _
  · exact hs.askUnit _ _ _ _ _ _

theorem Fused.takePiece (q : DramUser) (a : Nat) (d : List Byte) : Fused P (s.takePiece q a d) := (((hs.askUnit _ _ _ _ _ _).ite hs).modChan _ _).modChan _ _

theorem Fused.queueWrite (q : DramUser) (a : Nat) (d : List Byte) : Fused P (s.queueWrite q a d) :=
  (Fused.foldl (hs.dramCycle _) (fun _ _ h1 => h1.takePiece _ _ _)).countOor _

theorem Fused.drain (c : Chan) : Fused P (s.drain c) := (Fused.foldl hs (fun _ _ h1 => (h1.dramPut _ _).modChan _ _)).modChan _ _
theorem Fused.drcfgPut (v : Word) : Fused P (s.drcfgPut v) := hs.ite (hs.put _ _)
theorem Fused.tagresPut (v : Word) : Fused P (s.tagresPut v) := (hs.raise _).ite (Fused.foldl (hs.put _ _) (fun _ _ h1 => h1.setReads _ _))
theorem Fused.sharePut (v : Word) : Fused P (s.sharePut v) := (hs.raise _).ite (hs.put _ _)

theorem Fused.eccPut (r w : Nat) (v : Word) : Fused P (s.eccPut r w v) := by
  unfold State.eccPut
  dsimp only
  split
  · exact (hs.ite (hs.bset _ _ _)).ite ((hs.fset _ _ _ _).when (fun h1 => (hs.raise _).ite (h1.bset _ _ _)))
  · exact hs.ite (hs.put _ _)

theorem Fused.dramRegPut (off : Nat) (v : Word) : Fused P (s.dramRegPut off v) := by
  unfold State.dramRegPut
  split
  · exact hs.drcfgPut _
  · exact hs.tagresPut _
  · exact hs.sharePut _
  · exact hs.put _ _
  · exact (hs.eccPut _ _ _).ite hs

theorem Fused.trained (ok : BitVec 4) (cap : Nat) : Fused P (s.trained ok cap) := (hs.wr _ _).ite ((hs.wr _ _).wr _ _)
theorem Fused.repairRows : Fused P s.repairRows := Fused.foldl hs (fun _ _ h1 => h1.appendRecord _ _)
theorem Fused.stopApplets : Fused P s.stopApplets := hs.congr
theorem Fused.toSafe (reason : BitVec 8) : Fused P (s.toSafe reason) := ((hs.toDev _ _).stopApplets).ledgerSave

theorem Fused.execDramReadIssue (c : Chan) : NextFused P (execDramReadIssue c s) := by
  unfold Machine.execDramReadIssue
  split
  · exact hs.next
  · exact (hs.modChan _ _).next

/-! ### Machine/Split -/

theorem Fused.modSplit (f : Fin 8) (g : SplitFn → SplitFn) : Fused P (s.modSplit f g) := hs.congr
theorem Fused.splitBoundary (h : Nat) : Fused P (s.splitBoundary h) := Fused.foldl hs (fun _ _ h1 => h1.modSplit _ _)
theorem Fused.splitStart (h : Nat) : Fused P (s.splitStart h) := Fused.foldl hs (fun _ _ h1 => h1.modSplit _ _)
theorem Fused.splitStop (h : Nat) : Fused P (s.splitStop h) := Fused.foldl hs (fun _ _ h1 => h1.modSplit _ _)
theorem Fused.splitLate (f : Fin 8) : Fused P (s.splitLate f) := hs.congr

theorem Fused.splitSet (f : Fin 8) (mask : BitVec 8) (want : Bool) : Fused P (s.splitSet f mask want).1 := by
  unfold State.splitSet
  extract_lets x same p t p'
  split
  · split
    · exact hs
    · split <;> exact hs.modSplit _ _
  · split
    · exact hs
    · split
      · exact (hs.modSplit _ _)
      · exact (hs.modSplit _ _)

/-! ### Machine/Layers -/

theorem Fused.modEng (e : Nat) (f : EngSt → EngSt) : Fused P (s.modEng e f) := Fused.dite (fun _ => hs.congr) (fun _ => hs)

theorem Fused.replaceEngine (h n : Nat) : Fused P (s.replaceEngine h n) := by
  unfold State.replaceEngine
  split
  · split
    · exact hs.fset _ _ _ _
    · exact hs
  · exact hs

theorem Fused.latchEngine (h : Head) (n : Slot) : Fused P (s.latchEngine h n) := by
  have taken := hs.replaceEngine h.val n.val
  unfold State.latchEngine
  dsimp only
  split
  · exact (((((taken.modEng _ _).ite taken).modEng _ _).ite ((taken.modEng _ _).ite taken)).modHead _ _)
  · exact ((taken.modEng _ _).ite taken).modHead _ _

theorem Fused.countDesc (h : Head) (l : Latched) : Fused P (s.countDesc h l) :=
  Fused.ite (Fused.foldl hs (fun _ _ h1 => h1.inc _ _ _)) (((Fused.foldl hs (fun _ _ h1 => h1.inc _ _ _)).setRaised _ _ _).raiseCause _ _ _)

theorem Fused.latchLine (h : Head) (k : Nat) : Fused P (s.latchLine h k) :=
  (Fused.foldl hs (fun _ _ h1 => h1.latchEngine _ _)).when (fun h1 => (h1.modHead _ _).countDesc _ _)

theorem Fused.rotAbort : Fused P s.rotAbort := hs.congr

theorem Fused.slotPut (h : Head) (n : Slot) (v : Word) : Fused P (s.slotPut h n v) :=
  (((((hs.rotAbort.ite hs).fset _ _ _ _).ite (((hs.rotAbort.ite hs).fset _ _ _ _).fset _ _ _ _)).bset _ _ _).when
    (fun h1 => h1.modHead _ _)).when (fun h1 => h1.raiseCause _ _ _)

theorem Fused.layctlPut (h : Head) (v : Word) : Fused P (s.layctlPut h v) := hs.ite ((hs.rotAbort.ite hs).put _ _)
theorem Fused.palswap (h a b : Nat) : Fused P (s.palswap h a b) := hs.congr

/-! ### Machine/Objects -/

theorem Fused.scanChecks (ps : List Plane) : Fused P (s.scanChecks ps).1 := Fused.foldlFst hs (fun _ _ h1 => h1.readCheck _ _ _)
theorem Fused.countLine (h : Head) (k : Nat) (f : LineCounts → LineCounts) : Fused P (s.countLine h k f) := hs.congr

theorem Fused.evaluate (h : Head) (k : Nat) : Fused P (s.evaluate h k) := by
  unfold State.evaluate
  extract_lets r budget f
  split
  next ps cut _ =>
  have scanned := hs.scanChecks ps
  split
  next s0 skip e =>
  rw [e] at scanned
  extract_lets all seen bad cands kept scan made isCut took drop s1 s2 s3 s4 s5 s6 up s7
  have counted : Fused P s2 := (scanned.modHead _ _).countLine _ _ _
  have planed : Fused P s4 := (counted.when fun h => h.inc _ _ _).incN _ _ _ _
  have dropped : Fused P s5 := planed.ite ((planed.incN _ _ _ _).sigFlag _ _)
  have raised : Fused P s7 := (dropped.when fun h => h.inc _ _ _).setRaised _ _ _
  exact raised.when fun h => h.raiseCause _ _ _

/-! ### Machine/Render -/

theorem Fused.modLine (h : Head) (k : Nat) (f : LineWork → LineWork) : Fused P (s.modLine h k f) := hs.congr
theorem Fused.engineCheck (e : Nat) : Fused P (s.engineCheck e).1 := ((hs.writeFlip _ _).ite hs).readBad _

theorem Fused.askAll (h : Head) (n : Slot) (us : List Nat) (deadline line : Nat) (standIn : Bool) : Fused P
    (s.askAll h n us deadline line standIn).1 :=
  Fused.foldlFst hs (fun _ _ h1 => h1.dramAsk _ _ _ _ _)

theorem Fused.resolveWork (h : Head) (pmap : List Word) (w : EngWork) : Fused P (s.resolveWork h pmap w).1 := hs.readBad _

theorem Fused.fillCache (w : EngWork) : Fused P (s.fillCache w).1 := by
  unfold State.fillCache
  dsimp only
  split
  · split
    · exact (hs.modEng _ _).modEng _ _
    · exact hs.modEng _ _
  · exact hs.modEng _ _

theorem Fused.workOn (h : Head) (pmap : List Word) (w : EngWork) : Fused P (s.workOn h pmap w).1 := (hs.resolveWork _ _ _).fillCache _
theorem Fused.setSlot (h : Head) (k : Nat) (n : Slot) (x : SlotLine) : Fused P (s.setSlot h k n x) := hs.congr

theorem Fused.beginWork (h : Head) (w : LineWork) (n : Slot) (eng : Nat) (standIn : Bool) : Fused P (s.beginWork h w n eng standIn).1 :=
  ((hs.modEng _ _).askAll _ _ _ _ _ _).workOn _ _ _

theorem Fused.mirrorSlot (h : Head) (w : LineWork) (n : Slot) : Fused P (s.mirrorSlot h w n) := by
  unfold State.mirrorSlot
  split
  · exact hs
  · exact (((hs.engineCheck _).modEng _ _).markFailed _).ite (((hs.engineCheck _).beginWork _ _ _ _ _).modHead _ _)

theorem Fused.fetchSlot (h : Head) (w : LineWork) (n : Slot) : Fused P (s.fetchSlot h w n) := by
  unfold State.fetchSlot
  have checked := fun e => hs.engineCheck e
  refine Fused.ite ((((checked _).modEng _ _).markFailed _).setSlot _ _ _ _) ?_
  have counted := fun e w' => ((((checked e).beginWork h w' n e false)).countLine h w'.lat.line)
  exact Fused.mirrorSlot (Fused.setSlot ((counted _ _ _).ite
    (((counted _ _ _).incN _ _ _ _).ite ((((counted _ _ _).incN _ _ _ _).setRaised _ _ _).raiseCause _ _ _))) _ _ _ _) _ _ _

theorem Fused.drawn (h : Head) : Fused P (s.drawn h) := hs.congr

theorem Fused.execEngineLineBegin (h : Head) (n : Slot) : NextFused P (execEngineLineBegin h n s) := by
  unfold Machine.execEngineLineBegin
  dsimp only
  split
  · exact (hs.drawn _).next
  · exact ((hs.drawn _).next).ite ((((hs.drawn _).fetchSlot _ _ _).next).ite (((hs.drawn _).setSlot _ _ _ _).next))

theorem Fused.execOcclusionDelivery (h : Head) : NextFused P (execOcclusionDelivery h s) := by
  unfold Machine.execOcclusionDelivery
  dsimp only
  split
  · exact hs.next
  · exact (Fused.foldl (hs.modLine _ _ _) (fun _ _ h1 => (h1.fetchSlot _ _ _).ite h1)).next

/-! ### Machine/Compose -/

theorem Fused.countMiss (h : Head) (k mask : Nat) : Fused P (s.countMiss h k mask) := by
  unfold State.countMiss
  extract_lets x s1 s2 s2'
  have counted : Fused P s1 := (hs.inc _ _ _).fset _ _ _ _
  have flagged : Fused P s2 := (counted.sigFlag _ _).modHead _ _
  have ahead : Fused P s2' := counted.modHead _ _
  exact (flagged.ite (flagged.raise _)).ite ((ahead.raise _).ite ahead)

theorem Fused.orphanReads (h : Head) (p : DRead → Bool) : Fused P (s.orphanReads h p) := hs.congr
theorem Fused.miss (h : Head) (w : LineWork) : Fused P (s.miss h w) := ((hs.orphanReads _ _).modLine _ _ _).countMiss _ _ _
theorem Fused.deadline (h : Head) (w : LineWork) : Fused P (s.deadline h w) := hs.ite (hs.miss _ _)

theorem Fused.execLineDeadline (h : Head) : NextFused P (execLineDeadline h s) := by
  unfold Machine.execLineDeadline
  dsimp only
  split
  · exact (hs.drawn _).next
  · exact (((hs.drawn _).deadline _ _).next).ite ((hs.drawn _).next)

theorem Fused.mirrorMismatch (h : Head) (n : Slot) : Fused P (s.mirrorMismatch h n) := ((hs.inc _ _ _).raise _).congr
theorem Fused.mirrorCheck (h : Head) : Fused P (s.mirrorCheck h) := (Fused.foldl hs (fun _ _ h1 => (h1.mirrorMismatch _ _).ite h1)).modHead _ _
theorem Fused.mirrorOwn (h : Head) (w : LineWork) : Fused P (s.mirrorOwn h w) := (hs.modHead _ _).mirrorCheck _
theorem Fused.lineCheck (h k n : Nat) : Fused P (s.lineCheck h k n).1 := (hs.congr.when (fun h1 => h1.writeFlip _ _)).readBad _
theorem Fused.compose (h : Head) (w : LineWork) : Fused P (s.compose h w) := (((hs.mirrorOwn _ _).lineCheck _ _ _).when (fun h1 => h1.countMiss _ _ _)).modHead _ _

theorem Fused.execComposeLine (h : Head) : NextFused P (execComposeLine h s) := by
  unfold Machine.execComposeLine
  dsimp only
  split
  · exact (hs.drawn _).next
  · split
    · exact ((hs.drawn _).compose _ _).next
    · split
      · split
        · exact (((hs.drawn _).deadline _ _).compose _ _).next
        · exact ((hs.drawn _).deadline _ _).next
      · exact (hs.drawn _).next

/-! ### Machine/Cells -/

theorem Fused.glWrite (i : Nat) (v : Word) : Fused P (s.glWrite i v) := ((hs.wr _ _).writeFlip _ _).congr
theorem Fused.swapFreeze (p : Pad) : Fused P (s.swapFreeze p) := (((hs.modPad.bset _ _ _).bset _ _ _).bset _ _ _).glWrite _ _

theorem Fused.fabricEdge : Fused P s.fabricEdge := by
  unfold State.fabricEdge
  extract_lets s1 s2 s3
  have latched : Fused P s1 := hs.congr
  have frozen : Fused P s2 := Fused.foldl latched fun _ _ h => (h.swapFreeze _).ite h
  exact ((Fused.foldl frozen fun _ _ h => h.bankEdge _).raisedOnce _ _).raisedOnce _ _

theorem Fused.present (p : Pad) (id : Nat) (v : Word) : Fused P (s.present p id v) := hs.congr
theorem Fused.cellPut (p : Pad) (n : Cell) (c : CellSt) : Fused P (s.cellPut p n c) := ((hs.drawWords _).modPad).ite hs.modPad

theorem Fused.bmWordRead (p : Pad) (a : Nat) (e : MemErr) : Fused P (s.bmWordRead p a e).1 := by
  have read := hs.readCheck p.val a e
  unfold State.bmWordRead
  dsimp only
  split
  · exact read
  · split
    · exact read
    · exact read.drawWords _

theorem Fused.bmPresent (p : Pad) (m : Fin 96) (k : Fin 2) (w : Nat) (lo hi : Word) (err : Bool) : Fused P (s.bmPresent p m k w lo hi err) := hs.congr

theorem Fused.bmAccess (p : Pad) (m : Fin 96) (k : Fin 2) (e : MemErr) : Fused P (s.bmAccess p m k e) := by
  unfold State.bmAccess
  extract_lets x sel word wire
  split
  next ab w _ =>
  extract_lets off a
  have read := hs.bmWordRead p a e
  split
  next s1 w0 e0 h1 =>
  rw [h1] at read
  have both := (read.bmWordRead p (a + 1) .clean).iteFst (c := w = 48) (y := (s1, spGet zeroW x.bm (a + 1), false)) read
  split
  next s2 w1 e1 h2 =>
  rw [h2] at both
  have drawn := (both.drawWords 4).iteSnd (c := wire = true) (y := ([], s2)) both
  split
  next fr s3 h3 =>
  rw [h3] at drawn
  extract_lets v s4 s5 data t s6
  have shown : Fused P s5 := (drawn.bmPresent _ _ _ _ _ _ _).when fun h => h.raiseCause _ _ _
  have written : Fused P s6 := by
    refine Fused.ite ?_ shown
    refine Fused.modPad ?_
    exact (shown.writeFlip _ _).when fun h => h.writeFlip _ _
  exact Fused.modPad written

/-! ### Machine/Ports -/

theorem Fused.modPort (p : Pad) (k : Fin 2) (f : List MReq → List MReq) : Fused P (s.modPort p k f) := hs.congr
theorem Fused.didAct (p : Pad) (k : Nat) : Fused P (s.didAct p k) := hs.congr

theorem Fused.portRequest (p : Pad) (k : Fin 2) : Fused P (s.portRequest p k) := by
  unfold State.portRequest
  extract_lets cmd u n bad id r s1
  have queued : Fused P s1 := (hs.modPort _ _ _).modPad
  refine ((hs.inc _ _ _).raiseCause _ _ _).ite (((queued.inc _ _ _).raiseCause _ _ _).ite (queued.ite ?_))
  exact queued.foldl fun _ _ h => (h.dramAsk _ _ _ _ _).ite ((h.dramAsk _ _ _ _ _).modPort _ _ _)

theorem Fused.portData (p : Pad) (k : Fin 2) : Fused P (s.portData p k) := by
  unfold State.portData
  dsimp only
  split
  · exact hs
  · split
    · exact hs
    · exact (((hs.present _ _ _).present _ _ _).when (fun h1 => h1.inc _ _ _)).modPort _ _ _

theorem Fused.portWrite (p : Pad) (k : Fin 2) : Fused P (s.portWrite p k) := by
  unfold State.portWrite
  dsimp only
  split
  · exact hs
  · exact ((hs.queueWrite _ _ _).ite hs).modPort _ _ _

theorem Fused.busDone (r : Requester) (v : Word) : Fused P (s.busDone r v) := by
  unfold State.busDone
  dsimp only
  split <;> exact hs.congr

theorem Fused.busAccess (r : Requester) (p : Pad) (a : PadAccess) : Fused P (s.busAccess r p a) := by
  unfold State.busAccess
  split
  · exact hs.accessFault _ _
  · split
    · split
      · exact hs.congr
      · exact hs
    · dsimp only
      split <;> exact hs.congr

theorem Fused.busAck (p : Pad) : Fused P (s.busAck p).1 := by
  unfold State.busAck
  dsimp only
  split
  · exact hs
  · split
    · exact hs
    · split
      · exact ((hs.modPad.inc _ _ _).busDone _ _).accessFault _ _
      · exact hs.modPad.busDone _ _

theorem Fused.busTimeout (p : Pad) : Fused P (s.busTimeout p).1 := by
  unfold State.busTimeout
  dsimp only
  split
  · exact hs
  · exact (((hs.modPad.inc _ _ _).busDone _ _).accessFault _ _).raiseCause _ _ _

theorem Fused.tapSend (h : Head) (next : Bool) : Fused P (s.tapSend h next) := by
  unfold State.tapSend
  dsimp only
  split
  · exact hs
  · exact hs.ite (((((((((hs.bset _ _ _).ite hs).present _ _ _).present _ _ _).present _ _ _).present _ _ _).present _ _ _).present _ _ _).modHead _ _)

theorem Fused.tapStray (h : Head) (p : Pad) (tag : Word) : Fused P (s.tapStray h p tag) := (hs.modHead _ _).ite (hs.inc _ _ _)

theorem Fused.tapTake (h : Head) (p : Pad) (tag : Word) (d : List Word) : Fused P (s.tapTake h p tag d) := by
  unfold State.tapTake
  split
  · exact (hs.modHead _ _).ite (hs.tapStray _ _ _)
  · exact hs.tapStray _ _ _

theorem Fused.padSrst (p : Pad) : Fused P (s.padSrst p) := hs.congr
theorem Fused.clkenPut (p : Pad) (on : Bool) : Fused P (s.clkenPut p on) := hs.congr
theorem Fused.pctlPut (p : Pad) (v : Word) : Fused P (s.pctlPut p v) := ((hs.padSrst _).ite hs).clkenPut _ _

/-! ### Machine/Loader -/

theorem Fused.tapsBypass (p : Nat) : Fused P (s.tapsBypass p) := Fused.foldl hs (fun _ _ h1 => ((h1.modHead _ _).bset _ _ _).ite h1)
theorem Fused.modJob (f : IcpJob → IcpJob) : Fused P (s.modJob f) := hs.congr
theorem Fused.icpAsk (img : Nat) : Fused P (s.icpAsk img) := Fused.foldl hs (fun _ _ h1 => (h1.dramAsk _ _ _ _ _).modJob _)

theorem Fused.icpTake : Fused P s.icpTake := by
  unfold State.icpTake
  dsimp only
  split
  · exact ((hs.modJob _).icpAsk _).ite hs
  · exact hs

theorem Fused.icpNext : Fused P s.icpNext := by
  unfold State.icpNext
  split
  · exact hs.congr.icpTake
  · exact hs.congr.bset _ _ _

theorem Fused.icpAdd (j : IcpJob) : Fused P (s.icpAdd j) := by
  unfold State.icpAdd
  dsimp only
  split
  · exact hs.congr.icpTake.bset _ _ _
  · exact hs.congr.bset _ _ _

theorem Fused.repairsOff (p : Pad) : Fused P (s.repairsOff p) := by
  unfold State.repairsOff
  dsimp only
  split
  · exact hs.congr.when (fun h1 => h1.dropEntry _ _)
  · exact hs.congr

theorem Fused.glSkip (p : Nat) : Fused P (s.glSkip p) := hs.congr.ite hs

theorem Fused.swapStart (p : Pad) (img : Nat) (planned : Bool) (mbox : Option Nat) : Fused P (s.swapStart p img planned mbox) := by
  have off := hs.repairsOff p
  unfold State.swapStart
  extract_lets s1
  have begun : Fused P s1 := off.modPad
  exact ((begun.glSkip _).tapsBypass _).icpAdd _

theorem Fused.swapUndo (p : Pad) : Fused P (s.swapUndo p) := by
  unfold State.swapUndo
  refine hs.ite ?_
  extract_lets mine s1 s2
  have left : Fused P s2 := by
    unfold s2
    split
    · exact hs.congr.icpNext.ite hs.congr
    · exact hs.congr
  exact Fused.foldl left.modPad fun _ _ h => (h.bset _ _ _).ite h

theorem Fused.swapReject (p : Pad) : Fused P (s.swapReject p) := (hs.inc _ _ _).raise _

theorem Fused.swapAction (p : Pad) (img : Nat) (planned : Bool) (mbox : Option Nat) : Fused P (s.swapAction p img planned mbox) :=
  (hs.swapReject _).ite (hs.swapStart _ _ _ _)

theorem Fused.designTrack (p : Nat) : Fused P (s.designTrack p) := hs.congr
theorem Fused.padClear (p : Pad) : Fused P (s.padClear p) := hs.congr
theorem Fused.loadRead (v : DramView) : Fused P (s.loadRead v) := hs.congr

theorem Fused.loadClear (j : IcpJob) {read : State → State} (hf : ∀ t, Fused P t → Fused P (read t)) : Fused P (s.loadClear j read) := by
  have cleared := (hs.padClear (Fin.ofNat 16 j.pad)).modJob fun x => { x with begun := true }
  unfold State.loadClear
  dsimp only
  split
  · exact cleared.modJob _
  · split
    · exact (cleared.bset _ _ _).modJob _
    · exact hf _ ((cleared.bset _ _ _).foldl (fun _ _ h => h.wr _ _))

theorem Fused.icpHas : Fused P s.icpHas := by
  unfold State.icpHas
  split
  · exact (hs.loadRead _).ite hs
  · exact hs

theorem Fused.loadBegin (j : IcpJob) : Fused P (s.loadBegin j) := hs.loadClear _ (fun _ h1 => (h1.icpAsk _).icpHas)

theorem Fused.loaderUnit (u : Nat) (d : List Byte) (bad : Bool) : Fused P (s.loaderUnit u d bad) := by
  unfold State.loaderUnit
  split
  · exact ((hs.modJob _).when (fun h1 => h1.icpHas)).ite hs
  · exact hs

theorem Fused.execPad : NextFused P (execPad s) := by
  unfold Machine.execPad
  split
  · split
    · exact ((hs.modJob _).next).ite hs.next
    · exact hs.next
  · exact hs.next

theorem Fused.writeFrame (p f : Nat) (ws : List Word) : Fused P (s.writeFrame p f ws) := hs.congr.ite hs.congr

theorem Fused.framesRecord (j : IcpJob) (f n : Nat) : Fused P (s.framesRecord j f n) :=
  (hs.modJob _).ite ((hs.modJob _).ite ((Fused.foldl hs (fun _ _ h1 => h1.writeFrame _ _ _)).modJob _))

theorem Fused.execFrames : NextFused P (execFrames s) := by
  unfold Machine.execFrames
  split
  · split
    · exact ((hs.framesRecord _ _ _).next).ite hs.next
    · exact hs.next
  · exact hs.next

theorem Fused.writeBmem (p : Pad) (a : Nat) (ws : List Word) : Fused P (s.writeBmem p a ws) := Fused.foldl hs.congr fun _ _ h => h.writeFlip _ _

theorem Fused.execBmem : NextFused P (execBmem s) := by
  unfold Machine.execBmem
  split
  · split
    · exact hs.next.ite (((hs.modJob _).next).ite (((hs.modJob _).next).ite (((hs.writeBmem _ _ _).modJob _).next)))
    · exact hs.next
  · exact hs.next

theorem Fused.execEndRecord : NextFused P (execEndRecord s) := by
  unfold Machine.execEndRecord
  split
  · split
    · exact hs.next.ite (((hs.modJob _).next).ite ((hs.modJob _).next))
    · exact hs.next
  · exact hs.next

theorem Fused.loadRuns (j : IcpJob) : Fused P (s.loadRuns j) :=
  ((((((((((hs.draw.iteSnd hs).modPad).modPad).wr _ _).bset _ _ _).bset _ _ _).fset _ _ _ _).wr _ _).designTrack _).glWrite _ _).modJob _

theorem Fused.execLoadComplete : NextFused P (execLoadComplete s) := by
  unfold Machine.execLoadComplete
  split
  · exact ((hs.loadRuns _).next).ite hs.next
  · exact hs.next

theorem Fused.rewriteFrame (j : IcpJob) : Fused P (s.rewriteFrame j).1 := by
  unfold State.rewriteFrame
  dsimp only
  split
  · exact hs
  · exact (hs.writeFrame _ _ _).iteFst hs

theorem Fused.readFrame (p f : Nat) : Fused P (s.readFrame p f).1 := Fused.iteFst hs.congr hs.congr
theorem Fused.loadFailed (j : IcpJob) : Fused P (s.loadFailed j) := (hs.padClear _).bset _ _ _

theorem Fused.icpFinish (j : IcpJob) (code : Nat) : Fused P (s.icpFinish j code) := by
  unfold State.icpFinish
  extract_lets s1 s2 s3 s4
  have noted : Fused P s2 := (hs.fset _ _ _ _).when fun h => h.fset _ _ _ _
  have failed : Fused P s3 := noted.when fun h => h.loadFailed _
  have told : Fused P s4 := failed.ite (failed.raise _)
  exact told.icpNext

theorem Fused.icpEnd : Fused P (s.icpEnd).1 := by
  unfold State.icpEnd
  dsimp only
  split
  · exact hs
  · split
    · split
      · exact hs.icpFinish _ _
      · exact hs
    · split
      · exact hs
      · exact (hs.rewriteFrame _).icpFinish _ _
    · exact (hs.readFrame _ _).icpFinish _ _

theorem Fused.icpGo (op : IcpOp) (p img f : Nat) : Fused P (s.icpGo op p img f) := by
  unfold State.icpGo
  split
  · exact hs
  · split
    · exact hs.swapStart _ _ _ _
    · exact hs.icpAdd _

theorem Fused.icpctlPut (v : Word) : Fused P (s.icpctlPut v) := by
  unfold State.icpctlPut
  split
  · exact hs
  · split
    · exact hs.icpGo _ _ _ _
    · exact hs.icpGo _ _ _ _
    · exact hs.icpGo _ _ _ _
    · exact hs

theorem Fused.imagePut (e : Fin 64) (w : Nat) (v : Word) : Fused P (s.imagePut e w v) :=
  (hs.ite (hs.put _ _)).ite (((hs.put _ _).ite hs).ite ((hs.put _ _).when (fun h1 => hs.ite h1.congr)))

/-! ### Machine/Gleaner -/

theorem Fused.flipConfig (u : Upset) : Fused P (s.flipConfig u) := hs.congr.ite hs.congr
theorem Fused.strike (ups : List Upset) : Fused P (s.strike ups) := Fused.foldl hs (fun _ _ h1 => (h1.flipConfig _).congr)
theorem Fused.spareRecord (u : Upset) : Fused P (s.spareRecord u) := (hs.ite (hs.appendRecord _ _)).ite hs
theorem Fused.glLog (u : Upset) (ess : Bool) (kind : Nat) : Fused P (s.glLog u ess kind) := (hs.logPut _ _ _ _).spareRecord _
theorem Fused.glReload (p : Pad) : Fused P (s.glReload p) := (hs.swapAction _ _ _ _).ite ((hs.post _ _ _ _ _ _).when (fun h1 => h1.modPad))

theorem Fused.scrubFrame (host : Bool) (p : Pad) (f : Nat) : Fused P (s.scrubFrame host p f) := by
  unfold State.scrubFrame
  extract_lets us bad crc lates ess anyEss corr s1 s2 again _ s3 s4
  have logged : Fused P s1 := Fused.foldl hs fun _ _ h => h.glLog _ _ _
  clear_value bad us
  have noted : Fused P s2 := by
    unfold s2
    split
    · exact logged.glLog _ _ _
    · exact logged
  clear_value s2
  have struck : Fused P s3 := Fused.strike noted.congr _
  clear_value s3
  refine struck.ite (Fused.ite ?_ ?_)
  · split
    next left back _ =>
    extract_lets t _ u v
    have mended : Fused P t := Fused.foldl struck fun _ _ h => h.flipConfig _
    clear_value t
    have counted : Fused P v := Fused.incN (mended.congr (t := u)) _ _ _ _
    exact counted.when fun h => h.raise _
  · have counted : Fused P s4 := struck.inc _ _ _
    exact (counted.raise _).ite (((counted.raise _).glReload _).ite (counted.icpAdd _))

theorem Fused.glReset : Fused P s.glReset := hs.congr
theorem Fused.glRestore : Fused P s.glRestore := Fused.foldl hs.congr fun _ _ h => h.writeFlip _ _
theorem Fused.glProgram : Fused P s.glProgram := (((hs.readBad _).glRestore).glReset).ite ((hs.readBad _).ite (((hs.readBad _).glRestore).raise _))

theorem Fused.roundBegin : Fused P s.roundBegin := by
  unfold State.roundBegin
  extract_lets d s0 s1 s2 s3
  have split : Fused P s1 := (hs.congr.incN _ _ _ _).splitLate _
  have voted : Fused P s2 := split.congr
  exact voted.glProgram.congr

theorem Fused.roundEnd : Fused P s.roundEnd := (((hs.strike _).congr).wr _ _).wr _ _
theorem Fused.roundWaits : Fused P s.roundWaits := hs.congr

omit hs in
theorem Fused.roundGo : ∀ (n : Nat) {s : State}, Fused P s → Fused P (State.roundGo n s)
  | 0, _, hs => hs.roundEnd
  | n + 1, s, hs => by
    unfold State.roundGo
    split
    · exact hs.roundWaits
    · split
      · exact hs.roundEnd
      · exact Fused.roundGo n (hs.scrubFrame _ _ _).congr

theorem Fused.roundRun : Fused P s.roundRun := (hs.roundGo _).ite ((((hs.roundGo _).congr).roundBegin).roundGo _)
theorem Fused.glResume : Fused P s.glResume := hs.roundRun.ite hs
theorem Fused.glRoundGo (ups : List Upset) : Fused P (s.glRoundGo ups) := Fused.ite (hs.strike _).congr (hs.roundBegin.strike _).congr.roundRun

/-! ### Machine/Lark -/

theorem Fused.modVoice (v : Fin 256) (f : VoiceSt → VoiceSt) : Fused P (s.modVoice v f) := hs.congr

theorem Fused.roundDiv (i d : Int) : Fused P (s.roundDiv i d).2 := by
  unfold State.roundDiv
  split
  · exact hs
  · exact hs.draw

theorem Fused.larkStore (a : Nat) (d : List Byte) : Fused P (s.larkStore a d) := Fused.foldl (hs.larkPut _ _) (fun _ _ h1 => h1.writeFlip _ _)
theorem Fused.larkLoad (a n : Nat) : Fused P (s.larkLoad a n).2.2 := Fused.foldlFst hs (fun _ _ h1 => h1.readCheck _ _ _)

theorem Fused.sampleBytes (x : VoiceSt) (i : Nat) : Fused P (s.sampleBytes x i).2.2.2 := by
  unfold State.sampleBytes
  dsimp only
  split
  · exact hs
  · exact hs.larkLoad _ _

theorem Fused.countStarve (missing : Bool) : Fused P (s.countStarve missing) := (hs.inc _ _ _).ite hs
theorem Fused.pcmSample (x : VoiceSt) (i : Nat) : Fused P (s.pcmSample x i).2 := ((hs.sampleBytes _ _).countStarve _).iteSnd ((hs.sampleBytes _ _).countStarve _)

theorem Fused.imaNext (x : VoiceSt) : Fused P (s.imaNext x).2 := by
  have read := (hs.sampleBytes x x.decoded).countStarve (s.sampleBytes x x.decoded).2.1
  unfold State.imaNext
  dsimp only
  split
  · exact read.draw
  · exact read

omit hs in
theorem Fused.imaRun : ∀ (k : Nat) {s : State} (_ : Fused P s) (x : VoiceSt) (n : Nat), Fused P (State.imaRun k s x n).2
  | 0, _, hs, _, _ => hs
  | k + 1, s, hs, x, n => by
    unfold State.imaRun
    split
    · exact Fused.imaRun k (hs.imaNext x) _ n
    · exact hs

theorem Fused.imaLoop (x : VoiceSt) : Fused P (s.imaLoop x).2 := by
  unfold State.imaLoop
  split
  · exact hs.imaRun _ _ _
  · exact hs

theorem Fused.samplePair (x : VoiceSt) : Fused P (s.samplePair x).2.2.2 := by
  have run := fun k n => Fused.imaRun k (hs.imaLoop x) (s.imaLoop x).1 n
  have first := hs.pcmSample x (x.pos / 2 ^ 20)
  unfold State.samplePair
  dsimp only
  split
  · split
    · exact run _ _
    · split
      · exact (run _ _).imaNext _
      · exact run _ _
  · split
    · exact first
    · exact first.pcmSample _ _

theorem Fused.voiceAsk (v : Fin 256) (us : List Nat) : Fused P (s.voiceAsk v us) := Fused.foldl hs (fun _ _ h1 => (h1.dramAsk _ _ _ _ _).modVoice _ _)

theorem Fused.keyApply (k : KeyCmd) : Fused P (s.keyApply k) := by
  unfold State.keyApply
  dsimp only
  split
  · exact ((hs.inc _ _ _).raise _).ite (hs.modVoice _ _)
  · exact hs.modVoice _ _
  · exact hs.modVoice _ _
  · exact hs

theorem Fused.keyGather (v : Fin 256) (op back : Nat) : Fused P (s.keyGather v op back) := hs.ite (hs.congr.when (fun h1 => h1.voiceAsk _ _))
theorem Fused.keyBy (who rank : Nat) (v : Fin 256) (op : Nat) : Fused P (s.keyBy who rank v op) := (hs.keyGather _ _ _).cycNote _
theorem Fused.vkeyPut (r : Requester) (v : Word) : Fused P (s.vkeyPut r v) := (hs.accessFault _ _).ite ((hs.keyGather _ _ _).ite (hs.keyBy _ _ _ _))
theorem Fused.filter (v : VoiceSt) (w8 : Word) (x : Int) : Fused P (s.filter v w8 x).2.2 := (hs.roundDiv _ _).roundDiv _ _

theorem Fused.voicePeriod (v : Fin 256) (m : MixSum) : Fused P (s.voicePeriod v m).2 := by
  unfold State.voicePeriod
  dsimp only
  split
  · exact hs.ite (hs.modVoice _ _)
  · exact (((((hs.samplePair _).filter _ _ _).modVoice _ _).when (fun h1 => h1.raise _)).modVoice _ _).voiceAsk _ _

theorem Fused.busReturn (x : Fin 4) (n : Nat) (send : Int) : Fused P (s.busReturn x n send).2 := by
  unfold State.busReturn
  dsimp only
  split
  · exact hs
  · exact (hs.larkLoad _ _).larkStore _ _

theorem Fused.adoptReturn (x : Fin 4) (b : Nat) : Fused P (s.adoptReturn x b) := by
  unfold State.adoptReturn
  dsimp only
  split
  · exact hs.congr
  · split
    · exact hs.congr.ite ((hs.congr.inc _ _ _).raise _)
    · exact (hs.congr.inc _ _ _).raise _

theorem Fused.lineUnlock : Fused P s.lineUnlock := (hs.congr.bset _ _ _).raise _
theorem Fused.lineSeek : Fused P s.lineSeek := hs.congr.ite hs.lineUnlock
theorem Fused.lockPeriod : Fused P s.lockPeriod := hs.ite ((hs.congr.when (fun h1 => h1.bset _ _ _)).ite (hs.lineUnlock.ite hs))
theorem Fused.larkUnlock (h : Nat) : Fused P (s.larkUnlock h) := hs.lineUnlock.ite hs
theorem Fused.larkResume (h : Nat) : Fused P (s.larkResume h) := hs.lineSeek.ite hs

theorem Fused.period : Fused P s.period := by
  unfold State.period
  extract_lets n _ s0 s1 s2 whole
  have keyed : Fused P s1 := Fused.foldl (Fused.splitLate hs.congr _) fun _ _ h => h.keyApply _
  have adopted : Fused P s2 := keyed.when fun h => Fused.foldl h fun _ _ h => h.adoptReturn _ _
  clear_value s2
  split
  next m s3 e3 =>
  have mixed : Fused P s3 := by
    rw [← show _ = s3 from congrArg Prod.snd e3]
    exact Fused.foldlSnd adopted fun _ _ h => h.voicePeriod _ _
  split
  next sends s4 e4 =>
  have sent : Fused P s4 := by
    rw [← show _ = s4 from congrArg Prod.snd e4]
    exact Fused.foldlSnd mixed fun _ _ h => h.roundDiv _ _
  split
  next ch s5 e5 =>
  have returned : Fused P s5 := by
    rw [← show _ = s5 from congrArg Prod.snd e5]
    exact Fused.foldlSnd sent fun _ _ h => h.busReturn _ _ _
  split
  next out s6 e6 =>
  have mastered : Fused P s6 := by
    rw [← show _ = s6 from congrArg Prod.snd e6]
    exact Fused.foldlSnd returned fun _ _ h => h.roundDiv _ _
  extract_lets send done _ s7 s8
  have counted : Fused P s7 := mastered.congr
  exact ((counted.wr _ _).wr _ _).lockPeriod

theorem Fused.copySends : Fused P s.copySends := (Fused.foldl hs (fun _ _ h1 => h1.queueWrite _ _ _)).congr

theorem Fused.askReturn (x : Fin 4) (n : Nat) : Fused P (s.askReturn x n) := by
  unfold State.askReturn
  extract_lets us
  split
  next t wait got e =>
  have asked : Fused P t := by
    rw [← show _ = t from congrArg Prod.fst e]
    refine Fused.foldlFst hs fun a u h => ?_
    have read := h.dramAsk (.larkReturn x) u 0 n false
    dsimp only
    split <;> exact read
  exact asked.congr

theorem Fused.larkStop : Fused P s.larkStop := hs.congr

theorem Fused.lctlPut (v : Word) : Fused P (s.lctlPut v) :=
  hs.ite ((((hs.bset _ _ _).larkStop).wr _ _).ite ((hs.put _ _).when (fun h1 => (((h1.congr.wr _ _).wr _ _).wr _ _).when (fun h2 => h2.lineSeek))))

theorem Fused.lmRead (peek : Bool) : Fused P (s.lmRead peek).2.2 := (hs.larkLoad _ _).ite ((hs.larkLoad _ _).fset _ _ _ _)
theorem Fused.lmWrite (v : Word) : Fused P (s.lmWrite v) := (hs.larkStore _ _).fset _ _ _ _

theorem Fused.larkRegPut (r : Requester) (off : Nat) (v : Word) : Fused P (s.larkRegPut r off v) := by
  unfold State.larkRegPut
  split
  · exact hs.lctlPut _
  · exact hs.ite (hs.put _ _)
  · exact hs.lmWrite _
  · exact hs.vkeyPut _ _
  · exact hs.ite (hs.put _ _)
  · exact hs.ite (hs.put _ _)

theorem Fused.execLmdataAccess (r : Requester) (w : Option Word) : NextFused P (execLmdataAccess r w s) := by
  unfold Machine.execLmdataAccess
  split
  · exact (hs.gated _ _ (fun _ h1 => h1.lmWrite _)).next
  · exact ((((hs.lmRead _).accessFault _ _).ite ((hs.lmRead _).congr)).next).ite ((hs.accessFault _ _).next)

/-! ### Machine/Timers -/

theorem Fused.modTmr (t : Tmr) (f : TimerSt → TimerSt) : Fused P (s.modTmr t f) := hs.congr

theorem Fused.tIrq (t : Tmr) (enable : Bool) : Fused P (s.tIrq t enable) := by
  unfold State.tIrq
  split
  · exact hs
  · split
    · exact hs.raiseCause _ _ _
    · exact Fused.foldl hs (fun _ _ h1 => h1.congr)

theorem Fused.tMatch (t : Tmr) : Fused P (s.tMatch t) := (hs.bset _ _ _).tIrq _ _
theorem Fused.tWrap (t : Tmr) : Fused P (s.tWrap t) := (hs.bset _ _ _).tIrq _ _
theorem Fused.tOut (t : Tmr) (b : Bool) : Fused P (s.tOut t b) := hs.congr

theorem Fused.tickOut (t : Tmr) (m w own : Bool) : Fused P (s.tickOut t m w own) := by
  unfold State.tickOut
  dsimp only
  split
  · exact (((hs.tWrap _).ite hs).when (fun h1 => h1.tMatch _)).when (fun h1 => h1.tOut _ _)
  · exact ((((hs.tWrap _).ite hs).when (fun h1 => h1.tMatch _)).tOut _ _).ite
      ((((hs.tWrap _).ite hs).when (fun h1 => h1.tMatch _)).when (fun h1 => h1.tOut _ _))
  · exact ((((hs.tWrap _).ite hs).when (fun h1 => h1.tMatch _)).tOut _ _).ite
      ((((hs.tWrap _).ite hs).when (fun h1 => h1.tMatch _)).when (fun h1 => h1.tOut _ _))
  · exact (((hs.tWrap _).ite hs).when (fun h1 => h1.tMatch _)).tOut _ _

theorem Fused.tickOne (t : Tmr) : Fused P (s.tickOne t) :=
  (((((hs.wr _ _).wr _ _).tickOut _ _ _ _).tickOut _ _ _ _).raisedOnce _ _).ite (((hs.wr _ _).tickOut _ _ _ _).raisedOnce _ _)

theorem Fused.reloadOne (t : Tmr) : Fused P (s.reloadOne t) := hs.congr

theorem Fused.timerOp (t0 : Tmr) (op : Nat) : Fused P (s.timerOp t0 op) := by
  unfold State.timerOp
  dsimp only
  split
  · exact hs.bset _ _ _
  · exact hs.bset _ _ _
  · exact ((hs.reloadOne _).when (fun h1 => h1.reloadOne _)).bset _ _ _
  · exact hs

theorem Fused.lowresAt (t : Tmr) : Fused P (s.lowresAt t) := ((hs.bset _ _ _).modTmr _ _).ite ((hs.bset _ _ _).when (fun h1 => h1.modTmr _ _))
theorem Fused.lowresTrack : Fused P s.lowresTrack := Fused.foldl hs (fun _ _ h1 => h1.lowresAt _)

theorem Fused.timerBy (who rank : Nat) (ts : List Tmr) (op : Nat) : Fused P (s.timerBy who rank ts op) :=
  (Fused.foldl (Fused.foldl hs (fun _ _ h1 => (h1.timerOp _ _).ite ((h1.timerOp _ _).bset _ _ _))) (fun _ _ h1 => h1.lowresAt _)).cycNotes _ _

theorem Fused.tgoPut (r : Requester) (v : Word) : Fused P (s.tgoPut r v) := hs.ite ((hs.timerBy _ _ _ _).ite ((hs.timerBy _ _ _ _).accessFault _ _))
theorem Fused.capRise (t : Tmr) : Fused P (s.capRise t) := (hs.bset _ _ _).tIrq _ _

theorem Fused.captureOne (t : Tmr) : Fused P (s.captureOne t) :=
  ((hs.wr _ _).capRise _).ite ((((hs.modTmr _ _).bset _ _ _).tIrq _ _).ite ((hs.modTmr _ _).bset _ _ _))

theorem Fused.tcapTake (t : Tmr) : Fused P (s.tcapTake t).2 := by
  unfold State.tcapTake
  dsimp only
  split
  · exact (((hs.bset _ _ _).wr _ _).bset _ _ _).capRise _
  · exact hs.bset _ _ _

theorem Fused.tcntTake (r : Requester) (t : Tmr) : Fused P (s.tcntTake r t).2 := by
  unfold State.tcntTake
  dsimp only
  split
  · exact hs.setShadow _ _ _
  · split
    · exact hs
    · exact hs

theorem Fused.lowresOne (t : Tmr) : Fused P (s.lowresOne t) :=
  ((((((hs.wr _ _).modTmr _ _).tickOut _ _ _ _).wr _ _).tickOut _ _ _ _).raisedOnce _ _).ite
    ((((hs.wr _ _).modTmr _ _).tickOut _ _ _ _).raisedOnce _ _)

theorem Fused.tctlPut (r : Requester) (t : Tmr) (v : Word) : Fused P (s.tctlPut r t v) :=
  hs.ite (((((hs.put _ _).when (fun h1 => h1.tOut _ _)).bset _ _ _).lowresTrack).cycNote _)

theorem Fused.timerRegPut (r : Requester) (t : Tmr) (off : Nat) (v : Word) : Fused P (s.timerRegPut r t off v) := by
  unfold State.timerRegPut
  split
  · exact hs.tctlPut _ _ _
  · exact hs.ite (hs.put _ _)
  · exact hs.ite (hs.put _ _)
  · exact hs.put _ _

/-! ### Machine/Links -/

theorem Fused.modLink (g : Link) (f : LinkSt → LinkSt) : Fused P (s.modLink g f) := hs.congr
theorem Fused.pump (g : Link) : Fused P (s.pump g) := (hs.modLink _ _).ite hs
theorem Fused.linkSend (g : Link) (p : Packet) : Fused P (s.linkSend g p) := ((hs.modLink _ _).pump _).ite hs

theorem Fused.sendTo (dest : Word) (p : Packet) : Fused P (s.sendTo dest p) := by
  unfold State.sendTo
  split
  · exact hs.linkSend _ _
  · exact hs

/-! ### Machine/Mailbox -/

theorem Fused.modMbox (m : Mbox) (f : MboxSt → MboxSt) : Fused P (s.modMbox m f) := hs.congr
theorem Fused.mbFree (m : Mbox) : Fused P (s.mbFree m) := hs.congr
theorem Fused.claimSet (m : Mbox) (c : Nat) : Fused P (s.claimSet m c) := hs.congr
theorem Fused.mbClaim (q : Claimant) (m : Mbox) : Fused P (s.mbClaim q m) := (((hs.claimSet _ _).ite hs).cycNote _).ite hs
theorem Fused.mbPost (q : Claimant) (m : Mbox) : Fused P (s.mbPost q m) := ((hs.congr).cycNote _).ite hs
theorem Fused.mbRelease (q : Claimant) (m : Mbox) : Fused P (s.mbRelease q m) := (hs.mbFree _).ite hs

theorem Fused.mbctlPut (q : Claimant) (m : Mbox) (v : Word) : Fused P (s.mbctlPut q m v) := by
  unfold State.mbctlPut
  split
  · exact hs.mbClaim _ _
  · exact hs.mbPost _ _
  · exact hs.mbRelease _ _
  · exact hs

theorem Fused.claimFirst (m : Mbox) : Fused P (s.claimFirst m) := by
  unfold State.claimFirst
  split
  · exact hs.claimSet _ _
  · exact hs

theorem Fused.mbufPut (m : Mbox) (w : Nat) (v : Word) : Fused P (s.mbufPut m w v) := (hs.wr _ _).writeFlip _ _
theorem Fused.putResponse (m : Mbox) (ws : List Word) : Fused P (s.putResponse m ws) := Fused.foldl hs (fun _ _ h1 => h1.mbufPut _ _ _)

theorem Fused.mbDeliver (m : Mbox) (ws : List Word) : Fused P (s.mbDeliver m ws) := by
  unfold State.mbDeliver
  dsimp only
  split
  · exact (((hs.putResponse _ _).modMbox _ _).mbFree _).sendTo _ _
  · exact ((((hs.putResponse _ _).modMbox _ _).mbFree _).ite (((hs.putResponse _ _).modMbox _ _).fset _ _ _ _)).raise _

theorem Fused.mbFinish (m : Mbox) (code : Nat) (res : List Word) : Fused P (s.mbFinish m code res) := (hs.ite (hs.modMbox _ _)).mbDeliver _ _
theorem Fused.mbFinishRaw (m : Mbox) (ws : List Word) : Fused P (s.mbFinishRaw m ws) := (hs.modMbox _ _).mbDeliver _ _
theorem Fused.seqAccept (m : Mbox) : Fused P (s.seqAccept m) := hs.congr

theorem Fused.toService (m : Mbox) : Fused P (s.toService m) := by
  unfold State.toService
  dsimp only
  split <;> exact ((hs.congr.fset _ _ _ _).bset _ _ _).modMbox _ _

theorem Fused.reqLost (m : Mbox) : Fused P (s.reqLost m).1 := by
  refine Fused.foldlFst hs fun a i ha => ?_
  split
  · exact ha
  · exact ha.readCheck _ _ _

theorem Fused.forward (m : Mbox) : Fused P (s.forward m) := by
  unfold State.forward
  dsimp only
  split
  · exact hs.mbFinish _ _ _
  · split
    · exact hs.mbFinish _ _ _
    · exact (hs.mbFinish _ _ _).ite ((hs.modMbox _ _).linkSend _ _)

theorem Fused.checked (m : Mbox) (known : Bool) (lo hi : Nat) (legal : State → Bool) {f : State → Served}
    (hf : ∀ t, Fused P t → ServedFused P (f t)) :
    Fused P (s.checked m known lo hi legal f) := by
  have served := hf s hs
  unfold State.checked
  refine (hs.mbFinish _ _ _).ite ((hs.mbFinish _ _ _).ite ?_)
  generalize f s = r at served
  cases r with
  | done t c ws => exact (Fused.dropShadows served).mbFinish _ _ _
  | held t => exact served

theorem Fused.serve (m : Mbox) (mine : Nat → Word → Bool) (lo hi : Nat) (legal : State → Bool) {f : List Word → State → Served}
    (hf : ∀ a t, Fused P t → ServedFused P (f a t)) : Fused P (s.serve m mine lo hi legal f) := by
  have taken := (hs.toService m).reqLost m
  unfold State.serve
  extract_lets c s1
  split
  · exact hs
  · split
    next s2 lost e =>
    rw [e] at taken
    refine (taken.mbFinish _ _ _).ite ?_
    split
    · exact taken.mbDeliver _ _
    · exact taken.mbFinish _ _ _
    · exact ((taken.seqAccept _).forward _).ite ((taken.seqAccept _).checked _ _ _ _ _ fun t h => hf _ t h)

theorem Fused.execForwardTimeout (m : Mbox) : NextFused P (execForwardTimeout m s) := by
  unfold Machine.execForwardTimeout
  split
  · exact (hs.mbFinish _ _ _).next
  · exact hs.next

/-! ### Machine/Golmon -/

theorem Fused.modCopy (n : Fin 8) (f : CopySt → CopySt) : Fused P (s.modCopy n f) := hs.congr

theorem Fused.copyEnd (n : Fin 8) (code : Nat) : Fused P (s.copyEnd n code) :=
  (((hs.bset _ _ _).fset _ _ _ _).modCopy _ _).ite ((((hs.bset _ _ _).fset _ _ _ _).modCopy _ _).raiseCause _ _ _)

theorem Fused.copyAcked (n : Fin 8) (k : Nat) : Fused P (s.copyAcked n k) := hs.congr

theorem Fused.copyAskOne (n : Fin 8) : Fused P (s.copyAskOne n) :=
  hs.ite (((hs.modCopy _ _).dramAsk _ _ _ _ _).ite (((hs.modCopy _ _).dramAsk _ _ _ _ _).modCopy _ _))

theorem Fused.copySent (n : Fin 8) : Fused P (s.copySent n) := hs.ite ((hs.modCopy _ _).ite ((hs.copyEnd _ _).ite hs))

theorem Fused.copyPut (n : Fin 8) (data : List (List Byte)) : Fused P (s.copyPut n data) :=
  ((((hs.modCopy _ _).queueWrite _ _ _).copyAcked _ _).copySent _).ite ((((hs.modCopy _ _).modCopy _ _).sendTo _ _).copySent _)

theorem Fused.copyOne (n : Fin 8) : Fused P (s.copyOne n) := hs.ite ((hs.copyPut _ _).ite (((hs.ite (hs.copyPut _ _)).copyEnd _ _).ite hs))
theorem Fused.copyPump (n : Fin 8) : Fused P (s.copyPump n) := Fused.foldl (Fused.foldl hs (fun _ _ h1 => h1.copyAskOne _)) (fun _ _ h1 => h1.copyOne _)
theorem Fused.copyUnit (n : Fin 8) (u : Nat) (d : List Byte) (bad : Bool) : Fused P (s.copyUnit n u d bad) := ((hs.modCopy _ _).copyPump _).ite hs

theorem Fused.copyStart (n : Fin 8) (stream : Bool) : Fused P (s.copyStart n stream) := by
  unfold State.copyStart
  extract_lets s1 _ s2 live
  have cleared : Fused P s2 := (((hs.bset _ _ _).fset _ _ _ _).wr _ _).modCopy _ _
  exact hs.ite ((cleared.copyEnd _ _).ite (cleared.ite (cleared.copyPump _)))

theorem Fused.copyHalt (n : Fin 8) : Fused P (s.copyHalt n) := hs.ite ((hs.copyEnd _ _).ite (hs.modCopy _ _))
theorem Fused.ccmdPut (n : Fin 8) (v : Word) : Fused P (s.ccmdPut n v) := ((hs.put _ _).when (fun h1 => h1.copyHalt _)).when (fun h1 => h1.copyStart _ _)

theorem Fused.streamStrobe (h : Head) (b : Nat) : Fused P (s.streamStrobe h b) :=
  Fused.foldl hs (fun _ _ h1 => h1.ite ((h1.inc _ _ _).ite ((h1.modCopy _ _).copyPump _)))

theorem Fused.streamStop (h : Head) : Fused P (s.streamStop h) := Fused.foldl hs (fun _ _ h1 => (h1.copyEnd _ _).ite h1)
theorem Fused.ccmdGo (n : Fin 8) (strm : Bool) : Fused P (s.ccmdGo n strm) := hs.ccmdPut _ _
theorem Fused.foldTrack : Fused P s.foldTrack := (((hs.congr.bset _ _ _).ite hs).bset _ _ _).when (fun h1 => (h1.inc _ _ _).raise _)
theorem Fused.linkSet (g : Link) (st : Nat) : Fused P (s.linkSet g st) := hs.congr
theorem Fused.linkTrain (g : Link) : Fused P (s.linkTrain g) := hs.ite (((((hs.linkSet _ _).fset _ _ _ _).fset _ _ _ _).modLink _ _).foldTrack)
theorem Fused.linkRetrain (g : Link) : Fused P (s.linkRetrain g) := (hs.inc _ _ _).linkTrain _

theorem Fused.linkLost (g : Link) : Fused P (s.linkLost g) := by
  refine Fused.raisedOnce (Fused.foldl (Fused.foldl hs fun t m h => ?_) fun t n h => (h.copyEnd _ _).ite h) _ _
  refine Fused.ite (h.mbFree m).congr ?_
  split
  · exact (h.mbFinish _ _ _).ite h
  · exact h

theorem Fused.linkClear (g : Link) : Fused P (s.linkClear g) := hs.congr

theorem Fused.linkDown (g : Link) : Fused P (s.linkDown g) :=
  (((((((hs.linkSet _ _).fset _ _ _ _).inc _ _ _).linkClear _).linkLost _).foldTrack).raiseCause _ _ _).raisedOnce _ _

theorem Fused.linkFault (g : Link) (code : Nat) : Fused P (s.linkFault g code) := (((hs.linkSet _ _).fset _ _ _ _).foldTrack).raiseCause _ _ _

theorem Fused.linkUpNow (g : Link) : Fused P (s.linkUpNow g) :=
  (((((((hs.linkSet _ _).fset _ _ _ _).fset _ _ _ _).fset _ _ _ _).modLink _ _).pump _).foldTrack).raiseCause _ _ _

theorem Fused.linkDecide (g : Link) : Fused P (s.linkDecide g) := by
  unfold State.linkDecide
  extract_lets x s1
  have ready : Fused P s1 := hs.modLink _ _
  have fault := fun code => ready.linkFault g code
  exact hs.ite ((fault 3).ite (ready.ite ((fault 1).ite ((fault 2).ite ((fault 3).ite (ready.linkUpNow _))))))

theorem Fused.tsBlock (g : Link) (l : Fin 4) (b0 : BitVec 64) : Fused P (s.tsBlock g l b0) :=
  hs.ite ((hs.modLink _ _).ite (((((((hs.modLink _ _).modLink _ _).when (fun h1 => h1.bset _ _ _)).bset _ _ _).wr _ _).fset _ _ _ _).linkDecide _))

theorem Fused.prbsOn (g : Link) (k : Nat) : Fused P (s.prbsOn g k) :=
  (hs.fset _ _ _ _).when (fun h1 => ((((h1.linkSet _ _).fset _ _ _ _).linkClear _).linkLost _).foldTrack)

theorem Fused.prbsOff (g : Link) : Fused P (s.prbsOff g) := (hs.fset _ _ _ _).ite (((hs.fset _ _ _ _).linkTrain _).ite ((hs.fset _ _ _ _).linkDown _))
theorem Fused.prbsPut (g : Link) (k : Nat) : Fused P (s.prbsPut g k) := hs.ite ((hs.prbsOff _).ite (hs.prbsOn _ _))

theorem Fused.linkEnPut (g : Link) (on : Bool) : Fused P (s.linkEnPut g on) :=
  ((hs.bset _ _ _).when (fun h1 => h1.linkTrain _)).ite ((hs.bset _ _ _).when (fun h1 => h1.linkDown _))

theorem Fused.lkctlPut (g : Link) (v : Word) : Fused P (s.lkctlPut g v) :=
  ((hs.ite ((hs.ite (hs.fset _ _ _ _)).fset _ _ _ _)).linkEnPut _ _).ite
    (((hs.ite ((hs.ite (hs.fset _ _ _ _)).fset _ _ _ _)).linkEnPut _ _).prbsPut _ _)

theorem Fused.tailIn (g : Link) (p : Packet) : Fused P (s.tailIn g p) :=
  ((((hs.modLink _ _).ite hs).when (fun h1 => (h1.modLink _ _).incN _ _ _ _)).pump _).when (fun h1 => (h1.modLink _ _).linkRetrain _)

theorem Fused.linkReceive (g : Link) (p : Packet) : Fused P (s.linkReceive g p).1 := by
  unfold State.linkReceive
  dsimp only
  split
  · exact (hs.modLink _ _).tailIn _ _
  · exact (hs.inc _ _ _).modLink _ _

theorem Fused.noRoute : Fused P s.noRoute := hs.congr

theorem Fused.packetIn (g : Link) (p : Packet) (k : Nat) {f : State → State} (hf : ∀ t, Fused P t → Fused P (f t)) : Fused P
    (s.packetIn g p k f) :=
  have received := hs.linkReceive g p
  hs.ite (received.ite (received.noRoute.ite (hf _ received)))

theorem Fused.deliver (p : Packet) {here lost : State → State} (hh : ∀ t, Fused P t → Fused P (here t))
    (hl : ∀ t, Fused P t → Fused P (lost t)) :
    Fused P (s.deliver p here lost) := by
  refine Fused.ite (hl _ hs.noRoute) ?_
  split
  · exact hh _ hs
  · split
    · exact hs.linkSend _ _
    · exact hl _ hs.noRoute

theorem Fused.sendEpoch (but : Option Link) (e t : BitVec 48) : Fused P (s.sendEpoch but e t) := Fused.foldl hs (fun _ _ h1 => (h1.linkSend _ _).ite h1)
theorem Fused.inFold {f : State → State} (hf : ∀ t, Fused P t → Fused P (f t)) : Fused P (s.inFold f) := (hf _ hs).ite hs.noRoute
theorem Fused.epochIn (g : Link) (p : Packet) : Fused P (s.epochIn g p) := hs.ite (hs.congr.foldTrack.sendEpoch _ _ _)

theorem Fused.epochSource (h : Head) (e : BitVec 48) : Fused P (s.epochSource h e) := by
  unfold State.epochSource
  dsimp only
  split
  · exact hs
  · split
    · exact hs.raise _
    · split
      · exact hs.congr
      · exact hs.congr.foldTrack.sendEpoch _ _ _

theorem Fused.execTsyncRequest : NextFused P (execTsyncRequest s) := by
  unfold Machine.execTsyncRequest
  split
  · exact hs.next
  · split
    · exact hs.next
    · exact ((hs.congr.linkSend _ _).next).ite hs.next

theorem Fused.tsyncAnswer (g : Link) (p : Packet) : Fused P (s.tsyncAnswer g p) := by
  unfold State.tsyncAnswer
  split
  · exact hs
  · exact hs.ite ((((hs.congr.wr _ _).wr _ _).bset _ _ _).foldTrack)

theorem Fused.tsyncIn (g : Link) (p : Packet) : Fused P (s.tsyncIn g p) := (hs.linkSend _ _).ite (hs.tsyncAnswer _ _)

theorem Fused.mbreqHere (g : Link) (p : Packet) : Fused P (s.mbreqHere g p) := by
  unfold State.mbreqHere
  dsimp only
  split
  · exact hs.sendTo _ _
  · exact (Fused.foldl ((hs.mbClaim _ _).modMbox _ _) (fun _ _ h1 => h1.mbufPut _ _ _)).mbPost _ _

theorem Fused.execMbreq (g : Link) (pkt : Packet) : NextFused P (execMbreq g pkt s) :=
  (hs.packetIn _ _ _ (fun _ h1 => h1.deliver _ (fun _ h2 => h2.mbreqHere _ _) (fun _ h2 => h2.sendTo _ _))).next

theorem Fused.mbrspHere (p : Packet) : Fused P (s.mbrspHere p) := by
  unfold State.mbrspHere
  dsimp only
  split
  · exact (hs.mbFinishRaw _ _).ite hs
  · exact hs

theorem Fused.dataHere (g : Link) (p : Packet) : Fused P (s.dataHere g p) := ((hs.queueWrite _ _ _).sendTo _ _).ite (hs.sendTo _ _)
theorem Fused.dataLost (p : Packet) : Fused P (s.dataLost p) := hs.sendTo _ _

theorem Fused.cpyackHere (p : Packet) : Fused P (s.cpyackHere p) :=
  hs.ite ((hs.copyEnd _ _).ite ((((hs.copyAcked _ _).modCopy _ _).copyEnd _ _).ite ((((hs.copyAcked _ _).modCopy _ _).copyPump _).copySent _)))

theorem Fused.foldPut (off : Nat) (v : Word) : Fused P (s.foldPut off v) := by
  unfold State.foldPut
  split
  · exact hs.ite (hs.put _ _)
  · exact (hs.put _ _).foldTrack
  · exact hs.put _ _

theorem Fused.ftimelTake (r : Requester) : Fused P (s.ftimelTake r).2 := hs.congr

/-! ### Machine/Deliver -/

theorem Fused.markRow (c : Chan) (entry : Word) : Fused P (s.markRow c entry) := (hs.appendRecord _ _).ite hs
theorem Fused.chanLog (c : Chan) (kind u : Nat) : Fused P (s.chanLog c kind u) := (hs.logPut _ _ _ _).markRow _ _

theorem Fused.countCheck (c : Chan) (u : Nat) (k : Checked) : Fused P (s.countCheck c u k) := by
  unfold State.countCheck
  extract_lets s1 s2 s3 s4 s5
  have h1 : Fused P s1 := hs.when fun h => (h.inc _ _ _).chanLog _ _ _
  have h2 : Fused P s2 := h1.when fun h => h.inc _ _ _
  have h3 : Fused P s3 := h2.when fun h => h.inc _ _ _
  have h4 : Fused P s4 := h3.when fun h => (h.inc _ _ _).chanLog _ _ _
  have h5 : Fused P s5 := h4.when fun h => h.inc _ _ _
  exact h5.when fun h => h.raise _

theorem Fused.slotUnit (h : Head) (n : Slot) (line u : Nat) (bad standIn : Bool) : Fused P (s.slotUnit h n line u bad standIn) := by
  unfold State.slotUnit
  split
  · split
    · exact hs
    · exact (((hs.workOn _ _ _).modHead _ _).mirrorCheck _).ite hs
  · split
    · exact hs
    · exact ((hs.workOn _ _ _).setSlot _ _ _ _).ite hs

theorem Fused.voiceUnit (v : Fin 256) (u : Nat) (d : List Byte) (bad : Bool) : Fused P (s.voiceUnit v u d bad) := hs.congr
theorem Fused.returnUnit (x : Fin 4) (block u : Nat) (d : List Byte) (bad : Bool) : Fused P (s.returnUnit x block u d bad) := hs.congr

theorem Fused.portUnit (p : Pad) (k : Fin 2) (serial u : Nat) (d : List Byte) (bad : Bool) : Fused P (s.portUnit p k serial u d bad) :=
  (hs.modPort _ _ _).ite (hs.modPort _ _ _)

theorem Fused.directEnd (x : DirectRead) : Fused P (s.directEnd x) := by
  unfold State.directEnd
  dsimp only
  split
  · exact ((hs.busDone _ _).accessFault _ _).ite (hs.busDone _ _)
  · exact hs.congr

theorem Fused.directRead (q : DramUser) (a n : Nat) : Fused P (s.directRead q a n) := by
  unfold State.directRead
  extract_lets r t
  have asked : Fused P r.1 := Fused.foldlFst hs fun _ _ h => h.dramAsk _ _ _ _ _
  have raised : Fused P t := asked.raisedOnce _ _
  exact (raised.directEnd _).ite raised.congr

theorem Fused.directUnit (q : DramUser) (u : Nat) (d : List Byte) (bad : Bool) : Fused P (s.directUnit q u d bad) := by
  unfold State.directUnit
  dsimp only
  split
  · split
    · exact (hs.accessFault _ _).ite (hs.stWr _ _)
    · exact hs.congr
  · exact (hs.congr.directEnd _).ite hs.congr

theorem Fused.handOver (r : DRead) (bad : Bool) : Fused P (s.handOver r bad) := by
  unfold State.handOver
  dsimp only
  split
  · exact hs.slotUnit _ _ _ _ _ _
  · exact hs.voiceUnit _ _ _ _
  · exact hs.returnUnit _ _ _ _ _
  · exact hs.portUnit _ _ _ _ _ _
  · exact (hs.accessFault _ _).ite hs.congr
  · exact hs.directUnit _ _ _ _
  · exact hs.directUnit _ _ _ _
  · exact (hs.passWord _).copyUnit _ _ _ _
  · exact hs
  · exact hs.loaderUnit _ _ _

theorem Fused.complete (c : Chan) (r : DRead) (o : ReadOutcome) : Fused P (s.complete c r o) :=
  (((hs.setReads _ _).countCheck _ _ _).modChan _ _).ite
    ((((((hs.setReads _ _).countCheck _ _ _).congr).passWord _).modChan _ _).ite
      (((((hs.setReads _ _).countCheck _ _ _).congr).passWord _).handOver _ _))

theorem Fused.execDramReadComplete (c : Chan) (o : ReadOutcome) : NextFused P (execDramReadComplete c o s) := by
  unfold Machine.execDramReadComplete
  split
  · exact hs.next
  · exact (hs.complete _ _ _).next

/-! ### Machine/Wardens -/

theorem Fused.modCore (k : Core) (f : CoreSt → CoreSt) : Fused P (s.modCore k f) := hs.congr
theorem Fused.setRole (k : Core) (r : Nat) : Fused P (s.setRole k r) := hs.congr
theorem Fused.setAlive (k : Core) (b : Bool) : Fused P (s.setAlive k b) := hs.congr
theorem Fused.setLeft (k : Core) (n : Nat) : Fused P (s.setLeft k n) := hs.congr
theorem Fused.reload (k : Core) : Fused P (s.reload k) := hs.congr
theorem Fused.noteReset : Fused P s.noteReset := hs.congr.when (fun h1 => h1.toSafe _)
theorem Fused.coreReset (k : Core) : Fused P (s.coreReset k) := (((hs.setRole _ _).setAlive _ _).modCore _ _).noteReset
theorem Fused.moveCtxs (j k : Core) (lost : Bool) : Fused P (s.moveCtxs j k lost) := hs.congr

theorem Fused.faultServed (j : Core) : Fused P (s.faultServed j) := by
  refine Fused.foldl hs fun t m h => Fused.ite ?_ h
  split
  · exact h
  · exact h.mbFinish _ _ _

theorem Fused.relayMove (j k : Core) (step : Nat) : Fused P (s.relayMove j k step) :=
  (Fused.foldl (((((hs.setRole _ _).setRole _ _).moveCtxs _ _ _).setAlive _ _).modCore _ _) (fun _ _ h1 => (h1.bset _ _ _).ite h1)).congr

theorem Fused.relayEnd (code : Nat) (res : List Word) : Fused P (s.relayEnd code res) := by
  unfold State.relayEnd
  dsimp only
  split
  · exact hs.congr.mbFinish _ _ _
  · exact hs.congr

theorem Fused.relayStep : Fused P s.relayStep := hs.ite ((hs.relayEnd _ _).ite (hs.ite (hs.relayMove _ _ _)))
theorem Fused.takeOver (k : Core) : Fused P (s.takeOver k) := (((((hs.setRole _ _).raise _).moveCtxs _ _ _).faultServed _).ledgerInc _).relayStep
theorem Fused.watchdogFire (k : Core) : Fused P (s.watchdogFire k) := ((((hs.setLeft _ _).inc _ _ _).coreReset _).raise _).when (fun h1 => h1.takeOver _)
theorem Fused.seqEnd (k : Core) (bad : Bool) : Fused P (s.seqEnd k bad) := (hs.modCore _ _).when (fun h1 => h1.inc _ _ _)
theorem Fused.seqOpen (k : Core) (q : KeySeq) : Fused P (s.seqOpen k q) := hs.congr

theorem Fused.wdkeyPut (k : Core) (v : Word) : Fused P (s.wdkeyPut k v) := by
  unfold State.wdkeyPut
  split
  · exact ((hs.reload _).seqEnd _ _).ite (hs.seqEnd _ _)
  · exact hs.seqEnd _ _
  · exact (hs.seqOpen _ _).ite ((hs.seqOpen _ _).ite (hs.seqEnd _ _))

theorem Fused.wdcfgPut (k : Core) (v : Word) : Fused P (s.wdcfgPut k v) := by
  unfold State.wdcfgPut
  split
  · exact (hs.fset _ _ _ _).seqEnd _ _
  · exact hs.seqEnd _ _
  · exact hs

theorem Fused.modCtx (c : Ctx) (f : CtxSt → CtxSt) : Fused P (s.modCtx c f) := hs.congr

theorem Fused.runStaged : Fused P s.runStaged := by
  unfold State.runStaged
  split
  · exact hs.congr
  · exact hs

theorem Fused.coreUp (k : Core) : Fused P (s.coreUp k) := ((((hs.setAlive _ _).reload _).setRole _ _).setRole _ _).ite (((hs.setAlive _ _).reload _).setRole _ _)

theorem Fused.execRelayTimeout (k : Core) : NextFused P (execRelayTimeout k s) :=
  ((((hs.coreReset _).modCore _ _).relayEnd _ _).next).ite ((((((hs.setRole _ _).runStaged).relayEnd _ _).next).ite hs.congr.next).ite hs.next)

/-! ### Machine/Trace -/

theorem Fused.traceLose : Fused P s.traceLose := hs.congr
theorem Fused.tracePut (kind src ctx : Nat) (data : Word) : Fused P (s.tracePut kind src ctx data) := hs.ite (hs.congr.ite hs.traceLose)
theorem Fused.traceFrame (h : Nat) : Fused P (s.traceFrame h) := (hs.tracePut _ _ _ _).ite hs

theorem Fused.traceOne (x : List (Nat × Nat × Nat × Word)) : Fused P (s.traceOne x) := by
  unfold State.traceOne
  split
  · exact hs
  · exact Fused.foldl (hs.tracePut _ _ _ _) (fun _ _ h1 => h1.traceLose.ite h1)

theorem Fused.traceProbes : Fused P s.traceProbes := hs.congr.traceOne _

/-! ### Machine/Strobes -/

theorem Fused.setPower (p : PowState) : Fused P (s.setPower p) := (hs.congr.hwWr _ _).raise _
theorem Fused.powTrack : Fused P s.powTrack := (hs.setPower _).ite hs
theorem Fused.rasterBegin (h : Head) (kind : Begun) (line quad : Nat) : Fused P (s.rasterBegin h kind line quad) := hs.congr
theorem Fused.lateRender (h : Head) : Fused P (s.lateRender h) := (hs.modHead _ _).lateAll _ _
theorem Fused.cutFrame (h : Head) (planned : Bool) : Fused P (s.cutFrame h planned) := (hs.closeRecord _ _ _).endFrame _
theorem Fused.pllTrack (h : Head) : Fused P (s.pllTrack h) := (hs.bset _ _ _).ite hs

theorem Fused.rasterEnd (h : Head) (phase : HeadPhase) (planned : Bool) : Fused P (s.rasterEnd h phase planned) :=
  ((((((((hs.cutFrame _ _).orphanReads _ _).modHead _ _).bset _ _ _).bset _ _ _).splitStop _).streamStop _).larkUnlock _).powTrack

theorem Fused.stopNow (h : Head) (begun : Bool) : Fused P (s.stopNow h begun) :=
  ((((((((hs.rasterEnd _ _ _).ite (hs.modHead _ _)).flush _ _).when
    (fun h1 => h1.setEpoch _ _)).modHead _ _).leadTrack _).tapSettle _).pllTrack _).when (fun h1 => h1.pllTrack _)

theorem Fused.headStart (h : Head) (byHost : Bool) : Fused P (s.headStart h byHost) :=
  hs.ite (((hs.fset _ _ _ _).raiseCause _ _ _).ite ((((hs.fset _ _ _ _).bset _ _ _).modHead _ _).flush _ _))

theorem Fused.headStop (h : Head) (byHost : Bool) : Fused P (s.headStop h byHost) := by
  unfold State.headStop
  dsimp only
  split
  · exact hs
  · split
    · exact (((hs.rotAbort.ite hs).bset _ _ _).modHead _ _).stopNow _ _
    · exact (((hs.rotAbort.ite hs).bset _ _ _).modHead _ _).stopNow _ _
    · exact (((hs.rotAbort.ite hs).bset _ _ _).modHead _ _).modHead _ _
    · exact ((hs.rotAbort.ite hs).bset _ _ _).modHead _ _

theorem Fused.rasterGo (h : Head) : Fused P (s.rasterGo h) :=
  (((((((hs.bset _ _ _).bset _ _ _).rasterBegin _ _ _ _).modHead _ _).bset _ _ _).splitStart _).larkResume _).when (fun h1 => h1.outputCheck _)

theorem Fused.headRelease (h : Head) : Fused P (s.headRelease h) := (((((hs.rasterBegin _ _ _ _).modHead _ _).bset _ _ _).splitStart _).larkResume _).ite hs
theorem Fused.snapRestart (h : Head) : Fused P (s.snapRestart h) := (((hs.lateRender _).cutFrame _ _).rasterBegin _ _ _ _).modHead _ _
theorem Fused.refArrive (h : Head) : Fused P (s.refArrive h) := (hs.modHead _ _).when (fun h1 => h1.snapRestart _)
theorem Fused.lockLost (h : Head) : Fused P (s.lockLost h) := hs.congr
theorem Fused.steerStep (h : Head) : Fused P (s.steerStep h) := hs.congr

theorem Fused.lockTrack (h : Head) : Fused P (s.lockTrack h) := by
  unfold State.lockTrack
  dsimp only
  split
  · exact hs.modHead _ _
  · exact (((hs.steerStep _).modHead _ _).bset _ _ _).ite (((hs.steerStep _).modHead _ _).when (fun h1 => (h1.lockLost _).raiseCause _ _ _))

theorem Fused.epochBegin (h : Head) : Fused P (s.epochBegin h) := by
  unfold State.epochBegin
  dsimp only
  split
  · exact ((hs.ite (hs.setEpoch _ _)).setEpoch _ _).modHead _ _
  · exact hs.ite (hs.setEpoch _ _)

theorem Fused.tapBoundary (h : Head) : Fused P (s.tapBoundary h) := by
  unfold State.tapBoundary
  dsimp only
  split
  · exact (hs.modHead _ _).tapAdopt _ _
  · exact hs.modHead _ _

theorem Fused.classBytes (h : Head) : Fused P (s.classBytes h) := Fused.ite ((Fused.foldl hs (fun _ _ h1 => h1.wr _ _)).congr) hs
theorem Fused.rotTake (h : Head) (e : Nat) : Fused P (s.rotTake h e) := hs.congr
theorem Fused.mirrorBegin (h : Head) : Fused P (s.mirrorBegin h) := (hs.modEng _ _).congr

theorem Fused.rotBoundary (h : Head) : Fused P (s.rotBoundary h) := by
  unfold State.rotBoundary
  dsimp only
  split
  · exact hs
  · split
    · exact ((hs.congr).fset _ _ _ _).ite (hs.mirrorBegin _)
    · exact ((hs.congr).fset _ _ _ _).ite ((hs.congr).fset _ _ _ _)
    · exact ((hs.rotTake _ _).fset _ _ _ _).ite (hs.mirrorBegin _)
    · exact hs

theorem Fused.beamStrobe (h : Head) (b : Nat) : Fused P (s.beamStrobe h b) := (Fused.foldl hs (fun _ _ h1 => h1.present _ _ _)).modHead _ _
theorem Fused.markBeam (h : Head) : Fused P (s.markBeam h) := hs.congr

theorem Fused.frameBegin (h : Head) : Fused P (s.frameBegin h) := by
  unfold State.frameBegin
  extract_lets kind s1 s2 s3 s4
  have ended : Fused P s2 := (((hs.epochBegin _).splitBoundary _).endFrame _).modHead _ _
  have opened : Fused P s3 := (((ended.beginFrame _).openRecord _ _ _).tapBoundary _).lockTrack _
  have sourced : Fused P s4 := (((opened.classBytes _).epochSource _ _).rotBoundary _).powTrack
  exact (((sourced.beamStrobe _ _).sweepLate _).markBeam _).traceFrame _

theorem Fused.evalCut (h : Head) (k : Nat) : Fused P (s.evalCut h k) :=
  (((hs.inc _ _ _).modHead _ _).ite ((((hs.inc _ _ _).modHead _ _).setRaised _ _ _).raiseCause _ _ _)).ite hs

theorem Fused.latchDue (h : Head) (k : Nat) : Fused P (s.latchDue h k) := by
  unfold State.latchDue
  dsimp only
  split
  · exact hs
  · split
    · exact ((((hs.modHead _ _).ite hs).evalCut _ _).latchLine _ _).when (fun h1 => h1.miss _ _)
    · exact (((hs.modHead _ _).ite hs).evalCut _ _).latchLine _ _

theorem Fused.leadAdopt (h : Head) : Fused P (s.leadAdopt h) := Fused.foldl ((hs.modHead _ _).leadTrack _) (fun _ _ h1 => ((h1.evaluate _ _).ite h1).latchDue _ _)
theorem Fused.latchNext (h : Head) : Fused P (s.latchNext h) := hs.ite ((hs.latchDue _ _).when (fun h1 => h1.leadAdopt _))
theorem Fused.markRender (h : Head) : Fused P (s.markRender h) := hs.ite (hs.modHead _ _)

theorem Fused.execLineStrobe (h : Head) : NextFused P (execLineStrobe h s) :=
  (((((((hs.frameBegin _).ite hs).beamStrobe _ _).latchNext _).markRender _).streamStrobe _ _).next).ite hs.next

theorem Fused.frameCounts (h : Head) : Fused P (s.frameCounts h) :=
  ((((Fused.foldl hs (fun _ _ h1 => h1.wr _ _)).fset _ _ _ _).fset _ _ _ _).fset _ _ _ _).modHead _ _

theorem Fused.tapLate (h : Head) : Fused P (s.tapLate h) := hs.ite (((hs.inc _ _ _).modHead _ _).ite (((hs.inc _ _ _).modHead _ _).raise _))

theorem Fused.tapped (h : Head) (k q : Nat) : Fused P (s.tapped h k q).2 := by
  unfold State.tapped
  dsimp only
  split
  · exact hs
  · split
    · exact hs.sigFlag _ _
    · split
      · exact (hs.modHead _ _).tapLate _
      · exact hs.modHead _ _
      · split
        · exact (hs.modHead _ _).tapLate _
        · exact hs.modHead _ _

theorem Fused.lineMismatch (h : Head) : Fused P (s.lineMismatch h) := ((hs.inc _ _ _).raise _).modHead _ _

theorem Fused.sendQuad (h : Head) : Fused P (s.sendQuad h) :=
  hs.ite (((((hs.tapped _ _ _).modHead _ _).ite (((hs.tapped _ _ _).modHead _ _).sigFlag _ _)).when (fun h1 => h1.sigFlag _ _)).when
    (fun h1 => h1.lineMismatch _))

theorem Fused.leaveLine (h : Head) : Fused P (s.leaveLine h) := (hs.lateRender _).modHead _ _

theorem Fused.enterLine (h : Head) (k : Nat) : Fused P (s.enterLine h k) := by
  unfold State.enterLine
  dsimp only
  split
  · exact ((hs.drawn _).mirrorCheck _).modHead _ _
  · split
    · exact ((((hs.drawn _).mirrorCheck _).modHead _ _).deadline _ _).compose _ _
    · exact (((hs.drawn _).mirrorCheck _).modHead _ _).deadline _ _

theorem Fused.advance (h : Head) : Fused P (s.advance h) := by
  unfold State.advance
  extract_lets r k q s1 k' s2
  have sent : Fused P s1 := (hs.sendQuad _).modHead _ _
  have turned : Fused P s2 := ((sent.leaveLine _).setPos _ _ _).enterLine _ _
  exact ((sent.setPos _ _ _).markBeam _).ite (turned.ite (turned.markBeam _))

theorem Fused.advanceAll (h : Head) : Fused P (s.advanceAll h) := Fused.foldl hs (fun _ _ h1 => (h1.advance _).ite h1)
theorem Fused.snapFollow (h : Head) : Fused P (s.snapFollow h) := Fused.foldl hs (fun _ _ h1 => (h1.snapRestart _).ite h1)

/-! ### Machine/Bus -/

theorem Fused.answer (v : Word) : Fused P (s.answer v) := hs.congr
theorem Fused.regRead (a : Nat) (peek : Bool) : Fused P (s.regRead a peek) := (hs.answer _).ite ((hs.wr _ _).answer _)

theorem Fused.epochRead (r : Requester) (h : Nat) (high peek : Bool) : Fused P (s.epochRead r h high peek) :=
  (hs.answer _).ite ((hs.answer _).ite ((hs.answer _).setShadow _ _ _))

theorem Fused.memRead (r : Requester) (a region idx : Nat) (e : MemErr) : Fused P (s.memRead r a region idx e) :=
  ((hs.readCheck _ _ _).accessFault _ _).ite ((hs.readCheck _ _ _).answer _)

theorem Fused.locRead (r : Requester) (a : Nat) (peek : Bool) (e : MemErr) : Fused P (s.locRead r a peek e) := by
  unfold State.locRead
  dsimp only
  split
  · exact hs.epochRead _ _ _ _
  · exact hs.epochRead _ _ _ _
  · exact hs.answer _
  · exact hs.answer _
  · exact (hs.answer _).ite ((hs.tcntTake _ _).answer _)
  · exact (hs.answer _).ite ((hs.tcapTake _).answer _)
  · exact hs.answer _
  · exact hs.answer _
  · exact hs.answer _
  · exact hs.answer _
  · exact (hs.answer _).ite ((hs.ftimelTake _).answer _)
  · exact hs.answer _
  · exact ((hs.lmRead _).accessFault _ _).ite ((hs.lmRead _).answer _)
  · exact hs.answer _
  · exact (hs.answer _).ite ((hs.answer _).stWr _ _)
  · exact hs.busAccess _ _ _
  · split
    · exact hs.memRead _ _ _ _ _
    · exact hs.regRead _ _

theorem Fused.busRead (r : Requester) (a0 : Nat) (peek : Bool) (e : MemErr) : Fused P (s.busRead r a0 peek e) :=
  (hs.answer _).ite ((hs.locRead _ _ _ _).ite (hs.accessFault _ _))

theorem Fused.hctlPut (r : Requester) (h : Head) (v : Word) : Fused P (s.hctlPut r h v) :=
  ((((hs.fset _ _ _ _).bset _ _ _).leadTrack _).ite ((((hs.fset _ _ _ _).bset _ _ _).leadTrack _).headStop _ _)).ite
    (((hs.put _ _).leadTrack _).when (fun h1 => h1.headStart _ _))

theorem Fused.headRegPut (r : Requester) (h : Head) (off : Nat) (v : Word) : Fused P (s.headRegPut r h off v) := by
  unfold State.headRegPut
  dsimp only
  split
  · exact hs.hctlPut _ _ _
  · split
    · exact hs.ite (hs.put _ _)
    · split
      · exact hs.slotPut _ _ _
      · split
        · exact hs.layctlPut _ _
        · exact hs.compctlPut _ _
        · exact hs.tapctlPut _ _
        · exact hs.outctlPut _ _
        · exact hs.dpctlPut _ _
        · exact hs.lvdsctlPut _ _
        · exact hs.put _ _

theorem Fused.coreRegPut (r : Requester) (k : Core) (off : Nat) (v : Word) : Fused P (s.coreRegPut r k off v) := by
  unfold State.coreRegPut
  split
  · split
    · split
      · exact hs.wdkeyPut _ _
      · exact hs.wdcfgPut _ _
      · exact hs.put _ _
    · exact hs
  · exact hs

theorem Fused.peerrstPut (r : Requester) (v : Word) : Fused P (s.peerrstPut r v) := by
  unfold State.peerrstPut
  split
  · exact (hs.coreReset _).ite hs
  · exact hs

theorem Fused.bpPut (k i : Nat) (v : Word) : Fused P (s.bpPut k i v) := (hs.put _ _).ite (hs.ite (hs.put _ _))
theorem Fused.stimPut (r : Requester) (n : Nat) (v : Word) : Fused P (s.stimPut r n v) := (hs.tracePut _ _ _ _).ite hs
theorem Fused.vtoutcPut (v : Word) : Fused P (s.vtoutcPut v) := (hs.stWr _ _).ite (hs.congr)
theorem Fused.mbbufPut (r : Requester) (m : Mbox) (w : Nat) (v : Word) : Fused P (s.mbbufPut r m w v) := (hs.mbufPut _ _ _).ite (hs.accessFault _ _)
theorem Fused.logClear (r : Nat) : Fused P (s.logClear r) := Fused.foldl (hs.fset _ _ _ _) (fun _ _ h1 => h1.wr _ _)

theorem Fused.regionPut (r off : Nat) (v : Word) : Fused P (s.regionPut r off v) := by
  unfold State.regionPut
  split
  · exact (hs.logClear _).ite hs
  · exact (hs.remapWord _ _).ite hs
  · exact hs.put _ _

theorem Fused.bankRegPut (r : Requester) (b : Bank) (off : Nat) (v : Word) : Fused P (s.bankRegPut r b off v) := by
  unfold State.bankRegPut
  split
  · exact hs.bankcfgPut _ _
  · exact hs.outDirect _ _ _ _
  · exact hs.outDirect _ _ _ _
  · exact hs.outDirect _ _ _ _
  · exact hs.outDirect _ _ _ _
  · exact hs.iflagPut _ _ _
  · exact hs.contPut _ _
  · exact (hs.probeGo _ _).ite hs
  · exact (hs.pincfgPut _ _ _ _).ite (hs.put _ _)

theorem Fused.gmodePut (v : Word) : Fused P (s.gmodePut v) := hs.congr
theorem Fused.memPut (a region idx : Nat) (v : Word) : Fused P (s.memPut a region idx v) := (hs.put _ _).writeFlip _ _

theorem Fused.locWrite (r : Requester) (a : Nat) (v : Word) : Fused P (s.locWrite r a v) := by
  unfold State.locWrite
  split
  · exact hs.headRegPut _ _ _ _
  · exact hs.postPortPut _ _ _
  · exact hs.bankRegPut _ _ _ _
  · exact hs.timerRegPut _ _ _ _
  · exact hs.tgoPut _ _
  · exact hs.dramRegPut _ _
  · exact hs.pctlPut _ _
  · exact hs.gmodePut _
  · exact hs.glReset.ite hs
  · exact hs.glWrite _ _
  · exact hs.icpctlPut _
  · exact hs.imagePut _ _ _
  · exact hs.bpPut _ _ _
  · exact hs.stimPut _ _ _
  · exact hs.vtoutcPut _
  · exact hs.coreRegPut _ _ _ _
  · exact hs.peerrstPut _ _
  · split
    · exact hs.mbctlPut _ _ _
    · exact hs
  · exact hs.lkctlPut _ _
  · exact hs.foldPut _ _
  · exact hs.ccmdPut _ _
  · exact hs.larkRegPut _ _ _
  · exact hs.regionPut _ _ _
  · exact hs.busAccess _ _ _
  · split
    · exact hs.memPut _ _ _ _
    · exact hs.put _ _

theorem Fused.busWrite (r : Requester) (a0 : Nat) (v : Word) : Fused P (s.busWrite r a0 v) := by
  unfold State.busWrite
  dsimp only
  split
  · exact (hs.congr.mbbufPut _ _ _ _).ite (hs.accessFault _ _)
  · split
    · exact hs.congr.when (fun h1 => h1.locWrite _ _ _)
    · exact (hs.congr.locWrite _ _ _).ite (hs.accessFault _ _)
  · exact hs.congr.ite (Fused.ite (hs.congr.directly _ _ _ (fun _ _ _ h1 => h1.locWrite _ _ _)) (hs.accessFault _ _))

/-! ### Machine/Actions -/

theorem Fused.takeDue (h : Head) (e : QEntry) : Fused P (s.takeDue h e) := (hs.dropEntry _ _).ite (hs.modHead _ _)

theorem Fused.issue (h : Head) (k : Nat) {f : State → QEntry → State} (hf : ∀ t e, Fused P t → Fused P (f t e)) : Fused P
    (s.issue h k f) := by
  unfold State.issue
  split
  · exact hs
  · next e _ =>
    have checked := hs.entryCheck h e.idx
    exact hs.ite (((checked.dropEntry _ _).raiseCause _ _ _).ite ((((checked.dropEntry _ _).inc _ _ _).raiseCause _ _ _).ite (hf _ _ (checked.takeDue _ _))))

theorem Fused.execSwap (h : Head) : NextFused P (execSwap h s) :=
  (hs.issue _ _ (fun _ _ h1 => ((((((h1.swapUndo _).swapReject _).forgetCyc _).ite h1).swapReject _).ite
    (((((h1.swapUndo _).swapReject _).forgetCyc _).ite h1).swapAction _ _ _ _)).cycNote _)).next

/-! ### Machine/Serve -/

theorem Fused.command (m : Mbox) (c : Nat) (sel : Word → Bool) {f : List Word → State → Served}
    (hf : ∀ a t, Fused P t → ServedFused P (f a t)) :
    Fused P (s.command m c sel f) :=
  hs.serve _ _ _ _ _ hf

theorem Fused.enterDev (d : DevState) (reason : BitVec 8) : Fused P (s.enterDev d reason) := ((hs.toDev _ _).ledgerSave).when (fun h1 => h1.bset _ _ _)

theorem Fused.execSetstate (m : Mbox) : NextFused P (execSetstate m s) := by
  refine (hs.command m 0x04 anyReq fun a t h => ?_).next
  split
  · exact (h.enterDev _ _).done _ _
  · exact h.done _ _

theorem Fused.execHeadcfg (m : Mbox) : NextFused P (execHeadcfg m s) :=
  (hs.command _ _ _ (fun _ _ h1 => (h1.done _ _).ite (((Fused.foldl h1 (fun _ _ h2 => h2.headRegPut _ _ _ _)).hctlPut _ _ _).done _ _))).next

theorem Fused.execHeadrun (m : Mbox) : NextFused P (execHeadrun m s) := by
  refine (hs.command _ _ _ fun a t ht => ?_).next
  extract_lets h run was r t1 t2 t3
  have epoched : Fused P t1 := (ht.headRegPut _ _ _ _).headRegPut _ _ _ _
  have moved : Fused P t2 := (epoched.headStart _ _).ite (epoched.when fun h => h.headStop _ _)
  exact (ht.done _ _).ite ((moved.modHead _ _).done _ _)

theorem Fused.execCreg (m : Mbox) : NextFused P (execCreg m s) := by
  refine (hs.command m 0x12 anyReq fun a t h => ?_).next
  dsimp only
  split
  · exact (h.done _ _).ite (h.done _ _)
  · exact (h.done _ _).ite ((h.done _ _).ite (((h.busWrite _ _ _).busRead _ _ _ _).done _ _))

theorem Fused.execDptrain (m : Mbox) (o : TrainOutcome) : NextFused P (execDptrain m o s) :=
  (hs.command _ _ _ (fun _ _ h1 => (h1.done _ _).ite
    (((((((h1.bset _ _ _).linkTrack _).fset _ _ _ _).put _ _).bset _ _ _).linkTrack _).done _ _))).next

omit hs in
theorem Fused.wreadGo (m : Mbox) (base : Nat) : ∀ (n : Nat) {s : State} (_ : Fused P s) (done : List Word), ServedFused P
    (s.wreadGo m base n done)
  | 0, _, hs, _ => hs.done _ _
  | n + 1, s, hs, done => by
    unfold State.wreadGo
    dsimp only
    split
    · exact (((hs.busAccess _ _ _).ite hs).modMbox _ _).held
    · exact ((hs.busRead _ _ _ _).done _ _).ite (Fused.wreadGo m base n (hs.busRead _ _ _ _) _)

omit hs in
theorem Fused.wwriteGo (m : Mbox) (base : Nat) : ∀ (l : List Word) {s : State} (_ : Fused P s) (done : List Word), ServedFused P
    (s.wwriteGo m base l done)
  | [], _, hs, _ => hs.done _ _
  | v :: l, s, hs, done => by
    unfold State.wwriteGo
    dsimp only
    split
    · exact (((hs.busAccess _ _ _).ite hs).modMbox _ _).held
    · exact ((hs.busWrite _ _ _).done _ _).ite (Fused.wwriteGo m base l (hs.busWrite _ _ _) _)

theorem Fused.windowDone (m : Mbox) (done : List Word) (fault : Bool) : Fused P (s.windowDone m done fault) := by
  unfold State.windowDone
  extract_lets a base r
  have served : ServedFused P r := (hs.done _ _).ite ((Fused.wreadGo m _ _ hs _).ite (Fused.wwriteGo m _ _ hs _))
  clear_value r
  cases r with
  | done t c ws => exact (Fused.dropShadows served).mbFinish _ _ _
  | held t => exact served

theorem Fused.windowTurn (m : Mbox) (done : List Word) : Fused P (s.windowTurn m done) := by
  unfold State.windowTurn
  extract_lets a base r
  have served : ServedFused P r := (Fused.wreadGo m _ _ hs _).ite (Fused.wwriteGo m _ _ hs _)
  clear_value r
  cases r with
  | done t c ws => exact (Fused.dropShadows served).mbFinish _ _ _
  | held t => exact served

theorem Fused.debugTurn (p : Pad) : Fused P (s.debugTurn p) := by
  unfold State.debugTurn
  split
  · exact (hs.congr.busAccess _ _ _).ite hs
  · exact hs

theorem Fused.windowNext (p : Pad) (e : Option BusEnd) : Fused P (s.windowNext p e) := by
  have turned : ∀ t : State, Fused P t → Fused P (if t.pads[p].wb.isSome then t
      else match (t.windowWaits p).find? fun w => !w.2.2 with
        | some (m, done, _) => t.windowTurn m done
        | none => t.debugTurn p) := fun t ht => by
    refine ht.ite ?_
    split
    · exact ht.windowTurn _ _
    · exact ht.debugTurn _
  unfold State.windowNext
  split
  · exact hs
  · refine turned _ (hs.ite ?_)
    split
    · exact hs.windowDone _ _ _
    · exact hs

theorem Fused.portTake (k : Core) (h : Nat) (ws : List Word) (status : Word) : Fused P (s.portTake k h ws status) := hs.congr

theorem Fused.qpostCmd (r : Requester) (k : Core) (a : List Word) : ServedFused P (s.qpostCmd r k a) :=
  (hs.done _ _).ite (((hs.post _ _ _ _ _ _).portTake _ _ _ _).done _ _)

theorem Fused.qcancelCmd (r : Requester) (k : Core) (a : List Word) : ServedFused P (s.qcancelCmd r k a) :=
  (hs.done _ _).ite (((hs.cancel _ _ _).portTake _ _ _ _).done _ _)

theorem Fused.ungrant (x : Grant) : Fused P (s.ungrant x) := hs.congr.when (fun h1 => h1.pinGive _ _ _ _)
theorem Fused.grant (x : Grant) : Fused P (s.grant x) := hs.congr.when (fun h1 => h1.pinGive _ _ _ _)

theorem Fused.grantCmd (on : Bool) (x : Grant) : ServedFused P (s.grantCmd on x) :=
  (hs.done _ _).ite ((hs.done _ _).ite ((hs.done _ _).ite ((hs.done _ _).ite ((hs.done _ _).ite (((hs.grant _).ite (hs.ungrant _)).done _ _)))))

/-! ### Machine/Streams -/

theorem Fused.stagePart (q : DramUser) (x : Stream) (k0 : List Byte) (p : StagePart) (u : Nat) (e : Fin 64) : Fused P
    (s.stagePart q x k0 p u e) :=
  ((((Fused.foldl ((((hs.queueWrite _ _ _).queueWrite _ _ _).queueWrite _ _ _).congr)
    (fun _ _ h1 => h1.glWrite _ _)).wr _ _).wr _ _).wr _ _).wr _ _

omit hs in
theorem Fused.stageParts (q : DramUser) (x : Stream) (k0 : List Byte) : ∀ (ps : List StagePart) {s : State} (_ : Fused P s)
    (es : List Nat) (u : Nat),
    Fused P (s.stageParts q x k0 ps es u)
  | p :: ps, _, hs, e :: es, u => Fused.stageParts q x k0 ps (hs.stagePart q x k0 p u (Fin.ofNat 64 e)) es (u + p.units)
  | [], _, hs, _, _ => by unfold State.stageParts; exact hs
  | _ :: _, _, hs, [], _ => hs

theorem Fused.stageBase (units : Nat) : Fused P (s.stageBase units).2 := hs.congr

theorem Fused.stageGo (q : DramUser) (x : Stream) (g : Nat → Nat → List Byte) (k0 : List Byte) (map : List Word) :
    Fused P (s.stageGo q x g k0 map).1 := by
  have based := hs.stageBase ((x.parts g map).map StagePart.units).sum
  exact based.stageParts q x k0 _ _ _

theorem Fused.caeRead (w : Word) (n : Nat) : Fused P (s.caeRead w n) := (hs.countOor _).congr

theorem Fused.execStage (m : Mbox) : NextFused P (execStage m s) := by
  unfold Machine.execStage
  apply Fused.next
  apply hs.command
  intro a t0 h
  extract_lets t g x bytes map room
  have read : Fused P t := (h.caeRead _ _).caeRead _ _
  clear_value t g x bytes map room
  refine (read.done _ _).ite ((read.done _ _).ite ((read.done _ _).ite ?_))
  split
  · exact read.done _ _
  · refine ServedFused.ite (read.done _ _) ?_
    exact (read.stageGo _ _ _ _ _).done _ _

theorem Fused.heldLoad (m : Mbox) : Fused P (s.heldLoad m) := hs.congr

theorem Fused.execPload (m : Mbox) : NextFused P (execPload m s) :=
  (hs.command _ _ _ (fun _ _ h1 => (h1.done _ _).ite ((h1.done _ _).ite (((h1.swapStart _ _ _ _).heldLoad _).held)))).next

theorem Fused.execGleanreqRewrite (m : Mbox) : NextFused P (execGleanreqRewrite m s) :=
  (hs.command _ _ _ (fun _ _ h1 => (h1.done _ _).ite ((h1.done _ _).ite (((h1.icpAdd _).heldLoad _).held)))).next

theorem Fused.execGleanreqReload (m : Mbox) : NextFused P (execGleanreqReload m s) :=
  (hs.command _ _ _ (fun _ _ h1 => (h1.done _ _).ite (((h1.done _ _).ite (((h1.swapStart _ _ _ _).heldLoad _).held)).ite
    ((h1.post _ _ _ _ _ _).done _ _)))).next

theorem Fused.icpDone (j : IcpJob) : Fused P (s.icpDone j) := by
  unfold State.icpDone
  dsimp only
  split
  · exact hs
  · exact (hs.mbFinish _ _ _).ite hs

theorem Fused.execIcpOperationComplete : NextFused P (execIcpOperationComplete s) := by
  have ended := hs.icpEnd
  unfold Machine.execIcpOperationComplete
  dsimp only
  split
  · exact (ended.icpDone _).glResume.relayStep.next
  · exact ended.next

theorem Fused.execBind (m : Mbox) : NextFused P (execBind m s) := by
  unfold Machine.execBind
  apply Fused.next
  apply hs.command
  intro a t0 h
  extract_lets g x t
  have read : Fused P t := h.caeRead _ _
  clear_value t g x
  refine (read.done _ _).ite ((read.done _ _).ite ?_)
  split
  · exact read.done _ _
  · refine ServedFused.ite (read.done _ _) ?_
    exact (read.queueWrite _ _ _).done _ _

theorem Fused.execArbraise (m : Mbox) (raised : ∀ f n, P f → P (f.raiseArb n)) : NextFused P (execArbraise m s) := by
  refine (hs.command m 0x45 anyReq fun a t h => ?_).next
  split
  · exact ⟨h.kept, raised _ _ h.holds⟩
  · exact h.done _ _

theorem Fused.execFamkey (m : Mbox) : NextFused P (execFamkey m s) :=
  (hs.command _ _ _ fun _ _ h => (h.done _ _).ite ((h.done _ _).ite (Fused.done ⟨h.kept, h.kept.family _ _ _ _ h.holds⟩ _ _))).next

theorem Fused.execRevoke (m : Mbox) : NextFused P (execRevoke m s) := by
  refine (hs.command m 0x47 anyReq fun a t h => ?_).next
  dsimp only
  split
  · exact (h.done _ _).ite ((h.done _ _).ite ⟨h.kept, h.kept.revoked _ _ h.holds⟩)
  · exact h.done _ _

/-! ### Machine/Integrity -/

theorem Fused.execPageRebuild (r : Region) (a : BitVec 22) : NextFused P (execPageRebuild r a s) := by
  unfold Machine.execPageRebuild
  split
  · exact ((hs.readCheck _ _ _).next).ite hs.next
  · exact hs.next

theorem Fused.loadRecords : Fused P s.loadRecords := hs.ite (hs.congr.ite (hs.raise _))
theorem Fused.rmStat (r : Nat) : Fused P (s.rmStat r) := hs.congr
theorem Fused.loadRemaps : Fused P s.loadRemaps := Fused.foldl hs.congr (fun _ _ h1 => h1.rmStat _)
theorem Fused.markFailedEngines : Fused P s.markFailedEngines := Fused.foldl hs (fun _ _ h1 => h1.bset _ _ _)
theorem Fused.rehome (h n : Nat) : Fused P (s.rehome h n) := hs.ite (hs.draw.fset _ _ _ _)
theorem Fused.rehomeAll : Fused P s.rehomeAll := Fused.foldl hs (fun _ _ h1 => Fused.foldl h1 (fun _ _ h2 => h2.rehome _ _))
theorem Fused.bistFail (e : Nat) : Fused P (s.bistFail e) := (hs.markFailed _).inc _ _ _
theorem Fused.checkerBad (r : Nat) : Fused P (s.checkerBad r) := (hs.bistFail _).ite (hs.raise _)
theorem Fused.regionClear (r : Nat) : Fused P (s.regionClear r) := hs.congr

theorem Fused.execCheckerTest (bad : List Region) : NextFused P (execCheckerTest bad s) :=
  hs.next.ite (((((Fused.foldl (Fused.foldl hs (fun _ _ h1 => h1.checkerBad _))
    (fun _ _ h1 => h1.regionClear _)).markFailedEngines).rehomeAll).congr).next)

theorem Fused.execRotation : NextFused P (execRotation s) := by
  unfold Machine.execRotation
  split
  · exact hs.next
  · split
    · exact (hs.congr).next
    · exact hs.next

theorem Fused.rotGo (step : Nat) (retry : Bool) : Fused P (s.rotGo step retry) := hs.congr

theorem Fused.execSelfTestComplete (pass : Bool) : NextFused P (execSelfTestComplete pass s) := by
  unfold Machine.execSelfTestComplete
  split
  · exact hs.next
  · exact (((hs.bistFail _).rotGo _ _).next).ite (((hs.rotGo _ _).next).ite ((((hs.markFailed _).rotGo _ _).next).ite ((hs.rotGo _ _).next)))

/-! ### Machine/Ledger -/

theorem Fused.msCounted : Fused P s.msCounted := (hs.ledgerInc48 _).when (fun h1 => h1.ledgerInc _)

theorem Fused.msUnavailable (cause : BitVec 6) : Fused P (s.msUnavailable cause) :=
  Fused.foldl ((hs.ledgerInc48 _).ledgerInc _) (fun _ _ h1 => (h1.ledgerInc _).ite h1)

theorem Fused.msLost : Fused P s.msLost := hs.msCounted.msUnavailable _
theorem Fused.msDecide (m : MsRec) : Fused P (s.msDecide m) := (hs.ledgerInc48 _).ite ((hs.msCounted.when (fun h1 => h1.msUnavailable _)).ite hs)

theorem Fused.msTally : Fused P s.msTally := by
  unfold State.msTally
  extract_lets u l t
  have decided : Fused P t := Fused.foldl (Fused.foldl hs fun _ _ h => h.recordsLate _) fun _ _ h => h.msDecide _
  clear_value t
  exact decided.congr

theorem Fused.secondTick : Fused P s.secondTick := hs.congr.when (fun h1 => ((h1.setLedger _ _).setLedger _ _).setLedger _ _)

theorem Fused.execLedgerTick : NextFused P (execLedgerTick s) := by
  unfold Machine.execLedgerTick
  refine hs.next.ite ?_
  extract_lets n _ _ s1 s2
  have counted : Fused P s1 := hs.congr
  have ticked : Fused P s2 := counted.when fun h => h.secondTick
  clear_value s2
  exact ticked.next.ite (ticked.msLost.next.ite (Fused.next (Fused.msTally ticked.congr)))

theorem Fused.ledgerLoad : Fused P s.ledgerLoad := by
  unfold State.ledgerLoad
  extract_lets l _ t cause t1 t2 t3
  have loaded : Fused P t := hs.congr
  have set : Fused P t2 := (loaded.when fun h => h.ledgerInc _).setLedger _ _
  have lost : Fused P t3 := set.when fun h => Fused.foldl h fun _ _ h => h.msLost
  clear_value t3
  exact lost.congr

/-! ### Machine/Images -/

theorem Fused.flashErase (a n : Nat) : Fused P (s.flashErase a n) := hs.congr
theorem Fused.flashPut (a : Nat) (d : List Byte) : Fused P (s.flashPut a d) := hs.congr

theorem Fused.execFlashwrite (m : Mbox) (ok : Bool) : NextFused P (execFlashwrite m ok s) := by
  refine (hs.command _ _ _ fun a t ht => ?_).next
  extract_lets target n off u
  have written : Fused P u := ht.ite (((ht.caeRead _ _).flashErase _ _).flashPut _ _)
  exact (ht.done _ _).ite (((written.dirWrite _ _).done _ _).ite (written.done _ _))

theorem Fused.execFlashblk (m : Mbox) : NextFused P (execFlashblk m s) :=
  (hs.command _ _ _ (fun _ _ h1 => (h1.done _ _).ite ((((h1.flashErase _ _).ite h1).flashPut _ _).done _ _))).next

theorem Fused.execFlashdir (m : Mbox) : NextFused P (execFlashdir m s) :=
  (hs.command _ _ _ (fun _ _ h1 => (((h1.dirWrite _ _).done _ _).ite (h1.done _ _)).ite (((h1.dirWrite _ _).done _ _).ite (h1.done _ _)))).next

theorem Fused.caerunoRuns (version abi : Word) : Fused P (s.caerunoRuns version abi) := (((((hs.coreUp _).coreUp _).loadRecords).loadRemaps).ledgerLoad).congr

theorem Fused.execFwput (m : Mbox) : NextFused P (execFwput m s) :=
  (hs.command _ _ _ (fun _ _ h1 => (h1.done _ _).ite ((Fused.foldl h1 (fun _ _ h2 => (h2.wr _ _).writeFlip _ _)).done _ _))).next

theorem Fused.execFwstage (m : Mbox) (ok : Bool) : NextFused P (execFwstage m ok s) :=
  (hs.command _ _ _ (fun _ _ h1 => ((h1.caeRead _ _).done _ _).ite (((h1.caeRead _ _).done _ _).ite (((h1.caeRead _ _).congr).done _ _)))).next

theorem Fused.execCoreRejoin (k : Core) : NextFused P (execCoreRejoin k s) := by
  have up := fun k => (hs.coreUp k).modCore k
  refine hs.next.ite (NextFused.ite ?_ (NextFused.ite ?_ ?_))
  · exact ((up _ _).relayMove _ _ _).next.ite hs.next
  · exact ((up _ _).runStaged.relayEnd _ _).next.ite hs.next
  · exact (up _ _).next.ite hs.next

theorem Fused.placeBody (pages : List Nat) (body : List Word) : Fused P (s.placeBody pages body) := Fused.foldl hs (fun _ _ h1 => (h1.wr _ _).writeFlip _ _)

theorem Fused.coreFor : Fused P s.coreFor.2 := by
  unfold State.coreFor
  split
  · exact hs.draw
  · exact hs

theorem Fused.execAppload (m : Mbox) : NextFused P (execAppload m s) := by
  refine (hs.command _ _ _ fun a t0 h => ?_).next
  have read := fun n => h.caeRead (argAt a 1) n
  have placed := fun n pages body => ((read n).placeBody pages body).coreFor
  exact ((read _).done _ _).ite (((read _).done _ _).ite (((read _).done _ _).ite (((read _).done _ _).ite (((placed _ _ _).modCtx _ _).done _ _))))

theorem Fused.appctl (m : Mbox) (op : Nat) {f : Ctx → State → Served} (hf : ∀ c t, Fused P t → ServedFused P (f c t)) : Fused P
    (s.appctl m op f) :=
  hs.command _ _ _ fun _ _ h => (h.done _ _).ite (hf _ _ h)

theorem Fused.ctxRun (c : Ctx) (again : Bool) : Fused P (s.ctxRun c again) := hs.congr
theorem Fused.ctxClear (c : Ctx) : Fused P (s.ctxClear c) := Fused.foldl (Fused.foldl hs fun _ _ h => h.ungrant _) fun _ _ h => h.congr

theorem Fused.trapServe (k : Core) (c : Ctx) (cmd : Nat) (a : List Word) : ServedFused P (s.trapServe k c cmd a) := by
  unfold State.trapServe
  split
  · exact hs.done _ _
  · split
    · exact hs.done _ _
    · split
      · exact hs.done _ _
      · exact hs.done _ _
      · exact hs.qpostCmd _ _ _
      · exact hs.qcancelCmd _ _ _
      · exact hs.done _ _
      · exact (hs.done _ _).ite ((hs.done _ _).ite (hs.done _ _))
      · exact hs.done _ _

theorem Fused.execServiceTrap (k : Core) (c : Ctx) (msg : List Word) : NextFused P (execServiceTrap k c msg s) := by
  refine NextFused.ite hs.next ?_
  have served : ServedFused P (if nth 0 msg 2 ≠ 0 ∧ nth 0 msg 2 ≠ s.unit then Served.done s (if s.foldSet then 3 else 2) []
      else s.trapServe k c (fld (nth 0 msg 0) 23 16) ((List.range (fld (nth 0 msg 0) 13 8)).map fun i => nth 0 msg (3 + i))) :=
    (hs.done _ _).ite (hs.trapServe _ _ _ _)
  dsimp only
  split
  · next e => rw [e] at served; exact (Fused.modCtx served _ _).next
  · next e => rw [e] at served; exact Fused.next served

/-! ### Machine/Power -/

theorem Fused.bankKeep (u : State) (held : Bool) : Fused P (u.bankKeep held s) :=
  Fused.foldl hs (fun _ _ h1 => ((h1.bset _ _ _).fset _ _ _ _).when (fun h2 => (h2.bset _ _ _).modBank _ _))

theorem Fused.resetDevice (k : Scope) : Fused P (s.resetDevice k) := hs.congr.bankKeep _ _
theorem Fused.noteCause (live : Bool) (cause : Nat) : Fused P (s.noteCause live cause) := hs.congr

theorem Fused.execPorN (straps : BitVec 4) : NextFused P (execPorN straps s) := by
  unfold Machine.execPorN
  extract_lets t
  have reset : Fused P t := hs.resetDevice _
  clear_value t
  exact reset.congr.next

theorem Fused.wakeRest (src : Word) : Fused P (s.wakeRest src) := ((((Fused.foldl hs (fun _ _ h1 => h1.clkenPut _ _)).bset _ _ _).hwWr _ _).setPower _).lowresTrack
theorem Fused.powAccept (p : PowState) : Fused P (s.powAccept p) := hs.congr.ite hs.congr.powTrack
theorem Fused.powRequest (p : PowState) : Fused P (s.powRequest p) := ((((hs.wakeRest _).ite hs).hwWr _ _).raise _).ite (((hs.wakeRest _).ite hs).powAccept _)

theorem Fused.execRestEntry : NextFused P (execRestEntry s) :=
  NextFused.ite (((((Fused.foldl hs.congr (fun _ _ h1 => h1.clkenPut _ _)).bset _ _ _).setPower _).lowresTrack).next) hs.next

theorem Fused.padsHold : Fused P s.padsHold := Fused.foldl hs (fun _ _ h1 => h1.ite ((h1.bset _ _ _).modBank _ _))
theorem Fused.keepOff (cause : Nat) : Fused P (s.keepOff cause) := (hs.padsHold.resetDevice _).congr.lowresTrack

theorem Fused.execKeepEntry : NextFused P (execKeepEntry s) :=
  (((((hs.ledgerSave.padsHold.setPower _).congr).lowresTrack).next).ite ((hs.ledgerSave.keepOff _).next)).ite hs.next

theorem Fused.execWake (w : WakeSrc) : NextFused P (execWake w s) := by
  unfold Machine.execWake
  split
  · split
    · exact (hs.wakeRest _).next
    · exact hs.next
  · split
    · exact hs.next.ite (((((hs.resetDevice _).noteCause _ _).hwWr _ _).next).ite ((((hs.congr.hwWr _ _).hwWr _ _).lowresTrack).next))
    · exact hs.next
  · exact hs.next

theorem Fused.thermPut (v : Word) : Fused P (s.thermPut v) := (hs.hwWr _ _).ite (hs.congr)
theorem Fused.lockOpen : Fused P s.lockOpen := Fused.foldl hs (fun _ _ h1 => Fused.foldl (h1.fset _ _ _ _) (fun _ _ h2 => h2.fset _ _ _ _))

theorem Fused.execCaerunoBoot (okA okB : Bool) : NextFused P (execCaerunoBoot okA okB s) := by
  unfold Machine.execCaerunoBoot
  dsimp only
  split
  · exact hs.next
  · split
    · exact (hs.caerunoRuns _ _).next
    · exact (hs.toDev _ _).next

theorem Fused.goOn {o : Host.Outcome State Fault Refusal} (ho : NextFused P o) : Fused P (goOn s o) := by
  cases o with
  | next t => exact ho t rfl
  | fault r => exact hs
  | refused r => exact hs

theorem Fused.loadStep : Fused P s.loadStep := by
  unfold State.loadStep
  split
  · exact hs
  · split
    · exact hs.loadClear _ (fun _ h1 => h1.loadRead _)
    · split
      · exact hs.icpEnd
      · split
        · exact hs.loadRuns _
        · split
          · exact hs.icpEnd
          · split
            · exact hs.goOn hs.execPad
            · exact hs.goOn hs.execFrames
            · exact hs.goOn hs.execBmem
            · exact hs.goOn hs.execEndRecord
            · exact hs.icpEnd

omit hs in
theorem Fused.loadAll : ∀ (n : Nat) {s : State}, Fused P s → Fused P (s.loadAll n)
  | 0, _, hs => hs
  | n + 1, _, hs => hs.ite (Fused.loadAll n hs.loadStep)

theorem Fused.loadPad (p e : Nat) : Fused P (s.loadPad p e).1 := ((hs.swapStart _ _ _ _).swapFreeze _).loadAll _

omit hs in
theorem Fused.loadPads : ∀ (l : List (Nat × Nat)) {s : State}, Fused P s → Fused P (s.loadPads l).1
  | [], _, hs => hs
  | (p, e) :: l, _, hs => (Fused.loadPads l (hs.loadPad p e)).iteFst (hs.loadPad p e)

theorem Fused.unloadAll (es : List Nat) : Fused P (s.unloadAll es) :=
  Fused.foldl (Fused.foldl hs (fun _ _ h1 => (((h1.swapFreeze _).padClear _).bset _ _ _).modPad)) (fun _ _ h1 => h1.congr)

theorem Fused.tryImage (i : Nat) (x : Stream) : Fused P (s.tryImage i x).1 := by
  unfold State.tryImage
  split
  · exact hs
  next k0 _ =>
  extract_lets map room
  split
  · exact hs
  have staged := hs.stageGo (.core 0 0) x (s.imageBytes i) k0 map
  dsimp only
  have loaded := Fused.loadPads (x.pads.zip (s.stageGo (.core 0 0) x (s.imageBytes i) k0 map).2) staged
  split
  · exact loaded
  · exact loaded.unloadAll _

omit hs in
theorem Fused.tryImages : ∀ (l : List (Nat × Stream)) {s : State}, Fused P s → Fused P (s.tryImages l).1
  | [], _, hs => hs
  | (i, x) :: l, s, hs => by
    have tried := hs.tryImage i x
    unfold State.tryImages
    dsimp only
    split
    · exact tried
    · exact Fused.tryImages l tried

theorem Fused.execFabricLoad : NextFused P (execFabricLoad s) :=
  hs.next.ite (hs.congr.next.ite (((((hs.tryImages _).congr).enterDev _ _).ite (((hs.tryImages _).congr).enterDev _ _)).next))

theorem Fused.hostLost (m : Mbox) : Fused P (s.hostLost m) := hs.ite ((hs.mbFree _).ite (hs.modMbox _ _))

/-! ### Machine/HostWin -/

theorem Fused.badWrite : Fused P s.badWrite := (hs.hwWr _ _).raise _
theorem Fused.apFault : Fused P s.apFault := (hs.hwWr _ _).raise _
theorem Fused.hostTouch (off : Nat) : Fused P (s.hostTouch off) := (hs.ite (hs.wr _ _)).ite (hs.hwWr _ _)
theorem Fused.pendTrack (k : Nat) : Fused P (s.pendTrack k) := hs.congr

theorem Fused.hostPut (off : Nat) (v : Word) : Fused P (s.hostPut off v) :=
  (hs.mbctlPut _ _ _).ite ((hs.ite (hs.fset _ _ _ _)).ite
    ((hs.powRequest _).ite ((hs.thermPut _).ite ((hs.hwWr _ _).when (fun h1 => h1.pendTrack _)))))

theorem Fused.bar0Read (off size : Nat) : Fused P (s.bar0Read off size) := Fused.foldl hs.congr (fun _ _ h1 => (h1.hostTouch _).ite h1)
theorem Fused.msixPut (i : Nat) (v : BitVec 32) : Fused P (s.msixPut i v) := hs.congr

theorem Fused.bar0Write (off size : Nat) (v : BitVec 64) : Fused P (s.bar0Write off size v) :=
  ((hs.hostPut _ _).ite hs.badWrite).ite (((hs.msixPut _ _).ite (((hs.msixPut _ _).msixPut _ _).ite hs)).ite hs)

theorem Fused.msixCtlPut (v : BitVec 32) : Fused P (s.msixCtlPut v) := hs.congr
theorem Fused.wakeHostFor : Fused P s.wakeHostFor := (hs.wakeRest _).ite hs
theorem Fused.apAnswer (d : List Byte) (poison : Bool) : Fused P (s.apAnswer d poison) := hs.congr

omit hs in
theorem Fused.apRead : ∀ (l : List Nat) {s : State}, Fused P s → Fused P (s.apRead l).2.2
  | [], _, hs => hs
  | _ :: l, _, hs => Fused.apRead l (hs.busRead _ _ _ _)

theorem Fused.execApertureRead (off : BitVec 36) (len : Nat) : NextFused P (execApertureRead off len s) := by
  unfold Machine.execApertureRead
  dsimp only
  split
  · exact hs.next
  · split
    · exact (hs.wakeHostFor.directRead _ _ _).next
    · exact ((hs.larkLoad _ _).apAnswer _ _).next
    · exact ((hs.apRead _).apAnswer _ _).next
    · exact (hs.apFault.apAnswer _ _).next

theorem Fused.apWrite (a : Nat) (v : BitVec 32) : Fused P (s.apWrite a v) := hs.apFault.ite (hs.busWrite _ _ _)

theorem Fused.execApertureWrite (off : BitVec 36) (d : List Byte) : NextFused P (execApertureWrite off d s) := by
  unfold Machine.execApertureWrite
  dsimp only
  split
  · exact hs.next
  · split
    · exact (hs.wakeHostFor.queueWrite _ _ _).next
    · exact (hs.larkStore _ _).next
    · exact ((hs.apWrite _ _).next).ite hs.apFault.next
    · exact hs.apFault.next

/-! ### Machine/Stile -/

theorem Fused.selectIr (i : ScanIr) : Fused P (s.selectIr i) := hs.ite hs.congr
theorem Fused.preload (bits : List Bool) : Fused P (s.preload bits) := hs.congr
theorem Fused.pinsScanned : Fused P s.pinsScanned := Fused.foldl hs (fun _ _ h1 => (h1.drawWords _).modBank _ _)
theorem Fused.coreHalt (k : Core) : Fused P (s.coreHalt k) := hs.congr
theorem Fused.coreResume (k : Core) : Fused P (s.coreResume k) := ((hs.bset _ _ _).reload _).ite hs

theorem Fused.freeze (frz : Word) (pads : Nat) : Fused P (s.freeze frz pads) := by
  unfold State.freeze
  extract_lets s1 s2 s3
  have halted : Fused P s2 := (hs.when fun h => h.coreHalt 0).when fun h => h.coreHalt 1
  have timed : Fused P s3 := halted.when fun h => Fused.lowresTrack h.congr
  exact timed.congr

theorem Fused.resumeAll : Fused P s.resumeAll := by
  unfold State.resumeAll
  extract_lets s1 _ _ _ s2
  have resumed : Fused P s1 := (hs.coreResume 0).coreResume 1
  have cleared : Fused P s2 := resumed.congr
  exact (Fused.foldl cleared fun _ _ h => h.headRelease _).lowresTrack

theorem Fused.coreAbort (k : Core) : Fused P (s.coreAbort k) := hs.ite (Fused.foldl (hs.seqEnd _ _) (fun _ _ h1 => ((h1.mbFree _).raise _).ite h1))

theorem Fused.coreStep (k : Core) : Fused P (s.coreStep k) :=
  hs.ite ((hs.draw.modCore _ _).ite (((hs.draw.modCore _ _).watchdogFire _).ite ((hs.draw.modCore _ _).setLeft _ _)))

theorem Fused.haltPut (v : Word) : Fused P (s.haltPut v) := by
  unfold State.haltPut
  extract_lets s1 s2 s3 s4 s5 s6
  have h1 : Fused P s1 := hs.when fun h => h.coreHalt _
  have h2 : Fused P s2 := h1.when fun h => h.coreHalt _
  have h3 : Fused P s3 := h2.when fun h => h.coreAbort _
  have h4 : Fused P s4 := h3.when fun h => h.coreAbort _
  have h5 : Fused P s5 := h4.when fun h => h.coreStep _
  have h6 : Fused P s6 := h5.when fun h => h.coreStep _
  exact h6.when fun h => h.resumeAll

theorem Fused.ctxhaltPut (v : Word) : Fused P (s.ctxhaltPut v) := by
  unfold State.ctxhaltPut
  dsimp only
  split
  · exact hs
  · split
    · exact hs.modCtx _ _
    · exact hs.modCtx _ _
    · exact hs

theorem Fused.authPut (i : Nat) (d : List Byte) : Fused P (s.authPut i d) := hs.congr

theorem Fused.sessionEnd : Fused P s.sessionEnd := by
  unfold State.sessionEnd
  extract_lets s1 s2 s3 s4
  have disarmed : Fused P s2 := Fused.foldl hs.resumeAll fun _ _ h => Fused.foldl h fun _ _ h => h.fset _ _ _ _
  have closed : Fused P s4 := ((((disarmed.stWr _ _).stWr _ _).stWr _ _).stWr _ _).stWr _ _
  clear_value s4
  exact closed.congr

theorem Fused.chalPut (nonce : BitVec 384) : Fused P (s.chalPut nonce) := by
  unfold State.chalPut
  extract_lets t
  have put : Fused P t := hs.authPut _ _
  clear_value t
  exact put.congr

theorem Fused.verifyPut : Fused P s.verifyPut := hs.ite (hs.congr)

theorem Fused.verifyEnd : Fused P s.verifyEnd := by
  unfold State.verifyEnd
  extract_lets c _ t0 t lvl w _ u v
  have opened : Fused P t0 := hs.congr
  have coded : Fused P t := opened.stWr _ _
  have leveled : Fused P w := coded.stWr _ _
  have counted : Fused P v := coded.sessionEnd.stWr _ _
  clear_value t v
  exact leveled.congr.ite counted.congr

theorem Fused.bmNext : Fused P s.bmNext := hs.ite ((hs.stWr _ _).ite ((hs.stWr _ _).stWr _ _))
theorem Fused.bmFault : Fused P s.bmFault := hs.congr

theorem Fused.bmDataAccess (w : Option Word) : Fused P (s.bmDataAccess w).2 := by
  unfold State.bmDataAccess
  dsimp only
  split
  · split
    · exact hs.bmFault.bmNext
    · split
      · exact ((hs.stWr _ _).directRead _ _ _).bmNext
      · exact (hs.queueWrite _ _ _).bmNext
  · split
    · exact (hs.busRead _ _ _ _).bmNext
    · exact (hs.busWrite _ _ _).bmNext

theorem Fused.abufNext : Fused P s.abufNext := hs.congr
theorem Fused.abufPut (v : Word) : Fused P (s.abufPut v) := Fused.abufNext (hs.congr.ite hs)

theorem Fused.trPop : Fused P (s.trPop).2 := by
  unfold State.trPop
  split
  · exact hs.congr
  · exact hs

theorem Fused.vtinPut (v : Word) : Fused P (s.vtinPut v) := (hs.stWr _ _).ite (hs.congr)
theorem Fused.vtoutTake : Fused P (s.vtoutTake).2 := hs.congr

theorem Fused.stGet (n : Nat) : Fused P (s.stGet n).2 := by
  unfold State.stGet
  split
  · exact hs
  · exact hs.abufNext
  · exact (hs.bmDataAccess _).stWr _ _
  · exact hs
  · exact hs
  · exact hs.stWr _ _
  · exact hs.trPop
  · exact hs.vtoutTake
  · exact hs.stWr _ _

theorem Fused.sessPut (v : Word) : Fused P (s.sessPut v) := ((hs.sessionEnd.ite hs).when (fun h1 => (h1.drawWords _).chalPut _)).when (fun h1 => h1.verifyPut)

theorem Fused.stPut (n : Nat) (v : Word) : Fused P (s.stPut n v) := by
  unfold State.stPut
  split
  · exact hs.sessPut _
  · exact hs.abufPut _
  · exact (hs.stWr _ _).bmDataAccess _
  · exact hs.haltPut _
  · exact (hs.stWr _ _).freeze _ _
  · exact (hs.stWr _ _).freeze _ _
  · exact hs.ctxhaltPut _
  · exact hs.vtinPut _
  · exact hs.stWr _ _

theorem Fused.stAnswer (ack : BitVec 3) (d : Option Word) : Fused P (s.stAnswer ack d) := by
  unfold State.stAnswer
  split
  · exact hs.congr
  · exact hs.congr

theorem Fused.stAccess (n : Nat) (w : Option Word) : Fused P (s.stAccess n w) := by
  unfold State.stAccess
  split
  · exact hs.stAnswer _ _
  · split
    · exact hs.stAnswer _ _
    · split
      · exact (hs.stPut _ _).stAnswer _ _
      · exact (hs.stGet _).stAnswer _ _

theorem Fused.dpUpdate (w : BitVec 32) : Fused P (s.dpUpdate w) := hs.stAccess _ _

theorem Fused.portReset : Fused P s.portReset := by
  unfold State.portReset
  extract_lets t
  have ended : Fused P t := hs.sessionEnd
  clear_value t
  exact ended.congr

theorem Fused.execCrossTrigger (x : XtSource) : NextFused P (execCrossTrigger x s) := by
  unfold Machine.execCrossTrigger
  extract_lets t
  have frozen : Fused P t := hs.freeze _ _
  clear_value t
  exact frozen.congr.next.ite hs.next

/-! ### Machine/Access -/

theorem Fused.bpHalt (k : Core) (c : Ctx) : Fused P (s.bpHalt k c) := (hs.modCtx _ _).ite (hs.coreHalt _)
theorem Fused.bpFire (k : Core) (c : Ctx) (i : Nat) : Fused P (s.bpFire k c i) := (hs.bset _ _ _).when (fun h1 => h1.bpHalt _ _)

theorem Fused.bpCheck (k : Core) (c : Ctx) (acc : Access) (d : Word) (behind : List (Nat × Nat × Nat × Word)) : Fused P
    (s.bpCheck k c acc d behind) :=
  ((Fused.foldl hs (fun _ _ h1 => h1.bpFire _ _ _)).traceOne _).congr

theorem Fused.fetchLost (k : Core) (c : Ctx) (a : Nat) : Fused P (s.fetchLost k c a) := ((hs.coreReset _).when (fun h1 => h1.takeOver _)).ite (hs.accessFault _ _)

theorem Fused.fetch (k : Core) (c : Ctx) (a : Nat) (e : MemErr) : Fused P (s.fetch k c a e) := by
  unfold State.fetch
  split
  · exact hs.accessFault _ _
  · split
    · exact ((hs.readCheck _ _ _).fetchLost _ _ _).ite ((hs.readCheck _ _ _).answer _)
    · exact hs.busRead _ _ _ _

theorem Fused.execWardenAccess (k : Core) (c : Ctx) (acc : Access) (e : MemErr) : NextFused P (execWardenAccess k c acc e s) := by
  unfold Machine.execWardenAccess
  dsimp only
  split
  · exact hs.next
  · split
    · exact ((hs.fetch _ _ _ _).bpCheck _ _ _ _ _).next
    · exact ((hs.busRead _ _ _ _).bpCheck _ _ _ _ _).next
    · exact (((hs.busWrite _ _ _).ite hs.congr).bpCheck _ _ _ _ _).next

theorem Fused.execRegisterWrite (t : RegTarget) (v : BitVec 64) : NextFused P (execRegisterWrite t v s) := by
  unfold Machine.execRegisterWrite
  split
  · exact (hs.busWrite _ _ _).next
  · exact (hs.ite (hs.bar0Write _ _ _)).next
  · exact (hs.ite (hs.msixCtlPut _)).next
  · exact (hs.stAccess _ _).next

theorem Fused.execRcRead (t : RegTarget) : NextFused P (execRcRead t s) := by
  unfold Machine.execRcRead
  split
  · exact (hs.busRead _ _ _ _).next
  · exact (hs.ite (hs.bar0Read _ _)).next
  · exact hs.next
  · exact (hs.stAccess _ _).next

/-! ### Machine/Tick -/

theorem Fused.watchdogTick (k : Core) : Fused P (s.watchdogTick k) := ((hs.watchdogFire _).ite (hs.setLeft _ _)).ite hs
theorem Fused.keyTick (k : Core) : Fused P (s.keyTick k) := hs.ite ((hs.seqEnd _ _).ite (hs.modCore _ _))
theorem Fused.foldTick : Fused P s.foldTick := hs.congr

theorem Fused.tick : Fused P s.tick :=
  hs.ite ((hs.congr.foldTick.ite (((((hs.congr.foldTick.watchdogTick _).watchdogTick _).keyTick _).keyTick _).remapDue)).when
    (fun h1 => h1.fabricEdge.traceProbes))

/-! ### Machine/Fabric -/

theorem Fused.toEdge : Fused P s.toEdge := hs.tick.ite hs.tick.tick
theorem Fused.freshCycle (p : Pad) (k : Nat) : Fused P (s.freshCycle p k) := hs.toEdge.ite hs
theorem Fused.runOp (p : Pad) (n : Cell) (op : Nat) (f : State → Opnd → CellSt) : Fused P (s.runOp p n op f) := ((hs.freshCycle _ _).cellPut _ _ _).ite hs

theorem Fused.execTapReturn (p : Pad) : NextFused P (execTapReturn p s) := by
  unfold Machine.execTapReturn
  dsimp only
  split
  · exact ((((hs.freshCycle _ _).tapTake _ _ _ _).didAct _ _).next).ite hs.next
  · exact hs.next

theorem Fused.execConfigLoad : NextFused P (execConfigLoad s) := by
  unfold Machine.execConfigLoad
  split
  · exact (((hs.toEdge.ite hs).loadBegin _).next).ite hs.next
  · exact hs.next

/-! ### Machine/Dispatch -/

theorem Fused.exec (i : Instr) (raised : ∀ m, i = .arbraise m → ∀ f n, P f → P (f.raiseArb n)) : NextFused P (exec i s) :=
  match i with
  | .beamAdvance _ => hs.next.ite (((hs.advanceAll _).snapFollow _).next)
  | .lineStrobe _ => hs.execLineStrobe _
  | .frameStrobe _ => ((hs.frameBegin _).next).ite hs.next
  | .hblankStrobe _ => ((hs.beamStrobe _ _).next).ite hs.next
  | .vblankStrobe _ => ((((hs.closeRecord _ _ _).frameCounts _).beamStrobe _ _).next).ite hs.next
  | .hsyncStrobe _ => ((hs.beamStrobe _ _).next).ite hs.next
  | .vsyncStrobe _ => ((hs.beamStrobe _ _).next).ite hs.next
  | .headStart _ => (hs.headStart _ _).next
  | .headStop _ => (hs.headStop _ _).next
  | .pllLock _ => ((hs.rasterGo _).next).ite (((hs.bset _ _ _).next).ite hs.next)
  | .rasterStop _ => ((hs.stopNow _ _).next).ite hs.next
  | .referenceTimeout _ => (((hs.modHead _ _).when (fun h1 => h1.lockLost _)).next).ite hs.next
  | .genlockIn => (Fused.foldl hs (fun _ _ h1 => (h1.refArrive _).ite h1)).next
  | .qpPost _ _ => (hs.postPortPut _ _ _).next
  | .qpCancel _ _ => (hs.postPortPut _ _ _).next
  | .paddockPost _ => (((hs.post _ _ _ _ _ _).modPad).next).ite hs.next
  | .paddockCancel _ => (((hs.cancel _ _ _).modPad).next).ite hs.next
  | .mark _ => (hs.issue _ _ (fun _ _ h1 => ((h1.wr _ _).wr _ _).raiseCause _ _ _)).next
  | .write _ => (hs.issue _ _ (fun _ _ h1 => h1.byQueue _ _ _ (fun _ _ _ h2 => h2.locWrite _ _ _))).next
  | .palswap _ => (hs.issue _ _ (fun _ _ h1 => h1.palswap _ _ _)).next
  | .voice _ => (hs.issue _ _ (fun _ _ h1 => h1.keyBy _ _ _ _)).next
  | .timer _ => (hs.issue _ _ (fun _ _ h1 => h1.timerBy _ _ _ _)).next
  | .pin _ => (hs.issue _ _ (fun _ _ h1 => h1.outBy _ _ _ _ _ _)).next
  | .strobe _ => (hs.issue _ _ (fun _ _ h1 => ((h1.present _ _ _).present _ _ _).cycNote _)).next
  | .swap _ => hs.execSwap _
  | .slotWrite _ _ _ _ => (hs.gated _ _ (fun _ h1 => h1.directly _ _ _ (fun _ _ _ h2 => h2.slotPut _ _ _))).next
  | .cinv _ _ _ => (hs.gated _ _ (fun _ h1 => h1.modHead _ _)).next
  | .nslotWrite _ _ _ => (hs.gated _ _ (fun _ h1 => h1.layctlPut _ _)).next
  | .engineLineBegin _ _ => hs.execEngineLineBegin _ _
  | .occlusionDelivery _ => hs.execOcclusionDelivery _
  | .objectEvaluation _ => ((hs.evaluate _ _).next).ite hs.next
  | .lineDeadline _ => hs.execLineDeadline _
  | .composeLine _ => hs.execComposeLine _
  | .tapTransfer _ => (((hs.tapSend _ _).tapSend _ _).next).ite hs.next
  | .tapReturn _ => hs.execTapReturn _
  | .tapctlWrite _ _ _ => (hs.gated _ _ (fun _ h1 => h1.tapctlPut _ _)).next
  | .signatureRecordWrite _ => (hs.writeRecord _).next
  | .outputEnable _ => hs.next.ite ((hs.outputOn _).next)
  | .outputDisable _ => hs.next.ite ((hs.outputOff _).next)
  | .laneShort _ _ => (((((((hs.bset _ _ _).bset _ _ _).bset _ _ _).linkTrack _).sigFlag _ _).raise _).next).ite hs.next
  | .hpdRise _ _ => hs.next.ite (((((hs.bset _ _ _).linkTrack _).raise _).next).ite (((hs.raise _).next).ite hs.next))
  | .unplug _ => ((((((hs.bset _ _ _).bset _ _ _).inc _ _ _).linkTrack _).raise _).next).ite hs.next
  | .dramTraining _ _ => hs.next.ite (((((hs.trained _ _).repairRows).congr).when (fun h1 => h1.toSafe _)).next)
  | .dramReadRequest _ _ => ((hs.dramAsk _ _ _ _ _).next).ite (((hs.dramAsk _ _ _ _ _).handOver _ _).next)
  | .dramReadIssue _ => hs.execDramReadIssue _
  | .dramReadComplete _ _ => hs.execDramReadComplete _ _
  | .dramWriteRequest _ _ _ => (hs.queueWrite _ _ _).next
  | .writeQueueDrain _ => (((hs.drain _).when (fun h1 => h1.incN _ _ _ _)).next).ite hs.next
  | .refresh _ _ _ => ((hs.modChan _ _).next).ite hs.next
  | .drcfgWrite _ _ => (hs.gated _ _ (fun _ h1 => h1.drcfgPut _)).next
  | .tagresWrite _ _ => (hs.gated _ _ (fun _ h1 => h1.tagresPut _)).next
  | .shareWrite _ _ => (hs.gated _ _ (fun _ h1 => h1.sharePut _)).next
  | .eccRegionEnable _ _ _ => (hs.gated _ _ (fun _ h1 => h1.eccPut _ _ _)).next
  | .hold _ _ => (hs.runOp _ _ _ _).next
  | .pass _ _ => (hs.runOp _ _ _ _).next
  | .add _ _ => (hs.runOp _ _ _ _).next
  | .sub _ _ => (hs.runOp _ _ _ _).next
  | .logic _ _ => (hs.runOp _ _ _ _).next
  | .cmp _ _ => (hs.runOp _ _ _ _).next
  | .shl _ _ => (hs.runOp _ _ _ _).next
  | .shr _ _ => (hs.runOp _ _ _ _).next
  | .sar _ _ => (hs.runOp _ _ _ _).next
  | .rol _ _ => (hs.runOp _ _ _ _).next
  | .selc _ _ => (hs.runOp _ _ _ _).next
  | .minu _ _ => (hs.runOp _ _ _ _).next
  | .maxu _ _ => (hs.runOp _ _ _ _).next
  | .mins _ _ => (hs.runOp _ _ _ _).next
  | .maxs _ _ => (hs.runOp _ _ _ _).next
  | .addsu _ _ => (hs.runOp _ _ _ _).next
  | .addss _ _ => (hs.runOp _ _ _ _).next
  | .subsu _ _ => (hs.runOp _ _ _ _).next
  | .subss _ _ => (hs.runOp _ _ _ _).next
  | .satu _ _ => (hs.runOp _ _ _ _).next
  | .sats _ _ => (hs.runOp _ _ _ _).next
  | .mulu _ _ => (hs.runOp _ _ _ _).next
  | .muls _ _ => (hs.runOp _ _ _ _).next
  | .macu _ _ => (hs.runOp _ _ _ _).next
  | .macs _ _ => (hs.runOp _ _ _ _).next
  | .gmux _ _ => (hs.runOp _ _ _ _).next
  | .cellReset _ _ => (((hs.freshCycle _ _).cellPut _ _ _).next).ite hs.next
  | .ceHold _ _ => (((hs.freshCycle _ _).cellPut _ _ _).next).ite hs.next
  | .blockMemoryAccess _ _ _ _ => (((hs.freshCycle _ _).bmAccess _ _ _ _).next).ite hs.next
  | .memoryPortRequest _ _ => ((((hs.freshCycle _ _).portRequest _ _).didAct _ _).next).ite hs.next
  | .memoryPortReadData _ _ => ((((hs.freshCycle _ _).portData _ _).didAct _ _).next).ite hs.next
  | .memoryPortWriteWord _ _ => ((((hs.freshCycle _ _).portWrite _ _).didAct _ _).next).ite hs.next
  | .wardensBusAccess _ _ _ => hs.congr.next.ite (((hs.busAccess _ _ _).next).ite ((hs.accessFault _ _).next))
  | .wardensBusAck _ => (((hs.busAck _).windowNext _ _).relayStep).next
  | .wardensBusTimeout _ => (((hs.busTimeout _).windowNext _ _).relayStep).next
  | .srst _ _ => (hs.gated _ _ (fun _ h1 => h1.padSrst _)).next
  | .clkenWrite _ _ _ => (hs.gated _ _ (fun _ h1 => h1.clkenPut _ _)).next
  | .probeSelect _ _ _ _ => (hs.gated _ _ (fun _ h1 => h1.put _ _)).next
  | .load _ _ _ => (hs.gated _ _ (fun _ h1 => h1.icpGo _ _ _ _)).next
  | .rewrite _ _ _ => (hs.gated _ _ (fun _ h1 => h1.icpGo _ _ _ _)).next
  | .read _ _ _ => (hs.gated _ _ (fun _ h1 => h1.icpGo _ _ _ _)).next
  | .icpOperationComplete => hs.execIcpOperationComplete
  | .configLoad => hs.execConfigLoad
  | .pad => hs.execPad
  | .frames => hs.execFrames
  | .bmem => hs.execBmem
  | .endRecord => hs.execEndRecord
  | .loadComplete => hs.execLoadComplete
  | .imageEntryWrite _ _ _ _ => (hs.gated _ _ (fun _ h1 => h1.imagePut _ _ _)).next
  | .gleanerRound _ => ((hs.glRoundGo _).next).ite hs.next
  | .heartbeatTimeout => (hs.glReset.raise _).next
  | .grst _ => (hs.gated _ _ (fun _ h1 => h1.glReset)).next
  | .samplePeriod => hs.period.next.ite hs.next
  | .keyOn _ _ => (hs.vkeyPut _ _).next
  | .keyOff _ _ => (hs.vkeyPut _ _).next
  | .voiceStop _ _ => (hs.vkeyPut _ _).next
  | .larkBlock => hs.next.ite ((Fused.foldl hs.copySends.congr (fun _ _ h1 => (h1.askReturn _ _).ite h1)).next)
  | .lctlWrite _ _ => (hs.gated _ _ (fun _ h1 => h1.lctlPut _)).next
  | .lmdataAccess _ _ => hs.execLmdataAccess _ _
  | .wardenAccess _ _ _ _ => hs.execWardenAccess _ _ _ _
  | .peerTakeover _ => (((hs.coreReset _).takeOver _).next).ite hs.next
  | .coreRejoin _ => hs.execCoreRejoin _
  | .watchdogExpiry _ => ((hs.watchdogFire _).next).ite hs.next
  | .kick _ => (((hs.wdkeyPut _ _).wdkeyPut _ _).next).ite hs.next
  | .wdcfgUnlock _ _ => (((hs.wdkeyPut _ _).wdcfgPut _ _).next).ite hs.next
  | .keySequenceLapse _ => ((hs.seqEnd _ _).next).ite hs.next
  | .peerrst _ => ((hs.coreReset _).next).ite hs.next
  | .budgetExhausted _ => ((hs.modCtx _ _).next).ite hs.next
  | .budgetWindow => hs.congr.next
  | .serviceTrap _ _ _ => hs.execServiceTrap _ _ _
  | .claim _ _ => (hs.mbClaim _ _).next
  | .post _ _ => (hs.mbPost _ _).next
  | .release _ _ => (hs.mbRelease _ _).next
  | .claimExpiry _ => ((((hs.mbFree _).raise _).claimFirst _).next).ite hs.next
  | .ident _ => (hs.command _ _ _ (fun _ _ h1 => h1.done _ _)).next
  | .status _ => (hs.command _ _ _ (fun _ _ h1 => h1.done _ _)).next
  | .seqsync _ => (hs.command _ _ _ (fun _ _ h1 => h1.done _ _)).next
  | .setstate _ => hs.execSetstate _
  | .reset _ => (hs.command _ _ _ (fun _ _ h1 => h1.congr.done _ _)).next
  | .deviceResetAfterResponse => (((hs.resetDevice _).noteCause _ _).next).ite hs.next
  | .fwput _ => hs.execFwput _
  | .fwboot _ _ => (hs.command _ _ _ (fun _ _ h1 => (h1.done _ _).ite (((h1.caerunoRuns _ _).done _ _).ite (h1.done _ _)))).next
  | .headcfg _ => hs.execHeadcfg _
  | .headrun _ => hs.execHeadrun _
  | .creg _ => hs.execCreg _
  | .dptrain _ _ => hs.execDptrain _ _
  | .auxRead _ _ => (hs.command _ _ _ (fun _ _ h1 => (h1.done _ _).ite ((h1.drawWords _).done _ _))).next
  | .auxWrite _ => (hs.command _ _ _ (fun _ _ h1 => (h1.done _ _).ite ((h1.drawWords _).done _ _))).next
  | .wread _ => (hs.command _ _ _ (fun _ _ h1 => (h1.done _ _).ite ((h1.done _ _).ite (h1.wreadGo _ _ _ _)))).next
  | .wwrite _ => (hs.command _ _ _ (fun _ _ h1 => (h1.done _ _).ite (h1.wwriteGo _ _ _ _))).next
  | .qpost _ => (hs.command _ _ _ (fun _ _ h1 => h1.qpostCmd _ _ _)).next
  | .qcancel _ => (hs.command _ _ _ (fun _ _ h1 => h1.qcancelCmd _ _ _)).next
  | .grantOn _ => (hs.command _ _ _ (fun _ _ h1 => h1.grantCmd _ _)).next
  | .grantOff _ => (hs.command _ _ _ (fun _ _ h1 => h1.grantCmd _ _)).next
  | .grantlist _ => (hs.command _ _ _ (fun _ _ h1 => (h1.done _ _).ite (h1.done _ _))).next
  | .stage _ => hs.execStage _
  | .unstage _ => (hs.command _ _ _ (fun _ _ h1 => (h1.done _ _).ite ((h1.done _ _).ite ((h1.imagePut _ _ _).done _ _)))).next
  | .pload _ => hs.execPload _
  | .ploadTimed _ => (hs.command _ _ _ (fun _ _ h1 => (h1.done _ _).ite ((h1.post _ _ _ _ _ _).done _ _))).next
  | .gleanreqRewrite _ => hs.execGleanreqRewrite _
  | .gleanreqReload _ => hs.execGleanreqReload _
  | .bind _ => hs.execBind _
  | .arbraise m => hs.execArbraise m (raised m rfl)
  | .famkey _ => hs.execFamkey _
  | .revoke _ => hs.execRevoke _
  | .attkey _ _ => (hs.command _ _ _ (fun _ _ h1 => (h1.done _ _).ite ((h1.done _ _).ite (h1.done _ _)))).next
  | .flashinfo _ => (hs.command _ _ _ (fun _ _ h1 => h1.done _ _)).next
  | .flashwrite _ _ => hs.execFlashwrite _ _
  | .flashblk _ => hs.execFlashblk _
  | .flashdir _ => hs.execFlashdir _
  | .fwstage _ _ => hs.execFwstage _ _
  | .fwrelay _ => (hs.command _ _ _ (fun _ _ h1 => (h1.done _ _).ite ((h1.done _ _).ite h1.congr.relayStep.held))).next
  | .relayTimeout _ => hs.execRelayTimeout _
  | .splitget _ => (hs.command _ _ _ (fun _ _ h1 => h1.done _ _)).next
  | .splitset _ => (hs.command _ _ _ (fun _ _ h1 => (h1.done _ _).ite ((h1.splitSet _ _ _).done _ _))).next
  | .appload _ => hs.execAppload _
  | .appctlStart _ => (hs.appctl _ _ (fun _ _ h1 => (h1.ite (h1.ctxRun _ _)).done _ _)).next
  | .appctlStop _ => (hs.appctl _ _ (fun _ _ h1 => ((h1.modCtx _ _).done _ _).ite (h1.done _ _))).next
  | .appctlUnload _ => (hs.appctl _ _ (fun _ _ h1 => ((h1.ctxClear _).modCtx _ _).done _ _)).next
  | .appctlRestart _ => (hs.appctl _ _ (fun _ _ h1 => (h1.ctxRun _ _).done _ _)).next
  | .appstat _ => (hs.command _ _ _ (fun _ _ h1 => (h1.done _ _).ite (h1.done _ _))).next
  | .ledger _ => (hs.command _ _ _ (fun _ _ h1 => (h1.done _ _).ite (h1.done _ _))).next
  | .forwardTimeout _ => hs.execForwardTimeout _
  | .pageRebuild _ _ => hs.execPageRebuild _ _
  | .remap _ _ => (hs.remapWord _ _).next
  | .logClear _ _ => (hs.busWrite _ _ _).next
  | .checkerTest _ => hs.execCheckerTest _
  | .rotation => hs.execRotation
  | .selfTestComplete _ => hs.execSelfTestComplete _
  | .bankcfgWrite _ _ _ => (hs.gated _ _ (fun _ h1 => h1.bankcfgPut _ _)).next
  | .holdrel _ _ => (hs.gated _ _ (fun _ h1 => h1.holdRelease _)).next
  | .pgoodFall _ => (((hs.bset _ _ _).next).ite (((((hs.bset _ _ _).modBank _ _).inc _ _ _).raiseCause _ _ _).next)).ite hs.next
  | .pgoodRise _ _ => (((hs.bset _ _ _).fset _ _ _ _).modBank _ _).next
  | .pincfgWrite _ _ _ _ => (hs.gated _ _ (fun _ h1 => h1.pincfgPut _ _ _ _)).next
  | .outWrite _ _ _ => (hs.outDirect _ _ _ _).next
  | .oset _ _ _ => (hs.outDirect _ _ _ _).next
  | .oclr _ _ _ => (hs.outDirect _ _ _ _).next
  | .otgl _ _ _ => (hs.outDirect _ _ _ _).next
  | .pinInput _ _ _ => ((Fused.foldl hs (fun _ _ h1 => h1.modBank _ _)).pinsMove _ _ _).next
  | .debounce _ _ => ((hs.modBank _ _).pinsMove _ _ _).next
  | .contention _ _ => hs.execContention _ _
  | .openProbe _ _ => (hs.gated _ _ (fun _ h1 => h1.probeGo _ _)).next
  | .openProbeDone _ _ _ => (((((hs.wr _ _).bset _ _ _).modBank _ _).pinsMove _ _ _).next).ite hs.next
  | .timerStart _ _ => (hs.tgoPut _ _).next
  | .timerStop _ _ => (hs.tgoPut _ _).next
  | .timerReloadAndStart _ _ => (hs.tgoPut _ _).next
  | .tick _ => (((hs.tickOne _).modTmr _ _).next).ite hs.next
  | .capture _ => ((hs.captureOne _).next).ite hs.next
  | .tcapRead _ _ => (((hs.tcapTake _).congr).next).ite ((hs.accessFault _ _).next)
  | .tcntRead _ _ => (((hs.tcntTake _ _).congr).next).ite ((hs.accessFault _ _).next)
  | .lowresStep _ => ((hs.lowresOne _).next).ite hs.next
  | .linkEnable _ _ => (hs.gated _ _ (fun _ h1 => h1.linkEnPut _ _)).next
  | .linkDisable _ _ => (hs.gated _ _ (fun _ h1 => h1.linkEnPut _ _)).next
  | .ts _ _ _ => (hs.tsBlock _ _ _).next
  | .align _ _ _ => ((hs.modLink _ _).next).ite hs.next
  | .alignSend _ => ((hs.modLink _ _).next).ite hs.next
  | .idle g blk => hs.next
  | .laneLockTimeout _ => (((hs.modLink _ _).linkDecide _).next).ite hs.next
  | .trainTimeout _ => ((hs.linkDown _).next).ite hs.next
  | .trainRetry _ => ((hs.linkTrain _).next).ite hs.next
  | .txShort _ _ => hs.next.ite (((hs.bset _ _ _).when (fun h1 => h1.linkRetrain _)).next)
  | .shortRetest _ _ _ => hs.next.ite ((hs.bset _ _ _).next)
  | .laneRecovery _ => ((hs.linkRetrain _).next).ite hs.next
  | .epoch _ _ => (hs.packetIn _ _ _ (fun _ h1 => h1.inFold (fun _ h2 => h2.epochIn _ _))).next
  | .foldFrameBoundary => ((Fused.foldl hs (fun _ _ h1 => (h1.modHead _ _).when (fun h2 => h2.refArrive _))).next).ite hs.next
  | .epochTimeout => hs.congr.foldTrack.next
  | .tsyncRequest => hs.execTsyncRequest
  | .tsync _ _ => (hs.packetIn _ _ _ (fun _ h1 => h1.inFold (fun _ h2 => h2.tsyncIn _ _))).next
  | .mbreq _ _ => hs.execMbreq _ _
  | .mbrsp _ _ => (hs.packetIn _ _ _ (fun _ h1 => h1.deliver _ (fun _ h2 => h2.mbrspHere _) (fun _ h2 => h2))).next
  | .cpydata _ _ => (hs.packetIn _ _ _ (fun _ h1 => h1.deliver _ (fun _ h2 => h2.dataHere _ _) (fun _ h2 => h2.dataLost _))).next
  | .cpyack _ _ => (hs.packetIn _ _ _ (fun _ h1 => h1.deliver _ (fun _ h2 => h2.cpyackHere _) (fun _ h2 => h2))).next
  | .strdata _ _ => (hs.packetIn _ _ _ (fun _ h1 => h1.deliver _ (fun _ h2 => h2.dataHere _ _) (fun _ h2 => h2.dataLost _))).next
  | .ack _ _ => (hs.packetIn _ _ _ (fun _ h1 => h1)).next
  | .ackDue _ => ((hs.linkSend _ _).next).ite hs.next
  | .copyGo _ _ => (hs.gated _ _ (fun _ h1 => h1.ccmdGo _ _)).next
  | .copyStop _ _ => (hs.gated _ _ (fun _ h1 => h1.copyHalt _)).next
  | .streamArm _ _ => (hs.gated _ _ (fun _ h1 => h1.ccmdGo _ _)).next
  | .prbsTest _ _ _ => hs.next.ite ((hs.gated _ _ (fun _ h1 => h1.prbsPut _ _)).next)
  | .prbsStop _ _ => (hs.gated _ _ (fun _ h1 => h1.prbsPut _ _)).next
  | .ftimelRead _ => (hs.congr.next).ite ((hs.accessFault _ _).next)
  | .registerWrite _ _ => hs.execRegisterWrite _ _
  | .rcRead _ => hs.execRcRead _
  | .epochlRead _ _ => (hs.busRead _ _ _ _).next
  | .apertureRead _ _ => hs.execApertureRead _ _
  | .apertureWrite _ _ => hs.execApertureWrite _ _
  | .msixMessage _ => hs.congr.next.ite hs.next
  | .pciePerstN => (Fused.foldl (hs.congr.hwWr _ _) (fun _ _ h1 => h1.hostLost _)).next
  | .pwrctlRun => (hs.ite (hs.powRequest _)).next
  | .pwrctlDim => (hs.ite (hs.powRequest _)).next
  | .pwrctlRest => (hs.ite (hs.powRequest _)).next
  | .pwrctlKeep => (hs.ite (hs.powRequest _)).next
  | .restEntry => hs.execRestEntry
  | .keepEntry => hs.execKeepEntry
  | .wake _ => hs.execWake _
  | .thermUpdate _ => ((hs.congr).next).ite (((((hs.congr).hwWr _ _).raise _).next).ite ((hs.congr).next))
  | .thermalTrip => hs.next.ite (hs.keepOff _).congr.next
  | .porN _ => hs.execPorN _
  | .sysrstN => (hs.resetDevice _).congr.next
  | .fuseLoad _ => hs.next.ite (((hs.congr.fset _ _ _ _).ite ((hs.congr.fset _ _ _ _).lockOpen)).next)
  | .caerunoBoot _ _ => hs.execCaerunoBoot _ _
  | .fabricLoad => hs.execFabricLoad
  | .ledgerTick => hs.execLedgerTick
  | .ledgerWrite => hs.ledgerSave.next.ite hs.next
  | .bypass => (hs.selectIr _).next
  | .idcode => (hs.selectIr _).next
  | .samplePreload _ => (hs.ite ((hs.selectIr _).preload _)).next
  | .extest _ => (hs.ite ((((hs.selectIr _).preload _).pinsScanned).ite (hs.selectIr _))).next
  | .clamp => (hs.ite (((hs.selectIr _).pinsScanned).ite (hs.selectIr _))).next
  | .dpacc _ => (hs.ite ((hs.selectIr _).dpUpdate _)).next
  | .twoWireTransaction _ _ => (hs.ite ((hs.stAnswer _ _).ite (hs.dpUpdate _))).next
  | .twoWireReset => (hs.portReset.ite hs).next
  | .trstN => (hs.ite hs.portReset).next
  | .chal _ => (hs.chalPut _).next
  | .verify => hs.verifyPut.next
  | .verifyComplete => hs.verifyEnd.next.ite hs.next
  | .logout => hs.sessionEnd.next
  | .abufdAccess _ => (hs.stAccess _ _).next
  | .bmdataAccess _ => (hs.stAccess _ _).next
  | .halt _ => (hs.stAccess _ _).next
  | .resume => (hs.stAccess _ _).next
  | .step _ => (hs.stAccess _ _).next
  | .abort _ => (hs.stAccess _ _).next
  | .contextHalt _ => (hs.stAccess _ _).next
  | .contextResume _ => (hs.stAccess _ _).next
  | .contextStep _ => (hs.stAccess _ _).next
  | .freeze _ _ => ((hs.stAccess _ _).stAccess _ _).next
  | .crossTrigger _ => hs.execCrossTrigger _
  | .headFreeze _ => (((hs.lateRender _).rasterEnd _ _ _).next).ite hs.next
  | .traceSync => (hs.tracePut _ _ _ _).next
  | .trdataRead => (hs.stAccess _ _).next
  | .stimulusWrite _ _ _ => (hs.busWrite _ _ _).next
  | .vtoutcWrite _ => (hs.vtoutcPut _).next
  | .vtincRead => ((hs.answer _).stWr _ _).next
  | .vtinWrite _ => (hs.stAccess _ _).next
  | .vtoutRead => (hs.stAccess _ _).next
  | .dotClockLockLoss _ => (((hs.bset _ _ _).larkUnlock _).next).ite hs.next
  | .caerunoIntegrityFailure => hs.next.ite ((hs.toSafe _).next)
  | .pciePerstNRise => hs.congr.next
  | .blockLock _ _ => ((hs.modLink _ _).next).ite hs.next
  | .prbsBitError _ _ => ((hs.inc _ _ _).next).ite hs.next


end

/-! ### What burning makes of the fuses (R196) -/

theorem or_eq_right_trans {n : Nat} {a b c : BitVec n} (ab : a ||| b = b) (bc : b ||| c = c) : a ||| c = c := by
  rw [← bc, ← BitVec.or_assoc, ab]

theorem fusesFurther_refl (f : Fuses) : FusesFurther f f :=
  ⟨id, id, id, id, BitVec.or_self, BitVec.or_self, BitVec.le_refl _, BitVec.or_self, rfl, fun _ _ => BitVec.or_self, fun _ _ h => h,
    List.take_length, rfl, rfl⟩

theorem fusesFurther_trans {f g h : Fuses} (fg : FusesFurther f g) (gh : FusesFurther g h) : FusesFurther f h := by
  obtain ⟨lock, family, block, gleaner, level, revoked, count, id, length, key, slots, repair, part, root⟩ := fg
  obtain ⟨lock', family', block', gleaner', level', revoked', count', id', length', key', slots', repair', part', root'⟩ := gh
  have shorter : f.repair.length ≤ g.repair.length := by
    rw [← repair]
    exact List.length_take_le' _ _
  refine ⟨lock' ∘ lock, family' ∘ family, block' ∘ block, gleaner' ∘ gleaner, or_eq_right_trans level level', or_eq_right_trans revoked revoked',
    BitVec.le_trans count count', or_eq_right_trans id id', length'.trans length,
    fun i lt => or_eq_right_trans (key i lt) (key' i (length ▸ lt)), fun i d h => slots' i d (slots i d h), ?_, part'.trans part, root'.trans root⟩
  calc h.repair.take f.repair.length = (h.repair.take g.repair.length).take f.repair.length := by rw [List.take_take, min_eq_left shorter]
    _ = f.repair := by rw [repair', repair]

theorem fusesFurther_record (f : Fuses) (ws : List Word) : FusesFurther f { f with repair := f.repair ++ ws } :=
  ⟨id, id, id, id, BitVec.or_self, BitVec.or_self, BitVec.le_refl _, BitVec.or_self, rfl, fun _ _ => BitVec.or_self, fun _ _ h => h,
    List.take_left, rfl, rfl⟩

theorem nth_orBytes (a b : List Byte) {i : Nat} (lt : i < a.length) : nth 0 (orBytes a b) i = nth 0 a i ||| nth 0 b i := by
  simp [nth, orBytes, lt]

theorem fusesFurther_setFamily (f : Fuses) (id : Word) (key : List Byte) (lock : Bool) : FusesFurther f (f.setFamily id key lock) :=
  ⟨fun h => h, fun h => by simp [Fuses.setFamily, h], fun h => h, fun h => h, BitVec.or_self, BitVec.or_self, BitVec.le_refl _,
    by rw [Fuses.setFamily, ← BitVec.or_assoc, BitVec.or_self], by simp [Fuses.setFamily, orBytes],
    fun i lt => by rw [Fuses.setFamily, nth_orBytes _ _ lt, ← BitVec.or_assoc, BitVec.or_self], fun _ _ h => h, List.take_length, rfl, rfl⟩

theorem fusesFurther_revoke (f : Fuses) (n : Nat) : FusesFurther f (f.revoke n) :=
  ⟨id, id, id, id, BitVec.or_self, by rw [Fuses.revoke, ← BitVec.or_assoc, BitVec.or_self], BitVec.le_refl _, BitVec.or_self, rfl,
    fun _ _ => BitVec.or_self, fun _ _ h => h, List.take_length, rfl, rfl⟩

theorem le_raiseArb (f : Fuses) (n : Nat) : f.arbcnt ≤ (f.raiseArb n).arbcnt := by
  have small := f.arbcnt.isLt
  rw [BitVec.le_def, Fuses.raiseArb, BitVec.toNat_ofNat, Nat.mod_eq_of_lt (by omega)]
  exact le_max_left _ _

theorem fusesFurther_raiseArb (f : Fuses) (n : Nat) : FusesFurther f (f.raiseArb n) :=
  ⟨id, id, id, id, BitVec.or_self, BitVec.or_self, le_raiseArb f n, BitVec.or_self, rfl, fun _ _ => BitVec.or_self, fun _ _ h => h,
    List.take_length, rfl, rfl⟩

/-- Further than f is kept by what burns further. -/
theorem keptByBurning_further (f : Fuses) : KeptByBurning (FusesFurther f) :=
  ⟨fun g ws h => fusesFurther_trans h (fusesFurther_record g ws), fun g id key lock h => fusesFurther_trans h (fusesFurther_setFamily g id key lock),
    fun g n h => fusesFurther_trans h (fusesFurther_revoke g n)⟩

/-- No burning but ARBRAISE's reaches ARBCNT. -/
theorem keptByBurning_arbcnt (n : BitVec 8) : KeptByBurning fun g => g.arbcnt = n :=
  ⟨fun _ _ h => h, fun _ _ _ _ h => h, fun _ _ h => h⟩

/-- A cycle of SCLK burns no more than a record of a repair. -/
theorem Fused.step {s : State} (hs : Fused P s) (raised : ∀ m, s.pending.head? = some (.arbraise m) → ∀ f n, P f → P (f.raiseArb n)) :
    NextFused P (step s) := by
  unfold Machine.step
  split
  · exact hs.tick.next
  next i rest queued => exact Fused.exec hs.congr i fun m e => raised m (by rw [queued, e]; rfl)

end Sys2Proof.Machine

open Sys2Proof.Machine in
/-- Settles O33: of what a step is made of, only a repair record, FAMKEY, REVOKE and ARBRAISE burn fuses, each further, and only the last reaches ARBCNT. -/
theorem fusesOnlySetFurther : Obligations.FusesOnlySetFurther := by
  intro s t run
  have further := Fused.step ⟨keptByBurning_further s.fuses, fusesFurther_refl _⟩ (fun _ _ f n h => fusesFurther_trans h (fusesFurther_raiseArb f n)) t run
  refine ⟨further.holds, fun risen => ?_⟩
  by_contra other
  have stays := Fused.step ⟨keptByBurning_arbcnt s.fuses.arbcnt, rfl⟩ (fun m front => absurd ⟨m, front⟩ other) t run
  exact risen stays.holds

end

section
/-! A round of the Gleaner that waits for the ICP (O57). -/

namespace Sys2Proof.Machine

/-- After reset, with a READ in hand and a round of the Gleaner that waits for its end. -/
def readingInRound : State :=
  { State.reset with icp := some (newJob .read 0 0 0 none), gl := { GlSt.idle with run := true } }

/-- The READ's end sets the round going again, and it counts in HBEAT (R213, R218). -/
theorem readingInRound_beats :
    (match exec .icpOperationComplete readingInRound with | .next t => t.rd (aGl 3) == readingInRound.rd (aGl 3) + 1 | _ => false) = true := by
  decide +kernel

end Sys2Proof.Machine

open Sys2Proof Sys2Proof.Machine Sys2Proof.Safety in
/-- Refutes O57: its clause on a READ's end keeps every word but ICPSTAT and ICPBUF. A round of the Gleaner that waits for the ICP goes on when the READ
ends, and counts in HBEAT (R211, R213, R218). -/
theorem not_configurationPort : ¬ Obligations.ConfigurationPort := by
  intro holds
  obtain ⟨-, -, ends, -⟩ := holds readingInRound
  obtain ⟨reads, -⟩ := ends (newJob .read 0 0 0 none) rfl rfl rfl (by decide)
  obtain ⟨t, run, -, -, words, -⟩ := reads rfl
  have beats := readingInRound_beats
  rw [run, beq_iff_eq, words _ (by decide)] at beats
  exact absurd beats (by decide)

end

section
/-! What the ICP asks of the DRAM scheduler (R131, R204). -/

namespace Sys2Proof.Machine

open Safety

/-- The words of the scheduler that a read asked for may write: its counts and PEAKTAG. -/
def askWords : List Nat := (List.range 4).flatMap fun c => [aChan c 1, aChan c 2]

theorem mem_askWords {a : Nat} : a ∈ askWords ↔ ∃ c < 4, a = aChan c 1 ∨ a = aChan c 2 := by
  simp [askWords, List.mem_flatMap]

/-- From s to t reads have been asked for: the scheduler's channels and counts have changed, events may have been raised, and nothing else. -/
structure Asks (s t : State) : Prop where
  only : t = { s with ws := t.ws, hw := t.hw, pcie := t.pcie, chans := t.chans, dcyc := t.dcyc }
  words : WordsKept s t askWords

theorem Asks.refl (s : State) : Asks s s := ⟨rfl, fun _ _ => rfl⟩

theorem Asks.trans {s t u : State} (f : Asks s t) (g : Asks t u) : Asks s u := by
  refine ⟨g.only.trans ?_, fun a ha => (g.words a ha).trans (f.words a ha)⟩
  rw [f.only]

theorem Asks.dramCycle (s : State) (q : DramUser) : Asks s (s.dramCycle q) := by
  unfold State.dramCycle
  split <;> exact ⟨rfl, fun _ _ => rfl⟩

theorem Asks.setReads (s : State) (c : Chan) (l : List DRead) : Asks s (s.setReads c l) :=
  ⟨s.setReads_eq c l, fun _ ha => s.setReads_rd_ne c l fun e => ha (mem_askWords.2 ⟨c.val, c.isLt, .inr e⟩)⟩

theorem Asks.countOor (s : State) (us : List Nat) : Asks s (s.countOor us) := by
  refine ⟨by rw [State.countOor_eq], fun a ha => s.countOor_rd us fun mem => ha ?_⟩
  obtain ⟨c, inside, rfl⟩ := List.mem_map.1 mem
  exact mem_askWords.2 ⟨c, List.mem_range.1 inside, .inl rfl⟩

theorem Asks.askUnit (s : State) (q : DramUser) (u deadline line : Nat) (standIn merge : Bool) : Asks s (s.askUnit q u deadline line standIn merge) := by
  have cycle := Asks.dramCycle s q
  unfold State.askUnit
  extract_lets v c rd s1
  have asked : Asks s s1 := cycle.trans (.setReads v c _)
  split
  · exact asked
  · extract_lets cu d
    split
    · exact asked.trans ⟨rfl, fun _ _ => rfl⟩
    · exact asked.trans (.setReads s1 d _)

theorem Asks.dramAsk (s : State) (q : DramUser) (u deadline line : Nat) : Asks s (s.dramAsk q u deadline line).1 := by
  unfold State.dramAsk
  split
  · exact .countOor s _
  · exact .askUnit s _ _ _ _ _ _

theorem Asks.dramCap {s t : State} (f : Asks s t) : t.dramCap = s.dramCap :=
  State.dramCap_congr (f.words _ (by decide)) (f.words _ (by decide))

theorem Asks.chanOf {s t : State} (f : Asks s t) : t.chanOf = s.chanOf := State.chanOf_congr (f.words _ (by decide))

theorem State.dramAsk_snd (s : State) (q : DramUser) (u deadline line : Nat) : (s.dramAsk q u deadline line).2 = decide (32 * u < s.dramCap) := by
  unfold State.dramAsk
  split
  · simp; omega
  · simp; omega

/-- From s to t the job in hand has asked for reads and taken zeros, and nothing else. -/
structure JobFrame (s t : State) : Prop where
  only : t = { s with ws := t.ws, hw := t.hw, pcie := t.pcie, chans := t.chans, dcyc := t.dcyc, icp := t.icp }
  words : WordsKept s t askWords
  grow : ReadsGrow s t

theorem JobFrame.trans {s t u : State} (f : JobFrame s t) (g : JobFrame t u) : JobFrame s u := by
  refine ⟨g.only.trans ?_, fun a ha => (g.words a ha).trans (f.words a ha), f.grow.trans g.grow⟩
  rw [f.only]

theorem JobFrame.pads {s t : State} (f : JobFrame s t) : t.pads = s.pads := f.grow.pads
theorem JobFrame.upsets {s t : State} (f : JobFrame s t) : t.upsets = s.upsets := by rw [f.only]
theorem JobFrame.repair {s t : State} (f : JobFrame s t) : t.repair = s.repair := by rw [f.only]

/-- The job in hand, j, has asked for units, of which those below the capacity are still to come. -/
structure JobAsks (s t : State) (j : IcpJob) (us : List Nat) : Prop where
  frame : JobFrame s t
  job : ∃ got, t.icp = some { j with wait := j.wait ++ us.filter (fun u => decide (32 * u < s.dramCap)), got := got }
  reads : ∀ u ∈ us, 32 * u < s.dramCap → Reads t (s.chanOf (32 * u)) .loader u

/-- The ICP asks for one unit. -/
def State.icpAskUnit (s : State) (u : Nat) : State :=
  (s.dramAsk .loader u 0 0).1.modJob fun j =>
    if (s.dramAsk .loader u 0 0).2 then { j with wait := j.wait ++ [u] } else { j with got := j.got ++ [(u, List.replicate 32 0, false)] }

theorem State.icpAsk_eq (s : State) (img : Nat) : s.icpAsk img = (s.imageUnits img).foldl State.icpAskUnit s := rfl

theorem JobAsks.one {s : State} {j : IcpJob} (hand : s.icp = some j) (u : Nat) : JobAsks s (s.icpAskUnit u) j [u] := by
  have asks := Asks.dramAsk s .loader u 0 0
  obtain ⟨grow, reads⟩ := (ReadsGrow.refl s).dramAsk .loader u 0 0
  have still : (s.dramAsk .loader u 0 0).1.icp = some j := by rw [asks.only]; exact hand
  refine ⟨⟨?_, asks.words, grow.congr⟩, ?_, fun v hv inside => ?_⟩
  · unfold State.icpAskUnit State.modJob
    rw [asks.only]
  · unfold State.icpAskUnit State.modJob
    rw [still, State.dramAsk_snd]
    by_cases inside : 32 * u < s.dramCap
    · exact ⟨j.got, by simp [inside]⟩
    · exact ⟨j.got ++ [(u, List.replicate 32 0, false)], by simp [inside]⟩
  · obtain rfl := List.mem_singleton.1 hv
    exact reads inside

theorem JobAsks.all {us : List Nat} : ∀ {s : State} {j : IcpJob}, s.icp = some j → JobAsks s (us.foldl State.icpAskUnit s) j us := by
  induction us with
  | nil => exact fun hand => ⟨⟨rfl, fun _ _ => rfl, .refl _⟩, ⟨_, by simpa using hand⟩, by simp⟩
  | cons u us ih =>
    intro s j hand
    have first := JobAsks.one hand u
    obtain ⟨got, taken⟩ := first.job
    have rest := ih taken
    have cap : (s.icpAskUnit u).dramCap = s.dramCap := State.dramCap_congr (first.frame.words _ (by decide)) (first.frame.words _ (by decide))
    have chan : (s.icpAskUnit u).chanOf = s.chanOf := State.chanOf_congr (first.frame.words _ (by decide))
    obtain ⟨got', all⟩ := rest.job
    rw [cap] at all
    refine ⟨first.frame.trans rest.frame, ⟨got', ?_⟩, fun v hv inside => ?_⟩
    · rw [List.foldl_cons, all]
      simp [List.filter_cons]
      split <;> simp
    · rcases List.mem_cons.1 hv with rfl | later
      · exact rest.frame.grow.reads _ _ _ (first.reads _ (List.mem_singleton_self _) inside)
      · rw [← chan]
        exact rest.reads v later (by rwa [cap])

/-- The ICP asks for the units of an image (R204). -/
theorem State.icpAsk_spec {s : State} {j : IcpJob} (hand : s.icp = some j) (img : Nat) : JobAsks s (s.icpAsk img) j (s.imageUnits img) := JobAsks.all hand

end Sys2Proof.Machine
end
section
/-! The start of a load (R205 to R208): its paddock is cleared, its spare columns are applied, and the run's units are asked for. -/

namespace Sys2Proof.Machine

open Safety

/-- Paddock p is cleared: its configuration, its block memories, what was wrong in both, and its wire clocks (R208, R277). -/
def PadCleared (s t : State) (p : Pad) : Prop := t.pads[p].cfg = [] ∧ t.pads[p].bm = [] ∧ (t.upsets.all fun u => u.pad != p) = true ∧
  (t.repair.bad.all fun b => b.region != p.val) = true ∧ t.rd (aPad p.val 0x0C) = 0 ∧ t.bget (aPad p.val 1) 21 = false ∧
  t.fget (aPad p.val 1) 15 12 = 0 ∧ FieldKept s t (aPad p.val 1) 23 22

/-- The job in hand is a load of j's paddock that has code c. -/
def LoadHas (t : State) (j : IcpJob) (c : Nat) : Prop := (t.icp.map fun k => (k.code, k.pad, k.op)) = some (c, j.pad, IcpOp.load)

/-- The paddocks but p are as before. -/
def PadsRest (s t : State) (p : Pad) : Prop := ∀ o : Pad, o ≠ p → t.pads[o] = s.pads[o]

section
variable {s t : State} {p : Pad}

theorem State.padClear_eq (s : State) (p : Pad) : s.padClear p = { s with
    ws := (s.padClear p).ws
    pads := vmod s.pads p PadSt.cleared
    upsets := s.upsets.filter fun u => !(u.pad.val == p.val && true)
    repair := { s.repair with bad := s.repair.bad.filter fun b => b.region != p.val } } := by
  have words : ∀ u : State, ((u.bset (aPad p.val 1) 21 false).fset (aPad p.val 1) 15 12 0).designTrack p.val =
      { u with ws := (((u.bset (aPad p.val 1) 21 false).fset (aPad p.val 1) 15 12 0).designTrack p.val).ws } := fun _ => rfl
  exact words _

/-- The words that the clearing of a paddock writes: its wire clocks and DESIGNID. -/
theorem State.padClear_rd (s : State) (p : Pad) (a : Nat) : (s.padClear p).rd a =
    if a = aPad p.val 0x0C then 0 else if a = aPad p.val 1 then putFld (putBit (s.rd (aPad p.val 1)) 21 false) 15 12 0 else s.rd a := by
  have blank : ∀ t : State, t.pads[p] = PadSt.cleared s.pads[p] → (t.pad p.val).cw 797 0 = 0 := fun t h => by
    rw [State.pad, dif_pos p.isLt]
    exact congrArg (fun x : PadSt => x.cw 797 0) h
  unfold State.padClear State.designTrack
  extract_lets s1 s2
  rw [State.rd_wr, blank _ (getElem_vmod_same _ _ _)]
  split
  · rfl
  · rw [State.fset_rd, State.bset_rd, State.bset_rd, if_pos rfl]
    split <;> rfl

theorem State.padClear_cleared (s : State) (p : Pad) : PadCleared s (s.padClear p) p := by
  have own : (s.padClear p).pads[p] = PadSt.cleared s.pads[p] := getElem_vmod_same _ _ _
  have apart : aPad p.val 1 ≠ aPad p.val 0x0C := by unfold aPad; omega
  have status : (s.padClear p).rd (aPad p.val 1) = putFld (putBit (s.rd (aPad p.val 1)) 21 false) 15 12 0 := by
    rw [State.padClear_rd, if_neg apart, if_pos rfl]
  refine ⟨congrArg PadSt.cfg own, congrArg PadSt.bm own, ?_, ?_, ?_, ?_, ?_, ?_⟩
  · rw [State.padClear_eq, List.all_eq_true]
    intro u hu
    simpa [Fin.ext_iff] using (List.mem_filter.1 hu).2
  · rw [State.padClear_eq, List.all_eq_true]
    exact fun b hb => (List.mem_filter.1 hb).2
  · rw [State.padClear_rd, if_pos rfl]
  · rw [State.bget, status, bit_putFld _ _ (by decide), if_neg (by omega), bit_putBit_same _ _ (by decide)]
  · rw [State.fget, status, fld_putFld _ _ (by decide) (by decide)]
    rfl
  · rw [FieldKept, State.fget, status, fld_putFld_apart _ _ (by decide) (by decide), fld_putBit_apart _ _ (by decide)]
    rfl

theorem State.padClear_rest (s : State) (p : Pad) : PadsRest s (s.padClear p) p := fun _ ne => getElem_vmod_ne _ _ ne

theorem State.padClear_words (s : State) (p : Pad) : WordsKept s (s.padClear p) [aPad p.val 1, aPad p.val 0x0C] := by
  intro a ha
  simp only [List.mem_cons, List.not_mem_nil, or_false, not_or] at ha
  rw [State.padClear_rd, if_neg ha.2, if_neg ha.1]

/-- A cleared paddock stays cleared while it, what is wrong in it and its registers keep. -/
theorem PadCleared.congr {u : State} (h : PadCleared s t p) (pads : u.pads = t.pads) (upsets : u.upsets = t.upsets) (bad : u.repair.bad = t.repair.bad)
    (design : u.rd (aPad p.val 0x0C) = t.rd (aPad p.val 0x0C)) (status : u.rd (aPad p.val 1) = t.rd (aPad p.val 1)) : PadCleared s u p := by
  unfold PadCleared FieldKept State.bget State.fget at h ⊢
  rwa [pads, upsets, bad, design, status]

end

/-! ### What an image's units follow from -/

section
variable {s t : State}

theorem State.unitNow_congr (dram : t.dram = s.dram) (chans : t.chans = s.chans) (cfg : t.rd (aDram 0) = s.rd (aDram 0))
    (stat : t.rd (aDram 1) = s.rd (aDram 1)) : t.unitNow = s.unitNow := by
  funext u
  simp only [State.unitNow, State.dramBytes, State.chanOf_congr cfg, State.dramCap_congr cfg stat, dram, chans]

theorem State.imageUnits_congr (dram : t.dram = s.dram) (chans : t.chans = s.chans) (cfg : t.rd (aDram 0) = s.rd (aDram 0))
    (stat : t.rd (aDram 1) = s.rd (aDram 1)) {img : Nat} (entry : ∀ w < 3, t.rd (aImage img w) = s.rd (aImage img w)) : t.imageUnits img = s.imageUnits img := by
  simp only [State.imageUnits, State.nowBytes, State.unitNow_congr dram chans cfg stat, State.fget, entry 0 (by decide), entry 1 (by decide), entry 2 (by decide)]

theorem State.imageFor_congr {img : Nat} (entry : t.rd (aImage img 0) = s.rd (aImage img 0)) (p : Nat) : t.imageFor img p = s.imageFor img p := by
  simp only [State.imageFor, State.bget, State.fget, entry]

end

end Sys2Proof.Machine
end
section
/-! CONFIG_LOAD (R205 to R208). -/

namespace Sys2Proof.Machine

open Safety

/-- The paddock of the load in hand is cleared, and the load has begun. -/
def State.loadBlank (s : State) (p : Pad) : State := (s.padClear p).modJob fun x => { x with begun := true }

/-- The words that a load's start writes whatever becomes of it. -/
def blankWords (p : Pad) : List Nat := [aPad p.val 0x0A, aPad p.val 1, aPad p.val 0x0C]

theorem not_mem_blankWords {p : Pad} {a : Nat} (h : a ∉ blankWords p) : a ≠ aPad p.val 0x0A ∧ a ≠ aPad p.val 1 ∧ a ≠ aPad p.val 0x0C := by
  simpa [blankWords] using h

theorem State.loadBlank_rd (s : State) (p : Pad) {a : Nat} (h1 : a ≠ aPad p.val 1) (h2 : a ≠ aPad p.val 0x0C) : (s.loadBlank p).rd a = s.rd a :=
  s.padClear_words p a (by simp [h1, h2])

theorem State.loadBlank_spareMap (s : State) (p : Pad) (n : Nat) : (s.loadBlank p).spareMap n = s.spareMap n := by
  have records : (s.loadBlank p).records = s.records := by rw [State.loadBlank, State.modJob, State.padClear_eq]; rfl
  simp only [State.spareMap, State.failedCols, records]
  rfl

section
variable {s : State} {j : IcpJob} {p : Pad}

theorem State.loadBlank_icp (hand : s.icp = some j) (p : Pad) : (s.loadBlank p).icp = some { j with begun := true } := by
  have still : (s.padClear p).icp = some j := by rw [State.padClear_eq]; exact hand
  rw [State.loadBlank, State.modJob, still]
  rfl

theorem ofNat_pad (pad : j.pad = p.val) : Fin.ofNat 16 j.pad = p := by
  rw [pad]
  exact Fin.ext (Nat.mod_eq_of_lt p.isLt)

theorem State.pad_of_lt (s : State) (p : Pad) : s.pad p.val = s.pads[p] := dif_pos p.isLt

theorem execConfigLoad_eq (hand : s.icp = some j) (load : j.op = .load) (fresh : j.begun = false) (pad : j.pad = p.val) :
    exec .configLoad s = .next ((if s.pads[p].closing then s.toEdge else s).loadBegin j) := by
  change execConfigLoad s = _
  unfold execConfigLoad
  rw [hand]
  dsimp only
  rw [load, fresh, pad, State.pad_of_lt]
  rfl

theorem exec_configLoad (hand : s.icp = some j) (load : j.op = .load) (fresh : j.begun = false) (pad : j.pad = p.val) (rests : s.pads[p].closing = false) :
    exec .configLoad s = .next (s.loadBegin j) := by
  rw [execConfigLoad_eq hand load fresh pad, rests]
  rfl

/-- A load of a paddock that closes begins at its last edge (R207). -/
theorem exec_configLoad_toEdge (hand : s.icp = some j) (load : j.op = .load) (fresh : j.begun = false) (pad : j.pad = p.val)
    (closing : s.pads[p].closing = true) (still : s.toEdge.icp = some j) (closed : s.toEdge.pads[p].closing = false) :
    exec .configLoad s = exec .configLoad s.toEdge := by
  rw [execConfigLoad_eq hand load fresh pad, closing, exec_configLoad still load fresh pad closed]
  rfl

theorem State.loadBegin_eq (pad : j.pad = p.val) : s.loadBegin j =
    if !s.imageFor j.img j.pad then (s.loadBlank p).modJob fun x => x.fail 1
    else match s.spareMap j.pad with
      | none => ((s.loadBlank p).bset (aPad p.val 0x0A) 13 true).modJob fun x => x.fail 8
      | some m => (((List.range 3).foldl (fun (t : State) i => t.wr (aPad p.val (0x20 + i)) (rpmapWord m i))
          ((s.loadBlank p).bset (aPad p.val 0x0A) 13 false)).icpAsk j.img).icpHas := by
  have image : (s.loadBlank p).imageFor j.img j.pad = s.imageFor j.img j.pad :=
    State.imageFor_congr (s.loadBlank_rd p (by simp only [aImage, aPad]; omega) (by simp only [aImage, aPad]; omega)) _
  unfold State.loadBegin State.loadClear
  rw [ofNat_pad pad]
  change (if !(s.loadBlank p).imageFor j.img j.pad then _ else match (s.loadBlank p).spareMap j.pad with | none => _ | some m => _) = _
  rw [image, State.loadBlank_spareMap, pad]
  rfl

end

end Sys2Proof.Machine
end
section
/-! What CONFIG_LOAD leaves (R205, R206, R208). -/

namespace Sys2Proof.Machine

open Safety

/-- Spare columns are applied: RPMAP0 to RPMAP2 show the map m (R206). -/
def State.loadSpared (s : State) (p : Pad) (m : List (Option Nat)) : State :=
  (List.range 3).foldl (fun (t : State) i => t.wr (aPad p.val (0x20 + i)) (rpmapWord m i)) ((s.loadBlank p).bset (aPad p.val 0x0A) 13 false)

/-- The words RPMAP0 to RPMAP2. -/
def rpmapWords (p : Pad) : List Nat := (List.range 3).map fun i => aPad p.val (0x20 + i)

section
variable {s : State} {j : IcpJob} {p : Pad}

theorem State.loadSpared_rd (s : State) (p : Pad) (m : List (Option Nat)) (a : Nat) : (s.loadSpared p m).rd a =
    if a = aPad p.val 0x22 then rpmapWord m 2 else if a = aPad p.val 0x21 then rpmapWord m 1 else if a = aPad p.val 0x20 then rpmapWord m 0
    else ((s.loadBlank p).bset (aPad p.val 0x0A) 13 false).rd a := by
  change (State.wr (State.wr (State.wr _ _ _) _ _) _ _).rd a = _
  rw [State.rd_wr, State.rd_wr, State.rd_wr]

theorem State.loadSpared_eq (s : State) (p : Pad) (m : List (Option Nat)) : s.loadSpared p m = { s.loadBlank p with ws := (s.loadSpared p m).ws } := rfl

theorem State.loadSpared_pads (s : State) (p : Pad) (m : List (Option Nat)) : (s.loadSpared p m).pads = (s.padClear p).pads := by
  rw [State.loadSpared_eq]
  rfl

theorem State.loadSpared_upsets (s : State) (p : Pad) (m : List (Option Nat)) : (s.loadSpared p m).upsets = (s.padClear p).upsets := by
  rw [State.loadSpared_eq]
  rfl

theorem State.loadSpared_repair (s : State) (p : Pad) (m : List (Option Nat)) : (s.loadSpared p m).repair = (s.padClear p).repair := by
  rw [State.loadSpared_eq]
  rfl

theorem State.loadSpared_kept (s : State) (p : Pad) (m : List (Option Nat)) {a : Nat} (blank : a ∉ blankWords p) (map : a ∉ rpmapWords p) :
    (s.loadSpared p m).rd a = s.rd a := by
  have apart : ∀ i < 3, a ≠ aPad p.val (0x20 + i) := fun i hi e => map (List.mem_map.2 ⟨i, List.mem_range.2 hi, e.symm⟩)
  obtain ⟨h1, h2, h3⟩ := not_mem_blankWords blank
  rw [State.loadSpared_rd, if_neg (apart 2 (by decide)), if_neg (apart 1 (by decide)), if_neg (apart 0 (by decide)), State.bset_rd, if_neg h1,
    State.loadBlank_rd s p h2 h3]

/-- A load whose units have all come has its run; nothing else changes. -/
theorem State.icpHas_eq (hand : s.icp = some j) : ∃ ws ss n, s.icpHas = { s with icp := some { j with words := ws, segs := ss, total := n } } := by
  unfold State.icpHas
  rw [hand]
  dsimp only
  split
  · exact ⟨(s.imageRunBy j.view j.img).1, (s.imageRunBy j.view j.img).2, (s.imageRunBy j.view j.img).1.length, by rw [State.loadRead, State.modJob, hand]; rfl⟩
  · exact ⟨j.words, j.segs, j.total, by rw [← hand]⟩

variable (hand : s.icp = some j) (load : j.op = .load) (fresh : j.begun = false) (pad : j.pad = p.val) (rests : s.pads[p].closing = false)
include hand load fresh pad rests

theorem configLoad_failed (begun : j.code = 0) (none : s.imageFor j.img j.pad = false) :
    Completes .configLoad s fun t => LoadHas t j 1 ∧ PadCleared s t p ∧ WordsKept s t (blankWords p) ∧ PadsRest s t p := by
  have run : s.loadBegin j = (s.loadBlank p).modJob fun x => x.fail 1 := by rw [State.loadBegin_eq pad, none]; rfl
  refine completes_of_eq ((exec_configLoad hand load fresh pad rests).trans (congrArg _ run)) ⟨?_, s.padClear_cleared p, fun a ha => ?_, s.padClear_rest p⟩
  · rw [LoadHas, State.modJob, State.loadBlank_icp hand]
    simp [IcpJob.fail, begun, load]
  · obtain ⟨-, h2, h3⟩ := not_mem_blankWords ha
    exact s.loadBlank_rd p h2 h3

theorem configLoad_unspared (begun : j.code = 0) (image : s.imageFor j.img j.pad = true) (short : s.spareMap j.pad = none) :
    Completes .configLoad s fun t => LoadHas t j 8 ∧ t.bget (aPad p.val 0x0A) 13 = true ∧ FieldKept s t (aPad p.val 0x0A) 23 14 ∧ PadCleared s t p ∧
      WordsKept s t (blankWords p) ∧ PadsRest s t p := by
  have run : s.loadBegin j = ((s.loadBlank p).bset (aPad p.val 0x0A) 13 true).modJob fun x => x.fail 8 := by
    rw [State.loadBegin_eq pad, image, short]
    rfl
  have words (a : Nat) : (s.loadBegin j).rd a = if a = aPad p.val 0x0A then putBit (s.rd (aPad p.val 0x0A)) 13 true else (s.loadBlank p).rd a := by
    rw [run]
    refine (State.bset_rd _ _ _ _ a).trans ?_
    rw [State.loadBlank_rd s p (a := aPad p.val 0x0A) (by unfold aPad; omega) (by unfold aPad; omega)]
  refine completes_of_eq (exec_configLoad hand load fresh pad rests) ⟨?_, ?_, ?_, ?_, fun a ha => ?_, ?_⟩
  · have still : ((s.loadBlank p).bset (aPad p.val 0x0A) 13 true).icp = _ := State.loadBlank_icp hand p
    rw [run, LoadHas, State.modJob, still]
    simp [IcpJob.fail, begun, load]
  · rw [State.bget, words, if_pos rfl, bit_putBit_same _ _ (by decide)]
  · rw [FieldKept, State.fget, words, if_pos rfl, fld_putBit_apart _ _ (by decide)]
    rfl
  · refine (s.padClear_cleared p).congr (by rw [run]; rfl) (by rw [run]; rfl) (by rw [run]; rfl) ?_ ?_
    · rw [words, if_neg (by unfold aPad; omega)]
      rfl
    · rw [words, if_neg (by unfold aPad; omega)]
      rfl
  · obtain ⟨h1, h2, h3⟩ := not_mem_blankWords ha
    rw [words, if_neg h1, s.loadBlank_rd p h2 h3]
  · rw [run]
    exact s.padClear_rest p

theorem configLoad_asks (begun : j.code = 0) (image : s.imageFor j.img j.pad = true) {m : List (Option Nat)} (spares : s.spareMap j.pad = some m) :
    Completes .configLoad s fun t =>
      let asks := (s.imageUnits j.img).filter fun u => decide (32 * u < s.dramCap)
      LoadHas t j 0 ∧ (t.icp.map fun k => (k.begun, k.wait)) = some (true, j.wait ++ asks) ∧
      (∀ u ∈ asks, (t.chans[s.chanOf (32 * u)].reads.any fun r => r.user == .loader && r.unit == u) = true) ∧
      t.bget (aPad p.val 0x0A) 13 = false ∧ (∀ i < 3, t.rd (aPad p.val (0x20 + i)) = rpmapWord m i) ∧ PadCleared s t p ∧ PadsRest s t p ∧
      WordsKept s t (blankWords p ++ rpmapWords p ++ askWords) := by
  have run : s.loadBegin j = ((s.loadSpared p m).icpAsk j.img).icpHas := by
    rw [State.loadBegin_eq pad, image, spares]
    rfl
  have spared : (s.loadSpared p m).icp = some { j with begun := true } := s.loadBlank_icp hand p
  obtain ⟨frame, ⟨got, asked⟩, reads⟩ := State.icpAsk_spec spared j.img
  obtain ⟨ws, ss, n, has⟩ := State.icpHas_eq asked
  rw [has] at run
  have kept : ∀ {a : Nat}, a ∉ blankWords p → a ∉ rpmapWords p → (s.loadSpared p m).rd a = s.rd a := s.loadSpared_kept p m
  have dramKept : ∀ off < 2, (s.loadSpared p m).rd (aDram off) = s.rd (aDram off) := fun off small =>
    kept (by simp only [blankWords, aDram, aPad, List.mem_cons, List.not_mem_nil, or_false]; omega)
      (by simp only [rpmapWords, aDram, aPad, List.mem_map, List.mem_range]; omega)
  have units : (s.loadSpared p m).imageUnits j.img = s.imageUnits j.img :=
    State.imageUnits_congr (by rw [State.loadSpared_eq, State.loadBlank, State.modJob, State.padClear_eq])
      (by rw [State.loadSpared_eq, State.loadBlank, State.modJob, State.padClear_eq]) (dramKept 0 (by decide)) (dramKept 1 (by decide)) fun w hw =>
      kept (by simp only [blankWords, aImage, aPad, List.mem_cons, List.not_mem_nil, or_false]; omega)
        (by simp only [rpmapWords, aImage, aPad, List.mem_map, List.mem_range]; omega)
  have cap : (s.loadSpared p m).dramCap = s.dramCap := State.dramCap_congr (dramKept 0 (by decide)) (dramKept 1 (by decide))
  have chan : (s.loadSpared p m).chanOf = s.chanOf := State.chanOf_congr (dramKept 0 (by decide))
  rw [units, cap] at asked
  rw [units, cap] at run
  rw [units, cap, chan] at reads
  have words {a : Nat} (ha : a ∉ askWords) : (s.loadBegin j).rd a = (s.loadSpared p m).rd a := by
    rw [run]
    exact frame.words a ha
  have padWord (o : Nat) : aPad p.val o ∉ askWords := by
    rw [mem_askWords]
    simp only [aPad, aChan]
    omega
  have pads : (s.loadBegin j).pads = (s.padClear p).pads := (congrArg State.pads run).trans (frame.pads.trans (s.loadSpared_pads p m))
  have icp := congrArg State.icp run
  have chans := congrArg State.chans run
  dsimp only at icp chans
  refine completes_of_eq (exec_configLoad hand load fresh pad rests) ⟨?_, ?_, fun u hu => ?_, ?_, fun i hi => ?_, ?_, ?_, fun a ha => ?_⟩
  · rw [LoadHas, icp, Option.map_some, begun, load]
  · rw [icp]
    rfl
  · obtain ⟨mem, inside⟩ := List.mem_filter.1 hu
    obtain ⟨r, hr, user, unit⟩ := reads u mem (of_decide_eq_true inside)
    rw [chans, List.any_eq_true]
    exact ⟨r, hr, by simp [user, unit]⟩
  · rw [State.bget, words (padWord _), State.loadSpared_rd, if_neg (by unfold aPad; omega), if_neg (by unfold aPad; omega), if_neg (by unfold aPad; omega),
      State.bset_rd, if_pos rfl, bit_putBit_same _ _ (by decide)]
  · rw [words (padWord _), State.loadSpared_rd]
    rcases (by omega : i = 0 ∨ i = 1 ∨ i = 2) with rfl | rfl | rfl
    · rw [if_neg (by unfold aPad; omega), if_neg (by unfold aPad; omega), if_pos rfl]
    · rw [if_neg (by unfold aPad; omega), if_pos rfl]
    · rw [if_pos rfl]
  · refine (s.padClear_cleared p).congr pads ?_ ?_ ?_ ?_
    · exact (congrArg State.upsets run).trans (frame.upsets.trans (s.loadSpared_upsets p m))
    · exact congrArg RepairSt.bad ((congrArg State.repair run).trans (frame.repair.trans (s.loadSpared_repair p m)))
    all_goals
      rw [words (padWord _), State.loadSpared_rd, if_neg (by unfold aPad; omega), if_neg (by unfold aPad; omega), if_neg (by unfold aPad; omega),
        State.bset_rd, if_neg (by unfold aPad; omega)]
      rfl
  · unfold PadsRest
    rw [pads]
    exact s.padClear_rest p
  · simp only [List.mem_append, not_or] at ha
    rw [words ha.2, kept ha.1.1 ha.1.2]

end

end Sys2Proof.Machine
end
section
/-! The last unit of an image comes (R204). -/

namespace Sys2Proof.Machine

open Safety

section
variable {s t : State}

/-- Of a sound memory a word passes unchanged and whole (R281, R283). -/
theorem State.passWord_sound (sound : Sound s) (a : Nat) : s.passWord a = (s, false) := by
  unfold State.passWord
  rw [State.writeFlip_sound sound (by decide)]
  unfold State.readCheck State.badAt
  rw [sound.1]
  rfl

/-- The run of an image follows from its entry and its key (R202). -/
theorem State.imageRunBy_congr {img : Nat} (entry : ∀ w < 3, t.rd (aImage img w) = s.rd (aImage img w)) (keys : t.keys = s.keys) (v : DramView) :
    t.imageRunBy v img = s.imageRunBy v img := by
  simp only [State.imageRunBy, entry 0 (by decide), entry 1 (by decide), entry 2 (by decide), keys]

/-- A read that returns good, of a unit without check bits, leaves its channel and is handed to its requester (R137). -/
theorem State.complete_good (s : State) (c : Chan) {r : DRead} (data : r.chk = false) (alone : r.merge = false) (sound : Sound s) :
    s.complete c r .good =
      ({ s.setReads c (s.chans[c].reads.erase r) with clsBytes := vmod s.clsBytes (Fin.ofNat 4 (r.cls - 1)) fun n => n + 32 } : State).handOver r false := by
  have left := Asks.setReads s c (s.chans[c].reads.erase r)
  have still : Sound ({ s.setReads c (s.chans[c].reads.erase r) with clsBytes := vmod s.clsBytes (Fin.ofNat 4 (r.cls - 1)) fun n => n + 32 } : State) :=
    sound_of_words sound rfl fun k hk => left.words _ (by rw [mem_askWords]; simp only [aRegion, aChan]; omega)
  unfold State.complete
  dsimp only
  rw [data, alone]
  have clean : (s.setReads c (s.chans[c].reads.erase r)).countCheck c r.unit (checkOutcome .good (s.checkAddr (32 * r.unit)).isSome s.linkEcc) =
      s.setReads c (s.chans[c].reads.erase r) := rfl
  rw [clean]
  change (if false = true then _ else if false = true then _ else _) = _
  rw [if_neg (by decide), if_neg (by decide)]
  have passed := State.passWord_sound still (tagWord c.val r.no)
  exact congrArg (fun e : State × Bool => e.1.handOver r (false || e.2)) passed

theorem dramReadComplete_loader {j : IcpJob} {c : Chan} {r : DRead} (hand : s.icp = some j) (load : j.op = .load) (last : j.wait = [r.unit])
    (issued : s.chans[c].reads.find? (·.issued) = some r) (data : r.chk = false) (alone : r.merge = false) (user : r.user = .loader) (sound : Sound s) :
    Completes (.dramReadComplete c .good) s fun t =>
      let run := s.imageRunBy ({ j with got := j.got ++ [(r.unit, r.data, false)] } : IcpJob).view j.img
      (t.icp.map fun k => (k.wait, k.words, k.segs, k.total)) = some ([], run.1, run.2, run.1.length) ∧ LoadHas t j j.code ∧ t.pads = s.pads := by
  have start : exec (.dramReadComplete c .good) s = .next (s.complete c r .good) := by
    change execDramReadComplete c .good s = _
    unfold execDramReadComplete
    rw [issued]
  rw [State.complete_good s c data alone sound] at start
  generalize hu : ({ s.setReads c (s.chans[c].reads.erase r) with
    clsBytes := vmod s.clsBytes (Fin.ofNat 4 (r.cls - 1)) fun n => n + 32 } : State) = u at start
  have icp : u.icp = some j := by rw [← hu]; exact hand
  have entry : ∀ w < 3, u.rd (aImage j.img w) = s.rd (aImage j.img w) := fun w hw => by
    rw [← hu]
    exact (Asks.setReads s c _).words _ (by rw [mem_askWords]; simp only [aImage, aChan]; omega)
  let k : IcpJob := { j with wait := [], got := j.got ++ [(r.unit, r.data, false)] }
  have handed : u.handOver r false = ({ u with icp := some k } : State).loadRead k.view := by
    unfold State.handOver
    rw [user]
    dsimp only
    unfold State.loaderUnit
    rw [icp]
    dsimp only
    rw [last, if_pos (by simp), if_pos rfl]
    have hold : u.modJob (fun x => { x with wait := x.wait.erase r.unit, got := x.got ++ [(r.unit, r.data, false)] }) = { u with icp := some k } := by
      rw [State.modJob, icp, Option.map_some, last]
      simp [k]
    rw [hold]
    unfold State.icpHas
    dsimp only
    rw [if_pos (by simp [k, load])]
  have run : u.imageRunBy k.view j.img = s.imageRunBy k.view j.img := State.imageRunBy_congr entry (by rw [← hu]; rfl) _
  have runs : ({ u with icp := some k } : State).imageRunBy k.view j.img = u.imageRunBy k.view j.img := rfl
  refine completes_of_eq (start.trans (congrArg _ handed)) ⟨?_, ?_, by rw [← hu]; rfl⟩
  · change some (_, (({ u with icp := some k } : State).imageRunBy k.view j.img).1, (({ u with icp := some k } : State).imageRunBy k.view j.img).2,
      (({ u with icp := some k } : State).imageRunBy k.view j.img).1.length) = _
    rw [runs, run]
    rfl
  · change some (j.code, j.pad, j.op) = _
    rw [load]

end

end Sys2Proof.Machine
end
section
/-! The records of a run (R192, R193, R205): PAD, FRAMES, BMEM and END. -/

namespace Sys2Proof.Machine

open Safety

/-! ### Words read of a run -/

/-- While every segment's tag is good, words read end no segment badly. -/
theorem useSegs_good {l : List (Nat × Bool)} : ∀ {n : Nat}, (∀ g ∈ l, g.2 = true) → (useSegs n l).2 = true := by
  induction l with
  | nil => exact fun _ => rfl
  | cons g l ih =>
    intro n good
    obtain ⟨k, ok⟩ := g
    unfold useSegs
    split
    · rfl
    · have this : ok = true := good _ List.mem_cons_self
      simp [this, ih fun g hg => good g (List.mem_cons_of_mem _ hg)]

theorem IcpJob.read_good {j : IcpJob} (good : ∀ g ∈ j.segs, g.2 = true) (n : Nat) :
    j.read n = { j with words := j.words.drop n, segs := (useSegs n j.segs).1 } := by
  unfold IcpJob.read
  dsimp only
  rw [useSegs_good good, if_pos rfl]

/-- What a run of words, cut from a list, leaves of a memory. -/
theorem spGet_spWrite_slice (m : List (Nat × Word)) (k : Nat) (l : List Word) {o n : Nat} (inside : o + n ≤ l.length) (i : Nat) :
    spGet zeroW (spWrite zeroW m k ((l.drop o).take n)) i = if k ≤ i ∧ i < k + n then nth 0 l (o + (i - k)) else spGet zeroW m i := by
  have length : ((l.drop o).take n).length = n := by simp; omega
  rw [spGet_spWrite]
  split
  next here =>
    rw [length] at here
    rw [if_pos here, List.getElem_take, List.getElem_drop, nth, List.getD_eq_getElem _ _ (by omega)]
  next out =>
    rw [length] at out
    rw [if_neg out]

/-! ### Frames -/

section
variable {s t : State} {p : Pad}

/-- k frames of paddock p from f have been written with the words of body (R184, R192). -/
structure FramesIn (s t : State) (p : Pad) (f k : Nat) (body : List Word) : Prop where
  only : t = { s with ws := t.ws, pads := t.pads, upsets := t.upsets }
  own : t.pads[p] = { s.pads[p] with cfg := t.pads[p].cfg }
  cfg : ∀ i, spGet zeroW t.pads[p].cfg i = if 96 * f ≤ i ∧ i < 96 * (f + k) then nth 0 body (i - 96 * f) else spGet zeroW s.pads[p].cfg i
  rest : PadsRest s t p
  words : WordsKept s t [aPad p.val 0x0C]
  design : f ≤ 797 → 797 < f + k → t.rd (aPad p.val 0x0C) = nth 0 body (96 * (797 - f))
  upsets : t.upsets = s.upsets.filter fun u => !(u.pad == p && decide (f ≤ u.frame.val ∧ u.frame.val < f + k))

theorem FramesIn.none (s : State) (p : Pad) (f : Nat) (body : List Word) : FramesIn s s p f 0 body where
  only := rfl
  own := rfl
  cfg i := (if_neg (by omega)).symm
  rest _ _ := rfl
  words _ _ := rfl
  design := by omega
  upsets := by
    refine (List.filter_eq_self.2 fun u _ => ?_).symm
    simp only [Bool.not_eq_true', Bool.and_eq_false_iff, decide_eq_false_iff_not]
    omega

/-- One frame is written: the paddock takes its words, and loses what was wrong in them. -/
theorem State.writeFrame_pads (s : State) (p : Pad) (f : Nat) (ws : List Word) :
    (s.writeFrame p.val f ws).pads = vmod s.pads p fun x => { x with cfg := spWrite zeroW x.cfg (96 * f) ws } := by
  have same : Fin.ofNat 16 p.val = p := Fin.ext (Nat.mod_eq_of_lt p.isLt)
  unfold State.writeFrame State.modPad State.dropUpsets State.designTrack
  rw [same]
  dsimp only
  split <;> rfl

theorem State.writeFrame_upsets (s : State) (p : Pad) (f : Nat) (ws : List Word) :
    (s.writeFrame p.val f ws).upsets = s.upsets.filter fun u => !(u.pad.val == p.val && u.frame.val == f) := by
  unfold State.writeFrame State.modPad State.dropUpsets State.designTrack
  dsimp only
  split <;> rfl

theorem State.writeFrame_eq (s : State) (p : Pad) (f : Nat) (ws : List Word) : s.writeFrame p.val f ws = { s with
    ws := (s.writeFrame p.val f ws).ws
    pads := (s.writeFrame p.val f ws).pads
    upsets := (s.writeFrame p.val f ws).upsets } := by
  unfold State.writeFrame State.modPad State.dropUpsets State.designTrack
  dsimp only
  split <;> rfl

theorem State.writeFrame_rd (s : State) (p : Pad) (f : Nat) (ws : List Word) (a : Nat) : (s.writeFrame p.val f ws).rd a =
    if f = 797 ∧ a = aPad p.val 0x0C then spGet zeroW (spWrite zeroW s.pads[p].cfg (96 * f) ws) (96 * f) else s.rd a := by
  have same : Fin.ofNat 16 p.val = p := Fin.ext (Nat.mod_eq_of_lt p.isLt)
  unfold State.writeFrame
  rw [same]
  dsimp only
  split
  next last =>
    unfold State.designTrack
    rw [State.rd_wr, State.pad_of_lt]
    have own : ((s.modPad p fun x => { x with cfg := spWrite zeroW x.cfg (96 * f) ws }).dropUpsets p.val fun u => u.frame.val == f).pads[p] =
        { s.pads[p] with cfg := spWrite zeroW s.pads[p].cfg (96 * f) ws } := getElem_vmod_same _ _ _
    rw [own]
    by_cases here : a = aPad p.val 0x0C
    · rw [if_pos here, if_pos ⟨last, here⟩, last]
      rfl
    · rw [if_neg here, if_neg fun h => here h.2]
      rfl
  next other =>
    rw [if_neg fun h => other h.1]
    rfl

theorem FramesIn.next {f k : Nat} {body : List Word} (h : FramesIn s t p f k body) (long : 96 * (k + 1) ≤ body.length) :
    FramesIn s (t.writeFrame p.val (f + k) ((body.drop (96 * k)).take 96)) p f (k + 1) body := by
  have pads := t.writeFrame_pads p (f + k) ((body.drop (96 * k)).take 96)
  have slice := spGet_spWrite_slice t.pads[p].cfg (96 * (f + k)) body (o := 96 * k) (n := 96) (by omega)
  have own : (t.writeFrame p.val (f + k) ((body.drop (96 * k)).take 96)).pads[p] =
      { t.pads[p] with cfg := spWrite zeroW t.pads[p].cfg (96 * (f + k)) ((body.drop (96 * k)).take 96) } := by
    rw [pads]
    exact getElem_vmod_same _ _ _
  refine ⟨?_, ?_, fun i => ?_, fun o ne => ?_, fun a ha => ?_, fun low high => ?_, ?_⟩
  · rw [State.writeFrame_eq, h.only]
  · rw [own, h.own]
  · rw [own]
    dsimp only
    rw [slice]
    split
    · rw [if_pos (by omega), show 96 * k + (i - 96 * (f + k)) = i - 96 * f by omega]
    · rw [h.cfg]
      by_cases before : 96 * f ≤ i ∧ i < 96 * (f + k)
      · rw [if_pos before, if_pos (by omega)]
      · rw [if_neg before, if_neg (by omega)]
  · rw [pads]
    exact (getElem_vmod_ne _ _ ne).trans (h.rest o ne)
  · rw [State.writeFrame_rd, if_neg fun here => ha (List.mem_singleton.2 here.2)]
    exact h.words a ha
  · rw [State.writeFrame_rd]
    by_cases last : f + k = 797
    · rw [if_pos ⟨last, rfl⟩, slice, if_pos (by omega)]
      congr 1
      omega
    · rw [if_neg fun here => last here.1]
      exact h.design low (by omega)
  · rw [State.writeFrame_upsets, h.upsets, List.filter_filter]
    refine List.filter_congr fun u _ => ?_
    rw [Bool.eq_iff_iff]
    simp only [Bool.and_eq_true, Bool.not_eq_true', Bool.and_eq_false_iff, decide_eq_false_iff_not, beq_eq_false_iff_ne, ne_eq, Fin.ext_iff]
    omega

theorem FramesIn.all {f n : Nat} {body : List Word} (long : 96 * n ≤ body.length) :
    FramesIn s ((List.range n).foldl (fun (t : State) i => t.writeFrame p.val (f + i) ((body.drop (96 * i)).take 96)) s) p f n body := by
  have upTo : ∀ k ≤ n, FramesIn s ((List.range k).foldl (fun (t : State) i => t.writeFrame p.val (f + i) ((body.drop (96 * i)).take 96)) s) p f k body := by
    intro k
    induction k with
    | zero => exact fun _ => .none s p f body
    | succ k ih =>
      intro le
      rw [List.range_succ, List.foldl_append]
      exact (ih (by omega)).next (by omega)
  exact upTo n (Nat.le_refl n)

end

/-! ### The load in hand reads a record -/

section
variable {s : State} {j : IcpJob} {p : Pad}

theorem State.loading_eq (hand : s.icp = some j) (load : j.op = .load) (begun : j.begun = true) (reading : j.ended = false) (whole : j.code = 0)
    (here : j.wait = []) : s.loading = some j := by
  unfold State.loading
  rw [hand]
  simp [load, begun, reading, whole, here]

theorem State.modJob_eq (hand : s.icp = some j) (f : IcpJob → IcpJob) : s.modJob f = { s with icp := some (f j) } := by
  rw [State.modJob, hand]
  rfl

variable (hand : s.icp = some j) (load : j.op = .load) (begun : j.begun = true) (reading : j.ended = false) (whole : j.code = 0) (here : j.wait = [])
  {w : Word} {body : List Word} (words : j.words = w :: body) (pad : j.pad = p.val)
include hand load begun reading whole here words

theorem exec_pad (kind : fld w 23 20 = 0) : exec .pad s = .next { s with icp := some (if fld w 19 0 = 0 then j.read 1 else j.fail 3) } := by
  change execPad s = _
  unfold execPad
  rw [State.loading_eq hand load begun reading whole here]
  dsimp only
  rw [words]
  dsimp only
  rw [if_pos kind, State.modJob_eq hand]

theorem pad_read (good : ∀ g ∈ j.segs, g.2 = true) (kind : fld w 23 20 = 0) (blank : fld w 19 0 = 0) :
    Completes .pad s fun t => LoadHas t j 0 ∧ (t.icp.map (·.words)) = some body ∧ t = { s with icp := t.icp } := by
  refine completes_of_eq (exec_pad hand load begun reading whole here words kind) ⟨?_, ?_, rfl⟩
  · rw [LoadHas, if_pos blank, IcpJob.read_good good, Option.map_some, whole, load]
  · rw [if_pos blank, IcpJob.read_good good, Option.map_some, words]
    rfl

theorem pad_bad (kind : fld w 23 20 = 0) (marked : fld w 19 0 ≠ 0) : Completes .pad s fun t => LoadHas t j 3 ∧ t = { s with icp := t.icp } := by
  refine completes_of_eq (exec_pad hand load begun reading whole here words kind) ⟨?_, rfl⟩
  rw [LoadHas, if_neg marked, IcpJob.fail, if_pos whole, Option.map_some, load]

theorem exec_frames (kind : fld w 23 20 = 1) : exec .frames s = .next (s.framesRecord j (fld w 19 10) (fld w 9 0)) := by
  change execFrames s = _
  unfold execFrames
  rw [State.loading_eq hand load begun reading whole here]
  dsimp only
  rw [words]
  dsimp only
  rw [if_pos kind]

end

end Sys2Proof.Machine
end
section
/-! FRAMES, BMEM and END (R192, R193, R205). -/

namespace Sys2Proof.Machine

open Safety

section
variable {s : State} {j : IcpJob} {p : Pad} (hand : s.icp = some j) (load : j.op = .load) (begun : j.begun = true) (reading : j.ended = false)
  (whole : j.code = 0) (here : j.wait = []) {w : Word} {body : List Word} (words : j.words = w :: body) (pad : j.pad = p.val)

/-- A record of n frames from f names none, one beyond the last or one that has been written. -/
def framesBad (j : IcpJob) (f n : Nat) : Bool := decide (n = 0 ∨ 800 < f + n) || (List.range n).any fun i => j.frames.contains (f + i)

theorem framesBad_iff {f n : Nat} : (n = 0 ∨ 800 < f + n ∨ (((List.range n).map (f + ·)).any fun i => j.frames.contains i) = true) ↔ framesBad j f n = true := by
  rw [framesBad, List.any_map, Bool.or_eq_true, decide_eq_true_eq, or_assoc]
  rfl

/-- The contents of frames are good by themselves. -/
def framesGood (f n : Nat) (body : List Word) : Bool := (List.range n).all fun i => frameGood (f + i) ((body.drop (96 * i)).take 96)

/-- The routes that a record writes are bad. -/
def State.framesRoutes (s : State) (q f n : Nat) (body : List Word) : Bool :=
  decide (f ≤ 793 ∧ 793 < f + n) && s.routesBad q ((body.drop (96 * (793 - f))).take 96)

include hand load begun reading whole here words

theorem frames_refused (kind : fld w 23 20 = 1) (bad : framesBad j (fld w 19 10) (fld w 9 0) = true) :
    Completes .frames s fun t => LoadHas t j 3 ∧ t = { s with icp := t.icp } := by
  have run : s.framesRecord j (fld w 19 10) (fld w 9 0) = { s with icp := some (j.fail 3) } := by
    unfold State.framesRecord
    dsimp only
    rw [if_pos (framesBad_iff.2 bad), State.modJob_eq hand]
  refine completes_of_eq ((exec_frames hand load begun reading whole here words kind).trans (congrArg _ run)) ⟨?_, rfl⟩
  rw [LoadHas, IcpJob.fail, if_pos whole, Option.map_some, load]

theorem frames_short (good : ∀ g ∈ j.segs, g.2 = true) (kind : fld w 23 20 = 1) (named : framesBad j (fld w 19 10) (fld w 9 0) = false)
    (short : body.length < 96 * fld w 9 0) : Completes .frames s fun t => LoadHas t j 7 ∧ t = { s with icp := t.icp } := by
  have tail : j.words.drop 1 = body := by rw [words]; rfl
  have run : s.framesRecord j (fld w 19 10) (fld w 9 0) = { s with icp := some ((j.read (1 + body.length)).fail 7) } := by
    unfold State.framesRecord
    dsimp only
    rw [if_neg (mt framesBad_iff.1 (by simp [named])), tail, if_pos short, State.modJob_eq hand]
  refine completes_of_eq ((exec_frames hand load begun reading whole here words kind).trans (congrArg _ run)) ⟨?_, rfl⟩
  rw [LoadHas, IcpJob.read_good good, IcpJob.fail, if_pos whole, Option.map_some, load]

include pad

theorem frames_written (good : ∀ g ∈ j.segs, g.2 = true) (kind : fld w 23 20 = 1) (named : framesBad j (fld w 19 10) (fld w 9 0) = false)
    (long : 96 * fld w 9 0 ≤ body.length) : Completes .frames s fun t =>
      LoadHas t j (if !framesGood (fld w 19 10) (fld w 9 0) body then 4 else if s.framesRoutes j.pad (fld w 19 10) (fld w 9 0) body then 5 else 0) ∧
      (t.icp.map fun k => (k.words, k.frames)) = some (body.drop (96 * fld w 9 0), j.frames ++ (List.range (fld w 9 0)).map (fld w 19 10 + ·)) ∧
      FramesIn s { t with icp := s.icp } p (fld w 19 10) (fld w 9 0) body := by
  have tail : j.words.drop 1 = body := by rw [words]; rfl
  have written := FramesIn.all (s := s) (p := p) (f := fld w 19 10) long
  generalize hu : (List.range (fld w 9 0)).foldl (fun (t : State) i => t.writeFrame p.val (fld w 19 10 + i) ((body.drop (96 * i)).take 96)) s = u at written
  have still : u.icp = some j := by rw [written.only]; exact hand
  let read : IcpJob := { j.read (1 + 96 * fld w 9 0) with frames := j.frames ++ (List.range (fld w 9 0)).map (fld w 19 10 + ·) }
  let done : IcpJob := if !framesGood (fld w 19 10) (fld w 9 0) body then read.fail 4 else
    if s.framesRoutes j.pad (fld w 19 10) (fld w 9 0) body then read.fail 5 else read
  have run : s.framesRecord j (fld w 19 10) (fld w 9 0) = { u with icp := some done } := by
    unfold State.framesRecord
    dsimp only
    rw [if_neg (mt framesBad_iff.1 (by simp [named])), tail, if_neg (by omega)]
    have contents : ((List.range (fld w 9 0)).any fun i => !frameGood (fld w 19 10 + i) ((body.drop (96 * i)).take 96)) =
        !framesGood (fld w 19 10) (fld w 9 0) body := List.not_all_eq_any_not.symm
    rw [contents, pad, hu, State.modJob_eq still]
    simp only [done, read, State.framesRoutes, pad]
  have code : read.code = 0 := by simp only [read, IcpJob.read_good good, whole]
  have rest : ∀ c, (read.fail c).pad = j.pad ∧ (read.fail c).op = .load ∧ (read.fail c).code = c ∧ (read.fail c).words = read.words ∧
      (read.fail c).frames = read.frames := fun c => by
    rw [IcpJob.fail, if_pos code]
    simp [read, IcpJob.read_good good, load]
  have left : read.words = body.drop (96 * fld w 9 0) := by
    simp only [read, IcpJob.read_good good]
    rw [← tail, List.drop_drop]
  have same : ({ u with icp := s.icp } : State) = u := by rw [hand, ← still]
  refine completes_of_eq ((exec_frames hand load begun reading whole here words kind).trans (congrArg _ run)) ⟨?_, ?_, same.symm ▸ written⟩
  · change some (done.code, done.pad, done.op) = _
    simp only [done]
    split
    · rw [(rest 4).1, (rest 4).2.1, (rest 4).2.2.1]
    · split
      · rw [(rest 5).1, (rest 5).2.1, (rest 5).2.2.1]
      · simp [read, IcpJob.read_good good, load, whole]
  · change some (done.words, done.frames) = _
    simp only [done]
    split
    · rw [(rest 4).2.2.2.1, (rest 4).2.2.2.2, left]
    · split
      · rw [(rest 5).2.2.2.1, (rest 5).2.2.2.2, left]
      · rw [left]

end

/-! ### BMEM -/

/-- With no flip armed, words of a region that are written are good again (R281). -/
theorem State.writeFlips_noFlips {s : State} (none : NoFlips s) {r : Nat} (hr : r < 91) (a n : Nat) :
    (List.range n).foldl (fun (u : State) i => u.writeFlip r (a + i)) s =
      { s with repair := { s.repair with bad := s.repair.bad.filter fun b => !(b.region == r && decide (a ≤ b.addr ∧ b.addr < a + n)) } } := by
  induction n with
  | zero =>
    have all : (s.repair.bad.filter fun b => !(b.region == r && decide (a ≤ b.addr ∧ b.addr < a + 0))) = s.repair.bad :=
      List.filter_eq_self.2 fun b _ => by
        simp only [Bool.not_eq_true', Bool.and_eq_false_iff, decide_eq_false_iff_not]
        omega
    rw [all]
    rfl
  | succ n ih =>
    rw [List.range_succ, List.foldl_append, ih, List.foldl_cons, List.foldl_nil, State.writeFlip]
    have unarmed : ({ s with repair := { s.repair with
        bad := s.repair.bad.filter fun b => !(b.region == r && decide (a ≤ b.addr ∧ b.addr < a + n)) } } : State).bget (aRegion r 3) 23 = false := none r hr
    dsimp only
    rw [unarmed, Bool.false_and, if_neg (by decide), State.healWord]
    dsimp only
    rw [List.filter_filter]
    have both : ∀ b : BadWord, (!(b.region == r && b.addr == a + n) && !(b.region == r && decide (a ≤ b.addr ∧ b.addr < a + n))) =
        !(b.region == r && decide (a ≤ b.addr ∧ b.addr < a + (n + 1))) := fun b => by
      rw [Bool.eq_iff_iff]
      simp only [Bool.and_eq_true, Bool.not_eq_true', Bool.and_eq_false_iff, decide_eq_false_iff_not, beq_eq_false_iff_ne, ne_eq]
      omega
    simp only [both]

section
variable {s : State} {j : IcpJob} {p : Pad} (hand : s.icp = some j) (load : j.op = .load) (begun : j.begun = true) (reading : j.ended = false)
  (whole : j.code = 0) (here : j.wait = []) {w : Word} {body : List Word} (words : j.words = w :: body) (pad : j.pad = p.val)

theorem State.writeBmem_pads (s : State) (p : Pad) (a : Nat) (ws : List Word) :
    (s.writeBmem p a ws).pads = vmod s.pads p fun x => { x with bm := spWrite zeroW x.bm a ws } := by
  obtain ⟨only, -, -⟩ := (s.modPad p fun x => { x with bm := spWrite zeroW x.bm a ws }).writeFlips_spec (r := p.val) (by omega) (List.range ws.length) (a + ·)
  exact congrArg State.pads only

theorem State.writeBmem_icp (s : State) (p : Pad) (a : Nat) (ws : List Word) : (s.writeBmem p a ws).icp = s.icp := by
  obtain ⟨only, -, -⟩ := (s.modPad p fun x => { x with bm := spWrite zeroW x.bm a ws }).writeFlips_spec (r := p.val) (by omega) (List.range ws.length) (a + ·)
  have still := congrArg State.icp only
  exact still

theorem State.writeBmem_noFlips {s : State} (none : NoFlips s) (p : Pad) (a : Nat) (ws : List Word) : s.writeBmem p a ws = { s with
    pads := (s.writeBmem p a ws).pads
    repair := { s.repair with bad := s.repair.bad.filter fun b => !(b.region == p.val && decide (a ≤ b.addr ∧ b.addr < a + ws.length)) } } := by
  have writes := State.writeFlips_noFlips (s := s.modPad p fun x => { x with bm := spWrite zeroW x.bm a ws }) none (r := p.val) (by omega) a ws.length
  have same : s.writeBmem p a ws = _ := writes
  rw [same]
  rfl

include hand load begun reading whole here words

theorem exec_bmem (kind : fld w 23 20 = 2) : exec .bmem s =
    if 95 < fld w 19 0 then .next { s with icp := some (j.fail 3) }
    else if body.length < 1024 then .next { s with icp := some ((j.read (1 + body.length)).fail 7) }
    else .next { s.writeBmem (Fin.ofNat 16 j.pad) (1024 * fld w 6 0) (body.take 1024) with icp := some (j.read 1025) } := by
  change execBmem s = _
  unfold execBmem
  rw [State.loading_eq hand load begun reading whole here]
  dsimp only
  rw [words]
  dsimp only
  rw [if_neg (fun h => h kind), State.modJob_eq hand, State.modJob_eq hand,
    State.modJob_eq ((s.writeBmem_icp (Fin.ofNat 16 j.pad) (1024 * fld w 6 0) (body.take 1024)).trans hand)]

theorem bmem_refused (kind : fld w 23 20 = 2) (beyond : 95 < fld w 19 0) : Completes .bmem s fun t => LoadHas t j 3 ∧ t = { s with icp := t.icp } := by
  refine completes_of_eq ((exec_bmem hand load begun reading whole here words kind).trans (if_pos beyond)) ⟨?_, rfl⟩
  rw [LoadHas, IcpJob.fail, if_pos whole, Option.map_some, load]

theorem bmem_short (good : ∀ g ∈ j.segs, g.2 = true) (kind : fld w 23 20 = 2) (named : fld w 19 0 ≤ 95) (short : body.length < 1024) :
    Completes .bmem s fun t => LoadHas t j 7 ∧ t = { s with icp := t.icp } := by
  refine completes_of_eq ((exec_bmem hand load begun reading whole here words kind).trans ((if_neg (by omega)).trans (if_pos short))) ⟨?_, rfl⟩
  rw [LoadHas, IcpJob.read_good good, IcpJob.fail, if_pos whole, Option.map_some, load]

include pad

theorem bmem_written (good : ∀ g ∈ j.segs, g.2 = true) (kind : fld w 23 20 = 2) (named : fld w 19 0 ≤ 95) (long : 1024 ≤ body.length) :
    Completes .bmem s fun t => LoadHas t j 0 ∧ (t.icp.map (·.words)) = some (body.drop 1024) ∧
      (∀ i < 98304, spGet zeroW t.pads[p].bm i = if i / 1024 = fld w 6 0 then nth 0 body (i % 1024) else spGet zeroW s.pads[p].bm i) ∧
      t.pads[p] = { s.pads[p] with bm := t.pads[p].bm } ∧ PadsRest s t p ∧ (NoFlips s →
        t.repair.bad = (s.repair.bad.filter fun b => !(b.region == p.val && b.addr / 1024 == fld w 6 0)) ∧
        t = { s with icp := t.icp, pads := t.pads, repair := { s.repair with bad := t.repair.bad } }) := by
  have run := (exec_bmem hand load begun reading whole here words kind).trans ((if_neg (by omega)).trans (if_neg (by omega)))
  rw [ofNat_pad pad] at run
  have pads := s.writeBmem_pads p (1024 * fld w 6 0) (body.take 1024)
  have own : (s.writeBmem p (1024 * fld w 6 0) (body.take 1024)).pads[p] =
      { s.pads[p] with bm := spWrite zeroW s.pads[p].bm (1024 * fld w 6 0) (body.take 1024) } := by
    rw [pads]
    exact getElem_vmod_same _ _ _
  refine completes_of_eq run ⟨?_, ?_, fun i _ => ?_, ?_, fun o ne => ?_, fun none => ?_⟩
  · rw [LoadHas, IcpJob.read_good good, Option.map_some, whole, load]
  · rw [IcpJob.read_good good, Option.map_some, words]
    rfl
  · dsimp only
    rw [own]
    have slice := spGet_spWrite_slice s.pads[p].bm (1024 * fld w 6 0) body (o := 0) (n := 1024) (by omega) i
    rw [List.drop_zero] at slice
    dsimp only
    rw [slice]
    by_cases inside : i / 1024 = fld w 6 0
    · rw [if_pos inside, if_pos (by omega), show 0 + (i - 1024 * fld w 6 0) = i % 1024 by omega]
    · rw [if_neg inside, if_neg (by omega)]
  · dsimp only
    rw [own]
  · dsimp only
    rw [pads]
    exact getElem_vmod_ne _ _ ne
  · have writes := State.writeBmem_noFlips none p (1024 * fld w 6 0) (body.take 1024)
    have length : (body.take 1024).length = 1024 := by simp; omega
    have block : ∀ b : BadWord, (!(b.region == p.val && decide (1024 * fld w 6 0 ≤ b.addr ∧ b.addr < 1024 * fld w 6 0 + 1024))) =
        !(b.region == p.val && b.addr / 1024 == fld w 6 0) := fun b => by
      rw [Bool.eq_iff_iff]
      simp only [Bool.not_eq_true', Bool.and_eq_false_iff, decide_eq_false_iff_not, beq_eq_false_iff_ne, ne_eq]
      omega
    simp only [length, block] at writes
    refine ⟨?_, ?_⟩
    · exact congrArg (fun t : State => t.repair.bad) writes
    · rw [writes]

/-! ### END -/

theorem endRecord_read (good : ∀ g ∈ j.segs, g.2 = true) (kind : fld w 23 20 = 3) : Completes .endRecord s fun t => t = { s with icp := t.icp } ∧
    LoadHas t j (if fld w 19 0 ≠ 0 then 3 else if body.any (· != 0) then 7 else if s.pads[p].gmuxBad then 4 else
      if 8 < s.pads[p].wireClocks.length then 6 else 0) ∧
    (LoadHas t j 0 → (t.icp.map fun k => (k.ended, k.words)) = some (true, [])) := by
  have read := IcpJob.read_good good (1 + body.length)
  have run : exec .endRecord s = .next { s with icp := some (if fld w 19 0 ≠ 0 then j.fail 3 else if body.any (· != 0) then j.fail 7 else
      if s.pads[p].gmuxBad then ({ j.read (1 + body.length) with ended := true } : IcpJob).fail 4 else
      if 8 < s.pads[p].wireClocks.length then ({ j.read (1 + body.length) with ended := true } : IcpJob).fail 6 else
      { j.read (1 + body.length) with ended := true }) } := by
    change execEndRecord s = _
    unfold execEndRecord
    rw [State.loading_eq hand load begun reading whole here]
    dsimp only
    rw [words]
    dsimp only
    rw [if_neg (fun h => h kind), State.modJob_eq hand, State.modJob_eq hand]
    simp only [ofNat_pad pad]
    split <;> rfl
  have failed : ∀ (k : IcpJob) (c : Nat), k.code = 0 → k.pad = j.pad → k.op = .load → 0 < c →
      ((k.fail c).code, (k.fail c).pad, (k.fail c).op) = (c, j.pad, IcpOp.load) := fun k c good pad op _ => by
    rw [IcpJob.fail, if_pos good, pad, op]
  have never : ∀ {k : IcpJob} {c : Nat}, (k.code, k.pad, k.op) = (c, j.pad, IcpOp.load) → 0 < c →
      some (k.code, k.pad, k.op) = some (0, j.pad, IcpOp.load) → some (k.ended, k.words) = some (true, []) := fun {k c} has pos zero => by
    simp only [Option.some.injEq, Prod.mk.injEq] at has zero
    omega
  have ended : ({ j.read (1 + body.length) with ended := true } : IcpJob).code = 0 ∧ ({ j.read (1 + body.length) with ended := true } : IcpJob).pad = j.pad ∧
      ({ j.read (1 + body.length) with ended := true } : IcpJob).op = .load := by
    rw [read]
    exact ⟨whole, rfl, load⟩
  refine completes_of_eq run ⟨rfl, ?_⟩
  unfold LoadHas
  dsimp only [Option.map_some]
  split
  · have has := failed j 3 whole rfl load (by decide)
    exact ⟨congrArg some has, never has (by decide)⟩
  · split
    · have has := failed j 7 whole rfl load (by decide)
      exact ⟨congrArg some has, never has (by decide)⟩
    · split
      · have has := failed _ 4 ended.1 ended.2.1 ended.2.2 (by decide)
        exact ⟨congrArg some has, never has (by decide)⟩
      · split
        · have has := failed _ 6 ended.1 ended.2.1 ended.2.2 (by decide)
          exact ⟨congrArg some has, never has (by decide)⟩
        · rw [read]
          refine ⟨?_, fun _ => ?_⟩
          · dsimp only
            rw [whole, load]
          · dsimp only
            rw [words, List.drop_of_length_le (by simp [Nat.add_comm])]

end

end Sys2Proof.Machine
end
section
/-! LOAD_COMPLETE (R148, R209). -/

namespace Sys2Proof.Machine

open Safety

section
variable {s : State} {j : IcpJob} {p : Pad}

/-- With no flip armed, a word of the Gleaner program that is written, is written alone (R218). -/
theorem State.glWrite_noFlips (none : NoFlips s) {i : Nat} (inside : i < 0x2000) (v : Word) :
    s.glWrite i v = { s with ws := (s.glWrite i v).ws, glRef := (s.glWrite i v).glRef, repair := (s.glWrite i v).repair } ∧
      ∀ a, (s.glWrite i v).rd a = if a = aGlProg i then v else s.rd a := by
  have unarmed : NoFlips (s.wr (aGlProg i) v) := fun r hr =>
    (congrArg (bit · 23) (State.rd_wr_ne s v (by simp only [aRegion, aGlProg]; omega))).trans (none r hr)
  obtain ⟨only, -, words⟩ := (s.wr (aGlProg i) v).writeFlip_spec (r := 24) (by decide) i
  have kept := words unarmed
  refine ⟨?_, fun a => ?_⟩
  · unfold State.glWrite
    dsimp only
    rw [only]
    rfl
  · rw [← State.rd_wr, State.rd, State.rd, ← kept]
    rfl

theorem PadSt.cw_congr {x y : PadSt} (cfg : x.cfg = y.cfg) (f w : Nat) : x.cw f w = y.cw f w := by rw [PadSt.cw, cfg, PadSt.cw]

/-- The paddock of a finished load takes its cells' INIT values (R148). -/
def State.loadCells (s : State) (p : Pad) (q : Nat) : State :=
  let sA := s.modPad p fun y => { y with cells := s.pads[p].initCells, pres := s.pads[p].initCells, acted := [], hold := [] }
  sA.modPad p fun y => { y with wprev := sA.wireBits q }

theorem State.loadCells_eq (s : State) (p : Pad) (q : Nat) : s.loadCells p q = { s with pads := (s.loadCells p q).pads } := rfl

theorem State.loadCells_own (s : State) (p : Pad) (q : Nat) : ∃ l, (s.loadCells p q).pads[p] =
    { s.pads[p] with cells := s.pads[p].initCells, pres := s.pads[p].initCells, acted := [], hold := [], wprev := l } := by
  refine ⟨(s.modPad p fun y => { y with cells := s.pads[p].initCells, pres := s.pads[p].initCells, acted := [], hold := [] }).wireBits q, ?_⟩
  unfold State.loadCells State.modPad
  dsimp only
  rw [getElem_vmod_same, getElem_vmod_same]

theorem State.loadCells_rest (s : State) (p : Pad) (q : Nat) : PadsRest s (s.loadCells p q) p := fun _ ne =>
  (getElem_vmod_ne _ _ ne).trans (getElem_vmod_ne _ _ ne)

/-- The registers of a paddock show the load that has ended (R209). -/
def State.loadShown (s : State) (q n img cycles : Nat) : State :=
  let s2 := s.wr (aPad q 1) (putFld (putBit (putBit (s.rd (aPad q 1)) 23 true) 21 (n != 0)) 15 12 n)
  let s3 := (s2.bset (aPad q 1) 22 false).bset (aPad q 0) 23 true
  let s4 := (s3.fset (aPad q 0x0A) 19 14 img).wr (aPad q 0x0B) (wd cycles)
  s4.designTrack q

theorem onlyWords_trans {s t u : State} (first : t = { s with ws := t.ws }) (second : u = { t with ws := u.ws }) : u = { s with ws := u.ws } :=
  second.trans (by rw [first])

theorem State.loadShown_eq (s : State) (q n img cycles : Nat) : s.loadShown q n img cycles = { s with ws := (s.loadShown q n img cycles).ws } := by
  unfold State.loadShown
  extract_lets s2 s3 s4
  have h2 : s2 = { s with ws := s2.ws } := rfl
  have h3 : s3 = { s2 with ws := s3.ws } := rfl
  have h4 : s4 = { s3 with ws := s4.ws } := rfl
  exact onlyWords_trans (onlyWords_trans (onlyWords_trans h2 h3) h4) rfl

theorem State.loadShown_rd (s : State) (p : Pad) (n img cycles a : Nat) : (s.loadShown p.val n img cycles).rd a =
    if a = aPad p.val 0x0C then s.pads[p].cw 797 0 else if a = aPad p.val 0x0B then wd cycles
    else if a = aPad p.val 0x0A then putFld (s.rd (aPad p.val 0x0A)) 19 14 img else if a = aPad p.val 0 then putBit (s.rd (aPad p.val 0)) 23 true
    else if a = aPad p.val 1 then putBit (putFld (putBit (putBit (s.rd (aPad p.val 1)) 23 true) 21 (n != 0)) 15 12 n) 22 false else s.rd a := by
  have h1 : aPad p.val 0x0A ≠ aPad p.val 0 := by unfold aPad; omega
  have h2 : aPad p.val 0x0A ≠ aPad p.val 1 := by unfold aPad; omega
  have h3 : aPad p.val 0 ≠ aPad p.val 1 := by unfold aPad; omega
  unfold State.loadShown State.designTrack
  extract_lets s2 s3 s4
  have own : (s4.pad p.val).cw 797 0 = s.pads[p].cw 797 0 := by rw [State.pad_of_lt]; rfl
  rw [own, State.rd_wr]
  simp only [s4, s3, s2, State.rd_wr, State.fset_rd, State.bset_rd, h1, h2, h3, if_true, if_false]
  split_ifs <;> rfl

theorem State.loadRuns_eq (direct : j.waited = false) : s.loadRuns j = (((s.loadCells (Fin.ofNat 16 j.pad) j.pad).loadShown j.pad
    s.pads[Fin.ofNat 16 j.pad].wireClocks.length j.img (j.total + 304)).glWrite (0x1000 + j.pad) (wd (2 ^ 23 + j.img))).modJob fun y => { y with runs := true } := by
  unfold State.loadRuns
  rw [direct]
  rfl

/-- With no flip armed, a load that has ended writes the registers that show it and the paddock's pointer of the Gleaner (R209, R218). -/
theorem State.loadShown_glWrite (none : NoFlips s) (p : Pad) (n img cycles : Nat) (v : Word) :
    let t := ((s.loadCells p p.val).loadShown p.val n img cycles).glWrite (0x1000 + p.val) v
    (∀ a, t.rd a = if a = aGlProg (0x1000 + p.val) then v else ((s.loadCells p p.val).loadShown p.val n img cycles).rd a) ∧
      t.pads = (s.loadCells p p.val).pads := by
  have shown := (s.loadCells p p.val).loadShown_rd p n img cycles
  have only := (s.loadCells p p.val).loadShown_eq p.val n img cycles
  generalize (s.loadCells p p.val).loadShown p.val n img cycles = u at shown only ⊢
  have unarmed : NoFlips u := fun r hr => by
    have apart : ∀ o, o < 0x40 → aRegion r 3 ≠ aPad p.val o := fun o ho => by simp only [aRegion, aPad]; omega
    rw [State.bget, shown, if_neg (apart _ (by decide)), if_neg (apart _ (by decide)), if_neg (apart _ (by decide)), if_neg (apart _ (by decide)),
      if_neg (apart _ (by decide))]
    exact none r hr
  obtain ⟨written, words⟩ := State.glWrite_noFlips unarmed (i := 0x1000 + p.val) (by omega) v
  refine ⟨words, ?_⟩
  rw [written, only]

variable (hand : s.icp = some j) (load : j.op = .load) (ended : j.ended = true) (whole : j.code = 0) (fresh : j.runs = false) (direct : j.waited = false)
  (pad : j.pad = p.val)
include hand load ended whole fresh direct pad

theorem exec_loadComplete : exec .loadComplete s = .next ((((s.loadCells p p.val).loadShown p.val s.pads[p].wireClocks.length j.img (j.total + 304)).glWrite
    (0x1000 + p.val) (wd (2 ^ 23 + j.img))).modJob fun y => { y with runs := true }) := by
  have run : exec .loadComplete s = .next (s.loadRuns j) := by
    change execLoadComplete s = _
    unfold execLoadComplete
    rw [hand]
    dsimp only
    rw [load, ended, whole, fresh]
    rfl
  rw [run, State.loadRuns_eq direct]
  have same : Fin.ofNat 16 p.val = p := Fin.ext (Nat.mod_eq_of_lt p.isLt)
  simp only [pad, same]

theorem loadComplete_runs (none : NoFlips s) : Completes .loadComplete s fun t => (∀ n : Cell, t.pads[p].cells[n] = CellSt.atInit (s.pads[p].init n.val)) ∧
    t.bget (aPad p.val 1) 23 = true ∧ t.bget (aPad p.val 1) 22 = false ∧ t.bget (aPad p.val 1) 21 = decide (s.pads[p].wireClocks.length ≠ 0) ∧
    t.fget (aPad p.val 1) 15 12 = s.pads[p].wireClocks.length % 16 ∧
    t.bget (aPad p.val 0) 23 = true ∧ t.fget (aPad p.val 0x0A) 19 14 = j.img % 64 ∧ t.fget (aPad p.val 0x0A) 23 20 = s.fget (aPad p.val 0x0A) 23 20 ∧
    t.rd (aPad p.val 0x0B) = wd (j.total + 304) ∧ t.rd (aPad p.val 0x0C) = s.pads[p].cw 797 0 ∧ t.pads[p].hedged = s.pads[p].hedged ∧
    t.pads[p].cfg = s.pads[p].cfg ∧ t.pads[p].bm = s.pads[p].bm ∧ PadsRest s t p ∧
    WordsKept s t [aPad p.val 0, aPad p.val 1, aPad p.val 0x0A, aPad p.val 0x0B, aPad p.val 0x0C, aGlProg (0x1000 + p.val)] := by
  have shown := (s.loadCells p p.val).loadShown_rd p s.pads[p].wireClocks.length j.img (j.total + 304)
  obtain ⟨words, pads⟩ := State.loadShown_glWrite none p s.pads[p].wireClocks.length j.img (j.total + 304) (wd (2 ^ 23 + j.img))
  have run := exec_loadComplete hand load ended whole fresh direct pad
  generalize (s.loadCells p p.val).loadShown p.val s.pads[p].wireClocks.length j.img (j.total + 304) = u at shown words pads run
  generalize hn : s.pads[p].wireClocks.length = n at shown
  generalize u.glWrite (0x1000 + p.val) (wd (2 ^ 23 + j.img)) = v at words pads run
  generalize ht : (v.modJob fun y => { y with runs := true }) = t at run
  have sameWords : ∀ a, t.rd a = v.rd a := fun a => by rw [← ht]; rfl
  have samePads : t.pads = v.pads := by rw [← ht]; rfl
  have padWord : ∀ o, o < 0x40 → aPad p.val o ≠ aGlProg (0x1000 + p.val) := fun o ho => by simp only [aPad, aGlProg]; omega
  have rd (o : Nat) (ho : o < 0x40) : t.rd (aPad p.val o) = u.rd (aPad p.val o) := (sameWords _).trans ((words _).trans (if_neg (padWord o ho)))
  replace pads := samePads.trans pads
  obtain ⟨l, own⟩ := s.loadCells_own p p.val
  rw [← pads] at own
  have ne : ∀ {o q : Nat}, o ≠ q → aPad p.val o ≠ aPad p.val q := fun h => by unfold aPad; omega
  have status : t.rd (aPad p.val 1) = putBit (putFld (putBit (putBit (s.rd (aPad p.val 1)) 23 true) 21 (n != 0)) 15 12 n) 22 false := by
    rw [rd _ (by decide), shown, if_neg (ne (by decide)), if_neg (ne (by decide)), if_neg (ne (by decide)), if_neg (ne (by decide)), if_pos rfl]
    rfl
  have control : t.rd (aPad p.val 0) = putBit (s.rd (aPad p.val 0)) 23 true := by
    rw [rd _ (by decide), shown, if_neg (ne (by decide)), if_neg (ne (by decide)), if_neg (ne (by decide)), if_pos rfl]
    rfl
  have image : t.rd (aPad p.val 0x0A) = putFld (s.rd (aPad p.val 0x0A)) 19 14 j.img := by
    rw [rd _ (by decide), shown, if_neg (ne (by decide)), if_neg (ne (by decide)), if_pos rfl]
    rfl
  refine completes_of_eq run
    ⟨fun m => ?_, ?_, ?_, ?_, ?_, ?_, ?_, ?_, ?_, ?_, ?_, ?_, ?_, ?_, fun a ha => ?_⟩
  · rw [own]
    exact PadSt.initCells_cell _ m
  · rw [State.bget, status, bit_putBit _ _ (by decide), if_neg (by decide), bit_putFld _ _ (by decide), if_neg (by decide),
      bit_putBit _ _ (by decide), if_neg (by decide), bit_putBit_same _ _ (by decide)]
  · rw [State.bget, status, bit_putBit_same _ _ (by decide)]
  · rw [State.bget, status, bit_putBit _ _ (by decide), if_neg (by decide), bit_putFld _ _ (by decide), if_neg (by decide), bit_putBit_same _ _ (by decide)]
    simp [bne, beq_eq_decide]
  · rw [State.fget, status, fld_putBit_apart _ _ (by decide), fld_putFld _ _ (by decide) (by decide)]
    rfl
  · rw [State.bget, control, bit_putBit_same _ _ (by decide)]
  · rw [State.fget, image, fld_putFld _ _ (by decide) (by decide)]
    rfl
  · rw [State.fget, image, fld_putFld_apart _ _ (by decide) (by decide)]
    rfl
  · rw [rd _ (by decide), shown, if_neg (ne (by decide)), if_pos rfl]
  · rw [rd _ (by decide), shown, if_pos rfl]
    obtain ⟨l', own'⟩ := s.loadCells_own p p.val
    have cfg : (s.loadCells p p.val).pads[p].cfg = s.pads[p].cfg := by rw [own']
    rw [PadSt.cw_congr cfg]
  · rw [own]
  · rw [own]
  · rw [own]
  · unfold PadsRest
    rw [pads]
    exact s.loadCells_rest p p.val
  · simp only [List.mem_cons, List.not_mem_nil, or_false, not_or] at ha
    obtain ⟨h0, h1, h2, h3, h4, h5⟩ := ha
    have kept : t.rd a = u.rd a := (sameWords a).trans ((words a).trans (if_neg h5))
    rw [kept, shown, if_neg h4, if_neg h3, if_neg h2, if_neg h0, if_neg h1]
    rfl

end

/-- Settles O56: a load clears its paddock, asks for its run, writes what the records name and nothing else, fails with the codes of R205, and runs the
design that has ended. -/
theorem configurationLoad : Obligations.ConfigurationLoad := by
  intro s j hand load low p x ld rest fails clear words
  have pad : j.pad = p.val := (Nat.mod_eq_of_lt low).symm
  have names : ∀ o, aPad j.pad o = aPad p.val o := fun o => by rw [pad]
  refine ⟨fun fresh closing still closed => exec_configLoad_toEdge hand load fresh pad closing still closed, fun fresh whole rests => ⟨?_, ?_, ?_⟩, ?_, ?_, ?_⟩
  · intro none
    have done := configLoad_failed hand load fresh pad rests whole none
    refine completes_mono done fun t => ?_
    simp only [words, ld, clear, names, pad]
    exact id
  · intro image short
    refine completes_mono (configLoad_unspared hand load fresh pad rests whole image short) fun t => ?_
    simp only [words, ld, clear, names, pad]
    exact id
  · intro m image spares
    refine completes_mono (configLoad_asks hand load fresh pad rests whole image spares) fun t => ?_
    simp only [words, ld, clear, names, pad]
    exact id
  · intro c r begun last issued clean data alone user cls sound
    exact dramReadComplete_loader hand load last issued data alone user sound
  · intro begun reading whole here good w body read only
    refine ⟨pad_read hand load begun reading whole here read good, pad_bad hand load begun reading whole here read, fun kind => ⟨?_, ?_, ?_⟩, ?_, ?_, ?_, ?_⟩
    · exact frames_refused hand load begun reading whole here read kind
    · exact frames_short hand load begun reading whole here read good kind
    · intro named long
      have written := frames_written hand load begun reading whole here read pad good kind named long
      obtain ⟨t, run, code, next, only, own, cfg, others, kept, design, upsets⟩ := written
      have frame : ∀ i < 800, ∀ c < 96, t.pads[p].cw i c =
          if fld w 19 10 ≤ i ∧ i < fld w 19 10 + fld w 9 0 then nth 0 body (96 * (i - fld w 19 10) + c) else x.cw i c := fun i _ c hc => by
        have word := cfg (96 * i + c)
        rw [PadSt.cw, word]
        by_cases inside : fld w 19 10 ≤ i ∧ i < fld w 19 10 + fld w 9 0
        · rw [if_pos inside, if_pos (by omega), show 96 * i + c - 96 * fld w 19 10 = 96 * (i - fld w 19 10) + c by omega]
        · rw [if_neg inside, if_neg (by omega), PadSt.cw]
      have only' : t = { s with ws := t.ws, icp := t.icp, pads := t.pads, upsets := t.upsets } := by
        have only := congrArg (fun u : State => { u with icp := t.icp }) only
        exact only
      have kept' : WordsKept s t [aPad j.pad 0x0C] := by rw [names]; exact kept
      exact ⟨t, run, code, next, frame, own, others, kept', fun low high => by rw [names]; exact design low high, upsets, only'⟩
    · exact bmem_refused hand load begun reading whole here read
    · exact bmem_short hand load begun reading whole here read good
    · intro kind named long
      refine completes_mono (bmem_written hand load begun reading whole here read pad good kind named long) fun t => ?_
      simp only [pad]
      exact id
    · intro kind
      refine completes_mono (endRecord_read hand load begun reading whole here read pad good kind) fun t => ?_
      exact id
  · intro ended whole fresh direct none st
    refine completes_mono (loadComplete_runs hand load ended whole fresh direct pad none) fun t => ?_
    simp only [st, ld, names, pad]
    exact id

end Sys2Proof.Machine
end
section
/-! What a Gleaner round counts and logs (R214, R218, R291). -/

namespace Sys2Proof.Machine

open Safety

/-! ### Event flags -/

/-- Raising a source sets no other source's flag (R361). -/
theorem State.raise_evFlag_ne (s : State) {n m : Nat} (ne : m ≠ n) (hn : n < 64) (hm : m < 64) : (s.raise n).evFlag m = s.evFlag m := by
  have apart : ∀ k < 64, 0x0A0 + 4 * (k / 24) ≠ 0x0E0 + 4 * (n / 3) := fun k hk => by omega
  have flag : ∀ u : State, bit ((u.hwWr (0x0A0 + 4 * (n / 24)) (putBit (u.hwRd (0x0A0 + 4 * (n / 24))) (n % 24) true)).hwRd (0x0A0 + 4 * (m / 24))) (m % 24) =
      bit (u.hwRd (0x0A0 + 4 * (m / 24))) (m % 24) := fun u => by
    rw [State.hwRd_hwWr]
    split
    next same =>
      have group : m / 24 = n / 24 := by omega
      rw [bit_putBit _ _ (by omega), if_neg (by omega), group]
    · rfl
  unfold State.raise
  dsimp only
  split
  · rw [State.evFlag, State.hwRd_hwWr, if_neg (apart m hm), flag]
    rfl
  · rw [State.evFlag, State.msixRequest_hwRd, State.hwRd_hwWr, if_neg (apart m hm), flag]
    rfl

theorem State.evFlag_congr {s t : State} (hw : t.hw = s.hw) (n : Nat) : t.evFlag n = s.evFlag n := by rw [State.evFlag, State.hwRd, hw]; rfl

/-! ### Counters -/

theorem putFld_self (w : Word) {hi lo : Nat} (h : lo ≤ hi) : putFld w hi lo (fld w hi lo) = w := by
  refine BitVec.eq_of_getLsbD_eq fun j _ => ?_
  rw [getLsbD_putFld _ _ h]
  split
  next here =>
    rw [fld_testBit]
    have : lo + (j - lo) = j := by omega
    rw [this]
    simp only [bit, Bool.and_eq_right_iff_imp, decide_eq_true_eq]
    omega
  · rfl

theorem State.incN_rd (s : State) (a hi lo n k : Nat) :
    (s.incN a hi lo n).rd k = if k = a then putFld (s.rd a) hi lo (min (2 ^ (hi + 1 - lo) - 1) (s.fget a hi lo + n)) else s.rd k := by
  unfold State.incN
  exact State.fset_rd _ _ _ _ _ _

/-- Nothing added leaves a counter. -/
theorem State.incN_zero_rd (s : State) (a : Nat) {hi lo : Nat} (h : lo ≤ hi) (k : Nat) : (s.incN a hi lo 0).rd k = s.rd k := by
  rw [State.incN_rd]
  split
  next same =>
    have small := fld_lt (s.rd a) hi lo
    have value : min (2 ^ (hi + 1 - lo) - 1) (s.fget a hi lo + 0) = fld (s.rd a) hi lo := by
      rw [State.fget]
      omega
    rw [value, putFld_self _ h, same]
  · rfl

/-! ### The log (R218) -/

/-- Words of a log of 16 entries of k words, and none else, are written when an entry joins it; the entry stands in it. -/
theorem State.logPut_spec (s : State) (base k : Nat) (kind : Word) {e : List Word} (length : e.length = k) :
    (s.logPut base k kind e).1 = { s with ws := (s.logPut base k kind e).1.ws } ∧
    (∀ a, a < base ∨ base + 16 * k ≤ a → (s.logPut base k kind e).1.rd a = s.rd a) ∧
    ∃ i < 16, ∀ j < k, (s.logPut base k kind e).1.rd (base + k * i + j) = nth 0 e j := by
  have lengths : ∀ x ∈ ((List.range 16).map fun i => spRead wsReset s.ws (base + k * i) k).filter fun x => nth 0 x 0 &&& kind != 0, x.length = k := by
    intro x hx
    obtain ⟨i, -, rfl⟩ := List.mem_map.1 (List.mem_filter.1 hx).1
    exact spRead_length _ _ _ _
  have most : (((List.range 16).map fun i => spRead wsReset s.ws (base + k * i) k).filter fun x => nth 0 x 0 &&& kind != 0).length ≤ 16 := by
    refine (List.length_filter_le _ _).trans ?_
    simp
  unfold State.logPut
  dsimp only
  generalize ((List.range 16).map fun i => spRead wsReset s.ws (base + k * i) k).filter (fun x => nth 0 x 0 &&& kind != 0) = held at lengths most
  -- the entries of the log but the last, which is the new one
  have last : ∃ init : List (List Word), (if held.length < 16 then held ++ [e] else held.take 8 ++ held.drop 9 ++ [e]) = init ++ [e] ∧
      init.length < 16 ∧ ∀ x ∈ init, x.length = k := by
    split
    · exact ⟨held, rfl, ‹_›, lengths⟩
    · refine ⟨held.take 8 ++ held.drop 9, rfl, by simp; omega, fun x hx => lengths x ?_⟩
      rcases List.mem_append.1 hx with h | h
      · exact List.mem_of_mem_take h
      · exact List.mem_of_mem_drop h
  obtain ⟨init, all, few, each⟩ := last
  rw [all]
  have size : init.flatten.length = k * init.length := by
    rw [List.length_flatten, List.map_eq_replicate_iff.2 each, List.sum_replicate, smul_eq_mul, Nat.mul_comm]
  have total : (init ++ [e]).flatten = init.flatten ++ e := by simp
  rw [total]
  have bound : k * init.length + k ≤ 16 * k := by
    have : k * init.length ≤ k * 15 := Nat.mul_le_mul_left _ (by omega)
    omega
  refine ⟨rfl, fun a out => ?_, init.length, few, fun j hj => ?_⟩
  · rw [State.rd, spGet_spWrite, dif_neg (by simp only [List.length_append, size, length]; omega)]
    rfl
  · rw [State.rd, Nat.add_assoc, spGet_spWrite_nth wsReset s.ws base _ (by simp only [List.length_append, size, length]; omega) 0, nth, nth,
      List.getD_append_right _ _ _ _ (by omega), size, Nat.add_sub_cancel_left]

/-! ### Records (R291) -/

/-- A record appended changes records, flash and fuses, and raises at most the integrity event. -/
structure Recorded (s t : State) : Prop where
  only : t = { s with cae := t.cae, flash := t.flash, fuses := t.fuses, hw := t.hw, pcie := t.pcie }
  split : t.cae.split = s.cae.split
  flags : ∀ n < 64, n ≠ 37 → t.evFlag n = s.evFlag n

theorem Recorded.refl (s : State) : Recorded s s := ⟨rfl, rfl, fun _ _ _ => rfl⟩

theorem Recorded.trans {s t u : State} (f : Recorded s t) (g : Recorded t u) : Recorded s u :=
  ⟨g.only.trans (by rw [f.only]), g.split.trans f.split, fun n hn ne => (g.flags n hn ne).trans (f.flags n hn ne)⟩

theorem Recorded.writeRecords (s : State) : Recorded s s.writeRecords := by
  unfold State.writeRecords
  generalize recordRegion s.fuses.drk s.cae.records (s.cae.recGen + 1) = img
  dsimp only
  have numbered : Recorded s { s with cae := { s.cae with recGen := s.cae.recGen + 1 } } := ⟨rfl, rfl, fun _ _ _ => rfl⟩
  have stored : ∀ f, Recorded s { s with cae := { s.cae with recGen := s.cae.recGen + 1 }, flash := f } := fun f => ⟨rfl, rfl, fun _ _ _ => rfl⟩
  split
  · exact stored _
  · exact numbered

theorem Recorded.appendRecord (s : State) (ws : List Word) (toFuse : Bool) : Recorded s (s.appendRecord ws toFuse) := by
  have added : Recorded s { s with cae := { s.cae with records := s.cae.records ++ ws } } := ⟨rfl, rfl, fun _ _ _ => rfl⟩
  have written := added.trans (.writeRecords _)
  unfold State.appendRecord
  generalize ({ s with cae := { s.cae with records := s.cae.records ++ ws } } : State).writeRecords = u at written ⊢
  have raised : Recorded u u.evIntegrity := by
    refine ⟨?_, congrArg _ (State.raise_cae u 37), fun n hn ne => State.raise_evFlag_ne _ ne (by decide) hn⟩
    rw [State.evIntegrity, State.raise_eq]
  have fused : ∀ f : Fuses, Recorded u { u with fuses := f } := fun f => ⟨rfl, rfl, fun _ _ _ => rfl⟩
  dsimp only
  split
  · split
    · exact written.trans (fused _)
    · exact written.trans raised
  · exact written

theorem Recorded.spareRecord (s : State) (u : Upset) : Recorded s (s.spareRecord u) := by
  unfold State.spareRecord
  dsimp only
  split
  · split
    · exact .refl s
    · exact .appendRecord s _ _
  · exact .refl s

/-! ### An upset is logged (R214, R218) -/

/-- An upset has been logged with its kind: t holds the entry, and beside it only records may have been added. -/
structure Logs (s t : State) (u : Upset) (ess : Bool) (kind bits : Nat) : Prop where
  only : t = { s with ws := t.ws, cae := t.cae, flash := t.flash, fuses := t.fuses, hw := t.hw, pcie := t.pcie }
  split : t.cae.split = s.cae.split
  flags : ∀ n < 64, n ≠ 37 → t.evFlag n = s.evFlag n
  words : ∀ a, a < aGl 0x10 ∨ aGl 0x30 ≤ a → t.rd a = s.rd a
  entry : ∃ i < 16, t.rd (aGl (0x10 + 2 * i)) = wd (u.pad.val * 2 ^ 20 + u.frame.val * 2 ^ 10 + u.word.val * 8 + b2n ess * 4 + kind) ∧
    t.rd (aGl (0x11 + 2 * i)) = wd (bits * 2 ^ 19 + fld (s.rd (aGl 3)) 20 2)

theorem Recorded.afterWords {s v t : State} (first : v = { s with ws := v.ws }) (f : Recorded v t) :
    t = { s with ws := t.ws, cae := t.cae, flash := t.flash, fuses := t.fuses, hw := t.hw, pcie := t.pcie } := by
  have ws : t.ws = v.ws := by rw [f.only]
  rw [ws]
  exact f.only.trans (by rw [first])

theorem State.glLog_logs (s : State) (u : Upset) (ess : Bool) (kind : Nat) :
    Logs s (s.glLog u ess kind) u ess kind (if upsetBits u = 1 then upsetBit u else 31) := by
  obtain ⟨only, words, i, hi, entry⟩ := s.logPut_spec (aGl 0x10) 2 3 (e := [wd (u.pad.val * 2 ^ 20 + u.frame.val * 2 ^ 10 + u.word.val * 8 + b2n ess * 4 + kind),
    wd ((if upsetBits u = 1 then upsetBit u else 31) * 2 ^ 19 + fld (s.rd (aGl 3)) 20 2)]) rfl
  unfold State.glLog
  dsimp only
  generalize (s.logPut (aGl 0x10) 2 3 [wd (u.pad.val * 2 ^ 20 + u.frame.val * 2 ^ 10 + u.word.val * 8 + b2n ess * 4 + kind),
    wd ((if upsetBits u = 1 then upsetBit u else 31) * 2 ^ 19 + fld (s.rd (aGl 3)) 20 2)]).1 = v at only words entry ⊢
  have recorded := Recorded.spareRecord v u
  have rd (a : Nat) : (v.spareRecord u).rd a = v.rd a := by rw [recorded.only]; rfl
  refine ⟨recorded.afterWords only, recorded.split.trans (by rw [only]), fun n hn ne => (recorded.flags n hn ne).trans (State.evFlag_congr (by rw [only]) n),
    fun a out => (rd a).trans (words a ?_), i, hi, ?_, ?_⟩
  · simp only [aGl] at out ⊢
    omega
  · rw [rd, show aGl (0x10 + 2 * i) = aGl 0x10 + 2 * i + 0 by simp only [aGl]; omega, entry 0 (by decide)]
    rfl
  · rw [rd, show aGl (0x11 + 2 * i) = aGl 0x10 + 2 * i + 1 by simp only [aGl]; omega, entry 1 (by decide)]
    rfl

/-! ### Flips -/

/-- A configuration word takes an upset's flips (R213). -/
theorem State.flipConfig_eq (s : State) (u : Upset) : s.flipConfig u = { s with ws := (s.flipConfig u).ws, pads := (s.flipConfig u).pads } := by
  unfold State.flipConfig State.designTrack State.modPad
  dsimp only
  split <;> rfl

theorem State.flipConfig_pads (s : State) (u : Upset) : (s.flipConfig u).pads = vmod s.pads u.pad fun x =>
    { x with cfg := spSet zeroW x.cfg (96 * u.frame.val + u.word.val) (spGet zeroW x.cfg (96 * u.frame.val + u.word.val) ^^^ u.mask) } := by
  unfold State.flipConfig State.designTrack State.modPad
  dsimp only
  split <;> rfl

theorem State.flipConfig_rd (s : State) (u : Upset) {a : Nat} (ne : a ≠ aPad u.pad.val 0x0C) : (s.flipConfig u).rd a = s.rd a := by
  unfold State.flipConfig State.designTrack State.modPad
  dsimp only
  split
  · exact State.rd_wr_ne _ _ ne
  · rfl

theorem State.flipConfig_cw (s : State) (u : Upset) (i : Nat) {c : Nat} (hc : c < 96) : (s.flipConfig u).pads[u.pad].cw i c =
    if i = u.frame.val ∧ c = u.word.val then s.pads[u.pad].cw i c ^^^ u.mask else s.pads[u.pad].cw i c := by
  have hw : u.word.val < 96 := u.word.isLt
  rw [State.flipConfig_pads, getElem_vmod_same, PadSt.cw, PadSt.cw, spGet_spSet]
  by_cases here : i = u.frame.val ∧ c = u.word.val
  · rw [if_pos (by omega), if_pos here, here.1, here.2]
  · rw [if_neg (by omega), if_neg here]

theorem State.flipConfig_rest (s : State) (u : Upset) {o : Pad} (ne : o ≠ u.pad) : (s.flipConfig u).pads[o] = s.pads[o] := by
  rw [State.flipConfig_pads]
  exact getElem_vmod_ne _ _ ne

end Sys2Proof.Machine
end
section
/-! A Gleaner round begins, waits and ends (R213, R218). -/

namespace Sys2Proof.Machine

open Safety

/-! ### Copies that agree -/

/-- Copies that agree are their own majority. -/
theorem majority_replicate (w : Word) : majority (Vector.replicate 3 w) = w := by
  simp [majority]

theorem overruled_replicate (w : Word) : overruled (Vector.replicate 3 w) = 0 := by
  have none : ((List.range 24).filter fun i => bit (w ^^^ w) i).length = 0 := by simp [bit]
  unfold overruled
  rw [majority_replicate]
  simp [bit]

/-- The Gleaner at rest in a device without upsets, disagreement or damage (R213). -/
structure AtRest (s : State) : Prop where
  gen : s.fuses.gen = true
  idle : s.gl = GlSt.idle
  upsets : s.upsets = []
  bad : s.repair.bad = []
  gcfg : s.gcfg = Vector.replicate 3 s.gcfgFuse
  gmode : s.gmode = Vector.replicate 3 (putBit 0 23 (s.hostFn 5))
  split : s.cae.split[(5 : Fin 8)].passed = false
  program : ∀ i < 0x1010, s.rd (aGlProg i) = spGet zeroW s.glRef i

section
variable {s : State}

theorem State.splitLate_none {f : Fin 8} (none : s.cae.split[f].passed = false) : s.splitLate f = s := by
  have same : vmod s.cae.split f (fun x => if x.passed then { x.apply 0xFF with passed := false, ref := Option.none } else x) = s.cae.split := by
    refine Vector.ext fun i hi => ?_
    by_cases here : f.val = i
    · subst here
      simp only [vmod, Vector.getElem_set_self]
      rw [if_neg (by simpa using none)]
      rfl
    · rw [vmod, Vector.getElem_set_ne _ _ here]
  rw [State.splitLate, State.modSplit, same]

theorem State.glProgram_whole (bad : s.repair.bad = []) (program : ∀ i < 0x1010, s.rd (aGlProg i) = spGet zeroW s.glRef i) : s.glProgram = s := by
  unfold State.glProgram
  rw [State.readBad_sound bad]
  have same : ((List.range 0x1010).map fun i => s.rd (aGlProg i)) = (List.range 0x1010).map fun i => spGet zeroW s.glRef i :=
    List.map_congr_left fun i hi => program i (List.mem_range.1 hi)
  dsimp only
  rw [if_neg (by decide), same, if_pos rfl]

/-- A round of a Gleaner at rest begins with nothing changed but RUN (R213). -/
theorem AtRest.roundBegin (rest : AtRest s) : ∃ w, (∀ a, spGet wsReset w a = s.rd a) ∧ s.roundBegin = { s with ws := w, gl := { GlSt.idle with run := true } } := by
  let u : State := s.incN (aGl 5) 7 0 0
  have rd (a : Nat) : u.rd a = s.rd a := s.incN_zero_rd _ (by decide) a
  refine ⟨u.ws, rd, ?_⟩
  have counted : ({ s with gcfg := Vector.replicate 3 s.gcfgFuse } : State).incN (aGl 5) 7 0 (overruled s.gcfg + overruled s.gmode) = u := by
    have zero : overruled s.gcfg + overruled s.gmode = 0 := by rw [rest.gcfg, rest.gmode, overruled_replicate, overruled_replicate]
    rw [zero, ← rest.gcfg]
  have begun : ({ u with gmode := Vector.replicate 3 (putBit 0 23 (u.hostFn 5)) } : State) = u := by
    have same : u.gmode = Vector.replicate 3 (putBit 0 23 (u.hostFn 5)) := rest.gmode
    rw [← same]
  unfold State.roundBegin
  dsimp only
  rw [counted, State.splitLate_none (show u.cae.split[(5 : Fin 8)].passed = false from rest.split), begun,
    State.glProgram_whole (show u.repair.bad = [] from rest.bad) fun i hi => (rd _).trans (rest.program i hi)]
  have gl : u.gl = GlSt.idle := rest.idle
  rw [gl]
  rfl

/-! ### A round in progress goes on -/

theorem State.roundGo_waits (n : Nat) (busy : s.icpBusy = true) : s.roundGo (n + 1) = s.roundWaits := by
  rw [State.roundGo, if_pos busy]

theorem State.roundGo_ends (n : Nat) (free : s.icpBusy = false) (none : s.roundNext = none) : s.roundGo (n + 1) = s.roundEnd := by
  rw [State.roundGo, if_neg (by simp [free]), none]

/-- The round after frame number k has been scrubbed. -/
def State.scrubbed (s : State) (k : Nat) : State :=
  let t := s.scrubFrame (bit (majority s.gmode) 23) (Fin.ofNat 16 (k % 12800 / 800)) (k % 800)
  { t with gl := { t.gl with next := k + 1 } }

theorem State.roundGo_scrubs (n : Nat) (free : s.icpBusy = false) {k : Nat} (next : s.roundNext = some k) : s.roundGo (n + 1) = (s.scrubbed k).roundGo n := by
  rw [State.roundGo, if_neg (by simp [free]), next]
  rfl

theorem State.roundNext_none (upsets : s.upsets = []) (late : s.gl.late = []) : s.roundNext = none := by
  unfold State.roundNext
  rw [upsets, late]
  rfl

/-- A round that ends with no late flips (R213). -/
theorem State.roundEnd_eq (late : s.gl.late = []) : s.roundEnd = { s with
    ws := s.roundEnd.ws
    glRound := s.glRound + 1
    gl := { s.gl with run := false, next := 0, skip := [], late := [] } } := by
  unfold State.roundEnd
  rw [late]
  rfl

theorem State.roundEnd_rd (late : s.gl.late = []) (a : Nat) : s.roundEnd.rd a =
    if a = aGl 2 then wd ((s.glRound + 1) % 4 * 2 ^ 21) else if a = aGl 3 then s.rd (aGl 3) + 1 else s.rd a := by
  unfold State.roundEnd
  rw [late]
  simp only [State.strike, List.foldl_nil, State.rd_wr]
  rfl

theorem State.roundWaits_eq (s : State) : s.roundWaits = { s with ws := s.roundWaits.ws } := rfl

theorem State.roundWaits_rd (s : State) (a : Nat) : s.roundWaits.rd a =
    if a = aGl 2 then wd (2 ^ 23 + s.glRound % 4 * 2 ^ 21 + (s.roundNext.getD s.gl.next) % 12800 / 800 * 2 ^ 17 + (s.roundNext.getD s.gl.next) % 12800 % 800 * 2 ^ 7)
    else s.rd a := by
  unfold State.roundWaits
  exact State.rd_wr _ _ _ _

/-- What GSTAT shows of a round that has ended. -/
theorem fld_endedStat (n : Nat) : fld (wd (n % 4 * 2 ^ 21)) 22 21 = n % 4 ∧ bit (wd (n % 4 * 2 ^ 21)) 23 = false := by
  have cases : ∀ k < 4, fld (wd (k * 2 ^ 21)) 22 21 = k ∧ bit (wd (k * 2 ^ 21)) 23 = false := by decide
  exact cases _ (Nat.mod_lt _ (by decide))

theorem wd_toNat (n : Nat) : (wd n).toNat = n % 2 ^ 24 := BitVec.toNat_ofNat _ _

/-- What GSTAT shows of a round that waits. -/
theorem fld_waitsStat {n q f : Nat} (hq : q < 16) (hf : f < 800) : fld (wd (2 ^ 23 + n % 4 * 2 ^ 21 + q * 2 ^ 17 + f * 2 ^ 7)) 22 21 = n % 4 ∧
    bit (wd (2 ^ 23 + n % 4 * 2 ^ 21 + q * 2 ^ 17 + f * 2 ^ 7)) 23 = true := by
  have value : (wd (2 ^ 23 + n % 4 * 2 ^ 21 + q * 2 ^ 17 + f * 2 ^ 7)).toNat = 2 ^ 23 + n % 4 * 2 ^ 21 + q * 2 ^ 17 + f * 2 ^ 7 := by
    rw [wd_toNat]
    omega
  constructor
  · rw [fld, nbits, value, Nat.shiftRight_eq_div_pow]
    omega
  · rw [bit, BitVec.getLsbD, value, Nat.testBit_eq_decide_div_mod_eq]
    simp only [decide_eq_true_eq]
    omega

theorem State.roundWaits_shows (s : State) : s.roundWaits.fget (aGl 2) 22 21 = s.glRound % 4 ∧ s.roundWaits.bget (aGl 2) 23 = true := by
  rw [State.fget, State.bget, State.roundWaits_rd, if_pos rfl]
  exact fld_waitsStat (by omega) (by omega)

theorem State.roundRun_eq (whole : (s.roundGo (s.upsets.length + s.gl.late.length + 1)).gl.due = false) :
    s.roundRun = s.roundGo (s.upsets.length + s.gl.late.length + 1) := by
  unfold State.roundRun
  dsimp only
  rw [whole]
  simp

/-- Flips that have hit join a round in progress. -/
def State.roundHit (s : State) (now later : List Upset) : State :=
  { s.strike now with gl := { (s.strike now).gl with late := (s.strike now).gl.late ++ later } }

theorem exec_gleanerRound_off (off : s.fuses.gen = false) (ups : List Upset) : exec (.gleanerRound ups) s = .next s := by
  change execGleanerRound ups s = _
  rw [execGleanerRound, off]
  rfl

/-- A round that comes due while another runs is counted in LATE (R213). -/
theorem exec_gleanerRound_late (on : s.fuses.gen = true) (running : s.gl.run = true) : exec (.gleanerRound []) s = .next
    { s.inc (aGl 5) 23 16 with gl := { s.gl with due := true } } := by
  have same : ({ s with gl := { s.gl with late := s.gl.late ++ [] } } : State) = s := by rw [List.append_nil]
  have run : s.glRoundGo [] = if s.gl.run then
      { ({ s with gl := { s.gl with late := s.gl.late ++ [] } } : State).inc (aGl 5) 23 16 with gl := { s.gl with late := s.gl.late ++ [], due := true } }
      else (({ s.roundBegin with gl := { s.roundBegin.gl with late := s.roundBegin.gl.late ++ [] } } : State).roundRun) := rfl
  change execGleanerRound [] s = _
  rw [execGleanerRound, if_pos on, run, if_pos running, same, List.append_nil]

theorem AtRest.exec_round (rest : AtRest s) (ups : List Upset) : exec (.gleanerRound ups) s =
    .next ((s.roundBegin.roundHit ((ups.filter fun u => s.loaded u.pad.val && !s.swapping u.pad.val).partition (·.late)).2
      ((ups.filter fun u => s.loaded u.pad.val && !s.swapping u.pad.val).partition (·.late)).1).roundRun) := by
  have still : s.gl.run = false := by rw [rest.idle]; rfl
  change execGleanerRound ups s = _
  rw [execGleanerRound, if_pos rest.gen, State.glRoundGo]
  dsimp only
  rw [if_neg (by simp [still])]
  rfl

end

end Sys2Proof.Machine
end
section
/-! Rounds of a Gleaner at rest, and its reset (R213, R218). -/

namespace Sys2Proof.Machine

open Safety

section
variable {s t : State}

/-- A round has ended: it counts in HBEAT and ROUND, and GCFG and GMODE are refreshed (R213, R218). -/
def RoundOver (s t : State) : Prop := t.rd (aGl 3) = s.rd (aGl 3) + 1 ∧ t.fget (aGl 2) 22 21 = (s.glRound + 1) % 4 ∧ t.glRound = s.glRound + 1 ∧
  t.gcfg = Vector.replicate 3 s.gcfgFuse ∧ t.gmode = s.gmode ∧ t.gl.run = false ∧ t.bget (aGl 2) 23 = false

theorem roundEnd_over {v : State} (gcfg : s.gcfg = Vector.replicate 3 s.gcfgFuse) (late : v.gl.late = []) (beats : v.rd (aGl 3) = s.rd (aGl 3))
    (round : v.glRound = s.glRound) (config : v.gcfg = s.gcfg) (mode : v.gmode = s.gmode) : RoundOver s v.roundEnd := by
  have only := State.roundEnd_eq late
  have status := State.roundEnd_rd late (aGl 2)
  rw [if_pos rfl, round] at status
  obtain ⟨shown, ended⟩ := fld_endedStat (s.glRound + 1)
  refine ⟨?_, ?_, ?_, ?_, ?_, ?_, ?_⟩
  · rw [State.roundEnd_rd late, if_neg (by decide), if_pos rfl, beats]
  · rw [State.fget, status, shown]
  · rw [only, ← round]
  · rw [only, ← gcfg, ← config]
  · rw [only, ← mode]
  · rw [only]
  · rw [State.bget, status, ended]

/-- While the ICP holds the configuration memory a round that has begun waits (R211, R213). -/
theorem AtRest.round_waits (rest : AtRest s) (busy : s.icpBusy = true) : Completes (.gleanerRound []) s fun t => t.gl.run = true ∧
    t.glRound = s.glRound ∧ t.bget (aGl 2) 23 = true ∧ t.fget (aGl 2) 22 21 = s.glRound % 4 ∧ NoEvent s t ∧ WordsKept s t [aGl 2] ∧
    t = { s with ws := t.ws, gl := { GlSt.idle with run := true } } := by
  obtain ⟨w, same, begins⟩ := rest.roundBegin
  let v : State := { s with ws := w, gl := { GlSt.idle with run := true } }
  have waits : v.roundGo (v.upsets.length + v.gl.late.length + 1) = v.roundWaits := State.roundGo_waits _ busy
  have run : v.roundRun = v.roundWaits := (State.roundRun_eq (by rw [waits]; rfl)).trans waits
  have hit : s.roundBegin.roundHit [] [] = v := by rw [begins]; rfl
  obtain ⟨round, status⟩ := v.roundWaits_shows
  refine completes_of_eq ((rest.exec_round []).trans (congrArg _ ((congrArg State.roundRun hit).trans run))) ⟨rfl, rfl, status, round, ⟨rfl, rfl⟩, fun a ha => ?_, rfl⟩
  rw [State.roundWaits_rd, if_neg (by simpa using ha)]
  exact same a

/-- Without upsets a round changes nothing but what counts it (R213). -/
theorem AtRest.round_quiet (rest : AtRest s) (free : s.icpBusy = false) : Completes (.gleanerRound []) s fun t => RoundOver s t ∧ NoEvent s t ∧
    WordsKept s t [aGl 2, aGl 3] ∧ t = { s with ws := t.ws, glRound := t.glRound } := by
  obtain ⟨w, same, begins⟩ := rest.roundBegin
  let v : State := { s with ws := w, gl := { GlSt.idle with run := true } }
  have ends : v.roundGo (v.upsets.length + v.gl.late.length + 1) = v.roundEnd := State.roundGo_ends _ free (State.roundNext_none rest.upsets rfl)
  have run : v.roundRun = v.roundEnd := (State.roundRun_eq (by rw [ends]; rfl)).trans ends
  have hit : s.roundBegin.roundHit [] [] = v := by rw [begins]; rfl
  have only : v.roundEnd = { v with ws := v.roundEnd.ws, glRound := v.glRound + 1, gl := GlSt.idle } := State.roundEnd_eq rfl
  refine completes_of_eq ((rest.exec_round []).trans (congrArg _ ((congrArg State.roundRun hit).trans run)))
    ⟨roundEnd_over rest.gcfg rfl (same _) rfl rfl rfl, ⟨by rw [only], by rw [only]⟩, fun a ha => ?_, ?_⟩
  · simp only [List.mem_cons, List.not_mem_nil, or_false, not_or] at ha
    rw [State.roundEnd_rd rfl, if_neg ha.1, if_neg ha.2]
    exact same a
  · have idle : ({ s with gl := GlSt.idle } : State) = s := by rw [← rest.idle]
    rw [only]
    exact congrArg (fun u : State => { u with ws := v.roundEnd.ws, glRound := s.glRound + 1 }) idle

/-! ### The Gleaner is reset (R218) -/

/-- The Gleaner has been reset: its fuses are read again, it begins at round 0, and RESETS counts it. -/
def GlReset (s t : State) : Prop := t.glRound = 0 ∧ t.gcfg = Vector.replicate 3 s.gcfgFuse ∧ t.rd (aGl 2) = 0 ∧
  t.fget (aGl 5) 15 8 = min 255 (s.fget (aGl 5) 15 8 + 1) ∧ t.fget (aGl 5) 23 16 = s.fget (aGl 5) 23 16 ∧ t.fget (aGl 5) 7 0 = s.fget (aGl 5) 7 0 ∧
  WordsKept s t [aGl 2, aGl 5]

theorem State.glReset_eq (s : State) : s.glReset = { s with ws := s.glReset.ws, glRound := 0, gcfg := Vector.replicate 3 s.gcfgFuse, gl := GlSt.idle } := rfl

theorem State.glReset_rd (s : State) (a : Nat) : s.glReset.rd a =
    if a = aGl 2 then 0 else if a = aGl 5 then incFld (s.rd (aGl 5)) 15 8 else s.rd a := by
  unfold State.glReset
  rw [State.rd_wr, State.inc_rd]
  rfl

theorem GlReset.of_words {u : State} (words : ∀ a, t.rd a = u.glReset.rd a) (same : ∀ a, u.rd a = s.rd a) (round : t.glRound = 0)
    (config : t.gcfg = Vector.replicate 3 s.gcfgFuse) : GlReset s t := by
  have counts : t.rd (aGl 5) = incFld (s.rd (aGl 5)) 15 8 := by rw [words, State.glReset_rd, if_neg (by decide), if_pos rfl, same]
  refine ⟨round, config, ?_, ?_, ?_, ?_, fun a ha => ?_⟩
  · rw [words, State.glReset_rd, if_pos rfl]
  · rw [State.fget, counts, fld_incFld _ (by decide) (by decide)]
    rfl
  · rw [State.fget, counts, fld_incFld_apart _ (by decide) (by decide)]
    rfl
  · rw [State.fget, counts, fld_incFld_apart _ (by decide) (by decide)]
    rfl
  · simp only [List.mem_cons, List.not_mem_nil, or_false, not_or] at ha
    rw [words, State.glReset_rd, if_neg ha.1, if_neg ha.2, same]

theorem heartbeatTimeout_resets (s : State) : Completes .heartbeatTimeout s fun t => GlReset s t ∧ EventRaised s t 33 [] ∧
    t = { s with ws := t.ws, hw := t.hw, pcie := t.pcie, glRound := 0, gcfg := t.gcfg, gl := GlSt.idle } := by
  have only : s.glReset.evConfig = { s.glReset with hw := s.glReset.evConfig.hw, pcie := s.glReset.evConfig.pcie } := State.raise_eq _ _
  refine completes_of_eq (t := s.glReset.evConfig) rfl ⟨?_, eventRaised_raise rfl (by decide), ?_⟩
  · exact .of_words (u := s) (fun a => State.raise_rd _ _ a) (fun _ => rfl) (by rw [only]; rfl) (by rw [only]; rfl)
  · rw [only]
    rfl

theorem grst_resets {r : Requester} (may : s.mayWrite r (locOf (aGl 4)) = true) : Completes (.grst r) s fun t => GlReset s t ∧ NoEvent s t ∧
    t = { s with ws := t.ws, glRound := 0, gcfg := t.gcfg, gl := GlSt.idle, rfault := false } := by
  have gated : s.gated r (aGl 4) (fun t => t.glReset) = ({ s with rfault := false } : State).glReset := s.gated_of_may rfl may
  refine completes_of_eq (congrArg Host.Outcome.next gated) ⟨?_, ⟨rfl, rfl⟩, rfl⟩
  exact .of_words (u := { s with rfault := false }) (fun _ => rfl) (fun _ => rfl) rfl rfl

theorem grst_faults {r : Requester} (may : s.mayWrite r (locOf (aGl 4)) = false) : Completes (.grst r) s fun t => t.rfault = true ∧
    t.glRound = s.glRound ∧ t.gcfg = s.gcfg := by
  have gated : s.gated r (aGl 4) (fun t => t.glReset) = _ := s.gated_of_not rfl may
  refine completes_of_eq (congrArg Host.Outcome.next gated) ?_
  rw [State.accessFault_eq]
  exact ⟨rfl, rfl, rfl⟩

end

end Sys2Proof.Machine
end
section
/-! Flips hit, and a round scrubs their frame (R213 to R217). -/

namespace Sys2Proof.Machine

open Safety

section
variable {s v : State} {u : Upset}

/-! ### The place of a frame -/

/-- A frame that a round reaches: a flagged one, or one of this round's quarter (R213). -/
def State.reaches (s : State) (u : Upset) : Bool := s.flagged u.pad.val u.frame.val || u.frame.val % 4 == s.glRound % 4

/-- The number of a frame that this round reaches. -/
def State.placeOf (s : State) (u : Upset) : Nat := (if s.flagged u.pad.val u.frame.val then 0 else 12800) + 800 * u.pad.val + u.frame.val

theorem State.placeOf_pad (s : State) (u : Upset) : Fin.ofNat 16 (s.placeOf u % 12800 / 800) = u.pad := by
  have hp : u.pad.val < 16 := u.pad.isLt
  have hf : u.frame.val < 800 := u.frame.isLt
  refine Fin.ext ?_
  rw [Fin.val_ofNat, State.placeOf]
  split <;> omega

theorem State.placeOf_frame (s : State) (u : Upset) : s.placeOf u % 800 = u.frame.val := by
  have hf : u.frame.val < 800 := u.frame.isLt
  rw [State.placeOf]
  split <;> omega

/-- A round of a paddock that it may scrub, with no frame left over, comes to the frames that it reaches. -/
theorem State.roundPlace_eq (loaded : v.loaded u.pad.val = true) (steady : v.swapping u.pad.val = false) (skip : v.gl.skip = []) (again : v.gl.again = []) :
    v.roundPlace u.pad.val u.frame.val = if v.reaches u then some (v.placeOf u) else none := by
  unfold State.roundPlace State.reaches State.placeOf
  rw [loaded, steady, skip, again]
  cases v.flagged u.pad.val u.frame.val
  · by_cases quarter : u.frame.val % 4 = v.glRound % 4
    · simp [quarter, Nat.add_assoc]
    · simp [quarter]
  · simp

/-- Where no frame with upsets has its place ahead, the round has none left. -/
theorem State.roundNext_past (past : ∀ x ∈ v.upsets ++ v.gl.late, ∀ k, v.roundPlace x.pad.val x.frame.val = some k → k < v.gl.next) : v.roundNext = none := by
  have none : ((v.upsets ++ v.gl.late).filterMap fun u => (v.roundPlace u.pad.val u.frame.val).filter fun k => decide (v.gl.next ≤ k)) = [] := by
    rw [List.filterMap_eq_nil_iff]
    intro x hx
    rw [Option.filter_eq_none_iff]
    intro k hk
    have := past x hx k hk
    simp
    omega
  rw [State.roundNext, none]
  rfl

/-! ### Flips hit -/

/-- v is a device at rest, s, with one upset that has hit and late ones still to come, in a round that has begun. -/
structure Struck (s v : State) (u : Upset) (late : List Upset) : Prop where
  only : v = { s with ws := v.ws, pads := v.pads, upsets := [u], gl := { GlSt.idle with run := true, late := late } }
  words : ∀ a, a ≠ aPad u.pad.val 0x0C → v.rd a = s.rd a
  cw : ∀ i, ∀ c < 96, v.pads[u.pad].cw i c = if i = u.frame.val ∧ c = u.word.val then s.pads[u.pad].cw i c ^^^ u.mask else s.pads[u.pad].cw i c
  rest : PadsRest s v u.pad
  closing : v.pads[u.pad].closing = s.pads[u.pad].closing

/-- An upset that has wrong bits of a word or of its frame's CRC. -/
def upsetHits (u : Upset) : Prop := ¬ (u.mask = 0 ∧ u.check = 0 ∧ u.crc = 0)

theorem mergeUpset_nil (hits : upsetHits u) : mergeUpset [] u = [{ u with late := false }] := by
  unfold mergeUpset
  dsimp only [List.find?_nil, List.filter_nil]
  rw [if_neg hits]
  rfl

theorem State.roundHit_one (b : State) (u : Upset) (later : List Upset) : b.roundHit [u] later = { b.flipConfig u with
    upsets := mergeUpset b.upsets u
    gl := { (b.flipConfig u).gl with late := (b.flipConfig u).gl.late ++ later } } := rfl

theorem AtRest.struck (rest : AtRest s) (hits : upsetHits u) (now : u.late = false) (loaded : s.loaded u.pad.val = true) (steady : s.swapping u.pad.val = false)
    {later : List Upset} (late : ∀ x ∈ later, x.late = true ∧ x.pad = u.pad) :
    ∃ v, exec (.gleanerRound (u :: later)) s = .next v.roundRun ∧ Struck s v u later := by
  obtain ⟨w, same, begins⟩ := rest.roundBegin
  let b : State := { s with ws := w, gl := { GlSt.idle with run := true } }
  have live : ((u :: later).filter fun u => s.loaded u.pad.val && !s.swapping u.pad.val) = u :: later := by
    rw [List.filter_eq_self]
    intro x hx
    have pad : x.pad = u.pad := by
      rcases List.mem_cons.1 hx with rfl | hx
      · rfl
      · exact (late x hx).2
    rw [pad, loaded, steady]
    rfl
  have parts : (u :: later).partition (·.late) = (later, [u]) := by
    rw [List.partition_eq_filter_filter]
    have all : later.filter (·.late) = later := List.filter_eq_self.2 fun x hx => (late x hx).1
    have none : later.filter (fun x => !x.late) = [] := List.filter_eq_nil_iff.2 fun x hx => by simp [(late x hx).1]
    have none' : later.filter (not ∘ fun x : Upset => x.late) = [] := none
    rw [List.filter_cons_of_neg (by simp [now]), List.filter_cons_of_pos (by simp [now]), all, none']
  have own : { u with late := false } = u := by rw [← now]
  refine ⟨_, by rw [rest.exec_round, live, parts, begins], ?_, fun a ne => ?_, fun i c hc => ?_, fun o ne => ?_, ?_⟩
  · have flips := State.flipConfig_eq b u
    have merged : mergeUpset b.upsets u = [u] := by rw [show b.upsets = [] from rest.upsets, mergeUpset_nil hits, own]
    have gl : (b.flipConfig u).gl = b.gl := by rw [flips]
    rw [State.roundHit_one, merged, gl, flips]
    rfl
  · exact (State.flipConfig_rd b u ne).trans (same a)
  · exact State.flipConfig_cw b u i hc
  · exact State.flipConfig_rest b u ne
  · have pads := State.flipConfig_pads b u
    change (b.flipConfig u).pads[u.pad].closing = _
    rw [pads, getElem_vmod_same]

section
variable {late : List Upset} (h : Struck s v u late)
include h

theorem Struck.upsets : v.upsets = [u] := by rw [h.only]
theorem Struck.gl : v.gl = { GlSt.idle with run := true, late := late } := by rw [h.only]

theorem Struck.flagged (p f : Nat) : v.flagged p f = s.flagged p f := by
  have program : ∀ i, v.rd (aGlProg i) = s.rd (aGlProg i) := fun i => h.words _ (by simp only [aGlProg, aPad]; omega)
  simp only [State.flagged, State.fget, State.bget, program]

theorem Struck.loaded (p : Nat) : v.loaded p = s.loaded p := by
  simp only [State.loaded, State.bget, h.words (aPad p 1) (by simp only [aPad]; omega)]

theorem Struck.swapping : v.swapping u.pad.val = s.swapping u.pad.val := by
  simp only [State.swapping, State.bget, h.words (aPad u.pad.val 1) (by simp only [aPad]; omega), State.pad_of_lt, h.closing]

theorem Struck.reaches : v.reaches u = s.reaches u := by
  have round : v.glRound = s.glRound := by rw [h.only]
  rw [State.reaches, h.flagged, round, State.reaches]

theorem Struck.roundPlace (loaded : s.loaded u.pad.val = true) (steady : s.swapping u.pad.val = false) :
    v.roundPlace u.pad.val u.frame.val = if s.reaches u then some (v.placeOf u) else none := by
  rw [State.roundPlace_eq (by rw [h.loaded, loaded]) (by rw [h.swapping, steady]) (by rw [h.gl]; rfl) (by rw [h.gl]; rfl), h.reaches]

theorem Struck.essential : v.essential u = s.essential u := by
  have image : ∀ e, v.rd (aImage e 3) = s.rd (aImage e 3) := fun e => h.words _ (by simp only [aImage, aPad]; omega)
  have program : ∀ i, v.rd (aGlProg i) = s.rd (aGlProg i) := fun i => h.words _ (by simp only [aGlProg, aPad]; omega)
  have unit : v.unitNow = s.unitNow := State.unitNow_congr (by rw [h.only]) (by rw [h.only]) (h.words _ (by simp only [aDram, aPad]; omega))
    (h.words _ (by simp only [aDram, aPad]; omega))
  simp only [State.essential, State.maskWord, State.nowBytes, State.fget, h.flagged, image, program, unit]

/-- The round's next frame is that of the upset, where the round reaches it. -/
theorem Struck.roundNext (loaded : s.loaded u.pad.val = true) (steady : s.swapping u.pad.val = false) (reached : s.reaches u = true)
    (same : ∀ x ∈ late, x.pad = u.pad ∧ x.frame = u.frame) : v.roundNext = some (v.placeOf u) := by
  have place := h.roundPlace loaded steady
  rw [reached, if_pos rfl] at place
  have next : v.gl.next = 0 := by rw [h.gl]; rfl
  have each : ∀ x ∈ late, ((v.roundPlace x.pad.val x.frame.val).filter fun k => decide (v.gl.next ≤ k)) = some (v.placeOf u) := fun x hx => by
    obtain ⟨pad, frame⟩ := same x hx
    rw [pad, frame, place, next]
    simp
  have fold : ∀ l : List Upset, (∀ x ∈ l, x ∈ late) →
      (l.filterMap fun u => (v.roundPlace u.pad.val u.frame.val).filter fun k => decide (v.gl.next ≤ k)).foldl (fun m k => some (min k (m.getD k)))
        (some (v.placeOf u)) = some (v.placeOf u) := by
    intro l
    induction l with
    | nil => exact fun _ => rfl
    | cons x l ih =>
      intro all
      rw [List.filterMap_cons_some (f := fun u : Upset => (v.roundPlace u.pad.val u.frame.val).filter fun k => decide (v.gl.next ≤ k)) (each x (all x List.mem_cons_self)), List.foldl_cons, Option.getD_some, Nat.min_self]
      exact ih fun y hy => all y (List.mem_cons_of_mem _ hy)
  unfold State.roundNext
  rw [h.upsets, show v.gl.late = late by rw [h.gl]]
  rw [List.singleton_append, List.filterMap_cons_some (f := fun u : Upset => (v.roundPlace u.pad.val u.frame.val).filter fun k => decide (v.gl.next ≤ k)) (b := v.placeOf u) (by rw [place, next]; simp), List.foldl_cons, Option.getD_none, Nat.min_self]
  exact fold late fun _ hx => hx

theorem Struck.icpBusy : v.icpBusy = s.icpBusy := by rw [h.only]; rfl

/-- A round that does not reach the upset's frame ends with it as it is. -/
theorem Struck.roundRun_missed (none : late = []) (free : s.icpBusy = false) (loaded : s.loaded u.pad.val = true) (steady : s.swapping u.pad.val = false)
    (missed : s.reaches u = false) : v.roundRun = v.roundEnd := by
  have gl := h.gl
  subst none
  have next : v.roundNext = Option.none := State.roundNext_past fun x hx k place => by
    rw [h.upsets, gl, List.append_nil, List.mem_singleton] at hx
    rw [hx, h.roundPlace loaded steady, missed, if_neg (by decide)] at place
    exact absurd place (by simp)
  have ends : v.roundGo (v.upsets.length + v.gl.late.length + 1) = v.roundEnd := State.roundGo_ends _ (by rw [h.icpBusy, free]) next
  refine (State.roundRun_eq ?_).trans ends
  rw [ends, State.roundEnd_eq (by rw [gl])]
  dsimp only
  rw [gl]
  rfl

/-- A round that reaches the upset's frame scrubs it. -/
theorem Struck.roundGo (free : s.icpBusy = false) (loaded : s.loaded u.pad.val = true) (steady : s.swapping u.pad.val = false) (reached : s.reaches u = true)
    (same : ∀ x ∈ late, x.pad = u.pad ∧ x.frame = u.frame) :
    v.roundGo (v.upsets.length + v.gl.late.length + 1) = (v.scrubbed (v.placeOf u)).roundGo (late.length + 1) := by
  have gl := h.gl
  rw [State.roundGo_scrubs _ (by rw [h.icpBusy, free]) (h.roundNext loaded steady reached same), h.upsets, gl]
  rw [List.length_singleton, Nat.add_comm]

/-- The scrub of the upset's frame, in the mode that is voted. -/
theorem Struck.scrubbed (rest : AtRest s) : v.scrubbed (v.placeOf u) = { v.scrubFrame (s.hostFn 5) u.pad u.frame.val with
    gl := { (v.scrubFrame (s.hostFn 5) u.pad u.frame.val).gl with next := v.placeOf u + 1 } } := by
  have mode : v.gmode = Vector.replicate 3 (putBit 0 23 (s.hostFn 5)) := by rw [h.only, ← rest.gmode]
  unfold State.scrubbed
  rw [mode, majority_replicate, bit_putBit_same _ _ (by decide), v.placeOf_pad, v.placeOf_frame]

end

end

end Sys2Proof.Machine
end
section
/-! The outcome of a scrub (R214 to R217). -/

namespace Sys2Proof.Machine

open Safety

section
variable {s v : State} {u : Upset} {late : List Upset}

theorem inFrame_self (u : Upset) : inFrame u.pad u.frame.val u = true := by simp [inFrame]

theorem sameWord_self (u : Upset) : sameWord u u = true := by simp [sameWord]

theorem Logs.upsets {t : State} {ess : Bool} {kind bits : Nat} (l : Logs v t u ess kind bits) : t.upsets = v.upsets := by rw [l.only]
theorem Logs.gl {t : State} {ess : Bool} {kind bits : Nat} (l : Logs v t u ess kind bits) : t.gl = v.gl := by rw [l.only]

/-- The one upset of a frame is logged; flips that hit before the write-back then take place (R215). -/
def State.scrubLogged (v : State) (u : Upset) (kind : Nat) (late : List Upset) : State :=
  ({ v.glLog u (v.essential u) kind with gl := { GlSt.idle with run := true } } : State).strike late

/-- The word is written back, but for one that late flips have changed meanwhile (R214, R215). -/
def State.writeBack (s : State) (u : Upset) (late : List Upset) : State :=
  if late.any (sameWord u) then ({ s with upsets := s.upsets.filter fun x => !(inFrame u.pad u.frame.val x && false), gl := { s.gl with again := (u.pad.val, u.frame.val) :: s.gl.again } } : State).incN (aPad u.pad.val 0x0E) 23 12 0
  else ({ s.flipConfig u with upsets := (s.flipConfig u).upsets.filter fun x => !(inFrame u.pad u.frame.val x && [u].any (sameWord x)) } : State).incN (aPad u.pad.val 0x0E) 23 12 1

/-- A frame has been corrected, and the event follows where it should (R216, R217). -/
def State.corrected (s : State) (u : Upset) (late : List Upset) (event : Bool) : State :=
  if event then (s.writeBack u late).evConfig else s.writeBack u late

/-- A frame that cannot be corrected is repaired by the host, by a reload or by a rewrite (R216, R217). -/
def State.uncorrected (s : State) (u : Upset) (host ess : Bool) : State :=
  let t := s.inc (aPad u.pad.val 0x0E) 11 0
  if host then t.evConfig else if ess then t.evConfig.glReload u.pad else t.icpAdd (newJob .rewrite u.pad.val 0 u.frame.val none)

/-- A frame whose only upset has wrong bits (R214, R216). -/
theorem Struck.scrubFrame (h : Struck s v u late) (wrong : upsetBits u ≠ 0) (same : ∀ x ∈ late, x.pad = u.pad ∧ x.frame = u.frame) (host : Bool) :
    v.scrubFrame host u.pad u.frame.val =
      if u.crc = 0 ∧ upsetBits u = 1 then
        (v.scrubLogged u 1 late).corrected u late (host || v.essential u)
      else (v.scrubLogged u 2 late).uncorrected u host (v.essential u) := by
  have gl := h.gl
  have upsets := h.upsets
  unfold State.scrubFrame
  extract_lets +onlyGivenNames us bad crc lates ess anyEss corr s1 s2 again gl2 s3
  have hus : us = [u] := by simp only [us, upsets, List.filter_cons_of_pos (inFrame_self u), List.filter_nil]
  have hbad : bad = [u] := by simp [bad, hus, wrong]
  have hlates : lates = late := by
    have all : late.filter (inFrame u.pad u.frame.val) = late := List.filter_eq_self.2 fun x hx => by simp [inFrame, same x hx]
    simp only [lates, gl, all]
  have hess : ess = [(u, v.essential u)] := by simp only [ess, hbad, List.map_cons, List.map_nil]
  have hany : anyEss = v.essential u := by simp only [anyEss, hess, List.any_cons, List.any_nil, Bool.or_false]
  have hcrc : crc = u.crc := by simp [crc, hus]
  have hcorr : corr = decide (u.crc = 0 ∧ upsetBits u = 1) := by
    simp only [corr, hcrc, hbad, List.all_cons, List.all_nil, Bool.and_true, Bool.decide_and, beq_eq_decide]
  have hs1 : s1 = v.glLog u (v.essential u) (if corr then 1 else 2) := by simp only [s1, hess, List.foldl_cons, List.foldl_nil]
  have hs2 : s2 = s1 := by simp only [s2, hbad]
  have logs := v.glLog_logs u (v.essential u) (if corr then 1 else 2)
  have kept : s2.gl = { GlSt.idle with run := true, late := late } := by rw [hs2, hs1, logs.gl, gl]
  have rest : late.filter (fun x => !inFrame u.pad u.frame.val x) = [] := List.filter_eq_nil_iff.2 fun x hx => by simp [inFrame, same x hx]
  have hs3 : s3 = v.scrubLogged u (if corr then 1 else 2) late := by
    simp only [s3, again, gl2, hlates, kept, rest]
    rw [hs2, hs1]
    rfl
  rw [if_neg (by simp [hus]), hs3, hany]
  by_cases one : u.crc = 0 ∧ upsetBits u = 1
  · have yes : corr = true := by rw [hcorr, decide_eq_true one]
    rw [if_pos one, if_pos yes, if_pos yes]
    unfold State.corrected State.writeBack
    cases again : late.any (sameWord u)
    · have parts : bad.partition (fun u => lates.any (sameWord u)) = ([], [u]) := by
        rw [List.partition_eq_filter_filter, hbad, hlates]
        simp [again]
      rw [parts]
      rfl
    · have parts : bad.partition (fun u => lates.any (sameWord u)) = ([u], []) := by
        rw [List.partition_eq_filter_filter, hbad, hlates]
        simp [again]
      rw [parts]
      rfl
  · have no : corr = false := by rw [hcorr, decide_eq_false one]
    rw [if_neg one, no, if_neg (by decide)]
    rfl

end

end Sys2Proof.Machine
end
section
/-! A round that has scrubbed the upset's frame ends (R213, R218). -/

namespace Sys2Proof.Machine

open Safety

section
variable {s v t : State} {u : Upset} {late : List Upset}

theorem State.roundPlace_some (s : State) (u : Upset) {k : Nat} (place : s.roundPlace u.pad.val u.frame.val = some k) : k = s.placeOf u := by
  unfold State.roundPlace at place
  unfold State.placeOf
  split at place
  · exact absurd place (by simp)
  · split at place
    next flagged => simpa [flagged] using place.symm
    next plain =>
      split at place
      · simpa [plain, Nat.add_assoc] using place.symm
      · exact absurd place (by simp)

/-- From v to t only what a scrub may change has changed. -/
def ScrubOnly (v t : State) : Prop := t = { v with
  ws := t.ws, cae := t.cae, flash := t.flash, fuses := t.fuses, hw := t.hw, pcie := t.pcie, pads := t.pads, upsets := t.upsets, gl := t.gl }

theorem ScrubOnly.trans {z : State} (f : ScrubOnly v t) (g : ScrubOnly t z) : ScrubOnly v z := by
  unfold ScrubOnly at f g ⊢
  exact g.trans (by rw [f])

theorem Logs.pads {ess : Bool} {kind bits : Nat} (l : Logs v t u ess kind bits) : t.pads = v.pads := by rw [l.only]

theorem Logs.scrubOnly {ess : Bool} {kind bits : Nat} (l : Logs v t u ess kind bits) : ScrubOnly v t := by
  unfold ScrubOnly
  rw [l.pads, l.upsets, l.gl]
  exact l.only

theorem ScrubOnly.flipConfig (s : State) (u : Upset) : ScrubOnly s (s.flipConfig u) := by
  unfold ScrubOnly State.flipConfig State.designTrack State.modPad
  dsimp only
  split <;> rfl

theorem ScrubOnly.raise (s : State) (n : Nat) : ScrubOnly s (s.raise n) := by
  unfold ScrubOnly
  rw [State.raise_ws, State.raise_cae, State.raise_flash, State.raise_fuses, State.raise_pads, State.raise_upsets, State.raise_gl]
  exact State.raise_eq s n

/-- From v to t the frame of upset u has been scrubbed, and the round goes on from there. -/
structure Scrub (v t : State) (u : Upset) : Prop where
  only : ScrubOnly v t
  words : ∀ a, a < aGl 0x10 ∨ aGl 0x30 ≤ a → a ≠ aPad u.pad.val 0x0C → a ≠ aPad u.pad.val 0x0E → t.rd a = v.rd a
  here : ∀ x ∈ t.upsets, x.pad = u.pad ∧ x.frame = u.frame
  gl : ∃ again, t.gl = { GlSt.idle with run := true, again := again }

/-- The configuration event has been raised where it should be (R216, R217). -/
def ConfigEvent (s t : State) (event : Bool) : Prop := (event = true → t.evFlag 33 = true) ∧ (event = false → t.evFlag 33 = s.evFlag 33)

theorem Scrub.flagged (c : Scrub v t u) (p f : Nat) : t.flagged p f = v.flagged p f := by
  have program : ∀ i, t.rd (aGlProg i) = v.rd (aGlProg i) := fun i => c.words _ (by simp only [aGlProg, aGl]; omega)
    (by simp only [aGlProg, aPad]; omega) (by simp only [aGlProg, aPad]; omega)
  simp only [State.flagged, State.fget, State.bget, program]

/-- The state in which the round has gone past frame number k. -/
def State.pastPlace (t : State) (k : Nat) : State := { t with gl := { t.gl with next := k + 1 } }

theorem Scrub.roundNext (c : Scrub v t u) : (t.pastPlace (v.placeOf u)).roundNext = none := by
  obtain ⟨again, gl⟩ := c.gl
  refine State.roundNext_past fun x hx k place => ?_
  have mem : x ∈ t.upsets := by
    have all : (t.pastPlace (v.placeOf u)).upsets ++ (t.pastPlace (v.placeOf u)).gl.late = t.upsets := by
      change t.upsets ++ t.gl.late = t.upsets
      rw [gl]
      exact List.append_nil _
    rwa [all] at hx
  obtain ⟨pad, frame⟩ := c.here x mem
  rw [pad, frame] at place
  have at_ := (t.pastPlace (v.placeOf u)).roundPlace_some u place
  have same : (t.pastPlace (v.placeOf u)).placeOf u = v.placeOf u := by
    have flagged : (t.pastPlace (v.placeOf u)).flagged u.pad.val u.frame.val = v.flagged u.pad.val u.frame.val := c.flagged _ _
    rw [State.placeOf, flagged, State.placeOf]
  change k < v.placeOf u + 1
  omega

/-- The round ends with its frame scrubbed: beside what the scrub has changed, it counts. -/
structure ScrubEnds (s t z : State) : Prop where
  rounds : RoundOver s z
  again : z.gl.again = t.gl.again
  only : z = { t with ws := z.ws, glRound := z.glRound, gl := z.gl }
  words : ∀ a, a ≠ aGl 2 → a ≠ aGl 3 → z.rd a = t.rd a

theorem Struck.ends (h : Struck s v u late) (rest : AtRest s) (free : s.icpBusy = false) (loaded : s.loaded u.pad.val = true)
    (steady : s.swapping u.pad.val = false) (reached : s.reaches u = true) (same : ∀ x ∈ late, x.pad = u.pad ∧ x.frame = u.frame)
    (scrub : v.scrubFrame (s.hostFn 5) u.pad u.frame.val = t) (c : Scrub v t u) : ScrubEnds s t v.roundRun := by
  obtain ⟨again, gl⟩ := c.gl
  have scrubbed : v.scrubbed (v.placeOf u) = t.pastPlace (v.placeOf u) := by rw [h.scrubbed rest, scrub]; rfl
  have busy : (t.pastPlace (v.placeOf u)).icpBusy = false := by
    have icp : t.icp = v.icp := by rw [c.only]
    rw [← free, ← h.icpBusy]
    exact congrArg Option.isSome icp
  have late' : (t.pastPlace (v.placeOf u)).gl.late = [] := by
    change t.gl.late = []
    rw [gl]
    rfl
  have ends : v.roundGo (v.upsets.length + v.gl.late.length + 1) = (t.pastPlace (v.placeOf u)).roundEnd := by
    rw [h.roundGo free loaded steady reached same, scrubbed, State.roundGo_ends _ busy c.roundNext]
  have only := State.roundEnd_eq late'
  have run : v.roundRun = (t.pastPlace (v.placeOf u)).roundEnd := by
    refine (State.roundRun_eq ?_).trans ends
    rw [ends, only]
    change t.gl.due = false
    rw [gl]
    rfl
  have keeps : t.glRound = s.glRound ∧ t.gcfg = s.gcfg ∧ t.gmode = s.gmode := by
    rw [c.only, h.only]
    exact ⟨rfl, rfl, rfl⟩
  obtain ⟨round, config, mode⟩ := keeps
  have beats : t.rd (aGl 3) = s.rd (aGl 3) := by
    rw [c.words _ (by simp only [aGl]; omega) (by simp only [aGl, aPad]; omega) (by simp only [aGl, aPad]; omega), h.words _ (by simp only [aGl, aPad]; omega)]
  rw [run]
  refine ⟨roundEnd_over rest.gcfg late' beats round config mode, ?_, ?_, fun a h2 h3 => ?_⟩
  · rw [only]
    rfl
  · rw [only]
    rfl
  · rw [State.roundEnd_rd late', if_neg h2, if_neg h3]
    rfl

/-! ### What is written back -/

theorem State.scrubLogged_nil (v : State) (u : Upset) (kind : Nat) : v.scrubLogged u kind [] =
    { v.glLog u (v.essential u) kind with gl := { GlSt.idle with run := true } } := rfl

/-- What the log shows of an upset that has been scrubbed. -/
def GlEntry (s t : State) (u : Upset) (word : Nat) (ess : Bool) (kind bits : Nat) : Prop := ∃ i < 16,
  t.rd (aGl (0x10 + 2 * i)) = wd (u.pad.val * 2 ^ 20 + u.frame.val * 2 ^ 10 + word * 8 + b2n ess * 4 + kind) ∧
    t.rd (aGl (0x11 + 2 * i)) = wd (bits * 2 ^ 19 + fld (s.rd (aGl 3)) 20 2)

/-- A state in which words beside the log have been written still shows the entry. -/
theorem GlEntry.kept {word : Nat} {ess : Bool} {kind bits : Nat} {z : State} (e : GlEntry s t u word ess kind bits)
    (words : ∀ a, aGl 0x10 ≤ a → a < aGl 0x30 → z.rd a = t.rd a) : GlEntry s z u word ess kind bits := by
  obtain ⟨i, hi, first, second⟩ := e
  refine ⟨i, hi, ?_, ?_⟩
  · rw [words _ (by simp only [aGl]; omega) (by simp only [aGl]; omega), first]
  · rw [words _ (by simp only [aGl]; omega) (by simp only [aGl]; omega), second]

/-- A wrong bit of a reached frame is corrected, counted and logged (R214, R217). -/
theorem Struck.corrects (h : Struck s v u []) (one : upsetBits u = 1) (crc : u.crc = 0) :
    ∃ t, v.scrubFrame (s.hostFn 5) u.pad u.frame.val = t ∧ Scrub v t u ∧ t.upsets = [] ∧
      (∀ i, ∀ c < 96, t.pads[u.pad].cw i c = s.pads[u.pad].cw i c) ∧ PadsRest s t u.pad ∧
      t.rd (aPad u.pad.val 0x0E) = putFld (s.rd (aPad u.pad.val 0x0E)) 23 12 (min 4095 (s.fget (aPad u.pad.val 0x0E) 23 12 + 1)) ∧
      ConfigEvent s t (s.hostFn 5 || s.essential u) ∧ GlEntry s t u u.word.val (s.essential u) 1 (upsetBit u) := by
  have logs := v.glLog_logs u (v.essential u) 1
  rw [if_pos one] at logs
  have scrub := h.scrubFrame (by omega) (by simp) (s.hostFn 5)
  rw [if_pos ⟨crc, one⟩, State.scrubLogged_nil] at scrub
  generalize v.glLog u (v.essential u) 1 = l at logs scrub
  have ess := h.essential
  let m : State := { l with gl := { GlSt.idle with run := true } }
  let b : State := { m.flipConfig u with upsets := [] }
  let c : State := b.incN (aPad u.pad.val 0x0E) 23 12 1
  have flips := State.flipConfig_eq m u
  have back : m.writeBack u [] = c := by
    have none : ((m.flipConfig u).upsets.filter fun x => !(inFrame u.pad u.frame.val x && [u].any (sameWord x))) = [] := by
      have upsets : (m.flipConfig u).upsets = [u] := by
        rw [flips]
        exact logs.upsets.trans h.upsets
      rw [upsets, List.filter_cons_of_neg (by simp [inFrame_self, sameWord_self]), List.filter_nil]
    rw [State.writeBack, none]
    rfl
  have same : s.hw = v.hw := by rw [h.only]
  have hl : l.evFlag 33 = s.evFlag 33 := (logs.flags 33 (by decide) (by decide)).trans (State.evFlag_congr same.symm 33)
  have hc : c.evFlag 33 = s.evFlag 33 := by
    rw [← hl]
    refine State.evFlag_congr ?_ 33
    change (m.flipConfig u).hw = _
    rw [flips]
  have crd (a : Nat) : c.rd a = if a = aPad u.pad.val 0x0E then
      putFld (b.rd (aPad u.pad.val 0x0E)) 23 12 (min 4095 (b.fget (aPad u.pad.val 0x0E) 23 12 + 1)) else b.rd a := State.incN_rd b _ 23 12 1 a
  have brd {a : Nat} (ha : a ≠ aPad u.pad.val 0x0C) : b.rd a = l.rd a := State.flipConfig_rd m u ha
  have count : b.rd (aPad u.pad.val 0x0E) = s.rd (aPad u.pad.val 0x0E) := by
    rw [brd (by simp only [aPad]; omega), logs.words _ (by simp only [aPad, aGl]; omega), h.words _ (by simp only [aPad]; omega)]
  refine ⟨_, scrub, ?_⟩
  rw [State.corrected, back, ess]
  have facts : ∀ z : State, z = { c with hw := z.hw, pcie := z.pcie } → ScrubOnly c z → ConfigEvent s z (s.hostFn 5 || s.essential u) → Scrub v z u ∧ z.upsets = [] ∧
      (∀ i, ∀ c < 96, z.pads[u.pad].cw i c = s.pads[u.pad].cw i c) ∧ PadsRest s z u.pad ∧
      z.rd (aPad u.pad.val 0x0E) = putFld (s.rd (aPad u.pad.val 0x0E)) 23 12 (min 4095 (s.fget (aPad u.pad.val 0x0E) 23 12 + 1)) ∧
      ConfigEvent s z (s.hostFn 5 || s.essential u) ∧ GlEntry s z u u.word.val (s.essential u) 1 (upsetBit u) := by
    intro z only frame flag
    have zrd (a : Nat) : z.rd a = c.rd a := by rw [only]; rfl
    have zpads : z.pads = (m.flipConfig u).pads := by rw [only]; rfl
    refine ⟨⟨?_, fun a out h1 h2 => ?_, ?_, ⟨[], ?_⟩⟩, by rw [only]; rfl, fun i k hk => ?_, fun o ne => ?_, ?_, flag, ?_⟩
    · have flipped : ScrubOnly m c := (ScrubOnly.flipConfig m u).trans rfl
      exact (logs.scrubOnly.trans (rfl : ScrubOnly l m)).trans (flipped.trans frame)
    · rw [zrd, crd, if_neg h2, brd h1, logs.words a out]
    · rw [only]
      exact fun x hx => absurd hx (List.not_mem_nil)
    · rw [only]
      change (m.flipConfig u).gl = _
      rw [flips]
      rfl
    · rw [zpads, State.flipConfig_cw m u i hk]
      have before : m.pads = v.pads := by
        change l.pads = _
        rw [logs.only]
      rw [before, h.cw i k hk]
      split
      · rw [BitVec.xor_assoc, BitVec.xor_self, BitVec.xor_zero]
      · rfl
    · rw [zpads, State.flipConfig_rest m u ne]
      change l.pads[o] = _
      rw [show l.pads = v.pads by rw [logs.only], h.rest o ne]
    · rw [zrd, crd, if_pos rfl, State.fget, count]
      rfl
    · obtain ⟨i, hi, first, second⟩ := logs.entry
      have beats : v.rd (aGl 3) = s.rd (aGl 3) := h.words _ (by simp only [aGl, aPad]; omega)
      rw [beats] at second
      rw [ess] at first
      refine GlEntry.kept (t := l) ⟨i, hi, first, second⟩ fun a lo hi => ?_
      simp only [aGl] at lo hi
      rw [zrd, crd, if_neg (by simp only [aPad]; omega), brd (by simp only [aPad]; omega)]
  cases event : s.hostFn 5 || s.essential u
  · rw [event] at facts
    exact facts c rfl rfl ⟨fun no => absurd no (by decide), fun _ => hc⟩
  · rw [event] at facts
    exact facts _ (State.raise_eq c 33) (.raise c 33) ⟨fun _ => State.raise_evFlag c (by decide), fun no => absurd no (by decide)⟩

end

end Sys2Proof.Machine
end
section
/-! What a reload or a rewrite of a frame leaves of the round that asks for it (R216). -/

namespace Sys2Proof.Machine

open Safety

/-- The Gleaner's own words, its program, and paddock p's counts of upsets. -/
def GleanWord (p a : Nat) : Prop := 0xC78000 ≤ a ∧ a < 0xC7C000 ∨ a = aPad p 0x0E

/-- From s to t a repair of paddock p has been set going: the round itself is as before. -/
structure Reloads (p : Nat) (s t : State) : Prop where
  words : ∀ a, GleanWord p a → t.rd a = s.rd a
  upsets : t.upsets = s.upsets
  gl : ∃ skip, t.gl = { s.gl with skip := skip }
  flag : s.evFlag 33 = true → t.evFlag 33 = true

section
variable {p : Nat} {s t : State}

theorem Reloads.refl (p : Nat) (s : State) : Reloads p s s := ⟨fun _ _ => rfl, rfl, ⟨_, rfl⟩, id⟩

variable (q : Reloads p s t)
include q

theorem Reloads.trans {u : State} (r : Reloads p t u) : Reloads p s u := by
  obtain ⟨skip, gl⟩ := q.gl
  obtain ⟨skip', gl'⟩ := r.gl
  exact ⟨fun a h => (r.words a h).trans (q.words a h), r.upsets.trans q.upsets, ⟨skip', by rw [gl', gl]⟩, fun h => r.flag (q.flag h)⟩

/-- A change of other state. -/
theorem Reloads.congr {u : State} (ws : u.ws = t.ws := by rfl) (upsets : u.upsets = t.upsets := by rfl) (gl : u.gl = t.gl := by rfl)
    (hw : u.hw = t.hw := by rfl) : Reloads p s u :=
  q.trans ⟨fun a _ => by rw [State.rd, ws]; rfl, upsets, ⟨t.gl.skip, gl⟩, fun h => (State.evFlag_congr hw 33).trans h⟩

theorem Reloads.wr {a : Nat} (out : ¬ GleanWord p a) (v : Word) : Reloads p s (t.wr a v) :=
  q.trans ⟨fun _ h => State.rd_wr_ne _ _ fun e => out (e ▸ h), rfl, ⟨_, rfl⟩, id⟩

theorem Reloads.ite {u : State} {c : Prop} [Decidable c] (r : Reloads p s u) : Reloads p s (if c then u else t) := by
  split <;> assumption

theorem Reloads.foldl {α : Type} {f : State → α → State} {l : List α} (hf : ∀ u x, Reloads p s u → Reloads p s (f u x)) : Reloads p s (l.foldl f t) :=
  List.foldlRecOn l f q fun u hu x _ => hf u x hu

theorem Reloads.raise {n : Nat} (hn : n < 64) : Reloads p s (t.raise n) := by
  refine q.trans ⟨fun a _ => State.raise_rd _ _ _, State.raise_upsets _ _, ⟨_, State.raise_gl _ _⟩, fun h => ?_⟩
  by_cases same : 33 = n
  · subst same
    exact State.raise_evFlag _ hn
  · rw [State.raise_evFlag_ne _ same hn (by decide), h]

theorem Reloads.evHead (h : Head) (kind : Nat) : Reloads p s (t.evHead h.val kind) := by
  have cause : Reloads p s (t.hwWr (if h.val < 6 then 0x0B8 else 0x0BC)
      (putBit (t.hwRd (if h.val < 6 then 0x0B8 else 0x0BC)) (4 * (h.val % 6) + kind) true)) := by
    refine q.trans ⟨fun _ _ => rfl, rfl, ⟨_, rfl⟩, fun set => ?_⟩
    rw [State.evFlag, State.hwRd_hwWr_ne _ _ (by split <;> decide)]
    exact set
  exact cause.raise (by omega)

omit q in
theorem not_gleanWord_aHead (h : Head) {off : Nat} (ho : off < 0x40) : ¬ GleanWord p (aHead h.val off) := by
  have hh : h.val < 8 := h.isLt
  unfold GleanWord aHead aPad
  omega

theorem Reloads.setQueue (h : Head) (l : List QEntry) : Reloads p s (t.setQueue h l) := Reloads.wr q.congr (not_gleanWord_aHead h (by decide)) _

theorem Reloads.dropEntry (h : Head) (i : Nat) : Reloads p s (t.dropEntry h i) := (q.setQueue h _).congr

theorem Reloads.lateOne (h : Head) (e : QEntry) : Reloads p s (t.lateOne h e) := by
  have counted : Reloads p s (t.inc (aHead h.val 0x0D) 23 16) := q.wr (not_gleanWord_aHead h (by decide)) _
  exact ((counted.dropEntry h _).ite counted).ite counted.congr

theorem Reloads.postLate (h : Head) (e : QEntry) : Reloads p s (t.postLate h e) := by
  unfold State.postLate State.lateAll
  exact q.ite (Reloads.ite ((q.foldl fun _ _ r => r.lateOne _ _).evHead _ _) q)

theorem Reloads.post (r : Requester) (h : Head) (w0 w1 w2 w3 : Word) : Reloads p s (t.post r h w0 w1 w2 w3).1 := by
  unfold State.post
  extract_lets e0 code x i g e s0 s1
  split
  · exact q.ite (q.evHead h 1)
  · have queued : Reloads p s s0 := (q.setQueue h _).congr
    obtain ⟨only, words, -⟩ := s0.writeFlips_spec (r := 22) (by decide) (List.range 4) (queueWord h.val i)
    have written : Reloads p s s1 := by
      have upsets : s1.upsets = s0.upsets := by have kept := congrArg State.upsets only; exact kept
      have gl : s1.gl = s0.gl := by have kept := congrArg State.gl only; exact kept
      have hw : s1.hw = s0.hw := by have kept := congrArg State.hw only; exact kept
      refine queued.trans ⟨fun a ha => words a ?_, upsets, ⟨_, gl⟩, fun h => (State.evFlag_congr hw 33).trans h⟩
      unfold GleanWord aPad at ha
      unfold aRegion
      omega
    exact written.postLate h e

/-! ### Swaps that begin (R207, R216) -/

theorem Reloads.bset {a : Nat} (out : ¬ GleanWord p a) (n : Nat) (b : Bool) : Reloads p s (t.bset a n b) := q.wr out _

theorem Reloads.repairsOff (o : Pad) : Reloads p s (t.repairsOff o) := by
  unfold State.repairsOff
  dsimp only
  split
  · exact (Reloads.congr q).ite (Reloads.dropEntry (Reloads.congr q) _ _)
  · exact q.congr

theorem Reloads.glSkip (o : Nat) : Reloads p s (t.glSkip o) := by
  unfold State.glSkip
  split
  · exact q.trans ⟨fun _ _ => rfl, rfl, ⟨o :: t.gl.skip, rfl⟩, id⟩
  · exact q

theorem Reloads.tapsBypass (o : Nat) : Reloads p s (t.tapsBypass o) :=
  q.foldl fun _ h r => r.ite (Reloads.bset (Reloads.congr r) (not_gleanWord_aHead h (by decide)) _ _)

end

/-! ### Jobs of the ICP -/

section
variable {p : Nat} {s t : State}

/-- Reads asked for raise at most the DRAM event (R130). -/
theorem State.dramAsk_evFlag (s : State) (q : DramUser) (u deadline line : Nat) {n : Nat} (hn : n < 64) (ne : n ≠ 34) :
    (s.dramAsk q u deadline line).1.evFlag n = s.evFlag n := by
  have counted : ∀ (l : List Nat) (v : State), (l.foldl (fun (t : State) u => t.inc (aChan (s.chanOf (32 * u)).val 1) 15 8) v).hw = v.hw := fun l v =>
    List.foldlRecOn (motive := fun t : State => t.hw = v.hw) l _ rfl fun _ h _ _ => h
  unfold State.dramAsk
  split
  · unfold State.countOor
    dsimp only
    split
    · rfl
    · exact (State.raise_evFlag_ne _ ne (by decide) hn).trans (State.evFlag_congr (counted _ _) n)
  · refine State.evFlag_congr ?_ n
    unfold State.askUnit State.dramCycle
    dsimp only
    split <;> split <;> (try split) <;> rfl

theorem State.icpAsk_evFlag (s : State) (img : Nat) {n : Nat} (hn : n < 64) (ne : n ≠ 34) : (s.icpAsk img).evFlag n = s.evFlag n :=
  List.foldlRecOn (motive := fun t : State => t.evFlag n = s.evFlag n) (s.imageUnits img) State.icpAskUnit rfl fun t h u _ =>
    ((t.dramAsk_evFlag .loader u 0 0 hn ne).trans h :)

/-- A job that an idle ICP takes up stands in it, and reads may have been asked for. -/
structure TakesJob (s t : State) (op : IcpOp) (pad frame : Nat) : Prop where
  asks : ∃ u, JobFrame u t ∧ u = { s with icp := u.icp }
  job : (t.icp.map fun j => (j.op, j.pad, j.frame)) = some (op, pad, frame)
  flags : ∀ n < 64, n ≠ 34 → t.evFlag n = s.evFlag n

theorem State.icpTake_takes (s : State) (j : IcpJob) : TakesJob s ({ s with icp := some j } : State).icpTake j.op j.pad j.frame := by
  have still : TakesJob s { s with icp := some j } j.op j.pad j.frame := ⟨⟨{ s with icp := some j }, ⟨rfl, fun _ _ => rfl, .refl _⟩, rfl⟩, rfl, fun _ _ _ => rfl⟩
  unfold State.icpTake
  dsimp only
  split
  · have begun : (({ s with icp := some j } : State).modJob fun x => { x with begun := true }).icp = some { j with begun := true } := rfl
    obtain ⟨frame, ⟨got, job⟩, -⟩ := State.icpAsk_spec begun (({ s with icp := some j } : State).fget (aPad j.pad 0x0A) 19 14)
    refine ⟨⟨_, frame, rfl⟩, by rw [job]; rfl, fun n hn ne => (State.icpAsk_evFlag _ _ hn ne).trans rfl⟩
  · exact still

end

end Sys2Proof.Machine
end
section
/-! Frames that a round cannot correct (R216, R217). -/

namespace Sys2Proof.Machine

open Safety

section
variable {p : Nat} {s t : State}

/-! ### A job for the ICP -/

theorem TakesJob.reloads {op : IcpOp} {pad frame : Nat} (f : TakesJob s t op pad frame) (p : Nat) : Reloads p s t := by
  obtain ⟨u, asks, only⟩ := f.asks
  have gl : t.gl = u.gl := by rw [asks.only]
  refine ⟨fun a ha => (asks.words a fun mem => ?_).trans (by rw [only]; rfl), asks.upsets.trans (by rw [only]), ⟨s.gl.skip, gl.trans (by rw [only])⟩,
    fun h => (f.flags 33 (by decide) (by decide)).trans h⟩
  obtain ⟨c, hc, e⟩ := mem_askWords.1 mem
  unfold GleanWord aPad at ha
  unfold aChan at e
  omega

theorem not_gleanWord_aIcpstat : ¬ GleanWord p aIcpstat := by
  unfold GleanWord aPad aIcpstat
  omega

theorem State.icpAdd_idle (j : IcpJob) (idle : s.icp = none) : s.icpAdd j = ({ s with icp := some j } : State).icpTake.bset aIcpstat 23 true := by
  unfold State.icpAdd
  rw [idle]

theorem Reloads.icpAdd (q : Reloads p s t) (j : IcpJob) : Reloads p s (t.icpAdd j) := by
  cases hand : t.icp with
  | none =>
    rw [State.icpAdd_idle j hand]
    exact (q.trans ((t.icpTake_takes j).reloads p)).bset not_gleanWord_aIcpstat _ _
  | some k =>
    unfold State.icpAdd
    rw [hand]
    exact Reloads.bset (Reloads.congr q) not_gleanWord_aIcpstat _ _

theorem Reloads.swapStart (q : Reloads p s t) (o : Pad) (img : Nat) (planned : Bool) (mbox : Option Nat) : Reloads p s (t.swapStart o img planned mbox) := by
  have off := q.repairsOff o
  unfold State.swapStart
  generalize t.repairsOff o = r at off ⊢
  have closed : Reloads p s (r.modPad o fun x => { x with closing := true, planned := planned, repair := none }) := off.congr
  exact ((closed.glSkip o.val).tapsBypass o.val).icpAdd _

theorem Reloads.swapAction (q : Reloads p s t) (o : Pad) (img : Nat) (planned : Bool) (mbox : Option Nat) : Reloads p s (t.swapAction o img planned mbox) := by
  have rejected : Reloads p s (t.inc (aPad o.val 0x0A) 7 0) := q.wr (by unfold GleanWord aPad; omega) _
  have refused : Reloads p s (t.swapReject o) := rejected.raise (by decide)
  unfold State.swapAction
  exact (q.swapStart o img planned mbox).ite refused

theorem Reloads.glReload (q : Reloads p s t) (o : Pad) : Reloads p s (t.glReload o) := by
  unfold State.glReload
  extract_lets a img h
  have posted := q.post (.core 0 0) h (wd (t.fget a 11 0 * 4096)) 0x700000 (wd o.val) (wd img)
  split
  · exact q.swapAction o img false none
  · exact Reloads.ite posted (Reloads.congr posted)

/-- Whether a frame is flagged follows from the Gleaner program (R212, R218). -/
theorem State.flagged_congr {q f : Nat} (hq : q < 16) (hf : f < 800) (program : ∀ i < 0x1010, t.rd (aGlProg i) = s.rd (aGlProg i)) :
    t.flagged q f = s.flagged q f := by
  have pointer : t.fget (aGlProg (0x1000 + q)) 5 0 = s.fget (aGlProg (0x1000 + q)) 5 0 := by rw [State.fget, program _ (by omega), State.fget]
  have small := fld_lt (s.rd (aGlProg (0x1000 + q))) 5 0
  have slot : 0x40 * s.fget (aGlProg (0x1000 + q)) 5 0 + f / 24 < 0x1010 := by
    rw [State.fget]
    omega
  simp only [State.flagged, pointer, State.bget, program _ slot]

end

/-! ### The round goes on after a frame that it cannot correct -/

section
variable {s v l : State} {u x : Upset} {ess : Bool} {kind bits : Nat}

/-- The state that a repair begins from: the frame is logged, and its paddock's UNC has counted it. -/
def State.uncounted (l : State) (u : Upset) : State := ({ l with gl := { GlSt.idle with run := true } } : State).inc (aPad u.pad.val 0x0E) 11 0

/-- The round of s, stopped by frame u, has ended or waits: it shows nothing but what t shows, and where it stands. -/
structure GoesOn (t z : State) : Prop where
  words : ∀ a, a ≠ aGl 2 → a ≠ aGl 3 → z.rd a = t.rd a
  hw : z.hw = t.hw

/-- After the upset's frame a round that has a repair under way ends, or waits for it. -/
theorem Struck.goesOn (h : Struck s v u []) (rest : AtRest s) (free : s.icpBusy = false) (loaded : s.loaded u.pad.val = true)
    (steady : s.swapping u.pad.val = false) (reached : s.reaches u = true) {t : State} (scrub : v.scrubFrame (s.hostFn 5) u.pad u.frame.val = t)
    (upsets : t.upsets = [u]) {skip : List Nat} (gl : t.gl = { GlSt.idle with run := true, skip := skip })
    (program : ∀ i < 0x1010, t.rd (aGlProg i) = v.rd (aGlProg i)) :
    GoesOn t v.roundRun ∧ (t.icpBusy = true → v.roundRun = (t.pastPlace (v.placeOf u)).roundWaits) := by
  have scrubbed : v.scrubbed (v.placeOf u) = t.pastPlace (v.placeOf u) := by rw [h.scrubbed rest, scrub]; rfl
  have go := h.roundGo free loaded steady reached (by simp)
  rw [scrubbed] at go
  have due : ∀ z : State, v.roundGo (v.upsets.length + v.gl.late.length + 1) = z → z.gl.due = false → v.roundRun = z := fun z hz no =>
    (State.roundRun_eq (by rw [hz, no])).trans hz
  cases busy : t.icpBusy with
  | true =>
    have waits : (t.pastPlace (v.placeOf u)).roundGo ([] : List Upset).length.succ = (t.pastPlace (v.placeOf u)).roundWaits := State.roundGo_waits _ busy
    have run := due _ (go.trans waits) (by change t.gl.due = false; rw [gl]; rfl)
    refine ⟨?_, fun _ => run⟩
    rw [run]
    exact ⟨fun a h2 _ => by rw [State.roundWaits_rd, if_neg h2]; rfl, rfl⟩
  | false =>
    have late : (t.pastPlace (v.placeOf u)).gl.late = [] := by
      change t.gl.late = []
      rw [gl]
      rfl
    have next : (t.pastPlace (v.placeOf u)).roundNext = none := State.roundNext_past fun y hy k place => by
      rw [late, List.append_nil] at hy
      obtain rfl : y = u := by
        have mem : y ∈ t.upsets := hy
        rwa [upsets, List.mem_singleton] at mem
      have at_ := (t.pastPlace (v.placeOf y)).roundPlace_some y place
      have flagged : (t.pastPlace (v.placeOf y)).flagged y.pad.val y.frame.val = v.flagged y.pad.val y.frame.val :=
        State.flagged_congr y.pad.isLt y.frame.isLt program
      have same : (t.pastPlace (v.placeOf y)).placeOf y = v.placeOf y := by rw [State.placeOf, flagged, State.placeOf]
      change k < v.placeOf y + 1
      omega
    have ends : (t.pastPlace (v.placeOf u)).roundGo ([] : List Upset).length.succ = (t.pastPlace (v.placeOf u)).roundEnd := State.roundGo_ends _ busy next
    have only := State.roundEnd_eq late
    have run := due _ (go.trans ends) (by rw [only]; change t.gl.due = false; rw [gl]; rfl)
    refine ⟨?_, fun no => absurd no (by decide)⟩
    rw [run]
    refine ⟨fun a h2 h3 => ?_, by rw [only]; rfl⟩
    rw [State.roundEnd_rd late, if_neg h2, if_neg h3]
    rfl

/-- A frame that could not be corrected has been counted in UNC. -/
def Uncorrectable (s t : State) (u : Upset) : Prop := t.fget (aPad u.pad.val 0x0E) 11 0 = min 4095 (s.fget (aPad u.pad.val 0x0E) 11 0 + 1) ∧
  t.fget (aPad u.pad.val 0x0E) 23 12 = s.fget (aPad u.pad.val 0x0E) 23 12

/-- The ICP rewrites the upset's frame, and the round waits for it (R211, R216). -/
def Rewrites (t : State) (u : Upset) : Prop := (t.icp.map fun j => (j.op, j.pad, j.frame)) = some (IcpOp.rewrite, u.pad.val, u.frame.val) ∧
  t.gl.run = true ∧ t.bget (aGl 2) 23 = true

section
variable (h : Struck s v u []) (logs : Logs v l x ess kind bits) (pad : x.pad = u.pad) (frame : x.frame = u.frame)
include h logs

theorem Struck.uncounted_rd (a : Nat) : (l.uncounted u).rd a = if a = aPad u.pad.val 0x0E then incFld (s.rd (aPad u.pad.val 0x0E)) 11 0 else l.rd a := by
  have counted : (l.uncounted u).rd a = if a = aPad u.pad.val 0x0E then incFld (l.rd (aPad u.pad.val 0x0E)) 11 0 else l.rd a := State.inc_rd _ _ _ _ _
  rw [counted, logs.words _ (by simp only [aPad, aGl]; omega), h.words _ (by simp only [aPad]; omega)]

theorem Struck.uncounted_flag : (l.uncounted u).evFlag 33 = s.evFlag 33 := by
  have same : s.hw = v.hw := by rw [h.only]
  have kept : (l.uncounted u).hw = l.hw := rfl
  exact (State.evFlag_congr kept 33).trans ((logs.flags 33 (by decide) (by decide)).trans (State.evFlag_congr same.symm 33))

theorem Struck.uncounted_upsets : (l.uncounted u).upsets = [u] := by
  have kept : (l.uncounted u).upsets = l.upsets := rfl
  rw [kept, logs.upsets, h.upsets]

theorem Struck.uncounted_icp : (l.uncounted u).icp = s.icp ∧ (l.uncounted u).icpQueue = s.icpQueue := by
  have kept : (l.uncounted u).icp = l.icp ∧ (l.uncounted u).icpQueue = l.icpQueue := ⟨rfl, rfl⟩
  rw [kept.1, kept.2, logs.only, h.only]
  exact ⟨rfl, rfl⟩

include pad frame in
theorem Struck.uncounted_entry : GlEntry s (l.uncounted u) u x.word.val ess kind bits := by
  obtain ⟨i, hi, first, second⟩ := logs.entry
  have beats : v.rd (aGl 3) = s.rd (aGl 3) := h.words _ (by simp only [aGl, aPad]; omega)
  rw [beats] at second
  rw [pad, frame] at first
  refine GlEntry.kept (t := l) ⟨i, hi, first, second⟩ fun a lo hi => ?_
  simp only [aGl] at lo hi
  rw [h.uncounted_rd logs, if_neg (by simp only [aPad]; omega)]

variable (rest : AtRest s) (free : s.icpBusy = false) (loaded : s.loaded u.pad.val = true) (steady : s.swapping u.pad.val = false)
  (reached : s.reaches u = true)
include rest free loaded steady reached

include pad frame in
/-- What every repair leaves of the round. -/
theorem Struck.repaired {t : State} (scrub : v.scrubFrame (s.hostFn 5) u.pad u.frame.val = t) (q : Reloads u.pad.val (l.uncounted u) t) :
    Uncorrectable s v.roundRun u ∧ GlEntry s v.roundRun u x.word.val ess kind bits ∧ v.roundRun.evFlag 33 = t.evFlag 33 ∧
      (t.icpBusy = true → v.roundRun = (t.pastPlace (v.placeOf u)).roundWaits) := by
  obtain ⟨skip, gl⟩ := q.gl
  have program : ∀ i < 0x1010, t.rd (aGlProg i) = v.rd (aGlProg i) := fun i hi => by
    rw [q.words _ (.inl (by simp only [aGlProg]; omega)), h.uncounted_rd logs, if_neg (by simp only [aGlProg, aPad]; omega),
      logs.words _ (by simp only [aGlProg, aGl]; omega)]
  obtain ⟨on, waits⟩ := h.goesOn rest free loaded steady reached scrub (q.upsets.trans (h.uncounted_upsets logs)) gl program
  have counted : v.roundRun.rd (aPad u.pad.val 0x0E) = incFld (s.rd (aPad u.pad.val 0x0E)) 11 0 := by
    rw [on.words _ (by simp only [aPad, aGl]; omega) (by simp only [aPad, aGl]; omega), q.words _ (.inr rfl), h.uncounted_rd logs, if_pos rfl]
  refine ⟨⟨?_, ?_⟩, ?_, State.evFlag_congr on.hw 33, waits⟩
  · rw [State.fget, counted, fld_incFld _ (by decide) (by decide)]
    rfl
  · rw [State.fget, counted, fld_incFld_apart _ (by decide) (by decide)]
    rfl
  · refine (h.uncounted_entry logs pad frame).kept fun a lo hi => ?_
    simp only [aGl] at lo hi
    rw [on.words _ (by simp only [aGl]; omega) (by simp only [aGl]; omega), q.words _ (.inl (by omega))]

/-- A host that repairs frames itself is told (R216). -/
theorem Struck.told (scrub : v.scrubFrame (s.hostFn 5) u.pad u.frame.val = (l.uncounted u).evConfig) :
    RoundOver s v.roundRun ∧ v.roundRun.icp = s.icp ∧ v.roundRun.icpQueue = s.icpQueue := by
  have begun : ScrubOnly l (l.uncounted u) := rfl
  have only : ScrubOnly v (l.uncounted u).evConfig := (logs.scrubOnly.trans begun).trans (.raise _ 33)
  have upsets : (l.uncounted u).evConfig.upsets = [u] := (State.raise_upsets _ 33).trans (h.uncounted_upsets logs)
  have gl : (l.uncounted u).evConfig.gl = { GlSt.idle with run := true } := (State.raise_gl _ 33).trans rfl
  have ends := h.ends rest free loaded steady reached (by simp) scrub
    ⟨only, fun a out _ h2 => (State.raise_rd _ 33 a).trans (by rw [h.uncounted_rd logs, if_neg h2, logs.words a out]),
      fun y hy => by
        rw [upsets, List.mem_singleton] at hy
        rw [hy]
        exact ⟨rfl, rfl⟩,
      [], gl⟩
  obtain ⟨icp, queue⟩ := h.uncounted_icp logs
  refine ⟨ends.rounds, ?_, ?_⟩
  · rw [ends.only]
    exact (State.raise_icp _ 33).trans icp
  · rw [ends.only]
    exact (State.raise_icpQueue _ 33).trans queue

include pad frame in
/-- Without a host a frame that is not essential is rewritten, and the round waits for it (R211, R216). -/
theorem Struck.rewrites (idle : s.icp = none)
    (scrub : v.scrubFrame (s.hostFn 5) u.pad u.frame.val = (l.uncounted u).icpAdd (newJob .rewrite u.pad.val 0 u.frame.val none)) :
    Rewrites v.roundRun u ∧ v.roundRun.evFlag 33 = s.evFlag 33 := by
  have blank : (l.uncounted u).icp = none := (h.uncounted_icp logs).1.trans idle
  have q : Reloads u.pad.val (l.uncounted u) _ := (Reloads.refl _ (l.uncounted u)).icpAdd (newJob .rewrite u.pad.val 0 u.frame.val none)
  obtain ⟨-, -, flag, waits⟩ := h.repaired logs pad frame rest free loaded steady reached scrub q
  have takes := (l.uncounted u).icpTake_takes (newJob .rewrite u.pad.val 0 u.frame.val none)
  have job := takes.job
  have kept := takes.flags 33 (by decide) (by decide)
  rw [State.icpAdd_idle _ blank] at flag waits q
  generalize ({ l.uncounted u with icp := some (newJob .rewrite u.pad.val 0 u.frame.val none) } : State).icpTake = k at kept flag waits q job
  have busy : (k.bset aIcpstat 23 true).icpBusy = true := by
    obtain ⟨j, hj, -⟩ := Option.map_eq_some_iff.1 job
    change k.icp.isSome = true
    rw [hj]
    rfl
  have run := waits busy
  obtain ⟨skip, gl⟩ := q.gl
  have running : (k.bset aIcpstat 23 true).gl.run = true := by
    rw [gl]
    rfl
  have same : (k.bset aIcpstat 23 true).evFlag 33 = k.evFlag 33 := State.evFlag_congr rfl 33
  have shown : ∀ y : State, y.roundWaits.icp = y.icp ∧ y.roundWaits.gl = y.gl := fun _ => ⟨rfl, rfl⟩
  have past : ∀ n, ((k.bset aIcpstat 23 true).pastPlace n).icp = k.icp ∧ ((k.bset aIcpstat 23 true).pastPlace n).gl.run = (k.bset aIcpstat 23 true).gl.run :=
    fun _ => ⟨rfl, rfl⟩
  refine ⟨⟨?_, ?_, ?_⟩, flag.trans (same.trans (kept.trans (h.uncounted_flag logs)))⟩
  · rw [run, (shown _).1, (past _).1, job]
    rfl
  · rw [run, (shown _).2, (past _).2, running]
  · rw [run]
    exact (State.roundWaits_shows _).2

include pad frame in
/-- A reached frame that cannot be corrected is logged and counted; the host, a reload or a rewrite of the frame repairs it (R216, R217). -/
theorem Struck.fails (idle : s.icp = none) {e : Bool}
    (scrub : v.scrubFrame (s.hostFn 5) u.pad u.frame.val = ({ l with gl := { GlSt.idle with run := true } } : State).uncorrected u (s.hostFn 5) e) :
    Uncorrectable s v.roundRun u ∧ GlEntry s v.roundRun u x.word.val ess kind bits ∧
      (s.hostFn 5 = true → RoundOver s v.roundRun ∧ v.roundRun.evFlag 33 = true ∧ v.roundRun.icp = none ∧ v.roundRun.icpQueue = s.icpQueue) ∧
      (s.hostFn 5 = false → e = false → Rewrites v.roundRun u ∧ v.roundRun.evFlag 33 = s.evFlag 33) ∧
      (s.hostFn 5 = false → e = true → v.roundRun.evFlag 33 = true) := by
  have form : v.scrubFrame (s.hostFn 5) u.pad u.frame.val = if s.hostFn 5 then (l.uncounted u).evConfig else if e then (l.uncounted u).evConfig.glReload u.pad
      else (l.uncounted u).icpAdd (newJob .rewrite u.pad.val 0 u.frame.val none) := scrub
  have raised : (l.uncounted u).evConfig.evFlag 33 = true := State.raise_evFlag _ (by decide)
  have told : Reloads u.pad.val (l.uncounted u) (l.uncounted u).evConfig := (Reloads.refl _ _).raise (by decide)
  by_cases host : s.hostFn 5 = true
  · rw [if_pos host] at form
    obtain ⟨unc, entry, flag, -⟩ := h.repaired logs pad frame rest free loaded steady reached form told
    obtain ⟨rounds, icp, queue⟩ := h.told logs rest free loaded steady reached form
    exact ⟨unc, entry, fun _ => ⟨rounds, flag.trans raised, icp.trans idle, queue⟩, fun no => absurd host (by simp [no]), fun no => absurd host (by simp [no])⟩
  · rw [if_neg host] at form
    cases e with
    | true =>
      rw [if_pos rfl] at form
      have r : Reloads u.pad.val (l.uncounted u).evConfig ((l.uncounted u).evConfig.glReload u.pad) := (Reloads.refl _ _).glReload u.pad
      obtain ⟨unc, entry, flag, -⟩ := h.repaired logs pad frame rest free loaded steady reached form (told.trans r)
      exact ⟨unc, entry, fun yes => absurd yes host, fun _ no => absurd no (by decide), fun _ _ => flag.trans (r.flag raised)⟩
    | false =>
      rw [if_neg (by decide)] at form
      have q : Reloads u.pad.val (l.uncounted u) _ := (Reloads.refl _ (l.uncounted u)).icpAdd (newJob .rewrite u.pad.val 0 u.frame.val none)
      obtain ⟨unc, entry, -, -⟩ := h.repaired logs pad frame rest free loaded steady reached form q
      exact ⟨unc, entry, fun yes => absurd yes host, fun _ _ => h.rewrites logs pad frame rest free loaded steady reached idle form,
        fun _ no => absurd no (by decide)⟩

end

end

end Sys2Proof.Machine
end
section
/-! A word that changes between its scrub and its write-back is scrubbed again (R215). -/

namespace Sys2Proof.Machine

open Safety

section
variable {s v t : State} {u : Upset} {late : Word}

/-- A late flip of the word that u hits. -/
def upsetAfter (u : Upset) (late : Word) : Upset := { u with mask := late, check := 0, late := true }

theorem mergeUpset_one {x y : Upset} (same : sameWord x y = true) (hits : ¬ (x.mask ^^^ y.mask = 0 ∧ x.check ^^^ y.check = 0 ∧ x.crc ^^^ y.crc = 0)) :
    mergeUpset [x] y = [{ y with mask := x.mask ^^^ y.mask, check := x.check ^^^ y.check, crc := x.crc ^^^ y.crc, late := false }] := by
  have found : ([x].find? fun z => sameWord z y) = some x := by simp [same]
  have none : ([x].filter fun z => !sameWord z y) = [] := by rw [List.filter_cons_of_neg (by simp [same]), List.filter_nil]
  unfold mergeUpset
  rw [found, none]
  dsimp only
  rw [if_neg hits]
  rfl

/-- A reached word that a late flip changes is logged, not written back, and its frame is scrubbed again in the next round (R215). -/
theorem Struck.again (h : Struck s v u [upsetAfter u late]) (one : upsetBits u = 1) (crc : u.crc = 0)
    (hits : ¬ (u.mask ^^^ late = 0 ∧ u.check = 0)) :
    ∃ t, v.scrubFrame (s.hostFn 5) u.pad u.frame.val = t ∧ Scrub v t u ∧ t.gl.again = [(u.pad.val, u.frame.val)] ∧
      (∀ i, ∀ c < 96, t.pads[u.pad].cw i c = if i = u.frame.val ∧ c = u.word.val then s.pads[u.pad].cw i c ^^^ u.mask ^^^ late else s.pads[u.pad].cw i c) ∧
      t.rd (aPad u.pad.val 0x0E) = s.rd (aPad u.pad.val 0x0E) := by
  have logs := v.glLog_logs u (v.essential u) 1
  have scrub := h.scrubFrame (by omega) (by simp [upsetAfter]) (s.hostFn 5)
  rw [if_pos ⟨crc, one⟩] at scrub
  generalize hl : v.glLog u (v.essential u) 1 = l at logs
  let m : State := { l with gl := { GlSt.idle with run := true } }
  let y := upsetAfter u late
  let w : Upset := { y with mask := u.mask ^^^ late, check := u.check ^^^ 0, crc := u.crc ^^^ u.crc, late := false }
  let c : State := ({ m.flipConfig y with upsets := [w], gl := { GlSt.idle with run := true, again := [(u.pad.val, u.frame.val)] } } : State).incN (aPad u.pad.val 0x0E) 23 12 0
  have flips := State.flipConfig_eq m y
  have merged : mergeUpset m.upsets y = [w] := by
    have upsets : m.upsets = [u] := logs.upsets.trans h.upsets
    rw [upsets, mergeUpset_one (by simp [y, upsetAfter, sameWord])]
    · rfl
    · simp only [y, upsetAfter]
      intro zero
      exact hits ⟨zero.1, by simpa using zero.2.1⟩
  have back : (v.scrubLogged u 1 [y]).writeBack u [y] = c := by
    have logged : v.scrubLogged u 1 [y] = { m.flipConfig y with upsets := [w] } := by
      rw [← merged, State.scrubLogged, hl]
      rfl
    have gl : (m.flipConfig y).gl = { GlSt.idle with run := true } := by rw [flips]
    rw [State.writeBack, if_pos (by simp [y, upsetAfter, sameWord]), logged]
    dsimp only
    rw [gl]
    simp only [Bool.and_false, Bool.not_false, List.filter_true]
    rfl
  have crd {a : Nat} (ha : a ≠ aPad u.pad.val 0x0C) : c.rd a = l.rd a :=
    (State.incN_zero_rd _ _ (by decide) a).trans (State.flipConfig_rd m y ha)
  have facts : ∀ z : State, ScrubOnly c z → (∀ a, z.rd a = c.rd a) → z.pads = c.pads → z.upsets = c.upsets → z.gl = c.gl →
      Scrub v z u ∧ z.gl.again = [(u.pad.val, u.frame.val)] ∧
      (∀ i, ∀ c < 96, z.pads[u.pad].cw i c = if i = u.frame.val ∧ c = u.word.val then s.pads[u.pad].cw i c ^^^ u.mask ^^^ late else s.pads[u.pad].cw i c) ∧
      z.rd (aPad u.pad.val 0x0E) = s.rd (aPad u.pad.val 0x0E) := by
    intro z only rd pads upsets gl
    have flipped : ScrubOnly m c := (ScrubOnly.flipConfig m y).trans rfl
    have begun : ScrubOnly l m := rfl
    refine ⟨⟨(logs.scrubOnly.trans begun).trans (flipped.trans only), fun a out h1 _ => ?_, ?_, ⟨[(u.pad.val, u.frame.val)], gl.trans rfl⟩⟩,
      ?_, fun i k hk => ?_, ?_⟩
    · rw [rd, crd h1, logs.words a out]
    · rw [upsets]
      intro x hx
      have mem : x ∈ [w] := hx
      rw [List.mem_singleton] at mem
      rw [mem]
      exact ⟨rfl, rfl⟩
    · rw [gl]
      rfl
    · rw [pads]
      refine (State.flipConfig_cw m y i hk).trans ?_
      have before : m.pads = v.pads := logs.pads
      have hit := h.cw i k hk
      rw [before]
      change (if i = u.frame.val ∧ k = u.word.val then v.pads[u.pad].cw i k ^^^ late else v.pads[u.pad].cw i k) = _
      rw [hit]
      split <;> rfl
    · rw [rd, crd (by simp only [aPad]; omega), logs.words _ (by simp only [aPad, aGl]; omega), h.words _ (by simp only [aPad]; omega)]
  refine ⟨_, scrub, ?_⟩
  rw [State.corrected]
  change Scrub v (if (s.hostFn 5 || v.essential u) = true then ((v.scrubLogged u 1 [y]).writeBack u [y]).evConfig else (v.scrubLogged u 1 [y]).writeBack u [y]) u ∧ _
  rw [back]
  split
  · exact facts _ (.raise c 33) (State.raise_rd c 33) (State.raise_pads c 33) (State.raise_upsets c 33) (State.raise_gl c 33)
  · exact facts c rfl (fun _ => rfl) rfl rfl rfl

end

end Sys2Proof.Machine
end
section
/-! Gleaner rounds (R213, R214, R216 to R218). -/

namespace Sys2Proof.Machine

open Safety

/-! ### Flips of single bits -/

/-- The data bits and the check bits of a word that a flip of bit b hits (log entry 112). -/
def flipMask (b : Fin 30) : Word := if b.val < 24 then wd (2 ^ b.val) else 0
def flipCheck (b : Fin 30) : BitVec 6 := if b.val < 24 then 0 else 1 <<< (b.val - 24)

/-- Wrong bits, counted, and the lowest. -/
def flipCount (m : Word) (c : BitVec 6) : Nat := ((List.range 24).filter fun i => bit m i).length + ((List.range 6).filter fun i => c.getLsbD i).length
def flipFirst (m : Word) (c : BitVec 6) : Nat := ((List.range 24).find? fun i => bit m i).getD (24 + ((List.range 6).find? fun i => c.getLsbD i).getD 7)

theorem flipCount_single : ∀ b : Fin 30, flipCount (flipMask b) (flipCheck b) = 1 ∧ flipFirst (flipMask b) (flipCheck b) = b.val := by decide +kernel

theorem flipCount_none : flipCount 0 0 = 0 := by decide

theorem flipCount_double : ∀ (b : Fin 30) (d : Fin 24), b.val ≠ d.val → flipCount (flipMask b ||| wd (2 ^ d.val)) (flipCheck b) = 2 ∧
    ¬ (flipMask b ^^^ wd (2 ^ d.val) = 0 ∧ flipCheck b = 0) := by decide +kernel

theorem upsetHits_of_bits {u : Upset} (wrong : upsetBits u ≠ 0) : upsetHits u := by
  rintro ⟨mask, check, -⟩
  refine wrong ?_
  unfold upsetBits
  rw [mask, check]
  decide

section
variable {s v : State} {u : Upset}

/-- A frame of which only the CRC is wrong is logged with word 0 (R214). -/
theorem Struck.scrub_crc (h : Struck s v u []) (whole : upsetBits u = 0) (crc : u.crc ≠ 0) (host : Bool) :
    v.scrubFrame host u.pad u.frame.val =
      ({ v.glLog { u with word := 0, mask := 0, check := 0 } false 3 with gl := { GlSt.idle with run := true } } : State).uncorrected u host false := by
  have gl := h.gl
  have upsets := h.upsets
  unfold State.scrubFrame
  extract_lets +onlyGivenNames us bad sum lates ess anyEss corr s1 s2 again gl2 s3
  have hus : us = [u] := by simp only [us, upsets, List.filter_cons_of_pos (inFrame_self u), List.filter_nil]
  have hbad : bad = [] := by simp [bad, hus, whole]
  have hlates : lates = [] := by simp only [lates, gl, List.filter_nil]
  have hess : ess = [] := by simp only [ess, hbad, List.map_nil]
  have hany : anyEss = false := by simp only [anyEss, hess, List.any_nil]
  have hcorr : corr = false := by
    have value : sum = u.crc := by simp [sum, hus]
    have wrong : (u.crc == 0) = false := beq_eq_false_iff_ne.2 crc
    simp only [corr, value, wrong, Bool.false_and]
  have hs1 : s1 = v := by simp only [s1, hess, List.foldl_nil]
  have hs2 : s2 = v.glLog { u with word := 0, mask := 0, check := 0 } false 3 := by simp only [s2, hbad, hus, hs1]
  have kept : s2.gl = { GlSt.idle with run := true } := by
    rw [hs2, (v.glLog_logs _ false 3).gl, gl]
    rfl
  have hs3 : s3 = { v.glLog { u with word := 0, mask := 0, check := 0 } false 3 with gl := { GlSt.idle with run := true } } := by
    simp only [s3, again, gl2, hlates, kept]
    rw [hs2]
    rfl
  rw [if_neg (by simp [hus]), hs3, hany, hcorr, if_neg (by decide)]
  rfl

variable (rest : AtRest s) (idle : s.icp = none) (loaded : s.loaded u.pad.val = true) (steady : s.swapping u.pad.val = false) (now : u.late = false)
include rest idle loaded steady now

/-- A wrong bit that the round reaches is corrected (R214, R217). -/
theorem AtRest.round_corrects (one : upsetBits u = 1) (crc : u.crc = 0) (reached : s.reaches u = true) : Completes (.gleanerRound [u]) s fun t =>
    RoundOver s t ∧ t.upsets = [] ∧ (∀ i, ∀ c < 96, t.pads[u.pad].cw i c = s.pads[u.pad].cw i c) ∧ PadsRest s t u.pad ∧
    t.fget (aPad u.pad.val 0x0E) 23 12 = min 4095 (s.fget (aPad u.pad.val 0x0E) 23 12 + 1) ∧
    t.fget (aPad u.pad.val 0x0E) 11 0 = s.fget (aPad u.pad.val 0x0E) 11 0 ∧ ConfigEvent s t (s.hostFn 5 || s.essential u) ∧
    GlEntry s t u u.word.val (s.essential u) 1 (upsetBit u) := by
  have free : s.icpBusy = false := by rw [State.icpBusy, idle]; rfl
  obtain ⟨v, run, h⟩ := rest.struck (upsetHits_of_bits (by omega)) now loaded steady (later := []) (by simp)
  obtain ⟨t, scrub, frame, upsets, cw, others, count, event, entry⟩ := h.corrects one crc
  have ends := h.ends rest free loaded steady reached (by simp) scrub frame
  have counted : v.roundRun.rd (aPad u.pad.val 0x0E) = _ := (ends.words _ (by simp only [aPad, aGl]; omega) (by simp only [aPad, aGl]; omega)).trans count
  have pads : v.roundRun.pads = t.pads := by rw [ends.only]
  have hw : v.roundRun.hw = t.hw := by rw [ends.only]
  have flag : v.roundRun.evFlag 33 = t.evFlag 33 := State.evFlag_congr hw 33
  refine completes_of_eq run ⟨ends.rounds, by rw [ends.only, upsets], fun i c hc => ?_, fun o ne => ?_, ?_, ?_, ⟨fun yes => ?_, fun no => ?_⟩, ?_⟩
  · rw [pads, cw i c hc]
  · rw [pads, others o ne]
  · rw [State.fget, counted, fld_putFld _ _ (by decide) (by decide)]
    omega
  · rw [State.fget, counted, fld_putFld_apart _ _ (by decide) (by decide)]
    rfl
  · rw [flag, event.1 yes]
  · rw [flag, event.2 no]
  · exact entry.kept fun a lo hi => ends.words _ (by simp only [aGl] at lo ⊢; omega) (by simp only [aGl] at lo ⊢; omega)

/-- A flip that the round does not reach stays (R213). -/
theorem AtRest.round_misses (hits : upsetHits u) (missed : s.reaches u = false) : Completes (.gleanerRound [u]) s fun t => RoundOver s t ∧ t.upsets = [u] ∧
    (∀ i, ∀ c < 96, t.pads[u.pad].cw i c = if i = u.frame.val ∧ c = u.word.val then s.pads[u.pad].cw i c ^^^ u.mask else s.pads[u.pad].cw i c) ∧
    NoEvent s t ∧ WordsKept s t [aGl 2, aGl 3, aPad u.pad.val 0x0C] := by
  have free : s.icpBusy = false := by rw [State.icpBusy, idle]; rfl
  obtain ⟨v, run, h⟩ := rest.struck hits now loaded steady (later := []) (by simp)
  have late : v.gl.late = [] := by rw [h.gl]
  have only := State.roundEnd_eq late
  have keeps : v.glRound = s.glRound ∧ v.gcfg = s.gcfg ∧ v.gmode = s.gmode ∧ v.hw = s.hw ∧ v.pcie = s.pcie := by
    rw [h.only]
    exact ⟨rfl, rfl, rfl, rfl, rfl⟩
  obtain ⟨round, config, mode, hw, pcie⟩ := keeps
  rw [h.roundRun_missed rfl free loaded steady missed] at run
  refine completes_of_eq run ⟨roundEnd_over rest.gcfg late (h.words _ (by simp only [aGl, aPad]; omega)) round config mode, ?_, fun i c hc => ?_,
    ⟨by rw [only]; exact hw, by rw [only]; exact pcie⟩, fun a ha => ?_⟩
  · rw [only]
    exact h.upsets
  · rw [only]
    exact h.cw i c hc
  · simp only [List.mem_cons, List.not_mem_nil, or_false, not_or] at ha
    rw [State.roundEnd_rd late, if_neg ha.1, if_neg ha.2.1, h.words a ha.2.2]

/-- A reached word that a late flip changes is left to the next round (R215). -/
theorem AtRest.round_again {late : Word} (one : upsetBits u = 1) (crc : u.crc = 0) (hits : ¬ (u.mask ^^^ late = 0 ∧ u.check = 0)) (reached : s.reaches u = true) :
    Completes (.gleanerRound [u, upsetAfter u late]) s fun t => RoundOver s t ∧ t.gl.again = [(u.pad.val, u.frame.val)] ∧
    (∀ i, ∀ c < 96, t.pads[u.pad].cw i c = if i = u.frame.val ∧ c = u.word.val then s.pads[u.pad].cw i c ^^^ u.mask ^^^ late else s.pads[u.pad].cw i c) ∧
    t.rd (aPad u.pad.val 0x0E) = s.rd (aPad u.pad.val 0x0E) := by
  have free : s.icpBusy = false := by rw [State.icpBusy, idle]; rfl
  obtain ⟨v, run, h⟩ := rest.struck (upsetHits_of_bits (by omega)) now loaded steady (later := [upsetAfter u late]) (by simp [upsetAfter])
  obtain ⟨t, scrub, frame, left, cw, count⟩ := h.again one crc hits
  have ends := h.ends rest free loaded steady reached (by simp [upsetAfter]) scrub frame
  have pads : v.roundRun.pads = t.pads := by rw [ends.only]
  refine completes_of_eq run ⟨ends.rounds, ends.again.trans left, fun i c hc => ?_, ?_⟩
  · rw [pads, cw i c hc]
  · rw [ends.words _ (by simp only [aPad, aGl]; omega) (by simp only [aPad, aGl]; omega), count]

/-- A frame that cannot be corrected is counted, logged and repaired; `word` stands in the log, and a repair by reload follows for an essential one
(R214, R216, R217). -/
def RoundFails (s t : State) (u : Upset) (word : Nat) (logged ess : Bool) (kind : Nat) : Prop := Uncorrectable s t u ∧ GlEntry s t u word logged kind 31 ∧
  (s.hostFn 5 = true → RoundOver s t ∧ t.evFlag 33 = true ∧ t.icp = none ∧ t.icpQueue = s.icpQueue) ∧
  (s.hostFn 5 = false → ess = false → Rewrites t u ∧ t.evFlag 33 = s.evFlag 33) ∧ (s.hostFn 5 = false → ess = true → t.evFlag 33 = true)

theorem AtRest.round_fails (two : 1 < upsetBits u) (reached : s.reaches u = true) :
    Completes (.gleanerRound [u]) s fun t => RoundFails s t u u.word.val (s.essential u) (s.essential u) 2 := by
  have free : s.icpBusy = false := by rw [State.icpBusy, idle]; rfl
  obtain ⟨v, run, h⟩ := rest.struck (upsetHits_of_bits (by omega)) now loaded steady (later := []) (by simp)
  have logs := v.glLog_logs u (v.essential u) 2
  rw [if_neg (by omega)] at logs
  have scrub := h.scrubFrame (by omega) (by simp) (s.hostFn 5)
  rw [if_neg fun one => by omega, State.scrubLogged_nil, h.essential] at scrub
  rw [h.essential] at logs
  exact completes_of_eq run (h.fails logs rfl rfl rest free loaded steady reached idle scrub)

theorem AtRest.round_crc (whole : upsetBits u = 0) (crc : u.crc ≠ 0) (reached : s.reaches u = true) :
    Completes (.gleanerRound [u]) s fun t => RoundFails s t u 0 false false 3 := by
  have free : s.icpBusy = false := by rw [State.icpBusy, idle]; rfl
  obtain ⟨v, run, h⟩ := rest.struck (fun none => crc none.2.2) now loaded steady (later := []) (by simp)
  have logs := v.glLog_logs { u with word := 0, mask := 0, check := 0 } false 3
  rw [if_neg (by simp [upsetBits, bit])] at logs
  exact completes_of_eq run (h.fails logs rfl rfl rest free loaded steady reached idle (h.scrub_crc whole crc (s.hostFn 5)))

end

/-- Settles O58: rounds of the Gleaner by what they find, with what they count, log, correct and repair, and its reset. -/
theorem gleanerRounds : Obligations.GleanerRounds := by
  intro s begun
  refine ⟨fun off ups => completes_of_eq (exec_gleanerRound_off off ups) rfl, fun on running => ?_, fun on gl upsets bad gcfg gmode split program => ?_,
    heartbeatTimeout_resets s, fun r => ⟨grst_resets, grst_faults⟩⟩
  · refine completes_of_eq (exec_gleanerRound_late on running) ⟨rfl, ?_, ?_, fun a ha => ?_, rfl⟩
    · change fld ((s.inc (aGl 5) 23 16).rd (aGl 5)) 23 16 = _
      rw [State.inc_rd, if_pos rfl, fld_incFld _ (by decide) (by decide)]
      rfl
    · change fld ((s.inc (aGl 5) 23 16).rd (aGl 5)) 15 0 = _
      rw [State.inc_rd, if_pos rfl, fld_incFld_apart _ (by decide) (by decide)]
      rfl
    · exact State.rd_wr_ne _ _ (by simpa using ha)
  · have rest : AtRest s := ⟨on, gl, upsets, bad, gcfg, gmode, split, program⟩
    refine ⟨rest.round_waits, rest.round_quiet, ?_⟩
    intro p f w b poison free loaded steady hits u flag scrubs ess a entry
    have idle : s.icp = none := Option.not_isSome_iff_eq_none.1 (by rw [← State.icpBusy, free]; decide)
    obtain ⟨one, first⟩ := flipCount_single b
    have cw {t : State} {g : Nat → Nat → Word} (h : ∀ i, ∀ c < 96, t.pads[p].cw i c = g i c) : ∀ i < 800, ∀ c < 96, t.pads[p].cw i c = g i c :=
      fun i _ => h i
    refine ⟨fun reached => ?_, fun missed => ?_, fun reached d other => ⟨?_, ?_⟩⟩
    · refine completes_mono (rest.round_corrects (u := u) idle loaded steady rfl one rfl reached) fun t done => ?_
      obtain ⟨rounds, none, words, others, ce, unc, event, logged⟩ := done
      have at_ : upsetBit u = b.val := first
      rw [at_] at logged
      exact ⟨rounds, none, cw words, others, ce, unc, event.1, event.2, logged⟩
    · refine completes_mono (rest.round_misses (u := u) idle loaded steady rfl (upsetHits_of_bits (by rw [show upsetBits u = 1 from one]; decide)) missed)
        fun t done => ?_
      obtain ⟨rounds, left, words, quiet, kept⟩ := done
      exact ⟨rounds, left, cw words, quiet, kept⟩
    · refine completes_mono (rest.round_again (u := u) idle loaded steady rfl one rfl (flipCount_double b d other).2 reached) fun t done => ?_
      obtain ⟨rounds, again, words, count⟩ := done
      exact ⟨rounds, again, cw words, count⟩
    · intro unc e2 rewrites
      have two : upsetBits { u with mask := hits b ||| wd (2 ^ d.val) } = 2 := (flipCount_double b d other).1
      refine ⟨?_, ?_⟩
      · refine completes_mono (rest.round_fails (u := { u with mask := hits b ||| wd (2 ^ d.val) }) idle loaded steady rfl (by rw [two]; decide) reached)
          fun t done => ?_
        exact done
      · refine completes_mono (rest.round_crc (u := { u with mask := 0, check := 0, crc := 1, poison := false }) idle loaded steady rfl
          flipCount_none (by decide : (1 : BitVec 32) ≠ 0) reached) fun t done => ?_
        obtain ⟨counted, logged, host, quiet, -⟩ := done
        have plain : (flag && (false || ((0 : Word) &&& s.maskWord p.val f.val 0) != 0)) = false := by simp
        refine ⟨counted, ?_, fun yes => ?_, fun no => (quiet no rfl).1⟩
        · obtain ⟨i, hi, one, two⟩ := logged
          refine ⟨i, hi, ?_, two⟩
          rw [plain]
          exact one
        · obtain ⟨rounds, event, none, -⟩ := host yes
          exact ⟨rounds, event, none⟩

end Sys2Proof.Machine
end

section
/-! Resets and start-up (R9, R198, R201, R250, R273, R277, R356, R372, R373, R394). -/

namespace Sys2Proof.Machine

open Safety

section
variable {s t : State} {α : Type}

/-! ### Resets (R9, R277, R372) -/

/-- A key whose entries a filter keeps reads as before. -/
theorem spGet_filter_kept {d : Nat → α} {keep : Nat × α → Bool} {k : Nat} (kept : ∀ v, keep (k, v) = true) (m : List (Nat × α)) :
    spGet d (m.filter keep) k = spGet d m k := by
  induction m with
  | nil => rfl
  | cons e m ih =>
    obtain ⟨a, v⟩ := e
    by_cases same : a = k
    · subst same
      simp [kept, spGet]
    · by_cases h : keep (a, v) = true <;> simp [h, spGet, same, ih]

/-- A key whose entries a filter drops reads as its default. -/
theorem spGet_filter_dropped {d : Nat → α} {keep : Nat × α → Bool} {k : Nat} (dropped : ∀ v, keep (k, v) = false) (m : List (Nat × α)) :
    spGet d (m.filter keep) k = d k := by
  refine spGet_of_no_key _ _ fun e he same => ?_
  have := (List.mem_filter.1 he).2
  rw [show e = (k, e.2) from Prod.ext same rfl, dropped] at this
  cases this

/-- The address is a bank's supply word. -/
def supplyWord (a : Nat) : Bool := match locOf a with
  | .bank _ 0 => true
  | _ => false

theorem locOf_aBank {b off : Nat} (hb : b < 12) (ho : off < 64) (named : off ≤ 0x0B ∨ (0x10 ≤ off ∧ off < 0x28)) : locOf (aBank b off) = .bank b off := by
  have low : aBank b off = 0xC50000 + 0x40 * b + off := rfl
  have bank : (aBank b off - 0xC50000) / 0x40 = b := by omega
  have reg : aBank b off % 0x40 = off := by omega
  unfold locOf
  simp only [bank, reg]
  repeat rw [if_neg (by omega)]
  rw [if_pos (by omega), if_pos named]

theorem supplyWord_aBank {b : Nat} (hb : b < 12) : supplyWord (aBank b 0) = true := by
  unfold supplyWord
  rw [locOf_aBank hb (by decide) (by decide)]
  rfl

/-- What bank b keeps over a reset. -/
def State.bankKept (s : State) (held : Bool) (u : State) (b : Bank) : State :=
  let a := aBank b.val 0
  let v := (u.bset a 16 (s.bget a 16)).fset a 19 17 (s.fget a 19 17)
  if held && s.bget a 13 then (v.bset a 13 true).modBank b fun x => { x with lvl := x.keepLvl, oe := x.keepOe, en := x.keepEn, pull := x.keepPull }
  else v

theorem State.bankKeep_eq (s : State) (held : Bool) (t : State) : s.bankKeep held t = (List.finRange 12).foldl (s.bankKept held) t := rfl

theorem State.bankKept_spec (s : State) (held : Bool) (u : State) (b : Bank) : let v := s.bankKept held u b
    v = { u with ws := v.ws, banks := v.banks } ∧ ∀ a, a ≠ aBank b.val 0 → v.rd a = u.rd a := by
  unfold State.bankKept
  dsimp only
  split
  · exact ⟨rfl, fun a ha => by rw [State.modBank_rd, State.bset_rd, if_neg ha, State.fset_rd, if_neg ha, State.bset_rd, if_neg ha]⟩
  · exact ⟨rfl, fun a ha => by rw [State.fset_rd, if_neg ha, State.bset_rd, if_neg ha]⟩

/-- What the banks keep over a reset: words of supplies and what stands at the pads, nothing else. -/
theorem State.bankKeep_spec (s : State) (held : Bool) (t : State) : let u := s.bankKeep held t
    u = { t with ws := u.ws, banks := u.banks } ∧ ∀ a, supplyWord a = false → u.rd a = t.rd a := by
  rw [State.bankKeep_eq]
  refine List.foldlRecOn (motive := fun u : State => u = { t with ws := u.ws, banks := u.banks } ∧ ∀ a, supplyWord a = false → u.rd a = t.rd a)
    _ _ ⟨rfl, fun _ _ => rfl⟩ fun u ⟨only, words⟩ b _ => ?_
  obtain ⟨keptOnly, keptWords⟩ := s.bankKept_spec held u b
  refine ⟨keptOnly.trans (by rw [only]), fun a ha => (keptWords a fun e => ?_).trans (words a ha)⟩
  rw [e, supplyWord_aBank b.isLt] at ha
  cases ha

/-- A reset before what the banks keep. -/
def State.resetBase (s : State) (k : Scope) : State :=
  { State.reset with
    pending := s.pending, freeCtr := s.freeCtr, fuses := s.fuses, flash := s.flash
    ws := s.ws.filter fun e => (k.aon && aonWord e.1) || (!k.powerLost && memWord e.1) || (k.session && bpWord e.1)
    hw := if k.aon then s.hw.filter fun e => aonHost e.1 else []
    dram := if k.powerLost then [] else s.dram
    larkMem := if k.powerLost then [] else s.larkMem
    timers := if k.aon then s.timers else State.reset.timers
    banks := s.banks.map BankSt.after
    repair := { State.reset.repair with bad := if k.powerLost then [] else s.repair.bad.filter fun x => decide (16 ≤ x.region ∧ x.region ≤ 24) }
    pcie := { State.reset.pcie with inReset := s.pcie.inReset }
    stile := if k.session then s.stile else { State.reset.stile with holdoff := s.stile.holdoff }
    stileRegs := if k.session then s.stileRegs else []
    pow := { State.reset.pow with straps := s.pow.straps, seconds := if k.aon then s.pow.seconds else 0 } }

theorem State.resetDevice_eq (s : State) (k : Scope) : s.resetDevice k = s.bankKeep k.aon (s.resetBase k) := rfl

theorem State.resetDevice_only (s : State) (k : Scope) :
    s.resetDevice k = { s.resetBase k with ws := (s.resetDevice k).ws, banks := (s.resetDevice k).banks } :=
  (s.bankKeep_spec k.aon (s.resetBase k)).1

theorem State.resetDevice_rd (s : State) (k : Scope) {a : Nat} (ha : supplyWord a = false) : (s.resetDevice k).rd a =
    if ((k.aon && aonWord a) || (!k.powerLost && memWord a) || (k.session && bpWord a)) = true then s.rd a else wsReset a := by
  rw [State.resetDevice_eq, (s.bankKeep_spec _ _).2 a ha]
  split
  next kept => exact spGet_filter_kept (fun _ => kept) _
  next dropped => exact spGet_filter_dropped (fun _ => by simpa using dropped) _

end

section
variable {s t u : State}

/-! ### What every reset leaves (R9, R372) -/

/-- The device is as after POR_N, but for the fuses, the flash and what waits to be done. -/
def Fresh (s t : State) : Prop :=
  t.heads = State.reset.heads ∧ t.pads = State.reset.pads ∧ t.engines = State.reset.engines ∧ t.dev = State.reset.dev ∧ t.start = .reset ∧
    t.links = State.reset.links ∧ t.mboxes = State.reset.mboxes ∧ t.fuses = s.fuses ∧ t.flash = s.flash ∧ t.pending = s.pending

theorem State.resetBase_fresh (s : State) (k : Scope) : Fresh s (s.resetBase k) := ⟨rfl, rfl, rfl, rfl, rfl, rfl, rfl, rfl, rfl, rfl⟩

theorem State.resetDevice_fresh (s : State) (k : Scope) : Fresh s (s.resetDevice k) := by
  rw [State.resetDevice_only]
  exact s.resetBase_fresh k

/-- A part of the state other than its words and its banks. -/
theorem State.resetDevice_part (s : State) (k : Scope) {β : Type} (f : State → β) (same : ∀ (u : State) ws banks, f { u with ws := ws, banks := banks } = f u) :
    f (s.resetDevice k) = f (s.resetBase k) := by
  rw [State.resetDevice_only, same]

/-- The words after a reset with loss of power. -/
theorem State.resetDevice_rd_lost (s : State) {a : Nat} (ha : supplyWord a = false) :
    (s.resetDevice { powerLost := true, aon := false, session := false }).rd a = wsReset a := by
  rw [State.resetDevice_rd _ _ ha]
  rfl

/-- A reset that keeps the memories and the always-on domain. -/
def warmScope : Scope := { powerLost := false, aon := true, session := false }

theorem State.resetDevice_rd_warm (s : State) {a : Nat} (ha : supplyWord a = false) :
    (s.resetDevice warmScope).rd a = if (aonWord a || memWord a) = true then s.rd a else wsReset a := by
  rw [State.resetDevice_rd _ _ ha]
  simp only [warmScope, Bool.not_false, Bool.true_and, Bool.false_and, Bool.or_false]

theorem supplyWord_of_memWord {a : Nat} (mem : memWord a = true) : supplyWord a = false := by
  unfold memWord at mem
  unfold supplyWord
  split
  next h =>
    rw [h] at mem
    cases mem
  next => rfl

theorem locOf_aTimer {n o : Nat} (hn : n < 16) (ho : o < 16) : locOf (aTimer n o) = .timer n o := by
  have low : aTimer n o = 0xC51000 + 0x10 * n + o := rfl
  have timer : (aTimer n o - 0xC51000) / 0x10 = n := by omega
  have reg : aTimer n o % 0x10 = o := by omega
  unfold locOf
  simp only [timer, reg]
  repeat rw [if_neg (by omega)]
  rw [if_pos (by omega)]

/-- What a warm reset leaves, its cause recorded. -/
def Warm (s t : State) (cause : Nat) : Prop :=
  Fresh s t ∧ t.hwRd 0x024 = wd (cause * 2 ^ 21 + b2n (s.dev == .live) * 2 ^ 20) ∧
    (∀ a, (regionOf (locOf a)).isSome = true → t.rd a = s.rd a) ∧ (∀ n < 16, ∀ o < 9, t.rd (aTimer n o) = s.rd (aTimer n o)) ∧ t.timers = s.timers ∧ t.dram = s.dram ∧
    (∀ h < 8, ∀ o < 64, t.rd (aHead h o) = wsReset (aHead h o)) ∧ (∀ o, o ∈ [0x018, 0x01C, 0x028, 0x034] → t.hwRd o = s.hwRd o) ∧ t.pow.seconds = s.pow.seconds

/-- A warm reset that records its cause. -/
def State.warmReset (s : State) (cause : Nat) : State := (s.resetDevice warmScope).noteCause (s.dev == .live) cause

theorem State.warmReset_words (s : State) (cause : Nat) (a : Nat) : (s.warmReset cause).rd a = (s.resetDevice warmScope).rd a := rfl

theorem State.warmReset_hwRd (s : State) (cause : Nat) {o : Nat} (kept : aonHost o = true) (other : o ≠ 0x024) :
    (s.warmReset cause).hwRd o = s.hwRd o := by
  have noted : (s.warmReset cause).hwRd o = (s.resetDevice warmScope).hwRd o := State.hwRd_hwWr_ne _ _ other
  rw [noted, State.resetDevice_only]
  exact spGet_filter_kept (fun _ => kept) _

theorem State.warmReset_fresh (s : State) (cause : Nat) : Fresh s (s.warmReset cause) := by
  obtain ⟨heads, pads, engines, dev, start, links, mboxes, fuses, flash, pending⟩ := s.resetDevice_fresh warmScope
  exact ⟨heads, pads, engines, dev, start, links, mboxes, fuses, flash, pending⟩

theorem State.warmReset_warm (s : State) (cause : Nat) : Warm s (s.warmReset cause) cause := by
  refine ⟨s.warmReset_fresh cause, State.hwRd_hwWr_same _ _ _, fun a mem => ?_, fun n hn o ho => ?_, ?_, ?_, fun h hh o ho => ?_, fun o ho => ?_, ?_⟩
  · have mem' : memWord a = true := mem
    rw [State.warmReset_words, State.resetDevice_rd_warm _ (supplyWord_of_memWord mem'), mem', Bool.or_true, if_pos rfl]
  · have timer := locOf_aTimer hn (show o < 16 by omega)
    have supply : supplyWord (aTimer n o) = false := by simp only [supplyWord, timer]
    rw [State.warmReset_words, State.resetDevice_rd_warm _ supply]
    simp only [aonWord, timer, Bool.true_or, if_true]
  · exact s.resetDevice_part _ (·.timers) fun _ _ _ => rfl
  · exact s.resetDevice_part _ (·.dram) fun _ _ _ => rfl
  · have head := locOf_aHead ⟨h, hh⟩ ho
    have supply : supplyWord (aHead h o) = false := by simp only [supplyWord, head]
    rw [State.warmReset_words, State.resetDevice_rd_warm _ supply]
    simp only [aonWord, memWord, head, regionOf, Option.isSome_none, Bool.or_self, Bool.false_eq_true, if_false]
  · simp only [List.mem_cons, List.not_mem_nil, or_false] at ho
    rcases ho with e | e | e | e <;> subst e <;> exact s.warmReset_hwRd cause (by decide) (by decide)
  · exact s.resetDevice_part _ (·.pow.seconds) fun _ _ _ => rfl

/-! ### POR_N, SYSRST_N and RESET -/

/-- The straps sampled. -/
def State.strapped (s : State) (straps : BitVec 4) : State := { s with pow := { s.pow with straps := straps } }

theorem Fresh.strapped (fresh : Fresh s t) (straps : BitVec 4) : Fresh s (t.strapped straps) := fresh

/-- A power-on reset. -/
def coldScope : Scope := { powerLost := true, aon := false, session := false }

/-- What a reset with loss of power leaves. -/
def Cold (s t : State) : Prop :=
  Fresh s t ∧ (∀ a, supplyWord a = false → t.rd a = wsReset a) ∧ (∀ o, t.hwRd o = hwReset o) ∧ t.dram = [] ∧ t.larkMem = [] ∧
    t.timers = State.reset.timers ∧ t.pow.seconds = 0 ∧ t.repair.bad = []

theorem State.resetDevice_cold (s : State) : Cold s (s.resetDevice coldScope) := by
  refine ⟨s.resetDevice_fresh _, fun a ha => s.resetDevice_rd_lost ha, fun o => ?_, ?_, ?_, ?_, ?_, ?_⟩
  · exact congrArg (fun hw => spGet hwReset hw o) (s.resetDevice_part _ (·.hw) fun _ _ _ => rfl)
  · exact s.resetDevice_part _ (·.dram) fun _ _ _ => rfl
  · exact s.resetDevice_part _ (·.larkMem) fun _ _ _ => rfl
  · exact s.resetDevice_part _ (·.timers) fun _ _ _ => rfl
  · exact s.resetDevice_part _ (·.pow.seconds) fun _ _ _ => rfl
  · exact s.resetDevice_part _ (·.repair.bad) fun _ _ _ => rfl

theorem Cold.strapped (cold : Cold s t) (straps : BitVec 4) : Cold s (t.strapped straps) := cold

theorem porN_completes (s : State) (straps : BitVec 4) : Completes (.porN straps) s fun t => Cold s t ∧ t.pow.straps = straps :=
  ⟨(s.resetDevice coldScope).strapped straps, rfl, s.resetDevice_cold.strapped straps, rfl⟩

theorem sysrstN_completes (up : s.pow.st ≠ .keep) : Completes .sysrstN s fun t => Warm s t 1 ∧ t.pow.sysrstLow = true := by
  have scope : ({ powerLost := s.pow.st == .keep && !s.pow.emulated, aon := true, session := false } : Scope) = warmScope := by
    rw [beq_eq_false_iff_ne.2 up]
    rfl
  refine ⟨{ s.warmReset 1 with pow := { (s.warmReset 1).pow with sysrstLow := true } }, ?_, ?_, rfl⟩
  · change execSysrstN s = _
    unfold execSysrstN
    rw [scope]
    rfl
  · obtain ⟨⟨heads, pads, engines, dev, start, links, mboxes, fuses, flash, pending⟩, cause, mem, words, timers, dram, headWords, host, seconds⟩ := s.warmReset_warm 1
    exact ⟨⟨heads, pads, engines, dev, start, links, mboxes, fuses, flash, pending⟩, cause, mem, words, timers, dram, headWords, host, seconds⟩

theorem reset_waits (none : s.pow.resetDue = false) : Completes .deviceResetAfterResponse s fun t => t = s := by
  refine ⟨s, ?_, rfl⟩
  change execDeviceResetAfterResponse s = _
  unfold execDeviceResetAfterResponse
  rw [if_neg (by simp [none])]

theorem reset_completes (due : s.pow.resetDue = true) : Completes .deviceResetAfterResponse s fun t => Warm s t 2 := by
  refine ⟨s.warmReset 2, ?_, s.warmReset_warm 2⟩
  change execDeviceResetAfterResponse s = _
  unfold execDeviceResetAfterResponse
  rw [if_pos due]
  rfl

end

section
variable {s t u : State}

/-! ### A list's steps that each act at a place of their own -/

/-- What no step of a list touches reads as before. -/
theorem foldl_untouched {σ ι β : Type} {f : σ → ι → σ} {view : σ → β} (l : List ι) (kept : ∀ u, ∀ j ∈ l, view (f u j) = view u) (s : σ) :
    view (l.foldl f s) = view s :=
  List.foldlRecOn (motive := fun u => view u = view s) l f rfl fun u hu j hj => (kept u j hj).trans hu

/-- What only step i of a list touches is as that step leaves it. -/
theorem foldl_touched {σ ι β : Type} {f : σ → ι → σ} {view : σ → β} {i : ι} (kept : ∀ u j, j ≠ i → view (f u j) = view u) :
    ∀ l : List ι, l.Nodup → i ∈ l → ∀ s : σ, ∃ u, view u = view s ∧ view (l.foldl f s) = view (f u i)
  | [], _, absent, _ => absurd absent List.not_mem_nil
  | j :: l, nodup, mem, s => by
    obtain ⟨fresh, rest⟩ := List.nodup_cons.1 nodup
    by_cases same : j = i
    · subst same
      exact ⟨s, rfl, foldl_untouched l (fun u k hk => kept u k fun e => fresh (e ▸ hk)) _⟩
    · obtain ⟨u, before, after⟩ := foldl_touched kept l rest ((List.mem_cons.1 mem).resolve_left fun e => same e.symm) (f s j)
      exact ⟨u, before.trans (kept s j same), after⟩

/-! ### The fuse load (R373, R394) -/

/-- Pin n of bank b is Ovzia secure. -/
def State.pinSecured (b : Nat) (s : State) (n : Nat) : State := s.fset (aBank b (0x10 + n)) 23 22 3

/-- Bank b of a part whose lock is open. -/
def State.bankOpened (s : State) (b : Nat) : State := (List.range 24).foldl (State.pinSecured b) (s.fset (aBank b 0) 23 20 0)

theorem State.lockOpen_eq (s : State) : s.lockOpen = (List.range 12).foldl State.bankOpened s := rfl

theorem State.pinSecured_rd (s : State) (b n a : Nat) :
    (s.pinSecured b n).rd a = if a = aBank b (0x10 + n) then putFld (s.rd a) 23 22 3 else s.rd a := by
  rw [State.pinSecured, State.fset_rd]
  split
  next e => rw [e]
  next => rfl

/-- A bank opened touches its own words. -/
theorem State.bankOpened_rd_ne (s : State) (b : Nat) {a : Nat} (outside : a < aBank b 0 ∨ aBank b 0x28 ≤ a) : (s.bankOpened b).rd a = s.rd a := by
  simp only [aBank] at outside
  refine (foldl_untouched (view := fun u : State => u.rd a) _ (fun u n hn => ?_) _).trans ?_
  · have := List.mem_range.1 hn
    rw [State.pinSecured_rd, if_neg (by simp only [aBank]; omega)]
  · rw [State.fset_rd, if_neg (by simp only [aBank]; omega)]

theorem State.bankOpened_supply (s : State) (b : Nat) : (s.bankOpened b).fget (aBank b 0) 23 20 = 0 := by
  have word : (s.bankOpened b).rd (aBank b 0) = putFld (s.rd (aBank b 0)) 23 20 0 := by
    refine (foldl_untouched (view := fun u : State => u.rd (aBank b 0)) _ (fun u n hn => ?_) _).trans ?_
    · rw [State.pinSecured_rd, if_neg (by simp only [aBank]; omega)]
    · rw [State.fset_rd, if_pos rfl]
  rw [State.fget, word, fld_putFld _ _ (by decide) (by decide)]
  rfl

theorem State.bankOpened_pin (s : State) (b : Nat) {n : Nat} (hn : n < 24) : (s.bankOpened b).fget (aBank b (0x10 + n)) 23 22 = 3 := by
  obtain ⟨u, -, word⟩ := foldl_touched (f := State.pinSecured b) (view := fun u : State => u.rd (aBank b (0x10 + n))) (i := n)
    (fun u k ne => by rw [State.pinSecured_rd, if_neg (by simp only [aBank]; omega)]) _ List.nodup_range (List.mem_range.2 hn) (s.fset (aBank b 0) 23 20 0)
  have word' : (s.bankOpened b).rd (aBank b (0x10 + n)) = _ := word
  rw [State.fget, word', State.pinSecured_rd, if_pos rfl, fld_putFld _ _ (by decide) (by decide)]
  rfl

theorem State.lockOpen_bank (s : State) {b : Nat} (hb : b < 12) :
    s.lockOpen.fget (aBank b 0) 23 20 = 0 ∧ ∀ n < 24, s.lockOpen.fget (aBank b (0x10 + n)) 23 22 = 3 := by
  have opened : ∀ a, aBank b 0 ≤ a → a < aBank b 0x28 → ∃ u : State, s.lockOpen.rd a = (u.bankOpened b).rd a := fun a low high => by
    simp only [aBank] at low high
    obtain ⟨u, -, word⟩ := foldl_touched (f := State.bankOpened) (view := fun u : State => u.rd a) (i := b)
      (fun u k ne => u.bankOpened_rd_ne k (by simp only [aBank]; omega)) _ List.nodup_range (List.mem_range.2 hb) s
    exact ⟨u, word⟩
  refine ⟨?_, fun n hn => ?_⟩
  · obtain ⟨u, word⟩ := opened (aBank b 0) (by omega) (by simp only [aBank]; omega)
    rw [State.fget, word]
    exact u.bankOpened_supply b
  · obtain ⟨u, word⟩ := opened (aBank b (0x10 + n)) (by simp only [aBank]; omega) (by simp only [aBank]; omega)
    rw [State.fget, word]
    exact u.bankOpened_pin b hn

/-- Opening a lock touches words of banks only. -/
theorem State.lockOpen_spec (s : State) : s.lockOpen = { s with ws := s.lockOpen.ws } ∧ ∀ a, 0xC50300 ≤ a → s.lockOpen.rd a = s.rd a := by
  have bank : ∀ (u : State) b, u.bankOpened b = { u with ws := (u.bankOpened b).ws } := fun u b =>
    List.foldlRecOn (motive := fun v : State => v = { u with ws := v.ws }) _ _ rfl fun v hv n _ => by
      rw [State.pinSecured, State.fset, State.wr, hv]
  refine ⟨?_, fun a ha => ?_⟩
  · rw [State.lockOpen_eq]
    exact List.foldlRecOn (motive := fun v : State => v = { s with ws := v.ws }) _ _ rfl fun v hv n _ => (bank v n).trans (by rw [hv])
  · rw [State.lockOpen_eq]
    refine foldl_untouched (view := fun u : State => u.rd a) _ (fun u b hb => u.bankOpened_rd_ne b ?_) s
    have := List.mem_range.1 hb
    simp only [aBank]
    omega

/-- The fuses are read. -/
def State.fused (s : State) (disagree : BitVec 12) : State :=
  ({ s with
    start := .fused, gcfg := Vector.replicate 3 s.gcfgFuse
    pow := { s.pow with resetOutLow := false, prsntLow := true, sysrstLow := false } } : State).fset (aRot 8) 23 12 disagree.toNat

theorem fuseLoad_ignored {d : BitVec 12} (h : s.start ≠ .reset ∨ s.pow.st = .keep) : Completes (.fuseLoad d) s fun t => t = s := by
  refine ⟨s, ?_, rfl⟩
  change execFuseLoad d s = _
  exact if_pos h

theorem State.fused_disagree (s : State) (d : BitVec 12) : (s.fused d).fget (aRot 8) 23 12 = d.toNat := by
  have := d.isLt
  rw [State.fget, State.fused, State.fset_rd, if_pos rfl, fld_putFld _ _ (by decide) (by decide)]
  omega

theorem fuseLoad_completes {d : BitVec 12} (reset : s.start = .reset) (up : s.pow.st ≠ .keep) : Completes (.fuseLoad d) s fun t =>
    t.start = .fused ∧ t.fget (aRot 8) 23 12 = d.toNat ∧ t.fuses = s.fuses ∧
    t.pow = { s.pow with resetOutLow := false, prsntLow := true, sysrstLow := false } ∧ (s.fuses.flock = true → WordsKept s t [aRot 8]) ∧
    (s.fuses.flock = false → ∀ b < 12, t.fget (aBank b 0) 23 20 = 0 ∧ ∀ n < 24, t.fget (aBank b (0x10 + n)) 23 22 = 3) := by
  refine ⟨if s.fuses.flock then s.fused d else (s.fused d).lockOpen, ?_, ?_⟩
  · change execFuseLoad d s = _
    exact if_neg (by simp [reset, up])
  · split
    next locked =>
      refine ⟨rfl, s.fused_disagree d, rfl, rfl, fun _ a ha => ?_, fun opened => ?_⟩
      · rw [State.fused, State.fset_rd, if_neg (by simpa using ha)]
        rfl
      · rw [locked] at opened
        cases opened
    next opened =>
      obtain ⟨only, words⟩ := (s.fused d).lockOpen_spec
      refine ⟨?_, ?_, ?_, ?_, fun locked => absurd locked opened, fun _ b hb => (s.fused d).lockOpen_bank hb⟩
      · rw [only]
        rfl
      · rw [State.fget, words _ (by decide)]
        exact s.fused_disagree d
      · rw [only]
        rfl
      · rw [only]
        rfl

end

section
variable {s t u : State}

/-! ### A change of device state (R250) -/

theorem State.toDev_only (s : State) (d : DevState) (reason : BitVec 8) :
    s.toDev d reason = { s with dev := d, reason := reason, hw := (s.toDev d reason).hw, pcie := (s.toDev d reason).pcie } := by
  unfold State.toDev State.evState
  dsimp only
  rw [State.raise_eq]
  rfl

theorem State.toDev_evFlag (s : State) (d : DevState) (reason : BitVec 8) : (s.toDev d reason).evFlag 45 = true := State.raise_evFlag _ (by decide)

theorem State.toDev_reason (s : State) (d : DevState) (reason : BitVec 8) : fld ((s.toDev d reason).hwRd 0x008) 19 12 = reason.toNat := by
  have := reason.isLt
  unfold State.toDev State.evState
  rw [State.raise_hwRd_ne _ _ (by decide) (by decide), State.hwRd_hwWr_same, fld_putFld _ _ (by decide) (by decide)]
  omega

theorem State.ledgerSave_only (s : State) : s.ledgerSave = { s with flash := s.ledgerSave.flash } := by
  unfold State.ledgerSave
  split <;> rfl

theorem State.ledgerSave_evFlag (s : State) (n : Nat) : s.ledgerSave.evFlag n = s.evFlag n := State.evFlag_congr (by rw [State.ledgerSave_only]) n

/-- A device state other than READY is entered. -/
theorem State.enterDev_eq (s : State) {d : DevState} (other : d ≠ .ready) (reason : BitVec 8) : s.enterDev d reason = (s.toDev d reason).ledgerSave := by
  unfold State.enterDev
  rw [if_neg other]

theorem State.enterDev_start (s : State) (d : DevState) (reason : BitVec 8) :
    (s.enterDev d reason).start = s.start ∧ (s.enterDev d reason).dev = d ∧ (s.enterDev d reason).reason = reason := by
  have saved : (s.toDev d reason).ledgerSave.start = s.start ∧ (s.toDev d reason).ledgerSave.dev = d ∧ (s.toDev d reason).ledgerSave.reason = reason := by
    rw [State.ledgerSave_only, State.toDev_only]
    exact ⟨rfl, rfl, rfl⟩
  unfold State.enterDev
  dsimp only
  split
  · exact saved
  · exact saved

/-! ### Caeruno's boot (R273, R373) -/

/-- The device's state, its heads and its DRAM are the same. -/
def Bystanding (s t : State) : Prop := t.dev = s.dev ∧ t.heads = s.heads ∧ t.dram = s.dram

theorem Bystanding.refl (s : State) : Bystanding s s := ⟨rfl, rfl, rfl⟩

theorem Bystanding.trans (p : Bystanding s t) (q : Bystanding t u) : Bystanding s u := by
  obtain ⟨dev, heads, dram⟩ := q
  obtain ⟨dev', heads', dram'⟩ := p
  exact ⟨dev.trans dev', heads.trans heads', dram.trans dram'⟩

theorem Bystanding.foldl {α : Type} (f : State → α → State) (keeps : ∀ t e, Bystanding t (f t e)) (l : List α) (s : State) : Bystanding s (l.foldl f s) :=
  List.foldlRecOn (motive := Bystanding s) l f (.refl s) fun _ ht e _ => ht.trans (keeps _ e)

theorem Bystanding.ite {p : Prop} [Decidable p] (ht : Bystanding s t) (hu : Bystanding s u) : Bystanding s (if p then t else u) := by
  split <;> assumption

theorem Bystanding.coreUp (s : State) (k : Core) : Bystanding s (s.coreUp k) := by
  unfold State.coreUp
  exact .ite ⟨rfl, rfl, rfl⟩ ⟨rfl, rfl, rfl⟩

theorem Bystanding.loadRecords (s : State) : Bystanding s s.loadRecords := by
  unfold State.loadRecords
  dsimp only
  split
  · exact .refl s
  · refine .ite ⟨rfl, rfl, rfl⟩ ?_
    rw [State.evIntegrity, State.raise_eq]
    exact ⟨rfl, rfl, rfl⟩

theorem Bystanding.rmStat (s : State) (r : Nat) : Bystanding s (s.rmStat r) := ⟨rfl, rfl, rfl⟩

theorem Bystanding.remaps (s : State) (ms : List Remap) : Bystanding s { s with repair := { s.repair with remaps := ms } } := ⟨rfl, rfl, rfl⟩

theorem Bystanding.loadRemaps (s : State) : Bystanding s s.loadRemaps := by
  unfold State.loadRemaps
  exact Bystanding.trans (.remaps s _) (.foldl _ (fun t r => .rmStat t r) _ _)

/-- Caeruno's own memory. -/
theorem Bystanding.cae (s : State) (x : CaeSt) : Bystanding s { s with cae := x } := ⟨rfl, rfl, rfl⟩

theorem Bystanding.setLedger (s : State) (i : Nat) (v : Word) : Bystanding s (s.setLedger i v) := ⟨rfl, rfl, rfl⟩

theorem Bystanding.ledgerInc (s : State) (i : Nat) : Bystanding s (s.ledgerInc i) := ⟨rfl, rfl, rfl⟩

theorem Bystanding.ledgerInc48 (s : State) (i : Nat) : Bystanding s (s.ledgerInc48 i) := ⟨rfl, rfl, rfl⟩

theorem Bystanding.msLost (s : State) : Bystanding s s.msLost := by
  have counted : Bystanding s s.msCounted := by
    unfold State.msCounted
    exact (Bystanding.ledgerInc48 s 0).trans (.ite (.ledgerInc _ _) (.refl _))
  unfold State.msLost State.msUnavailable
  exact (counted.trans ((Bystanding.ledgerInc48 _ 2).trans (.ledgerInc _ _))).trans (.foldl _ (fun t _ => .ite (.ledgerInc t _) (.refl t)) _ _)

theorem Bystanding.ledgerLoad (s : State) : Bystanding s s.ledgerLoad := by
  unfold State.ledgerLoad
  dsimp only
  refine Bystanding.trans ?_ (.cae _ _)
  refine Bystanding.trans ?_ (.ite (.foldl _ (fun u _ => .msLost u) _ _) (.refl _))
  refine Bystanding.trans ?_ (.setLedger _ 16 _)
  exact Bystanding.trans (.cae s _) (.ite (.ledgerInc _ 12) (.refl _))

theorem Bystanding.caerunoRuns (s : State) (version abi : Word) : Bystanding s (s.caerunoRuns version abi) := by
  rw [State.caerunoRuns_eq]
  exact (Bystanding.coreUp s 0).trans ((Bystanding.coreUp _ 1).trans ((Bystanding.loadRecords _).trans ((Bystanding.loadRemaps _).trans
    ((Bystanding.ledgerLoad _).trans ⟨rfl, rfl, rfl⟩))))

/-- Caeruno runs on both cores, in DUPLEX. -/
theorem State.caerunoRuns_duplex (s : State) (version abi : Word) : let t := s.caerunoRuns version abi
    t.start = .booted ∧ t.alive 0 = true ∧ t.alive 1 = true ∧ t.role 0 = 1 ∧ t.role 1 = 1 := by
  obtain ⟨words, -⟩ := KeepsServing.caerunoRuns s version abi
  have core : ∀ k : Core, (s.caerunoRuns version abi).rd (aCore k.val 0) = ((s.coreUp 0).coreUp 1).rd (aCore k.val 0) := fun k =>
    words _ (by simp only [aCore]; omega)
  have alive : ∀ k : Core, (s.caerunoRuns version abi).alive k = ((s.coreUp 0).coreUp 1).alive k := fun k => by simp only [State.alive, State.bget, core k]
  have role : ∀ k : Core, (s.caerunoRuns version abi).role k = ((s.coreUp 0).coreUp 1).role k := fun k => by simp only [State.role, State.fget, core k]
  have beside : (s.coreUp 0).alive (peer 1) = true := by
    rw [State.coreUp_alive]
    rfl
  refine ⟨rfl, ?_, ?_, ?_, ?_⟩
  · rw [alive, State.coreUp_alive, State.coreUp_alive]; rfl
  · rw [alive, State.coreUp_alive]; rfl
  · rw [role, State.coreUp_duplex _ 1 0 beside]
  · rw [role, State.coreUp_duplex _ 1 1 beside]

theorem caerunoBoot_ignored {a b : Bool} (h : s.start ≠ .fused ∨ s.reason = 1) : Completes (.caerunoBoot a b) s fun t => t = s := by
  refine ⟨s, ?_, rfl⟩
  change execCaerunoBoot a b s = _
  exact if_pos h

/-- The copy that a boot starts, if any. -/
def State.bootFrom (s : State) (a b : Bool) : Option Nat := if s.fuses.flock && s.flashSize != 0 then s.bootCopy a b else none

theorem exec_caerunoBoot (a b : Bool) (fused : s.start = .fused) (first : s.reason ≠ 1) : exec (.caerunoBoot a b) s =
    match s.bootFrom a b with
    | some o => .next (s.caerunoRuns (wd (ofBytesLE (s.flashBytes (o + 18) 3))) (wd (ofBytesLE (s.flashBytes (o + 6) 3))))
    | none => .next (s.toDev .boot 1) := by
  change execCaerunoBoot a b s = _
  unfold execCaerunoBoot
  rw [if_neg (not_or.2 ⟨not_not_intro fused, first⟩)]
  rfl

theorem caerunoBoot_nofw {a b : Bool} (fused : s.start = .fused) (first : s.reason ≠ 1)
    (none : s.fuses.flock = false ∨ s.flashSize = 0 ∨ s.bootCopy a b = none) : Completes (.caerunoBoot a b) s fun t =>
    t.dev = .boot ∧ t.reason = 1 ∧ t.evFlag 45 = true ∧ t.start = .fused ∧ WordsKept s t [] ∧ fld (t.hwRd 0x008) 19 12 = 1 := by
  have copy : s.bootFrom a b = Option.none := by
    unfold State.bootFrom
    split
    next h =>
      simp only [Bool.and_eq_true, bne_iff_ne, ne_eq] at h
      rcases none with e | e | e
      · rw [e] at h
        cases h.1
      · exact absurd e h.2
      · exact e
    next => rfl
  refine ⟨s.toDev .boot 1, ?_, ?_, ?_, s.toDev_evFlag _ _, ?_, fun a _ => ?_, s.toDev_reason _ _⟩
  · rw [exec_caerunoBoot a b fused first, copy]
  · rw [State.toDev_only]
  · rw [State.toDev_only]
  · rw [State.toDev_only]
    exact fused
  · rw [State.toDev_only]
    rfl

theorem caerunoBoot_completes {a b : Bool} {o : Nat} (fused : s.start = .fused) (first : s.reason ≠ 1) (lock : s.fuses.flock = true)
    (flash : s.flashSize ≠ 0) (copy : s.bootCopy a b = some o) : Completes (.caerunoBoot a b) s fun t =>
    t.start = .booted ∧ t.alive 0 = true ∧ t.alive 1 = true ∧ t.role 0 = 1 ∧ t.role 1 = 1 ∧ t.dev = s.dev ∧ t.heads = s.heads ∧ t.dram = s.dram := by
  let version := wd (ofBytesLE (s.flashBytes (o + 18) 3))
  let abi := wd (ofBytesLE (s.flashBytes (o + 6) 3))
  have from' : s.bootFrom a b = some o := by
    unfold State.bootFrom
    rw [if_pos (by simp [lock, flash]), copy]
  obtain ⟨start, alive0, alive1, role0, role1⟩ := s.caerunoRuns_duplex version abi
  exact ⟨s.caerunoRuns version abi, by rw [exec_caerunoBoot a b fused first, from'], start, alive0, alive1, role0, role1, Bystanding.caerunoRuns s version abi⟩

/-! ### The fabric load (R201, R250) -/

/-- Start-up ends, with the fabric loaded or not. -/
def State.fabricUp (s : State) (ok : Bool) : State :=
  if ok then ({ s with start := .up } : State).enterDev .ready 2 else ({ s with start := .up } : State).enterDev .maint 4

theorem exec_fabricLoad (checked : s.start = .checked) (boot : s.dev = .boot) :
    exec .fabricLoad s = .next ((s.tryImages s.candidates).1.fabricUp (s.tryImages s.candidates).2) := by
  change execFabricLoad s = _
  unfold execFabricLoad
  rw [if_neg (not_not_intro checked), if_neg (not_not_intro boot)]
  rfl

theorem fabricLoad_ignored (other : s.start ≠ .checked) : Completes .fabricLoad s fun t => t = s := by
  refine ⟨s, ?_, rfl⟩
  change execFabricLoad s = _
  exact if_pos other

theorem fabricLoad_again (checked : s.start = .checked) (other : s.dev ≠ .boot) : Completes .fabricLoad s fun t => t = { s with start := .up } := by
  refine ⟨_, ?_, rfl⟩
  change execFabricLoad s = _
  unfold execFabricLoad
  rw [if_neg (not_not_intro checked), if_pos other]

theorem fabricLoad_noimage (checked : s.start = .checked) (boot : s.dev = .boot) (none : s.candidates = []) : Completes .fabricLoad s fun t =>
    t.start = .up ∧ t.dev = .maint ∧ t.reason = 4 ∧ t.evFlag 45 = true ∧ t.pads = s.pads ∧ WordsKept s t [] := by
  let u : State := { s with start := .up }
  have entered : exec .fabricLoad s = .next (u.enterDev .maint 4) := by
    rw [exec_fabricLoad checked boot, none]
    rfl
  obtain ⟨start, dev, reason⟩ := u.enterDev_start .maint 4
  refine ⟨_, entered, start, dev, reason, ?_, ?_, fun a _ => ?_⟩
  · rw [State.enterDev_eq _ (by decide), State.ledgerSave_evFlag]
    exact u.toDev_evFlag _ _
  · rw [State.enterDev_eq _ (by decide), State.ledgerSave_only, State.toDev_only]
  · rw [State.enterDev_eq _ (by decide), State.ledgerSave_only, State.toDev_only]
    rfl

theorem fabricLoad_completes (checked : s.start = .checked) (boot : s.dev = .boot) : Completes .fabricLoad s fun t =>
    t.start = .up ∧ (t.dev = .ready ∧ t.reason = 2 ∨ t.dev = .maint ∧ t.reason = 4) := by
  refine ⟨_, exec_fabricLoad checked boot, ?_⟩
  generalize (s.tryImages s.candidates).1 = t
  unfold State.fabricUp
  split
  · obtain ⟨start, dev, reason⟩ := ({ t with start := .up } : State).enterDev_start .ready 2
    exact ⟨start, .inl ⟨dev, reason⟩⟩
  · obtain ⟨start, dev, reason⟩ := ({ t with start := .up } : State).enterDev_start .maint 4
    exact ⟨start, .inr ⟨dev, reason⟩⟩

/-! ### SAFE (R250, R251) -/

theorem State.toSafe_ctxs (s : State) (reason : BitVec 8) (c : Ctx) : (s.toSafe reason).cae.ctxs[c].st ≠ 2 := by
  have stopped : (s.toSafe reason).cae.ctxs = (s.toDev .safe reason).stopApplets.cae.ctxs := by
    unfold State.toSafe
    rw [State.ledgerSave_only]
  have mapped : (s.toDev .safe reason).stopApplets.cae.ctxs[c] =
      if (s.toDev .safe reason).cae.ctxs[c].st = 2 then { (s.toDev .safe reason).cae.ctxs[c] with st := 3 } else (s.toDev .safe reason).cae.ctxs[c] :=
    Vector.getElem_map _ _
  rw [stopped, mapped]
  split
  next => exact (by decide : (3 : Nat) ≠ 2)
  next other => exact other

theorem State.toSafe_evFlag (s : State) (reason : BitVec 8) : (s.toSafe reason).evFlag 45 = true := by
  unfold State.toSafe
  rw [State.ledgerSave_evFlag]
  exact s.toDev_evFlag _ _

theorem integrityFailure_ignored (boot : s.dev = .boot) : Completes .caerunoIntegrityFailure s fun t => t = s := by
  refine ⟨s, ?_, rfl⟩
  change execCaerunoIntegrityFailure s = _
  exact if_pos boot

theorem integrityFailure_completes (up : s.dev ≠ .boot) : Completes .caerunoIntegrityFailure s fun t => t.dev = .safe ∧ t.reason = 7 ∧ t.evFlag 45 = true ∧
    t.heads = s.heads ∧ t.pads = s.pads ∧ (∀ c : Ctx, t.cae.ctxs[c].st ≠ 2) := by
  refine ⟨s.toSafe 7, if_neg up, ?_, ?_, s.toSafe_evFlag 7, ?_, ?_, s.toSafe_ctxs 7⟩ <;> rw [State.toSafe_only]

end

section
variable {s t u : State}

/-! ### PCIE_PERST_N (R356) -/

theorem State.mbFree_rd (s : State) (m : Mbox) (a : Nat) : (s.mbFree m).rd a = if a = aMbctl m.val then putFld (s.rd a) 23 17 0 else s.rd a := by
  rw [State.mbFree, State.modMbox_rd, State.fset_rd]
  split
  next e => rw [e]
  next => rfl

theorem State.mbFree_phase (s : State) (m : Mbox) : (s.mbFree m).mbPhase m = 0 := by
  rw [State.mbPhase, State.fget, State.mbFree_rd, if_pos rfl]
  refine fld_eq_zero fun j low high => ?_
  rw [bit_putFld _ _ (by decide), if_pos (by omega)]
  exact Nat.zero_testBit _

/-- A mailbox that the host may lose: its control word and its own state, nothing else. -/
theorem State.hostLost_spec (s : State) (m : Mbox) : let t := s.hostLost m
    t = { s with ws := t.ws, mboxes := t.mboxes } ∧ (∀ a, a ≠ aMbctl m.val → t.rd a = s.rd a) ∧ ∀ j : Mbox, j ≠ m → t.mboxes[j] = s.mboxes[j] := by
  unfold State.hostLost
  dsimp only
  split
  · exact ⟨rfl, fun _ _ => rfl, fun _ _ => rfl⟩
  · split
    · exact ⟨rfl, fun a ha => by rw [State.mbFree_rd, if_neg ha], fun j ne => getElem_vmod_ne _ _ ne⟩
    · exact ⟨rfl, fun _ _ => rfl, fun j ne => getElem_vmod_ne _ _ ne⟩

/-- What the host's loss makes of mailbox m. -/
def HostLost (s t : State) (m : Mbox) : Prop :=
  (s.mbClaimant m = 1 → (s.mbPhase m = 1 ∨ s.mbPhase m = 4) → t.mbPhase m = 0) ∧
    (s.mbClaimant m = 1 → s.mbPhase m ≠ 1 → s.mbPhase m ≠ 4 → t.mbPhase m = s.mbPhase m ∧ t.mboxes[m].orphan = true) ∧
    (s.mbClaimant m ≠ 1 → t.mbPhase m = s.mbPhase m ∧ t.mboxes[m] = s.mboxes[m])

theorem State.hostLost_own (s : State) (m : Mbox) : HostLost s (s.hostLost m) m := by
  unfold State.hostLost
  split
  next other => exact ⟨fun e => absurd e other, fun e => absurd e other, fun _ => ⟨rfl, rfl⟩⟩
  next mine =>
    split
    next idle => exact ⟨fun _ _ => s.mbFree_phase m, fun _ n1 n4 => absurd idle (not_or.2 ⟨n1, n4⟩), fun e => absurd e mine⟩
    next serving =>
      exact ⟨fun _ idle => absurd idle serving, fun _ _ _ => ⟨rfl, congrArg MboxSt.orphan (getElem_vmod_same _ _ _)⟩, fun e => absurd e mine⟩

/-- The host has lost every mailbox. -/
def State.hostsLost (s : State) : State := (List.finRange 16).foldl State.hostLost s

theorem State.hostsLost_spec (s : State) : let t := s.hostsLost
    t = { s with ws := t.ws, mboxes := t.mboxes } ∧ WordsKept s t ((List.range 16).map aMbctl) ∧ ∀ m, HostLost s t m := by
  unfold State.hostsLost
  refine ⟨?_, fun a ha => ?_, fun m => ?_⟩
  · refine List.foldlRecOn (motive := fun t : State => t = { s with ws := t.ws, mboxes := t.mboxes }) _ _ rfl fun t ht m _ => ?_
    obtain ⟨only, -⟩ := t.hostLost_spec m
    exact only.trans (by rw [ht])
  · refine foldl_untouched (view := fun u : State => u.rd a) _ (fun u m _ => ?_) s
    obtain ⟨-, words, -⟩ := u.hostLost_spec m
    exact words a fun e => ha (List.mem_map.2 ⟨m.val, List.mem_range.2 m.isLt, e.symm⟩)
  · obtain ⟨u, before, after⟩ := foldl_touched (f := State.hostLost) (view := fun u : State => (u.rd (aMbctl m.val), u.mboxes[m])) (i := m)
      (fun u j ne => by
        obtain ⟨-, words, others⟩ := u.hostLost_spec j
        have apart : aMbctl m.val ≠ aMbctl j.val := by
          have : m.val ≠ j.val := fun e => ne (Fin.ext e.symm)
          simp only [aMbctl]
          omega
        exact Prod.ext (words _ apart) (others m ne.symm)) _ (List.nodup_finRange 16) (List.mem_finRange m) s
    obtain ⟨word, box⟩ := Prod.mk.inj before
    obtain ⟨word', box'⟩ := Prod.mk.inj after
    have own := u.hostLost_own m
    unfold HostLost State.mbClaimant State.mbPhase State.fget at own ⊢
    rw [word', box', ← word, ← box]
    exact own

/-- The PCI Express function in reset, and HWCTL as after reset. -/
def State.perstLow (s : State) : State :=
  ({ s with pcie := { PcieSt.reset with inReset := true }, dreads := s.dreads.filter fun x => x.user != .host } : State).hwWr 0x004 0

theorem pciePerstN_completes (s : State) : Completes .pciePerstN s fun t =>
    t.pcie = { State.reset.pcie with inReset := true } ∧ t.hwRd 0x004 = 0 ∧ HostKept s t [0x004] ∧ t.heads = s.heads ∧ t.dram = s.dram ∧
    WordsKept s t ((List.range 16).map aMbctl) ∧ ∀ m : Mbox, HostLost s t m := by
  obtain ⟨only, words, boxes⟩ := s.perstLow.hostsLost_spec
  have host : s.perstLow.hostsLost.hw = s.perstLow.hw := by rw [only]
  refine ⟨s.perstLow.hostsLost, rfl, ?_, ?_, fun o ho => ?_, ?_, ?_, words, boxes⟩
  · rw [only]
    rfl
  · exact (congrArg (fun hw => spGet hwReset hw 0x004) host).trans (State.hwRd_hwWr_same _ _ _)
  · exact (congrArg (fun hw => spGet hwReset hw o) host).trans (State.hwRd_hwWr_ne _ _ (by simpa using ho))
  · rw [only]
    rfl
  · rw [only]
    rfl

end

/-- Settles O27: every reset leaves the state of POR_N but for what its scope keeps, start-up's steps follow one another as R373 orders them, and PCIE_PERST_N reaches the function,
HWCTL and the host's mailboxes alone. -/
theorem resetsAndStartUp : Obligations.ResetsAndStartUp := by
  unfold Obligations.ResetsAndStartUp
  intro s noop supply fresh warm
  refine ⟨fun straps => ?_, fun _ up => sysrstN_completes up, fun none => reset_waits none, fun due => reset_completes due,
    fun d => ⟨fun h => fuseLoad_ignored h, fun reset up => fuseLoad_completes reset up⟩,
    fun a b => ⟨fun h => caerunoBoot_ignored h, fun fused first none => caerunoBoot_nofw fused first none,
      fun o fused first lock flash copy => caerunoBoot_completes fused first lock flash copy⟩,
    fun other => fabricLoad_ignored other, fun checked other => fabricLoad_again checked other,
    fun checked boot none => fabricLoad_noimage checked boot none, fun checked boot => fabricLoad_completes checked boot,
    fun boot => integrityFailure_ignored boot, fun up => integrityFailure_completes up, pciePerstN_completes s, ⟨_, rfl, rfl⟩⟩
  obtain ⟨t, run, ⟨freshly, words, host, dram, lark, timers, seconds, bad⟩, strapping⟩ := porN_completes s straps
  exact ⟨t, run, freshly, words, host, dram, lark, timers, strapping, seconds, bad⟩

end Sys2Proof.Machine
end

section
/-! The commands on streams, loads, keys and fuses as they are served (R196, R202, R203, R216, R217, R265 to R267). -/

namespace Sys2Proof.Machine

open Safety

section
variable {s t u : State} {m : Mbox} {cmd : Nat}

/-! ### Commands that a request's first argument selects -/

/-- A command whose selector the request's first argument fits. -/
theorem State.command_selected (s : State) (m : Mbox) (cmd : Nat) {sel : Word → Bool} (fits : sel (mbArg s m 0) = true) (f : List Word → State → Served) :
    s.command m cmd sel f = s.command m cmd anyReq f := by
  have word : sel (s.reqWord m 3) = true := fits
  unfold State.command State.serve
  simp only [word, anyReq]

theorem run_selected {sel : Word → Bool} {i : Instr} {f : List Word → State → Served} (run : exec i s = .next (s.command m cmd sel f))
    (fits : sel (mbArg s m 0) = true) : exec i s = .next (s.command m cmd anyReq f) :=
  run.trans (congrArg _ (s.command_selected m cmd fits f))

/-! ### Words and parts of the state that going into service keeps -/

theorem State.taken_rd_far (s : State) (m : Mbox) {a : Nat} (apart : a < 0xC7E100 ∨ 0xC7F800 ≤ a) : (s.taken m).rd a = s.rd a :=
  mbKept_rd (s.taken_kept m) List.not_mem_nil apart

theorem aImage_far (e : Nat) (he : e < 64) (w : Nat) (hw : w < 4) : aImage e w < 0xC7E100 := by
  simp only [aImage]
  omega

theorem badImage_congr (words : ∀ e < 64, t.rd (aImage e 0) = s.rd (aImage e 0)) (w : Word) : t.badImage w = s.badImage w := by
  unfold State.badImage State.bget
  by_cases far : 64 ≤ w.toNat
  · simp only [far, decide_true, Bool.true_or]
  · rw [words _ (by omega)]

theorem State.taken_badImage (s : State) (m : Mbox) (w : Word) : (s.taken m).badImage w = s.badImage w :=
  badImage_congr (fun e he => s.taken_rd_far m (.inl (aImage_far e he 0 (by decide)))) w

/-! ### UNSTAGE (R203, R265) -/

theorem State.taken_imageUsed (s : State) (m : Mbox) (e : Nat) : (s.taken m).imageUsed e = s.imageUsed e := by
  have word : ∀ p < 16, ∀ o < 64, (s.taken m).rd (aPad p o) = s.rd (aPad p o) := fun p hp o ho =>
    s.taken_rd_far m (.inl (by simp only [aPad]; omega))
  have pads : ((List.range 16).any fun p => (s.taken m).loaded p && (s.taken m).fget (aPad p 0x0A) 19 14 == e) =
      (List.range 16).any fun p => s.loaded p && s.fget (aPad p 0x0A) 19 14 == e := by
    rw [Bool.eq_iff_iff]
    simp only [List.any_eq_true, List.mem_range]
    refine exists_congr fun p => and_congr_right fun hp => ?_
    rw [State.loaded, State.loaded, State.bget, State.bget, State.fget, State.fget, word p hp 1 (by decide), word p hp 0x0A (by decide)]
  unfold State.imageUsed
  rw [pads, mbKept_same (s.taken_kept m) (·.icp), mbKept_same (s.taken_kept m) (·.icpQueue)]

theorem locOf_aImage (e : Fin 64) (w : Fin 4) : locOf (aImage e.val w.val) = .image e.val w.val := by
  revert e w
  decide +kernel

/-- The words of an image entry as fields. -/
def imageFields : List Field := fieldsOf (.image 0 0)

theorem fieldsOf_aImage (e : Fin 64) : fieldsOf (locOf (aImage e.val 0)) = imageFields :=
  (congrArg fieldsOf (locOf_aImage e 0)).trans rfl

theorem State.put_image_valid (s : State) (e : Fin 64) (v : Word) : (s.put (aImage e.val 0) v).bget (aImage e.val 0) 23 = bit v 23 := by
  have apart : FieldsApart imageFields := by simp [FieldsApart, imageFields, fieldsOf]
  rw [State.bget, State.put, State.rd_wr_same, fieldsOf_aImage]
  exact bit_writeView_rw apart (f := ⟨"VALID", 23, 23, .rw, 0⟩) (List.mem_cons_self) rfl _ _ (by decide) (by decide)

theorem State.put_rd_ne (s : State) {a b : Nat} (v : Word) (ne : b ≠ a) : (s.put a v).rd b = s.rd b := State.rd_wr_ne _ _ ne

/-- Entry e of the image table holds w, and its key is gone. -/
def State.unstaged (s : State) (e : Fin 64) (w : Word) : State := { s.put (aImage e.val 0) w with keys := s.keys.set e.val none }

theorem State.imagePut_invalid (s : State) {e : Fin 64} {w : Word} (valid : s.bget (aImage e.val 0) 23 = true) (free : s.imageUsed e.val = false)
    (off : bit w 23 = false) : s.imagePut e 0 w = s.unstaged e w := by
  unfold State.imagePut
  simp only [off, valid, free]
  rfl

theorem State.unstaged_kept (s : State) (m : Mbox) (e : Fin 64) (w : Word) : MbKept s { s.unstaged e w with keys := s.keys } m [aImage e.val 0] :=
  ⟨fun _ ha => State.put_rd_ne _ _ fun same => ha (List.mem_append_right _ (same ▸ List.mem_cons_self)), fun _ _ => rfl, rfl⟩

theorem Serves.unstaged (serves : Serves s m t) (e : Fin 64) (w : Word) : Serves s m (t.unstaged e w) :=
  serves.keep fun a ha => State.put_rd_ne (a := aImage e.val 0) (b := a) _ _ fun same => by
    have := aImage_far e.val e.isLt 0 (by decide)
    simp only [AnswerWord] at ha
    omega

theorem unstage_completes (acc : MbAccepted s m 0x41) :
    ((64 ≤ (mbArg s m 0).toNat ∨ s.bget (aImage (mbArg s m 0).toNat 0) 23 = false) → Completes (.unstage m) s fun t => MbDone s t m 2 [] ∧ MbKept s t m []) ∧
    ∀ e : Fin 64, mbArg s m 0 = wd e.val → s.bget (aImage e.val 0) 23 = true →
      (s.imageUsed e.val = true → Completes (.unstage m) s fun t => MbDone s t m 1 [] ∧ MbKept s t m []) ∧
      (s.imageUsed e.val = false → Completes (.unstage m) s fun t => MbDone s t m 0 [] ∧ t.bget (aImage e.val 0) 23 = false ∧
        MbKept s { t with keys := s.keys } m [aImage e.val 0]) := by
  have arg : argAt (s.reqArgs m) 0 = mbArg s m 0 := mbAccepted_arg acc (by decide)
  refine ⟨fun bad => ?_, fun e named valid => ?_⟩
  · refine completes_unchanged acc rfl ?_ (by decide)
    simp only [arg]
    rw [if_pos]
    rw [State.taken_badImage]
    simpa [State.badImage] using bad
  · have number : (mbArg s m 0).toNat = e.val := by rw [named]; exact (wd_toNat _).trans (Nat.mod_eq_of_lt (by omega))
    have entry : Fin.ofNat 64 (mbArg s m 0).toNat = e := by rw [number]; exact Fin.ext (Nat.mod_eq_of_lt e.isLt)
    have good : (s.taken m).badImage (mbArg s m 0) = false := by
      rw [State.taken_badImage, State.badImage, number, valid]
      simp
    refine ⟨fun used => ?_, fun free => ?_⟩
    · refine completes_unchanged acc rfl ?_ (by decide)
      simp only [arg, good, entry, State.taken_imageUsed, used]
      rfl
    · let w := putBit ((s.taken m).rd (aImage e.val 0)) 23 false
      have off : bit w 23 = false := by simp [w]
      have valid' : (s.taken m).bget (aImage e.val 0) 23 = true := by
        rw [State.bget, s.taken_rd_far m (.inl (aImage_far e.val e.isLt 0 (by decide)))]
        exact valid
      have put := (s.taken m).imagePut_invalid valid' (by rw [State.taken_imageUsed, free]) off
      refine completes_command acc rfl (t := (s.taken m).unstaged e w) (code := 0) (res := []) ?_ ((State.taken_serves acc).unstaged e w) (by decide)
        fun t done kept => ⟨done, ?_, ?_⟩
      · simp only [arg, good, entry, State.taken_imageUsed, free]
        exact congrArg (Served.done · 0 []) put
      · rw [State.bget, mbKept_rd kept List.not_mem_nil (.inl (aImage_far e.val e.isLt 0 (by decide)))]
        exact ((s.taken m).put_image_valid e w).trans off
      · have cleared := (s.taken m).unstaged_kept m e w
        rw [mbKept_same (s.taken_kept m) (·.keys)] at cleared
        exact mbKept_after (fun t => { t with keys := s.keys }) (mbKept_trans (s.taken_kept m) cleared) kept

end

section
variable {s t u : State} {m : Mbox} {cmd : Nat}

/-! ### Fuses (R196, R266) -/

/-- The fuses are burnt. -/
def State.burnt (s : State) (f : Fuses) : State := { s with fuses := f }

/-- A command that has set fuses, and nothing else. -/
def Burns (s t : State) (m : Mbox) (f : Fuses) : Prop := t.fuses = f ∧ MbKept s { t with fuses := s.fuses } m []

theorem Serves.burnt (serves : Serves s m t) (f : Fuses) : Serves s m (t.burnt f) := serves.keep fun _ _ => rfl

theorem State.taken_fuses (s : State) (m : Mbox) : (s.taken m).fuses = s.fuses := mbKept_same (s.taken_kept m) (·.fuses)

theorem burns_of_kept (taken : MbKept s t m []) (same : t.fuses = s.fuses) {f : Fuses} (kept : MbKept (t.burnt f) u m []) : Burns s u m f := by
  refine ⟨mbKept_same kept (·.fuses), ?_⟩
  have first : MbKept s { t.burnt f with fuses := s.fuses } m [] := by
    rw [← same]
    exact taken
  exact mbKept_after (fun t => { t with fuses := s.fuses }) first kept

/-- A command whose meaning burns fuses. -/
theorem completes_burnt (acc : MbAccepted s m cmd) {i : Instr} {f : List Word → State → Served} (run : exec i s = .next (s.command m cmd anyReq f))
    {fuses : Fuses} {code : Nat} {res : List Word} (meaning : f (s.reqArgs m) (s.taken m) = .done ((s.taken m).burnt fuses) code res) (short : res.length ≤ 61)
    {P : State → Prop} (holds : ∀ u, MbDone s u m code res → Burns s u m fuses → MbKept ((s.taken m).burnt fuses) u m [] → P u) : Completes i s P :=
  completes_command acc run meaning ((State.taken_serves acc).burnt fuses) short fun _ done kept =>
    holds _ done (burns_of_kept (s.taken_kept m) (s.taken_fuses m) kept) kept

/-- The image entry that a request names, and its key. -/
theorem State.taken_key {e : Fin 64} {k : KeyEnt} {w : Word} (named : w = wd e.val) (valid : s.bget (aImage e.val 0) 23 = true) (key : s.keys[e] = some k) :
    (s.taken m).badImage w = false ∧ (s.taken m).keys[Fin.ofNat 64 w.toNat] = some k := by
  have number : w.toNat = e.val := by rw [named]; exact (wd_toNat _).trans (Nat.mod_eq_of_lt (by omega))
  have entry : Fin.ofNat 64 w.toNat = e := by rw [number]; exact Fin.ext (Nat.mod_eq_of_lt e.isLt)
  refine ⟨?_, ?_⟩
  · rw [State.taken_badImage, State.badImage, number, valid]
    simp
  · simp only [entry]
    rw [mbKept_same (s.taken_kept m) (·.keys), key]

theorem arbraise_completes (acc : MbAccepted s m 0x45) {e : Fin 64} {k : KeyEnt} (named : mbArg s m 0 = wd e.val) (valid : s.bget (aImage e.val 0) 23 = true)
    (key : s.keys[e] = some k) : Completes (.arbraise m) s fun t => MbDone s t m 0 [t.secfuse] ∧ Burns s t m (s.fuses.raiseArb k.arb) := by
  obtain ⟨good, held⟩ := State.taken_key (m := m) named valid key
  have arg : argAt (s.reqArgs m) 0 = mbArg s m 0 := mbAccepted_arg acc (by decide)
  refine completes_burnt acc rfl (fuses := s.fuses.raiseArb k.arb) (code := 0) (res := [((s.taken m).burnt (s.fuses.raiseArb k.arb)).secfuse]) ?_ (by simp)
    fun t done burns kept => ⟨?_, burns⟩
  · simp only [arg, good, held, State.taken_fuses]
    rfl
  · rw [mbKept_same kept (·.secfuse)]
    exact done

theorem revoke_completes (acc : MbAccepted s m 0x47) {e : Fin 64} {k : KeyEnt} {n : Fin 4} (slot : mbArg s m 0 = wd n.val) (named : mbArg s m 1 = wd e.val)
    (valid : s.bget (aImage e.val 0) 23 = true) (key : s.keys[e] = some k) :
    ((k.sigslot = n.val ∨ s.fuses.slotrev.getLsbD k.sigslot = true) → Completes (.revoke m) s fun t => MbDone s t m 3 [] ∧ MbKept s t m []) ∧
    (k.sigslot ≠ n.val → s.fuses.slotrev.getLsbD k.sigslot = false → Completes (.revoke m) s fun t =>
      MbDone s t m 0 [t.secfuse] ∧ Burns s t m (s.fuses.revoke n.val)) := by
  obtain ⟨good, held⟩ := State.taken_key (m := m) named valid key
  have arg0 : argAt (s.reqArgs m) 0 = mbArg s m 0 := mbAccepted_arg acc (by decide)
  have arg1 : argAt (s.reqArgs m) 1 = mbArg s m 1 := mbAccepted_arg acc (by decide)
  have number : (mbArg s m 0).toNat = n.val := by rw [slot]; exact (wd_toNat _).trans (Nat.mod_eq_of_lt (by omega))
  have small : ¬ 4 ≤ n.val := by omega
  refine ⟨fun own => ?_, fun other live => ?_⟩
  · refine completes_unchanged acc rfl ?_ (by decide)
    simp only [arg0, arg1, good, held, number, State.taken_fuses]
    rw [if_neg small, if_pos (by simpa using own)]
  · refine completes_burnt acc rfl (fuses := s.fuses.revoke n.val) (code := 0) (res := [((s.taken m).burnt (s.fuses.revoke n.val)).secfuse]) ?_ (by simp)
      fun t done burns kept => ⟨?_, burns⟩
    · simp only [arg0, arg1, good, held, number, State.taken_fuses]
      rw [if_neg small, if_neg (by simp [other, live])]
      rfl
    · rw [mbKept_same kept (·.secfuse)]
      exact done

theorem orBytes_spec (a b : List Byte) : (orBytes a b).length = a.length ∧ ∀ i < a.length, nth 0 (orBytes a b) i = nth 0 a i ||| nth 0 b i := by
  refine ⟨by simp [orBytes], fun i hi => ?_⟩
  simp [orBytes, nth, hi]

/-- The arguments of a request from the k-th on, as far as it has them. -/
theorem reqArgs_slice (s : State) (m : Mbox) {k n : Nat} (inside : k + n ≤ s.reqNarg m) :
    ((s.reqArgs m).drop k).take n = (List.range n).map fun i => mbArg s m (k + i) := by
  refine List.ext_getElem (by simp [State.reqArgs]; omega) fun i _ _ => ?_
  simp [State.reqArgs, mbArg, Nat.add_comm]

theorem famkey_completes (acc : MbAccepted s m 0x46) :
    (mbArg s m 0 = 0 → Completes (.famkey m) s fun t => MbDone s t m 2 [] ∧ MbKept s t m []) ∧
    (mbArg s m 0 ≠ 0 → s.fuses.fklock = true → Completes (.famkey m) s fun t => MbDone s t m 3 [] ∧ MbKept s t m []) ∧
    (mbArg s m 0 ≠ 0 → s.fuses.fklock = false → Completes (.famkey m) s fun t => MbDone s t m 0 [s.fuses.famid ||| mbArg s m 0] ∧
      let key := (bytesOfWords ((List.range 11).map fun i => mbArg s m (2 + i))).take 32
      t.fuses.famk.length = s.fuses.famk.length ∧ (∀ i < s.fuses.famk.length, nth 0 t.fuses.famk i = nth 0 s.fuses.famk i ||| nth 0 key i) ∧
      Burns s t m { s.fuses with famid := s.fuses.famid ||| mbArg s m 0, famk := t.fuses.famk, fklock := bit (mbArg s m 1) 0 }) := by
  have arg0 : argAt (s.reqArgs m) 0 = mbArg s m 0 := mbAccepted_arg acc (by decide)
  have arg1 : argAt (s.reqArgs m) 1 = mbArg s m 1 := mbAccepted_arg acc (by decide)
  have narg : 13 ≤ s.reqNarg m := by
    obtain ⟨-, -, -, least, -⟩ := acc
    exact least
  have words : ((s.reqArgs m).drop 2).take 11 = (List.range 11).map fun i => mbArg s m (2 + i) := reqArgs_slice s m (by omega)
  refine ⟨fun none => ?_, fun some locked => ?_, fun some free => ?_⟩
  · refine completes_unchanged acc rfl ?_ (by decide)
    simp only [arg0]
    exact if_pos none
  · refine completes_unchanged acc rfl ?_ (by decide)
    simp only [arg0, State.taken_fuses, locked]
    rw [if_neg some]
    rfl
  · let key := (bytesOfWords ((List.range 11).map fun i => mbArg s m (2 + i))).take 32
    refine completes_burnt acc rfl (fuses := s.fuses.setFamily (mbArg s m 0) key (bit (mbArg s m 1) 0)) (code := 0) (res := [s.fuses.famid ||| mbArg s m 0]) ?_
      (by simp) fun t done burns kept => ?_
    · simp only [arg0, arg1, words, State.taken_fuses, free]
      rw [if_neg some]
      rfl
    · obtain ⟨long, bytes⟩ := orBytes_spec s.fuses.famk key
      obtain ⟨fuses, rest⟩ := burns
      have famk : t.fuses.famk = orBytes s.fuses.famk key := by rw [fuses]; rfl
      refine ⟨done, by rw [famk, long], fun i hi => by rw [famk, bytes i hi], ?_, rest⟩
      rw [famk, fuses, Fuses.setFamily, free, Bool.false_or]

end

section
variable {s t u : State} {m : Mbox} {cmd : Nat}

/-! ### The attestation key (R267) -/

theorem bytesBE_length (k n : Nat) : (bytesBE k n).length = k := (List.length_reverse ..).trans (bytesLE_length k n)

theorem sha256Blocks_length (n : Nat) : ∀ h m, (sha256Blocks n h m).length ≤ h.length := by
  induction n with
  | zero => exact fun _ _ => le_refl _
  | succ n ih =>
    refine fun h m => (ih _ _).trans ?_
    rw [List.length_zipWith]
    exact Nat.min_le_left _ _

theorem sha256_length (m : List Byte) : (sha256 m).length ≤ 32 := by
  have words := sha256Blocks_length ((shaPad 64 8 m).length / 64) sha256H (shaPad 64 8 m)
  have eight : sha256H.length = 8 := rfl
  simp only [sha256, List.length_flatMap, bytesBE_length, List.map_const', List.sum_replicate, smul_eq_mul]
  omega

theorem attestKey_length (drk : List Byte) : (attestKey drk).length ≤ 32 := sha256_length _

theorem xorB_length (a b : List Byte) : (xorB a b).length ≤ a.length := by
  rw [xorB, List.length_zipWith]
  exact Nat.min_le_left _ _

theorem aesEnc_length (ks : List (List Byte)) (b : List Byte) : (aesEnc ks b).length ≤ 16 :=
  (xorB_length _ _).trans (by rw [shiftRows, List.length_map, List.length_range])

theorem chunks_length {α : Type} (k n : Nat) : ∀ l : List α, (chunks k n l).length ≤ n ∧ ∀ c ∈ chunks k n l, c.length ≤ k := by
  induction n with
  | zero => exact fun _ => ⟨le_refl _, fun _ h => absurd h List.not_mem_nil⟩
  | succ n ih =>
    intro l
    unfold chunks
    split
    · exact ⟨Nat.zero_le _, fun _ h => absurd h List.not_mem_nil⟩
    · obtain ⟨few, small⟩ := ih (l.drop k)
      refine ⟨Nat.succ_le_succ few, fun c hc => ?_⟩
      rcases List.mem_cons.1 hc with rfl | rest
      · exact List.length_take_le _ _
      · exact small c rest

/-- The register and the blocks of a wrap are of eight bytes at most. -/
def WrapSmall (n : Nat) (st : List Byte × List (List Byte)) : Prop := st.1.length ≤ 8 ∧ st.2.length ≤ n ∧ ∀ c ∈ st.2, c.length ≤ 8

theorem WrapSmall.step {n : Nat} {st : List Byte × List (List Byte)} (small : WrapSmall n st) (ks : List (List Byte)) (t : Nat) :
    WrapSmall n (wrapStep ks n st t) := by
  obtain ⟨-, few, blocks⟩ := small
  refine ⟨(xorB_length _ _).trans (List.length_take_le _ _), ?_, fun c hc => ?_⟩
  · exact (List.length_set ..).trans_le few
  · rcases List.mem_or_eq_of_mem_set hc with old | rfl
    · exact blocks c old
    · have := aesEnc_length ks (st.1 ++ nth [] st.2 (t % n))
      rw [List.length_drop]
      omega

theorem keyWrap_length (kek key : List Byte) : (keyWrap kek key).length ≤ 8 + 8 * (key.length / 8) := by
  have small : WrapSmall (key.length / 8) ((List.range (6 * (key.length / 8))).foldl (wrapStep (aesKeys kek) (key.length / 8))
      (List.replicate 8 0xA6, chunks 8 (key.length / 8) key)) := by
    refine List.foldlRecOn (motive := WrapSmall (key.length / 8)) _ _ ?_ fun st hst t _ => hst.step _ t
    obtain ⟨few, blocks⟩ := chunks_length 8 (key.length / 8) key
    exact ⟨by simp, few, blocks⟩
  obtain ⟨first, few, blocks⟩ := small
  unfold keyWrap
  rw [List.length_append]
  refine Nat.add_le_add first ?_
  rw [List.length_flatten]
  refine (List.sum_le_card_nsmul _ 8 fun k hk => ?_).trans ?_
  · obtain ⟨c, hc, rfl⟩ := List.mem_map.1 hk
    exact blocks c hc
  · rw [List.length_map, smul_eq_mul, Nat.mul_comm]
    exact Nat.mul_le_mul_left 8 few

theorem pointBytes_length (p : Pt) : (pointBytes p).length = 96 := by
  rcases p with _ | ⟨x, y⟩
  · exact List.length_replicate ..
  · simp only [pointBytes, List.length_append, bytesBE_length]

theorem State.attestOut_length (s : State) (de : BitVec 384) (q : Nat × Nat) (nonce : List Byte) : (s.attestOut de q nonce).length ≤ 61 := by
  have wrapped := fun kek => keyWrap_length kek (attestKey s.fuses.drk)
  have key := attestKey_length s.fuses.drk
  simp only [State.attestOut, List.length_append, wordsOfBytes_length, pointBytes_length]
  generalize kdf _ _ _ = kek
  have := wrapped kek
  omega

theorem slotHolds_congr (same : t.fuses = s.fuses) (n : Nat) (pub : List Byte) : t.slotHolds n pub = s.slotHolds n pub := by
  unfold State.slotHolds
  rw [same]

theorem State.taken_attestOut (s : State) (m : Mbox) (de : BitVec 384) (q : Nat × Nat) (nonce : List Byte) :
    (s.taken m).attestOut de q nonce = s.attestOut de q nonce := mbKept_same (s.taken_kept m) (·.attestOut de q nonce)

theorem attkey_completes (acc : MbAccepted s m 0x48) (de : BitVec 384) : let pub := bytesOfWords ((List.range 32).map fun i => mbArg s m (5 + i))
    ((4 ≤ (mbArg s m 0).toNat ∨ onCurve (pubKey pub) = false) → Completes (.attkey m de) s fun t => MbDone s t m 2 [] ∧ MbKept s t m []) ∧
    ((mbArg s m 0).toNat < 4 → onCurve (pubKey pub) = true → s.slotHolds (mbArg s m 0).toNat pub = false →
      Completes (.attkey m de) s fun t => MbDone s t m 3 [] ∧ MbKept s t m []) ∧
    ((mbArg s m 0).toNat < 4 → onCurve (pubKey pub) = true → s.slotHolds (mbArg s m 0).toNat pub = true → Completes (.attkey m de) s fun t =>
      MbDone s t m 0 (s.attestOut de (pubKey pub) (bytesOfWords ((List.range 4).map fun i => mbArg s m (1 + i)))) ∧ MbKept s t m []) := by
  intro pub
  have arg0 : argAt (s.reqArgs m) 0 = mbArg s m 0 := mbAccepted_arg acc (by decide)
  have narg : 37 ≤ s.reqNarg m := by
    obtain ⟨-, -, -, least, -⟩ := acc
    exact least
  have key : bytesOfWords (((s.reqArgs m).drop 5).take 32) = pub := congrArg bytesOfWords (reqArgs_slice s m (by omega))
  have nonce : ((s.reqArgs m).drop 1).take 4 = (List.range 4).map fun i => mbArg s m (1 + i) := reqArgs_slice s m (by omega)
  have slot : ∀ n, (s.taken m).slotHolds n pub = s.slotHolds n pub := fun n => slotHolds_congr (s.taken_fuses m) n pub
  refine ⟨fun bad => ?_, fun low good unheld => ?_, fun low good held => ?_⟩
  · refine completes_unchanged acc rfl ?_ (by decide)
    simp only [arg0, key]
    exact if_pos (by simpa using bad)
  · refine completes_unchanged acc rfl ?_ (by decide)
    simp only [arg0, key, slot, unheld, good]
    rw [if_neg (by simpa using low)]
    rfl
  · refine completes_unchanged acc rfl ?_ (s.attestOut_length _ _ _)
    simp only [arg0, key, slot, held, good, nonce, State.taken_attestOut]
    rw [if_neg (by simpa using low)]
    rfl

end

section
variable {s t u r : State} {m : Mbox} {cmd : Nat}

/-! ### Commands that read DRAM and then decide (R130, R191) -/

/-- Serving m's request of s has reached r by reads of DRAM alone. -/
structure HasRead (s : State) (m : Mbox) (r : State) : Prop where
  serves : Serves s m r
  kept : MbKept s { r with clsBytes := s.clsBytes } m oorWords

theorem State.taken_hasRead (acc : MbAccepted s m cmd) : HasRead s m (s.taken m) := by
  refine ⟨State.taken_serves acc, mbKept_mono (A := []) ?_ fun _ h => absurd h List.not_mem_nil⟩
  rw [← mbKept_same (s.taken_kept m) (·.clsBytes)]
  exact s.taken_kept m

theorem HasRead.caeRead (read : HasRead s m r) (w : Word) (n : Nat) : HasRead s m (r.caeRead w n) := by
  refine ⟨read.serves.caeRead w n, ?_⟩
  have more := mbKept_map (r.caeRead_kept m w n) fun t => { t with clsBytes := s.clsBytes }
  exact mbKept_mono (mbKept_trans read.kept more) fun a ha => (List.mem_append.1 ha).elim id id

/-- A command whose meaning answers after its reads. -/
theorem completes_hasRead (acc : MbAccepted s m cmd) {i : Instr} {f : List Word → State → Served} (run : exec i s = .next (s.command m cmd anyReq f))
    (read : HasRead s m r) {code : Nat} (meaning : f (s.reqArgs m) (s.taken m) = .done r code []) :
    Completes i s fun u => MbDone s u m code [] ∧ MbKept s { u with clsBytes := s.clsBytes } m oorWords :=
  completes_command acc run meaning read.serves (by decide) fun _ done kept => ⟨done, mbKept_after (fun t => { t with clsBytes := s.clsBytes }) read.kept kept⟩

/-- What reads of DRAM do not change. -/
theorem HasRead.same (read : HasRead s m r) {α : Type} (p : State → α) (beside : ∀ v w : State, p (v.bookkept w) = p v := by exact fun _ _ => rfl)
    (uncounted : ∀ (v : State) n, p { v with clsBytes := n } = p v := by exact fun _ _ => rfl) : p r = p s :=
  (uncounted r s.clsBytes).symm.trans (mbKept_same read.kept p beside)

theorem HasRead.rd (read : HasRead s m r) {a : Nat} (hA : a ∉ oorWords) (apart : a < 0xC7E100 ∨ 0xC7F800 ≤ a) : r.rd a = s.rd a :=
  mbKept_rd (t := { r with clsBytes := s.clsBytes }) read.kept hA apart

theorem HasRead.dramAt (read : HasRead s m r) : r.dramAt = s.dramAt :=
  mbKept_dramAt (t := { r with clsBytes := s.clsBytes }) read.kept (by decide) (by decide)

theorem HasRead.dramCap (read : HasRead s m r) : r.dramCap = s.dramCap := by
  have used := read.rd (a := aDram 0) (by decide) (by decide)
  have span := read.rd (a := aDram 1) (by decide) (by decide)
  unfold State.dramCap State.nch State.fget State.bget
  rw [used, span]

theorem aImage_not_oor {e w : Nat} : aImage e w ∉ oorWords := by
  simp only [oorWords, List.mem_map, List.mem_range, aChan, aImage]
  omega

theorem HasRead.image (read : HasRead s m r) {e : Nat} (he : e < 64) {w : Nat} (hw : w < 4) : r.rd (aImage e w) = s.rd (aImage e w) :=
  read.rd aImage_not_oor (.inl (aImage_far e he w hw))

theorem HasRead.freeImages (read : HasRead s m r) : r.freeImages = s.freeImages := by
  unfold State.freeImages
  refine List.filter_congr fun e he => ?_
  rw [State.bget, State.bget, read.image (List.mem_range.1 he) (by decide)]

theorem HasRead.streamFits (read : HasRead s m r) (x : Stream) (n : Nat) : r.streamFits x n = s.streamFits x n := read.same (·.streamFits x n)

theorem HasRead.streamKeyed (read : HasRead s m r) (x : Stream) : r.streamKeyed x = s.streamKeyed x := read.same (·.streamKeyed x)

theorem HasRead.streamKey (read : HasRead s m r) (x : Stream) (g : Nat → Nat → List Byte) (n : Nat) : r.streamKey x g n = s.streamKey x g n :=
  read.same (·.streamKey x g n)

/-! ### BIND (R266): what its checks refuse -/

/-- What BIND reads. -/
def State.bindRead (s : State) (m : Mbox) (x : Stream) : State := (s.taken m).caeRead (mbArg s m 0) (if s.streamFits x x.size then x.size + 48 else 320)

/-- The binding record of a stream under key k0 (R193). -/
def State.bindRecord (s : State) (x : Stream) (k0 : List Byte) : List Byte :=
  ascii "KZBD" ++ keyWrap (kdf s.fuses.drk "KZSW-KEK-DEV" x.sid) k0 ++ List.replicate 4 0

theorem bind_meaning (acc : MbAccepted s m 0x44) : let g := s.dramAt (mbArg s m 0)
    let x := readStream g
    let r := s.bindRead m x
    HasRead s m r ∧ ∃ f, exec (.bind m) s = .next (s.command m 0x44 anyReq f) ∧
      (s.streamFits x x.size = false → f (s.reqArgs m) (s.taken m) = .done r 2 []) ∧
      (s.streamFits x x.size = true → s.streamKeyed x = false → f (s.reqArgs m) (s.taken m) = .done r 3 []) ∧
      ∀ k0, s.streamFits x x.size = true → s.streamKeyed x = true → s.streamKey x g (x.size + 48) = some k0 → x.signed = true → x.tagsGood k0 g = true →
        f (s.reqArgs m) (s.taken m) = .done (r.queueWrite (r.caeUser m) (2048 * (mbArg s m 1).toNat) (s.bindRecord x k0)) 0 [] := by
  intro g x r
  have read : HasRead s m (s.bindRead m x) := (State.taken_hasRead acc).caeRead _ _
  have taken := State.taken_hasRead acc
  have arg0 : argAt (s.reqArgs m) 0 = mbArg s m 0 := mbAccepted_arg acc (by decide)
  have arg1 : argAt (s.reqArgs m) 1 = mbArg s m 1 := mbAccepted_arg acc (by decide)
  have reads : (s.taken m).caeRead (mbArg s m 0) (if s.streamFits x x.size then x.size + 48 else 320) = s.bindRead m x := rfl
  have drk : (s.bindRead m x).fuses.drk = s.fuses.drk := read.same (·.fuses.drk)
  refine ⟨read, _, rfl, fun unfit => ?_, fun fit unkeyed => ?_, fun k0 fit keyed key signed good => ?_⟩ <;>
    simp only [arg0, arg1, taken.dramAt, taken.streamFits] <;>
    rw [reads] <;>
    simp only [read.streamFits, read.streamKeyed, read.streamKey, drk]
  · exact if_pos (by rw [unfit]; rfl)
  · rw [if_neg (by rw [fit]; decide), if_pos (by rw [unkeyed]; rfl)]
  · rw [if_neg (by rw [fit]; decide), if_neg (by rw [keyed]; decide), key]
    exact if_neg (by rw [signed, good]; decide)

theorem bind_refused (acc : MbAccepted s m 0x44) : let x := readStream (s.dramAt (mbArg s m 0))
    let orRead := fun (t : State) (code : Nat) => MbDone s t m code [] ∧ MbKept s { t with clsBytes := s.clsBytes } m oorWords
    (s.streamFits x x.size = false → Completes (.bind m) s fun t => orRead t 2) ∧
    (s.streamFits x x.size = true → s.streamKeyed x = false → Completes (.bind m) s fun t => orRead t 3) := by
  intro x orRead
  obtain ⟨read, f, run, unfits, unkeyeds, -⟩ := bind_meaning acc
  exact ⟨fun unfit => completes_hasRead acc run read (unfits unfit), fun fit unkeyed => completes_hasRead acc run read (unkeyeds fit unkeyed)⟩

/-! ### STAGE (R265): what its checks refuse -/

/-- What STAGE reads. -/
def State.stageRead (s : State) (m : Mbox) : State :=
  ((s.taken m).caeRead (mbArg s m 0) (mbArg s m 1).toNat).caeRead (mbArg s m 2) (3 * (mbArg s m 3).toNat)

theorem stage_meaning (acc : MbAccepted s m 0x40) : let g := s.dramAt (mbArg s m 0)
    let x := readStream g
    let bytes := (mbArg s m 1).toNat
    let map := wordsOfBytes (s.dramAt (mbArg s m 2) 0 (3 * (mbArg s m 3).toNat))
    let r := s.stageRead m
    HasRead s m r ∧ ∃ f, exec (.stage m) s = .next (s.command m 0x40 anyReq f) ∧ f (s.reqArgs m) (s.taken m) =
      if !s.streamFits x bytes then .done r 2 [] else if !s.streamKeyed x then .done r 3 []
      else if s.freeImages.length < x.pads.length || !decide (((x.parts g map).map StagePart.units).sum ≤ s.dramCap / 2048) then .done r 6 []
      else match s.streamKey x g bytes with
        | none => .done r 4 []
        | some k0 => if !x.signed || sha384 (bytesOfWords map) != x.mapdig then .done r 4 [] else
          .done (r.stageGo (r.caeUser m) x g k0 map).1 0 (wd x.padmask :: packEntries (r.stageGo (r.caeUser m) x g k0 map).2) := by
  intro g x bytes map r
  have read : HasRead s m (s.stageRead m) := ((State.taken_hasRead acc).caeRead _ _).caeRead _ _
  refine ⟨read, _, rfl, ?_⟩
  have arg0 : argAt (s.reqArgs m) 0 = mbArg s m 0 := mbAccepted_arg acc (by decide)
  have arg1 : argAt (s.reqArgs m) 1 = mbArg s m 1 := mbAccepted_arg acc (by decide)
  have arg2 : argAt (s.reqArgs m) 2 = mbArg s m 2 := mbAccepted_arg acc (by decide)
  have arg3 : argAt (s.reqArgs m) 3 = mbArg s m 3 := mbAccepted_arg acc (by decide)
  have reads : ((s.taken m).caeRead (mbArg s m 0) (mbArg s m 1).toNat).caeRead (mbArg s m 2) (3 * (mbArg s m 3).toNat) = s.stageRead m := rfl
  simp only [arg0, arg1, arg2, arg3, reads, read.dramAt, read.streamFits, read.streamKeyed, read.streamKey, read.freeImages, read.dramCap]
  rfl

theorem stage_refused (acc : MbAccepted s m 0x40) : let x := readStream (s.dramAt (mbArg s m 0))
    let bytes := (mbArg s m 1).toNat
    let orRead := fun (t : State) (code : Nat) => MbDone s t m code [] ∧ MbKept s { t with clsBytes := s.clsBytes } m oorWords
    (s.streamFits x bytes = false → Completes (.stage m) s fun t => orRead t 2) ∧
    (s.streamFits x bytes = true → s.streamKeyed x = false → Completes (.stage m) s fun t => orRead t 3) ∧
    (s.streamFits x bytes = true → s.streamKeyed x = true → s.freeImages.length < x.pads.length → Completes (.stage m) s fun t => orRead t 6) := by
  intro x bytes orRead
  obtain ⟨read, f, run, meaning⟩ := stage_meaning acc
  refine ⟨fun unfit => ?_, fun fit unkeyed => ?_, fun fit keyed few => ?_⟩
  · exact completes_hasRead acc run read (meaning.trans (if_pos (by rw [unfit]; rfl)))
  · rw [if_neg (by rw [fit]; decide), if_pos (by rw [unkeyed]; rfl)] at meaning
    exact completes_hasRead acc run read meaning
  · rw [if_neg (by rw [fit]; decide), if_neg (by rw [keyed]; decide), if_pos (by rw [decide_eq_true few]; rfl)] at meaning
    exact completes_hasRead acc run read meaning

end

section
variable {s t u : State}

/-! ### Writes that a channel holds (R133, R134) -/

/-- The writes that a channel has accepted, in order. -/
def ChanSt.pending (x : ChanSt) : List DWrite := x.writes ++ x.waiting

theorem ChanSt.takeWrite_pending (x : ChanSt) (w : DWrite) : (x.takeWrite w).pending = insertWrite w x.pending := List.take_append_drop _ _

/-- A write that no write of its cycle and unit is to follow goes last. -/
theorem insertWrite_last {w : DWrite} : ∀ {l : List DWrite}, (∀ x ∈ l, x.cyc = w.cyc → x.addr / 32 ≠ w.addr / 32) → insertWrite w l = l ++ [w]
  | [], _ => rfl
  | x :: l, apart => by
    have here := apart x List.mem_cons_self
    rw [insertWrite, if_neg fun h => here h.1 h.2.1, insertWrite_last fun y hy => apart y (List.mem_cons_of_mem _ hy)]
    rfl

/-- Every channel holds the writes that it held. -/
def SameWrites (s t : State) : Prop := ∀ c : Chan, t.chans[c].pending = s.chans[c].pending

theorem SameWrites.trans (p : SameWrites s t) (q : SameWrites t u) : SameWrites s u := fun c => (q c).trans (p c)

theorem SameWrites.modChan (s : State) (d : Chan) {f : ChanSt → ChanSt} (same : ∀ x, (f x).pending = x.pending) : SameWrites s (s.modChan d f) := by
  intro c
  by_cases e : c = d
  · subst e
    exact (congrArg ChanSt.pending (getElem_vmod_same s.chans c f)).trans (same _)
  · exact congrArg ChanSt.pending (getElem_vmod_ne s.chans f e)

theorem SameWrites.setReads (s : State) (c : Chan) (l : List DRead) : SameWrites s (s.setReads c l) :=
  SameWrites.modChan (f := fun x => { x with reads := s.tagAll l }) s c fun _ => rfl

theorem SameWrites.askUnit (s : State) (q : DramUser) (n deadline line : Nat) (standIn merge : Bool) :
    SameWrites s (s.askUnit q n deadline line standIn merge) := by
  have cycle : SameWrites s (s.dramCycle q) := by
    unfold State.dramCycle
    split <;> exact fun _ => rfl
  unfold State.askUnit
  extract_lets v c rd s1
  have asked : SameWrites s s1 := cycle.trans (.setReads v c _)
  split
  · exact asked
  · extract_lets cu d
    split
    · exact asked.trans (.modChan s1 d fun _ => rfl)
    · exact asked.trans (.setReads s1 d _)

/-- The accesses' number does not fall when a unit is asked for. -/
theorem State.dramCycle_no (s : State) (q : DramUser) : s.dcyc.no ≤ (s.dramCycle q).dcyc.no := by
  unfold State.dramCycle
  split
  · exact le_refl _
  · exact Nat.le_succ _

theorem State.askUnit_no (s : State) (q : DramUser) (n deadline line : Nat) (standIn merge : Bool) :
    s.dcyc.no ≤ (s.askUnit q n deadline line standIn merge).dcyc.no := by
  have cycle := s.dramCycle_no q
  unfold State.askUnit
  extract_lets v c rd s1
  have asked : s1.dcyc = v.dcyc := by
    unfold s1
    rw [State.setReads_eq]
  split
  · rw [asked]
    exact cycle
  · extract_lets cu d
    split
    · change s.dcyc.no ≤ s1.dcyc.no
      rw [asked]
      exact cycle
    · rw [State.setReads_eq]
      change s.dcyc.no ≤ s1.dcyc.no
      rw [asked]
      exact cycle

/-- The number of every write held is of the present cycle at most, and those of the present cycle are of units below n. -/
def WritesBelow (s : State) (n : Nat) : Prop := ∀ c : Chan, ∀ w ∈ s.chans[c].pending, w.cyc ≤ s.dcyc.no ∧ (w.cyc = s.dcyc.no → w.addr / 32 < n)

theorem WritesBelow.later {n : Nat} (below : WritesBelow s n) (same : SameWrites s t) (later : s.dcyc.no ≤ t.dcyc.no) : WritesBelow t n := by
  intro c w hw
  rw [same c] at hw
  obtain ⟨old, low⟩ := below c w hw
  exact ⟨by omega, fun e => low (by omega)⟩

/-- The bytes that a write lays over its unit. -/
def layOver (b : List Byte) (w : DWrite) : List Byte := b.take (w.addr % 32) ++ w.data ++ b.drop (w.addr % 32 + w.data.length)

/-- A unit as a read accepted now sees it: what the writes of its channel lay over it, in order. -/
theorem State.unitNow_of_chan (s : State) {n : Nat} {c : Chan} (chan : s.chanOf (32 * n) = c) :
    s.unitNow n = (s.chans[c].pending.filter fun w => w.addr / 32 == n).foldl layOver (s.dramBytes (32 * n) 32) := by
  subst chan
  rfl

/-- The byte that a read accepted now sees. -/
def State.byteNow (s : State) (a : Nat) : Byte := nth 0 (s.unitNow (a / 32)) (a % 32)

theorem State.nowBytes_one (s : State) (a : Nat) : s.nowBytes a 1 = [s.byteNow a] := by
  have one : unitsOf a 1 = [a / 32] := by
    have : (a + 1 + 31) / 32 - a / 32 = 1 := by omega
    rw [unitsOf, this]
    rfl
  have long := s.unitNow_length (a / 32)
  have inside : a % 32 < (s.unitNow (a / 32)).length := by omega
  rw [State.nowBytes, one]
  simp only [List.map_cons, List.map_nil, List.flatten_cons, List.flatten_nil, List.append_nil]
  rw [List.drop_eq_getElem_cons inside, State.byteNow, nth, List.getD_eq_getElem _ _ inside]
  rfl

theorem nth_layOver {b : List Byte} {w : DWrite} (long : 32 ≤ b.length) (k : Nat) :
    nth 0 (layOver b w) k = if w.addr % 32 ≤ k ∧ k < w.addr % 32 + w.data.length then nth 0 w.data (k - w.addr % 32) else nth 0 b k := by
  have o : w.addr % 32 < 32 := Nat.mod_lt _ (by decide)
  have first : (b.take (w.addr % 32)).length = w.addr % 32 := by rw [List.length_take]; omega
  have both : (b.take (w.addr % 32) ++ w.data).length = w.addr % 32 + w.data.length := by rw [List.length_append, first]
  unfold layOver nth
  by_cases low : k < w.addr % 32
  · rw [if_neg (by omega), List.getD_append _ _ _ _ (by omega), List.getD_append _ _ _ _ (by omega)]
    simp [List.getD_eq_getElem?_getD, low]
  · by_cases mid : k < w.addr % 32 + w.data.length
    · rw [if_pos ⟨by omega, mid⟩, List.getD_append _ _ _ _ (by omega), List.getD_append_right _ _ _ _ (by omega), first]
    · rw [if_neg (by omega), List.getD_append_right _ _ _ _ (by omega), both]
      simp only [List.getD_eq_getElem?_getD, List.getElem?_drop]
      rw [show w.addr % 32 + w.data.length + (k - (w.addr % 32 + w.data.length)) = k by omega]

/-! ### A piece of a write is accepted -/

theorem State.chanOf_unit (s : State) (a : Nat) : s.chanOf (32 * (a / 32)) = s.chanOf a := by
  unfold State.chanOf
  split
  · exact Fin.ext (by simp only [nbits, Nat.shiftRight_eq_div_pow]; omega)
  · exact Fin.ext (by simp only [nbits, Nat.shiftRight_eq_div_pow]; omega)
  · rfl

/-- The state in which a piece joins its channel: the unit it merges with has been asked for. -/
def State.merging (s : State) (q : DramUser) (a n : Nat) : State := if s.mergeDue a n then s.askUnit q (a / 32) 0 0 false true else s

/-- A piece as the channel holds it. -/
def State.pieceOf (s : State) (q : DramUser) (a : Nat) (d : List Byte) : DWrite :=
  { user := q, cls := dramClass q, addr := a, data := d, merge := s.mergeDue a d.length, cyc := (s.merging q a d.length).dcyc.no }

theorem State.merging_asks (s : State) (q : DramUser) (a n : Nat) :
    Asks s (s.merging q a n) ∧ SameWrites s (s.merging q a n) ∧ s.dcyc.no ≤ (s.merging q a n).dcyc.no := by
  unfold State.merging
  split
  · exact ⟨.askUnit s _ _ _ _ _ _, .askUnit s _ _ _ _ _ _, s.askUnit_no _ _ _ _ _ _⟩
  · exact ⟨.refl s, fun _ => rfl, le_refl _⟩

/-- Reads of its unit that were accepted in the same cycle see the piece. -/
def State.pieceSeen (s : State) (q : DramUser) (a : Nat) (d : List Byte) (x : ChanSt) : ChanSt :=
  let u := s.merging q a d.length
  let now := (u.modChan (u.chanOf a) fun x => x.takeWrite (s.pieceOf q a d)).unitNow (a / 32)
  { x with reads := x.reads.map fun r => if r.cyc = u.dcyc.no ∧ r.unit = a / 32 ∧ !r.issued ∧ !r.chk then { r with data := now } else r }

theorem State.takePiece_eq (s : State) (q : DramUser) (a : Nat) (d : List Byte) : ∃ g : ChanSt → ChanSt, (∀ x, (g x).pending = x.pending) ∧
    s.takePiece q a d = ((s.merging q a d.length).modChan (s.chanOf a) fun x => x.takeWrite (s.pieceOf q a d)).modChan (s.chanOf a) g := by
  obtain ⟨asks, -, -⟩ := s.merging_asks q a d.length
  have own : (s.merging q a d.length).chanOf a = s.chanOf a := congrFun asks.chanOf a
  rw [← own]
  exact ⟨s.pieceSeen q a d, fun _ => rfl, rfl⟩

theorem State.takePiece_asks (s : State) (q : DramUser) (a : Nat) (d : List Byte) : Asks s (s.takePiece q a d) ∧ s.dcyc.no ≤ (s.takePiece q a d).dcyc.no ∧
    (s.takePiece q a d).dcyc = (s.merging q a d.length).dcyc := by
  obtain ⟨g, -, piece⟩ := s.takePiece_eq q a d
  obtain ⟨asks, -, later⟩ := s.merging_asks q a d.length
  rw [piece]
  exact ⟨asks.trans ⟨rfl, fun _ _ => rfl⟩, later, rfl⟩

/-- The channel of a piece holds it last; the others hold what they held. -/
theorem State.takePiece_pending (s : State) (q : DramUser) {a : Nat} {d : List Byte} (below : WritesBelow s (a / 32)) (c : Chan) :
    (s.takePiece q a d).chans[c].pending = if c = s.chanOf a then s.chans[c].pending ++ [s.pieceOf q a d] else s.chans[c].pending := by
  obtain ⟨g, same, piece⟩ := s.takePiece_eq q a d
  obtain ⟨-, held, later⟩ := s.merging_asks q a d.length
  rw [piece, SameWrites.modChan _ _ same]
  split
  next e =>
    subst e
    have here : ((s.merging q a d.length).modChan (s.chanOf a) fun x => x.takeWrite (s.pieceOf q a d)).chans[s.chanOf a] =
        (s.merging q a d.length).chans[s.chanOf a].takeWrite (s.pieceOf q a d) := getElem_vmod_same _ _ _
    rw [here, ChanSt.takeWrite_pending, held, insertWrite_last]
    intro w hw same unit
    obtain ⟨old, low⟩ := (below.later held later) (s.chanOf a) w (by rw [held]; exact hw)
    have := low same
    have := (show w.addr / 32 = a / 32 from unit)
    omega
  next e =>
    have there : ((s.merging q a d.length).modChan (s.chanOf a) fun x => x.takeWrite (s.pieceOf q a d)).chans[c] = (s.merging q a d.length).chans[c] :=
      getElem_vmod_ne _ _ e
    rw [there, held]

theorem WritesBelow.takePiece {q : DramUser} {a : Nat} {d : List Byte} (below : WritesBelow s (a / 32)) : WritesBelow (s.takePiece q a d) (a / 32 + 1) := by
  obtain ⟨-, -, cycle⟩ := s.takePiece_asks q a d
  obtain ⟨-, -, later⟩ := s.merging_asks q a d.length
  intro c w hw
  rw [s.takePiece_pending q below c] at hw
  rw [cycle]
  have old : ∀ w ∈ s.chans[c].pending, w.cyc ≤ (s.merging q a d.length).dcyc.no ∧ (w.cyc = (s.merging q a d.length).dcyc.no → w.addr / 32 < a / 32 + 1) :=
    fun w hw => by
      obtain ⟨early, low⟩ := below c w hw
      exact ⟨by omega, fun e => by have := low (by omega); omega⟩
  split at hw
  · rcases List.mem_append.1 hw with before | new
    · exact old w before
    · obtain rfl := List.mem_singleton.1 new
      exact ⟨le_refl _, fun _ => Nat.lt_succ_self _⟩
  · exact old w hw

theorem Asks.dramBytes (f : Asks s t) : t.dramBytes = s.dramBytes := by
  funext a n
  unfold State.dramBytes
  rw [f.dramCap, show t.dram = s.dram by rw [f.only]]

/-- A write more of a unit lies over it. -/
theorem State.unitNow_laid {n : Nat} {w : DWrite} (chan : t.chanOf = s.chanOf) (bytes : t.dramBytes = s.dramBytes)
    (more : t.chans[s.chanOf (32 * n)].pending = s.chans[s.chanOf (32 * n)].pending ++ [w]) (own : w.addr / 32 = n) : t.unitNow n = layOver (s.unitNow n) w := by
  have here : [w].filter (fun w => w.addr / 32 == n) = [w] := by simp [own]
  rw [t.unitNow_of_chan (congrFun chan _), s.unitNow_of_chan rfl, bytes, more, List.filter_append, List.foldl_append, here]
  rfl

/-- A write of another unit leaves it. -/
theorem State.unitNow_apart {n : Nat} {w : DWrite} (chan : t.chanOf = s.chanOf) (bytes : t.dramBytes = s.dramBytes) (other : w.addr / 32 ≠ n)
    (more : t.chans[s.chanOf (32 * n)].pending = s.chans[s.chanOf (32 * n)].pending ++ [w] ∨
      t.chans[s.chanOf (32 * n)].pending = s.chans[s.chanOf (32 * n)].pending) : t.unitNow n = s.unitNow n := by
  have none : [w].filter (fun w => w.addr / 32 == n) = [] := by simp [other]
  rw [t.unitNow_of_chan (congrFun chan _), s.unitNow_of_chan rfl, bytes]
  rcases more with e | e
  · rw [e, List.filter_append, none, List.append_nil]
  · rw [e]

/-- A piece is seen in its unit at once. -/
theorem State.takePiece_byteNow (s : State) (q : DramUser) {a : Nat} {d : List Byte} (below : WritesBelow s (a / 32)) (inside : a % 32 + d.length ≤ 32) (b : Nat) :
    (s.takePiece q a d).byteNow b = if a ≤ b ∧ b < a + d.length then nth 0 d (b - a) else s.byteNow b := by
  obtain ⟨asks, -, -⟩ := s.takePiece_asks q a d
  by_cases unit : b / 32 = a / 32
  · have mine : s.chanOf (32 * (b / 32)) = s.chanOf a := by rw [unit]; exact s.chanOf_unit a
    have laid : (s.takePiece q a d).unitNow (b / 32) = layOver (s.unitNow (b / 32)) (s.pieceOf q a d) :=
      State.unitNow_laid asks.chanOf asks.dramBytes ((s.takePiece_pending q below _).trans (if_pos mine)) unit.symm
    rw [State.byteNow, laid, nth_layOver (s.unitNow_length _)]
    have addr : (s.pieceOf q a d).addr = a := rfl
    have data : (s.pieceOf q a d).data = d := rfl
    rw [addr, data]
    by_cases hit : a ≤ b ∧ b < a + d.length
    · rw [if_pos hit, if_pos (by omega), show b % 32 - a % 32 = b - a by omega]
    · rw [if_neg hit, if_neg (by omega)]
      rfl
  · have same : (s.takePiece q a d).unitNow (b / 32) = s.unitNow (b / 32) := by
      refine State.unitNow_apart (w := s.pieceOf q a d) asks.chanOf asks.dramBytes (fun e => unit e.symm) ?_
      rw [s.takePiece_pending q below]
      split
      · exact .inl rfl
      · exact .inr rfl
    rw [State.byteNow, same, if_neg (by omega)]
    rfl

/-! ### A write of any length -/

/-- The pieces of a write below the capacity are accepted. -/
def State.takePieces (s : State) (q : DramUser) (l : List (Nat × List Byte)) : State := l.foldl (fun (t : State) p => t.takePiece q p.1 p.2) s

theorem WritesBelow.mono {n k : Nat} (below : WritesBelow s n) (le : n ≤ k) : WritesBelow s k := fun c w hw =>
  (below c w hw).imp_right fun low e => (low e).trans_le le

theorem Asks.takePieces (q : DramUser) (l : List (Nat × List Byte)) (s : State) : Asks s (s.takePieces q l) :=
  List.foldlRecOn (motive := Asks s) l _ (.refl s) fun t ht p _ => ht.trans (t.takePiece_asks q p.1 p.2).1

/-- The pieces of a write are seen at once, up to the capacity, and nothing before them changes. -/
theorem State.takePieces_byteNow (q : DramUser) (cap : Nat) : ∀ (k : Nat) (a : Nat) (d : List Byte) (s : State), d.length < k → WritesBelow s (a / 32) →
    let t := s.takePieces q ((splitUnits k a d).filter fun p => decide (p.1 < cap))
    (∀ b < a, t.byteNow b = s.byteNow b) ∧ ∀ i < d.length, a + i < cap → t.byteNow (a + i) = nth 0 d i
  | 0, _, _, _, small, _ => absurd small (Nat.not_lt_zero _)
  | k + 1, a, [], s, _, _ => ⟨fun _ _ => rfl, fun i hi => absurd hi (Nat.not_lt_zero _)⟩
  | k + 1, a, e :: d, s, small, below => by
    obtain ⟨n, hn⟩ : ∃ n, n = 32 - a % 32 := ⟨_, rfl⟩
    have split : splitUnits (k + 1) a (e :: d) = (a, (e :: d).take n) :: splitUnits k (a + n) ((e :: d).drop n) := by rw [hn]; rfl
    have some : 0 < (e :: d).length := Nat.zero_lt_succ _
    generalize e :: d = l at small split some ⊢
    have long : (l.take n).length = min n l.length := List.length_take
    have rest : (l.drop n).length < k := by
      rw [List.length_drop]
      omega
    have next : (a + n) / 32 = a / 32 + 1 := by omega
    intro t
    by_cases low : a < cap
    · have first := s.takePiece_byteNow q below (d := l.take n) (by omega)
      obtain ⟨before, after⟩ := State.takePieces_byteNow q cap k (a + n) (l.drop n) (s.takePiece q a (l.take n)) rest (by rw [next]; exact below.takePiece)
      have taken : t = (s.takePiece q a (l.take n)).takePieces q ((splitUnits k (a + n) (l.drop n)).filter fun p => decide (p.1 < cap)) := by
        unfold t
        rw [split, List.filter_cons_of_pos (by simpa using low)]
        rfl
      rw [taken]
      refine ⟨fun b hb => ?_, fun i hi fits => ?_⟩
      · rw [before b (by omega), first, if_neg (by omega)]
      · by_cases here : i < n
        · rw [before (a + i) (by omega), first, if_pos (by omega), Nat.add_sub_cancel_left]
          simp [nth, List.getD_eq_getElem?_getD, here]
        · have there := after (i - n) (by rw [List.length_drop]; omega) (by omega)
          rw [show a + n + (i - n) = a + i by omega] at there
          rw [there]
          simp [nth, List.getD_eq_getElem?_getD, List.getElem?_drop, show n + (i - n) = i by omega]
    · obtain ⟨before, -⟩ := State.takePieces_byteNow q cap k (a + n) (l.drop n) s rest (below.mono (by omega))
      have taken : t = s.takePieces q ((splitUnits k (a + n) (l.drop n)).filter fun p => decide (p.1 < cap)) := by
        unfold t
        rw [split, List.filter_cons_of_neg (by simpa using low)]
      rw [taken]
      exact ⟨fun b hb => before b (by omega), fun i _ fits => absurd fits (by omega)⟩

theorem State.queueWrite_eq (s : State) (q : DramUser) (a : Nat) (d : List Byte) : ∃ us, s.queueWrite q a d =
    ((s.dramCycle q).takePieces q ((splitUnits (d.length + 1) a d).filter fun p => decide (p.1 < s.dramCap))).countOor us := ⟨_, rfl⟩

theorem Asks.queueWrite (s : State) (q : DramUser) (a : Nat) (d : List Byte) : Asks s (s.queueWrite q a d) := by
  obtain ⟨us, queued⟩ := s.queueWrite_eq q a d
  rw [queued]
  exact (Asks.dramCycle s q).trans ((Asks.takePieces q _ _).trans (.countOor _ us))

theorem byteNow_congr (units : t.unitNow = s.unitNow) (b : Nat) : t.byteNow b = s.byteNow b := by rw [State.byteNow, units]; rfl

theorem State.countOor_byteNow (s : State) (us : List Nat) (b : Nat) : (s.countOor us).byteNow b = s.byteNow b := by
  have asks := Asks.countOor s us
  exact byteNow_congr (State.unitNow_congr (by rw [asks.only]) (by rw [State.countOor_eq]) (asks.words _ (by decide)) (asks.words _ (by decide))) b

/-- The bytes of a write of a fresh cycle are seen at once (R134). -/
theorem State.queueWrite_byteNow (fresh : FreshCycle s) (q : DramUser) (a : Nat) (d : List Byte) {i : Nat} (hi : i < d.length) (inside : a + i < s.dramCap) :
    (s.queueWrite q a d).byteNow (a + i) = nth 0 d i := by
  obtain ⟨-, stale, early⟩ := fresh
  obtain ⟨us, queued⟩ := s.queueWrite_eq q a d
  have cycled : s.dramCycle q = { s with dcyc := { stamp := s.cycStamp, makers := [q], no := s.dcyc.no + 1 } } := if_neg fun h => stale h.1
  have below : WritesBelow (s.dramCycle q) (a / 32) := by
    rw [cycled]
    intro c w hw
    have := early c w hw
    exact ⟨Nat.le_succ_of_le this, fun e => absurd (show w.cyc = s.dcyc.no + 1 from e) (by omega)⟩
  obtain ⟨-, seen⟩ := State.takePieces_byteNow q s.dramCap (d.length + 1) a d (s.dramCycle q) (Nat.lt_succ_self _) below
  rw [queued, ← seen i hi inside]
  generalize State.takePieces _ _ _ = v
  exact v.countOor_byteNow us _

end

section
variable {s t u r : State} {m : Mbox} {cmd : Nat}

/-! ### BIND (R193, R266): the record it writes -/

theorem askWords_far {a : Nat} (h : AnswerWord a) : a ∉ askWords := by
  rw [mem_askWords]
  rintro ⟨c, small, rfl | rfl⟩ <;> simp only [AnswerWord, aChan] at h <;> omega

theorem Serves.asks (serves : Serves s m t) (asks : Asks t u) : Serves s m u :=
  serves.keep (fun a ha => asks.words a (askWords_far ha)) (by rw [asks.only]) (by rw [asks.only]) (by rw [asks.only])

/-- Reads of DRAM and going into service leave the SCLK cycle fresh. -/
theorem HasRead.fresh (read : HasRead s m r) (fresh : FreshCycle s) : FreshCycle r := by
  have head : ∀ h < 8, r.rd (aHead h 9) = s.rd (aHead h 9) := fun h hh => read.rd
    (by simp only [oorWords, List.mem_map, List.mem_range, aChan, aHead]; omega) (.inl (by simp only [aHead]; omega))
  have stamp : r.cycStamp = s.cycStamp := by
    refine Prod.ext (read.same (·.sclk)) (List.map_congr_left fun h hh => head h (List.mem_range.1 hh))
  have cyc : r.cyc = s.cyc := read.same (·.cyc)
  have cycAt : r.cycAt = s.cycAt := read.same (·.cycAt)
  have dcyc : r.dcyc = s.dcyc := read.same (·.dcyc)
  have chans : r.chans = s.chans := read.same (·.chans)
  unfold FreshCycle State.cycNow at fresh ⊢
  rw [stamp, cyc, cycAt, dcyc, chans]
  exact fresh

theorem mbKept_byteNow (kept : MbKept t u m []) (b : Nat) : u.byteNow b = t.byteNow b := by
  have word : ∀ off < 2, u.rd (aDram off) = t.rd (aDram off) := fun off ho =>
    mbKept_rd kept List.not_mem_nil (.inl (by simp only [aDram]; omega))
  exact byteNow_congr (State.unitNow_congr (mbKept_same kept (·.dram)) (mbKept_same kept (·.chans)) (word 0 (by decide)) (word 1 (by decide))) b

theorem bind_completes (acc : MbAccepted s m 0x44) {k0 : List Byte} : let g := s.dramAt (mbArg s m 0)
    let x := readStream g
    s.streamFits x x.size = true → s.streamKeyed x = true → s.streamKey x g (x.size + 48) = some k0 → x.signed = true → x.tagsGood k0 g = true → FreshCycle s →
    Completes (.bind m) s fun t => MbDone s t m 0 [] ∧ ∀ i < (s.bindRecord x k0).length, 2048 * (mbArg s m 1).toNat + i < s.dramCap →
      t.nowBytes (2048 * (mbArg s m 1).toNat + i) 1 = [nth 0 (s.bindRecord x k0) i] := by
  intro g x fit keyed key signed good fresh
  obtain ⟨read, f, run, -, -, served⟩ := bind_meaning acc
  refine completes_command acc run (served k0 fit keyed key signed good) (read.serves.asks (.queueWrite _ _ _ _)) (by decide) fun t done kept =>
    ⟨done, fun i hi inside => ?_⟩
  rw [State.nowBytes_one, mbKept_byteNow kept, State.queueWrite_byteNow (read.fresh fresh) _ _ _ hi (by rw [read.dramCap]; exact inside)]

end

section
variable {s t u r : State} {m : Mbox} {cmd : Nat} {es fs : List Nat}

/-! ### Staging (R202, R265) -/

/-- From s to t image entries es may have been written, and what an answer depends on, the heads and the paddocks are the same. -/
structure Stages (s t : State) (es : List Nat) : Prop where
  answer : ∀ a, AnswerWord a → t.rd a = s.rd a
  images : ∀ e < 64, e ∉ es → t.rd (aImage e 0) = s.rd (aImage e 0)
  heads : t.heads = s.heads
  pads : t.pads = s.pads
  mboxes : t.mboxes = s.mboxes
  mbOrder : t.mbOrder = s.mbOrder
  bad : t.repair.bad = s.repair.bad

theorem Stages.refl (s : State) : Stages s s [] := ⟨fun _ _ => rfl, fun _ _ _ => rfl, rfl, rfl, rfl, rfl, rfl⟩

theorem Stages.trans (f : Stages s t es) (g : Stages t u fs) : Stages s u (es ++ fs) := by
  refine ⟨fun a ha => (g.answer a ha).trans (f.answer a ha), fun e he out => ?_, g.heads.trans f.heads, g.pads.trans f.pads, g.mboxes.trans f.mboxes,
    g.mbOrder.trans f.mbOrder, g.bad.trans f.bad⟩
  rw [List.mem_append, not_or] at out
  exact (g.images e he out.2).trans (f.images e he out.1)

theorem Stages.sound (f : Stages s t es) (sound : Sound s) : Sound t :=
  sound_of_words sound f.bad fun k _ => f.answer _ (by simp only [AnswerWord, aRegion]; omega)

theorem Serves.stages (serves : Serves s m t) (f : Stages t u es) : Serves s m u := serves.keep f.answer f.mboxes f.mbOrder f.bad

theorem aImage_not_ask {e w : Nat} : aImage e w ∉ askWords := by
  rw [mem_askWords]
  rintro ⟨c, small, h | h⟩ <;> simp only [aChan, aImage] at h <;> omega

theorem Asks.stages (f : Asks s t) : Stages s t [] := by
  refine ⟨fun a ha => f.words a (askWords_far ha), fun e _ _ => f.words _ aImage_not_ask, ?_, ?_, ?_, ?_, ?_⟩ <;> rw [f.only]

/-- A word that is neither an answer's nor an image entry's first. -/
theorem Stages.wr (s : State) (a : Nat) (v : Word) (plain : ¬ AnswerWord a) {es : List Nat} (outside : ∀ e < 64, e ∉ es → aImage e 0 ≠ a) : Stages s (s.wr a v) es :=
  ⟨fun _ hb => State.rd_wr_ne _ _ fun e => plain (e ▸ hb), fun e he out => State.rd_wr_ne _ _ (outside e he out), rfl, rfl, rfl, rfl, rfl⟩

theorem Stages.imageWord (s : State) {e w : Nat} (he : e < 64) (low : 1 ≤ w) (hw : w < 4) (v : Word) : Stages s (s.wr (aImage e w) v) [] :=
  .wr s _ v (fun h => by have := aImage_far e he w hw; simp only [AnswerWord] at h; omega) fun _ _ _ => by simp only [aImage]; omega

theorem Stages.imageHead (s : State) {e : Nat} (he : e < 64) (v : Word) : Stages s (s.wr (aImage e 0) v) [e] :=
  .wr s _ v (fun h => by have := aImage_far e he 0 (by decide); simp only [AnswerWord] at h; omega) fun k _ out => by
    simp only [List.mem_singleton] at out
    simp only [aImage]
    omega

theorem Stages.keys (s : State) (keys : Vector (Option KeyEnt) 64) : Stages s { s with keys := keys } [] :=
  ⟨fun _ _ => rfl, fun _ _ _ => rfl, rfl, rfl, rfl, rfl, rfl⟩

theorem Stages.glRef (s : State) (ref : WMem) : Stages s { s with glRef := ref } [] := ⟨fun _ _ => rfl, fun _ _ _ => rfl, rfl, rfl, rfl, rfl, rfl⟩

theorem Stages.glWrite (sound : Sound s) {i : Nat} (small : i < 0x1000) (v : Word) : Stages s (s.glWrite i v) [] := by
  have written : Stages s (s.wr (aGlProg i) v) [] := .wr s _ v (fun h => by simp only [AnswerWord, aGlProg] at h; omega) fun e he _ => by
    simp only [aImage, aGlProg]
    omega
  unfold State.glWrite
  rw [State.writeFlip_sound (written.sound sound) (by decide)]
  exact written.trans (.glRef _ _)

/-- The words of the map that a part brings. -/
def State.mapPut (s : State) (e : Nat) (flags : List Word) : State := (List.range 64).foldl (fun (y : State) i => y.glWrite (0x40 * e + i) (nth 0 flags i)) s

theorem Stages.mapPut (sound : Sound s) {e : Nat} (he : e < 64) (flags : List Word) : Stages s (s.mapPut e flags) [] :=
  List.foldlRecOn (motive := fun t => Stages s t []) _ _ (.refl s) fun t ht i hi =>
    ht.trans (.glWrite (ht.sound sound) (by have := List.mem_range.1 hi; omega) _)

/-- What a part stores in DRAM. -/
def State.partStored (s : State) (q : DramUser) (p : StagePart) (u ue um : Nat) : State :=
  ((s.queueWrite q (2048 * u) p.seg).queueWrite q (2048 * ue) p.entries).queueWrite q (2048 * um) p.masks

/-- The first word of the image entry of a part. -/
def StagePart.head (p : StagePart) : Word := wd (2 ^ 23 + p.pad * 2 ^ 19 + (p.nseg - 1) * 2 ^ 13 + p.seg0 * 2 ^ 7)

theorem State.stagePart_eq (s : State) (q : DramUser) (x : Stream) (k0 : List Byte) (p : StagePart) (u : Nat) (e : Fin 64) : ∃ ue um key,
    s.stagePart q x k0 p u e = (((((({ s.partStored q p u ue um with keys := (s.partStored q p u ue um).keys.set e key } : State).mapPut e.val p.flags).wr
      (aImage e.val 1) (wd u)).wr (aImage e.val 2) (wd ue)).wr (aImage e.val 3) (wd um)).wr (aImage e.val 0) p.head) :=
  ⟨_, _, _, rfl⟩

theorem Stages.stagePart (sound : Sound s) (q : DramUser) (x : Stream) (k0 : List Byte) (p : StagePart) (u : Nat) (e : Fin 64) :
    Stages s (s.stagePart q x k0 p u e) [e.val] ∧ (s.stagePart q x k0 p u e).rd (aImage e.val 0) = p.head := by
  obtain ⟨ue, um, key, staged⟩ := s.stagePart_eq q x k0 p u e
  rw [staged]
  have stored : Stages s (s.partStored q p u ue um) [] :=
    Asks.stages (((Asks.queueWrite s q _ _).trans (.queueWrite _ q _ _)).trans (.queueWrite _ q _ _))
  generalize s.partStored q p u ue um = v at stored
  have keyed : Stages s { v with keys := v.keys.set e key } [] := stored.trans (.keys v _)
  generalize ({ v with keys := v.keys.set e key } : State) = w at keyed
  have mapped : Stages s (w.mapPut e.val p.flags) [] := keyed.trans (.mapPut (keyed.sound sound) e.isLt p.flags)
  generalize w.mapPut e.val p.flags = y at mapped
  refine ⟨?_, State.rd_wr_same _ _ _⟩
  exact (((mapped.trans (.imageWord y e.isLt (by decide) (by decide) _)).trans (.imageWord _ e.isLt (by decide) (by decide) _)).trans
    (.imageWord _ e.isLt (by decide) (by decide) _)).trans (.imageHead _ e.isLt _)

/-- Parts staged one after the other: each in its entry. -/
theorem State.stageParts_spec (q : DramUser) (x : Stream) (k0 : List Byte) : ∀ (ps : List StagePart) (es : List Nat) (u : Nat) (s : State), Sound s →
    (∀ e ∈ es, e < 64) → es.Nodup → es.length = ps.length → Stages s (s.stageParts q x k0 ps es u) es ∧
      ∀ e ∈ es, ∃ p ∈ ps, (s.stageParts q x k0 ps es u).rd (aImage e 0) = p.head
  | [], [], _, s, _, _, _, _ => ⟨.refl s, fun _ h => absurd h List.not_mem_nil⟩
  | [], _ :: _, _, _, _, _, _, long => absurd long (Nat.succ_ne_zero _)
  | _ :: _, [], _, _, _, _, _, long => absurd long.symm (Nat.succ_ne_zero _)
  | p :: ps, e :: es, u, s, sound, small, nodup, long => by
    obtain ⟨fresh, rest⟩ := List.nodup_cons.1 nodup
    have he : e < 64 := small e List.mem_cons_self
    have entry : (Fin.ofNat 64 e).val = e := Nat.mod_eq_of_lt he
    obtain ⟨first, head⟩ := Stages.stagePart sound q x k0 p u (Fin.ofNat 64 e)
    rw [entry] at first head
    obtain ⟨others, heads⟩ := State.stageParts_spec q x k0 ps es (u + p.units) (s.stagePart q x k0 p u (Fin.ofNat 64 e)) (first.sound sound)
      (fun k hk => small k (List.mem_cons_of_mem _ hk)) rest (Nat.succ.inj long)
    refine ⟨first.trans others, fun k hk => ?_⟩
    rcases List.mem_cons.1 hk with rfl | later
    · exact ⟨p, List.mem_cons_self, (others.images k he fresh).trans head⟩
    · obtain ⟨p', hp', same⟩ := heads k later
      exact ⟨p', List.mem_cons_of_mem _ hp', same⟩

/-! ### The parts of a stream that fits -/

theorem mapParts_length : ∀ (n : Nat) (ws : List Word), (mapParts n ws).length = n
  | 0, _ => rfl
  | n + 1, _ => congrArg (· + 1) (mapParts_length n _)

theorem Stream.parts_length (x : Stream) (g : Nat → Nat → List Byte) (map : List Word) : (x.parts g map).length = x.pads.length := by
  simp [Stream.parts, mapParts_length]

theorem Stream.mem_pads {x : Stream} {p : Nat} (h : p ∈ x.pads) : p < 16 := List.mem_range.1 (List.mem_of_mem_filter h)

/-- A part of a stream of at most 64 segments, each paddock of which has one. -/
theorem Stream.parts_small {x : Stream} (few : x.segs.length ≤ 64) (each : ∀ p ∈ x.pads, ∃ q ∈ x.segs, q.2 = p) {g : Nat → Nat → List Byte} {map : List Word}
    {p : StagePart} (hp : p ∈ x.parts g map) : p.pad ∈ x.pads ∧ p.nseg ≤ 64 ∧ p.seg0 < 64 := by
  unfold Stream.parts at hp
  obtain ⟨⟨pad, ws⟩, he, rfl⟩ := List.mem_map.1 hp
  have mem : pad ∈ x.pads := (List.of_mem_zip he).1
  refine ⟨mem, (List.length_filter_le _ _).trans few, ?_⟩
  obtain ⟨q, hq, own⟩ := each pad mem
  refine lt_of_lt_of_le (lt_of_le_of_ne (List.takeWhile_sublist _).length_le fun same => ?_) few
  have all := List.takeWhile_eq_self_iff.1 ((List.takeWhile_sublist (fun q : Nat × Nat => q.2 != pad) (l := x.segs)).eq_of_length same) q hq
  simp [own] at all

theorem StagePart.head_fields {p : StagePart} (pad : p.pad < 16) (nseg : p.nseg ≤ 64) (seg0 : p.seg0 < 64) :
    bit p.head 23 = true ∧ fld p.head 22 19 = p.pad := by
  have value : p.head.toNat = 2 ^ 23 + p.pad * 2 ^ 19 + (p.nseg - 1) * 2 ^ 13 + p.seg0 * 2 ^ 7 := by
    rw [StagePart.head, wd_toNat]
    exact Nat.mod_eq_of_lt (by omega)
  refine ⟨?_, ?_⟩
  · rw [bit, BitVec.getLsbD, value, Nat.testBit_eq_decide_div_mod_eq]
    exact decide_eq_true (by omega)
  · simp only [fld, nbits, value, Nat.shiftRight_eq_div_pow]
    omega

theorem State.streamFits_segs {x : Stream} {n : Nat} (counted : x.segs.length = x.nseg) (fit : s.streamFits x n = true) : x.segs.length ≤ 64 ∧ ∀ p ∈ x.pads, ∃ q ∈ x.segs, q.2 = p := by
  simp only [State.streamFits, Bool.and_eq_true, decide_eq_true_eq, List.all_eq_true, List.any_eq_true, beq_iff_eq] at fit
  obtain ⟨⟨⟨⟨⟨-, few⟩, -⟩, -⟩, each⟩, -⟩ := fit
  exact ⟨counted.trans_le few.2, each⟩

theorem readStream_segs (g : Nat → Nat → List Byte) : (readStream g).segs.length = (readStream g).nseg := (List.length_map _).trans List.length_range

/-! ### STAGE (R265): what it stages -/

theorem freeImages_spec (s : State) : s.freeImages.Nodup ∧ ∀ e ∈ s.freeImages, e < 64 ∧ s.bget (aImage e 0) 23 = false := by
  refine ⟨List.nodup_range.filter _, fun e he => ?_⟩
  obtain ⟨small, free⟩ := List.mem_filter.1 he
  exact ⟨List.mem_range.1 small, by simpa using free⟩

/-- Staging draws its place and then places the parts. -/
theorem State.stageGo_eq (s : State) (q : DramUser) (x : Stream) (g : Nat → Nat → List Byte) (k0 : List Byte) (map : List Word) :
    ∃ (u : Nat) (v : State), Stages s v [] ∧ s.stageGo q x g k0 map =
      (v.stageParts q x k0 (x.parts g map) (s.freeImages.take (x.parts g map).length) u, s.freeImages.take (x.parts g map).length) :=
  ⟨(s.stageBase ((x.parts g map).map StagePart.units).sum).1, s.draw.2, ⟨fun _ _ => rfl, fun _ _ _ => rfl, rfl, rfl, rfl, rfl, rfl⟩, rfl⟩

theorem stage_completes (acc : MbAccepted s m 0x40) : let g := s.dramAt (mbArg s m 0)
    let x := readStream g
    let bytes := (mbArg s m 1).toNat
    let map := wordsOfBytes (s.dramAt (mbArg s m 2) 0 (3 * (mbArg s m 3).toNat))
    let es := s.freeImages.take x.pads.length
    s.streamFits x bytes = true → s.streamKeyed x = true → x.pads.length ≤ s.freeImages.length → ((x.parts g map).map StagePart.units).sum ≤ s.dramCap / 2048 →
    (s.streamKey x g bytes).isSome = true → x.signed = true → sha384 (bytesOfWords map) = x.mapdig →
    Completes (.stage m) s fun t => MbDone s t m 0 (wd x.padmask :: packEntries es) ∧
      (∀ e ∈ es, t.bget (aImage e 0) 23 = true ∧ (x.pads.contains (t.fget (aImage e 0) 22 19)) = true) ∧
      (∀ e < 64, s.bget (aImage e 0) 23 = true → t.rd (aImage e 0) = s.rd (aImage e 0)) ∧ t.heads = s.heads ∧ t.pads = s.pads := by
  intro g x bytes map es fit keyed enough room key signed digest
  obtain ⟨k0, hk0⟩ := Option.isSome_iff_exists.1 key
  obtain ⟨read, f, run, meaning⟩ := stage_meaning acc
  rw [if_neg (by rw [fit]; decide), if_neg (by rw [keyed]; decide), if_neg (by simpa using ⟨enough, room⟩), hk0] at meaning
  have fine : (!x.signed || sha384 (bytesOfWords map) != x.mapdig) = false := by
    rw [signed, digest]
    simp
  replace meaning := meaning.trans (if_neg (Bool.eq_false_iff.1 fine))
  obtain ⟨nodup, free⟩ := freeImages_spec s
  obtain ⟨few, each⟩ := State.streamFits_segs (readStream_segs g) fit
  have long : es.length = (x.parts g map).length := by
    rw [Stream.parts_length, List.length_take]
    omega
  have small : ∀ e ∈ es, e < 64 ∧ s.bget (aImage e 0) 23 = false := fun e he => free e (List.mem_of_mem_take he)
  have taken : (s.stageRead m).freeImages.take (x.parts g map).length = es := by rw [read.freeImages, Stream.parts_length]
  obtain ⟨u, v, drawn, stages⟩ := (s.stageRead m).stageGo_eq ((s.stageRead m).caeUser m) x g k0 map
  rw [taken] at stages
  generalize (s.stageRead m).caeUser m = q at stages meaning
  rw [stages] at meaning
  obtain ⟨placed, heads⟩ := State.stageParts_spec q x k0 (x.parts g map) es u v (drawn.sound read.serves.sound) (fun e he => (small e he).1)
    (nodup.sublist (List.take_sublist _ _)) long
  have all := drawn.trans placed
  generalize v.stageParts q x k0 (x.parts g map) es u = w at meaning heads all
  refine completes_command acc run meaning (read.serves.stages all) (by simp [packEntries]) fun t done kept => ⟨done, fun e he => ?_, fun e he valid => ?_, ?_, ?_⟩
  · obtain ⟨p, hp, head⟩ := heads e he
    obtain ⟨mem, nseg, seg0⟩ := Stream.parts_small few each hp
    obtain ⟨valid, pad⟩ := StagePart.head_fields (Stream.mem_pads mem) nseg seg0
    have word := (mbKept_rd kept List.not_mem_nil (.inl (aImage_far e (small e he).1 0 (by decide)))).trans head
    rw [State.bget, State.fget, word, pad]
    exact ⟨valid, by simpa using mem⟩
  · have out : e ∉ [] ++ es := fun mem => by
      have := (small e mem).2
      rw [valid] at this
      cases this
    rw [mbKept_rd kept List.not_mem_nil (.inl (aImage_far e he 0 (by decide))), all.images e he out, read.image he (by decide)]
  · rw [mbKept_same kept (·.heads), all.heads, read.same (·.heads)]
  · rw [mbKept_same kept (·.pads), all.pads, read.same (·.pads)]

end

section
variable {s t u r : State} {m : Mbox} {p : Pad} {cmd : Nat}

/-! ### Jobs that a mailbox waits for (R207, R216, R265) -/

/-- From s to t the ICP has taken up a job: words of the fabric and of the mailboxes but ICPSTAT, the mailboxes themselves and the paddocks are the same. -/
structure Takes (s t : State) (j : IcpJob) : Prop where
  words : ∀ a, 0xC70000 ≤ a → a ≠ aIcpstat → t.rd a = s.rd a
  mboxes : t.mboxes = s.mboxes
  pads : t.pads = s.pads
  job : ∃ begun wait got, t.icp = some { j with begun := begun, wait := wait, got := got }
  busy : t.bget aIcpstat 23 = true

/-- The job in hand, in which only its reading may have begun. -/
theorem State.icpTake_job (s : State) (j : IcpJob) : ∃ begun wait got, ({ s with icp := some j } : State).icpTake.icp = some { j with begun := begun, wait := wait, got := got } := by
  unfold State.icpTake
  dsimp only
  split
  · have begun : (({ s with icp := some j } : State).modJob fun x => { x with begun := true }).icp = some { j with begun := true } := rfl
    obtain ⟨-, ⟨got, job⟩, -⟩ := State.icpAsk_spec begun (({ s with icp := some j } : State).fget (aPad j.pad 0x0A) 19 14)
    exact ⟨_, _, _, job⟩
  · exact ⟨j.begun, j.wait, j.got, rfl⟩

theorem State.icpAdd_takes (idle : s.icp = none) (j : IcpJob) : Takes s (s.icpAdd j) j := by
  obtain ⟨v, asks, only⟩ := (s.icpTake_takes j).asks
  have job := s.icpTake_job j
  rw [State.icpAdd_idle j idle]
  generalize ({ s with icp := some j } : State).icpTake = t at asks job
  refine ⟨fun a ha ne => ?_, ?_, ?_, job, ?_⟩
  · have out : a ∉ askWords := by
      rw [mem_askWords]
      rintro ⟨c, small, e | e⟩ <;> simp only [aChan] at e <;> omega
    rw [State.bset_rd, if_neg ne, asks.words a out, only]
    rfl
  · change t.mboxes = s.mboxes
    rw [asks.only, only]
  · change t.pads = s.pads
    rw [asks.pads, only]
  · rw [State.bget, State.bset_rd, if_pos rfl]
    exact bit_putBit_same _ _ (by decide)

/-- The ICP's queue is empty and the paddock has no repair waiting for it. -/
theorem State.repairsOff_none (queue : s.icpQueue = []) (none : s.pads[p].repair = none) : s.repairsOff p = s := by
  unfold State.repairsOff
  rw [none, queue]
  exact congrArg (fun q => { s with icpQueue := q }) queue.symm

/-- Taps go to bypass: words and parts of heads. -/
theorem State.tapsBypass_spec (s : State) (n : Nat) : let t := s.tapsBypass n
    t = { s with ws := t.ws, heads := t.heads } ∧ ∀ a, 0xC70000 ≤ a → t.rd a = s.rd a := by
  refine List.foldlRecOn (motive := fun t : State => t = { s with ws := t.ws, heads := t.heads } ∧ ∀ a, 0xC70000 ≤ a → t.rd a = s.rd a) _ _
    ⟨rfl, fun _ _ => rfl⟩ fun t ⟨only, words⟩ h _ => ?_
  split
  · refine ⟨?_, fun a ha => ?_⟩
    · rw [only]
      rfl
    · have hh := h.isLt
      rw [State.bset_rd, if_neg (by simp only [aHead]; omega)]
      exact words a ha
  · exact ⟨only, words⟩

/-- Paddock p is to close, and the Gleaner leaves it out. -/
def State.closing (s : State) (p : Pad) (planned : Bool) : State := (s.modPad p fun x => { x with closing := true, planned := planned, repair := none }).glSkip p.val

theorem State.closing_only (s : State) (p : Pad) (planned : Bool) : s.closing p planned = { s with pads := (s.closing p planned).pads, gl := (s.closing p planned).gl } ∧
    (s.closing p planned).pads[p].closing = true ∧ ∀ o : Pad, o ≠ p → (s.closing p planned).pads[o] = s.pads[o] := by
  have same : ∀ (u : State), u.glSkip p.val = { u with gl := (u.glSkip p.val).gl } := fun u => by
    unfold State.glSkip
    split <;> rfl
  have pads : (s.closing p planned).pads = vmod s.pads p fun x => { x with closing := true, planned := planned, repair := none } := by
    unfold State.closing
    rw [same]
    rfl
  refine ⟨?_, ?_, fun o ne => ?_⟩
  · unfold State.closing
    rw [same]
    rfl
  · rw [pads, getElem_vmod_same]
  · rw [pads, getElem_vmod_ne _ _ ne]

/-- A swap that starts on an idle ICP. -/
theorem State.swapStart_spec (idle : s.icp = none) (queue : s.icpQueue = []) (none : s.pads[p].repair = none) (img : Nat) (planned : Bool) (mbox : Option Nat) :
    let t := s.swapStart p img planned mbox
    (∀ a, 0xC70000 ≤ a → a ≠ aIcpstat → t.rd a = s.rd a) ∧ t.mboxes = s.mboxes ∧ t.bget aIcpstat 23 = true ∧
      (∃ begun wait got, t.icp = some { newJob .load p img 0 mbox with begun := begun, wait := wait, got := got }) ∧
      t.pads[p].closing = true ∧ ∀ o : Pad, o ≠ p → t.pads[o] = s.pads[o] := by
  have swap : s.swapStart p img planned mbox = ((s.closing p planned).tapsBypass p.val).icpAdd (newJob .load p img 0 mbox) := by
    unfold State.swapStart
    rw [State.repairsOff_none queue none]
    rfl
  obtain ⟨closes, closed, others⟩ := s.closing_only p planned
  obtain ⟨bypass, words⟩ := (s.closing p planned).tapsBypass_spec p.val
  have still : ((s.closing p planned).tapsBypass p.val).icp = Option.none := by rw [bypass, closes]; exact idle
  have mboxes : ((s.closing p planned).tapsBypass p.val).mboxes = s.mboxes := by rw [bypass, closes]
  have pads : ((s.closing p planned).tapsBypass p.val).pads = (s.closing p planned).pads := by rw [bypass]
  have kept : ∀ a, (s.closing p planned).rd a = s.rd a := fun a => by rw [closes]; rfl
  rw [swap]
  generalize (s.closing p planned).tapsBypass p.val = v at words still mboxes pads
  have takes := State.icpAdd_takes still (newJob .load p img 0 mbox)
  refine ⟨fun a ha ne => ?_, takes.mboxes.trans mboxes, takes.busy, takes.job, ?_, fun o ne => ?_⟩
  · rw [takes.words a ha ne, words a ha, kept]
  · rw [takes.pads, pads, closed]
  · rw [takes.pads, pads, others o ne]

/-- Mailbox m waits in SERVICE for the job in hand, of operation op on paddock n. -/
def Waits (t : State) (m : Mbox) (op : IcpOp) (n : Nat) : Prop :=
  t.mbPhase m = 3 ∧ t.mboxes[m].hold = .load ∧ t.bget aIcpstat 23 = true ∧ (t.icp.map fun j => (j.op, j.pad, j.mbox)) = some (op, n, some m.val)

theorem State.heldLoad_hold (s : State) (m : Mbox) : (s.heldLoad m).mboxes[m].hold = .load :=
  (congrArg MboxSt.hold (State.modMbox_same _ m _)).trans (congrArg MboxSt.hold (State.modMbox_same s m _))

theorem State.heldLoad_icp (s : State) (m : Mbox) : (s.heldLoad m).icp = s.icp := rfl

theorem waits_of_job {j : IcpJob} (phase : t.mbPhase m = 3) (busy : t.bget aIcpstat 23 = true) (own : j.mbox = some m.val)
    (job : ∃ begun wait got, t.icp = some { j with begun := begun, wait := wait, got := got }) : Waits (t.heldLoad m) m j.op j.pad := by
  obtain ⟨begun, wait, got, job⟩ := job
  refine ⟨phase, t.heldLoad_hold m, busy, ?_⟩
  rw [State.heldLoad_icp, job, ← own]
  rfl

end

/-! ### PLOAD and GLEANREQ at once (R216, R217, R265) -/

section
variable {s t u r : State} {m : Mbox} {p : Pad} {cmd : Nat}

theorem State.taken_rd_fabric (s : State) (m : Mbox) {a : Nat} (low : a < 0xC7E100) : (s.taken m).rd a = s.rd a := s.taken_rd_far m (.inl low)

theorem State.taken_imageFor (s : State) (m : Mbox) {e : Nat} (he : e < 64) (n : Nat) : (s.taken m).imageFor e n = s.imageFor e n :=
  State.imageFor_congr (s.taken_rd_fabric m (aImage_far e he 0 (by decide))) n

theorem State.taken_icpBusy (s : State) (m : Mbox) : (s.taken m).bget aIcpstat 23 = s.bget aIcpstat 23 :=
  congrArg (bit · 23) (s.taken_rd_fabric m (by decide))

theorem State.taken_padOff (s : State) (m : Mbox) (n : Nat) : (s.taken m).padOff n = s.padOff n := mbKept_same (s.taken_kept m) (·.padOff n)

theorem State.taken_loaded (s : State) (m : Mbox) {n : Nat} (hn : n < 16) : (s.taken m).loaded n = s.loaded n :=
  congrArg (bit · 23) (s.taken_rd_fabric m (by simp only [aPad]; omega))

/-- What a swap that a mailbox waits for leaves. -/
theorem swapStart_waits (idle : s.icp = none) (queue : s.icpQueue = []) (none : s.pads[p].repair = none) (img : Nat) (planned : Bool) :
    let t := ((s.taken m).swapStart p img planned (some m.val)).heldLoad m
    (Waits t m .load p.val ∧ t.pads[p].closing = true ∧ ∀ o : Pad, o ≠ p → t.pads[o] = s.pads[o]) ∧ t.icp.map (·.img) = some img := by
  have kept := s.taken_kept m
  have pads : (s.taken m).pads = s.pads := mbKept_same kept (·.pads)
  obtain ⟨words, -, busy, job, closing, others⟩ := State.swapStart_spec (s := s.taken m) (p := p) ((mbKept_same kept (·.icp)).trans idle)
    ((mbKept_same kept (·.icpQueue)).trans queue) (by rw [pads]; exact none) img planned (some m.val)
  have phase : ((s.taken m).swapStart p img planned (some m.val)).mbPhase m = 3 := by
    have word := words (aMbctl m.val) (by simp only [aMbctl]; omega) (by simp only [aMbctl, aIcpstat]; omega)
    rw [State.mbPhase, State.fget, word]
    exact s.taken_mbPhase m
  generalize (s.taken m).swapStart p img planned (some m.val) = v at words busy job closing others phase
  refine ⟨⟨waits_of_job phase busy rfl job, closing, fun o ne => ?_⟩, ?_⟩
  · rw [← pads]
    exact others o ne
  · obtain ⟨begun, wait, got, job⟩ := job
    change v.icp.map (·.img) = some img
    rw [job]
    rfl

theorem fld_image_lt (w : Word) : fld w 5 0 < 64 := fld_lt w 5 0

/-- PLOAD at once. -/
theorem pload_completes (acc : MbAccepted s m 0x42) (now : bit (mbArg s m 0) 23 = false) (named : fld (mbArg s m 0) 19 16 = p.val) (here : s.padOff p.val = false)
    (idle : s.icp = none) (queue : s.icpQueue = []) (unrepaired : s.pads[p].repair = none) : let e := fld (mbArg s m 0) 5 0
    (s.imageFor e p.val = false → Completes (.pload m) s fun t => MbDone s t m 2 [] ∧ MbKept s t m []) ∧
    (s.imageFor e p.val = true → s.bget aIcpstat 23 = true → Completes (.pload m) s fun t => MbDone s t m 1 [] ∧ MbKept s t m []) ∧
    (s.imageFor e p.val = true → s.bget aIcpstat 23 = false → Completes (.pload m) s fun t =>
      (Waits t m .load p.val ∧ t.pads[p].closing = true ∧ ∀ o : Pad, o ≠ p → t.pads[o] = s.pads[o]) ∧ t.icp.map (·.img) = some e) := by
  intro e
  have arg : argAt (s.reqArgs m) 0 = mbArg s m 0 := mbAccepted_arg acc (by decide)
  have pad : Fin.ofNat 16 (fld (mbArg s m 0) 19 16) = p := by rw [named]; exact Fin.ext (Nat.mod_eq_of_lt p.isLt)
  have image : (s.taken m).imageFor (fld (mbArg s m 0) 5 0) p.val = s.imageFor e p.val := s.taken_imageFor m (fld_image_lt _) p.val
  have run : ∃ f, exec (.pload m) s = .next (s.command m 0x42 anyReq f) ∧ f (s.reqArgs m) (s.taken m) =
      if !s.imageFor e p.val then .done (s.taken m) 2 [] else if s.bget aIcpstat 23 then .done (s.taken m) 1 []
      else .held (((s.taken m).swapStart p e true (some m.val)).heldLoad m) := by
    refine ⟨_, run_selected (sel := fun w => !bit w 23) rfl (by rw [now]; rfl), ?_⟩
    simp only [arg, pad, image, State.taken_icpBusy, State.taken_padOff, here, Bool.false_or]
    rfl
  obtain ⟨f, run, meaning⟩ := run
  refine ⟨fun other => ?_, fun own busy => ?_, fun own free => ?_⟩
  · exact completes_unchanged acc run (meaning.trans (if_pos (by rw [other]; rfl))) (by decide)
  · rw [if_neg (by rw [own]; decide), if_pos busy] at meaning
    exact completes_unchanged acc run meaning (by decide)
  · rw [if_neg (by rw [own]; decide), if_neg (by rw [free]; decide)] at meaning
    exact completes_held acc run meaning (swapStart_waits idle queue unrepaired e true)

/-- GLEANREQ of a rewrite. -/
theorem gleanreqRewrite_completes (acc : MbAccepted s m 0x43) (op : fld (mbArg s m 0) 23 22 = 0) (named : fld (mbArg s m 1) 19 16 = p.val)
    (here : s.padOff p.val = false) (idle : s.icp = none) : let frame := fld (mbArg s m 2) 9 0
    ((s.loaded p.val = false ∨ 799 < frame) → Completes (.gleanreqRewrite m) s fun t => MbDone s t m 2 [] ∧ MbKept s t m []) ∧
    (s.loaded p.val = true → frame ≤ 799 → s.bget aIcpstat 23 = true → Completes (.gleanreqRewrite m) s fun t => MbDone s t m 1 [] ∧ MbKept s t m []) ∧
    (s.loaded p.val = true → frame ≤ 799 → s.bget aIcpstat 23 = false → Completes (.gleanreqRewrite m) s fun t =>
      Waits t m .rewrite p.val ∧ t.icp.map (·.frame) = some frame ∧ t.pads = s.pads) := by
  intro frame
  have arg0 : argAt (s.reqArgs m) 0 = mbArg s m 0 := mbAccepted_arg acc (by decide)
  have arg1 : argAt (s.reqArgs m) 1 = mbArg s m 1 := mbAccepted_arg acc (by decide)
  have arg2 : argAt (s.reqArgs m) 2 = mbArg s m 2 := mbAccepted_arg acc (by decide)
  have run : ∃ f, exec (.gleanreqRewrite m) s = .next (s.command m 0x43 anyReq f) ∧ f (s.reqArgs m) (s.taken m) =
      if s.loaded p.val = false ∨ 799 < frame then .done (s.taken m) 2 [] else if s.bget aIcpstat 23 then .done (s.taken m) 1 []
      else .held (((s.taken m).icpAdd (newJob .rewrite p.val 0 frame (some m.val))).heldLoad m) := by
    refine ⟨_, run_selected (sel := fun w => fld w 23 22 != 1) rfl (by rw [op]; decide), ?_⟩
    have unfit : (fld (mbArg s m 0) 23 22 ≠ 0 ∨ s.padOff p.val = true ∨ (!s.loaded p.val) = true ∨ 799 < frame) ↔ (s.loaded p.val = false ∨ 799 < frame) := by
      simp [op, here]
    simp only [arg0, arg1, arg2, named, State.taken_icpBusy, State.taken_padOff, s.taken_loaded m p.isLt]
    exact if_congr unfit rfl rfl
  obtain ⟨f, run, meaning⟩ := run
  refine ⟨fun unfit => ?_, fun loaded inside busy => ?_, fun loaded inside free => ?_⟩
  · exact completes_unchanged acc run (meaning.trans (if_pos unfit)) (by decide)
  · rw [if_neg (by simp [loaded, inside]), if_pos busy] at meaning
    exact completes_unchanged acc run meaning (by decide)
  · rw [if_neg (by simp [loaded, inside]), if_neg (by rw [free]; decide)] at meaning
    have kept := s.taken_kept m
    have takes := State.icpAdd_takes ((mbKept_same kept (·.icp)).trans idle) (newJob .rewrite p.val 0 frame (some m.val))
    have phase : ((s.taken m).icpAdd (newJob .rewrite p.val 0 frame (some m.val))).mbPhase m = 3 := by
      rw [State.mbPhase, State.fget, takes.words (aMbctl m.val) (by simp only [aMbctl]; omega) (by simp only [aMbctl, aIcpstat]; omega)]
      exact s.taken_mbPhase m
    have pads := takes.pads.trans (mbKept_same kept (·.pads))
    obtain ⟨begun, wait, got, job⟩ := takes.job
    refine completes_held acc run meaning ⟨waits_of_job phase takes.busy rfl takes.job, ?_, pads⟩
    change ((s.taken m).icpAdd (newJob .rewrite p.val 0 frame (some m.val))).icp.map (·.frame) = _
    rw [job]
    rfl

end

section
variable {s t u r : State} {m : Mbox} {h : Head} {p : Pad} {cmd : Nat}

/-! ### Posts of beam-aligned entries (R39, R43) -/

/-- The second word of an entry that a load command posts: a SWAP at the next pass of its position. -/
def swapWord : Word := 0x700000

/-- What a post of such an entry leaves. -/
structure Posts (s t : State) (h : Head) (st : Word) : Prop where
  answer : ∀ a, AnswerWord a → t.rd a = s.rd a
  mboxes : t.mboxes = s.mboxes
  mbOrder : t.mbOrder = s.mbOrder
  repair : t.repair.bad = s.repair.bad
  pads : t.pads = s.pads
  icp : t.icp = s.icp
  entry : fld st 23 21 ≠ 0 ∧ t.heads = s.heads ∨ fld st 23 21 = 0 ∧ t.heads[h].queue.length = s.heads[h].queue.length + 1

theorem Serves.posts {st : Word} (serves : Serves s m t) (f : Posts t u h st) : Serves s m u := serves.keep f.answer f.mboxes f.mbOrder f.repair

/-- With no flip armed the words of an entry are as they are written. -/
theorem State.entered_sound (sound : Sound s) (h : Head) (e : QEntry) : s.entered h e = s.placed h e := by
  have word : ∀ a, AnswerWord a → (s.placed h e).rd a = s.rd a := fun a ha => by
    have := h.isLt
    simp only [State.placed, State.modHead_rd, State.setQueue, State.fset_rd]
    rw [if_neg (by simp only [AnswerWord, aHead] at *; omega)]
  have sound' : Sound (s.placed h e) := sound_of_words sound rfl fun k _ => word _ (by simp only [AnswerWord, aRegion]; omega)
  unfold State.entered
  generalize s.placed h e = t at sound'
  exact List.foldlRecOn (motive := fun u : State => u = t) _ _ rfl fun u hu w _ => by
    rw [hu]
    exact State.writeFlip_sound sound' (by decide) _

/-- Such an entry is never late (R39). -/
theorem State.postLate_next (s : State) (h : Head) (e : QEntry) (next : e.w1 = swapWord) : s.postLate h e = s := by
  have mode : (e.fmode == 1) = false := by
    rw [QEntry.fmode, next]
    decide
  unfold State.postLate State.epochLate
  rw [mode]
  simp

theorem Posts.refused {st : Word} (code : fld st 23 21 ≠ 0) : Posts s s h st := ⟨fun _ _ => rfl, rfl, rfl, rfl, rfl, rfl, .inl ⟨code, rfl⟩⟩

theorem Posts.raise {st : Word} (f : Posts s t h st) (n : Nat) : Posts s (t.raise n) h st := by
  obtain ⟨answer, mboxes, mbOrder, repair, pads, icp, entry⟩ := f
  rw [State.raise_eq]
  exact ⟨answer, mboxes, mbOrder, repair, pads, icp, entry⟩

theorem Posts.evHead {st : Word} (code : fld st 23 21 ≠ 0) (n kind : Nat) : Posts s (s.evHead n kind) h st := by
  unfold State.evHead State.raiseCause
  refine Posts.raise ?_ _
  exact ⟨fun _ _ => rfl, rfl, rfl, rfl, rfl, rfl, .inl ⟨code, rfl⟩⟩

theorem State.post_next (sound : Sound s) (r : Requester) (h : Head) (w0 w2 w3 : Word) :
    Posts s (s.post r h w0 swapWord w2 w3).1 h (s.post r h w0 swapWord w2 w3).2 := by
  by_cases refused : s.postCode h { idx := 0, gen := 0, w0, w1 := swapWord, w2, w3, req := r } ≠ 0
  · have code := (codeWord_fields (s.postCode_lt h { idx := 0, gen := 0, w0, w1 := swapWord, w2, w3, req := r })).1
    rw [State.post_refused r rfl refused]
    dsimp only
    split
    · exact .evHead (by rw [code]; exact refused) _ _
    · exact .refused (by rw [code]; exact refused)
  · obtain ⟨i, g, small, few, -, -, placed⟩ := State.post_accepted r (not_not.1 refused)
    have entered := s.entered_spec h { idx := i, gen := g, w0, w1 := swapWord, w2, w3, req := r }
    have steady := s.entered_sound sound h { idx := i, gen := g, w0, w1 := swapWord, w2, w3, req := r }
    rw [placed, State.postLate_next _ _ _ rfl]
    obtain ⟨-, noFlips⟩ := sound
    have bad : (s.entered h { idx := i, gen := g, w0, w1 := swapWord, w2, w3, req := r }).repair.bad = s.repair.bad := by
      rw [steady]
      rfl
    generalize s.entered h { idx := i, gen := g, w0, w1 := swapWord, w2, w3, req := r } = v at entered bad
    have rest : v.mboxes = s.mboxes ∧ v.mbOrder = s.mbOrder ∧ v.pads = s.pads ∧ v.icp = s.icp := by
      rw [entered.only]
      exact ⟨rfl, rfl, rfl, rfl⟩
    obtain ⟨mboxes, mbOrder, pads, icp⟩ := rest
    refine ⟨fun a ha => entered.unarmed noFlips a ?_, mboxes, mbOrder, bad, pads, icp, .inr ⟨(handle_fields h.isLt few small).1, ?_⟩⟩
    · have := h.isLt
      simp only [AnswerWord, aHead, List.mem_singleton] at *
      omega
    · rw [entered.queue, List.length_append]
      rfl

/-! ### Loads for a position of the raster (R216, R265) -/

theorem State.taken_headOff (s : State) (m : Mbox) (n : Nat) : (s.taken m).headOff n = s.headOff n := mbKept_same (s.taken_kept m) (·.headOff n)

/-- PLOAD for a position. -/
theorem ploadTimed_completes (acc : MbAccepted s m 0x42) (timed : bit (mbArg s m 0) 23 = true) (named : fld (mbArg s m 0) 19 16 = p.val)
    (here : s.padOff p.val = false) (on : s.headOff (fld (mbArg s m 0) 22 20) = false) (own : s.imageFor (fld (mbArg s m 0) 5 0) p.val = true) :
    Completes (.ploadTimed m) s fun t => let st := t.rd (aMbbuf m.val 0x43)
      MbDone s t m (if fld st 23 21 = 0 then 0 else 2) [st] ∧ t.pads = s.pads ∧ t.icp = s.icp ∧ (fld st 23 21 ≠ 0 → t.heads = s.heads) := by
  have arg0 : argAt (s.reqArgs m) 0 = mbArg s m 0 := mbAccepted_arg acc (by decide)
  have arg1 : argAt (s.reqArgs m) 1 = mbArg s m 1 := mbAccepted_arg acc (by decide)
  have head : (Fin.ofNat 8 (fld (mbArg s m 0) 22 20)).val = fld (mbArg s m 0) 22 20 := Nat.mod_eq_of_lt (fld_lt _ 22 20)
  have serves := State.taken_serves acc
  have posts := State.post_next serves.sound .host (Fin.ofNat 8 (fld (mbArg s m 0) 22 20)) (mbArg s m 1) (wd p.val) (wd (fld (mbArg s m 0) 5 0))
  have run : ∃ f, exec (.ploadTimed m) s = .next (s.command m 0x42 anyReq f) ∧ f (s.reqArgs m) (s.taken m) =
      let o := (s.taken m).post .host (Fin.ofNat 8 (fld (mbArg s m 0) 22 20)) (mbArg s m 1) swapWord (wd p.val) (wd (fld (mbArg s m 0) 5 0))
      .done o.1 (if fld o.2 23 21 = 0 then 0 else 2) [o.2] := by
    refine ⟨_, run_selected (sel := fun w => bit w 23) rfl timed, ?_⟩
    simp only [arg0, arg1, named, head, State.taken_headOff, State.taken_padOff, s.taken_imageFor m (fld_image_lt _), on, here, own]
    rfl
  obtain ⟨f, run, meaning⟩ := run
  generalize (s.taken m).post .host (Fin.ofNat 8 (fld (mbArg s m 0) 22 20)) (mbArg s m 1) swapWord (wd p.val) (wd (fld (mbArg s m 0) 5 0)) = o at posts meaning
  refine completes_command acc run meaning (serves.posts posts) (by simp) fun t done kept => ?_
  have result : t.rd (aMbbuf m.val 0x43) = o.2 := by
    obtain ⟨⟨-, -, -, -, -, results, -⟩, -⟩ := done
    exact results 0 (by simp)
  have taken := s.taken_kept m
  refine ⟨by rw [result]; exact done, ?_, ?_, fun refused => ?_⟩
  · rw [mbKept_same kept (·.pads), posts.pads, mbKept_same taken (·.pads)]
  · rw [mbKept_same kept (·.icp), posts.icp, mbKept_same taken (·.icp)]
  · rw [result] at refused
    rw [mbKept_same kept (·.heads), ← mbKept_same taken (·.heads)]
    rcases posts.entry with ⟨-, same⟩ | ⟨taken, -⟩
    · exact same
    · exact absurd taken refused

/-- The code that the first word of a response shows. -/
theorem code_of_mbDone {code : Nat} {res : List Word} (done : MbDone s t m code res) (small : code < 16) (few : res.length < 512) :
    fld (t.rd (aMbbuf m.val 0x40)) 15 12 = code := by
  obtain ⟨⟨-, -, first, -⟩, -⟩ := done
  have dev : t.dev.code < 8 := by cases t.dev <;> decide
  rw [first]
  simp only [fld, nbits, wd, BitVec.toNat_ofNat, Nat.shiftRight_eq_div_pow]
  omega

/-- GLEANREQ of a reload. -/
theorem gleanreqReload_completes (acc : MbAccepted s m 0x43) (op : fld (mbArg s m 0) 23 22 = 1) (named : fld (mbArg s m 1) 19 16 = p.val)
    (here : s.padOff p.val = false) (idle : s.icp = none) (queue : s.icpQueue = []) (unrepaired : s.pads[p].repair = none) :
    (s.loaded p.val = false → Completes (.gleanreqReload m) s fun t => MbDone s t m 2 [] ∧ MbKept s t m []) ∧
    (s.loaded p.val = true → s.bget (aPad p.val 0x0D) 23 = true → s.bget aIcpstat 23 = true → Completes (.gleanreqReload m) s fun t =>
      MbDone s t m 1 [] ∧ MbKept s t m []) ∧
    (s.loaded p.val = true → s.bget (aPad p.val 0x0D) 23 = true → s.bget aIcpstat 23 = false → Completes (.gleanreqReload m) s fun t =>
      Waits t m .load p.val ∧ t.pads[p].closing = true ∧ ∀ o : Pad, o ≠ p → t.pads[o] = s.pads[o]) ∧
    (s.loaded p.val = true → s.bget (aPad p.val 0x0D) 23 = false → s.running (s.fget (aPad p.val 0x0D) 22 20) = true →
      Completes (.gleanreqReload m) s fun t => let h : Head := Fin.ofNat 8 (s.fget (aPad p.val 0x0D) 22 20)
        t.pads = s.pads ∧ t.icp = s.icp ∧ t.mbPhase m = 4 ∧
          ((t.heads[h].queue.length = s.heads[h].queue.length + 1 ∧ fld (t.rd (aMbbuf m.val 0x40)) 15 12 = 0) ∨
           (t.heads = s.heads ∧ fld (t.rd (aMbbuf m.val 0x40)) 15 12 = 2))) := by
  let h : Head := Fin.ofNat 8 (s.fget (aPad p.val 0x0D) 22 20)
  let img := s.fget (aPad p.val 0x0A) 19 14
  let post := (s.taken m).post ((s.taken m).caeruno m) h (wd (s.fget (aPad p.val 0x0D) 11 0 * 4096)) swapWord (wd p.val) (wd img)
  have arg1 : argAt (s.reqArgs m) 1 = mbArg s m 1 := mbAccepted_arg acc (by decide)
  have pad : Fin.ofNat 16 (fld (mbArg s m 1) 19 16) = p := by rw [named]; exact Fin.ext (Nat.mod_eq_of_lt p.isLt)
  have head : h.val = s.fget (aPad p.val 0x0D) 22 20 := Nat.mod_eq_of_lt (fld_lt _ 22 20)
  have word : ∀ o < 64, (s.taken m).rd (aPad p.val o) = s.rd (aPad p.val o) := fun o ho => s.taken_rd_fabric m (by simp only [aPad]; omega)
  have running : (s.taken m).running h.val = s.running h.val := congrArg (bit · 23) (s.taken_rd_fabric m (by simp only [aHead]; omega))
  have run : ∃ f, exec (.gleanreqReload m) s = .next (s.command m 0x43 anyReq f) ∧ f (s.reqArgs m) (s.taken m) =
      if !s.loaded p.val then .done (s.taken m) 2 []
      else if s.bget (aPad p.val 0x0D) 23 || !s.running h.val then
        if s.bget aIcpstat 23 then .done (s.taken m) 1 [] else .held (((s.taken m).swapStart p img false (some m.val)).heldLoad m)
      else .done post.1 (if fld post.2 23 21 = 0 then 0 else 2) [post.1.peekReg aIcpstat] := by
    refine ⟨_, run_selected (sel := fun w => fld w 23 22 == 1) rfl (by rw [op]; decide), ?_⟩
    simp only [arg1, pad, State.taken_padOff, here, s.taken_loaded m p.isLt, word 0x0D (by decide), word 0x0A (by decide), State.taken_icpBusy,
      State.fget, Bool.false_or]
    rw [← running]
    rfl
  obtain ⟨f, run, meaning⟩ := run
  refine ⟨fun unloaded => ?_, fun loaded now busy => ?_, fun loaded now free => ?_, fun loaded later runs => ?_⟩
  · exact completes_unchanged acc run (meaning.trans (if_pos (by rw [unloaded]; rfl))) (by decide)
  · rw [if_neg (by rw [loaded]; decide), if_pos (by rw [now]; rfl), if_pos busy] at meaning
    exact completes_unchanged acc run meaning (by decide)
  · rw [if_neg (by rw [loaded]; decide), if_pos (by rw [now]; rfl), if_neg (by rw [free]; decide)] at meaning
    exact completes_held acc run meaning (swapStart_waits idle queue unrepaired img false).1
  · rw [if_neg (by rw [loaded]; decide), if_neg (by rw [later, head, runs]; decide)] at meaning
    have serves := State.taken_serves acc
    have posts : Posts (s.taken m) post.1 h post.2 := State.post_next serves.sound _ h _ _ _
    generalize post = o at posts meaning
    have taken := s.taken_kept m
    have heads : (s.taken m).heads = s.heads := mbKept_same taken (·.heads)
    refine completes_command acc run meaning (serves.posts posts) (by simp) fun t done kept => ?_
    have code := code_of_mbDone done (by split <;> decide) (by simp)
    obtain ⟨⟨phase, -⟩, -⟩ := done
    refine ⟨?_, ?_, phase, ?_⟩
    · rw [mbKept_same kept (·.pads), posts.pads, mbKept_same taken (·.pads)]
    · rw [mbKept_same kept (·.icp), posts.icp, mbKept_same taken (·.icp)]
    · rw [mbKept_same kept (·.heads), code]
      rcases posts.entry with ⟨refused, same⟩ | ⟨accepted, longer⟩
      · exact .inr ⟨same.trans heads, if_neg refused⟩
      · rw [heads] at longer
        exact .inl ⟨longer, if_pos accepted⟩

end

/-- Settles O15: each command's checks refuse before anything changes; STAGE places its parts entry by entry, a load or a request at once is held for the job that the ICP takes up, a
timed one is a post of an entry that cannot be late, BIND's record is seen in DRAM at once, and the fuse commands burn what they name. -/
theorem servedStreamCommands : Obligations.ServedStreamCommands := by
  unfold Obligations.ServedStreamCommands
  intro s m arg gives orRead waits swaps g x
  refine ⟨fun acc => ?_, fun acc => unstage_completes acc, fun p named here idle queue unrepaired => ⟨fun acc now => ?_, fun acc timed on own => ?_⟩,
    fun p named here idle queue unrepaired => ⟨fun acc op => ?_, fun acc op => ?_⟩, fun acc => ?_, ⟨fun e k valid key => ⟨fun acc which => ?_, fun acc which n slot => ?_⟩, fun acc => ?_⟩,
    fun acc de => attkey_completes acc de⟩
  · obtain ⟨unfit, unkeyed, few⟩ := stage_refused acc
    exact ⟨unfit, unkeyed, few, stage_completes acc⟩
  · exact pload_completes acc now named here idle queue unrepaired
  · exact ploadTimed_completes acc timed named here on own
  · exact gleanreqRewrite_completes acc op named here idle
  · exact gleanreqReload_completes acc op named here idle queue unrepaired
  · obtain ⟨unfit, unkeyed⟩ := bind_refused acc
    exact ⟨unfit, unkeyed, fun k0 => bind_completes acc⟩
  · exact arbraise_completes acc which valid key
  · exact revoke_completes acc slot which valid key
  · exact famkey_completes acc

end Sys2Proof.Machine
end
